-- ==== Sys2Proof/Word.lean ====
section
/-! DEFINITION. The two word types of the part: a byte of a bank or of DRAM, and a register word (R29). -/

namespace Sys2Proof

/-- A byte of a memory bank, of DRAM or of a frame's payload. -/
abbrev Byte := BitVec 8

/-- A register (R29: every register is 32 bits wide). -/
abbrev Word := BitVec 32

end Sys2Proof
end

