-- ==== Sys2Proof/Syntax.lean ====
section
/-! DEFINITION. The commands of the block: one constructor for each row of the spec's table, with the operands that say when it happens (a tick of
the timebase, or the number of the frame whose instant it is), where, and what arrives. -/

namespace Sys2Proof

/-- Whose operation on the NV port has exceeded its limit (R374, R379): the flush's, the background erase's, the host command's, the start
marker's, a calibration save's. -/
inductive NvUser where
  | flush | erase | host | marker | save
  deriving DecidableEq, Repr

/-- What the squelch of a lane sees: activity, or none. -/
structure Squelch where
  lane : Fin 20
  on : Bool
  deriving DecidableEq, Repr

/-- A camera packet that brings no frame and no line (R265): a short packet other than FS and FE, with whether its header was corrected; a packet
that an SoT sync error discards; or one whose header ECC cannot correct, with the context of the port, if any, whose line it would have been. -/
inductive CsiDiscard where
  | short (corrected : Bool)
  | sot
  | header (slot : Option (Fin 8))
  deriving DecidableEq, Repr

/-- Bits that a lane's receiver has taken, oldest first. -/
structure LaneBits where
  lane : Fin 20
  line : List Bool
  deriving DecidableEq, Repr

/-- A bit that a lane's receiver has taken from its pins. -/
structure LaneBit where
  lane : Fin 20
  bit : Bool
  deriving DecidableEq, Repr

/-- A command. Operand `t` is the tick at which it happens, `n` or `m` a frame, `q` a plan tick, `r` a sensor round; `p` is a page, `l` a lane in the
order HOST_A, HOST_B, PEER_A, PEER_B, HEAD_0 to HEAD_15, `b` a brush, `a` an axis, `h` a head, `e` an engine, `k` a camera context. -/
inductive Instr where
  /-- REGISTER_WRITE (R5). A host write to a register that has no row of its own stores or acts on the written value according to each field's access type. -/
  | registerWrite (t : Nat) (addr : Nat) (v : Word)
  /-- REGISTER_READ_CLEAR (R5). A host read of an RC field returns its current value and clears it to its reset value in the same access. -/
  | registerReadClear (t : Nat) (addr : Nat)
  /-- CTRL_EN_WRITE (R34). A write to CTRL.EN records the latest requested state and moves the block state machine or sets EN_PENDING. -/
  | ctrlEnWrite (t : Nat) (p : Fin 256) (en : Bool)
  /-- SOFT_RESET (R37). A write of CTRL.SOFT_RESET = 1 returns the page to OFF with reset values within 64 tk and empties its crossings. -/
  | softReset (t : Nat) (p : Fin 256)
  /-- EVENT_CLEAR (R43). A W1C write to EVENT clears the written bits unless an assertion falls in the same cycle. -/
  | eventClear (t : Nat) (p : Fin 256) (bits : Word)
  /-- EVENT_FORCE (R43). A write of 1 to an EVENT_FORCE bit asserts that event source once, stamped with the write's arrival tick. -/
  | eventForce (t : Nat) (p : Fin 256) (bits : Word)
  /-- COMMIT (R38). A write of 1 to COMMIT sets COMMIT_PENDING and records the commit tick. -/
  | commit (t : Nat) (p : Fin 256)
  /-- SHADOW_TRANSFER (R38). At the first block boundary after the commit tick, every shadow of the page is copied to its active copy and COMMITTED is asserted. -/
  | shadowTransfer (t : Nat) (p : Fin 256)
  /-- SNAPSHOT_TAKE (R41). A write of SNAPSHOT.TAKE = 1 latches every snapshot counter and group of the page at one instant. -/
  | snapshotTake (t : Nat) (p : Fin 256)
  /-- BLOCK_SEQUENCE_END (R34). A block's STARTING or STOPPING sequence completes and STATE moves on according to the latest CTRL.EN. -/
  | blockSequenceEnd (t : Nat) (p : Fin 256)
  /-- BLOCK_TRANSIT_CYCLE_END (R34). After one cycle of OFF or ON following a pending request, the block moves to STARTING or STOPPING. -/
  | blockTransitCycleEnd (t : Nat) (p : Fin 256)
  /-- TXN_READ (R87). A READ transaction returns COUNT + 1 bytes from ADDR in one CPL, after every earlier transaction of its port. -/
  | txnRead (t : Nat) (port : Fin 2) (tag : BitVec 16) (addr : BitVec 40) (count : Fin 256)
  /-- TXN_WRITE (R87). A WRITE transaction stores its data and returns a CPL without data once the effect is in place. -/
  | txnWrite (t : Nat) (port : Fin 2) (tag : BitVec 16) (addr : BitVec 40) (count : Fin 256) (data : List Byte)
  /-- TXN_WRITE_POSTED (R87). A WRITE_POSTED transaction stores its data without a CPL and is counted in POSTED_DONE once in place. -/
  | txnWritePosted (t : Nat) (port : Fin 2) (tag : BitVec 16) (addr : BitVec 40) (count : Fin 256) (data : List Byte)
  /-- TXN_FENCE (R89). A FENCE transaction waits for earlier transactions of its port, and with CROSS of the other port, to take effect. -/
  | txnFence (t : Nat) (port : Fin 2) (tag : BitVec 16) (cross : Bool)
  /-- FENCE_COMPLETE (R89). Every transaction a FENCE waits for has taken effect and its CPL becomes ready. -/
  | fenceComplete (t : Nat) (port : Fin 2)
  /-- CPL_SEND (R89). A ready CPL leaves on its host port in readiness order once the line is free. -/
  | cplSend (t : Nat) (port : Fin 2)
  /-- FRAME_RECEIVE (R83). A received frame is checked for HCRC, type, length and PCRC and is accepted or discarded: what the
  line carried since the receiver last entered gap search stands in six parts, one after the other and each oldest bit first, as the fill of the
  gap, the delimiter, and the header, payload and their CRCs as they cross the line; a part may be empty or hold more than its name says. -/
  | frameReceive (t : Nat) (l : Fin 20) (fill delim hdr hcrc payload pcrc : List Bool)
  /-- IDLE_SEND (R70). When no frame has begun for 4,096 UI the transmitter sends an IDLE frame. -/
  | idleSend (t : Nat) (l : Fin 20)
  /-- LANE_ACTIVITY (R71). The receiver's squelch sees activity for 64 ns and the lane leaves bring-up phase IDLE for ACQUIRE;
  or it sees none. -/
  | laneActivity (t : Nat) (q : Squelch)
  /-- CDR_LOCK (R71). The lane's recovery loop locks and the lane moves from ACQUIRE to ALIGN. -/
  | cdrLock (t : Nat) (l : Fin 20)
  /-- FRAME_LOCK (R70). Eight consecutive frames pass their checks and the receiver gains frame lock. -/
  | frameLock (t : Nat) (l : Fin 20)
  /-- CAP_SEND (R71). In CAPX the lane sends a CAP frame every 5 µs. -/
  | capSend (t : Nat) (l : Fin 20)
  /-- CAP_RECEIVE (R71). A valid CAP is received; ACK is set, partner rates recorded, and the lane reaches UP when both CAPs are acknowledged. -/
  | capReceive (t : Nat) (l : Fin 20) (w0 : Nat) (w1 : Nat) (w2 : Nat) (w3 : Nat)
  /-- BRINGUP_PHASE_TIMEOUT (R72). A bring-up phase exceeds its limit or 1 ms passes without UP; the attempt fails and bring-up restarts at 1.6 Gb/s. -/
  | bringupPhaseTimeout (t : Nat) (l : Fin 20)
  /-- FRAME_LOCK_LOSS (R72). A lane in UP loses frame lock, asserts UNLOCK, counts LOCK_LOSSES and repeats bring-up. -/
  | frameLockLoss (t : Nat) (l : Fin 20) (cause : Fin 3) (activity : Bool)
  /-- TX_TIMING_SWITCH (R64). At the first inter-frame gap after root lock the host and peer transmitters move from loop timing to CLK_ROOT. -/
  | txTimingSwitch (t : Nat) (l : Fin 4)
  /-- STEP_CTRL_GO (R74). A write of STEP_CTRL.GO requests a rate step at T_s, which is refused with a RESULT or accepted and STEP_REQ sent. -/
  | stepCtrlGo (t : Nat) (l : Fin 20) (rate : Fin 4)
  /-- STEP_ACK_DEADLINE (R75). No STEP_ACK has arrived by T_s − 64,000 tk and the step is cancelled with RESULT 5. -/
  | stepAckDeadline (t : Nat) (l : Fin 20)
  /-- STEP_QUIESCE (R75). From T_s − 12,800 tk no frame is started on the lane that could still be on the line at T_s. -/
  | stepQuiesce (t : Nat) (l : Fin 20)
  /-- STEP_LAUNCH (R75). At T_s a CAP with STEP_GO is launched, the transmitter changes rate, and a reference lane's PLL enters hold. -/
  | stepLaunch (t : Nat) (l : Fin 20)
  /-- STEP_RELOCK_TIMEOUT (R75). Frame lock at the new rate is not reached in time; RESULT 6, STEP_FAIL and bring-up at 1.6 Gb/s. -/
  | stepRelockTimeout (t : Nat) (l : Fin 20)
  /-- LOOP_INJECT (R78). LOOP_CMD.INJECT inverts one generated pattern bit. -/
  | loopInject (t : Nat) (l : Fin 20)
  /-- LOOP_CLEAR (R78). LOOP_CMD.CLEAR clears every lane and frame-level counter of the page. -/
  | loopClear (t : Nat) (l : Fin 20)
  /-- LOOP_CTRL_WRITE (R77). A write of LOOP_CTRL sets the loop mode while OFF and clears the checker counters when CHK_EN rises. -/
  | loopCtrlWrite (t : Nat) (l : Fin 20) (v : Word)
  /-- MISSING_EDGE (R55). A candidate's clock-free missing-edge detector fires and the candidate becomes invalid. -/
  | missingEdge (t : Nat) (c : Fin 4)
  /-- FREQ_WINDOW_END (R50). A frequency monitor window of 65,536 CLK_CORE cycles ends and a candidate outside ±REF_TOL becomes invalid. -/
  | freqWindowEnd (t : Nat) (o0 : Int) (o1 : Int) (o2 : Int) (o3 : Int)
  /-- CANDIDATE_QUALIFIED (R50). A candidate's validity conditions have held for the qualification time and it becomes valid, possibly causing a revertive switch. -/
  | candidateQualified (t : Nat) (c : Fin 4)
  /-- HOLD_LOCK (R52). The root PLL's phase error stays below 16 ps for 1,024 reference cycles and hold ends in lock. -/
  | holdLock (t : Nat)
  /-- HOLD_EXPIRED (R53). A hold reaches 20 µs without lock; the candidate is marked invalid and a new hold or coasting begins. -/
  | holdExpired (t : Nat)
  /-- COAST_EXIT_LOCK (R59). After a candidate returns, the PLL slews back and locks, ending coasting, or returns to coasting on failure. -/
  | coastExitLock (t : Nat) (ok : Bool)
  /-- SAFE_HOLD_CLEAR (R59). A write of SAFE_HOLD_CLEAR.GO after coasting ends releases the force and moves the device to LINKED. -/
  | safeHoldClear (t : Nat)
  /-- FMEAS_START (R60). A write of FMEAS_START.GO starts or restarts a frequency measurement. -/
  | fmeasStart (t : Nat)
  /-- FMEAS_DONE (R60). A frequency measurement's gate completes and FMEAS_COUNT holds the result. -/
  | fmeasDone (t : Nat) (n : Nat)
  /-- FMEAS_TIMEOUT (R60). A measurement runs 2^32 CLK_CORE cycles without completing and ends with TIMEOUT. -/
  | fmeasTimeout (t : Nat)
  /-- FRAME_START (R16). A frame starts at every multiple of 16,000 tk; medium samples latch, miss decisions and set-point work begin, and pending rate or step takes effect. -/
  | frameStart (n : Nat)
  /-- EXCHANGE_CUT (R18). At t0 + 15,040 commands become final, the engine frame changes, gate timers load the next frame's edges and settle checks run. -/
  | exchangeCut (n : Nat)
  /-- HEAD_DN_LAUNCH (R92). At t0 + 15,360 every UP head lane launches a HEAD_DN carrying the engine frame's commands. -/
  | headDnLaunch (n : Nat)
  /-- HEAD_UP_RECEIVE (R98). A HEAD_UP is accepted; sample A is written to BANK_SERVO and passed to glaze, or sample B to glaze. -/
  | headUpReceive (t : Nat) (h : Fin 16) (rx : Nat) (w : Vector Word 8)
  /-- SAMPLE_A_DEADLINE (R98). At t0 + 3,840 a sample A not accepted is missing; it is counted and may make the head link unhealthy. -/
  | sampleADeadline (n : Nat)
  /-- SAMPLE_B_DEADLINE (R98). At t0 + 11,840 a sample B not accepted is missing and counted for glaze only. -/
  | sampleBDeadline (n : Nat)
  /-- MBX_SEND (R99). A write of MBX_CTRL.SEND places MBX_OUT in the next HEAD_DN and sets BUSY. -/
  | mbxSend (t : Nat) (h : Fin 16)
  /-- MBX_TIMEOUT (R99). No mailbox answer within 64 frames clears BUSY and sets MBX_TIMEOUT. -/
  | mbxTimeout (t : Nat) (h : Fin 16)
  /-- SYNC_RECEIVE (R111). An accepted SYNC from the current master yields an offset that steps or steers the timebase and updates TSTATE. -/
  | syncReceive (t : Nat) (port : Fin 4) (origin : Nat) (corr : Int) (seqId : Nat) (masterId : Nat) (interval : Int)
  /-- DLY_REQ_LAUNCH (R110). Every 2^INTERVAL frames a DLY_REQ is launched at t0 + 4,000 on each time port that is UP. -/
  | dlyReqLaunch (n : Nat)
  /-- DLY_REQ_RECEIVE (R107). A DLY_REQ is forwarded to the time port with its residence added, or answered in master mode. -/
  | dlyReqReceive (t : Nat) (port : Fin 4) (txTime : Nat) (seqId : Nat) (senderId : Nat)
  /-- DLY_RSP_RECEIVE (R110). A DLY_RSP is consumed to update the mean path delay or routed to a forward port by its SEQ_ID. -/
  | dlyRspReceive (t : Nat) (port : Fin 4) (reqRx : Nat) (reqCorr : Nat) (seqId : Nat) (responder : Nat)
  /-- DLY_TIMEOUT (R110). No DLY_RSP within 1 ms ends the exchange and the port keeps its previous delay. -/
  | dlyTimeout (t : Nat) (port : Fin 4)
  /-- TIME_FRAME_FORWARD (R107). A forwarded SYNC, DLY_REQ or DLY_RSP leaves its output port with residence inserted when the line is free. -/
  | timeFrameForward (t : Nat) (port : Fin 4)
  /-- SYNC_LAUNCH (R117). In master mode a SYNC with inserted ORIGIN is launched on the master ports at the scheduled frame starts. -/
  | syncLaunch (t : Nat)
  /-- SYNC_LOSS (R115). No SYNC from the current master within the loss time puts the timebase in HOLDOVER. -/
  | syncLoss (t : Nat)
  /-- LAUNCH (R118). A queued launch-timed frame leaves with the last bit of its delimiter at its tick, or is late. -/
  | launch (t : Nat) (l : Fin 20)
  /-- ADJ_HI_WRITE (R113). A write of ADJ_HI applies the signed adjustment at the next frame start, or is refused. -/
  | adjHiWrite (t : Nat) (v : Word)
  /-- VDD_AON_POR (R127). VDD_AON rises through its threshold; the power-on reset clears everything and the device enters DORMANT. -/
  | vddAonPor (t : Nat)
  /-- VDD_AON_LOSS (R412). VDD_AON falls below its reset threshold and the device enters OFF, clearing the shutdown latch. -/
  | vddAonLoss (t : Nat)
  /-- WAKE_EVENT (R125). A lane swing or the WAKE pin is held for the qualification time and the device enters WAKING with PWR_REQ high. -/
  | wakeEvent (t : Nat) (c : Fin 5)
  /-- WAKE_BLANK_END (R125). The blanking delay after PWR_REQ falling ends and a held wake event acts. -/
  | wakeBlankEnd (t : Nat)
  /-- PG_IN_HIGH (R126). PG_IN counts as high and the primer sequence switches on PD_SYS and PD_LINK and latches the straps. -/
  | pgInHigh (t : Nat) (roleB : Bool)
  /-- PG_TIMEOUT (R126). PG_IN has not counted as high within PG_TIMEOUT; PWR_REQ drops, ALERT_L asserts and the device returns to DORMANT. -/
  | pgTimeout (t : Nat)
  /-- PG_IN_LOW (R133). PG_IN counts as low and a power-fail reset forces emission outputs and clears the switched domains. -/
  | pgInLow (t : Nat)
  /-- PRIMER_LINK_READY (R127). The first candidate reaches frame lock, the root PLL locks, the timebase starts and the selected port is UP. -/
  | primerLinkReady (t : Nat) (c : Fin 4)
  /-- LINK_WAIT_TIMEOUT (R128). Primer step 6 does not end within LINK_WAIT; domains switch off and the device returns to DORMANT. -/
  | linkWaitTimeout (t : Nat)
  /-- PRIMER_DONE (R127). Fuse, NV and recorder loading and the start marker write complete and the device enters LINKED. -/
  | primerDone (t : Nat) (fuseOk : Bool) (nvId : Option Nat) (markerOk : Bool) (us : Nat)
  /-- RESET_L_ASSERT (R133). RESET_L low for 1 µs forces emission outputs and clears the switched domains. -/
  | resetLAssert (t : Nat)
  /-- RESET_L_RELEASE (R133). On release of RESET_L with PG_IN high the primer restarts from step 5, otherwise the device goes DORMANT. -/
  | resetLRelease (t : Nat)
  /-- DEVICE_COMMAND (R134). RESET_CMD KIND 1 with the key forces outputs, clears the switched domains and restarts the primer after 10 µs. -/
  | deviceCommand (t : Nat) (key : Nat)
  /-- DEVICE_COMMAND_RESTART (R133). 10 µs after a device command the primer sequence restarts from step 5. -/
  | deviceCommandRestart (t : Nat)
  /-- DORMANT_COMMAND (R134). RESET_CMD KIND 2 with the key, when accepted, flushes the recorder, drops PWR_REQ and enters DORMANT. -/
  | dormantCommand (t : Nat) (key : Nat)
  /-- DOMAIN_CTRL_WRITE (R131). A write of DOMAIN_CTRL records requests and works through switch-offs then switch-ons, refusing those not allowed. -/
  | domainCtrlWrite (t : Nat) (v : Word)
  /-- DOMAIN_SWITCH_ON_DONE (R132). A domain switch-on completes after reset, repair and bank clearing; ON is set and the next switch begins. -/
  | domainSwitchOnDone (t : Nat)
  /-- DOMAIN_SWITCH_OFF_DONE (R132). A domain switch-off completes; ON is cleared and the next queued switch begins. -/
  | domainSwitchOffDone (t : Nat)
  /-- PFAIL (R137). PFAIL_L falls; PFAIL is asserted and a POWER_FAIL recorder flush is requested. -/
  | pfail (t : Nat)
  /-- SYS_START (R130). SYS STARTING ends after 16 cycles and the device becomes ACTIVE, releasing waiting BRUSH pages. -/
  | sysStart (t : Nat)
  /-- CHAIN_START (R182). A write of CHAIN_HI starts fetching the chain's first header when allowed, else sets CHAIN_IGNORED. -/
  | chainStart (t : Nat) (b : Fin 16) (v : Word)
  /-- HEADER_FETCHED (R156). A fetched sheet header is checked; a failed check faults the brush with SHEET_BAD. -/
  | headerFetched (t : Nat) (b : Fin 16)
  /-- NEXT_POLL (R158). Every 64 frames while NEXT is 0 the sequencer reads NEXT of the sheet in force. -/
  | nextPoll (t : Nat) (b : Fin 16)
  /-- SHEET_BOUNDARY (R157). A sheet's boundary is reached; the old list ends, the new sheet and its sets take force, anchors and state reset. -/
  | sheetBoundary (t : Nat) (b : Fin 16)
  /-- LATE_SHEET_TAKES_EFFECT (R159). A sheet whose boundary has passed takes effect at the first frame start after its fetch and checks. -/
  | lateSheetTakesEffect (t : Nat) (b : Fin 16)
  /-- BLOCK_FETCH_REQUEST (R161). A fetch path requests the next 64-record block once its window has room and fewer than 4 requests are outstanding. -/
  | blockFetchRequest (t : Nat) (b : Fin 16) (pathB : Bool)
  /-- BLOCK_ARRIVAL (R161). A fetched block arrives in its reserved window space and its records become resident. -/
  | blockArrival (t : Nat) (b : Fin 16) (pathB : Bool) (k : Nat)
  /-- TIMED_RECORD_END (R150). A timed record reaches t_s + D; the pen takes its end point and the following records without duration are processed. -/
  | timedRecordEnd (t : Nat) (b : Fin 16)
  /-- WAIT_COMPLETE (R151). A WAIT_TIME or WAIT_MEDIUM completes and, with REANCHOR, moves the anchors. -/
  | waitComplete (t : Nat) (b : Fin 16)
  /-- GATE_EDGE (R169). A GATE or PSYNC edge is issued from its delay line tap so that it crosses the ball at its tick. -/
  | gateEdge (t : Nat) (b : Fin 16) (timerA : Bool) (kind : Fin 4)
  /-- TWIN_UNPAIRED_TIMEOUT (R170). One timer's edge has no partner within 8 tk and the brush's knife trips. -/
  | twinUnpairedTimeout (t : Nat) (b : Fin 16)
  /-- GLAZE_COMPUTE (R292). Glaze forms the power word of a latch from the scheduled power, class, metric and factor state. -/
  | glazeCompute (n : Nat) (half : Bool) (b : Fin 16)
  /-- POWER_BURST_START (R174). At t_L − 4,480 the laser port starts shifting the 32-bit power word on LPW_CK and LPW_DA. -/
  | powerBurstStart (n : Nat) (half : Bool) (b : Fin 16)
  /-- POWER_WORD_LATCH (R174). At t_L LPW_DA gives the latch strobe for the word just sent. -/
  | powerWordLatch (n : Nat) (half : Bool) (b : Fin 16)
  /-- LASER_READY_CHANGE (R176). The filtered READY input changes; READY_LOST or READY_UP is asserted and the brush may fault. -/
  | laserReadyChange (t : Nat) (b : Fin 16) (v : Bool)
  /-- LASER_FAULT_CHANGE (R176). The filtered FAULT input rises; LASER_FAULT is asserted and the brush may fault. -/
  | laserFaultChange (t : Nat) (b : Fin 16) (v : Bool)
  /-- PARK_END (R183). The parking profile has arrived and the axes have settled for 4 cuts, ending the brush's STOPPING. -/
  | parkEnd (t : Nat) (b : Fin 16)
  /-- PARK_TIMEOUT (R183). PARK_TIMEOUT frames pass before parking ends and STOPPING ends with PARK_TIMEOUT set. -/
  | parkTimeout (t : Nat) (b : Fin 16)
  /-- ENCODER_EDGE (R188). A filtered encoder input edge changes the count, or in quadrature is a quadrature error. -/
  | encoderEdge (t : Nat) (n : Fin 4) (a : Bool) (b : Bool) (z : Bool)
  /-- INDEX_ARM (R190). A write of INDEX_ARM.ARM arms the Z input capture. -/
  | indexArm (t : Nat) (n : Fin 4)
  /-- INDEX_CAPTURE (R190). The first rising Z edge after arming latches count and stamp, sets INDEX_VALID and asserts INDEX. -/
  | indexCapture (t : Nat) (n : Fin 4)
  /-- ESTIMATOR_UPDATE (R191). At t0 + 3,200 the medium estimator updates from the frame's sample or coasts if it is missing. -/
  | estimatorUpdate (n : Nat)
  /-- TARGET_REMOVE (R198). A target table entry leaves the table 16 frames after its tick has been reached. -/
  | targetRemove (t : Nat)
  /-- TILE_CLOSE (R213). A tile closes at the end of its last line, a boundary or the brush leaving ON; incomplete rectangles are reported. -/
  | tileClose (t : Nat) (b : Fin 16)
  /-- RASTER_FETCH_DONE (R211). A tile descriptor or line bytes arrive in the raster engine's buffers. -/
  | rasterFetchDone (t : Nat) (b : Fin 16) (k : Nat) (idx : Nat) (line : Bool)
  /-- SWATCH_COMPARE (R217). A rectangle's pixel count completes and its CRC is compared with EXPECTED, tripping on mismatch with TRIP. -/
  | swatchCompare (t : Nat) (b : Fin 16)
  /-- ENGINE_FRAME_START (R223). An engine frame begins at the cut; AXIS shadows commit and the slots are computed in ascending order. -/
  | engineFrameStart (m : Nat)
  /-- TRACE_ARM (R243). TRACE_CMD.ARM clears the ring state and starts trace recording. -/
  | traceArm (t : Nat) (e : Fin 4)
  /-- TRACE_STOP (R243). TRACE_CMD.STOP stops trace recording at once. -/
  | traceStop (t : Nat) (e : Fin 4)
  /-- INJECT_WRITE (R244). A write to INJECT selects the injection and reseeds the PRBS15 generator. -/
  | injectWrite (t : Nat) (e : Fin 4) (v : Word)
  /-- PLAN_TICK (R254). At each plan tick gen_step runs for every stepper, phase currents are formed and the axis port burst starts. -/
  | planTick (q : Nat)
  /-- STEP_TARGET_WRITE (R254). A write of TARGET_HI sets the stepper target from the next plan tick. -/
  | stepTargetWrite (t : Nat) (n : Fin 8) (v : Word)
  /-- UP_FRAME_CHECK (R259). The bridge's up frame is checked; accepted frames feed the load-angle estimate, missing ones are counted:
  the changes at the STP_DI ball since T_q stand in four parts, one after the other, as those of each word; each change has its offset in tk and the
  level from there on. -/
  | upFrameCheck (t : Nat) (n : Fin 8) (di0 di1 di2 di3 : List (Nat × Bool))
  /-- STEPPER_HOLD_END (R263). After stopping, 100 plan ticks at full current pass and the stepper sends 4 disable bursts and is OFF. -/
  | stepperHoldEnd (t : Nat) (n : Fin 8)
  /-- CSI_FRAME_START (R268). An FS packet opens a context frame, stamped FS_TIME, and assigns its trigger sequence number. -/
  | csiFrameStart (t : Nat) (p : Fin 4) (vc : Fin 16) (fn : BitVec 16) (corrected : Bool)
  /-- CSI_FRAME_END (R268). An FE packet closes the context's open frame. -/
  | csiFrameEnd (t : Nat) (p : Fin 4) (vc : Fin 16) (corrected : Bool)
  /-- CSI_LONG_PACKET (R267). A long packet is routed to its context and enters the input buffer whole, or is dropped. -/
  | csiLongPacket (t : Nat) (p : Fin 4) (vc : Fin 16) (dt : Fin 64) (l : List Byte) (crcOk : Bool) (corrected : Bool)
  /-- PIPELINE_PACKET (R270). The pipeline takes one whole packet from the input buffer and processes its pixels into the metrics. -/
  | pipelinePacket (t : Nat) (p : Fin 4)
  /-- FRAME_LIMIT_EXPIRY (R268). FRAME_LIMIT tk pass from FS_TIME without an FE and the frame ends TRUNCATED. -/
  | frameLimitExpiry (t : Nat) (k : Fin 32)
  /-- FRAME_RECORDS_COMPLETE (R272). A frame's metric records are complete and, where configured, the frame is stored. -/
  | frameRecordsComplete (t : Nat) (k : Fin 32)
  /-- RECORD_READY (R279). A metric record becomes ready in order, is written to its ring and enters the release queue. -/
  | recordReady (t : Nat) (cls : Fin 2)
  /-- BATCH_DELIVER (R279). At t0(n + 1) batch n of metric records reaches the GLAZE pages. -/
  | batchDeliver (n : Nat)
  /-- TRIGGER_LAUNCH (R273). A camera trigger drives its active edge at its launch tick and takes the next sequence number. -/
  | triggerLaunch (t : Nat) (o : Fin 8)
  /-- TRIGGER_END (R273). At v + WIDTH the trigger output returns to its inactive level. -/
  | triggerEnd (t : Nat) (o : Fin 8)
  /-- ONESHOT_WRITE (R273). A write of ONESHOT_HI queues one trigger launch, or discards a late one. -/
  | oneshotWrite (t : Nat) (k : Fin 32) (v : Word)
  /-- STREAM_FRAME_SEND (R100). A STREAM frame of a stored image leaves its host port when no higher-priority frame is ready. -/
  | streamFrameSend (t : Nat) (k : Fin 32)
  /-- MET_LAUNCH (R280). Device A launches a MET frame carrying batch n at t0(n) + 4,800 on each UP peer port. -/
  | metLaunch (n : Nat)
  /-- MET_RECEIVE (R280). Device B accepts a MET frame and takes its records as batch n. -/
  | metReceive (t : Nat) (frame : Word) (count : Fin 5) (l : List Byte)
  /-- EVENT_INTAKE (R400). The collector takes waiting offers into the sort buffer, creating or merging entries. -/
  | eventIntake (t : Nat)
  /-- EVENT_DELIVERABLE (R401). An entry's stamp is 2 µs old and it moves in key order into the host queue with the next QSEQ. -/
  | eventDeliverable (t : Nat)
  /-- EVT_SEND (R91). An EVT frame carrying up to 8 deliverable messages leaves on the selected host port. -/
  | evtSend (t : Nat)
  /-- ILK_DEPART (R300). An interlock channel leaves its OK level; the clock-free force acts and INTERLOCK latches on every brush. -/
  | ilkDepart (t : Nat) (i : Fin 4) (a : Bool) (b : Bool)
  /-- ILK_RETURN (R300). An interlock returns to OK and the clock-free force is released. -/
  | ilkReturn (t : Nat) (i : Fin 4)
  /-- DISC_TIMEOUT (R301). An interlock stays DISCREPANT for DISC_TIME and DISCREPANCY latches on every brush. -/
  | discTimeout (t : Nat) (i : Fin 4)
  /-- KNIFE_ARM_SET (R305). A keyed ARM_SET write arms the masked brushes that have no cause latched. -/
  | knifeArmSet (t : Nat) (key : Nat) (mask : BitVec 16)
  /-- KNIFE_DISARM (R305). A DISARM write clears ARM for the masked brushes within 128 tk. -/
  | knifeDisarm (t : Nat) (mask : BitVec 16)
  /-- KNIFE_CLEAR (R305). A keyed CLEAR write clears the latched causes that are no longer present for the masked brushes. -/
  | knifeClear (t : Nat) (key : Nat) (mask : BitVec 16)
  /-- KNIFE_TEST (R305). A TEST write trips the masked brushes with cause TEST. -/
  | knifeTest (t : Nat) (mask : BitVec 16)
  /-- PERMIT_START (R305). At the first frame start at least 640 tk after ARM_SET the permit of a newly armed brush begins. -/
  | permitStart (n : Nat)
  /-- PAIR_FORM_FRAME (R312). During forming each device launches a FORM heartbeat at t0 + 13,760 and A chooses F when both are ready. -/
  | pairFormFrame (n : Nat)
  /-- FORM_ECHO_DEADLINE (R312). A has not accepted B's echo of F by t0(F − 16) and chooses a new F. -/
  | formEchoDeadline (t : Nat)
  /-- PAIR_LOCK (R312). At t0(F) both devices reach ON in LOCKSTEP with A active and B shadow. -/
  | pairLock (n : Nat)
  /-- MIRROR_TXN_RECEIVE (R313). Device B accepts a MIRROR KIND 0 and queues the transaction for its application tick. -/
  | mirrorTxnReceive (t : Nat) (arr : BitVec 48) (port : Fin 2) (op : Fin 4) (tag : BitVec 16) (addr : BitVec 40) (count : Fin 256) (cross : Bool) (data : List Byte)
  /-- MIRROR_APPLY (R313). At ARR + MIRROR_LAT a mirrored transaction is applied on the device and counted in MCOUNT. -/
  | mirrorApply (t : Nat)
  /-- MIRROR_MEDIUM_LAUNCH (R195). Device A launches a MIRROR KIND 1 with the four medium samples at t0 + 640. -/
  | mirrorMediumLaunch (n : Nat)
  /-- MIRROR_MEDIUM_RECEIVE (R195). Device B accepts a MIRROR KIND 1 and takes its sample word for the frame. -/
  | mirrorMediumReceive (t : Nat) (frame : Word) (words : Vector (BitVec 64) 4)
  /-- DIGEST_LAUNCH (R315). Each device launches its MIRROR KIND 2 digest and heartbeat at t0(n) + 13,760. -/
  | digestLaunch (n : Nat)
  /-- DIGEST_RECEIVE (R316). A partner's KIND 2 heartbeat is accepted for comparison at the cut. -/
  | digestReceive (t : Nat) (frame : Word) (w2 : Word) (digest : Word)
  /-- TAKEOVER_EVAL (R317). At each cut and t0 + 3,840 B evaluates takeover and, if due, becomes the active device. -/
  | takeoverEval (n : Nat) (atCut : Bool)
  /-- HANDOVER (R318). A keyed HANDOVER write makes device A declare a fault and hand over to B. -/
  | handover (t : Nat) (key : BitVec 8)
  /-- SYNC_AT_WRITE (R327). A write of SYNC_AT_HI queues a timed light sync, or overflows. -/
  | syncAtWrite (t : Nat) (n : Fin 4) (v : Word)
  /-- LIGHT_SYNC_BURST (R327). A queued sync burst starts so that its applying edge rises at v − SYNC_LEAD, or is discarded as late. -/
  | lightSyncBurst (t : Nat) (n : Fin 4) (r0 : Word) (r1 : Word) (r2 : Word)
  /-- CMD_HDR_WRITE (R328). A write of CMD_HDR pushes a host frame into the light port's command FIFO. -/
  | cmdHdrWrite (t : Nat) (n : Fin 4) (v : Word)
  /-- LIGHT_BURST (R328). The light port sends a FIFO, poll or keep-alive burst when the gap rule and queued syncs allow. -/
  | lightBurst (t : Nat) (n : Fin 4) (r0 : Word) (r1 : Word) (r2 : Word)
  /-- TEMP_POLL (R330). Every POLL ms the port reads STATUS of the next driver and updates its temperature. -/
  | tempPoll (t : Nat) (n : Fin 4)
  /-- KEEP_ALIVE (R330). After 2 ms without a burst the port sends a broadcast NOP. -/
  | keepAlive (t : Nat) (n : Fin 4)
  /-- RESP_POP (R334). A read of RESP_INFO returns the response head's details and removes it from the FIFO. -/
  | respPop (t : Nat) (n : Fin 4)
  /-- BG_ROW_START (R340). Every INTERVAL × 16 µs the background test starts the next row of an enabled bank. -/
  | bgRowStart (t : Nat)
  /-- BG_ROW_DONE (R340). A background-test row completes its phases, or fails and leaves the spare buffer standing in. -/
  | bgRowDone (t : Nat) (failed : Bool)
  /-- BANK_ECC_WRITEBACK (R339). A corrected bank word is written back in the next free cycle unless the owner wrote it first. -/
  | bankEccWriteback (t : Nat) (b : Fin 20) (off : Nat)
  /-- FAIL_CLEAR (R344). A write of FAIL_CLEAR.GO empties the bank failure log. -/
  | failClear (t : Nat)
  /-- DRAM_COMMAND_ISSUE (R350). A controller issues its next command by class, page state and age. -/
  | dramCommandIssue (t : Nat) (i : Fin 2)
  /-- AGE_PROMOTION (R350). A request that has waited its class's age limit is promoted to C0. -/
  | agePromotion (t : Nat) (i : Fin 2)
  /-- PAGE_IDLE_CLOSE (R352). A page unused for PAGE_IDLE × 16 cycles is closed. -/
  | pageIdleClose (t : Nat) (i : Fin 2) (b : Fin 16)
  /-- REFRESH_DUE (R355). A bank's per-bank refresh interval expires and the refresh is issued or postponed. -/
  | refreshDue (t : Nat) (i : Fin 2) (b : Fin 16)
  /-- MR4_POLL (R355). Every 4 ms the controller reads MR4 and sets the refresh rate, asserting DRAM_HOT if too hot. -/
  | mr4Poll (t : Nat) (i : Fin 2) (rate : Vector (Fin 32) 2) (hot : Bool)
  /-- DRAM_ECC_WRITEBACK (R356). A corrected DRAM granule is written back in the bank's next idle cycle. -/
  | dramEccWriteback (t : Nat) (addr : Nat)
  /-- TRAINING_DONE (R358). DRAM training ends, setting lane centres and asserting TRAIN_DONE or TRAIN_FAIL. -/
  | trainingDone (t : Nat) (rd : Vector (BitVec 128) 8) (wr : Vector (BitVec 128) 8) (initOk : Vector Bool 2)
  /-- RETRAIN (R359). A write of DTRAIN.RETRAIN.GO retrains the masked controllers, or is refused. -/
  | retrain (t : Nat) (mask : Fin 4)
  /-- SENSOR_ROUND_END (R362). Each 100 µs round yields new sensor readings, validity, TMAX, warning and shutdown decisions. -/
  | sensorRoundEnd (r : Nat) (raw : Vector (BitVec 16) 14)
  /-- GRACE_EXPIRY (R365). GRACE × 400 frames after the warning rose, enforcement begins if the warning still holds. -/
  | graceExpiry (n : Nat)
  /-- HELD_SHEET_RELEASE (R367). A sheet boundary held by enforcement takes effect at b′ and the stretch is added. -/
  | heldSheetRelease (t : Nat)
  /-- SHUTDOWN_POWER_OFF (R368). When the flush completes or 20 ms pass, PD_LINK and PD_SYS switch off and PWR_REQ drops. -/
  | shutdownPowerOff (t : Nat)
  /-- FLUSH_TRIGGER (R373). A recorder trigger is collected into the pending flush request. -/
  | flushTrigger (t : Nat) (bit : Fin 7)
  /-- MIN_GAP_EXPIRY (R374). MIN_GAP seconds pass since the last flush and a deferred gated request may start. -/
  | minGapExpiry (t : Nat)
  /-- FLUSH_START (R374). A pending request captures the accumulators and begins writing the record to the next ring slot. -/
  | flushStart (t : Nat)
  /-- FLUSH_DONE (R374). The record write completes; FLUSH_DONE is asserted and FLUSHES counted. -/
  | flushDone (t : Nat)
  /-- NV_TIMEOUT (R379). An NV program or erase exceeds its time limit and counts as failed. -/
  | nvTimeout (t : Nat) (who : NvUser)
  /-- ERASE_AHEAD (R375). The recorder erases the ring slot two ahead or the next marker sector in the background. -/
  | eraseAhead (t : Nat)
  /-- HOURS_TICK (R372). Every 225 s of timebase the operating-hours count advances by 1. -/
  | hoursTick (t : Nat)
  /-- RECORD_FLUSH (R373). A write of RECORD.CMD.FLUSH raises the COMMAND trigger. -/
  | recordFlush (t : Nat)
  /-- CLEAR_ACC (R370). A write of RECORD.CMD.CLEAR_ACC clears every accumulator and sets ACC_HOURS. -/
  | clearAcc (t : Nat)
  /-- NV_READ (R378). NV_CMD OP 1 reads NV_LEN bytes from NV_ADDR into the NV buffer. -/
  | nvRead (t : Nat)
  /-- NV_PROGRAM (R378). NV_CMD OP 2 programs the NV device from the NV buffer, or is refused. -/
  | nvProgram (t : Nat)
  /-- NV_ERASE (R378). NV_CMD OP 3 erases the 4 KiB sector at NV_ADDR, or is refused. -/
  | nvErase (t : Nat)
  /-- NV_CMD_DONE (R381). A host NV command completes and CMD_DONE is asserted. -/
  | nvCmdDone (t : Nat)
  /-- CAL_DELAY (R387). CALIB.CMD OP 1 calibrates all delay-line steps of the target brush. -/
  | calDelay (t : Nat) (target : Fin 32)
  /-- CAL_SENSOR (R387). CALIB.CMD OP 2 measures on-die sensor offsets against REF_TEMP over 16 rounds. -/
  | calSensor (t : Nat)
  /-- CAL_LANE (R387). CALIB.CMD OP 3 selects the transmit segments of the target lane. -/
  | calLane (t : Nat) (target : Fin 32)
  /-- CAL_SAVE (R389). CALIB.CMD OP 4 writes a calibration record into the unused NV copy. -/
  | calSave (t : Nat)
  /-- CAL_DONE (R387). A calibration run ends, its values take effect and RESULT and CAL_DONE are set. -/
  | calDone (t : Nat) (cells : Vector (Vector (Option (BitVec 16)) 24) 32) (segP : Vector (Option Word) 16) (segN : Vector (Option Word) 16) (ok : Bool)
  /-- BIST_LOGIC (R390). A keyed BIST.CMD KIND 1 starts logic BIST on a domain, or is refused. -/
  | bistLogic (t : Nat) (key : BitVec 8) (dom : Fin 16)
  /-- BIST_MEMORY (R390). A keyed BIST.CMD KIND 2 starts memory BIST on a domain, or is refused. -/
  | bistMemory (t : Nat) (key : BitVec 8) (dom : Fin 16)
  /-- BIST_DONE (R392). A BIST run ends, MISRs are compared with fused values and RESULT is set. -/
  | bistDone (t : Nat) (sigs : Vector Word 20) (banks : List (Fin 20)) (rows : List (Fin 8192))
  /-- TIMED_RECORD_START (R152). A timed record's start tick t_s is reached and the record begins: it takes its stroke index and log entry, opens its tile, and is consumed as a counted seam record. -/
  | timedRecordStart (t : Nat) (b : Fin 16)
  /-- CLOCK_PATTERN_END (R71). On the timing-source side of a lane in ACQUIRE, the clock pattern has been sent for at least 40 µs and the transmitter moves on to IDLE frames. -/
  | clockPatternEnd (t : Nat) (l : Fin 20)
  /-- CSI_UNMATCHED_PACKET (R265). A CSI-2 short packet other than FS or FE arrives, or a packet is discarded for an SoT error or an uncorrectable header, and it is counted. -/
  | csiUnmatchedPacket (t : Nat) (p : Fin 4) (kind : CsiDiscard)
  /-- PRBS_SYNC_GAIN (R78). The pattern checker sees 64 consecutive matching bits, sets PRBS_STATUS.SYNC and starts counting: `r` is what it received
  last. -/
  | prbsSyncGain (t : Nat) (r : LaneBits)
  /-- PRBS_SYNC_LOSS (R78). The pattern checker sees more than 64 errors in 256 bits, drops sync and stops counting until it resynchronises. -/
  | prbsSyncLoss (t : Nat) (l : Fin 20)
  /-- PRBS_BIT_ERROR (R78). A received bit, `r`, mismatches while the checker is in sync; PRBS_ERRORS counts it, and the first error after a clear asserts PRBS_ERR and sets the sticky flag. -/
  | prbsBitError (t : Nat) (r : LaneBit)
  /-- TAP_CLOCK (R423). A rising TCK edge steps the IEEE 1149.1 TAP controller and executes the instruction in force, which may drive or clamp pins (R424). -/
  | tapClock (t : Nat) (tms : Bool) (tdi : Bool)
  /-- TAP_RESET (R423). TRST_L is driven low and the TAP controller goes to Test-Logic-Reset, which also lets the primer step 6 limit run again. -/
  | tapReset (t : Nat)
  /-- ERASE_DONE (R375). A background NV sector erase of the recorder completes, which raises the count of erased slots and lets a waiting flush proceed. -/
  | eraseDone (t : Nat)
  deriving DecidableEq, Repr

end Sys2Proof
end

