-- ==== Sys2Proof/WellFormed.lean ====
section
/-! DEFINITION. Which commands are well formed: every operand lies within the range the spec gives what it stands for (R2, R14, R103: ticks are
64-bit counts), and a list of bytes has the length its count says. -/

namespace Sys2Proof

/-- A tick is a uint64 count (R103). -/
def tick (t : Nat) : Bool := decide (t < 2 ^ 64)

/-- The start of frame `n` (R16). -/
def frameTick (n : Nat) : Nat := n * 16000

/-- A frame whose start and end are ticks (R16). -/
def frame (n : Nat) : Bool := tick ((n + 2) * 16000)

/-- An unsigned value of `w` bits. -/
def fits (w n : Nat) : Bool := decide (n < 2 ^ w)

/-- A two's complement value of `w` bits. -/
def fitsS (w : Nat) (i : Int) : Bool := decide (-(2 ^ (w - 1) : Int) ≤ i ∧ i < (2 ^ (w - 1) : Int))

/-- The changes of a pin within a plan period, at most two for each bit of a frame. -/
def pinChanges (l : List (Nat × Bool)) : Bool := l.all (fun e => decide (e.1 < 64000)) && decide (l.length ≤ 256)

/-- The well-formed commands. -/
def Instr.wf : Instr → Bool
  | .registerWrite t addr _ => tick t && fits 20 addr
  | .registerReadClear t addr => tick t && fits 20 addr
  | .ctrlEnWrite t _ _ => tick t
  | .softReset t _ => tick t
  | .eventClear t _ _ => tick t
  | .eventForce t _ _ => tick t
  | .commit t _ => tick t
  | .shadowTransfer t _ => tick t
  | .snapshotTake t _ => tick t
  | .blockSequenceEnd t _ => tick t
  | .blockTransitCycleEnd t _ => tick t
  | .txnRead t _ _ _ _ => tick t
  | .txnWrite t _ _ _ count data => tick t && (data.length == count.val + 1)
  | .txnWritePosted t _ _ _ count data => tick t && (data.length == count.val + 1)
  | .txnFence t _ _ _ => tick t
  | .fenceComplete t _ => tick t
  | .cplSend t _ => tick t
  | .frameReceive t _ fill delim hdr hcrc payload pcrc => tick t && decide ((fill ++ delim ++ hdr ++ hcrc ++ payload ++ pcrc).length ≤ 65536)
  | .idleSend t _ => tick t
  | .laneActivity t _ => tick t
  | .cdrLock t _ => tick t
  | .frameLock t _ => tick t
  | .capSend t _ => tick t
  | .capReceive t _ w0 w1 w2 w3 => tick t && fits 32 w0 && fits 32 w1 && fits 32 w2 && fits 32 w3
  | .bringupPhaseTimeout t _ => tick t
  | .frameLockLoss t _ _ _ => tick t
  | .txTimingSwitch t _ => tick t
  | .stepCtrlGo t _ _ => tick t
  | .stepAckDeadline t _ => tick t
  | .stepQuiesce t _ => tick t
  | .stepLaunch t _ => tick t
  | .stepRelockTimeout t _ => tick t
  | .loopInject t _ => tick t
  | .loopClear t _ => tick t
  | .loopCtrlWrite t _ _ => tick t
  | .missingEdge t _ => tick t
  | .freqWindowEnd t o0 o1 o2 o3 => tick t && fitsS 32 o0 && fitsS 32 o1 && fitsS 32 o2 && fitsS 32 o3
  | .candidateQualified t _ => tick t
  | .holdLock t => tick t
  | .holdExpired t => tick t
  | .coastExitLock t _ => tick t
  | .safeHoldClear t => tick t
  | .fmeasStart t => tick t
  | .fmeasDone t n => tick t && fits 32 n
  | .fmeasTimeout t => tick t
  | .frameStart n => frame n
  | .exchangeCut n => frame n
  | .headDnLaunch n => frame n
  | .headUpReceive t _ rx _ => tick t && tick rx
  | .sampleADeadline n => frame n
  | .sampleBDeadline n => frame n
  | .mbxSend t _ => tick t
  | .mbxTimeout t _ => tick t
  | .syncReceive t _ origin corr seqId masterId interval => tick t && fits 64 origin && fitsS 64 corr && fits 16 seqId && fits 16 masterId && fitsS 8 interval
  | .dlyReqLaunch n => frame n
  | .dlyReqReceive t _ txTime seqId senderId => tick t && fits 64 txTime && fits 16 seqId && fits 16 senderId
  | .dlyRspReceive t _ reqRx reqCorr seqId responder => tick t && fits 64 reqRx && fits 64 reqCorr && fits 16 seqId && fits 16 responder
  | .dlyTimeout t _ => tick t
  | .timeFrameForward t _ => tick t
  | .syncLaunch t => tick t
  | .syncLoss t => tick t
  | .launch t _ => tick t
  | .adjHiWrite t _ => tick t
  | .vddAonPor t => tick t
  | .vddAonLoss t => tick t
  | .wakeEvent t _ => tick t
  | .wakeBlankEnd t => tick t
  | .pgInHigh t _ => tick t
  | .pgTimeout t => tick t
  | .pgInLow t => tick t
  | .primerLinkReady t _ => tick t
  | .linkWaitTimeout t => tick t
  | .primerDone t _ nvId _ us => tick t && nvId.all (fits 24) && fits 16 us
  | .resetLAssert t => tick t
  | .resetLRelease t => tick t
  | .deviceCommand t key => tick t && fits 8 key
  | .deviceCommandRestart t => tick t
  | .dormantCommand t key => tick t && fits 8 key
  | .domainCtrlWrite t _ => tick t
  | .domainSwitchOnDone t => tick t
  | .domainSwitchOffDone t => tick t
  | .pfail t => tick t
  | .sysStart t => tick t
  | .chainStart t _ _ => tick t
  | .headerFetched t _ => tick t
  | .nextPoll t _ => tick t
  | .sheetBoundary t _ => tick t
  | .lateSheetTakesEffect t _ => tick t
  | .blockFetchRequest t _ _ => tick t
  | .blockArrival t _ _ k => tick t && fits 32 k
  | .timedRecordEnd t _ => tick t
  | .waitComplete t _ => tick t
  | .gateEdge t _ _ _ => tick t
  | .twinUnpairedTimeout t _ => tick t
  | .glazeCompute n _ _ => frame n
  | .powerBurstStart n _ _ => frame n
  | .powerWordLatch n _ _ => frame n
  | .laserReadyChange t _ _ => tick t
  | .laserFaultChange t _ _ => tick t
  | .parkEnd t _ => tick t
  | .parkTimeout t _ => tick t
  | .encoderEdge t _ _ _ _ => tick t
  | .indexArm t _ => tick t
  | .indexCapture t _ => tick t
  | .estimatorUpdate n => frame n
  | .targetRemove t => tick t
  | .tileClose t _ => tick t
  | .rasterFetchDone t _ k idx _ => tick t && fits 32 k && fits 32 idx
  | .swatchCompare t _ => tick t
  | .engineFrameStart m => frame m
  | .traceArm t _ => tick t
  | .traceStop t _ => tick t
  | .injectWrite t _ _ => tick t
  | .planTick q => tick (q * 64000)
  | .stepTargetWrite t _ _ => tick t
  | .upFrameCheck t _ di0 di1 di2 di3 => tick t && pinChanges (di0 ++ di1 ++ di2 ++ di3)
  | .stepperHoldEnd t _ => tick t
  | .csiFrameStart t _ _ _ _ => tick t
  | .csiFrameEnd t _ _ _ => tick t
  | .csiLongPacket t _ _ _ l _ _ => tick t && decide (l.length < 65536)
  | .pipelinePacket t _ => tick t
  | .frameLimitExpiry t _ => tick t
  | .frameRecordsComplete t _ => tick t
  | .recordReady t _ => tick t
  | .batchDeliver n => frame n
  | .triggerLaunch t _ => tick t
  | .triggerEnd t _ => tick t
  | .oneshotWrite t _ _ => tick t
  | .streamFrameSend t _ => tick t
  | .metLaunch n => frame n
  | .metReceive t _ _ l => tick t && decide (l.length ≤ 2040)
  | .eventIntake t => tick t
  | .eventDeliverable t => tick t
  | .evtSend t => tick t
  | .ilkDepart t _ _ _ => tick t
  | .ilkReturn t _ => tick t
  | .discTimeout t _ => tick t
  | .knifeArmSet t key _ => tick t && fits 8 key
  | .knifeDisarm t _ => tick t
  | .knifeClear t key _ => tick t && fits 8 key
  | .knifeTest t _ => tick t
  | .permitStart n => frame n
  | .pairFormFrame n => frame n
  | .formEchoDeadline t => tick t
  | .pairLock n => frame n
  | .mirrorTxnReceive t _ _ op _ _ count _ data => tick t && (data.length == (if op.val = 1 ∨ op.val = 2 then count.val + 1 else 0))
  | .mirrorApply t => tick t
  | .mirrorMediumLaunch n => frame n
  | .mirrorMediumReceive t _ _ => tick t
  | .digestLaunch n => frame n
  | .digestReceive t _ _ _ => tick t
  | .takeoverEval n _ => frame n
  | .handover t _ => tick t
  | .syncAtWrite t _ _ => tick t
  | .lightSyncBurst t _ _ _ _ => tick t
  | .cmdHdrWrite t _ _ => tick t
  | .lightBurst t _ _ _ _ => tick t
  | .tempPoll t _ => tick t
  | .keepAlive t _ => tick t
  | .respPop t _ => tick t
  | .bgRowStart t => tick t
  | .bgRowDone t _ => tick t
  | .bankEccWriteback t _ off => tick t && fits 22 off
  | .failClear t => tick t
  | .dramCommandIssue t _ => tick t
  | .agePromotion t _ => tick t
  | .pageIdleClose t _ _ => tick t
  | .refreshDue t _ _ => tick t
  | .mr4Poll t _ _ _ => tick t
  | .dramEccWriteback t addr => tick t && fits 40 addr
  | .trainingDone t _ _ _ => tick t
  | .retrain t _ => tick t
  | .sensorRoundEnd r _ => tick (r * 640000)
  | .graceExpiry n => frame n
  | .heldSheetRelease t => tick t
  | .shutdownPowerOff t => tick t
  | .flushTrigger t _ => tick t
  | .minGapExpiry t => tick t
  | .flushStart t => tick t
  | .flushDone t => tick t
  | .nvTimeout t _ => tick t
  | .eraseAhead t => tick t
  | .hoursTick t => tick t
  | .recordFlush t => tick t
  | .clearAcc t => tick t
  | .nvRead t => tick t
  | .nvProgram t => tick t
  | .nvErase t => tick t
  | .nvCmdDone t => tick t
  | .calDelay t _ => tick t
  | .calSensor t => tick t
  | .calLane t _ => tick t
  | .calSave t => tick t
  | .calDone t _ _ _ _ => tick t
  | .bistLogic t _ _ => tick t
  | .bistMemory t _ _ => tick t
  | .bistDone t _ banks rows => tick t && (banks.length == rows.length)
  | .timedRecordStart t _ => tick t
  | .clockPatternEnd t _ => tick t
  | .csiUnmatchedPacket t _ _ => tick t
  | .prbsSyncGain t r => tick t && decide (r.line.length ≤ 128)
  | .prbsSyncLoss t _ => tick t
  | .prbsBitError t _ => tick t
  | .tapClock t _ _ => tick t
  | .tapReset t => tick t
  | .eraseDone t => tick t

/-- The tick at which a command happens: its own, or the instant of the frame, plan tick or round it belongs to (R16 to R18, R74, R160, R223, R254, R316,
R317, R362). -/
def Instr.instant : Instr → Nat
  | .registerWrite t _ _ => t
  | .registerReadClear t _ => t
  | .ctrlEnWrite t _ _ => t
  | .softReset t _ => t
  | .eventClear t _ _ => t
  | .eventForce t _ _ => t
  | .commit t _ => t
  | .shadowTransfer t _ => t
  | .snapshotTake t _ => t
  | .blockSequenceEnd t _ => t
  | .blockTransitCycleEnd t _ => t
  | .txnRead t _ _ _ _ => t
  | .txnWrite t _ _ _ _ _ => t
  | .txnWritePosted t _ _ _ _ _ => t
  | .txnFence t _ _ _ => t
  | .fenceComplete t _ => t
  | .cplSend t _ => t
  | .frameReceive t _ _ _ _ _ _ _ => t
  | .idleSend t _ => t
  | .laneActivity t _ => t
  | .cdrLock t _ => t
  | .frameLock t _ => t
  | .capSend t _ => t
  | .capReceive t _ _ _ _ _ => t
  | .bringupPhaseTimeout t _ => t
  | .frameLockLoss t _ _ _ => t
  | .txTimingSwitch t _ => t
  | .stepCtrlGo t _ _ => t
  | .stepAckDeadline t _ => t
  | .stepQuiesce t _ => t
  | .stepLaunch t _ => t
  | .stepRelockTimeout t _ => t
  | .loopInject t _ => t
  | .loopClear t _ => t
  | .loopCtrlWrite t _ _ => t
  | .missingEdge t _ => t
  | .freqWindowEnd t _ _ _ _ => t
  | .candidateQualified t _ => t
  | .holdLock t => t
  | .holdExpired t => t
  | .coastExitLock t _ => t
  | .safeHoldClear t => t
  | .fmeasStart t => t
  | .fmeasDone t _ => t
  | .fmeasTimeout t => t
  | .frameStart n => frameTick n
  | .exchangeCut n => frameTick n + 15040
  | .headDnLaunch n => frameTick n + 15360
  | .headUpReceive t _ _ _ => t
  | .sampleADeadline n => frameTick n + 3840
  | .sampleBDeadline n => frameTick n + 11840
  | .mbxSend t _ => t
  | .mbxTimeout t _ => t
  | .syncReceive t _ _ _ _ _ _ => t
  | .dlyReqLaunch n => frameTick n + 4000
  | .dlyReqReceive t _ _ _ _ => t
  | .dlyRspReceive t _ _ _ _ _ => t
  | .dlyTimeout t _ => t
  | .timeFrameForward t _ => t
  | .syncLaunch t => t
  | .syncLoss t => t
  | .launch t _ => t
  | .adjHiWrite t _ => t
  | .vddAonPor t => t
  | .vddAonLoss t => t
  | .wakeEvent t _ => t
  | .wakeBlankEnd t => t
  | .pgInHigh t _ => t
  | .pgTimeout t => t
  | .pgInLow t => t
  | .primerLinkReady t _ => t
  | .linkWaitTimeout t => t
  | .primerDone t _ _ _ _ => t
  | .resetLAssert t => t
  | .resetLRelease t => t
  | .deviceCommand t _ => t
  | .deviceCommandRestart t => t
  | .dormantCommand t _ => t
  | .domainCtrlWrite t _ => t
  | .domainSwitchOnDone t => t
  | .domainSwitchOffDone t => t
  | .pfail t => t
  | .sysStart t => t
  | .chainStart t _ _ => t
  | .headerFetched t _ => t
  | .nextPoll t _ => t
  | .sheetBoundary t _ => t
  | .lateSheetTakesEffect t _ => t
  | .blockFetchRequest t _ _ => t
  | .blockArrival t _ _ _ => t
  | .timedRecordEnd t _ => t
  | .waitComplete t _ => t
  | .gateEdge t _ _ _ => t
  | .twinUnpairedTimeout t _ => t
  | .glazeCompute n half _ => frameTick n + (if half then 11840 else 3840)
  | .powerBurstStart n half _ => frameTick n + (if half then 13440 else 5440)
  | .powerWordLatch n half _ => frameTick n + (if half then 17920 else 9920)
  | .laserReadyChange t _ _ => t
  | .laserFaultChange t _ _ => t
  | .parkEnd t _ => t
  | .parkTimeout t _ => t
  | .encoderEdge t _ _ _ _ => t
  | .indexArm t _ => t
  | .indexCapture t _ => t
  | .estimatorUpdate n => frameTick n + 3200
  | .targetRemove t => t
  | .tileClose t _ => t
  | .rasterFetchDone t _ _ _ _ => t
  | .swatchCompare t _ => t
  | .engineFrameStart m => frameTick m - 960
  | .traceArm t _ => t
  | .traceStop t _ => t
  | .injectWrite t _ _ => t
  | .planTick q => q * 64000
  | .stepTargetWrite t _ _ => t
  | .upFrameCheck t _ _ _ _ _ => t
  | .stepperHoldEnd t _ => t
  | .csiFrameStart t _ _ _ _ => t
  | .csiFrameEnd t _ _ _ => t
  | .csiLongPacket t _ _ _ _ _ _ => t
  | .pipelinePacket t _ => t
  | .frameLimitExpiry t _ => t
  | .frameRecordsComplete t _ => t
  | .recordReady t _ => t
  | .batchDeliver n => frameTick (n + 1)
  | .triggerLaunch t _ => t
  | .triggerEnd t _ => t
  | .oneshotWrite t _ _ => t
  | .streamFrameSend t _ => t
  | .metLaunch n => frameTick n + 4800
  | .metReceive t _ _ _ => t
  | .eventIntake t => t
  | .eventDeliverable t => t
  | .evtSend t => t
  | .ilkDepart t _ _ _ => t
  | .ilkReturn t _ => t
  | .discTimeout t _ => t
  | .knifeArmSet t _ _ => t
  | .knifeDisarm t _ => t
  | .knifeClear t _ _ => t
  | .knifeTest t _ => t
  | .permitStart n => frameTick n
  | .pairFormFrame n => frameTick n + 13760
  | .formEchoDeadline t => t
  | .pairLock n => frameTick n
  | .mirrorTxnReceive t _ _ _ _ _ _ _ _ => t
  | .mirrorApply t => t
  | .mirrorMediumLaunch n => frameTick n + 640
  | .mirrorMediumReceive t _ _ => t
  | .digestLaunch n => frameTick n + 13760
  | .digestReceive t _ _ _ => t
  | .takeoverEval n atCut => frameTick n + (if atCut then 15040 else 3840)
  | .handover t _ => t
  | .syncAtWrite t _ _ => t
  | .lightSyncBurst t _ _ _ _ => t
  | .cmdHdrWrite t _ _ => t
  | .lightBurst t _ _ _ _ => t
  | .tempPoll t _ => t
  | .keepAlive t _ => t
  | .respPop t _ => t
  | .bgRowStart t => t
  | .bgRowDone t _ => t
  | .bankEccWriteback t _ _ => t
  | .failClear t => t
  | .dramCommandIssue t _ => t
  | .agePromotion t _ => t
  | .pageIdleClose t _ _ => t
  | .refreshDue t _ _ => t
  | .mr4Poll t _ _ _ => t
  | .dramEccWriteback t _ => t
  | .trainingDone t _ _ _ => t
  | .retrain t _ => t
  | .sensorRoundEnd r _ => r * 640000
  | .graceExpiry n => frameTick n + 15040
  | .heldSheetRelease t => t
  | .shutdownPowerOff t => t
  | .flushTrigger t _ => t
  | .minGapExpiry t => t
  | .flushStart t => t
  | .flushDone t => t
  | .nvTimeout t _ => t
  | .eraseAhead t => t
  | .hoursTick t => t
  | .recordFlush t => t
  | .clearAcc t => t
  | .nvRead t => t
  | .nvProgram t => t
  | .nvErase t => t
  | .nvCmdDone t => t
  | .calDelay t _ => t
  | .calSensor t => t
  | .calLane t _ => t
  | .calSave t => t
  | .calDone t _ _ _ _ => t
  | .bistLogic t _ _ => t
  | .bistMemory t _ _ => t
  | .bistDone t _ _ _ => t
  | .timedRecordStart t _ => t
  | .clockPatternEnd t _ => t
  | .csiUnmatchedPacket t _ _ => t
  | .prbsSyncGain t _ => t
  | .prbsSyncLoss t _ => t
  | .prbsBitError t _ => t
  | .tapClock t _ _ => t
  | .tapReset t => t
  | .eraseDone t => t

end Sys2Proof
end

