-- ==== Sys2Proof/Config.lean ====
section
/-! DEFINITION. What one device fixes and the spec leaves open: the contents of its fuses (R382), the built-in default trims (R129), and the free
values of the model. None has a body, so no proof can see what it is; a claim holds whatever it is. -/

namespace Sys2Proof.Config

/-- The factory cell selection of delay-line step `32 n + 8 l + s` (R382, R384). -/
opaque fuseCells : Nat → BitVec 24

/-- The factory offset of on-die sensor `s`, int16 in 1/64 °C. -/
opaque fuseOffset : Nat → BitVec 16

/-- The factory segment selection of lane `k`: SEG_N in the high half, SEG_P in the low half. -/
opaque fuseSegs : Nat → BitVec 32

/-- The port latency L_port of laser pin `2 n + pin`, in tk (R169). -/
opaque fuseLport : Nat → BitVec 32

/-- The internal latency between a port's ball and its serialiser or deserialiser boundary, in tk: port `i / 2`, transmit at even and receive at odd
`i` (R105). -/
opaque fuseStamp : Nat → BitVec 16

/-- The failed rows found at wafer test, with their banks (R343). -/
opaque fuseRepairs : List (Nat × Nat)

/-- The expected MISR value of partition `p` of domain `d`, for logic (kind 1) or memory (kind 2) BIST (R392). -/
opaque fuseSig : Nat → Nat → Nat → BitVec 32

/-- The built-in default trims, used while FUSE_BAD = 1 (R129): cells, offsets, segments, port latencies and stamp
latencies by kind 0 to 4 and index. -/
opaque builtinTrim : Nat → Nat → BitVec 32

/-- Whether A leading B counts up in quadrature; R188 gives the counted edges and not the sense. -/
opaque quadUp : Bool

/-- A sample of a RAW16 or RAW20 line by its width, the bytes it lies in and its place among them; the spec gives no packing. -/
opaque rawSample : Nat → List (BitVec 8) → Nat → BitVec 20

/-- The number of cells of the boundary register; R423 names the pins it covers and gives no length. -/
opaque scanLength : Nat

/-- What a cell of the boundary register captures: the level at its pin, by the count of captures and the place of the cell. -/
opaque scanCell : Nat → Nat → Bool

/-- The check byte of a 64-bit DRAM data word: the spec does not give the (72,64) code (R348). -/
opaque checkByte : BitVec 64 → BitVec 8

/-- The states of the lanes of a camera port at a tick, which no command tells: bits 3:0 the data lanes in stop state, bit 4 HS, bit 5 ULPS (R285). -/
opaque camLanes : Nat → Nat → BitVec 6

/-- The lanes of a camera port that have shown stop state for the whole microsecond before a tick, which no command tells: bits 3:0 the data lanes,
bit 4 the clock lane (R285). -/
opaque camStopped : Nat → Nat → BitVec 5

/-- The rate code at which the partner of a lane sends at a tick, for a test loop in mode 3, which no register names (R77). -/
opaque farEndRate : Nat → Nat → BitVec 2

/-- A value the spec leaves open, by the index the step takes from State's counter. -/
opaque freeValue : Nat → BitVec 64

end Sys2Proof.Config
end

