-- ==== Sys2Proof/Machine/Arith.lean ====
section
/-! DEFINITION. The shared helpers of spec/00_scope.md (R9 to R14) and the byte and bit helpers of R4, over `Nat` and `Int` as R9 asks (exact
arithmetic, narrowed only where a rule narrows it). -/

namespace Sys2Proof.Machine

/-- R10: clamp a signed integer to a signed field of `bits` bits. -/
def sat (x : Int) (bits : Nat) : Int :=
  let hi : Int := 2 ^ (bits - 1) - 1
  let lo : Int := -(2 ^ (bits - 1))
  if hi < x then hi else if x < lo then lo else x

/-- Whether `sat` changes the value, which is when R10 sets the point's sticky flag. -/
def satHit (x : Int) (bits : Nat) : Bool := decide (sat x bits ≠ x)

/-- R11: divide by `2 ^ shift`, to nearest, a tie towards plus infinity. -/
def rnd (x : Int) (shift : Nat) : Int :=
  if shift = 0 then x else (x + 2 ^ (shift - 1)) / 2 ^ shift

/-- R9: the low `bits` bits of an integer, unsigned. -/
def wrapU (bits : Nat) (x : Int) : Nat := (x % 2 ^ bits).toNat

/-- The two's complement reading of the low `bits` bits of a natural number. -/
def signed (bits : Nat) (n : Nat) : Int :=
  let m := n % 2 ^ bits
  if m < 2 ^ (bits - 1) then (m : Int) else (m : Int) - 2 ^ bits

/-- R9: assignment of an integer to a signed variable of `bits` bits. -/
def wrapS (bits : Nat) (x : Int) : Int := signed bits (wrapU bits x)

/-- R12: the signed 48-bit difference of two times or positions. -/
def sdiff48 (a b : Int) : Int :=
  let d := (a - b) % 2 ^ 48
  if 2 ^ 47 ≤ d then d - 2 ^ 48 else d

/-- R13: a time or medium position `t` has reached `v`. -/
def reached (t v : Int) : Bool := decide (0 ≤ sdiff48 t v)

/-- Instant or position `a` comes before `b` (R2, R13). -/
def before (a b : Int) : Bool := !reached a b

/-- The later of two instants. -/
def later (a b : Nat) : Nat := if reached a b then a else b

/-- The earlier of two instants. -/
def sooner (a b : Nat) : Nat := if reached a b then b else a

/-- Instant `b`, in half ticks of the uint64 timebase, is not before instant `a` (R103). -/
def halfLe (a b : Nat) : Bool := decide (0 ≤ wrapS 65 ((b : Int) - a))

/-- The full 64-bit instant nearest to `base` whose low 48 bits are those of `v` (R2). -/
def near48 (base : Nat) (v : Nat) : Nat := ((base : Int) + sdiff48 v base).toNat

/-- R9: division that truncates towards zero. -/
def tdiv (a b : Int) : Int := Int.tdiv a b

/-- `n` in the range of an unsigned field of `bits` bits, clamped at its maximum (a count that saturates). -/
def satU (n bits : Nat) : Nat := min n (2 ^ bits - 1)

/-- Clamp between two bounds. -/
def clampI (x lo hi : Int) : Int := max lo (min x hi)

/-- Bit `k` of a natural number. -/
def bit (n k : Nat) : Bool := n.testBit k

/-- Bits `[lo + w - 1 : lo]` of a natural number. -/
def bits (n lo w : Nat) : Nat := (n >>> lo) % 2 ^ w

/-- Set or clear bit `k`. -/
def putBit (n k : Nat) (v : Bool) : Nat :=
  if n.testBit k then (if v then n else n - 2 ^ k) else (if v then n + 2 ^ k else n)

/-- A Bool as a register bit. -/
def b2n (v : Bool) : Nat := if v then 1 else 0

/-- One step of the CRC register of R14. -/
def crcBit (c : Nat) : Nat := if c % 2 = 1 then (c / 2) ^^^ 0xEDB88320 else c / 2

/-- R14: one byte into the CRC register. -/
def crcByte (c : Nat) (b : Byte) : Nat :=
  crcBit (crcBit (crcBit (crcBit (crcBit (crcBit (crcBit (crcBit (c ^^^ b.toNat))))))))

/-- R14: the CRC-32 of a byte sequence. -/
def crc32 (l : List Byte) : Nat := (l.foldl crcByte 0xFFFFFFFF) ^^^ 0xFFFFFFFF

/-- R4: the low `k` bytes of a number, least significant first. -/
def leBytes : Nat → Nat → List Byte
  | 0, _ => []
  | k + 1, n => BitVec.ofNat 8 n :: leBytes k (n / 256)

/-- R4: the number a little-endian byte list holds. -/
def leNat : List Byte → Nat
  | [] => 0
  | b :: r => b.toNat + 256 * leNat r

/-- The `k`-byte little-endian field at offset `o` of a byte list. -/
def fieldAt (l : List Byte) (o k : Nat) : Nat := leNat ((l.drop o).take k)

/-- Signed field of a byte list. -/
def fieldAtS (l : List Byte) (o k : Nat) : Int := signed (8 * k) (fieldAt l o k)

/-- Bytes padded with zeros to a multiple of 4 (R86). -/
def pad4 (l : List Byte) : List Byte := l ++ List.replicate ((4 - l.length % 4) % 4) 0#8

/-- One Newton-free digit step of an integer square root: the largest `r` with `r * r ≤ n`, found bit by bit from bit `k` down. -/
def isqrtFrom : Nat → Nat → Nat → Nat
  | 0, _, r => r
  | k + 1, n, r => let c := r + 2 ^ k; isqrtFrom k n (if c * c ≤ n then c else r)

/-- Floor of the square root of a number below `2 ^ 128`. -/
def isqrt (n : Nat) : Nat := isqrtFrom 64 n 0

/-- Floor of log2 of a positive number; 0 for 0. -/
def ilog2 (n : Nat) : Nat := Nat.log2 n

end Sys2Proof.Machine
end

