-- ==== Sys2Proof/Machine/RegMap.lean ====
section
/-! DEFINITION. The register map of the part, transcribed from the register tables of spec/02_register_pages.md (the common header, R32) and of
each block's chapter: one named field per row, and for every block its rows with access type and reset value (R5). The names are the spec's own. -/

namespace Sys2Proof.Machine

/-- A field of a register: the register's offset in its page, the field's top and bottom bit, and for a numbered register the distance in bytes
from one number to the next (R29). -/
structure Fld where
  off : Nat
  hi : Nat
  lo : Nat
  stride : Nat := 4
  deriving DecidableEq, Repr

/-- The field of the register with number `k`. -/
def Fld.num (f : Fld) (k : Nat) : Fld := { f with off := f.off + k * f.stride }

/-- The access types of R5. -/
inductive Acc where
  | ro | rw | wo | w1c | rc | rws
  deriving DecidableEq, Repr

/-- One row of a register table: the field, its access type, its reset value, how many numbered copies it has, and whether it is read
through SNAPSHOT (R41). -/
structure Row where
  fld : Fld
  acc : Acc
  rst : Nat := 0
  cnt : Nat := 1
  snap : Bool := false
  deriving DecidableEq, Repr

namespace Reg

/-! The common page header (R32). -/
def STATE_EN_PENDING : Fld := ⟨0x00c, 8, 8, 4⟩
def STATE_STATE : Fld := ⟨0x00c, 2, 0, 4⟩
def CTRL_EN : Fld := ⟨0x008, 0, 0, 4⟩
def CTRL_BLOCK_CTRL : Fld := ⟨0x008, 31, 16, 4⟩
def EVENT : Fld := ⟨0x010, 31, 0, 4⟩
def EVENT_MASK : Fld := ⟨0x014, 31, 0, 4⟩
def COMMIT_PENDING : Fld := ⟨0x01c, 0, 0, 4⟩
def ERROR_STICKY : Fld := ⟨0x020, 31, 0, 4⟩

/-! CLK: spec/03_clocking.md (R61, R62). -/
def CLK_REF_PRIO_P3 : Fld := ⟨0x040, 15, 12, 4⟩
def CLK_REF_PRIO_P2 : Fld := ⟨0x040, 11, 8, 4⟩
def CLK_REF_PRIO_P1 : Fld := ⟨0x040, 7, 4, 4⟩
def CLK_REF_PRIO_P0 : Fld := ⟨0x040, 3, 0, 4⟩
def CLK_REF_CTRL_BW : Fld := ⟨0x044, 25, 24, 4⟩
def CLK_REF_CTRL_QUAL : Fld := ⟨0x044, 19, 16, 4⟩
def CLK_REF_CTRL_REF_TOL : Fld := ⟨0x044, 15, 8, 4⟩
def CLK_REF_CTRL_REVERT : Fld := ⟨0x044, 0, 0, 4⟩
def CLK_REF_STATUS_SELECTED : Fld := ⟨0x048, 10, 8, 4⟩
def CLK_REF_STATUS_EDGES : Fld := ⟨0x048, 7, 4, 4⟩
def CLK_REF_STATUS_VALID : Fld := ⟨0x048, 3, 0, 4⟩
def CLK_STATUS_HOLD_CAUSE : Fld := ⟨0x04c, 9, 8, 4⟩
def CLK_STATUS_FORCED : Fld := ⟨0x04c, 4, 4, 4⟩
def CLK_STATUS_SAFE_HOLD : Fld := ⟨0x04c, 3, 3, 4⟩
def CLK_STATUS_COASTING : Fld := ⟨0x04c, 2, 2, 4⟩
def CLK_STATUS_HOLD : Fld := ⟨0x04c, 1, 1, 4⟩
def CLK_STATUS_LOCKED : Fld := ⟨0x04c, 0, 0, 4⟩
def CLK_SAFE_HOLD_CLEAR : Fld := ⟨0x050, 0, 0, 4⟩
def CLK_REF_OFFSET : Fld := ⟨0x054, 15, 0, 4⟩
def CLK_COUNTS_COAST_COUNT : Fld := ⟨0x064, 31, 16, 4⟩
def CLK_COUNTS_SWITCH_COUNT : Fld := ⟨0x064, 15, 0, 4⟩
def CLK_LAST_SWITCH_LO : Fld := ⟨0x068, 31, 0, 4⟩
def CLK_LAST_SWITCH_HI : Fld := ⟨0x06c, 31, 0, 4⟩
def CLK_FMEAS_CTRL_INST : Fld := ⟨0x070, 27, 24, 4⟩
def CLK_FMEAS_CTRL_DIR : Fld := ⟨0x070, 16, 16, 4⟩
def CLK_FMEAS_CTRL_GATE : Fld := ⟨0x070, 12, 8, 4⟩
def CLK_FMEAS_CTRL_SRC : Fld := ⟨0x070, 4, 0, 4⟩
def CLK_FMEAS_START : Fld := ⟨0x074, 0, 0, 4⟩
def CLK_FMEAS_STATUS_TIMEOUT : Fld := ⟨0x078, 2, 2, 4⟩
def CLK_FMEAS_STATUS_DONE : Fld := ⟨0x078, 1, 1, 4⟩
def CLK_FMEAS_STATUS_BUSY : Fld := ⟨0x078, 0, 0, 4⟩
def CLK_FMEAS_COUNT : Fld := ⟨0x07c, 31, 0, 4⟩

/-! LANE: spec/04_lanes.md (R80). -/
def LANE_LANE_STATUS_PARTNER_RATES : Fld := ⟨0x040, 19, 16, 4⟩
def LANE_LANE_STATUS_TX_LOOP_TIMED : Fld := ⟨0x040, 12, 12, 4⟩
def LANE_LANE_STATUS_ACTIVITY : Fld := ⟨0x040, 10, 10, 4⟩
def LANE_LANE_STATUS_FRAME_LOCK : Fld := ⟨0x040, 9, 9, 4⟩
def LANE_LANE_STATUS_CDR_LOCK : Fld := ⟨0x040, 8, 8, 4⟩
def LANE_LANE_STATUS_RATE : Fld := ⟨0x040, 5, 4, 4⟩
def LANE_LANE_STATUS_PHASE : Fld := ⟨0x040, 2, 0, 4⟩
def LANE_LANE_CTRL_TX_LEVEL : Fld := ⟨0x044, 22, 20, 4⟩
def LANE_LANE_CTRL_TX_INVERT : Fld := ⟨0x044, 17, 17, 4⟩
def LANE_LANE_CTRL_RX_INVERT : Fld := ⟨0x044, 16, 16, 4⟩
def LANE_LANE_CTRL_BRINGUP_RETRIES : Fld := ⟨0x044, 11, 8, 4⟩
def LANE_LANE_CTRL_MAX_RATE : Fld := ⟨0x044, 1, 0, 4⟩
def LANE_STEP_CTRL_GO : Fld := ⟨0x048, 8, 8, 4⟩
def LANE_STEP_CTRL_RATE : Fld := ⟨0x048, 1, 0, 4⟩
def LANE_STEP_AT_LO : Fld := ⟨0x04c, 31, 0, 4⟩
def LANE_STEP_AT_HI : Fld := ⟨0x050, 15, 0, 4⟩
def LANE_STEP_STATUS_RESULT : Fld := ⟨0x054, 6, 4, 4⟩
def LANE_STEP_STATUS_BUSY : Fld := ⟨0x054, 0, 0, 4⟩
def LANE_LOOP_CTRL_NES_DRIVE : Fld := ⟨0x058, 10, 10, 4⟩
def LANE_LOOP_CTRL_CHK_EN : Fld := ⟨0x058, 9, 9, 4⟩
def LANE_LOOP_CTRL_GEN_EN : Fld := ⟨0x058, 8, 8, 4⟩
def LANE_LOOP_CTRL_RATE : Fld := ⟨0x058, 7, 6, 4⟩
def LANE_LOOP_CTRL_PATTERN : Fld := ⟨0x058, 5, 4, 4⟩
def LANE_LOOP_CTRL_MODE : Fld := ⟨0x058, 2, 0, 4⟩
def LANE_LOOP_CMD_CLEAR : Fld := ⟨0x05c, 1, 1, 4⟩
def LANE_LOOP_CMD_INJECT : Fld := ⟨0x05c, 0, 0, 4⟩
def LANE_PRBS_STATUS : Fld := ⟨0x060, 0, 0, 4⟩
def LANE_PRBS_ERRORS : Fld := ⟨0x064, 31, 0, 4⟩
def LANE_PRBS_BITS_LO : Fld := ⟨0x068, 31, 0, 4⟩
def LANE_PRBS_BITS_HI : Fld := ⟨0x06c, 31, 0, 4⟩
def LANE_STUFF_ERRORS : Fld := ⟨0x070, 31, 0, 4⟩
def LANE_FRAME_DISCARDS : Fld := ⟨0x074, 31, 0, 4⟩
def LANE_LOCK_LOSSES : Fld := ⟨0x078, 31, 16, 4⟩
def LANE_GAP_ERRORS : Fld := ⟨0x078, 15, 0, 4⟩
def LANE_STEPS : Fld := ⟨0x07c, 31, 16, 4⟩
def LANE_BRINGUP_FAILS : Fld := ⟨0x07c, 15, 0, 4⟩

/-! FRAME: spec/05_link_frames.md (R101). -/
def FRAME_FRAME_STATUS_TX_SEQ : Fld := ⟨0x100, 31, 24, 4⟩
def FRAME_FRAME_STATUS_RX_SEQ : Fld := ⟨0x100, 23, 16, 4⟩
def FRAME_FRAME_STATUS_POSTED_DONE : Fld := ⟨0x100, 15, 8, 4⟩
def FRAME_FRAME_STATUS_OUTSTANDING : Fld := ⟨0x100, 5, 0, 4⟩
def FRAME_TXN_RECEIVED : Fld := ⟨0x104, 31, 0, 4⟩
def FRAME_CPL_SENT : Fld := ⟨0x108, 31, 0, 4⟩
def FRAME_EVT_MESSAGES : Fld := ⟨0x10c, 31, 0, 4⟩
def FRAME_STREAM_BYTES_LO : Fld := ⟨0x110, 31, 0, 4⟩
def FRAME_STREAM_BYTES_HI : Fld := ⟨0x114, 31, 0, 4⟩
def FRAME_SEQ_GAPS : Fld := ⟨0x118, 31, 16, 4⟩
def FRAME_TYPE_ERRORS : Fld := ⟨0x118, 15, 0, 4⟩

/-! HEAD: spec/05_link_frames.md (R102). -/
def HEAD_HEAD_CTRL : Fld := ⟨0x100, 3, 0, 4⟩
def HEAD_HEAD_DELAY_MEASURED : Fld := ⟨0x104, 31, 31, 4⟩
def HEAD_HEAD_DELAY_DELAY : Fld := ⟨0x104, 15, 0, 4⟩
def HEAD_HEAD_STATUS_TURN : Fld := ⟨0x108, 31, 16, 4⟩
def HEAD_HEAD_STATUS_STATUS : Fld := ⟨0x108, 15, 0, 4⟩
def HEAD_UP_MISSING_B : Fld := ⟨0x10c, 31, 16, 4⟩
def HEAD_UP_MISSING_A : Fld := ⟨0x10c, 15, 0, 4⟩
def HEAD_LATEST_A : Fld := ⟨0x110, 15, 0, 4⟩
def HEAD_DN_SENT : Fld := ⟨0x114, 31, 0, 4⟩
def HEAD_MBX_OUT_LO : Fld := ⟨0x118, 31, 0, 4⟩
def HEAD_MBX_OUT_HI : Fld := ⟨0x11c, 31, 0, 4⟩
def HEAD_MBX_CTRL : Fld := ⟨0x120, 0, 0, 4⟩
def HEAD_MBX_STATUS_DONE : Fld := ⟨0x124, 1, 1, 4⟩
def HEAD_MBX_STATUS_BUSY : Fld := ⟨0x124, 0, 0, 4⟩
def HEAD_MBX_IN_LO : Fld := ⟨0x128, 31, 0, 4⟩
def HEAD_MBX_IN_HI : Fld := ⟨0x12c, 31, 0, 4⟩

/-! TIME: spec/06_timebase.md (R121). -/
def TIME_MODE_CTRL_QUAL : Fld := ⟨0x040, 27, 24, 4⟩
def TIME_MODE_CTRL_LOSS : Fld := ⟨0x040, 19, 16, 4⟩
def TIME_MODE_CTRL_FWD_MASK : Fld := ⟨0x040, 10, 8, 4⟩
def TIME_MODE_CTRL_STEP_EN : Fld := ⟨0x040, 4, 4, 4⟩
def TIME_MODE_CTRL_MODE : Fld := ⟨0x040, 1, 0, 4⟩
def TIME_PORT_PRIO : Fld := ⟨0x044, 15, 0, 4⟩
def TIME_GAINS_KI : Fld := ⟨0x048, 31, 16, 4⟩
def TIME_GAINS_KP : Fld := ⟨0x048, 15, 0, 4⟩
def TIME_THRESH_STEP_THRESH : Fld := ⟨0x04c, 31, 16, 4⟩
def TIME_THRESH_LOCK_THRESH : Fld := ⟨0x04c, 15, 0, 4⟩
def TIME_DLY_CTRL_FILT : Fld := ⟨0x050, 11, 8, 4⟩
def TIME_DLY_CTRL_INTERVAL : Fld := ⟨0x050, 3, 0, 4⟩
def TIME_IDENTITY : Fld := ⟨0x054, 15, 0, 4⟩
def TIME_MASTER_CTRL_TX_MASK : Fld := ⟨0x058, 11, 8, 4⟩
def TIME_MASTER_CTRL_INTERVAL : Fld := ⟨0x058, 7, 0, 4⟩
def TIME_STATUS_MASTER_ID : Fld := ⟨0x05c, 31, 16, 4⟩
def TIME_STATUS_TIME_PORT : Fld := ⟨0x05c, 6, 4, 4⟩
def TIME_STATUS_COASTING : Fld := ⟨0x05c, 3, 3, 4⟩
def TIME_STATUS_TSTATE : Fld := ⟨0x05c, 2, 0, 4⟩
def TIME_TIME_LO : Fld := ⟨0x060, 31, 0, 4⟩
def TIME_TIME_HI : Fld := ⟨0x064, 31, 0, 4⟩
def TIME_TIME_FRAC : Fld := ⟨0x068, 31, 0, 4⟩
def TIME_ADJ_LO : Fld := ⟨0x06c, 31, 0, 4⟩
def TIME_ADJ_HI : Fld := ⟨0x070, 31, 0, 4⟩
def TIME_RATE : Fld := ⟨0x074, 23, 0, 4⟩
def TIME_INTEG : Fld := ⟨0x078, 31, 0, 4⟩
def TIME_OFFSET : Fld := ⟨0x07c, 31, 0, 4⟩
def TIME_DELAY : Fld := ⟨0x080, 31, 0, 4⟩
def TIME_ASYM : Fld := ⟨0x090, 15, 0, 4⟩
def TIME_SYNC_ACCEPTED : Fld := ⟨0x0a0, 31, 0, 4⟩
def TIME_DLY_COMPLETED : Fld := ⟨0x0a4, 31, 0, 4⟩
def TIME_HOLDOVERS : Fld := ⟨0x0a8, 31, 16, 4⟩
def TIME_STEPS : Fld := ⟨0x0a8, 15, 0, 4⟩
def TIME_PORT_SWITCHES : Fld := ⟨0x0ac, 31, 16, 4⟩
def TIME_LAUNCH_LATE : Fld := ⟨0x0ac, 15, 0, 4⟩
def TIME_DLY_TIMEOUTS : Fld := ⟨0x0b0, 31, 16, 4⟩
def TIME_SYNC_DISCARDED : Fld := ⟨0x0b0, 15, 0, 4⟩

/-! SYS: spec/07_power_start.md (R136). -/
def SYS_DEVICE_ID_PART : Fld := ⟨0x040, 31, 16, 4⟩
def SYS_DEVICE_ID_STEPPING : Fld := ⟨0x040, 15, 8, 4⟩
def SYS_DEVICE_ID_PACKAGE : Fld := ⟨0x040, 7, 0, 4⟩
def SYS_BOOT_STATUS_PRIMER_US : Fld := ⟨0x044, 31, 16, 4⟩
def SYS_BOOT_STATUS_REF_USED : Fld := ⟨0x044, 10, 8, 4⟩
def SYS_BOOT_STATUS_MARKER_FAIL : Fld := ⟨0x044, 4, 4, 4⟩
def SYS_BOOT_STATUS_REPAIR_FALLBACK : Fld := ⟨0x044, 3, 3, 4⟩
def SYS_BOOT_STATUS_CAL_FALLBACK : Fld := ⟨0x044, 2, 2, 4⟩
def SYS_BOOT_STATUS_NV_ABSENT : Fld := ⟨0x044, 1, 1, 4⟩
def SYS_BOOT_STATUS_FUSE_BAD : Fld := ⟨0x044, 0, 0, 4⟩
def SYS_RESET_CMD_KEY : Fld := ⟨0x048, 31, 24, 4⟩
def SYS_RESET_CMD_KIND : Fld := ⟨0x048, 1, 0, 4⟩
def SYS_STRAPS : Fld := ⟨0x04c, 0, 0, 4⟩

/-! PWR: spec/07_power_start.md (R137). -/
def PWR_DOMAIN_CTRL_REQ : Fld := ⟨0x040, 8, 2, 4⟩
def PWR_DOMAIN_CTRL_FIXED : Fld := ⟨0x040, 1, 0, 4⟩
def PWR_DOMAIN_STATUS_SWITCHING : Fld := ⟨0x044, 31, 28, 4⟩
def PWR_DOMAIN_STATUS_ON : Fld := ⟨0x044, 8, 0, 4⟩
def PWR_WAKE_CFG_LINK_WAIT : Fld := ⟨0x048, 23, 16, 4⟩
def PWR_WAKE_CFG_PG_TIMEOUT : Fld := ⟨0x048, 15, 8, 4⟩
def PWR_WAKE_CFG_PIN_EN : Fld := ⟨0x048, 4, 4, 4⟩
def PWR_WAKE_CFG_WAKE_MASK : Fld := ⟨0x048, 3, 0, 4⟩
def PWR_WAKE_STATUS_LINK_TIMEOUT : Fld := ⟨0x04c, 9, 9, 4⟩
def PWR_WAKE_STATUS_PG_TIMEOUT : Fld := ⟨0x04c, 8, 8, 4⟩
def PWR_WAKE_STATUS_LAST_EXIT : Fld := ⟨0x04c, 6, 4, 4⟩
def PWR_WAKE_STATUS_CAUSE : Fld := ⟨0x04c, 2, 0, 4⟩
def PWR_AON_COUNTS_PG_DROPS : Fld := ⟨0x050, 31, 16, 4⟩
def PWR_AON_COUNTS_WAKES : Fld := ⟨0x050, 15, 0, 4⟩

/-! BRUSH: spec/09_stroke_sequencer.md (R186). -/
def BRUSH_MODE : Fld := ⟨0x040, 1, 0, 4⟩
def BRUSH_SETTLE_TOL : Fld := ⟨0x044, 23, 0, 4⟩
def BRUSH_START_CFG_PARK_TIMEOUT : Fld := ⟨0x048, 31, 16, 4⟩
def BRUSH_START_CFG_PARK_LIMIT_SET : Fld := ⟨0x048, 9, 8, 4⟩
def BRUSH_START_CFG_START_FRAMES : Fld := ⟨0x048, 7, 0, 4⟩
def BRUSH_PARK_X : Fld := ⟨0x04c, 31, 0, 4⟩
def BRUSH_PARK_Y : Fld := ⟨0x050, 31, 0, 4⟩
def BRUSH_PARK_Z : Fld := ⟨0x054, 31, 0, 4⟩
def BRUSH_CHAIN_LO : Fld := ⟨0x058, 31, 6, 4⟩
def BRUSH_CHAIN_HI : Fld := ⟨0x05c, 7, 0, 4⟩
def BRUSH_STATUS_FAULT_CAUSE : Fld := ⟨0x060, 31, 28, 4⟩
def BRUSH_STATUS_MISS_RUN : Fld := ⟨0x060, 27, 24, 4⟩
def BRUSH_STATUS_WAITING : Fld := ⟨0x060, 22, 22, 4⟩
def BRUSH_STATUS_CHAIN_ENDED : Fld := ⟨0x060, 21, 21, 4⟩
def BRUSH_STATUS_SHEET_VALID : Fld := ⟨0x060, 20, 20, 4⟩
def BRUSH_STATUS_GLAZE_SET : Fld := ⟨0x060, 18, 18, 4⟩
def BRUSH_STATUS_PALETTE_SET : Fld := ⟨0x060, 17, 17, 4⟩
def BRUSH_STATUS_GRID_SET : Fld := ⟨0x060, 16, 16, 4⟩
def BRUSH_STATUS_SEAM : Fld := ⟨0x060, 8, 8, 4⟩
def BRUSH_STATUS_MODE_ACTIVE : Fld := ⟨0x060, 1, 0, 4⟩
def BRUSH_SHEET_ID : Fld := ⟨0x064, 31, 0, 4⟩
def BRUSH_STROKE_INDEX : Fld := ⟨0x068, 31, 0, 4⟩
def BRUSH_ANCHOR_T_LO : Fld := ⟨0x06c, 31, 0, 4⟩
def BRUSH_ANCHOR_T_HI : Fld := ⟨0x070, 15, 0, 4⟩
def BRUSH_ANCHOR_M_LO : Fld := ⟨0x074, 31, 0, 4⟩
def BRUSH_ANCHOR_M_HI : Fld := ⟨0x078, 15, 0, 4⟩
def BRUSH_PASS_COUNT : Fld := ⟨0x07c, 31, 0, 4⟩
def BRUSH_WINDOW_B_AHEAD : Fld := ⟨0x080, 27, 16, 4⟩
def BRUSH_WINDOW_A_AHEAD : Fld := ⟨0x080, 11, 0, 4⟩
def BRUSH_STROKES : Fld := ⟨0x084, 31, 0, 4⟩
def BRUSH_MISSES : Fld := ⟨0x088, 31, 0, 4⟩
def BRUSH_LATE_FETCHES : Fld := ⟨0x08c, 31, 16, 4⟩
def BRUSH_START_CONFLICTS : Fld := ⟨0x08c, 15, 0, 4⟩
def BRUSH_UNSETTLED : Fld := ⟨0x090, 31, 16, 4⟩
def BRUSH_TRUNCATED : Fld := ⟨0x090, 15, 0, 4⟩
def BRUSH_SHEETS : Fld := ⟨0x094, 31, 16, 4⟩
def BRUSH_MARGIN_MIN : Fld := ⟨0x094, 15, 0, 4⟩
def BRUSH_LATE_SHEETS : Fld := ⟨0x098, 31, 0, 4⟩

/-! LASER: spec/09_stroke_sequencer.md (R187). -/
def LASER_LAT_ON : Fld := ⟨0x040, 31, 0, 4⟩
def LASER_LAT_OFF : Fld := ⟨0x044, 31, 0, 4⟩
def LASER_LAT_PSYNC : Fld := ⟨0x048, 31, 0, 4⟩
def LASER_LAT_POWER : Fld := ⟨0x04c, 31, 0, 4⟩
def LASER_PORT_CFG_FAULT_HALT : Fld := ⟨0x050, 1, 1, 4⟩
def LASER_PORT_CFG_READY_REQ : Fld := ⟨0x050, 0, 0, 4⟩
def LASER_IDLE_POWER : Fld := ⟨0x054, 15, 0, 4⟩
def LASER_PORT_STATUS_LAST_POWER : Fld := ⟨0x058, 31, 16, 4⟩
def LASER_PORT_STATUS_FORCED : Fld := ⟨0x058, 6, 6, 4⟩
def LASER_PORT_STATUS_ARM : Fld := ⟨0x058, 5, 5, 4⟩
def LASER_PORT_STATUS_PSYNC : Fld := ⟨0x058, 4, 4, 4⟩
def LASER_PORT_STATUS_GATE : Fld := ⟨0x058, 3, 3, 4⟩
def LASER_PORT_STATUS_FAULT : Fld := ⟨0x058, 2, 2, 4⟩
def LASER_PORT_STATUS_READY : Fld := ⟨0x058, 1, 1, 4⟩
def LASER_PORT_STATUS_WORDS : Fld := ⟨0x058, 0, 0, 4⟩
def LASER_TWIN_STATUS_TOL_1 : Fld := ⟨0x05c, 8, 8, 4⟩
def LASER_TWIN_STATUS_MAX_DIFF : Fld := ⟨0x05c, 7, 0, 4⟩
def LASER_WORDS_SENT : Fld := ⟨0x060, 31, 0, 4⟩
def LASER_GATE_PULSES : Fld := ⟨0x064, 31, 0, 4⟩
def LASER_READY_LOSSES : Fld := ⟨0x068, 31, 16, 4⟩
def LASER_LASER_FAULTS : Fld := ⟨0x068, 15, 0, 4⟩

/-! ENC: spec/10_moving_medium.md (R202). -/
def ENC_ENC_CFG_ERR_FAULT : Fld := ⟨0x040, 13, 13, 4⟩
def ENC_ENC_CFG_REVERSE : Fld := ⟨0x040, 12, 12, 4⟩
def ENC_ENC_CFG_FILT : Fld := ⟨0x040, 11, 8, 4⟩
def ENC_ENC_CFG_STEP_SRC : Fld := ⟨0x040, 6, 4, 4⟩
def ENC_ENC_CFG_MODE : Fld := ⟨0x040, 1, 0, 4⟩
def ENC_SCALE_LO : Fld := ⟨0x044, 31, 0, 4⟩
def ENC_SCALE_HI : Fld := ⟨0x048, 31, 0, 4⟩
def ENC_INDEX_ARM : Fld := ⟨0x04c, 0, 0, 4⟩
def ENC_COUNT_LO : Fld := ⟨0x050, 31, 0, 4⟩
def ENC_COUNT_HI : Fld := ⟨0x054, 15, 0, 4⟩
def ENC_INDEX_COUNT_LO : Fld := ⟨0x058, 31, 0, 4⟩
def ENC_INDEX_VALID : Fld := ⟨0x05c, 31, 31, 4⟩
def ENC_INDEX_COUNT_HI : Fld := ⟨0x05c, 15, 0, 4⟩
def ENC_INDEX_TIME_LO : Fld := ⟨0x060, 31, 0, 4⟩
def ENC_INDEX_TIME_HI : Fld := ⟨0x064, 15, 0, 4⟩
def ENC_PINS_Z : Fld := ⟨0x068, 2, 2, 4⟩
def ENC_PINS_B : Fld := ⟨0x068, 1, 1, 4⟩
def ENC_PINS_A : Fld := ⟨0x068, 0, 0, 4⟩
def ENC_QUAD_ERRORS : Fld := ⟨0x06c, 31, 0, 4⟩

/-! MEDIUM: spec/10_moving_medium.md (R203). -/
def MEDIUM_MODE_CTRL_MISS_LIMIT : Fld := ⟨0x040, 23, 16, 4⟩
def MEDIUM_MODE_CTRL_SRC : Fld := ⟨0x040, 9, 8, 4⟩
def MEDIUM_MODE_CTRL_ROT_CW : Fld := ⟨0x040, 2, 2, 4⟩
def MEDIUM_MODE_CTRL_GEOM : Fld := ⟨0x040, 1, 1, 4⟩
def MEDIUM_MODE_CTRL_MOVING : Fld := ⟨0x040, 0, 0, 4⟩
def MEDIUM_GAINS_KB : Fld := ⟨0x044, 31, 16, 4⟩
def MEDIUM_GAINS_KA : Fld := ⟨0x044, 15, 0, 4⟩
def MEDIUM_VMIN : Fld := ⟨0x048, 31, 0, 4⟩
def MEDIUM_FREEZE : Fld := ⟨0x04c, 9, 0, 4⟩
def MEDIUM_SEAM_LEAD : Fld := ⟨0x050, 31, 0, 4⟩
def MEDIUM_DIR_X : Fld := ⟨0x054, 31, 0, 4⟩
def MEDIUM_DIR_Y : Fld := ⟨0x058, 31, 0, 4⟩
def MEDIUM_CENTRE_X : Fld := ⟨0x05c, 31, 0, 4⟩
def MEDIUM_CENTRE_Y : Fld := ⟨0x060, 31, 0, 4⟩
def MEDIUM_TURN_LO : Fld := ⟨0x064, 31, 0, 4⟩
def MEDIUM_TURN_HI : Fld := ⟨0x068, 15, 0, 4⟩
def MEDIUM_KZ : Fld := ⟨0x06c, 31, 0, 4⟩
def MEDIUM_ORIGIN_LO : Fld := ⟨0x070, 31, 0, 4⟩
def MEDIUM_ORIGIN_HI : Fld := ⟨0x074, 15, 0, 4⟩
def MEDIUM_STATUS_MISS_RUN : Fld := ⟨0x078, 23, 16, 4⟩
def MEDIUM_STATUS_LOCAL : Fld := ⟨0x078, 3, 3, 4⟩
def MEDIUM_STATUS_PEER : Fld := ⟨0x078, 2, 2, 4⟩
def MEDIUM_STATUS_COAST : Fld := ⟨0x078, 1, 1, 4⟩
def MEDIUM_STATUS_IN_FORCE : Fld := ⟨0x078, 0, 0, 4⟩
def MEDIUM_POS_LO : Fld := ⟨0x07c, 31, 0, 4⟩
def MEDIUM_POS_HI : Fld := ⟨0x080, 31, 0, 4⟩
def MEDIUM_VEL_LO : Fld := ⟨0x084, 31, 0, 4⟩
def MEDIUM_VEL_HI : Fld := ⟨0x088, 31, 0, 4⟩
def MEDIUM_FRAME : Fld := ⟨0x08c, 31, 0, 4⟩
def MEDIUM_MISSED_SAMPLES : Fld := ⟨0x090, 31, 16, 4⟩
def MEDIUM_FREEZE_LATE : Fld := ⟨0x090, 15, 0, 4⟩
def MEDIUM_WINDOW_OUT : Fld := ⟨0x094, 31, 0, 4⟩
def MEDIUM_SEAMS : Fld := ⟨0x098, 31, 16, 4⟩
def MEDIUM_TARGET_OVERFLOWS : Fld := ⟨0x098, 15, 0, 4⟩
def MEDIUM_WIN_OPEN_LO : Fld := ⟨0x100, 31, 0, 16⟩
def MEDIUM_WIN_WEN : Fld := ⟨0x104, 31, 31, 16⟩
def MEDIUM_WIN_OPEN_HI : Fld := ⟨0x104, 15, 0, 16⟩
def MEDIUM_WIN_CLOSE_LO : Fld := ⟨0x108, 31, 0, 16⟩
def MEDIUM_WIN_CLOSE_HI : Fld := ⟨0x10c, 15, 0, 16⟩

/-! RASTER: spec/11_raster.md (R220). -/
def RASTER_PIXEL_CFG : Fld := ⟨0x040, 7, 0, 4⟩
def RASTER_SWATCH_CFG_RECT_EN : Fld := ⟨0x044, 15, 8, 4⟩
def RASTER_SWATCH_CFG_TRIP : Fld := ⟨0x044, 1, 1, 4⟩
def RASTER_SWATCH_CFG_EN : Fld := ⟨0x044, 0, 0, 4⟩
def RASTER_TILE_STATUS_OPEN : Fld := ⟨0x048, 16, 16, 4⟩
def RASTER_TILE_STATUS_TILE : Fld := ⟨0x048, 15, 0, 4⟩
def RASTER_LINE_STATUS_RING_FREE : Fld := ⟨0x04c, 31, 16, 4⟩
def RASTER_LINE_STATUS_LINE : Fld := ⟨0x04c, 15, 0, 4⟩
def RASTER_SWATCH_TILE : Fld := ⟨0x050, 31, 16, 4⟩
def RASTER_SWATCH_VALID : Fld := ⟨0x050, 7, 7, 4⟩
def RASTER_SWATCH_MATCH : Fld := ⟨0x050, 4, 4, 4⟩
def RASTER_SWATCH_RECT : Fld := ⟨0x050, 2, 0, 4⟩
def RASTER_SWATCH_GOT : Fld := ⟨0x054, 31, 0, 4⟩
def RASTER_SWATCH_EXPECTED : Fld := ⟨0x058, 31, 0, 4⟩
def RASTER_SWATCH_TIME_LO : Fld := ⟨0x05c, 31, 0, 4⟩
def RASTER_SWATCH_TIME_HI : Fld := ⟨0x060, 15, 0, 4⟩
def RASTER_LINES_DONE : Fld := ⟨0x064, 31, 0, 4⟩
def RASTER_PIXELS_LO : Fld := ⟨0x068, 31, 0, 4⟩
def RASTER_PIXELS_HI : Fld := ⟨0x06c, 31, 0, 4⟩
def RASTER_SWATCH_PASSES : Fld := ⟨0x070, 31, 16, 4⟩
def RASTER_SWATCH_FAILS : Fld := ⟨0x070, 15, 0, 4⟩
def RASTER_SWATCH_INCOMPLETE : Fld := ⟨0x074, 31, 16, 4⟩
def RASTER_PIXEL_CLIPS : Fld := ⟨0x074, 15, 0, 4⟩

/-! ENGINE: spec/12_servo.md (R245). -/
def ENGINE_SLOT_MAP_BYTE_0 : Fld := ⟨0x040, 7, 0, 4⟩
def ENGINE_SLOT_MAP_BYTE_1 : Fld := ⟨0x040, 15, 8, 4⟩
def ENGINE_SLOT_MAP_BYTE_2 : Fld := ⟨0x040, 23, 16, 4⟩
def ENGINE_SLOT_MAP_BYTE_3 : Fld := ⟨0x040, 31, 24, 4⟩
def ENGINE_LOAD_PEAK : Fld := ⟨0x050, 31, 16, 4⟩
def ENGINE_LOAD_LAST : Fld := ⟨0x050, 15, 0, 4⟩
def ENGINE_OVERRUN_SLOTS : Fld := ⟨0x054, 15, 0, 4⟩
def ENGINE_TRACE_CTRL_DECIM : Fld := ⟨0x058, 26, 24, 4⟩
def ENGINE_TRACE_CTRL_TRIG : Fld := ⟨0x058, 21, 20, 4⟩
def ENGINE_TRACE_CTRL_SLOT_EN : Fld := ⟨0x058, 19, 16, 4⟩
def ENGINE_TRACE_CTRL_SLOT_3 : Fld := ⟨0x058, 15, 12, 4⟩
def ENGINE_TRACE_CTRL_SLOT_2 : Fld := ⟨0x058, 11, 8, 4⟩
def ENGINE_TRACE_CTRL_SLOT_1 : Fld := ⟨0x058, 7, 4, 4⟩
def ENGINE_TRACE_CTRL_SLOT_0 : Fld := ⟨0x058, 3, 0, 4⟩
def ENGINE_TRACE_LEVEL : Fld := ⟨0x05c, 31, 0, 4⟩
def ENGINE_TRACE_POST : Fld := ⟨0x060, 11, 0, 4⟩
def ENGINE_TRACE_CMD_STOP : Fld := ⟨0x064, 1, 1, 4⟩
def ENGINE_TRACE_CMD_ARM : Fld := ⟨0x064, 0, 0, 4⟩
def ENGINE_TRACE_STATUS_TRIG_INDEX : Fld := ⟨0x068, 27, 16, 4⟩
def ENGINE_TRACE_STATUS_NEXT : Fld := ⟨0x068, 15, 4, 4⟩
def ENGINE_TRACE_STATUS_WRAPPED : Fld := ⟨0x068, 3, 3, 4⟩
def ENGINE_TRACE_STATUS_DONE : Fld := ⟨0x068, 2, 2, 4⟩
def ENGINE_TRACE_STATUS_TRIGGERED : Fld := ⟨0x068, 1, 1, 4⟩
def ENGINE_TRACE_STATUS_ARMED : Fld := ⟨0x068, 0, 0, 4⟩
def ENGINE_INJECT_AMP : Fld := ⟨0x06c, 31, 16, 4⟩
def ENGINE_INJECT_MODE : Fld := ⟨0x06c, 5, 4, 4⟩
def ENGINE_INJECT_SLOT : Fld := ⟨0x06c, 3, 0, 4⟩

/-! AXIS: spec/12_servo.md (R246). -/
def AXIS_AXIS_CFG_FB_INST : Fld := ⟨0x040, 31, 28, 4⟩
def AXIS_AXIS_CFG_FB_SRC : Fld := ⟨0x040, 25, 24, 4⟩
def AXIS_AXIS_CFG_MISS_FAULT : Fld := ⟨0x040, 23, 20, 4⟩
def AXIS_AXIS_CFG_OVR_LIMIT : Fld := ⟨0x040, 19, 16, 4⟩
def AXIS_AXIS_CFG_COG_EN : Fld := ⟨0x040, 14, 14, 4⟩
def AXIS_AXIS_CFG_FRIC_EN : Fld := ⟨0x040, 13, 13, 4⟩
def AXIS_AXIS_CFG_FF_EN : Fld := ⟨0x040, 12, 12, 4⟩
def AXIS_AXIS_CFG_NBQ : Fld := ⟨0x040, 11, 8, 4⟩
def AXIS_AXIS_CFG_PHASE : Fld := ⟨0x040, 6, 4, 4⟩
def AXIS_AXIS_CFG_RATE : Fld := ⟨0x040, 1, 0, 4⟩
def AXIS_SOURCE_SP_INST : Fld := ⟨0x044, 7, 4, 4⟩
def AXIS_SOURCE_SP_SRC : Fld := ⟨0x044, 2, 0, 4⟩
def AXIS_SP_HOST : Fld := ⟨0x048, 31, 0, 4⟩
def AXIS_FOLLOW_SCALE : Fld := ⟨0x04c, 31, 0, 4⟩
def AXIS_FOLLOW_OFFSET : Fld := ⟨0x050, 31, 0, 4⟩
def AXIS_FB_SCALE : Fld := ⟨0x054, 31, 0, 4⟩
def AXIS_FB_OFFSET : Fld := ⟨0x058, 31, 0, 4⟩
def AXIS_OUT_CFG_OUT_EN : Fld := ⟨0x05c, 8, 8, 4⟩
def AXIS_OUT_CFG_TARGET : Fld := ⟨0x05c, 5, 0, 4⟩
def AXIS_OUT_GAIN : Fld := ⟨0x060, 31, 0, 4⟩
def AXIS_KP : Fld := ⟨0x064, 31, 0, 4⟩
def AXIS_KI : Fld := ⟨0x068, 31, 0, 4⟩
def AXIS_KD : Fld := ⟨0x06c, 31, 0, 4⟩
def AXIS_KVF : Fld := ⟨0x078, 31, 0, 4⟩
def AXIS_KAF : Fld := ⟨0x07c, 31, 0, 4⟩
def AXIS_WEIGHTS_C : Fld := ⟨0x070, 31, 16, 4⟩
def AXIS_WEIGHTS_B : Fld := ⟨0x070, 15, 0, 4⟩
def AXIS_KN : Fld := ⟨0x074, 15, 0, 4⟩
def AXIS_FRIC_DB : Fld := ⟨0x080, 31, 0, 4⟩
def AXIS_CMD_LIMIT : Fld := ⟨0x084, 15, 0, 4⟩
def AXIS_FE_LIMIT : Fld := ⟨0x088, 31, 0, 4⟩
def AXIS_STATUS_FAULT_CAUSE : Fld := ⟨0x08c, 31, 28, 4⟩
def AXIS_STATUS_OVR_RUN : Fld := ⟨0x08c, 27, 24, 4⟩
def AXIS_STATUS_MISS_RUN : Fld := ⟨0x08c, 23, 20, 4⟩
def AXIS_STATUS_ENGINE : Fld := ⟨0x08c, 17, 16, 4⟩
def AXIS_STATUS_SLOT : Fld := ⟨0x08c, 15, 12, 4⟩
def AXIS_STATUS_ASSIGNED : Fld := ⟨0x08c, 4, 4, 4⟩
def AXIS_STATUS_COMPUTED : Fld := ⟨0x08c, 3, 3, 4⟩
def AXIS_STATUS_OUT_SAT : Fld := ⟨0x08c, 2, 2, 4⟩
def AXIS_STATUS_PRED : Fld := ⟨0x08c, 1, 1, 4⟩
def AXIS_STATUS_AMP_EN : Fld := ⟨0x08c, 0, 0, 4⟩
def AXIS_LIVE_SP : Fld := ⟨0x090, 31, 0, 4⟩
def AXIS_LIVE_POS : Fld := ⟨0x094, 31, 0, 4⟩
def AXIS_LIVE_ERR : Fld := ⟨0x098, 31, 0, 4⟩
def AXIS_LIVE_FLAGS : Fld := ⟨0x09c, 31, 16, 4⟩
def AXIS_LIVE_CMD : Fld := ⟨0x09c, 15, 0, 4⟩
def AXIS_LIVE_FRAME : Fld := ⟨0x0a0, 31, 0, 4⟩
def AXIS_LIVE_INTEG_LO : Fld := ⟨0x0a4, 31, 0, 4⟩
def AXIS_LIVE_INTEG_HI : Fld := ⟨0x0a8, 15, 0, 4⟩
def AXIS_FE_PEAK : Fld := ⟨0x0ac, 31, 0, 4⟩
def AXIS_OVERRUNS : Fld := ⟨0x0b0, 31, 0, 4⟩
def AXIS_PREDICTED : Fld := ⟨0x0b4, 31, 16, 4⟩
def AXIS_AMP_FAULTS : Fld := ⟨0x0b4, 15, 0, 4⟩
def AXIS_BQ_B0 : Fld := ⟨0x100, 31, 0, 32⟩
def AXIS_BQ_B1 : Fld := ⟨0x104, 31, 0, 32⟩
def AXIS_BQ_B2 : Fld := ⟨0x108, 31, 0, 32⟩
def AXIS_BQ_A1 : Fld := ⟨0x10c, 31, 0, 32⟩
def AXIS_BQ_A2 : Fld := ⟨0x110, 31, 0, 32⟩

/-! STEP: spec/13_profiles_steppers.md (R264). -/
def STEP_PORT_CFG_LINK_LIMIT : Fld := ⟨0x040, 27, 24, 4⟩
def STEP_PORT_CFG_DI_DELAY : Fld := ⟨0x040, 18, 16, 4⟩
def STEP_MOTOR_RS : Fld := ⟨0x044, 31, 16, 4⟩
def STEP_MOTOR_LS : Fld := ⟨0x044, 15, 0, 4⟩
def STEP_CURRENT : Fld := ⟨0x048, 14, 0, 4⟩
def STEP_STALL_CFG_ACTION : Fld := ⟨0x04c, 31, 30, 4⟩
def STEP_STALL_CFG_TICKS : Fld := ⟨0x04c, 27, 24, 4⟩
def STEP_STALL_CFG_KF : Fld := ⟨0x04c, 23, 16, 4⟩
def STEP_STALL_CFG_ANGLE : Fld := ⟨0x04c, 15, 0, 4⟩
def STEP_MIN_SPEED : Fld := ⟨0x050, 31, 0, 4⟩
def STEP_V_LO : Fld := ⟨0x054, 31, 0, 4⟩
def STEP_V_HI : Fld := ⟨0x058, 15, 0, 4⟩
def STEP_A_LO : Fld := ⟨0x05c, 31, 0, 4⟩
def STEP_A_HI : Fld := ⟨0x060, 15, 0, 4⟩
def STEP_J_LO : Fld := ⟨0x064, 31, 0, 4⟩
def STEP_J_HI : Fld := ⟨0x068, 15, 0, 4⟩
def STEP_TARGET_LO : Fld := ⟨0x06c, 31, 0, 4⟩
def STEP_TARGET_HI : Fld := ⟨0x070, 7, 0, 4⟩
def STEP_POS_SET_LO : Fld := ⟨0x074, 31, 0, 4⟩
def STEP_POS_SET_HI : Fld := ⟨0x078, 7, 0, 4⟩
def STEP_STATUS_FAULT_CAUSE : Fld := ⟨0x07c, 31, 28, 4⟩
def STEP_STATUS_LINK_MISS : Fld := ⟨0x07c, 27, 24, 4⟩
def STEP_STATUS_STALL_RUN : Fld := ⟨0x07c, 23, 20, 4⟩
def STEP_STATUS_POS_LOST : Fld := ⟨0x07c, 7, 7, 4⟩
def STEP_STATUS_HOLDING : Fld := ⟨0x07c, 6, 6, 4⟩
def STEP_STATUS_EST_VALID : Fld := ⟨0x07c, 2, 2, 4⟩
def STEP_STATUS_MOVING : Fld := ⟨0x07c, 1, 1, 4⟩
def STEP_STATUS_AT_TARGET : Fld := ⟨0x07c, 0, 0, 4⟩
def STEP_POS_LO : Fld := ⟨0x080, 31, 0, 4⟩
def STEP_POS_HI : Fld := ⟨0x084, 31, 0, 4⟩
def STEP_VEL_LO : Fld := ⟨0x088, 31, 0, 4⟩
def STEP_VEL_HI : Fld := ⟨0x08c, 31, 0, 4⟩
def STEP_ACC : Fld := ⟨0x090, 31, 0, 4⟩
def STEP_TICK : Fld := ⟨0x094, 31, 0, 4⟩
def STEP_DELTA : Fld := ⟨0x098, 15, 0, 4⟩
def STEP_BRIDGE_STATUS : Fld := ⟨0x09c, 31, 0, 4⟩
def STEP_MEAS_I : Fld := ⟨0x0a0, 31, 0, 4⟩
def STEP_MEAS_V : Fld := ⟨0x0a4, 31, 0, 4⟩
def STEP_STALLS : Fld := ⟨0x0a8, 31, 16, 4⟩
def STEP_LINK_ERRORS : Fld := ⟨0x0a8, 15, 0, 4⟩
def STEP_BRIDGE_FAULTS : Fld := ⟨0x0ac, 15, 0, 4⟩

/-! CAM: spec/14_vision.md (R285). -/
def CAM_CAM_CFG_DESKEW_EN : Fld := ⟨0x040, 24, 24, 4⟩
def CAM_CAM_CFG_SETTLE : Fld := ⟨0x040, 21, 16, 4⟩
def CAM_CAM_CFG_CLK_INV : Fld := ⟨0x040, 8, 8, 4⟩
def CAM_CAM_CFG_LANE_INV : Fld := ⟨0x040, 7, 4, 4⟩
def CAM_CAM_CFG_LANES : Fld := ⟨0x040, 1, 0, 4⟩
def CAM_CAM_STATUS_BUF_USED : Fld := ⟨0x044, 26, 16, 4⟩
def CAM_CAM_STATUS_ULPS : Fld := ⟨0x044, 5, 5, 4⟩
def CAM_CAM_STATUS_HS : Fld := ⟨0x044, 4, 4, 4⟩
def CAM_CAM_STATUS_STOP : Fld := ⟨0x044, 3, 0, 4⟩
def CAM_BUF_PEAK : Fld := ⟨0x048, 16, 0, 4⟩
def CAM_PACKETS : Fld := ⟨0x04c, 31, 0, 4⟩
def CAM_HDR_CORRECTED : Fld := ⟨0x050, 31, 16, 4⟩
def CAM_HDR_UNCORR : Fld := ⟨0x050, 15, 0, 4⟩
def CAM_CRC_ERRORS : Fld := ⟨0x054, 31, 16, 4⟩
def CAM_OVERFLOWS : Fld := ⟨0x054, 15, 0, 4⟩
def CAM_UNMATCHED : Fld := ⟨0x058, 31, 16, 4⟩
def CAM_PHY_ERRORS : Fld := ⟨0x058, 15, 0, 4⟩
def CAM_BYTES_LO : Fld := ⟨0x05c, 31, 0, 4⟩
def CAM_BYTES_HI : Fld := ⟨0x060, 31, 0, 4⟩

/-! STREAM: spec/14_vision.md (R286). -/
def STREAM_CTX_CFG_TRIG_USE : Fld := ⟨0x040, 30, 30, 4⟩
def STREAM_CTX_CFG_TRIG_OWN : Fld := ⟨0x040, 29, 29, 4⟩
def STREAM_CTX_CFG_TRIG : Fld := ⟨0x040, 28, 26, 4⟩
def STREAM_CTX_CFG_BRUSH : Fld := ⟨0x040, 24, 20, 4⟩
def STREAM_CTX_CFG_KIND : Fld := ⟨0x040, 17, 16, 4⟩
def STREAM_CTX_CFG_DT : Fld := ⟨0x040, 13, 8, 4⟩
def STREAM_CTX_CFG_VC : Fld := ⟨0x040, 3, 0, 4⟩
def STREAM_GEOM_HEIGHT : Fld := ⟨0x044, 31, 16, 4⟩
def STREAM_GEOM_WIDTH : Fld := ⟨0x044, 13, 0, 4⟩
def STREAM_FRAME_LIMIT : Fld := ⟨0x048, 31, 0, 4⟩
def STREAM_PIPE_CFG_FN_BITS : Fld := ⟨0x04c, 31, 28, 4⟩
def STREAM_PIPE_CFG_NROI : Fld := ⟨0x04c, 27, 24, 4⟩
def STREAM_PIPE_CFG_HIST_SHIFT : Fld := ⟨0x04c, 23, 20, 4⟩
def STREAM_PIPE_CFG_FF_SHIFT : Fld := ⟨0x04c, 18, 16, 4⟩
def STREAM_PIPE_CFG_MERGE_CTX : Fld := ⟨0x04c, 12, 8, 4⟩
def STREAM_PIPE_CFG_MERGE_SEL : Fld := ⟨0x04c, 4, 4, 4⟩
def STREAM_PIPE_CFG_FF_EN : Fld := ⟨0x04c, 3, 3, 4⟩
def STREAM_PIPE_CFG_DEFECT_EN : Fld := ⟨0x04c, 2, 2, 4⟩
def STREAM_PIPE_CFG_MERGE_EN : Fld := ⟨0x04c, 1, 1, 4⟩
def STREAM_PIPE_CFG_LIN_EN : Fld := ⟨0x04c, 0, 0, 4⟩
def STREAM_BLACK : Fld := ⟨0x050, 15, 0, 4⟩
def STREAM_MERGE_RATIO : Fld := ⟨0x054, 31, 16, 4⟩
def STREAM_MERGE_KNEE : Fld := ⟨0x054, 15, 0, 4⟩
def STREAM_EXPOSURE : Fld := ⟨0x058, 31, 0, 4⟩
def STREAM_SET_ID : Fld := ⟨0x05c, 15, 0, 4⟩
def STREAM_TRIG_PERIOD : Fld := ⟨0x060, 31, 0, 4⟩
def STREAM_TRIG_DELAY : Fld := ⟨0x064, 31, 0, 4⟩
def STREAM_TRIG_FIRST_LO : Fld := ⟨0x068, 31, 0, 4⟩
def STREAM_TRIG_FIRST_HI : Fld := ⟨0x06c, 15, 0, 4⟩
def STREAM_ONESHOT_LO : Fld := ⟨0x074, 31, 0, 4⟩
def STREAM_ONESHOT_HI : Fld := ⟨0x078, 15, 0, 4⟩
def STREAM_TRIG_CFG_POL : Fld := ⟨0x070, 4, 4, 4⟩
def STREAM_TRIG_CFG_MODE : Fld := ⟨0x070, 1, 0, 4⟩
def STREAM_STORE_CFG_SLOTS : Fld := ⟨0x07c, 31, 24, 4⟩
def STREAM_STORE_CFG_DIV : Fld := ⟨0x07c, 15, 12, 4⟩
def STREAM_STORE_CFG_HOST : Fld := ⟨0x07c, 10, 9, 4⟩
def STREAM_STORE_CFG_KEEP : Fld := ⟨0x07c, 8, 8, 4⟩
def STREAM_STORE_CFG_FORM : Fld := ⟨0x07c, 4, 4, 4⟩
def STREAM_STORE_CFG_STORE : Fld := ⟨0x07c, 1, 0, 4⟩
def STREAM_SLOT_BYTES : Fld := ⟨0x080, 31, 0, 4⟩
def STREAM_STORE_BASE_LO : Fld := ⟨0x084, 31, 6, 4⟩
def STREAM_STORE_BASE_HI : Fld := ⟨0x088, 7, 0, 4⟩
def STREAM_STATUS_LAST_SEQ : Fld := ⟨0x08c, 31, 16, 4⟩
def STREAM_STATUS_LAST_SLOT : Fld := ⟨0x08c, 15, 8, 4⟩
def STREAM_STATUS_THROTTLED : Fld := ⟨0x08c, 2, 2, 4⟩
def STREAM_STATUS_SENDING : Fld := ⟨0x08c, 1, 1, 4⟩
def STREAM_STATUS_OPEN : Fld := ⟨0x08c, 0, 0, 4⟩
def STREAM_FRAMES : Fld := ⟨0x090, 31, 0, 4⟩
def STREAM_TRIGGERS : Fld := ⟨0x094, 31, 0, 4⟩
def STREAM_TRUNCATED : Fld := ⟨0x098, 31, 16, 4⟩
def STREAM_LINES_LOST : Fld := ⟨0x098, 15, 0, 4⟩
def STREAM_RESYNCS : Fld := ⟨0x09c, 31, 16, 4⟩
def STREAM_FN_ERRORS : Fld := ⟨0x09c, 15, 0, 4⟩
def STREAM_STORE_SKIPS : Fld := ⟨0x0a0, 31, 16, 4⟩
def STREAM_STREAM_SKIPS : Fld := ⟨0x0a0, 15, 0, 4⟩
def STREAM_THROTTLED : Fld := ⟨0x0a4, 31, 16, 4⟩
def STREAM_TRIG_LATE : Fld := ⟨0x0a4, 15, 0, 4⟩

/-! VISION: spec/14_vision.md (R287). -/
def VISION_MRING_BASE_LO : Fld := ⟨0x040, 31, 6, 20⟩
def VISION_MRING_BASE_HI : Fld := ⟨0x044, 7, 0, 20⟩
def VISION_MRING_SIZE : Fld := ⟨0x048, 4, 0, 20⟩
def VISION_MRING_WR : Fld := ⟨0x04c, 31, 0, 20⟩
def VISION_MRING_RD : Fld := ⟨0x050, 31, 0, 20⟩
def VISION_STATUS_QUEUE : Fld := ⟨0x068, 24, 16, 4⟩
def VISION_STATUS_NO_CAMERA : Fld := ⟨0x068, 2, 2, 4⟩
def VISION_STATUS_PEER_MET : Fld := ⟨0x068, 1, 1, 4⟩
def VISION_STATUS_THROTTLE : Fld := ⟨0x068, 0, 0, 4⟩
def VISION_RELEASED : Fld := ⟨0x06c, 31, 0, 4⟩
def VISION_GLAZE_DROPS : Fld := ⟨0x070, 31, 16, 4⟩
def VISION_MET_MISSING : Fld := ⟨0x070, 15, 0, 4⟩
def VISION_RING_FULL_0 : Fld := ⟨0x074, 31, 16, 4⟩
def VISION_RING_FULL_1 : Fld := ⟨0x074, 15, 0, 4⟩
def VISION_MET_SENT : Fld := ⟨0x078, 31, 0, 4⟩

/-! GLAZE: spec/15_glaze.md (R298). -/
def GLAZE_GLAZE_CFG_POWER_MAX : Fld := ⟨0x040, 31, 16, 4⟩
def GLAZE_GLAZE_CFG_CAM_AGE : Fld := ⟨0x040, 15, 8, 4⟩
def GLAZE_GLAZE_CFG_TRIM_FREEZE : Fld := ⟨0x040, 1, 1, 4⟩
def GLAZE_GLAZE_CFG_FORCE_PD : Fld := ⟨0x040, 0, 0, 4⟩
def GLAZE_STATUS_FACTOR : Fld := ⟨0x044, 31, 16, 4⟩
def GLAZE_STATUS_CLASS : Fld := ⟨0x044, 15, 12, 4⟩
def GLAZE_STATUS_BIN : Fld := ⟨0x044, 11, 6, 4⟩
def GLAZE_STATUS_CAM_LOST : Fld := ⟨0x044, 4, 4, 4⟩
def GLAZE_STATUS_FALLBACK : Fld := ⟨0x044, 3, 3, 4⟩
def GLAZE_STATUS_MISS : Fld := ⟨0x044, 2, 0, 4⟩
def GLAZE_TRIM : Fld := ⟨0x048, 31, 0, 4⟩
def GLAZE_MET_STATUS_FRESH : Fld := ⟨0x088, 23, 16, 4⟩
def GLAZE_MET_STATUS_TRIG_SEQ : Fld := ⟨0x088, 15, 0, 4⟩
def GLAZE_LATCHES : Fld := ⟨0x08c, 31, 0, 4⟩
def GLAZE_PD_MISSING : Fld := ⟨0x090, 31, 16, 4⟩
def GLAZE_FALLBACKS : Fld := ⟨0x090, 15, 0, 4⟩
def GLAZE_MET_STALE : Fld := ⟨0x094, 31, 16, 4⟩
def GLAZE_MET_DAMAGED : Fld := ⟨0x094, 15, 0, 4⟩
def GLAZE_TRIM_UPDATES : Fld := ⟨0x098, 31, 16, 4⟩
def GLAZE_TRIM_LIMITS : Fld := ⟨0x098, 15, 0, 4⟩
def GLAZE_POWER_CLAMPS : Fld := ⟨0x09c, 31, 16, 4⟩
def GLAZE_FACTOR_CLAMPS : Fld := ⟨0x09c, 15, 0, 4⟩
def GLAZE_RECORDS : Fld := ⟨0x0a0, 31, 0, 4⟩

/-! KNIFE: spec/16_knife.md (R308). -/
def KNIFE_ARM_SET_KEY : Fld := ⟨0x040, 31, 24, 4⟩
def KNIFE_ARM_SET_MASK : Fld := ⟨0x040, 15, 0, 4⟩
def KNIFE_DISARM_KEY : Fld := ⟨0x044, 31, 24, 4⟩
def KNIFE_DISARM_MASK : Fld := ⟨0x044, 15, 0, 4⟩
def KNIFE_CLEAR_KEY : Fld := ⟨0x048, 31, 24, 4⟩
def KNIFE_CLEAR_MASK : Fld := ⟨0x048, 15, 0, 4⟩
def KNIFE_TEST_KEY : Fld := ⟨0x04c, 31, 24, 4⟩
def KNIFE_TEST_MASK : Fld := ⟨0x04c, 15, 0, 4⟩
def KNIFE_STATUS_FORCED : Fld := ⟨0x050, 19, 19, 4⟩
def KNIFE_STATUS_KNIFE_OUT : Fld := ⟨0x050, 18, 18, 4⟩
def KNIFE_STATUS_CLOCK_OK : Fld := ⟨0x050, 17, 17, 4⟩
def KNIFE_STATUS_ILK_OK : Fld := ⟨0x050, 16, 16, 4⟩
def KNIFE_STATUS_PERMIT : Fld := ⟨0x050, 15, 0, 4⟩
def KNIFE_ARM_STATE : Fld := ⟨0x054, 15, 0, 4⟩
def KNIFE_TRIPPED : Fld := ⟨0x058, 15, 0, 4⟩
def KNIFE_ILK_CFG : Fld := ⟨0x05c, 7, 0, 4⟩
def KNIFE_ILK_STATUS_DISC_LATCHED : Fld := ⟨0x060, 19, 16, 4⟩
def KNIFE_ILK_STATUS_STATE : Fld := ⟨0x060, 7, 0, 4⟩
def KNIFE_LAST_TRIP_TIME_LO : Fld := ⟨0x064, 31, 0, 4⟩
def KNIFE_LAST_TRIP_TIME_HI : Fld := ⟨0x068, 15, 0, 4⟩
def KNIFE_LAST_TRIP_VALID : Fld := ⟨0x06c, 31, 31, 4⟩
def KNIFE_LAST_TRIP_BRUSH : Fld := ⟨0x06c, 11, 8, 4⟩
def KNIFE_LAST_TRIP_CAUSE : Fld := ⟨0x06c, 3, 0, 4⟩
def KNIFE_TRIPS : Fld := ⟨0x070, 31, 0, 4⟩
def KNIFE_ILK_OPENS : Fld := ⟨0x074, 31, 16, 4⟩
def KNIFE_DISCREPANCIES : Fld := ⟨0x074, 15, 0, 4⟩
def KNIFE_CLEARS : Fld := ⟨0x078, 31, 0, 4⟩
def KNIFE_CAUSE_PRESENT : Fld := ⟨0x080, 27, 16, 4⟩
def KNIFE_CAUSE_LATCHED : Fld := ⟨0x080, 11, 0, 4⟩

/-! DIPTYCH: spec/17_diptych.md (R321). -/
def DIPTYCH_PAIR_CFG_HEADS : Fld := ⟨0x040, 31, 16, 4⟩
def DIPTYCH_PAIR_CFG_FAULT_MASK : Fld := ⟨0x040, 11, 8, 4⟩
def DIPTYCH_PAIR_CFG_DIV_RESP : Fld := ⟨0x040, 0, 0, 4⟩
def DIPTYCH_MIRROR_LAT : Fld := ⟨0x044, 15, 0, 4⟩
def DIPTYCH_HANDOVER_KEY : Fld := ⟨0x048, 31, 24, 4⟩
def DIPTYCH_HANDOVER_GO : Fld := ⟨0x048, 0, 0, 4⟩
def DIPTYCH_STATUS_ACTIVE_L : Fld := ⟨0x04c, 12, 12, 4⟩
def DIPTYCH_STATUS_HB_MISS : Fld := ⟨0x04c, 11, 8, 4⟩
def DIPTYCH_STATUS_PARTNER_READY : Fld := ⟨0x04c, 7, 7, 4⟩
def DIPTYCH_STATUS_READY : Fld := ⟨0x04c, 6, 6, 4⟩
def DIPTYCH_STATUS_ACTIVE : Fld := ⟨0x04c, 5, 5, 4⟩
def DIPTYCH_STATUS_ROLE_B : Fld := ⟨0x04c, 4, 4, 4⟩
def DIPTYCH_STATUS_PAIR : Fld := ⟨0x04c, 2, 0, 4⟩
def DIPTYCH_FORM_FRAME : Fld := ⟨0x050, 31, 0, 4⟩
def DIPTYCH_MCOUNT : Fld := ⟨0x054, 31, 0, 4⟩
def DIPTYCH_TAKEOVER_LO : Fld := ⟨0x058, 31, 0, 4⟩
def DIPTYCH_TAKEOVER_HI : Fld := ⟨0x05c, 15, 0, 4⟩
def DIPTYCH_DIV_FRAME : Fld := ⟨0x060, 31, 0, 4⟩
def DIPTYCH_DIGEST_OWN : Fld := ⟨0x064, 31, 0, 4⟩
def DIPTYCH_DIGEST_PEER : Fld := ⟨0x068, 31, 0, 4⟩
def DIPTYCH_COMPARED : Fld := ⟨0x06c, 31, 0, 4⟩
def DIPTYCH_HB_MISSES : Fld := ⟨0x070, 31, 16, 4⟩
def DIPTYCH_MIRROR_LATE : Fld := ⟨0x070, 15, 0, 4⟩
def DIPTYCH_GAP_STROKES : Fld := ⟨0x074, 31, 16, 4⟩
def DIPTYCH_TAKEOVERS : Fld := ⟨0x074, 15, 0, 4⟩

/-! LIGHT: spec/18_lighting.md (R333). -/
def LIGHT_GAIN0_G_HI : Fld := ⟨0x040, 31, 16, 4⟩
def LIGHT_GAIN1_G_HI : Fld := ⟨0x080, 31, 16, 4⟩
def LIGHT_GAIN2_G_HI : Fld := ⟨0x0c0, 31, 16, 4⟩
def LIGHT_GAIN3_G_HI : Fld := ⟨0x100, 31, 16, 4⟩
def LIGHT_GAIN0_G_LO : Fld := ⟨0x040, 15, 0, 4⟩
def LIGHT_GAIN1_G_LO : Fld := ⟨0x080, 15, 0, 4⟩
def LIGHT_GAIN2_G_LO : Fld := ⟨0x0c0, 15, 0, 4⟩
def LIGHT_GAIN3_G_LO : Fld := ⟨0x100, 15, 0, 4⟩

/-! LTPORT: spec/18_lighting.md (R334). -/
def LTPORT_PORT_CFG_RING_LIMIT : Fld := ⟨0x040, 27, 24, 4⟩
def LTPORT_PORT_CFG_COMP_EN : Fld := ⟨0x040, 16, 16, 4⟩
def LTPORT_PORT_CFG_POLL : Fld := ⟨0x040, 15, 8, 4⟩
def LTPORT_PORT_CFG_DRIVERS : Fld := ⟨0x040, 5, 0, 4⟩
def LTPORT_CH_COLOUR : Fld := ⟨0x044, 31, 0, 4⟩
def LTPORT_SYNC_LEAD : Fld := ⟨0x048, 15, 0, 4⟩
def LTPORT_CMD_DATA : Fld := ⟨0x04c, 31, 0, 4⟩
def LTPORT_CMD_HDR_AFTER_SYNC : Fld := ⟨0x050, 31, 31, 4⟩
def LTPORT_CMD_HDR_BCAST_ADDR : Fld := ⟨0x050, 29, 24, 4⟩
def LTPORT_CMD_HDR_CMD : Fld := ⟨0x050, 23, 20, 4⟩
def LTPORT_CMD_HDR_INDEX : Fld := ⟨0x050, 7, 0, 4⟩
def LTPORT_SYNC_AT_LO : Fld := ⟨0x054, 31, 0, 4⟩
def LTPORT_SYNC_AT_HI : Fld := ⟨0x058, 15, 0, 4⟩
def LTPORT_QUEUE_STATUS_SYNCS : Fld := ⟨0x05c, 18, 16, 4⟩
def LTPORT_QUEUE_STATUS_RESPS : Fld := ⟨0x05c, 12, 8, 4⟩
def LTPORT_QUEUE_STATUS_CMDS : Fld := ⟨0x05c, 6, 0, 4⟩
def LTPORT_RESP : Fld := ⟨0x060, 31, 0, 4⟩
def LTPORT_RESP_INFO_ANS : Fld := ⟨0x064, 31, 31, 4⟩
def LTPORT_RESP_INFO_ADDR : Fld := ⟨0x064, 28, 24, 4⟩
def LTPORT_RESP_INFO_INDEX : Fld := ⟨0x064, 7, 0, 4⟩
def LTPORT_TEMP_TEMP_ODD : Fld := ⟨0x080, 31, 16, 4⟩
def LTPORT_TEMP_TEMP_EVEN : Fld := ⟨0x080, 15, 0, 4⟩
def LTPORT_FRAMES : Fld := ⟨0x0c0, 31, 0, 4⟩
def LTPORT_SYNCS_SENT : Fld := ⟨0x0c4, 31, 16, 4⟩
def LTPORT_SYNC_LATE : Fld := ⟨0x0c4, 15, 0, 4⟩
def LTPORT_RING_ERRORS : Fld := ⟨0x0c8, 31, 16, 4⟩
def LTPORT_SPLITS : Fld := ⟨0x0c8, 15, 0, 4⟩

/-! BANKS: spec/19_onchip_memory.md (R344). -/
def BANKS_ECC_CFG : Fld := ⟨0x040, 16, 0, 4⟩
def BANKS_BG_CFG_INTERVAL : Fld := ⟨0x044, 31, 24, 4⟩
def BANKS_BG_CFG_BANK_EN : Fld := ⟨0x044, 19, 0, 4⟩
def BANKS_BG_STATUS_ACTIVE : Fld := ⟨0x048, 31, 31, 4⟩
def BANKS_BG_STATUS_PAUSED : Fld := ⟨0x048, 30, 30, 4⟩
def BANKS_BG_STATUS_PHASE : Fld := ⟨0x048, 29, 28, 4⟩
def BANKS_BG_STATUS_BANK : Fld := ⟨0x048, 24, 20, 4⟩
def BANKS_BG_STATUS_ROW : Fld := ⟨0x048, 12, 0, 4⟩
def BANKS_SPARE_IN_USE : Fld := ⟨0x04c, 19, 0, 4⟩
def BANKS_REPAIR_SHORT : Fld := ⟨0x050, 19, 0, 4⟩
def BANKS_LAST_ERR_VALID : Fld := ⟨0x054, 31, 31, 4⟩
def BANKS_LAST_ERR_BANK : Fld := ⟨0x054, 28, 24, 4⟩
def BANKS_LAST_ERR_OFFSET : Fld := ⟨0x054, 21, 0, 4⟩
def BANKS_LAST_ERR_TIME_LO : Fld := ⟨0x058, 31, 0, 4⟩
def BANKS_LAST_ERR_TIME_HI : Fld := ⟨0x05c, 15, 0, 4⟩
def BANKS_FAIL_CLEAR : Fld := ⟨0x060, 0, 0, 4⟩
def BANKS_FAIL_VALID : Fld := ⟨0x080, 31, 31, 8⟩
def BANKS_FAIL_BANK : Fld := ⟨0x080, 28, 24, 8⟩
def BANKS_FAIL_ROW : Fld := ⟨0x080, 12, 0, 8⟩
def BANKS_FAIL_TIME : Fld := ⟨0x084, 31, 0, 8⟩
def BANKS_ROWS_TESTED : Fld := ⟨0x064, 31, 0, 4⟩
def BANKS_ROW_FAILS : Fld := ⟨0x068, 31, 16, 4⟩
def BANKS_XCH_COLLIDES : Fld := ⟨0x068, 15, 0, 4⟩
def BANKS_BANKCNT_UNCORRECTED : Fld := ⟨0x100, 31, 16, 4⟩
def BANKS_BANKCNT_CORRECTED : Fld := ⟨0x100, 15, 0, 4⟩

/-! DRAM: spec/20_dram.md (R360). -/
def DRAM_CFG_ECC_EN : Fld := ⟨0x040, 8, 8, 4⟩
def DRAM_CFG_DENSITY : Fld := ⟨0x040, 5, 4, 4⟩
def DRAM_CFG_RATE : Fld := ⟨0x040, 1, 0, 4⟩
def DRAM_SCHED_PAGE_IDLE : Fld := ⟨0x044, 23, 16, 4⟩
def DRAM_SCHED_AGE_C3 : Fld := ⟨0x044, 14, 12, 4⟩
def DRAM_SCHED_AGE_C2 : Fld := ⟨0x044, 10, 8, 4⟩
def DRAM_SCHED_AGE_C1 : Fld := ⟨0x044, 6, 4, 4⟩
def DRAM_NREF_EN : Fld := ⟨0x048, 8, 8, 4⟩
def DRAM_NREF_K : Fld := ⟨0x048, 3, 0, 4⟩
def DRAM_STATUS_OPEN_PAGES : Fld := ⟨0x04c, 23, 16, 4⟩
def DRAM_STATUS_WQ : Fld := ⟨0x04c, 14, 8, 4⟩
def DRAM_STATUS_HOT : Fld := ⟨0x04c, 5, 5, 4⟩
def DRAM_STATUS_REF_RATE : Fld := ⟨0x04c, 4, 0, 4⟩
def DRAM_LAST_ERR_VALID : Fld := ⟨0x050, 31, 31, 4⟩
def DRAM_LAST_ERR_GRANULE : Fld := ⟨0x050, 26, 0, 4⟩
def DRAM_LAST_ERR_TIME_LO : Fld := ⟨0x054, 31, 0, 4⟩
def DRAM_LAST_ERR_TIME_HI : Fld := ⟨0x058, 15, 0, 4⟩
def DRAM_LAT_PEAK_C3 : Fld := ⟨0x05c, 31, 24, 4⟩
def DRAM_LAT_PEAK_C2 : Fld := ⟨0x05c, 23, 16, 4⟩
def DRAM_LAT_PEAK_C1 : Fld := ⟨0x05c, 15, 8, 4⟩
def DRAM_LAT_PEAK_C0 : Fld := ⟨0x05c, 7, 0, 4⟩
def DRAM_READ_GRANULES : Fld := ⟨0x060, 31, 0, 4⟩
def DRAM_WRITE_GRANULES : Fld := ⟨0x064, 31, 0, 4⟩
def DRAM_FORWARDS : Fld := ⟨0x068, 31, 0, 4⟩
def DRAM_NEIGHBOUR_REFRESHES : Fld := ⟨0x06c, 31, 0, 4⟩
def DRAM_PROMOTIONS : Fld := ⟨0x070, 31, 16, 4⟩
def DRAM_REF_POSTPONED : Fld := ⟨0x070, 15, 0, 4⟩
def DRAM_ECC_CORRECTED : Fld := ⟨0x074, 31, 16, 4⟩
def DRAM_ECC_UNCORR : Fld := ⟨0x074, 15, 0, 4⟩

/-! DTRAIN: spec/20_dram.md (R361). -/
def DTRAIN_MAP : Fld := ⟨0x040, 1, 0, 4⟩
def DTRAIN_TRAIN_CFG : Fld := ⟨0x044, 7, 0, 4⟩
def DTRAIN_RETRAIN_GO : Fld := ⟨0x048, 8, 8, 4⟩
def DTRAIN_RETRAIN_MASK : Fld := ⟨0x048, 1, 0, 4⟩
def DTRAIN_STATUS_FAILED : Fld := ⟨0x04c, 31, 16, 4⟩
def DTRAIN_STATUS_BUSY : Fld := ⟨0x04c, 8, 8, 4⟩
def DTRAIN_STATUS_PHASE : Fld := ⟨0x04c, 1, 0, 4⟩
def DTRAIN_LANE_WR_WIDTH : Fld := ⟨0x050, 31, 24, 4⟩
def DTRAIN_LANE_WR_CENTRE : Fld := ⟨0x050, 23, 16, 4⟩
def DTRAIN_LANE_RD_WIDTH : Fld := ⟨0x050, 15, 8, 4⟩
def DTRAIN_LANE_RD_CENTRE : Fld := ⟨0x050, 7, 0, 4⟩

/-! THERM: spec/21_thermal.md (R369). -/
def THERM_WARN_CFG_HYST : Fld := ⟨0x040, 23, 16, 4⟩
def THERM_WARN_CFG_WARN : Fld := ⟨0x040, 15, 0, 4⟩
def THERM_GRACE : Fld := ⟨0x044, 15, 0, 4⟩
def THERM_REMOTE_CFG : Fld := ⟨0x048, 1, 0, 4⟩
def THERM_REMOTE_OFFSET_OFFSET_1 : Fld := ⟨0x04c, 31, 16, 4⟩
def THERM_REMOTE_OFFSET_OFFSET_0 : Fld := ⟨0x04c, 15, 0, 4⟩
def THERM_STATUS_TMAX : Fld := ⟨0x050, 31, 16, 4⟩
def THERM_STATUS_ON_DIE_VALID : Fld := ⟨0x050, 15, 12, 4⟩
def THERM_STATUS_STRETCHING : Fld := ⟨0x050, 4, 4, 4⟩
def THERM_STATUS_ENFORCED : Fld := ⟨0x050, 3, 3, 4⟩
def THERM_STATUS_GRACE : Fld := ⟨0x050, 2, 2, 4⟩
def THERM_STATUS_WARN : Fld := ⟨0x050, 1, 1, 4⟩
def THERM_STATUS_OWN_WARN : Fld := ⟨0x050, 0, 0, 4⟩
def THERM_VALID : Fld := ⟨0x054, 13, 0, 4⟩
def THERM_TEMP_TEMP_ODD : Fld := ⟨0x058, 31, 16, 4⟩
def THERM_TEMP_TEMP_EVEN : Fld := ⟨0x058, 15, 0, 4⟩
def THERM_PEAK_LOW : Fld := ⟨0x074, 31, 16, 4⟩
def THERM_PEAK_HIGH : Fld := ⟨0x074, 15, 0, 4⟩
def THERM_STRETCH_LO : Fld := ⟨0x078, 31, 0, 4⟩
def THERM_STRETCH_HI : Fld := ⟨0x07c, 15, 0, 4⟩
def THERM_WARNINGS : Fld := ⟨0x080, 31, 16, 4⟩
def THERM_ENFORCEMENTS : Fld := ⟨0x080, 15, 0, 4⟩
def THERM_HELD_BOUNDARIES : Fld := ⟨0x084, 31, 16, 4⟩
def THERM_BAD_SENSORS : Fld := ⟨0x084, 15, 0, 4⟩

/-! RECORD: spec/22_recorder.md (R380). -/
def RECORD_CFG_MIN_GAP : Fld := ⟨0x040, 31, 16, 4⟩
def RECORD_CFG_FAULT_EN : Fld := ⟨0x040, 3, 0, 4⟩
def RECORD_CMD_CLEAR_ACC : Fld := ⟨0x044, 1, 1, 4⟩
def RECORD_CMD_FLUSH : Fld := ⟨0x044, 0, 0, 4⟩
def RECORD_TAG : Fld := ⟨0x048, 31, 0, 4⟩
def RECORD_STATUS_NEXT_SLOT : Fld := ⟨0x04c, 23, 16, 4⟩
def RECORD_STATUS_ERASED : Fld := ⟨0x04c, 9, 8, 4⟩
def RECORD_STATUS_NO_DIR : Fld := ⟨0x04c, 3, 3, 4⟩
def RECORD_STATUS_PENDING : Fld := ⟨0x04c, 2, 2, 4⟩
def RECORD_STATUS_FLUSHING : Fld := ⟨0x04c, 1, 1, 4⟩
def RECORD_STATUS_READY : Fld := ⟨0x04c, 0, 0, 4⟩
def RECORD_HOURS : Fld := ⟨0x050, 31, 0, 4⟩
def RECORD_POWER_CYCLES : Fld := ⟨0x054, 31, 0, 4⟩
def RECORD_SEQ : Fld := ⟨0x058, 31, 0, 4⟩
def RECORD_LAST_LO : Fld := ⟨0x05c, 31, 0, 4⟩
def RECORD_LAST_HI : Fld := ⟨0x060, 15, 0, 4⟩
def RECORD_FLUSHES : Fld := ⟨0x064, 31, 16, 4⟩
def RECORD_FLUSH_FAILS : Fld := ⟨0x064, 15, 0, 4⟩
def RECORD_DEFERRED : Fld := ⟨0x068, 31, 16, 4⟩
def RECORD_MERGED : Fld := ⟨0x068, 15, 0, 4⟩

/-! NV: spec/22_recorder.md (R381). -/
def NV_NV_CFG_SCK : Fld := ⟨0x040, 9, 8, 4⟩
def NV_NV_CFG_QUAD : Fld := ⟨0x040, 0, 0, 4⟩
def NV_NV_ID : Fld := ⟨0x044, 23, 0, 4⟩
def NV_NV_ADDR : Fld := ⟨0x048, 31, 0, 4⟩
def NV_NV_LEN : Fld := ⟨0x04c, 12, 0, 4⟩
def NV_NV_CMD : Fld := ⟨0x050, 1, 0, 4⟩
def NV_NV_STATUS_REFUSED : Fld := ⟨0x054, 1, 1, 4⟩
def NV_NV_STATUS_BUSY : Fld := ⟨0x054, 0, 0, 4⟩

/-! CALIB: spec/23_calibration_bist.md (R393). -/
def CALIB_CMD_TARGET : Fld := ⟨0x040, 12, 8, 4⟩
def CALIB_CMD_OP : Fld := ⟨0x040, 2, 0, 4⟩
def CALIB_REF_TEMP : Fld := ⟨0x044, 15, 0, 4⟩
def CALIB_STATUS_REPAIR_COPY : Fld := ⟨0x048, 10, 10, 4⟩
def CALIB_STATUS_CAL_COPY : Fld := ⟨0x048, 9, 9, 4⟩
def CALIB_STATUS_CAL_LOADED : Fld := ⟨0x048, 8, 8, 4⟩
def CALIB_STATUS_RESULT : Fld := ⟨0x048, 5, 4, 4⟩
def CALIB_STATUS_BUSY : Fld := ⟨0x048, 0, 0, 4⟩
def CALIB_COUNT : Fld := ⟨0x04c, 31, 0, 4⟩
def CALIB_LAST_HOURS : Fld := ⟨0x050, 31, 0, 4⟩
def CALIB_DELAY_FAIL : Fld := ⟨0x054, 15, 0, 4⟩
def CALIB_VIEW_SEL_SRC : Fld := ⟨0x058, 31, 28, 4⟩
def CALIB_VIEW_SEL_KIND : Fld := ⟨0x058, 25, 24, 4⟩
def CALIB_VIEW_SEL_INDEX : Fld := ⟨0x058, 8, 0, 4⟩
def CALIB_VIEW_DATA : Fld := ⟨0x05c, 31, 0, 4⟩

/-! BIST: spec/23_calibration_bist.md (R394). -/
def BIST_CMD_KEY : Fld := ⟨0x040, 31, 24, 4⟩
def BIST_CMD_DOMAIN : Fld := ⟨0x040, 11, 8, 4⟩
def BIST_CMD_KIND : Fld := ⟨0x040, 1, 0, 4⟩
def BIST_STATUS_DIRTY : Fld := ⟨0x044, 24, 16, 4⟩
def BIST_STATUS_REFUSE_CAUSE : Fld := ⟨0x044, 15, 12, 4⟩
def BIST_STATUS_DOMAIN : Fld := ⟨0x044, 11, 8, 4⟩
def BIST_STATUS_KIND : Fld := ⟨0x044, 7, 6, 4⟩
def BIST_STATUS_RESULT : Fld := ⟨0x044, 5, 4, 4⟩
def BIST_STATUS_BUSY : Fld := ⟨0x044, 0, 0, 4⟩
def BIST_FAIL_MASK : Fld := ⟨0x048, 31, 0, 4⟩
def BIST_SIG : Fld := ⟨0x04c, 31, 0, 4⟩
def BIST_EXPECTED : Fld := ⟨0x050, 31, 0, 4⟩
def BIST_ELAPSED : Fld := ⟨0x054, 31, 0, 4⟩
def BIST_RUNS_FAILS : Fld := ⟨0x058, 31, 16, 4⟩
def BIST_RUNS_PASSES : Fld := ⟨0x058, 15, 0, 4⟩

/-! EVCOL: spec/24_crossings.md (R404). -/
def EVCOL_EVCOL_CFG : Fld := ⟨0x040, 1, 0, 4⟩
def EVCOL_STATUS_QUEUE : Fld := ⟨0x044, 26, 16, 4⟩
def EVCOL_STATUS_PENDING : Fld := ⟨0x044, 12, 0, 4⟩
def EVCOL_QSEQ_NEXT : Fld := ⟨0x048, 31, 0, 4⟩
def EVCOL_LAST_LOST : Fld := ⟨0x04c, 31, 0, 4⟩
def EVCOL_PEAK_QUEUE : Fld := ⟨0x050, 26, 16, 4⟩
def EVCOL_PEAK_PENDING : Fld := ⟨0x050, 12, 0, 4⟩
def EVCOL_MESSAGES : Fld := ⟨0x054, 31, 0, 4⟩
def EVCOL_MERGED : Fld := ⟨0x058, 31, 0, 4⟩
def EVCOL_LOST : Fld := ⟨0x05c, 31, 16, 4⟩
def EVCOL_LATE : Fld := ⟨0x05c, 15, 0, 4⟩

end Reg

/-! The EVENT bits (R42) and the ERROR_STICKY bits (R10) of each block, numbered as its chapter numbers them. -/
namespace Ev
abbrev STATE_CHANGE : Nat := 0
abbrev FAULT : Nat := 1
abbrev ERROR : Nat := 2
abbrev CROSS_RESET : Nat := 3
abbrev COMMITTED : Nat := 4
abbrev CLK_REF_LOST : Nat := 5
abbrev CLK_REF_SWITCH : Nat := 6
abbrev CLK_COAST : Nat := 7
abbrev CLK_REF_RETURN : Nat := 8
abbrev CLK_FMEAS_DONE : Nat := 9
abbrev CLK_HOLD_EXPIRED : Nat := 10
abbrev LANE_LOCK : Nat := 5
abbrev LANE_UNLOCK : Nat := 6
abbrev LANE_STEP_DONE : Nat := 7
abbrev LANE_STEP_FAIL : Nat := 8
abbrev LANE_PRBS_ERR : Nat := 9
abbrev LANE_SEQ_GAP : Nat := 10
abbrev LANE_TYPE_ERR : Nat := 11
abbrev HEAD_LOCK : Nat := 5
abbrev HEAD_UNLOCK : Nat := 6
abbrev HEAD_STEP_DONE : Nat := 7
abbrev HEAD_STEP_FAIL : Nat := 8
abbrev HEAD_PRBS_ERR : Nat := 9
abbrev HEAD_SAMPLE_MISSING : Nat := 10
abbrev HEAD_UNHEALTHY : Nat := 11
abbrev HEAD_MBX_DONE : Nat := 12
abbrev HEAD_HEAD_FAULT : Nat := 13
abbrev TIME_TIME_LOCK : Nat := 5
abbrev TIME_HOLDOVER : Nat := 6
abbrev TIME_RESUME : Nat := 7
abbrev TIME_STEP : Nat := 8
abbrev TIME_PORT_SWITCH : Nat := 9
abbrev TIME_MASTER_CHANGE : Nat := 10
abbrev TIME_LAUNCH_LATE : Nat := 11
abbrev SYS_PRIMER_DONE : Nat := 5
abbrev SYS_BOOT_FALLBACK : Nat := 6
abbrev PWR_DOMAIN_ON : Nat := 5
abbrev PWR_DOMAIN_OFF : Nat := 6
abbrev PWR_REFUSED : Nat := 7
abbrev PWR_PFAIL : Nat := 8
abbrev BRUSH_SHEET_START : Nat := 5
abbrev BRUSH_LIST_END : Nat := 6
abbrev BRUSH_CHAIN_END : Nat := 7
abbrev BRUSH_MISS : Nat := 8
abbrev BRUSH_SHEET_BAD : Nat := 9
abbrev BRUSH_GRID_OUTSIDE : Nat := 10
abbrev LASER_READY_LOST : Nat := 5
abbrev LASER_LASER_FAULT : Nat := 6
abbrev LASER_TWIN_MISMATCH : Nat := 7
abbrev LASER_READY_UP : Nat := 8
abbrev ENC_QUAD_ERR : Nat := 5
abbrev ENC_INDEX : Nat := 6
abbrev MEDIUM_SAMPLE_MISSING : Nat := 5
abbrev MEDIUM_WINDOW_OUT : Nat := 6
abbrev MEDIUM_FREEZE_LATE : Nat := 7
abbrev MEDIUM_SEAM_OPEN : Nat := 8
abbrev MEDIUM_SEAM_CLOSE : Nat := 9
abbrev MEDIUM_LOCAL_SAMPLES : Nat := 10
abbrev RASTER_SWATCH_FAIL : Nat := 5
abbrev RASTER_SWATCH_INCOMPLETE : Nat := 6
abbrev RASTER_TILE_CLOSE : Nat := 7
abbrev ENGINE_OVERRUN : Nat := 5
abbrev ENGINE_TRACE_DONE : Nat := 6
abbrev AXIS_OVERRUN : Nat := 5
abbrev AXIS_FE_TRIP : Nat := 6
abbrev AXIS_SAMPLE_PRED : Nat := 7
abbrev AXIS_AMP_FAULT : Nat := 8
abbrev STEP_STALL : Nat := 5
abbrev STEP_AT_TARGET : Nat := 6
abbrev STEP_LINK_ERR : Nat := 7
abbrev STEP_BRIDGE_FAULT : Nat := 8
abbrev CAM_HDR_ERR : Nat := 5
abbrev CAM_CRC_ERR : Nat := 6
abbrev CAM_OVERFLOW : Nat := 7
abbrev CAM_UNMATCHED : Nat := 8
abbrev CAM_PHY_ERR : Nat := 9
abbrev STREAM_TRUNCATED : Nat := 5
abbrev STREAM_LINE_LOST : Nat := 6
abbrev STREAM_RESYNC : Nat := 7
abbrev STREAM_FN_ERR : Nat := 8
abbrev STREAM_TRIG_LATE : Nat := 9
abbrev STREAM_STORE_SKIP : Nat := 10
abbrev STREAM_STREAM_SKIP : Nat := 11
abbrev VISION_RECORD_DROP : Nat := 5
abbrev VISION_RING_FULL : Nat := 6
abbrev VISION_MET_MISSING : Nat := 7
abbrev VISION_THROTTLE : Nat := 8
abbrev GLAZE_HOLD : Nat := 5
abbrev GLAZE_FALLBACK : Nat := 6
abbrev GLAZE_CAM_LOST : Nat := 7
abbrev GLAZE_TRIM_LIMIT : Nat := 8
abbrev KNIFE_TRIP : Nat := 5
abbrev KNIFE_CLEARED : Nat := 6
abbrev KNIFE_INTERLOCK : Nat := 7
abbrev KNIFE_DISCREPANCY : Nat := 8
abbrev KNIFE_CLEAR_REFUSED : Nat := 9
abbrev KNIFE_ARM_REFUSED : Nat := 10
abbrev DIPTYCH_PAIRED : Nat := 5
abbrev DIPTYCH_DIVERGED : Nat := 6
abbrev DIPTYCH_TAKEOVER : Nat := 7
abbrev DIPTYCH_PARTNER_LOST : Nat := 8
abbrev DIPTYCH_MIRROR_LOST : Nat := 9
abbrev DIPTYCH_DECLARED : Nat := 10
abbrev LTPORT_SYNC_DONE : Nat := 5
abbrev LTPORT_SYNC_LATE : Nat := 6
abbrev LTPORT_SYNC_SPLIT : Nat := 7
abbrev LTPORT_RESP : Nat := 8
abbrev LTPORT_RING_ERR : Nat := 9
abbrev BANKS_CORRECTED : Nat := 5
abbrev BANKS_UNCORR : Nat := 6
abbrev BANKS_ROW_FAIL : Nat := 7
abbrev BANKS_BG_PASS : Nat := 8
abbrev DRAM_UNCORR : Nat := 5
abbrev DRAM_CORRECTED : Nat := 6
abbrev DRAM_DRAM_HOT : Nat := 7
abbrev DTRAIN_TRAIN_DONE : Nat := 5
abbrev DTRAIN_TRAIN_FAIL : Nat := 6
abbrev THERM_THROTTLE_REQ : Nat := 5
abbrev THERM_ENFORCE : Nat := 6
abbrev THERM_RELEASE : Nat := 7
abbrev THERM_SENSOR_BAD : Nat := 8
abbrev THERM_STRETCH : Nat := 9
abbrev THERM_SHUTDOWN : Nat := 10
abbrev RECORD_FLUSH_DONE : Nat := 5
abbrev RECORD_FLUSH_FAIL : Nat := 6
abbrev RECORD_FLUSH_DEFERRED : Nat := 7
abbrev NV_CMD_DONE : Nat := 5
abbrev NV_CMD_REFUSED : Nat := 6
abbrev CALIB_CAL_DONE : Nat := 5
abbrev CALIB_CAL_FAIL : Nat := 6
abbrev CALIB_SAVED : Nat := 7
abbrev BIST_BIST_DONE : Nat := 5
abbrev BIST_BIST_FAIL : Nat := 6
abbrev EVCOL_LOST : Nat := 5
abbrev EVCOL_LATE : Nat := 6
end Ev

namespace Sticky
abbrev CLK_HOLD_EXPIRED : Nat := 0
abbrev CLK_COAST_ENTERED : Nat := 1
abbrev CLK_FORCE_ASSERTED : Nat := 2
abbrev CLK_REF_FLAP : Nat := 3
abbrev LANE_BRINGUP_FAIL : Nat := 0
abbrev LANE_STUFF_ERR : Nat := 1
abbrev LANE_LOCK_LOST : Nat := 2
abbrev LANE_REF_PROTECT : Nat := 3
abbrev LANE_PRBS_ERR : Nat := 4
abbrev LANE_SEQ_GAP : Nat := 5
abbrev LANE_TYPE_ERR : Nat := 6
abbrev HEAD_BRINGUP_FAIL : Nat := 0
abbrev HEAD_STUFF_ERR : Nat := 1
abbrev HEAD_LOCK_LOST : Nat := 2
abbrev HEAD_REF_PROTECT : Nat := 3
abbrev HEAD_PRBS_ERR : Nat := 4
abbrev HEAD_SAMPLE_MISSING : Nat := 5
abbrev HEAD_MBX_TIMEOUT : Nat := 6
abbrev HEAD_DELAY_RANGE : Nat := 7
abbrev TIME_RATE_SAT : Nat := 0
abbrev TIME_INTEG_SAT : Nat := 1
abbrev TIME_STEP_REFUSED : Nat := 2
abbrev TIME_LAUNCH_LATE : Nat := 3
abbrev TIME_DLY_TIMEOUT : Nat := 4
abbrev TIME_ROUTE_CONFLICT : Nat := 5
abbrev SYS_EN_IGNORED : Nat := 0
abbrev SYS_DORMANT_REFUSED : Nat := 1
abbrev PWR_ON_REFUSED : Nat := 0
abbrev PWR_OFF_REFUSED : Nat := 1
abbrev BRUSH_GRID_OUTSIDE : Nat := 0
abbrev BRUSH_LATE_FETCH : Nat := 1
abbrev BRUSH_START_CONFLICT : Nat := 2
abbrev BRUSH_UNSETTLED : Nat := 3
abbrev BRUSH_LATE_SHEET : Nat := 4
abbrev BRUSH_MISS_RUN : Nat := 5
abbrev BRUSH_SHEET_BAD : Nat := 6
abbrev BRUSH_PARK_TIMEOUT : Nat := 7
abbrev BRUSH_CHAIN_IGNORED : Nat := 8
abbrev LASER_EMPTY_GATE : Nat := 0
abbrev LASER_TWIN_MISMATCH : Nat := 1
abbrev ENC_QUAD_ERR : Nat := 0
abbrev MEDIUM_SAMPLE_MISSING : Nat := 0
abbrev MEDIUM_WINDOW_OUT : Nat := 1
abbrev MEDIUM_FREEZE_LATE : Nat := 2
abbrev MEDIUM_VEL_SAT : Nat := 3
abbrev MEDIUM_CANVAS_SAT : Nat := 4
abbrev MEDIUM_TARGET_OVERFLOW : Nat := 5
abbrev RASTER_SWATCH_FAIL : Nat := 0
abbrev RASTER_SWATCH_INCOMPLETE : Nat := 1
abbrev RASTER_PIXEL_CLIP : Nat := 2
abbrev ENGINE_OVERRUN : Nat := 0
abbrev AXIS_OVERRUN : Nat := 0
abbrev AXIS_ERR_SAT : Nat := 1
abbrev AXIS_SPW_SAT : Nat := 2
abbrev AXIS_DF_SAT : Nat := 3
abbrev AXIS_FF_SAT : Nat := 4
abbrev AXIS_INT_SAT : Nat := 5
abbrev AXIS_SUM_SAT : Nat := 6
abbrev AXIS_BQ_SAT : Nat := 7
abbrev AXIS_COMP_SAT : Nat := 8
abbrev AXIS_OUT_SAT : Nat := 9
abbrev AXIS_FB_SAT : Nat := 10
abbrev AXIS_SAMPLE_PRED : Nat := 11
abbrev AXIS_FE_TRIP : Nat := 12
abbrev AXIS_AMP_FAULT : Nat := 13
abbrev AXIS_SP_STALE : Nat := 14
abbrev AXIS_ADD_SAT : Nat := 15
abbrev STEP_STALL : Nat := 0
abbrev STEP_LINK_ERR : Nat := 1
abbrev STEP_BRIDGE_FAULT : Nat := 2
abbrev STEP_POS_LOST : Nat := 3
abbrev CAM_HDR_UNCORR : Nat := 0
abbrev CAM_CRC_ERR : Nat := 1
abbrev CAM_OVERFLOW : Nat := 2
abbrev CAM_PHY_ERR : Nat := 3
abbrev CAM_UNMATCHED : Nat := 4
abbrev STREAM_TRUNCATED : Nat := 0
abbrev STREAM_LINE_LOST : Nat := 1
abbrev STREAM_CRC_ERR : Nat := 2
abbrev STREAM_LINE_SHORT : Nat := 3
abbrev STREAM_EXTRA_LINE : Nat := 4
abbrev STREAM_NO_TRIG : Nat := 5
abbrev STREAM_FN_ERR : Nat := 6
abbrev STREAM_TRIG_LATE : Nat := 7
abbrev STREAM_STORE_SKIP : Nat := 8
abbrev STREAM_STREAM_SKIP : Nat := 9
abbrev STREAM_PIX_SAT : Nat := 10
abbrev STREAM_MOM_SAT : Nat := 11
abbrev VISION_RECORD_DROP : Nat := 0
abbrev VISION_RING_FULL : Nat := 1
abbrev VISION_MET_MISSING : Nat := 2
abbrev GLAZE_PD_MISSING : Nat := 0
abbrev GLAZE_MET_STALE : Nat := 1
abbrev GLAZE_FACTOR_CLAMP : Nat := 2
abbrev GLAZE_POWER_CLAMP : Nat := 3
abbrev GLAZE_TRIM_SAT : Nat := 4
abbrev GLAZE_RATE_LIMIT : Nat := 5
abbrev GLAZE_CAM_LOST : Nat := 6
abbrev KNIFE_DISCREPANCY : Nat := 0
abbrev KNIFE_CLEAR_REFUSED : Nat := 1
abbrev KNIFE_ARM_REFUSED : Nat := 2
abbrev KNIFE_BAD_KEY : Nat := 3
abbrev KNIFE_IGNORED_WRITE : Nat := 4
abbrev DIPTYCH_DIVERGED : Nat := 0
abbrev DIPTYCH_MIRROR_LATE : Nat := 1
abbrev DIPTYCH_MIRROR_LOST : Nat := 2
abbrev DIPTYCH_DECLARE_REFUSED : Nat := 3
abbrev DIPTYCH_BAD_KEY : Nat := 4
abbrev LTPORT_SYNC_LATE : Nat := 0
abbrev LTPORT_RING_ERR : Nat := 1
abbrev LTPORT_CHAIN : Nat := 2
abbrev LTPORT_FIFO_OVF : Nat := 3
abbrev LTPORT_DRIVER_FLAG : Nat := 4
abbrev LTPORT_GAIN_SAT : Nat := 5
abbrev LTPORT_SYNC_OVF : Nat := 6
abbrev BANKS_UNCORR : Nat := 0
abbrev BANKS_ROW_FAIL : Nat := 1
abbrev BANKS_XCH_COLLIDE : Nat := 2
abbrev BANKS_REPAIR_SHORT : Nat := 3
abbrev BANKS_LOG_FULL : Nat := 4
abbrev DRAM_UNCORR : Nat := 0
abbrev DRAM_DRAM_HOT : Nat := 1
abbrev DTRAIN_TRAIN_FAIL : Nat := 0
abbrev DTRAIN_RETRAIN_REFUSED : Nat := 1
abbrev THERM_SENSOR_BAD : Nat := 0
abbrev THERM_IGNORED_WRITE : Nat := 1
abbrev RECORD_FLUSH_FAIL : Nat := 0
abbrev RECORD_NO_DIR : Nat := 1
abbrev RECORD_ERASE_WAIT : Nat := 2
abbrev NV_CMD_REFUSED : Nat := 0
abbrev NV_NV_TIMEOUT : Nat := 1
abbrev CALIB_CAL_FAIL : Nat := 0
abbrev CALIB_REFUSED : Nat := 1
abbrev CALIB_SAVE_FAIL : Nat := 2
abbrev BIST_FAIL : Nat := 0
abbrev BIST_REFUSED : Nat := 1
abbrev BIST_BAD_KEY : Nat := 2
abbrev EVCOL_LOST : Nat := 0
abbrev EVCOL_LATE : Nat := 1
end Sticky

/-- The rows of the common header but for PAGE_ID, PAGE_CAPS (read by page, R31) and CTRL.SOFT_RESET, which acts and stores nothing. -/
def headerRows : List Row :=
  [⟨⟨0x008, 31, 16, 4⟩, .rw, 0, 1, false⟩, ⟨⟨0x008, 1, 1, 4⟩, .wo, 0, 1, false⟩, ⟨⟨0x008, 0, 0, 4⟩, .rw, 0, 1, false⟩,
   ⟨⟨0x00C, 8, 8, 4⟩, .ro, 0, 1, false⟩, ⟨⟨0x00C, 2, 0, 4⟩, .ro, 0, 1, false⟩, ⟨⟨0x010, 31, 0, 4⟩, .w1c, 0, 1, false⟩,
   ⟨⟨0x014, 31, 0, 4⟩, .rw, 0, 1, false⟩, ⟨⟨0x018, 31, 0, 4⟩, .wo, 0, 1, false⟩, ⟨⟨0x01C, 0, 0, 4⟩, .wo, 0, 1, false⟩,
   ⟨⟨0x020, 31, 0, 4⟩, .w1c, 0, 1, false⟩, ⟨⟨0x024, 0, 0, 4⟩, .wo, 0, 1, false⟩]

/-- The register rows of spec/03_clocking.md (R61, R62), CLK. -/
def rowsCLK : List Row :=
  [⟨Reg.CLK_REF_PRIO_P3, .rw, 0x3, 1, false⟩,
   ⟨Reg.CLK_REF_PRIO_P2, .rw, 0x2, 1, false⟩,
   ⟨Reg.CLK_REF_PRIO_P1, .rw, 0x1, 1, false⟩,
   ⟨Reg.CLK_REF_PRIO_P0, .rw, 0x0, 1, false⟩,
   ⟨Reg.CLK_REF_CTRL_BW, .rw, 0x1, 1, false⟩,
   ⟨Reg.CLK_REF_CTRL_QUAL, .rw, 0x6, 1, false⟩,
   ⟨Reg.CLK_REF_CTRL_REF_TOL, .rw, 0x14, 1, false⟩,
   ⟨Reg.CLK_REF_CTRL_REVERT, .rw, 0x0, 1, false⟩,
   ⟨Reg.CLK_REF_STATUS_SELECTED, .ro, 0x0, 1, false⟩,
   ⟨Reg.CLK_REF_STATUS_EDGES, .ro, 0x0, 1, false⟩,
   ⟨Reg.CLK_REF_STATUS_VALID, .ro, 0x0, 1, false⟩,
   ⟨Reg.CLK_STATUS_HOLD_CAUSE, .ro, 0x0, 1, false⟩,
   ⟨Reg.CLK_STATUS_FORCED, .ro, 0x0, 1, false⟩,
   ⟨Reg.CLK_STATUS_SAFE_HOLD, .ro, 0x0, 1, false⟩,
   ⟨Reg.CLK_STATUS_COASTING, .ro, 0x0, 1, false⟩,
   ⟨Reg.CLK_STATUS_HOLD, .ro, 0x0, 1, false⟩,
   ⟨Reg.CLK_STATUS_LOCKED, .ro, 0x0, 1, false⟩,
   ⟨Reg.CLK_SAFE_HOLD_CLEAR, .wo, 0x0, 1, false⟩,
   ⟨Reg.CLK_REF_OFFSET, .ro, 0x8000, 4, false⟩,
   ⟨Reg.CLK_COUNTS_COAST_COUNT, .ro, 0x0, 1, false⟩,
   ⟨Reg.CLK_COUNTS_SWITCH_COUNT, .ro, 0x0, 1, false⟩,
   ⟨Reg.CLK_LAST_SWITCH_LO, .ro, 0x0, 1, true⟩,
   ⟨Reg.CLK_LAST_SWITCH_HI, .ro, 0x0, 1, true⟩,
   ⟨Reg.CLK_FMEAS_CTRL_INST, .rw, 0x0, 1, false⟩] ++
  [⟨Reg.CLK_FMEAS_CTRL_DIR, .rw, 0x0, 1, false⟩,
   ⟨Reg.CLK_FMEAS_CTRL_GATE, .rw, 0xa, 1, false⟩,
   ⟨Reg.CLK_FMEAS_CTRL_SRC, .rw, 0x0, 1, false⟩,
   ⟨Reg.CLK_FMEAS_START, .wo, 0x0, 1, false⟩,
   ⟨Reg.CLK_FMEAS_STATUS_TIMEOUT, .ro, 0x0, 1, false⟩,
   ⟨Reg.CLK_FMEAS_STATUS_DONE, .ro, 0x0, 1, false⟩,
   ⟨Reg.CLK_FMEAS_STATUS_BUSY, .ro, 0x0, 1, false⟩,
   ⟨Reg.CLK_FMEAS_COUNT, .ro, 0x0, 1, false⟩]

/-- The register rows of spec/04_lanes.md (R80), LANE. -/
def rowsLANE : List Row :=
  [⟨Reg.LANE_LANE_STATUS_PARTNER_RATES, .ro, 0x0, 1, false⟩,
   ⟨Reg.LANE_LANE_STATUS_TX_LOOP_TIMED, .ro, 0x0, 1, false⟩,
   ⟨Reg.LANE_LANE_STATUS_ACTIVITY, .ro, 0x0, 1, false⟩,
   ⟨Reg.LANE_LANE_STATUS_FRAME_LOCK, .ro, 0x0, 1, false⟩,
   ⟨Reg.LANE_LANE_STATUS_CDR_LOCK, .ro, 0x0, 1, false⟩,
   ⟨Reg.LANE_LANE_STATUS_RATE, .ro, 0x0, 1, false⟩,
   ⟨Reg.LANE_LANE_STATUS_PHASE, .ro, 0x0, 1, false⟩,
   ⟨Reg.LANE_LANE_CTRL_TX_LEVEL, .rw, 0x4, 1, false⟩,
   ⟨Reg.LANE_LANE_CTRL_TX_INVERT, .rw, 0x0, 1, false⟩,
   ⟨Reg.LANE_LANE_CTRL_RX_INVERT, .rw, 0x0, 1, false⟩,
   ⟨Reg.LANE_LANE_CTRL_BRINGUP_RETRIES, .rw, 0x8, 1, false⟩,
   ⟨Reg.LANE_LANE_CTRL_MAX_RATE, .rw, 0x3, 1, false⟩,
   ⟨Reg.LANE_STEP_CTRL_GO, .wo, 0x0, 1, false⟩,
   ⟨Reg.LANE_STEP_CTRL_RATE, .wo, 0x0, 1, false⟩,
   ⟨Reg.LANE_STEP_AT_LO, .rw, 0x0, 1, false⟩,
   ⟨Reg.LANE_STEP_AT_HI, .rw, 0x0, 1, false⟩,
   ⟨Reg.LANE_STEP_STATUS_RESULT, .ro, 0x0, 1, false⟩,
   ⟨Reg.LANE_STEP_STATUS_BUSY, .ro, 0x0, 1, false⟩,
   ⟨Reg.LANE_LOOP_CTRL_NES_DRIVE, .rw, 0x0, 1, false⟩,
   ⟨Reg.LANE_LOOP_CTRL_CHK_EN, .rw, 0x0, 1, false⟩,
   ⟨Reg.LANE_LOOP_CTRL_GEN_EN, .rw, 0x0, 1, false⟩,
   ⟨Reg.LANE_LOOP_CTRL_RATE, .rw, 0x0, 1, false⟩,
   ⟨Reg.LANE_LOOP_CTRL_PATTERN, .rw, 0x0, 1, false⟩,
   ⟨Reg.LANE_LOOP_CTRL_MODE, .rw, 0x0, 1, false⟩] ++
  [⟨Reg.LANE_LOOP_CMD_CLEAR, .wo, 0x0, 1, false⟩,
   ⟨Reg.LANE_LOOP_CMD_INJECT, .wo, 0x0, 1, false⟩,
   ⟨Reg.LANE_PRBS_STATUS, .ro, 0x0, 1, false⟩,
   ⟨Reg.LANE_PRBS_ERRORS, .ro, 0x0, 1, true⟩,
   ⟨Reg.LANE_PRBS_BITS_LO, .ro, 0x0, 1, true⟩,
   ⟨Reg.LANE_PRBS_BITS_HI, .ro, 0x0, 1, true⟩,
   ⟨Reg.LANE_STUFF_ERRORS, .ro, 0x0, 1, true⟩,
   ⟨Reg.LANE_FRAME_DISCARDS, .ro, 0x0, 1, true⟩,
   ⟨Reg.LANE_LOCK_LOSSES, .ro, 0x0, 1, true⟩,
   ⟨Reg.LANE_GAP_ERRORS, .ro, 0x0, 1, true⟩,
   ⟨Reg.LANE_STEPS, .ro, 0x0, 1, true⟩,
   ⟨Reg.LANE_BRINGUP_FAILS, .ro, 0x0, 1, true⟩]

/-- The register rows of spec/05_link_frames.md (R101), FRAME. -/
def rowsFRAME : List Row :=
  [⟨Reg.FRAME_FRAME_STATUS_TX_SEQ, .ro, 0x0, 1, false⟩,
   ⟨Reg.FRAME_FRAME_STATUS_RX_SEQ, .ro, 0x0, 1, false⟩,
   ⟨Reg.FRAME_FRAME_STATUS_POSTED_DONE, .ro, 0x0, 1, false⟩,
   ⟨Reg.FRAME_FRAME_STATUS_OUTSTANDING, .ro, 0x0, 1, false⟩,
   ⟨Reg.FRAME_TXN_RECEIVED, .ro, 0x0, 1, true⟩,
   ⟨Reg.FRAME_CPL_SENT, .ro, 0x0, 1, true⟩,
   ⟨Reg.FRAME_EVT_MESSAGES, .ro, 0x0, 1, true⟩,
   ⟨Reg.FRAME_STREAM_BYTES_LO, .ro, 0x0, 1, true⟩,
   ⟨Reg.FRAME_STREAM_BYTES_HI, .ro, 0x0, 1, true⟩,
   ⟨Reg.FRAME_SEQ_GAPS, .ro, 0x0, 1, true⟩,
   ⟨Reg.FRAME_TYPE_ERRORS, .ro, 0x0, 1, true⟩]

/-- The register rows of spec/05_link_frames.md (R102), HEAD. -/
def rowsHEAD : List Row :=
  [⟨Reg.HEAD_HEAD_CTRL, .rw, 0x2, 1, false⟩,
   ⟨Reg.HEAD_HEAD_DELAY_MEASURED, .ro, 0x0, 1, false⟩,
   ⟨Reg.HEAD_HEAD_DELAY_DELAY, .rw, 0x0, 1, false⟩,
   ⟨Reg.HEAD_HEAD_STATUS_TURN, .ro, 0x0, 1, false⟩,
   ⟨Reg.HEAD_HEAD_STATUS_STATUS, .ro, 0x0, 1, false⟩,
   ⟨Reg.HEAD_UP_MISSING_B, .ro, 0x0, 1, true⟩,
   ⟨Reg.HEAD_UP_MISSING_A, .ro, 0x0, 1, true⟩,
   ⟨Reg.HEAD_LATEST_A, .ro, 0x0, 1, true⟩,
   ⟨Reg.HEAD_DN_SENT, .ro, 0x0, 1, true⟩,
   ⟨Reg.HEAD_MBX_OUT_LO, .rw, 0x0, 1, false⟩,
   ⟨Reg.HEAD_MBX_OUT_HI, .rw, 0x0, 1, false⟩,
   ⟨Reg.HEAD_MBX_CTRL, .wo, 0x0, 1, false⟩,
   ⟨Reg.HEAD_MBX_STATUS_DONE, .ro, 0x0, 1, false⟩,
   ⟨Reg.HEAD_MBX_STATUS_BUSY, .ro, 0x0, 1, false⟩,
   ⟨Reg.HEAD_MBX_IN_LO, .ro, 0x0, 1, false⟩,
   ⟨Reg.HEAD_MBX_IN_HI, .ro, 0x0, 1, false⟩]

/-- The register rows of spec/06_timebase.md (R121), TIME. -/
def rowsTIME : List Row :=
  [⟨Reg.TIME_MODE_CTRL_QUAL, .rw, 0x8, 1, false⟩,
   ⟨Reg.TIME_MODE_CTRL_LOSS, .rw, 0x4, 1, false⟩,
   ⟨Reg.TIME_MODE_CTRL_FWD_MASK, .rw, 0x0, 1, false⟩,
   ⟨Reg.TIME_MODE_CTRL_STEP_EN, .rw, 0x1, 1, false⟩,
   ⟨Reg.TIME_MODE_CTRL_MODE, .rw, 0x1, 1, false⟩,
   ⟨Reg.TIME_PORT_PRIO, .rw, 0x3210, 1, false⟩,
   ⟨Reg.TIME_GAINS_KI, .rw, 0x800, 1, false⟩,
   ⟨Reg.TIME_GAINS_KP, .rw, 0x100, 1, false⟩,
   ⟨Reg.TIME_THRESH_STEP_THRESH, .rw, 0x64, 1, false⟩,
   ⟨Reg.TIME_THRESH_LOCK_THRESH, .rw, 0x10, 1, false⟩,
   ⟨Reg.TIME_DLY_CTRL_FILT, .rw, 0x4, 1, false⟩,
   ⟨Reg.TIME_DLY_CTRL_INTERVAL, .rw, 0x6, 1, false⟩,
   ⟨Reg.TIME_IDENTITY, .rw, 0x0, 1, false⟩,
   ⟨Reg.TIME_MASTER_CTRL_TX_MASK, .rw, 0x0, 1, false⟩,
   ⟨Reg.TIME_MASTER_CTRL_INTERVAL, .rw, 0x3, 1, false⟩,
   ⟨Reg.TIME_STATUS_MASTER_ID, .ro, 0x0, 1, false⟩,
   ⟨Reg.TIME_STATUS_TIME_PORT, .ro, 0x7, 1, false⟩,
   ⟨Reg.TIME_STATUS_COASTING, .ro, 0x0, 1, false⟩,
   ⟨Reg.TIME_STATUS_TSTATE, .ro, 0x0, 1, false⟩,
   ⟨Reg.TIME_TIME_LO, .ro, 0x0, 1, true⟩,
   ⟨Reg.TIME_TIME_HI, .ro, 0x0, 1, true⟩,
   ⟨Reg.TIME_TIME_FRAC, .ro, 0x0, 1, true⟩,
   ⟨Reg.TIME_ADJ_LO, .rw, 0x0, 1, false⟩,
   ⟨Reg.TIME_ADJ_HI, .rw, 0x0, 1, false⟩] ++
  [⟨Reg.TIME_RATE, .rw, 0x0, 1, false⟩,
   ⟨Reg.TIME_INTEG, .ro, 0x0, 1, false⟩,
   ⟨Reg.TIME_OFFSET, .ro, 0x0, 1, false⟩,
   ⟨Reg.TIME_DELAY, .ro, 0x0, 4, false⟩,
   ⟨Reg.TIME_ASYM, .rw, 0x0, 4, false⟩,
   ⟨Reg.TIME_SYNC_ACCEPTED, .ro, 0x0, 1, true⟩,
   ⟨Reg.TIME_DLY_COMPLETED, .ro, 0x0, 1, true⟩,
   ⟨Reg.TIME_HOLDOVERS, .ro, 0x0, 1, true⟩,
   ⟨Reg.TIME_STEPS, .ro, 0x0, 1, true⟩,
   ⟨Reg.TIME_PORT_SWITCHES, .ro, 0x0, 1, true⟩,
   ⟨Reg.TIME_LAUNCH_LATE, .ro, 0x0, 1, true⟩,
   ⟨Reg.TIME_DLY_TIMEOUTS, .ro, 0x0, 1, true⟩,
   ⟨Reg.TIME_SYNC_DISCARDED, .ro, 0x0, 1, true⟩]

/-- The register rows of spec/07_power_start.md (R136), SYS. -/
def rowsSYS : List Row :=
  [⟨Reg.SYS_DEVICE_ID_PART, .ro, 0x7160, 1, false⟩,
   ⟨Reg.SYS_DEVICE_ID_STEPPING, .ro, 0x3, 1, false⟩,
   ⟨Reg.SYS_DEVICE_ID_PACKAGE, .ro, 0x1, 1, false⟩,
   ⟨Reg.SYS_BOOT_STATUS_PRIMER_US, .ro, 0x0, 1, false⟩,
   ⟨Reg.SYS_BOOT_STATUS_REF_USED, .ro, 0x0, 1, false⟩,
   ⟨Reg.SYS_BOOT_STATUS_MARKER_FAIL, .ro, 0x0, 1, false⟩,
   ⟨Reg.SYS_BOOT_STATUS_REPAIR_FALLBACK, .ro, 0x0, 1, false⟩,
   ⟨Reg.SYS_BOOT_STATUS_CAL_FALLBACK, .ro, 0x0, 1, false⟩,
   ⟨Reg.SYS_BOOT_STATUS_NV_ABSENT, .ro, 0x0, 1, false⟩,
   ⟨Reg.SYS_BOOT_STATUS_FUSE_BAD, .ro, 0x0, 1, false⟩,
   ⟨Reg.SYS_RESET_CMD_KEY, .wo, 0x0, 1, false⟩,
   ⟨Reg.SYS_RESET_CMD_KIND, .wo, 0x0, 1, false⟩,
   ⟨Reg.SYS_STRAPS, .ro, 0x0, 1, false⟩]

/-- The register rows of spec/07_power_start.md (R137), PWR. -/
def rowsPWR : List Row :=
  [⟨Reg.PWR_DOMAIN_CTRL_REQ, .rw, 0x0, 1, false⟩,
   ⟨Reg.PWR_DOMAIN_CTRL_FIXED, .ro, 0x3, 1, false⟩,
   ⟨Reg.PWR_DOMAIN_STATUS_SWITCHING, .ro, 0xf, 1, false⟩,
   ⟨Reg.PWR_DOMAIN_STATUS_ON, .ro, 0x3, 1, false⟩,
   ⟨Reg.PWR_WAKE_CFG_LINK_WAIT, .rw, 0x40, 1, false⟩,
   ⟨Reg.PWR_WAKE_CFG_PG_TIMEOUT, .rw, 0x32, 1, false⟩,
   ⟨Reg.PWR_WAKE_CFG_PIN_EN, .rw, 0x1, 1, false⟩,
   ⟨Reg.PWR_WAKE_CFG_WAKE_MASK, .rw, 0xf, 1, false⟩,
   ⟨Reg.PWR_WAKE_STATUS_LINK_TIMEOUT, .w1c, 0x0, 1, false⟩,
   ⟨Reg.PWR_WAKE_STATUS_PG_TIMEOUT, .w1c, 0x0, 1, false⟩,
   ⟨Reg.PWR_WAKE_STATUS_LAST_EXIT, .ro, 0x0, 1, false⟩,
   ⟨Reg.PWR_WAKE_STATUS_CAUSE, .ro, 0x0, 1, false⟩,
   ⟨Reg.PWR_AON_COUNTS_PG_DROPS, .ro, 0x0, 1, false⟩,
   ⟨Reg.PWR_AON_COUNTS_WAKES, .ro, 0x0, 1, false⟩]

/-- The register rows of spec/09_stroke_sequencer.md (R186), BRUSH. -/
def rowsBRUSH : List Row :=
  [⟨Reg.BRUSH_MODE, .rws, 0x0, 1, false⟩,
   ⟨Reg.BRUSH_SETTLE_TOL, .rws, 0x4000, 1, false⟩,
   ⟨Reg.BRUSH_START_CFG_PARK_TIMEOUT, .rw, 0xfa0, 1, false⟩,
   ⟨Reg.BRUSH_START_CFG_PARK_LIMIT_SET, .rw, 0x0, 1, false⟩,
   ⟨Reg.BRUSH_START_CFG_START_FRAMES, .rw, 0x14, 1, false⟩,
   ⟨Reg.BRUSH_PARK_X, .rw, 0x0, 1, false⟩,
   ⟨Reg.BRUSH_PARK_Y, .rw, 0x0, 1, false⟩,
   ⟨Reg.BRUSH_PARK_Z, .rw, 0x0, 1, false⟩,
   ⟨Reg.BRUSH_CHAIN_LO, .rw, 0x0, 1, false⟩,
   ⟨Reg.BRUSH_CHAIN_HI, .rw, 0x0, 1, false⟩,
   ⟨Reg.BRUSH_STATUS_FAULT_CAUSE, .ro, 0x0, 1, false⟩,
   ⟨Reg.BRUSH_STATUS_MISS_RUN, .ro, 0x0, 1, false⟩,
   ⟨Reg.BRUSH_STATUS_WAITING, .ro, 0x0, 1, false⟩,
   ⟨Reg.BRUSH_STATUS_CHAIN_ENDED, .ro, 0x0, 1, false⟩,
   ⟨Reg.BRUSH_STATUS_SHEET_VALID, .ro, 0x0, 1, false⟩,
   ⟨Reg.BRUSH_STATUS_GLAZE_SET, .ro, 0x0, 1, false⟩,
   ⟨Reg.BRUSH_STATUS_PALETTE_SET, .ro, 0x0, 1, false⟩,
   ⟨Reg.BRUSH_STATUS_GRID_SET, .ro, 0x0, 1, false⟩,
   ⟨Reg.BRUSH_STATUS_SEAM, .ro, 0x0, 1, false⟩,
   ⟨Reg.BRUSH_STATUS_MODE_ACTIVE, .ro, 0x0, 1, false⟩,
   ⟨Reg.BRUSH_SHEET_ID, .ro, 0x0, 1, false⟩,
   ⟨Reg.BRUSH_STROKE_INDEX, .ro, 0xffffffff, 1, false⟩,
   ⟨Reg.BRUSH_ANCHOR_T_LO, .ro, 0x0, 1, true⟩,
   ⟨Reg.BRUSH_ANCHOR_T_HI, .ro, 0x0, 1, true⟩] ++
  [⟨Reg.BRUSH_ANCHOR_M_LO, .ro, 0x0, 1, true⟩,
   ⟨Reg.BRUSH_ANCHOR_M_HI, .ro, 0x0, 1, true⟩,
   ⟨Reg.BRUSH_PASS_COUNT, .ro, 0x0, 1, true⟩,
   ⟨Reg.BRUSH_WINDOW_B_AHEAD, .ro, 0x0, 1, false⟩,
   ⟨Reg.BRUSH_WINDOW_A_AHEAD, .ro, 0x0, 1, false⟩,
   ⟨Reg.BRUSH_STROKES, .ro, 0x0, 1, true⟩,
   ⟨Reg.BRUSH_MISSES, .ro, 0x0, 1, true⟩,
   ⟨Reg.BRUSH_LATE_FETCHES, .ro, 0x0, 1, true⟩,
   ⟨Reg.BRUSH_START_CONFLICTS, .ro, 0x0, 1, true⟩,
   ⟨Reg.BRUSH_UNSETTLED, .ro, 0x0, 1, true⟩,
   ⟨Reg.BRUSH_TRUNCATED, .ro, 0x0, 1, true⟩,
   ⟨Reg.BRUSH_SHEETS, .ro, 0x0, 1, true⟩,
   ⟨Reg.BRUSH_MARGIN_MIN, .ro, 0xffff, 1, true⟩,
   ⟨Reg.BRUSH_LATE_SHEETS, .ro, 0x0, 1, true⟩]

/-- The register rows of spec/09_stroke_sequencer.md (R187), LASER. -/
def rowsLASER : List Row :=
  [⟨Reg.LASER_LAT_ON, .rws, 0x0, 1, false⟩,
   ⟨Reg.LASER_LAT_OFF, .rws, 0x0, 1, false⟩,
   ⟨Reg.LASER_LAT_PSYNC, .rws, 0x0, 1, false⟩,
   ⟨Reg.LASER_LAT_POWER, .rws, 0x0, 1, false⟩,
   ⟨Reg.LASER_PORT_CFG_FAULT_HALT, .rw, 0x0, 1, false⟩,
   ⟨Reg.LASER_PORT_CFG_READY_REQ, .rw, 0x0, 1, false⟩,
   ⟨Reg.LASER_IDLE_POWER, .rws, 0x0, 1, false⟩,
   ⟨Reg.LASER_PORT_STATUS_LAST_POWER, .ro, 0x0, 1, false⟩,
   ⟨Reg.LASER_PORT_STATUS_FORCED, .ro, 0x0, 1, false⟩,
   ⟨Reg.LASER_PORT_STATUS_ARM, .ro, 0x0, 1, false⟩,
   ⟨Reg.LASER_PORT_STATUS_PSYNC, .ro, 0x0, 1, false⟩,
   ⟨Reg.LASER_PORT_STATUS_GATE, .ro, 0x0, 1, false⟩,
   ⟨Reg.LASER_PORT_STATUS_FAULT, .ro, 0x0, 1, false⟩,
   ⟨Reg.LASER_PORT_STATUS_READY, .ro, 0x0, 1, false⟩,
   ⟨Reg.LASER_PORT_STATUS_WORDS, .ro, 0x0, 1, false⟩,
   ⟨Reg.LASER_TWIN_STATUS_TOL_1, .ro, 0x0, 1, false⟩,
   ⟨Reg.LASER_TWIN_STATUS_MAX_DIFF, .rc, 0x0, 1, false⟩,
   ⟨Reg.LASER_WORDS_SENT, .ro, 0x0, 1, true⟩,
   ⟨Reg.LASER_GATE_PULSES, .ro, 0x0, 1, true⟩,
   ⟨Reg.LASER_READY_LOSSES, .ro, 0x0, 1, true⟩,
   ⟨Reg.LASER_LASER_FAULTS, .ro, 0x0, 1, true⟩]

/-- The register rows of spec/10_moving_medium.md (R202), ENC. -/
def rowsENC : List Row :=
  [⟨Reg.ENC_ENC_CFG_ERR_FAULT, .rw, 0x0, 1, false⟩,
   ⟨Reg.ENC_ENC_CFG_REVERSE, .rw, 0x0, 1, false⟩,
   ⟨Reg.ENC_ENC_CFG_FILT, .rw, 0x1, 1, false⟩,
   ⟨Reg.ENC_ENC_CFG_STEP_SRC, .rw, 0x0, 1, false⟩,
   ⟨Reg.ENC_ENC_CFG_MODE, .rw, 0x0, 1, false⟩,
   ⟨Reg.ENC_SCALE_LO, .rw, 0x0, 1, false⟩,
   ⟨Reg.ENC_SCALE_HI, .rw, 0x1, 1, false⟩,
   ⟨Reg.ENC_INDEX_ARM, .wo, 0x0, 1, false⟩,
   ⟨Reg.ENC_COUNT_LO, .ro, 0x0, 1, true⟩,
   ⟨Reg.ENC_COUNT_HI, .ro, 0x0, 1, true⟩,
   ⟨Reg.ENC_INDEX_COUNT_LO, .ro, 0x0, 1, true⟩,
   ⟨Reg.ENC_INDEX_VALID, .ro, 0x0, 1, true⟩,
   ⟨Reg.ENC_INDEX_COUNT_HI, .ro, 0x0, 1, true⟩,
   ⟨Reg.ENC_INDEX_TIME_LO, .ro, 0x0, 1, true⟩,
   ⟨Reg.ENC_INDEX_TIME_HI, .ro, 0x0, 1, true⟩,
   ⟨Reg.ENC_PINS_Z, .ro, 0x0, 1, false⟩,
   ⟨Reg.ENC_PINS_B, .ro, 0x0, 1, false⟩,
   ⟨Reg.ENC_PINS_A, .ro, 0x0, 1, false⟩,
   ⟨Reg.ENC_QUAD_ERRORS, .ro, 0x0, 1, false⟩]

/-- The register rows of spec/10_moving_medium.md (R203), MEDIUM. -/
def rowsMEDIUM : List Row :=
  [⟨Reg.MEDIUM_MODE_CTRL_MISS_LIMIT, .rw, 0x8, 1, false⟩,
   ⟨Reg.MEDIUM_MODE_CTRL_SRC, .rw, 0x0, 1, false⟩,
   ⟨Reg.MEDIUM_MODE_CTRL_ROT_CW, .rw, 0x0, 1, false⟩,
   ⟨Reg.MEDIUM_MODE_CTRL_GEOM, .rw, 0x0, 1, false⟩,
   ⟨Reg.MEDIUM_MODE_CTRL_MOVING, .rw, 0x0, 1, false⟩,
   ⟨Reg.MEDIUM_GAINS_KB, .rws, 0x2580, 1, false⟩,
   ⟨Reg.MEDIUM_GAINS_KA, .rws, 0x4000, 1, false⟩,
   ⟨Reg.MEDIUM_VMIN, .rws, 0x29f1, 1, false⟩,
   ⟨Reg.MEDIUM_FREEZE, .rws, 0x40, 1, false⟩,
   ⟨Reg.MEDIUM_SEAM_LEAD, .rws, 0x0, 1, false⟩,
   ⟨Reg.MEDIUM_DIR_X, .rws, 0x40000000, 1, false⟩,
   ⟨Reg.MEDIUM_DIR_Y, .rws, 0x0, 1, false⟩,
   ⟨Reg.MEDIUM_CENTRE_X, .rws, 0x0, 1, false⟩,
   ⟨Reg.MEDIUM_CENTRE_Y, .rws, 0x0, 1, false⟩,
   ⟨Reg.MEDIUM_TURN_LO, .rws, 0x0, 1, false⟩,
   ⟨Reg.MEDIUM_TURN_HI, .rws, 0x0, 1, false⟩,
   ⟨Reg.MEDIUM_KZ, .rws, 0x0, 1, false⟩,
   ⟨Reg.MEDIUM_ORIGIN_LO, .rws, 0x0, 1, false⟩,
   ⟨Reg.MEDIUM_ORIGIN_HI, .rws, 0x0, 1, false⟩,
   ⟨Reg.MEDIUM_STATUS_MISS_RUN, .ro, 0x0, 1, false⟩,
   ⟨Reg.MEDIUM_STATUS_LOCAL, .ro, 0x0, 1, false⟩,
   ⟨Reg.MEDIUM_STATUS_PEER, .ro, 0x0, 1, false⟩,
   ⟨Reg.MEDIUM_STATUS_COAST, .ro, 0x0, 1, false⟩,
   ⟨Reg.MEDIUM_STATUS_IN_FORCE, .ro, 0x0, 1, false⟩] ++
  [⟨Reg.MEDIUM_POS_LO, .ro, 0x0, 1, true⟩,
   ⟨Reg.MEDIUM_POS_HI, .ro, 0x0, 1, true⟩,
   ⟨Reg.MEDIUM_VEL_LO, .ro, 0x0, 1, true⟩,
   ⟨Reg.MEDIUM_VEL_HI, .ro, 0x0, 1, true⟩,
   ⟨Reg.MEDIUM_FRAME, .ro, 0x0, 1, true⟩,
   ⟨Reg.MEDIUM_MISSED_SAMPLES, .ro, 0x0, 1, true⟩,
   ⟨Reg.MEDIUM_FREEZE_LATE, .ro, 0x0, 1, true⟩,
   ⟨Reg.MEDIUM_WINDOW_OUT, .ro, 0x0, 1, true⟩,
   ⟨Reg.MEDIUM_SEAMS, .ro, 0x0, 1, true⟩,
   ⟨Reg.MEDIUM_TARGET_OVERFLOWS, .ro, 0x0, 1, true⟩,
   ⟨Reg.MEDIUM_WIN_OPEN_LO, .rws, 0x0, 16, false⟩,
   ⟨Reg.MEDIUM_WIN_WEN, .rws, 0x0, 16, false⟩,
   ⟨Reg.MEDIUM_WIN_OPEN_HI, .rws, 0x0, 16, false⟩,
   ⟨Reg.MEDIUM_WIN_CLOSE_LO, .rws, 0x0, 16, false⟩,
   ⟨Reg.MEDIUM_WIN_CLOSE_HI, .rws, 0x0, 16, false⟩]

/-- The register rows of spec/11_raster.md (R220), RASTER. -/
def rowsRASTER : List Row :=
  [⟨Reg.RASTER_PIXEL_CFG, .rws, 0x4, 1, false⟩,
   ⟨Reg.RASTER_SWATCH_CFG_RECT_EN, .rws, 0xff, 1, false⟩,
   ⟨Reg.RASTER_SWATCH_CFG_TRIP, .rws, 0x0, 1, false⟩,
   ⟨Reg.RASTER_SWATCH_CFG_EN, .rws, 0x0, 1, false⟩,
   ⟨Reg.RASTER_TILE_STATUS_OPEN, .ro, 0x0, 1, false⟩,
   ⟨Reg.RASTER_TILE_STATUS_TILE, .ro, 0x0, 1, false⟩,
   ⟨Reg.RASTER_LINE_STATUS_RING_FREE, .ro, 0x0, 1, false⟩,
   ⟨Reg.RASTER_LINE_STATUS_LINE, .ro, 0x0, 1, false⟩,
   ⟨Reg.RASTER_SWATCH_TILE, .ro, 0x0, 1, true⟩,
   ⟨Reg.RASTER_SWATCH_VALID, .ro, 0x0, 1, true⟩,
   ⟨Reg.RASTER_SWATCH_MATCH, .ro, 0x0, 1, true⟩,
   ⟨Reg.RASTER_SWATCH_RECT, .ro, 0x0, 1, true⟩,
   ⟨Reg.RASTER_SWATCH_GOT, .ro, 0x0, 1, true⟩,
   ⟨Reg.RASTER_SWATCH_EXPECTED, .ro, 0x0, 1, true⟩,
   ⟨Reg.RASTER_SWATCH_TIME_LO, .ro, 0x0, 1, true⟩,
   ⟨Reg.RASTER_SWATCH_TIME_HI, .ro, 0x0, 1, true⟩,
   ⟨Reg.RASTER_LINES_DONE, .ro, 0x0, 1, true⟩,
   ⟨Reg.RASTER_PIXELS_LO, .ro, 0x0, 1, true⟩,
   ⟨Reg.RASTER_PIXELS_HI, .ro, 0x0, 1, true⟩,
   ⟨Reg.RASTER_SWATCH_PASSES, .ro, 0x0, 1, true⟩,
   ⟨Reg.RASTER_SWATCH_FAILS, .ro, 0x0, 1, true⟩,
   ⟨Reg.RASTER_SWATCH_INCOMPLETE, .ro, 0x0, 1, true⟩,
   ⟨Reg.RASTER_PIXEL_CLIPS, .ro, 0x0, 1, true⟩]

/-- The register rows of spec/12_servo.md (R245), ENGINE. -/
def rowsENGINE : List Row :=
  [⟨Reg.ENGINE_SLOT_MAP_BYTE_0, .rw, 0x0, 4, false⟩,
   ⟨Reg.ENGINE_SLOT_MAP_BYTE_1, .rw, 0x0, 4, false⟩,
   ⟨Reg.ENGINE_SLOT_MAP_BYTE_2, .rw, 0x0, 4, false⟩,
   ⟨Reg.ENGINE_SLOT_MAP_BYTE_3, .rw, 0x0, 4, false⟩,
   ⟨Reg.ENGINE_LOAD_PEAK, .rc, 0x0, 1, false⟩,
   ⟨Reg.ENGINE_LOAD_LAST, .ro, 0x0, 1, false⟩,
   ⟨Reg.ENGINE_OVERRUN_SLOTS, .rc, 0x0, 1, false⟩,
   ⟨Reg.ENGINE_TRACE_CTRL_DECIM, .rw, 0x0, 1, false⟩,
   ⟨Reg.ENGINE_TRACE_CTRL_TRIG, .rw, 0x0, 1, false⟩,
   ⟨Reg.ENGINE_TRACE_CTRL_SLOT_EN, .rw, 0x0, 1, false⟩,
   ⟨Reg.ENGINE_TRACE_CTRL_SLOT_3, .rw, 0x0, 1, false⟩,
   ⟨Reg.ENGINE_TRACE_CTRL_SLOT_2, .rw, 0x0, 1, false⟩,
   ⟨Reg.ENGINE_TRACE_CTRL_SLOT_1, .rw, 0x0, 1, false⟩,
   ⟨Reg.ENGINE_TRACE_CTRL_SLOT_0, .rw, 0x0, 1, false⟩,
   ⟨Reg.ENGINE_TRACE_LEVEL, .rw, 0x0, 1, false⟩,
   ⟨Reg.ENGINE_TRACE_POST, .rw, 0x0, 1, false⟩,
   ⟨Reg.ENGINE_TRACE_CMD_STOP, .wo, 0x0, 1, false⟩,
   ⟨Reg.ENGINE_TRACE_CMD_ARM, .wo, 0x0, 1, false⟩,
   ⟨Reg.ENGINE_TRACE_STATUS_TRIG_INDEX, .ro, 0x0, 1, false⟩,
   ⟨Reg.ENGINE_TRACE_STATUS_NEXT, .ro, 0x0, 1, false⟩,
   ⟨Reg.ENGINE_TRACE_STATUS_WRAPPED, .ro, 0x0, 1, false⟩,
   ⟨Reg.ENGINE_TRACE_STATUS_DONE, .ro, 0x0, 1, false⟩,
   ⟨Reg.ENGINE_TRACE_STATUS_TRIGGERED, .ro, 0x0, 1, false⟩,
   ⟨Reg.ENGINE_TRACE_STATUS_ARMED, .ro, 0x0, 1, false⟩] ++
  [⟨Reg.ENGINE_INJECT_AMP, .rw, 0x0, 1, false⟩,
   ⟨Reg.ENGINE_INJECT_MODE, .rw, 0x0, 1, false⟩,
   ⟨Reg.ENGINE_INJECT_SLOT, .rw, 0x0, 1, false⟩]

/-- The register rows of spec/12_servo.md (R246), AXIS. -/
def rowsAXIS : List Row :=
  [⟨Reg.AXIS_AXIS_CFG_FB_INST, .rw, 0x0, 1, false⟩,
   ⟨Reg.AXIS_AXIS_CFG_FB_SRC, .rw, 0x0, 1, false⟩,
   ⟨Reg.AXIS_AXIS_CFG_MISS_FAULT, .rw, 0x4, 1, false⟩,
   ⟨Reg.AXIS_AXIS_CFG_OVR_LIMIT, .rw, 0x3, 1, false⟩,
   ⟨Reg.AXIS_AXIS_CFG_COG_EN, .rw, 0x0, 1, false⟩,
   ⟨Reg.AXIS_AXIS_CFG_FRIC_EN, .rw, 0x0, 1, false⟩,
   ⟨Reg.AXIS_AXIS_CFG_FF_EN, .rw, 0x0, 1, false⟩,
   ⟨Reg.AXIS_AXIS_CFG_NBQ, .rw, 0x0, 1, false⟩,
   ⟨Reg.AXIS_AXIS_CFG_PHASE, .rw, 0x0, 1, false⟩,
   ⟨Reg.AXIS_AXIS_CFG_RATE, .rw, 0x0, 1, false⟩,
   ⟨Reg.AXIS_SOURCE_SP_INST, .rws, 0x0, 1, false⟩,
   ⟨Reg.AXIS_SOURCE_SP_SRC, .rws, 0x0, 1, false⟩,
   ⟨Reg.AXIS_SP_HOST, .rws, 0x0, 1, false⟩,
   ⟨Reg.AXIS_FOLLOW_SCALE, .rws, 0x0, 1, false⟩,
   ⟨Reg.AXIS_FOLLOW_OFFSET, .rws, 0x0, 1, false⟩,
   ⟨Reg.AXIS_FB_SCALE, .rw, 0x0, 1, false⟩,
   ⟨Reg.AXIS_FB_OFFSET, .rw, 0x0, 1, false⟩,
   ⟨Reg.AXIS_OUT_CFG_OUT_EN, .rw, 0x0, 1, false⟩,
   ⟨Reg.AXIS_OUT_CFG_TARGET, .rw, 0x0, 1, false⟩,
   ⟨Reg.AXIS_OUT_GAIN, .rw, 0x0, 1, false⟩,
   ⟨Reg.AXIS_KP, .rw, 0x0, 1, false⟩,
   ⟨Reg.AXIS_KI, .rw, 0x0, 1, false⟩,
   ⟨Reg.AXIS_KD, .rw, 0x0, 1, false⟩,
   ⟨Reg.AXIS_KVF, .rw, 0x0, 1, false⟩] ++
  [⟨Reg.AXIS_KAF, .rw, 0x0, 1, false⟩,
   ⟨Reg.AXIS_WEIGHTS_C, .rw, 0x0, 1, false⟩,
   ⟨Reg.AXIS_WEIGHTS_B, .rw, 0x4000, 1, false⟩,
   ⟨Reg.AXIS_KN, .rw, 0x0, 1, false⟩,
   ⟨Reg.AXIS_FRIC_DB, .rw, 0x0, 1, false⟩,
   ⟨Reg.AXIS_CMD_LIMIT, .rw, 0x7fff, 1, false⟩,
   ⟨Reg.AXIS_FE_LIMIT, .rw, 0x200000, 1, false⟩,
   ⟨Reg.AXIS_STATUS_FAULT_CAUSE, .ro, 0x0, 1, false⟩,
   ⟨Reg.AXIS_STATUS_OVR_RUN, .ro, 0x0, 1, false⟩,
   ⟨Reg.AXIS_STATUS_MISS_RUN, .ro, 0x0, 1, false⟩,
   ⟨Reg.AXIS_STATUS_ENGINE, .ro, 0x0, 1, false⟩,
   ⟨Reg.AXIS_STATUS_SLOT, .ro, 0x0, 1, false⟩,
   ⟨Reg.AXIS_STATUS_ASSIGNED, .ro, 0x0, 1, false⟩,
   ⟨Reg.AXIS_STATUS_COMPUTED, .ro, 0x0, 1, false⟩,
   ⟨Reg.AXIS_STATUS_OUT_SAT, .ro, 0x0, 1, false⟩,
   ⟨Reg.AXIS_STATUS_PRED, .ro, 0x0, 1, false⟩,
   ⟨Reg.AXIS_STATUS_AMP_EN, .ro, 0x0, 1, false⟩,
   ⟨Reg.AXIS_LIVE_SP, .ro, 0x0, 1, true⟩,
   ⟨Reg.AXIS_LIVE_POS, .ro, 0x0, 1, true⟩,
   ⟨Reg.AXIS_LIVE_ERR, .ro, 0x0, 1, true⟩,
   ⟨Reg.AXIS_LIVE_FLAGS, .ro, 0x0, 1, true⟩,
   ⟨Reg.AXIS_LIVE_CMD, .ro, 0x0, 1, true⟩,
   ⟨Reg.AXIS_LIVE_FRAME, .ro, 0x0, 1, true⟩,
   ⟨Reg.AXIS_LIVE_INTEG_LO, .ro, 0x0, 1, true⟩] ++
  [⟨Reg.AXIS_LIVE_INTEG_HI, .ro, 0x0, 1, true⟩,
   ⟨Reg.AXIS_FE_PEAK, .rc, 0x0, 1, false⟩,
   ⟨Reg.AXIS_OVERRUNS, .ro, 0x0, 1, true⟩,
   ⟨Reg.AXIS_PREDICTED, .ro, 0x0, 1, true⟩,
   ⟨Reg.AXIS_AMP_FAULTS, .ro, 0x0, 1, true⟩,
   ⟨Reg.AXIS_BQ_B0, .rw, 0x40000000, 8, false⟩,
   ⟨Reg.AXIS_BQ_B1, .rw, 0x0, 8, false⟩,
   ⟨Reg.AXIS_BQ_B2, .rw, 0x0, 8, false⟩,
   ⟨Reg.AXIS_BQ_A1, .rw, 0x0, 8, false⟩,
   ⟨Reg.AXIS_BQ_A2, .rw, 0x0, 8, false⟩]

/-- The register rows of spec/13_profiles_steppers.md (R264), STEP. -/
def rowsSTEP : List Row :=
  [⟨Reg.STEP_PORT_CFG_LINK_LIMIT, .rw, 0x4, 1, false⟩,
   ⟨Reg.STEP_PORT_CFG_DI_DELAY, .rw, 0x2, 1, false⟩,
   ⟨Reg.STEP_MOTOR_RS, .rw, 0x0, 1, false⟩,
   ⟨Reg.STEP_MOTOR_LS, .rw, 0x0, 1, false⟩,
   ⟨Reg.STEP_CURRENT, .rws, 0x4000, 1, false⟩,
   ⟨Reg.STEP_STALL_CFG_ACTION, .rws, 0x0, 1, false⟩,
   ⟨Reg.STEP_STALL_CFG_TICKS, .rws, 0x8, 1, false⟩,
   ⟨Reg.STEP_STALL_CFG_KF, .rws, 0x40, 1, false⟩,
   ⟨Reg.STEP_STALL_CFG_ANGLE, .rws, 0x3000, 1, false⟩,
   ⟨Reg.STEP_MIN_SPEED, .rws, 0x10000, 1, false⟩,
   ⟨Reg.STEP_V_LO, .rws, 0x1000000, 1, false⟩,
   ⟨Reg.STEP_V_HI, .rws, 0x0, 1, false⟩,
   ⟨Reg.STEP_A_LO, .rws, 0x100000, 1, false⟩,
   ⟨Reg.STEP_A_HI, .rws, 0x0, 1, false⟩,
   ⟨Reg.STEP_J_LO, .rws, 0x10000, 1, false⟩,
   ⟨Reg.STEP_J_HI, .rws, 0x0, 1, false⟩,
   ⟨Reg.STEP_TARGET_LO, .rw, 0x0, 1, false⟩,
   ⟨Reg.STEP_TARGET_HI, .rw, 0x0, 1, false⟩,
   ⟨Reg.STEP_POS_SET_LO, .rw, 0x0, 1, false⟩,
   ⟨Reg.STEP_POS_SET_HI, .rw, 0x0, 1, false⟩,
   ⟨Reg.STEP_STATUS_FAULT_CAUSE, .ro, 0x0, 1, false⟩,
   ⟨Reg.STEP_STATUS_LINK_MISS, .ro, 0x0, 1, false⟩,
   ⟨Reg.STEP_STATUS_STALL_RUN, .ro, 0x0, 1, false⟩,
   ⟨Reg.STEP_STATUS_POS_LOST, .ro, 0x0, 1, false⟩] ++
  [⟨Reg.STEP_STATUS_HOLDING, .ro, 0x0, 1, false⟩,
   ⟨Reg.STEP_STATUS_EST_VALID, .ro, 0x0, 1, false⟩,
   ⟨Reg.STEP_STATUS_MOVING, .ro, 0x0, 1, false⟩,
   ⟨Reg.STEP_STATUS_AT_TARGET, .ro, 0x0, 1, false⟩,
   ⟨Reg.STEP_POS_LO, .ro, 0x0, 1, true⟩,
   ⟨Reg.STEP_POS_HI, .ro, 0x0, 1, true⟩,
   ⟨Reg.STEP_VEL_LO, .ro, 0x0, 1, true⟩,
   ⟨Reg.STEP_VEL_HI, .ro, 0x0, 1, true⟩,
   ⟨Reg.STEP_ACC, .ro, 0x0, 1, true⟩,
   ⟨Reg.STEP_TICK, .ro, 0x0, 1, true⟩,
   ⟨Reg.STEP_DELTA, .ro, 0x0, 1, true⟩,
   ⟨Reg.STEP_BRIDGE_STATUS, .ro, 0x0, 1, true⟩,
   ⟨Reg.STEP_MEAS_I, .ro, 0x0, 1, true⟩,
   ⟨Reg.STEP_MEAS_V, .ro, 0x0, 1, true⟩,
   ⟨Reg.STEP_STALLS, .ro, 0x0, 1, true⟩,
   ⟨Reg.STEP_LINK_ERRORS, .ro, 0x0, 1, true⟩,
   ⟨Reg.STEP_BRIDGE_FAULTS, .ro, 0x0, 1, true⟩]

/-- The register rows of spec/14_vision.md (R285), CAM. -/
def rowsCAM : List Row :=
  [⟨Reg.CAM_CAM_CFG_DESKEW_EN, .rw, 0x0, 1, false⟩,
   ⟨Reg.CAM_CAM_CFG_SETTLE, .rw, 0x18, 1, false⟩,
   ⟨Reg.CAM_CAM_CFG_CLK_INV, .rw, 0x0, 1, false⟩,
   ⟨Reg.CAM_CAM_CFG_LANE_INV, .rw, 0x0, 1, false⟩,
   ⟨Reg.CAM_CAM_CFG_LANES, .rw, 0x3, 1, false⟩,
   ⟨Reg.CAM_CAM_STATUS_BUF_USED, .ro, 0x0, 1, false⟩,
   ⟨Reg.CAM_CAM_STATUS_ULPS, .ro, 0x0, 1, false⟩,
   ⟨Reg.CAM_CAM_STATUS_HS, .ro, 0x0, 1, false⟩,
   ⟨Reg.CAM_CAM_STATUS_STOP, .ro, 0x0, 1, false⟩,
   ⟨Reg.CAM_BUF_PEAK, .rc, 0x0, 1, false⟩,
   ⟨Reg.CAM_PACKETS, .ro, 0x0, 1, true⟩,
   ⟨Reg.CAM_HDR_CORRECTED, .ro, 0x0, 1, true⟩,
   ⟨Reg.CAM_HDR_UNCORR, .ro, 0x0, 1, true⟩,
   ⟨Reg.CAM_CRC_ERRORS, .ro, 0x0, 1, true⟩,
   ⟨Reg.CAM_OVERFLOWS, .ro, 0x0, 1, true⟩,
   ⟨Reg.CAM_UNMATCHED, .ro, 0x0, 1, true⟩,
   ⟨Reg.CAM_PHY_ERRORS, .ro, 0x0, 1, true⟩,
   ⟨Reg.CAM_BYTES_LO, .ro, 0x0, 1, true⟩,
   ⟨Reg.CAM_BYTES_HI, .ro, 0x0, 1, true⟩]

/-- The register rows of spec/14_vision.md (R286), STREAM. -/
def rowsSTREAM : List Row :=
  [⟨Reg.STREAM_CTX_CFG_TRIG_USE, .rw, 0x0, 1, false⟩,
   ⟨Reg.STREAM_CTX_CFG_TRIG_OWN, .rw, 0x0, 1, false⟩,
   ⟨Reg.STREAM_CTX_CFG_TRIG, .rw, 0x0, 1, false⟩,
   ⟨Reg.STREAM_CTX_CFG_BRUSH, .rw, 0x1f, 1, false⟩,
   ⟨Reg.STREAM_CTX_CFG_KIND, .rw, 0x0, 1, false⟩,
   ⟨Reg.STREAM_CTX_CFG_DT, .rw, 0x0, 1, false⟩,
   ⟨Reg.STREAM_CTX_CFG_VC, .rw, 0x0, 1, false⟩,
   ⟨Reg.STREAM_GEOM_HEIGHT, .rw, 0x40, 1, false⟩,
   ⟨Reg.STREAM_GEOM_WIDTH, .rw, 0x40, 1, false⟩,
   ⟨Reg.STREAM_FRAME_LIMIT, .rw, 0x989680, 1, false⟩,
   ⟨Reg.STREAM_PIPE_CFG_FN_BITS, .rw, 0x0, 1, false⟩,
   ⟨Reg.STREAM_PIPE_CFG_NROI, .rw, 0x0, 1, false⟩,
   ⟨Reg.STREAM_PIPE_CFG_HIST_SHIFT, .rw, 0xa, 1, false⟩,
   ⟨Reg.STREAM_PIPE_CFG_FF_SHIFT, .rw, 0x4, 1, false⟩,
   ⟨Reg.STREAM_PIPE_CFG_MERGE_CTX, .rw, 0x0, 1, false⟩,
   ⟨Reg.STREAM_PIPE_CFG_MERGE_SEL, .rw, 0x0, 1, false⟩,
   ⟨Reg.STREAM_PIPE_CFG_FF_EN, .rw, 0x0, 1, false⟩,
   ⟨Reg.STREAM_PIPE_CFG_DEFECT_EN, .rw, 0x0, 1, false⟩,
   ⟨Reg.STREAM_PIPE_CFG_MERGE_EN, .rw, 0x0, 1, false⟩,
   ⟨Reg.STREAM_PIPE_CFG_LIN_EN, .rw, 0x0, 1, false⟩,
   ⟨Reg.STREAM_BLACK, .rws, 0x0, 1, false⟩,
   ⟨Reg.STREAM_MERGE_RATIO, .rws, 0x100, 1, false⟩,
   ⟨Reg.STREAM_MERGE_KNEE, .rws, 0xffff, 1, false⟩,
   ⟨Reg.STREAM_EXPOSURE, .rws, 0x1900, 1, false⟩] ++
  [⟨Reg.STREAM_SET_ID, .rws, 0x0, 1, false⟩,
   ⟨Reg.STREAM_TRIG_PERIOD, .rws, 0x27100, 1, false⟩,
   ⟨Reg.STREAM_TRIG_DELAY, .rws, 0x0, 1, false⟩,
   ⟨Reg.STREAM_TRIG_FIRST_LO, .rw, 0x0, 1, false⟩,
   ⟨Reg.STREAM_TRIG_FIRST_HI, .rw, 0x0, 1, false⟩,
   ⟨Reg.STREAM_ONESHOT_LO, .rw, 0x0, 1, false⟩,
   ⟨Reg.STREAM_ONESHOT_HI, .rw, 0x0, 1, false⟩,
   ⟨Reg.STREAM_TRIG_CFG_POL, .rw, 0x0, 1, false⟩,
   ⟨Reg.STREAM_TRIG_CFG_MODE, .rw, 0x0, 1, false⟩,
   ⟨Reg.STREAM_STORE_CFG_SLOTS, .rw, 0x0, 1, false⟩,
   ⟨Reg.STREAM_STORE_CFG_DIV, .rw, 0x0, 1, false⟩,
   ⟨Reg.STREAM_STORE_CFG_HOST, .rw, 0x0, 1, false⟩,
   ⟨Reg.STREAM_STORE_CFG_KEEP, .rw, 0x0, 1, false⟩,
   ⟨Reg.STREAM_STORE_CFG_FORM, .rw, 0x0, 1, false⟩,
   ⟨Reg.STREAM_STORE_CFG_STORE, .rw, 0x0, 1, false⟩,
   ⟨Reg.STREAM_SLOT_BYTES, .rw, 0x0, 1, false⟩,
   ⟨Reg.STREAM_STORE_BASE_LO, .rw, 0x0, 1, false⟩,
   ⟨Reg.STREAM_STORE_BASE_HI, .rw, 0x0, 1, false⟩,
   ⟨Reg.STREAM_STATUS_LAST_SEQ, .ro, 0x0, 1, false⟩,
   ⟨Reg.STREAM_STATUS_LAST_SLOT, .ro, 0x0, 1, false⟩,
   ⟨Reg.STREAM_STATUS_THROTTLED, .ro, 0x0, 1, false⟩,
   ⟨Reg.STREAM_STATUS_SENDING, .ro, 0x0, 1, false⟩,
   ⟨Reg.STREAM_STATUS_OPEN, .ro, 0x0, 1, false⟩,
   ⟨Reg.STREAM_FRAMES, .ro, 0x0, 1, true⟩] ++
  [⟨Reg.STREAM_TRIGGERS, .ro, 0x0, 1, true⟩,
   ⟨Reg.STREAM_TRUNCATED, .ro, 0x0, 1, true⟩,
   ⟨Reg.STREAM_LINES_LOST, .ro, 0x0, 1, true⟩,
   ⟨Reg.STREAM_RESYNCS, .ro, 0x0, 1, true⟩,
   ⟨Reg.STREAM_FN_ERRORS, .ro, 0x0, 1, true⟩,
   ⟨Reg.STREAM_STORE_SKIPS, .ro, 0x0, 1, true⟩,
   ⟨Reg.STREAM_STREAM_SKIPS, .ro, 0x0, 1, true⟩,
   ⟨Reg.STREAM_THROTTLED, .ro, 0x0, 1, true⟩,
   ⟨Reg.STREAM_TRIG_LATE, .ro, 0x0, 1, true⟩]

/-- The register rows of spec/14_vision.md (R287), VISION. -/
def rowsVISION : List Row :=
  [⟨Reg.VISION_MRING_BASE_LO, .rw, 0x0, 2, false⟩,
   ⟨Reg.VISION_MRING_BASE_HI, .rw, 0x0, 2, false⟩,
   ⟨Reg.VISION_MRING_SIZE, .rw, 0x0, 2, false⟩,
   ⟨Reg.VISION_MRING_WR, .ro, 0x0, 2, false⟩,
   ⟨Reg.VISION_MRING_RD, .rw, 0x0, 2, false⟩,
   ⟨Reg.VISION_STATUS_QUEUE, .ro, 0x0, 1, false⟩,
   ⟨Reg.VISION_STATUS_NO_CAMERA, .ro, 0x0, 1, false⟩,
   ⟨Reg.VISION_STATUS_PEER_MET, .ro, 0x0, 1, false⟩,
   ⟨Reg.VISION_STATUS_THROTTLE, .ro, 0x0, 1, false⟩,
   ⟨Reg.VISION_RELEASED, .ro, 0x0, 1, true⟩,
   ⟨Reg.VISION_GLAZE_DROPS, .ro, 0x0, 1, true⟩,
   ⟨Reg.VISION_MET_MISSING, .ro, 0x0, 1, true⟩,
   ⟨Reg.VISION_RING_FULL_0, .ro, 0x0, 1, true⟩,
   ⟨Reg.VISION_RING_FULL_1, .ro, 0x0, 1, true⟩,
   ⟨Reg.VISION_MET_SENT, .ro, 0x0, 1, true⟩]

/-- The register rows of spec/15_glaze.md (R298), GLAZE. -/
def rowsGLAZE : List Row :=
  [⟨Reg.GLAZE_GLAZE_CFG_POWER_MAX, .rws, 0xffff, 1, false⟩,
   ⟨Reg.GLAZE_GLAZE_CFG_CAM_AGE, .rws, 0x10, 1, false⟩,
   ⟨Reg.GLAZE_GLAZE_CFG_TRIM_FREEZE, .rws, 0x0, 1, false⟩,
   ⟨Reg.GLAZE_GLAZE_CFG_FORCE_PD, .rws, 0x0, 1, false⟩,
   ⟨Reg.GLAZE_STATUS_FACTOR, .ro, 0x4000, 1, false⟩,
   ⟨Reg.GLAZE_STATUS_CLASS, .ro, 0x0, 1, false⟩,
   ⟨Reg.GLAZE_STATUS_BIN, .ro, 0x0, 1, false⟩,
   ⟨Reg.GLAZE_STATUS_CAM_LOST, .ro, 0x0, 1, false⟩,
   ⟨Reg.GLAZE_STATUS_FALLBACK, .ro, 0x0, 1, false⟩,
   ⟨Reg.GLAZE_STATUS_MISS, .ro, 0x0, 1, false⟩,
   ⟨Reg.GLAZE_TRIM, .ro, 0x0, 16, false⟩,
   ⟨Reg.GLAZE_MET_STATUS_FRESH, .ro, 0x0, 1, false⟩,
   ⟨Reg.GLAZE_MET_STATUS_TRIG_SEQ, .ro, 0x0, 1, false⟩,
   ⟨Reg.GLAZE_LATCHES, .ro, 0x0, 1, true⟩,
   ⟨Reg.GLAZE_PD_MISSING, .ro, 0x0, 1, true⟩,
   ⟨Reg.GLAZE_FALLBACKS, .ro, 0x0, 1, true⟩,
   ⟨Reg.GLAZE_MET_STALE, .ro, 0x0, 1, true⟩,
   ⟨Reg.GLAZE_MET_DAMAGED, .ro, 0x0, 1, true⟩,
   ⟨Reg.GLAZE_TRIM_UPDATES, .ro, 0x0, 1, true⟩,
   ⟨Reg.GLAZE_TRIM_LIMITS, .ro, 0x0, 1, true⟩,
   ⟨Reg.GLAZE_POWER_CLAMPS, .ro, 0x0, 1, true⟩,
   ⟨Reg.GLAZE_FACTOR_CLAMPS, .ro, 0x0, 1, true⟩,
   ⟨Reg.GLAZE_RECORDS, .ro, 0x0, 1, true⟩]

/-- The register rows of spec/16_knife.md (R308), KNIFE. -/
def rowsKNIFE : List Row :=
  [⟨Reg.KNIFE_ARM_SET_KEY, .wo, 0x0, 1, false⟩,
   ⟨Reg.KNIFE_ARM_SET_MASK, .wo, 0x0, 1, false⟩,
   ⟨Reg.KNIFE_DISARM_KEY, .wo, 0x0, 1, false⟩,
   ⟨Reg.KNIFE_DISARM_MASK, .wo, 0x0, 1, false⟩,
   ⟨Reg.KNIFE_CLEAR_KEY, .wo, 0x0, 1, false⟩,
   ⟨Reg.KNIFE_CLEAR_MASK, .wo, 0x0, 1, false⟩,
   ⟨Reg.KNIFE_TEST_KEY, .wo, 0x0, 1, false⟩,
   ⟨Reg.KNIFE_TEST_MASK, .wo, 0x0, 1, false⟩,
   ⟨Reg.KNIFE_STATUS_FORCED, .ro, 0x0, 1, false⟩,
   ⟨Reg.KNIFE_STATUS_KNIFE_OUT, .ro, 0x0, 1, false⟩,
   ⟨Reg.KNIFE_STATUS_CLOCK_OK, .ro, 0x0, 1, false⟩,
   ⟨Reg.KNIFE_STATUS_ILK_OK, .ro, 0x0, 1, false⟩,
   ⟨Reg.KNIFE_STATUS_PERMIT, .ro, 0x0, 1, false⟩,
   ⟨Reg.KNIFE_ARM_STATE, .ro, 0x0, 1, false⟩,
   ⟨Reg.KNIFE_TRIPPED, .ro, 0xffff, 1, false⟩,
   ⟨Reg.KNIFE_ILK_CFG, .rw, 0x14, 1, false⟩,
   ⟨Reg.KNIFE_ILK_STATUS_DISC_LATCHED, .ro, 0x0, 1, false⟩,
   ⟨Reg.KNIFE_ILK_STATUS_STATE, .ro, 0x0, 1, false⟩,
   ⟨Reg.KNIFE_LAST_TRIP_TIME_LO, .ro, 0x0, 1, true⟩,
   ⟨Reg.KNIFE_LAST_TRIP_TIME_HI, .ro, 0x0, 1, true⟩,
   ⟨Reg.KNIFE_LAST_TRIP_VALID, .ro, 0x0, 1, true⟩,
   ⟨Reg.KNIFE_LAST_TRIP_BRUSH, .ro, 0x0, 1, true⟩,
   ⟨Reg.KNIFE_LAST_TRIP_CAUSE, .ro, 0x0, 1, true⟩,
   ⟨Reg.KNIFE_TRIPS, .ro, 0x0, 1, true⟩] ++
  [⟨Reg.KNIFE_ILK_OPENS, .ro, 0x0, 1, true⟩,
   ⟨Reg.KNIFE_DISCREPANCIES, .ro, 0x0, 1, true⟩,
   ⟨Reg.KNIFE_CLEARS, .ro, 0x0, 1, true⟩,
   ⟨Reg.KNIFE_CAUSE_PRESENT, .ro, 0x0, 16, false⟩,
   ⟨Reg.KNIFE_CAUSE_LATCHED, .ro, 0x1, 16, false⟩]

/-- The register rows of spec/17_diptych.md (R321), DIPTYCH. -/
def rowsDIPTYCH : List Row :=
  [⟨Reg.DIPTYCH_PAIR_CFG_HEADS, .rw, 0xffff, 1, false⟩,
   ⟨Reg.DIPTYCH_PAIR_CFG_FAULT_MASK, .rw, 0x7, 1, false⟩,
   ⟨Reg.DIPTYCH_PAIR_CFG_DIV_RESP, .rw, 0x0, 1, false⟩,
   ⟨Reg.DIPTYCH_MIRROR_LAT, .rw, 0x2580, 1, false⟩,
   ⟨Reg.DIPTYCH_HANDOVER_KEY, .wo, 0x0, 1, false⟩,
   ⟨Reg.DIPTYCH_HANDOVER_GO, .wo, 0x0, 1, false⟩,
   ⟨Reg.DIPTYCH_STATUS_ACTIVE_L, .ro, 0x0, 1, false⟩,
   ⟨Reg.DIPTYCH_STATUS_HB_MISS, .ro, 0x0, 1, false⟩,
   ⟨Reg.DIPTYCH_STATUS_PARTNER_READY, .ro, 0x0, 1, false⟩,
   ⟨Reg.DIPTYCH_STATUS_READY, .ro, 0x0, 1, false⟩,
   ⟨Reg.DIPTYCH_STATUS_ACTIVE, .ro, 0x0, 1, false⟩,
   ⟨Reg.DIPTYCH_STATUS_ROLE_B, .ro, 0x0, 1, false⟩,
   ⟨Reg.DIPTYCH_STATUS_PAIR, .ro, 0x0, 1, false⟩,
   ⟨Reg.DIPTYCH_FORM_FRAME, .ro, 0x0, 1, false⟩,
   ⟨Reg.DIPTYCH_MCOUNT, .ro, 0x0, 1, false⟩,
   ⟨Reg.DIPTYCH_TAKEOVER_LO, .ro, 0x0, 1, true⟩,
   ⟨Reg.DIPTYCH_TAKEOVER_HI, .ro, 0x0, 1, true⟩,
   ⟨Reg.DIPTYCH_DIV_FRAME, .ro, 0x0, 1, true⟩,
   ⟨Reg.DIPTYCH_DIGEST_OWN, .ro, 0x0, 1, true⟩,
   ⟨Reg.DIPTYCH_DIGEST_PEER, .ro, 0x0, 1, true⟩,
   ⟨Reg.DIPTYCH_COMPARED, .ro, 0x0, 1, true⟩,
   ⟨Reg.DIPTYCH_HB_MISSES, .ro, 0x0, 1, true⟩,
   ⟨Reg.DIPTYCH_MIRROR_LATE, .ro, 0x0, 1, true⟩,
   ⟨Reg.DIPTYCH_GAP_STROKES, .ro, 0x0, 1, true⟩] ++
  [⟨Reg.DIPTYCH_TAKEOVERS, .ro, 0x0, 1, true⟩]

/-- The register rows of spec/18_lighting.md (R333), LIGHT. -/
def rowsLIGHT : List Row :=
  [⟨Reg.LIGHT_GAIN0_G_HI, .rw, 0x4000, 9, false⟩,
   ⟨Reg.LIGHT_GAIN1_G_HI, .rw, 0x4000, 9, false⟩,
   ⟨Reg.LIGHT_GAIN2_G_HI, .rw, 0x4000, 9, false⟩,
   ⟨Reg.LIGHT_GAIN3_G_HI, .rw, 0x4000, 9, false⟩,
   ⟨Reg.LIGHT_GAIN0_G_LO, .rw, 0x4000, 9, false⟩,
   ⟨Reg.LIGHT_GAIN1_G_LO, .rw, 0x4000, 9, false⟩,
   ⟨Reg.LIGHT_GAIN2_G_LO, .rw, 0x4000, 9, false⟩,
   ⟨Reg.LIGHT_GAIN3_G_LO, .rw, 0x4000, 9, false⟩]

/-- The register rows of spec/18_lighting.md (R334), LTPORT. -/
def rowsLTPORT : List Row :=
  [⟨Reg.LTPORT_PORT_CFG_RING_LIMIT, .rw, 0x4, 1, false⟩,
   ⟨Reg.LTPORT_PORT_CFG_COMP_EN, .rw, 0x1, 1, false⟩,
   ⟨Reg.LTPORT_PORT_CFG_POLL, .rw, 0xa, 1, false⟩,
   ⟨Reg.LTPORT_PORT_CFG_DRIVERS, .rw, 0x1, 1, false⟩,
   ⟨Reg.LTPORT_CH_COLOUR, .rw, 0x0, 1, false⟩,
   ⟨Reg.LTPORT_SYNC_LEAD, .rw, 0x0, 1, false⟩,
   ⟨Reg.LTPORT_CMD_DATA, .rw, 0x0, 1, false⟩,
   ⟨Reg.LTPORT_CMD_HDR_AFTER_SYNC, .wo, 0x0, 1, false⟩,
   ⟨Reg.LTPORT_CMD_HDR_BCAST_ADDR, .wo, 0x0, 1, false⟩,
   ⟨Reg.LTPORT_CMD_HDR_CMD, .wo, 0x0, 1, false⟩,
   ⟨Reg.LTPORT_CMD_HDR_INDEX, .wo, 0x0, 1, false⟩,
   ⟨Reg.LTPORT_SYNC_AT_LO, .rw, 0x0, 1, false⟩,
   ⟨Reg.LTPORT_SYNC_AT_HI, .rw, 0x0, 1, false⟩,
   ⟨Reg.LTPORT_QUEUE_STATUS_SYNCS, .ro, 0x0, 1, false⟩,
   ⟨Reg.LTPORT_QUEUE_STATUS_RESPS, .ro, 0x0, 1, false⟩,
   ⟨Reg.LTPORT_QUEUE_STATUS_CMDS, .ro, 0x0, 1, false⟩,
   ⟨Reg.LTPORT_RESP, .ro, 0x0, 1, false⟩,
   ⟨Reg.LTPORT_RESP_INFO_ANS, .rc, 0x0, 1, false⟩,
   ⟨Reg.LTPORT_RESP_INFO_ADDR, .rc, 0x0, 1, false⟩,
   ⟨Reg.LTPORT_RESP_INFO_INDEX, .rc, 0x0, 1, false⟩,
   ⟨Reg.LTPORT_TEMP_TEMP_ODD, .ro, 0x0, 16, false⟩,
   ⟨Reg.LTPORT_TEMP_TEMP_EVEN, .ro, 0x0, 16, false⟩,
   ⟨Reg.LTPORT_FRAMES, .ro, 0x0, 1, true⟩,
   ⟨Reg.LTPORT_SYNCS_SENT, .ro, 0x0, 1, true⟩] ++
  [⟨Reg.LTPORT_SYNC_LATE, .ro, 0x0, 1, true⟩,
   ⟨Reg.LTPORT_RING_ERRORS, .ro, 0x0, 1, true⟩,
   ⟨Reg.LTPORT_SPLITS, .ro, 0x0, 1, true⟩]

/-- The register rows of spec/19_onchip_memory.md (R344), BANKS. -/
def rowsBANKS : List Row :=
  [⟨Reg.BANKS_ECC_CFG, .rw, 0x1ffff, 1, false⟩,
   ⟨Reg.BANKS_BG_CFG_INTERVAL, .rw, 0x40, 1, false⟩,
   ⟨Reg.BANKS_BG_CFG_BANK_EN, .rw, 0x0, 1, false⟩,
   ⟨Reg.BANKS_BG_STATUS_ACTIVE, .ro, 0x0, 1, false⟩,
   ⟨Reg.BANKS_BG_STATUS_PAUSED, .ro, 0x0, 1, false⟩,
   ⟨Reg.BANKS_BG_STATUS_PHASE, .ro, 0x0, 1, false⟩,
   ⟨Reg.BANKS_BG_STATUS_BANK, .ro, 0x0, 1, false⟩,
   ⟨Reg.BANKS_BG_STATUS_ROW, .ro, 0x0, 1, false⟩,
   ⟨Reg.BANKS_SPARE_IN_USE, .ro, 0x0, 1, false⟩,
   ⟨Reg.BANKS_REPAIR_SHORT, .ro, 0x0, 1, false⟩,
   ⟨Reg.BANKS_LAST_ERR_VALID, .ro, 0x0, 1, true⟩,
   ⟨Reg.BANKS_LAST_ERR_BANK, .ro, 0x0, 1, true⟩,
   ⟨Reg.BANKS_LAST_ERR_OFFSET, .ro, 0x0, 1, true⟩,
   ⟨Reg.BANKS_LAST_ERR_TIME_LO, .ro, 0x0, 1, true⟩,
   ⟨Reg.BANKS_LAST_ERR_TIME_HI, .ro, 0x0, 1, true⟩,
   ⟨Reg.BANKS_FAIL_CLEAR, .wo, 0x0, 1, false⟩,
   ⟨Reg.BANKS_FAIL_VALID, .ro, 0x0, 8, false⟩,
   ⟨Reg.BANKS_FAIL_BANK, .ro, 0x0, 8, false⟩,
   ⟨Reg.BANKS_FAIL_ROW, .ro, 0x0, 8, false⟩,
   ⟨Reg.BANKS_FAIL_TIME, .ro, 0x0, 8, false⟩,
   ⟨Reg.BANKS_ROWS_TESTED, .ro, 0x0, 1, true⟩,
   ⟨Reg.BANKS_ROW_FAILS, .ro, 0x0, 1, true⟩,
   ⟨Reg.BANKS_XCH_COLLIDES, .ro, 0x0, 1, true⟩,
   ⟨Reg.BANKS_BANKCNT_UNCORRECTED, .ro, 0x0, 20, true⟩] ++
  [⟨Reg.BANKS_BANKCNT_CORRECTED, .ro, 0x0, 20, true⟩]

/-- The register rows of spec/20_dram.md (R360), DRAM. -/
def rowsDRAM : List Row :=
  [⟨Reg.DRAM_CFG_ECC_EN, .rw, 0x0, 1, false⟩,
   ⟨Reg.DRAM_CFG_DENSITY, .rw, 0x2, 1, false⟩,
   ⟨Reg.DRAM_CFG_RATE, .rw, 0x0, 1, false⟩,
   ⟨Reg.DRAM_SCHED_PAGE_IDLE, .rw, 0x8, 1, false⟩,
   ⟨Reg.DRAM_SCHED_AGE_C3, .rw, 0x1, 1, false⟩,
   ⟨Reg.DRAM_SCHED_AGE_C2, .rw, 0x3, 1, false⟩,
   ⟨Reg.DRAM_SCHED_AGE_C1, .rw, 0x0, 1, false⟩,
   ⟨Reg.DRAM_NREF_EN, .rw, 0x1, 1, false⟩,
   ⟨Reg.DRAM_NREF_K, .rw, 0xb, 1, false⟩,
   ⟨Reg.DRAM_STATUS_OPEN_PAGES, .ro, 0x0, 1, false⟩,
   ⟨Reg.DRAM_STATUS_WQ, .ro, 0x0, 1, false⟩,
   ⟨Reg.DRAM_STATUS_HOT, .ro, 0x0, 1, false⟩,
   ⟨Reg.DRAM_STATUS_REF_RATE, .ro, 0x0, 1, false⟩,
   ⟨Reg.DRAM_LAST_ERR_VALID, .ro, 0x0, 1, true⟩,
   ⟨Reg.DRAM_LAST_ERR_GRANULE, .ro, 0x0, 1, true⟩,
   ⟨Reg.DRAM_LAST_ERR_TIME_LO, .ro, 0x0, 1, true⟩,
   ⟨Reg.DRAM_LAST_ERR_TIME_HI, .ro, 0x0, 1, true⟩,
   ⟨Reg.DRAM_LAT_PEAK_C3, .rc, 0x0, 1, false⟩,
   ⟨Reg.DRAM_LAT_PEAK_C2, .rc, 0x0, 1, false⟩,
   ⟨Reg.DRAM_LAT_PEAK_C1, .rc, 0x0, 1, false⟩,
   ⟨Reg.DRAM_LAT_PEAK_C0, .rc, 0x0, 1, false⟩,
   ⟨Reg.DRAM_READ_GRANULES, .ro, 0x0, 1, true⟩,
   ⟨Reg.DRAM_WRITE_GRANULES, .ro, 0x0, 1, true⟩,
   ⟨Reg.DRAM_FORWARDS, .ro, 0x0, 1, true⟩] ++
  [⟨Reg.DRAM_NEIGHBOUR_REFRESHES, .ro, 0x0, 1, true⟩,
   ⟨Reg.DRAM_PROMOTIONS, .ro, 0x0, 1, true⟩,
   ⟨Reg.DRAM_REF_POSTPONED, .ro, 0x0, 1, true⟩,
   ⟨Reg.DRAM_ECC_CORRECTED, .ro, 0x0, 1, true⟩,
   ⟨Reg.DRAM_ECC_UNCORR, .ro, 0x0, 1, true⟩]

/-- The register rows of spec/20_dram.md (R361), DTRAIN. -/
def rowsDTRAIN : List Row :=
  [⟨Reg.DTRAIN_MAP, .rw, 0x0, 1, false⟩,
   ⟨Reg.DTRAIN_TRAIN_CFG, .rw, 0x10, 1, false⟩,
   ⟨Reg.DTRAIN_RETRAIN_GO, .wo, 0x0, 1, false⟩,
   ⟨Reg.DTRAIN_RETRAIN_MASK, .wo, 0x0, 1, false⟩,
   ⟨Reg.DTRAIN_STATUS_FAILED, .ro, 0x0, 1, false⟩,
   ⟨Reg.DTRAIN_STATUS_BUSY, .ro, 0x0, 1, false⟩,
   ⟨Reg.DTRAIN_STATUS_PHASE, .ro, 0x0, 1, false⟩,
   ⟨Reg.DTRAIN_LANE_WR_WIDTH, .ro, 0x0, 8, false⟩,
   ⟨Reg.DTRAIN_LANE_WR_CENTRE, .ro, 0x0, 8, false⟩,
   ⟨Reg.DTRAIN_LANE_RD_WIDTH, .ro, 0x0, 8, false⟩,
   ⟨Reg.DTRAIN_LANE_RD_CENTRE, .ro, 0x0, 8, false⟩]

/-- The register rows of spec/21_thermal.md (R369), THERM. -/
def rowsTHERM : List Row :=
  [⟨Reg.THERM_WARN_CFG_HYST, .rw, 0x14, 1, false⟩,
   ⟨Reg.THERM_WARN_CFG_WARN, .rw, 0x1900, 1, false⟩,
   ⟨Reg.THERM_GRACE, .rw, 0x1f4, 1, false⟩,
   ⟨Reg.THERM_REMOTE_CFG, .rw, 0x0, 1, false⟩,
   ⟨Reg.THERM_REMOTE_OFFSET_OFFSET_1, .rw, 0x0, 1, false⟩,
   ⟨Reg.THERM_REMOTE_OFFSET_OFFSET_0, .rw, 0x0, 1, false⟩,
   ⟨Reg.THERM_STATUS_TMAX, .ro, 0x0, 1, false⟩,
   ⟨Reg.THERM_STATUS_ON_DIE_VALID, .ro, 0x0, 1, false⟩,
   ⟨Reg.THERM_STATUS_STRETCHING, .ro, 0x0, 1, false⟩,
   ⟨Reg.THERM_STATUS_ENFORCED, .ro, 0x0, 1, false⟩,
   ⟨Reg.THERM_STATUS_GRACE, .ro, 0x0, 1, false⟩,
   ⟨Reg.THERM_STATUS_WARN, .ro, 0x0, 1, false⟩,
   ⟨Reg.THERM_STATUS_OWN_WARN, .ro, 0x0, 1, false⟩,
   ⟨Reg.THERM_VALID, .ro, 0xfff, 1, false⟩,
   ⟨Reg.THERM_TEMP_TEMP_ODD, .ro, 0x0, 7, true⟩,
   ⟨Reg.THERM_TEMP_TEMP_EVEN, .ro, 0x0, 7, true⟩,
   ⟨Reg.THERM_PEAK_LOW, .rc, 0x0, 1, false⟩,
   ⟨Reg.THERM_PEAK_HIGH, .rc, 0x0, 1, false⟩,
   ⟨Reg.THERM_STRETCH_LO, .ro, 0x0, 1, true⟩,
   ⟨Reg.THERM_STRETCH_HI, .ro, 0x0, 1, true⟩,
   ⟨Reg.THERM_WARNINGS, .ro, 0x0, 1, true⟩,
   ⟨Reg.THERM_ENFORCEMENTS, .ro, 0x0, 1, true⟩,
   ⟨Reg.THERM_HELD_BOUNDARIES, .ro, 0x0, 1, true⟩,
   ⟨Reg.THERM_BAD_SENSORS, .ro, 0x0, 1, true⟩]

/-- The register rows of spec/22_recorder.md (R380), RECORD. -/
def rowsRECORD : List Row :=
  [⟨Reg.RECORD_CFG_MIN_GAP, .rw, 0xa, 1, false⟩,
   ⟨Reg.RECORD_CFG_FAULT_EN, .rw, 0xf, 1, false⟩,
   ⟨Reg.RECORD_CMD_CLEAR_ACC, .wo, 0x0, 1, false⟩,
   ⟨Reg.RECORD_CMD_FLUSH, .wo, 0x0, 1, false⟩,
   ⟨Reg.RECORD_TAG, .rw, 0x0, 1, false⟩,
   ⟨Reg.RECORD_STATUS_NEXT_SLOT, .ro, 0x0, 1, false⟩,
   ⟨Reg.RECORD_STATUS_ERASED, .ro, 0x0, 1, false⟩,
   ⟨Reg.RECORD_STATUS_NO_DIR, .ro, 0x0, 1, false⟩,
   ⟨Reg.RECORD_STATUS_PENDING, .ro, 0x0, 1, false⟩,
   ⟨Reg.RECORD_STATUS_FLUSHING, .ro, 0x0, 1, false⟩,
   ⟨Reg.RECORD_STATUS_READY, .ro, 0x0, 1, false⟩,
   ⟨Reg.RECORD_HOURS, .ro, 0x0, 1, true⟩,
   ⟨Reg.RECORD_POWER_CYCLES, .ro, 0x0, 1, true⟩,
   ⟨Reg.RECORD_SEQ, .ro, 0x0, 1, true⟩,
   ⟨Reg.RECORD_LAST_LO, .ro, 0x0, 1, true⟩,
   ⟨Reg.RECORD_LAST_HI, .ro, 0x0, 1, true⟩,
   ⟨Reg.RECORD_FLUSHES, .ro, 0x0, 1, true⟩,
   ⟨Reg.RECORD_FLUSH_FAILS, .ro, 0x0, 1, true⟩,
   ⟨Reg.RECORD_DEFERRED, .ro, 0x0, 1, true⟩,
   ⟨Reg.RECORD_MERGED, .ro, 0x0, 1, true⟩]

/-- The register rows of spec/22_recorder.md (R381), NV. -/
def rowsNV : List Row :=
  [⟨Reg.NV_NV_CFG_SCK, .rw, 0x1, 1, false⟩,
   ⟨Reg.NV_NV_CFG_QUAD, .rw, 0x0, 1, false⟩,
   ⟨Reg.NV_NV_ID, .ro, 0x0, 1, false⟩,
   ⟨Reg.NV_NV_ADDR, .rw, 0x0, 1, false⟩,
   ⟨Reg.NV_NV_LEN, .rw, 0x0, 1, false⟩,
   ⟨Reg.NV_NV_CMD, .wo, 0x0, 1, false⟩,
   ⟨Reg.NV_NV_STATUS_REFUSED, .ro, 0x0, 1, false⟩,
   ⟨Reg.NV_NV_STATUS_BUSY, .ro, 0x0, 1, false⟩]

/-- The register rows of spec/23_calibration_bist.md (R393), CALIB. -/
def rowsCALIB : List Row :=
  [⟨Reg.CALIB_CMD_TARGET, .wo, 0x0, 1, false⟩,
   ⟨Reg.CALIB_CMD_OP, .wo, 0x0, 1, false⟩,
   ⟨Reg.CALIB_REF_TEMP, .rw, 0x640, 1, false⟩,
   ⟨Reg.CALIB_STATUS_REPAIR_COPY, .ro, 0x0, 1, false⟩,
   ⟨Reg.CALIB_STATUS_CAL_COPY, .ro, 0x0, 1, false⟩,
   ⟨Reg.CALIB_STATUS_CAL_LOADED, .ro, 0x0, 1, false⟩,
   ⟨Reg.CALIB_STATUS_RESULT, .ro, 0x0, 1, false⟩,
   ⟨Reg.CALIB_STATUS_BUSY, .ro, 0x0, 1, false⟩,
   ⟨Reg.CALIB_COUNT, .ro, 0x0, 1, false⟩,
   ⟨Reg.CALIB_LAST_HOURS, .ro, 0x0, 1, false⟩,
   ⟨Reg.CALIB_DELAY_FAIL, .ro, 0x0, 1, false⟩,
   ⟨Reg.CALIB_VIEW_SEL_SRC, .rw, 0x0, 1, false⟩,
   ⟨Reg.CALIB_VIEW_SEL_KIND, .rw, 0x0, 1, false⟩,
   ⟨Reg.CALIB_VIEW_SEL_INDEX, .rw, 0x0, 1, false⟩,
   ⟨Reg.CALIB_VIEW_DATA, .ro, 0x0, 1, false⟩]

/-- The register rows of spec/23_calibration_bist.md (R394), BIST. -/
def rowsBIST : List Row :=
  [⟨Reg.BIST_CMD_KEY, .wo, 0x0, 1, false⟩,
   ⟨Reg.BIST_CMD_DOMAIN, .wo, 0x0, 1, false⟩,
   ⟨Reg.BIST_CMD_KIND, .wo, 0x0, 1, false⟩,
   ⟨Reg.BIST_STATUS_DIRTY, .ro, 0x0, 1, false⟩,
   ⟨Reg.BIST_STATUS_REFUSE_CAUSE, .ro, 0x0, 1, false⟩,
   ⟨Reg.BIST_STATUS_DOMAIN, .ro, 0x0, 1, false⟩,
   ⟨Reg.BIST_STATUS_KIND, .ro, 0x0, 1, false⟩,
   ⟨Reg.BIST_STATUS_RESULT, .ro, 0x0, 1, false⟩,
   ⟨Reg.BIST_STATUS_BUSY, .ro, 0x0, 1, false⟩,
   ⟨Reg.BIST_FAIL_MASK, .ro, 0x0, 1, false⟩,
   ⟨Reg.BIST_SIG, .ro, 0x0, 1, false⟩,
   ⟨Reg.BIST_EXPECTED, .ro, 0x0, 1, false⟩,
   ⟨Reg.BIST_ELAPSED, .ro, 0x0, 1, false⟩,
   ⟨Reg.BIST_RUNS_FAILS, .ro, 0x0, 1, false⟩,
   ⟨Reg.BIST_RUNS_PASSES, .ro, 0x0, 1, false⟩]

/-- The register rows of spec/24_crossings.md (R404), EVCOL. -/
def rowsEVCOL : List Row :=
  [⟨Reg.EVCOL_EVCOL_CFG, .rw, 0x1, 1, false⟩,
   ⟨Reg.EVCOL_STATUS_QUEUE, .ro, 0x0, 1, false⟩,
   ⟨Reg.EVCOL_STATUS_PENDING, .ro, 0x0, 1, false⟩,
   ⟨Reg.EVCOL_QSEQ_NEXT, .ro, 0x0, 1, false⟩,
   ⟨Reg.EVCOL_LAST_LOST, .ro, 0x0, 1, false⟩,
   ⟨Reg.EVCOL_PEAK_QUEUE, .rc, 0x0, 1, false⟩,
   ⟨Reg.EVCOL_PEAK_PENDING, .rc, 0x0, 1, false⟩,
   ⟨Reg.EVCOL_MESSAGES, .ro, 0x0, 1, true⟩,
   ⟨Reg.EVCOL_MERGED, .ro, 0x0, 1, true⟩,
   ⟨Reg.EVCOL_LOST, .ro, 0x0, 1, true⟩,
   ⟨Reg.EVCOL_LATE, .ro, 0x0, 1, true⟩]

/-- The block types of the page map (R30). -/
inductive Blk where
  | sys | clk | pwr | therm | knife | time | evcol | record | calib | bist | diptych | banks | medium | vision | light | nv | dram | dtrain | link | enc | cam | head | brush | raster | glaze | laser | engine | step | ltport | axis | stream
  deriving DecidableEq, Repr

/-- What R30 and a block's own rule say of its pages: the first page, the number of pages, the domain code, PAGE_CAPS, the period of the
block's clock in tk (R34, R48) and the register rows after the common header. -/
structure BlkInfo where
  first : Nat
  count : Nat
  domain : Nat
  caps : Nat
  period : Nat
  rows : List Row

def blkInfo : Blk → BlkInfo
  | .sys => ⟨0x00, 1, 0, 0x00000007, 16, rowsSYS⟩
  | .clk => ⟨0x01, 1, 0, 0x0f18020b, 16, rowsCLK⟩
  | .pwr => ⟨0x02, 1, 0, 0x00000009, 16, rowsPWR⟩
  | .therm => ⟨0x03, 1, 0, 0x002c020b, 64, rowsTHERM⟩
  | .knife => ⟨0x04, 1, 0, 0x0004020b, 8, rowsKNIFE⟩
  | .time => ⟨0x05, 1, 0, 0x000f020c, 8, rowsTIME⟩
  | .evcol => ⟨0x06, 1, 0, 0x00080207, 16, rowsEVCOL⟩
  | .record => ⟨0x07, 1, 0, 0x00000208, 64, rowsRECORD⟩
  | .calib => ⟨0x08, 1, 0, 0x00000008, 16, rowsCALIB⟩
  | .bist => ⟨0x09, 1, 0, 0x00000007, 16, rowsBIST⟩
  | .diptych => ⟨0x0a, 1, 0, 0x0000020b, 8, rowsDIPTYCH⟩
  | .banks => ⟨0x0b, 1, 0, 0x00140209, 16, rowsBANKS⟩
  | .medium => ⟨0x0c, 1, 3, 0x0001330b, 8, rowsMEDIUM⟩
  | .vision => ⟨0x0d, 1, 6, 0x00006209, 16, rowsVISION⟩
  | .light => ⟨0x0e, 1, 7, 0x00007005, 64, rowsLIGHT⟩
  | .nv => ⟨0x0f, 1, 0, 0x00000007, 16, rowsNV⟩
  | .dram => ⟨0x10, 2, 8, 0x00018208, 16, rowsDRAM⟩
  | .dtrain => ⟨0x12, 1, 8, 0x00088007, 16, rowsDTRAIN⟩
  | .link => ⟨0x14, 4, 1, 0x001f120c, 16, (rowsLANE ++ rowsFRAME)⟩
  | .enc => ⟨0x18, 4, 5, 0x00005207, 8, rowsENC⟩
  | .cam => ⟨0x1c, 4, 6, 0x0004620a, 16, rowsCAM⟩
  | .head => ⟨0x20, 16, 2, 0x0007220e, 16, (rowsLANE ++ rowsHEAD)⟩
  | .brush => ⟨0x30, 16, 3, 0x0000330b, 8, rowsBRUSH⟩
  | .raster => ⟨0x40, 16, 3, 0x00003308, 8, rowsRASTER⟩
  | .glaze => ⟨0x50, 16, 3, 0x00003309, 8, rowsGLAZE⟩
  | .laser => ⟨0x60, 16, 2, 0x00002309, 8, rowsLASER⟩
  | .engine => ⟨0x70, 4, 4, 0x00104007, 8, rowsENGINE⟩
  | .step => ⟨0x74, 8, 5, 0x00005309, 64, rowsSTEP⟩
  | .ltport => ⟨0x7c, 4, 7, 0x0020720a, 64, rowsLTPORT⟩
  | .axis => ⟨0x80, 64, 4, 0x00004309, 8, rowsAXIS⟩
  | .stream => ⟨0xc0, 32, 6, 0x0000630c, 16, rowsSTREAM⟩

/-- Every block type, in page order. -/
def allBlks : List Blk :=
  [.sys, .clk, .pwr, .therm, .knife, .time, .evcol, .record, .calib, .bist, .diptych, .banks, .medium, .vision, .light, .nv, .dram, .dtrain, .link, .enc, .cam, .head, .brush, .raster, .glaze, .laser, .engine, .step, .ltport, .axis, .stream]

/-- The block a page belongs to; pages 0x13 and 0xE0 to 0xFF are reserved (R30). -/
def pageBlk (p : Nat) : Option Blk :=
  allBlks.find? fun b => decide ((blkInfo b).first ≤ p ∧ p < (blkInfo b).first + (blkInfo b).count)

/-- The register rows of a block, header included. -/
def blkRows (b : Blk) : List Row := headerRows ++ (blkInfo b).rows

/-- Whether a row has a field at page offset `o`, for one of its numbers. -/
def Row.covers (r : Row) (o : Nat) : Bool :=
  decide (r.fld.off ≤ o) && decide ((o - r.fld.off) % r.fld.stride = 0) && decide ((o - r.fld.off) / r.fld.stride < r.cnt)

/-- The bits of a field in its register. -/
def Fld.width (f : Fld) : Nat := f.hi - f.lo + 1

def Fld.mask (f : Fld) : Nat := (2 ^ f.width - 1) <<< f.lo

/-- The rows of page `p` at offset `o`. -/
def rowsAt (p o : Nat) : List Row :=
  match pageBlk p with
  | none => []
  | some b => (blkRows b).filter (·.covers o)

/-- The bits of the register at page `p`, offset `o` that have access type `a` (R5). -/
def accMask (p o : Nat) (a : Acc) : Nat :=
  (rowsAt p o).foldl (fun m r => if r.acc = a then m ||| r.fld.mask else m) 0

/-- Every bit of the register that some row gives a meaning; the others are reserved (R6). -/
def definedMask (p o : Nat) : Nat :=
  (rowsAt p o).foldl (fun m r => m ||| r.fld.mask) 0

/-- Whether the register is read through SNAPSHOT (R41). -/
def isSnap (p o : Nat) : Bool := (rowsAt p o).any (·.snap)

/-- PAGE_ID of a page (R32). -/
def pageId (p : Nat) : Nat :=
  match pageBlk p with
  | none => 0
  | some b => (blkInfo b).first * 0x10000 + (p - (blkInfo b).first) * 0x100 + 1

/-- PAGE_CAPS of a page (R32); a galvo axis shows BLOCK_CAPS[16] = 1 (R246). -/
def pageCaps (p : Nat) : Nat :=
  match pageBlk p with
  | none => 0
  | some b => (blkInfo b).caps + (if b = .axis ∧ p < 0x80 + 48 then 0x10000 else 0)

/-- EVENT_COUNT of a page (R32). -/
def eventCount (p : Nat) : Nat := pageCaps p % 64

/-- The power domain of a page (R30); a reserved page is served by PD_SYS. -/
def pageDomain (p : Nat) : Nat :=
  match pageBlk p with
  | none => 0
  | some b => (blkInfo b).domain

/-- The period in tk of the clock that R34, R39 and R43 count for a page. -/
def pagePeriod (p : Nat) : Nat :=
  match pageBlk p with
  | none => 16
  | some b => (blkInfo b).period

/-- The reset value of a register, by byte address in the register space (R32 and the register tables; R221 for the slot maps, R80 for
LANE_CTRL of a HEAD page, R246 for SOURCE of an auxiliary axis). -/
def resetWord (addr : Nat) : Word :=
  let p := addr / 0x1000
  let o := addr % 0x1000
  if o = 0 then BitVec.ofNat 32 (pageId p)
  else if o = 4 then BitVec.ofNat 32 (pageCaps p)
  else
    let base := (rowsAt p o).foldl (fun m r => m ||| (r.rst <<< r.fld.lo)) 0
    match pageBlk p with
    | some .head => BitVec.ofNat 32 (if o = Reg.LANE_LANE_CTRL_MAX_RATE.off then base - 1 else base)
    | some .axis => BitVec.ofNat 32 (if o = Reg.AXIS_SOURCE_SP_SRC.off ∧ 0x80 + 48 ≤ p then 1 else base)
    | some .engine =>
      let e := p - 0x70
      let w := (o - 0x40) / 4
      let b (j : Nat) : Nat := (0x80 + (if 4 * w + j < 12 then 12 * e + 4 * w + j else 48 + 4 * e + j)) <<< (8 * j)
      BitVec.ofNat 32 (if 0x40 ≤ o ∧ o < 0x50 ∧ o % 4 = 0 then b 0 + b 1 + b 2 + b 3 else base)
    | _ => BitVec.ofNat 32 base

/-! The page numbers (R30). -/
namespace Pg

abbrev SYS : Nat := 0x00
abbrev CLK : Nat := 0x01
abbrev PWR : Nat := 0x02
abbrev THERM : Nat := 0x03
abbrev KNIFE : Nat := 0x04
abbrev TIME : Nat := 0x05
abbrev EVCOL : Nat := 0x06
abbrev RECORD : Nat := 0x07
abbrev CALIB : Nat := 0x08
abbrev BIST : Nat := 0x09
abbrev DIPTYCH : Nat := 0x0a
abbrev BANKS : Nat := 0x0b
abbrev MEDIUM : Nat := 0x0c
abbrev VISION : Nat := 0x0d
abbrev LIGHT : Nat := 0x0e
abbrev NV : Nat := 0x0f
abbrev DRAM (k : Nat) : Nat := 0x10 + k
abbrev DTRAIN : Nat := 0x12
abbrev LINK (k : Nat) : Nat := 0x14 + k
abbrev ENC (k : Nat) : Nat := 0x18 + k
abbrev CAM (k : Nat) : Nat := 0x1c + k
abbrev HEAD (k : Nat) : Nat := 0x20 + k
abbrev BRUSH (k : Nat) : Nat := 0x30 + k
abbrev RASTER (k : Nat) : Nat := 0x40 + k
abbrev GLAZE (k : Nat) : Nat := 0x50 + k
abbrev LASER (k : Nat) : Nat := 0x60 + k
abbrev ENGINE (k : Nat) : Nat := 0x70 + k
abbrev STEP (k : Nat) : Nat := 0x74 + k
abbrev LTPORT (k : Nat) : Nat := 0x7c + k
abbrev AXIS (k : Nat) : Nat := 0x80 + k
abbrev STREAM (k : Nat) : Nat := 0xc0 + k
end Pg

end Sys2Proof.Machine
end

