-- ==== Sys2Proof/Machine/State.lean ====
section
/-! DEFINITION. The state of the block as plain data: its registers, its memories, the internal state of every subsystem, the queue of waiting
commands; the reasons a command can stop; and the state after power-on reset (R127 step 1). -/

namespace Sys2Proof.Machine

/-! ### Lanes, frames and the host ports (spec/04_lanes.md, spec/05_link_frames.md) -/

/-- A frame as its transmitter sends it (R82): TYPE, SEQ, FLAGS and the payload. -/
structure TxFrame where
  ty : Nat
  seq : Nat
  flags : Nat := 0
  payload : List Byte := []
  deriving DecidableEq, Repr

/-- An entry of a port's launch queue (R118, R119). -/
structure LaunchEntry where
  tick : Nat
  slip : Bool
  ty : Nat
  payload : List Byte
  late : Bool := false                     -- it has been counted late and waits for the line (R119)
  deriving DecidableEq, Repr

/-- A completion of a transaction that has taken effect, sent once it is ready (R89). -/
structure Cpl where
  tag : Nat
  op : Nat
  count : Nat
  data : List Byte
  arr : Nat                                -- receive stamp of its TXN
  ready : Nat := 0                         -- tick at which it becomes ready
  addr : Nat := 0                          -- where a READ read, and the tick at which it did (R353)
  taken : Nat := 0
  deriving DecidableEq, Repr

/-- A transaction that has been accepted and has not yet taken effect (R87, R313): its port, receive stamp, and the fields of its TXN. -/
structure Txn where
  port : Nat
  arr : Nat
  op : Nat
  tag : Nat
  addr : Nat
  count : Nat
  cross : Bool
  data : List Byte
  deriving DecidableEq, Repr

/-- An accepted rate step (R75). -/
structure RateStep where
  rate : Nat
  tick : Nat
  reqSent : Bool := false                  -- the CAP with STEP_REQ has been sent
  acked : Bool := false                    -- a CAP with STEP_ACK has been received
  quiet : Bool := false                    -- from T_s - 12,800 tk
  launched : Bool := false                 -- the CAP with STEP_GO has been launched
  held : Bool := false                     -- a partner's step has put the root PLL into hold at its tick (R52)
  deriving DecidableEq, Repr

/-- A running pattern generator (R78): its first bits, the oldest as bit 0, the tick from which it runs, and the places of the bits that
LOOP_CMD.INJECT has inverted. -/
structure PatternGen where
  seed : Nat
  since : Nat
  inverted : List Nat := []
  deriving DecidableEq, Repr

/-- The internal state of one of the twenty lanes; what the page shows is in its registers. -/
structure Lane where
  retries : Nat := 0                       -- consecutive failed bring-up attempts (R72)
  good : Nat := 0                          -- consecutive frames that passed their checks (R70)
  bad : Nat := 0                           -- consecutive frames that failed (R70)
  phaseAt : Nat := 0                       -- tick of entry into the present phase (R71)
  attemptAt : Nat := 0                     -- tick at which the attempt left IDLE (R72)
  patternAt : Option Nat := none           -- tick at which the clock pattern began, while the transmitter is not idle (R64, R71)
  patternDone : Bool := false              -- the clock pattern has been sent for its 40 µs (R71)
  capAt : Option Nat := none               -- tick of the latest CAP sent in this attempt (R71)
  capSeen : Bool := false                  -- a valid CAP of the partner has been received, so ACK is sent (R71)
  capAcked : Bool := false                 -- a CAP that acknowledges ours has been received (R71)
  rxAny : Bool := false                    -- a numbered frame has been accepted, so a gap in SEQ can be seen (R90)
  step : Option RateStep := none           -- the accepted rate step (R75)
  pstep : Option RateStep := none          -- a step asked for by the partner (R75)
  txSeq : Nat := 0                         -- SEQ of the latest frame sent that is numbered (R82)
  rxSeq : Nat := 0                         -- SEQ of the latest numbered frame accepted (R90)
  tx : Option (Nat × TxFrame) := none      -- the latest frame sent, with its transmit stamp (R105)
  endAt : Nat := 0                         -- end of the latest frame's last bit, in half ticks (R69)
  freeAt : Nat := 0                        -- end of the latest frame and its 32 UI gap, in half ticks (R66, R69)
  delimAt : Nat := 0                       -- tick at which the latest delimiter was found (R70)
  launches : List LaunchEntry := []        -- the launch queue, at most 8 entries (R118)
  waits : List (Nat × List Byte) := []     -- MIRROR, then MET payloads that wait for a peer line, with their TYPE (R85)
  cpls : List Cpl := []                    -- completions to be sent, in the order in which their effects came (R89)
  fences : List Txn := []                  -- fences that still wait (R89)
  gapPrev : Bool := false                  -- the latest bit of the gap the receiver searches; false before its first (R66)
  gen : Option PatternGen := none          -- the pattern generator, while GEN_EN = 1 (R78)
  chkSeed : Nat := 0                       -- the received bits the checker has seeded itself with, the oldest as bit 0 (R78)
  prbsAt : Nat := 0                        -- PRBS_BITS has been counted up to this tick (R78)
  prbsFirst : Bool := true                 -- no error has been counted since the last clear (R78)
  prbsSeen : Nat := 0                      -- bits checked since the checker came into sync (R78)
  chkPhase : Nat := 0                      -- quarters of a bit the lane's own generator stood past a bit as the checker came into sync on it (R78)
  prbsErrs : List Nat := []                -- at which of them the latest 65 errors stood, newest first (R78)
  deriving DecidableEq, Repr

/-- What a head port keeps beside its registers (R94, R98, R99). -/
structure Head where
  sumRt : Int := 0                         -- the sum of rt over the accepted sample A frames since UP (R94)
  nRt : Nat := 0                           -- how many of them
  missRun : Nat := 0                       -- consecutive frames without an accepted sample A (R98)
  healthy : Bool := false                  -- the link is healthy for the knife (R98)
  judgeFrom : Option Nat := none           -- first frame whose samples are judged since UP (R98)
  gotA : Option Nat := none                -- frame of the latest accepted sample A
  gotB : Option Nat := none                -- frame of the latest accepted sample B
  mbxSend : Bool := false                  -- MBX_OUT goes into the next HEAD_DN (R99)
  mbxMsg : Nat := 0                        -- MBX_OUT as it stood at MBX_CTRL.SEND
  mbxTag : Nat := 0                        -- TAG of the exchange in progress
  mbxAt : Nat := 0                         -- tick of MBX_CTRL.SEND, then of the HEAD_DN that carried the message
  dnTick : Nat := 0                        -- launch tick of the latest HEAD_DN (R94)
  pdA : Option (Nat × Nat) := none         -- frame and value of the latest photodiode sample A (R98)
  pdB : Option (Nat × Nat) := none         -- frame and value of the latest photodiode sample B
  deriving DecidableEq, Repr

/-! ### Time (spec/06_timebase.md) -/

/-- An accepted SYNC, kept with its receive stamp (R106, R110, R111). -/
structure SyncRec where
  origin : Nat
  corr : Int
  rx : Nat
  master : Nat
  interval : Int
  deriving DecidableEq, Repr

/-- A delay exchange in progress: SEQ_ID, launch tick and the SYNC it is paired with (R110). -/
structure DlyReq where
  seqId : Nat
  tick : Nat
  paired : SyncRec
  deriving DecidableEq, Repr

/-- A time frame waiting to be forwarded (R107). -/
structure Forward where
  out : Nat
  ty : Nat
  rx : Nat
  payload : List Byte
  deriving DecidableEq, Repr

/-- One time port (R110 to R112, R115). -/
structure TimePort where
  delay : Int := 0                         -- mean path delay in 2^-16 tk
  delayValid : Bool := false
  sync : Option SyncRec := none            -- the latest SYNC from the current master
  stepped : Int := 0                       -- steps of the timebase since it (R112, R113)
  reqs : List DlyReq := []                 -- the exchanges in progress
  newId : Nat := 0                         -- a foreign MASTER_ID being counted, and its consecutive SYNCs (R115)
  newRun : Nat := 0
  deriving DecidableEq, Repr

/-- The timebase and the time servo. -/
structure TimeSt where
  running : Bool := false                  -- the root clock runs (R103)
  now : Nat := 0                           -- the timebase value at which the latest command took place
  acc : Nat := 0                           -- time × 2^32 + fraction at the latest CLK_FAST edge (R103)
  rateAcc : Nat := 0                       -- the same at the CLK_FAST edge from which the present rate holds (R104)
  oldRate : Int := 0                       -- the rate before it
  cycles : Nat := 0                        -- CLK_FAST edges so far, which no rate, step or load of the timebase touches (R60)
  nextRate : Option Int := none            -- rate that takes effect at the next frame start (R104, R111, R121)
  nextStep : Option Int := none            -- servo step, in tk, for the next frame start (R111, R113)
  nextAdj : Option Int := none             -- host adjustment for the next frame start (R113)
  integ : Int := 0                         -- integ of R111
  master : Option Nat := none              -- the current master
  okRun : Nat := 0                         -- consecutive offsets below LOCK_THRESH (R114)
  badRun : Nat := 0                        -- consecutive offsets at or above it (R114)
  reqCount : Nat := 0                      -- running count of SEQ_ID[11:0] (R108)
  syncCount : Nat := 0                     -- SEQ_ID of SYNCs sent in master mode
  ports : Vector TimePort 4 := Vector.replicate 4 {}
  routes : Vector (Option Nat) 16 := Vector.replicate 16 none   -- R108
  forwards : List Forward := []
  deriving DecidableEq, Repr

/-! ### Clock generation (spec/03_clocking.md) -/

/-- A frequency measurement in progress (R60, R62): its source, instance, direction and gate exponent, latched at its start. -/
structure Fmeas where
  src : Nat
  inst : Nat
  dir : Nat
  gate : Nat
  start : Nat
  startC : Nat                             -- the same by `TimeSt.cycles`
  edges : Nat := 0                         -- edges of a source the block counts itself that the gate has taken
  opened : Nat := 0                        -- the first and the last of them by `TimeSt.cycles`, for DIR 1
  closed : Nat := 0
  gone : Bool := false                     -- the source has stopped, or its domain has been switched off (R62)
  deriving DecidableEq, Repr

structure ClkSt where
  qualSince : Vector (Option Nat) 4 := Vector.replicate 4 none  -- start of the unbroken qualification of a candidate (R50)
  freqOk : Vector Bool 4 := Vector.replicate 4 true             -- the latest complete monitor window read the candidate in range (R50)
  holdStart : Nat := 0                                          -- start of the present hold (R53)
  prevSel : Nat := 7                                            -- the candidate selected before the hold
  chain : Bool := false                                         -- the present hold follows an expired one (R53)
  locked : Bool := false                                        -- the root PLL has locked since PD_SYS was switched on (R64, R127)
  exiting : Bool := false                                       -- a candidate has returned and the PLL slews back (R59 step 2)
  primer : Option Nat := none                                   -- the candidate the primer sequence has taken (R50, R127)
  fmeas : Option Fmeas := none
  deriving DecidableEq, Repr

/-! ### Power and device state (spec/07_power_start.md) -/

/-- The device states of R24. -/
inductive DevState where
  | off | dormant | waking | linked | active | safeHold | shutdown
  deriving DecidableEq, Repr

/-- Where the primer sequence stands (R127): waiting for PG_IN (step 4), for the link (step 6), loading (step 7), or not running. -/
inductive Primer where
  | idle | waitPg | waitLink | load
  deriving DecidableEq, Repr

structure PwrSt where
  dev : DevState := .dormant
  primer : Primer := .idle
  pwrReq : Bool := false                   -- PWR_REQ pin
  pgIn : Bool := false                     -- PG_IN counts as high (R126)
  sysOn : Bool := false                    -- PD_SYS
  linkOn : Bool := false                   -- PD_LINK
  resetL : Bool := false                   -- RESET_L is held low (R133)
  restartDue : Bool := false               -- a device command waits for its 10 µs (R133)
  blanking : Bool := false                 -- the blanking delay after PWR_REQ falling runs (R125)
  wakeHeld : Option Nat := none            -- a wake event held by the blanking delay, by its CAUSE code
  wakeAt : Nat := 0                        -- the tick given with the wake event that acts or is held (R125)
  switching : Option (Nat × Bool) := none  -- the domain being switched, and whether on (R131)
  refused : List Nat := []                 -- requests refused since the latest write of DOMAIN_CTRL (R131)
  dirty : List Nat := []                   -- domains left DIRTY by BIST (R391)
  clockForce : Bool := false               -- the clock-free force of R55
  resetForce : Bool := false               -- the force of R133 and R128
  shutdownLatch : Bool := false            -- the shutdown latch (R368)
  dormantWait : Bool := false              -- a dormant command waits for its flush (R133)
  rolePin : Bool := false                  -- the DIPTYCH_ROLE strap as the primer read it (true: B)
  limitHeld : Bool := false                -- the step 6 limit does not run while the TAP holds it (R423)
  deriving DecidableEq, Repr

/-! ### Events (spec/24_crossings.md) -/

/-- Assertions of one source on their way to the sort buffer, or pending in it (R399, R400). -/
structure EvEntry where
  source : Nat
  stamp : Nat
  count : Nat
  late : Bool := false
  deriving DecidableEq, Repr

/-- A message of the host queue (R401). -/
structure EvMsg where
  qseq : Nat
  source : Nat
  stamp : Nat
  count : Nat
  late : Bool
  deriving DecidableEq, Repr

/-- How many entries a part of the collector has moved in a CLK_CORE cycle, by the number of that cycle (R400, R401). -/
structure CycleCount where
  cycle : Nat := 0
  n : Nat := 0
  deriving DecidableEq, Repr

structure EvcolSt where
  offers : List EvEntry := []              -- waiting in crossing 9, one per source (R399)
  sort : List EvEntry := []                -- the sort buffer, one per source (R400)
  scan : Nat := 0                          -- source number the rotating intake starts from (R400)
  queue : List EvMsg := []                 -- the host queue, oldest first (R401)
  taken : CycleCount := {}                 -- offers taken, and entries moved to the host queue
  moved : CycleCount := {}
  deriving DecidableEq, Repr

/-! ### Knife (spec/16_knife.md) -/

/-- One interlock: its two channel levels and its discrepancy state (R300, R301). -/
structure Ilk where
  a : Bool := false
  b : Bool := true
  discSince : Option Nat := none           -- since when it has been DISCREPANT without a break
  discDone : Bool := false                 -- DISCREPANCY has latched for the present departure
  stopSince : Option Nat := none           -- since when it has been in STOP
  stopOk : Bool := false                   -- since DISCREPANCY latched it has been in STOP for 1 ms
  deriving DecidableEq, Repr

/-- A recorded trip (R304). -/
structure Trip where
  tick : Nat
  brush : Nat
  cause : Nat
  deriving DecidableEq, Repr

/-- What a CLEAR found on a brush (R304): its tick, the causes latched, whether it cleared the last of them, and EVENT.CLEARED before. -/
structure ClearRec where
  tick : Nat
  causes : Nat
  last : Bool
  event : Bool
  deriving DecidableEq, Repr

structure KnifeSt where
  ilk : Vector Ilk 4 := Vector.replicate 4 {}
  armAt : Vector (Option Nat) 16 := Vector.replicate 16 none    -- tick of the ARM_SET whose permit has not yet begun (R305)
  permitted : Vector Bool 16 := Vector.replicate 16 false       -- the permit of the latest ARM_SET has begun (R305)
  causeAt : Vector Nat 16 := Vector.replicate 16 0              -- tick of the latest cause latched, for the same-cycle rule of R304
  live : Option Trip := none                                    -- the live trip record (R304)
  clears : Vector (Option ClearRec) 16 := Vector.replicate 16 none   -- the latest CLEAR that acted on a brush, for the same rule
  deriving DecidableEq, Repr

/-! ### Diptych (spec/17_diptych.md) -/

/-- An accepted MIRROR KIND 2 of the partner (R315). -/
structure Beat where
  frame : Nat
  mcount : Nat
  warn : Bool
  declare : Bool
  ready : Bool
  form : Bool
  digest : Nat
  deriving DecidableEq, Repr

structure DipSt where
  beats : List Beat := []                  -- accepted and not yet compared, first copy of each frame
  latest : Option Beat := none             -- the partner's latest KIND 2
  formF : Option Nat := none               -- F, 64 bits (R312)
  echoed : Bool := false                   -- A has accepted B's echo of F
  declareDue : Bool := false               -- A sets DECLARE in its next KIND 2 (R318)
  declared : Bool := false                 -- A has launched DECLARE and released ACTIVE_L
  barred : Bool := false                   -- B sets READY = 0 (R316)
  queue : List Txn := []                   -- transactions that wait for their application tick (R313)
  seen : List (Nat × Nat) := []            -- (ARR, SRC_PORT) of mirrors already taken on B (R313), newest first
  digests : List (Nat × Nat × Nat) := []   -- frame, own D(n) and own MCOUNT of the latest frames (R315)
  windowFrom : Nat := 0                    -- the last cut at which the partner's heartbeat was present (R319)
  late : Bool := false                     -- B is late (R313)
  deriving DecidableEq, Repr

/-! ### Recorder and NV port (spec/22_recorder.md) -/

/-- A flush in progress (R374). -/
structure Flush where
  trig : Nat
  merged : Nat
  slot : Nat
  seq : Nat
  start : Nat
  taken : Nat                              -- the tick of the capture, as the record and LAST name it
  deriving DecidableEq, Repr

/-- The commands of the NV port (R378). -/
inductive NvOp where
  | read | program | erase
  deriving DecidableEq, Repr

/-- A host NV command in progress: its kind, NV address, length and start. -/
structure NvCmd where
  op : NvOp
  addr : Nat
  len : Nat
  start : Nat
  deriving DecidableEq, Repr

structure RecSt where
  pending : Nat := 0                       -- TRIGGER bits of the pending request (R373)
  merged : Nat := 0                        -- triggers merged into it
  flush : Option Flush := none
  lastStart : Option Nat := none           -- start of the previous flush (R374)
  accHours : Nat := 0                      -- ACC_HOURS (R370)
  seen : List Nat := []                    -- extremes of the accumulators that have taken a value since they were cleared
  ringSlots : Nat := 0                     -- from the directory (R376); 0 while no directory is known
  ringBase : Nat := 0
  markBase : Nat := 0
  markSectors : Nat := 0
  nvType : Nat := 0
  addrBytes : Nat := 0                     -- ADDR_BYTES: 3 or 4, which picks the commands of R378
  version : Nat := 0
  dir : Bool := false                      -- the directory has passed its check at the cold start (R377)
  erasing : Option (Nat × Nat) := none     -- NV address and start of the background erase in progress (R375)
  suspended : Bool := false                -- an erase is suspended for a flush
  markNext : Nat := 0                      -- place of the next marker, counted in markers over the whole area (R375)
  markErase : Option Nat := none           -- NV address of a marker sector due for its erase
  hoursAt : Nat := 0                       -- tick up to which operating hours have been counted (R372)
  host : Option NvCmd := none              -- host NV command in progress (R378)
  imageKnown : Bool := false               -- the capture image has been written since PD_SYS was switched on (R370)
  bufKnown : List Nat := []                -- words of the NV buffer that have been written since then
  nv : List (Nat × Byte) := []             -- contents of the NV device
  deriving DecidableEq, Repr

/-! ### Sheets and sequencers (spec/08_canvas_sheets.md, spec/09_stroke_sequencer.md) -/

/-- A point or a triple of axis values. -/
structure P3 where
  x : Int := 0
  y : Int := 0
  z : Int := 0
  deriving DecidableEq, Repr

/-- A sheet as one brush has fetched it: the header's common fields and the brush's own entry (R155). -/
structure Sheet where
  seq : Nat                                -- place in the chain, counted by the brush
  addr : Nat
  id : Nat
  takesPart : Bool                         -- the brush's bit of BRUSH_MASK
  medium : Bool                            -- ANCHOR_KIND
  anchor : Nat                             -- 48 bits
  next : Nat                               -- NEXT, 0 while none is linked
  list : Nat
  records : Nat
  gridSet : Nat
  gridId : Nat
  palSet : Nat
  palId : Nat
  glzSet : Nat
  glzId : Nat
  pen : P3
  penSet : Bool
  tiles : Nat
  boundary : Option Nat := none            -- b, once it is known (R157)
  eff : Nat := 0                           -- tick from which it is in force: b, or later for a late sheet (R159)
  held : Option Nat := none                -- the boundary it had before thermal enforcement held it (R367)
  deriving DecidableEq, Repr

/-- A stroke record decoded from its 32 bytes (R144, R146, R147): the common fields, and its words 1 to 7. -/
structure Rec where
  op : Nat
  oparg : Nat
  cls : Nat
  gate : Bool
  reanchor : Bool
  medium : Bool
  start : Int                              -- uint44 tk or int48 cu
  power : Nat
  w1 : Nat
  w2 : Nat
  w3 : Nat
  w4 : Nat
  w5 : Nat
  w6 : Nat
  w7 : Nat
  deriving DecidableEq, Repr

/-- An open seam (R153, R200): its absolute window and the counted records still to come. -/
structure Seam where
  out : Bool
  o : Int
  c : Int
  left : Nat
  deriving DecidableEq, Repr

/-- A timed record with its start tick: the sheet it belongs to, its stroke index, its place in the list, the pen it starts from, the span its
sheet is in force, and the seam that weights it (R149, R150, R157). -/
structure Up where
  sheet : Nat
  ord : Nat
  idx : Nat
  ts : Nat
  beg : Nat                                -- ts, or the end of the record in front of it where that is later (R177)
  dur : Nat
  eff : Nat
  cutoff : Option Nat := none              -- the boundary that ends its sheet, once known
  pen : P3
  lap : Nat := 0                           -- branches of refetched loops taken before it (R162)
  seam : Option Seam := none
  conf : Bool := false                     -- its start is reached before the timed record in front of it ends (R177)
  r : Rec
  deriving DecidableEq, Repr

/-- What has been decided of a timed record (R163, R177 to R180): whether it is a miss, and the frame start F from which it is withdrawn. -/
structure Dec where
  sheet : Nat
  ord : Nat
  skip : Bool
  wF : Option Nat := none
  pend : Bool := false                     -- the cut of its settle check is still to come (R180)
  need : Bool := false                     -- BALANCED makes the check (R179)
  deriving DecidableEq, Repr

/-- A block of 64 records in a window, or requested for it (R161). -/
structure FBlock where
  sheet : Nat
  blk : Nat
  slot : Nat
  arrived : Option Nat := none             -- tick of arrival
  lap : Nat := 0                           -- branches of refetched loops the path had taken when it asked for it (R162)
  deriving DecidableEq, Repr

/-- One fetch path (R161, R162). -/
structure Path where
  sheet : Nat := 0                         -- the sheet being fetched, by its place in the chain
  idx : Nat := 0                           -- the next record to fetch
  pass : Nat := 0                          -- the path's own pass counter
  lap : Nat := 0                           -- branches of refetched loops it has taken in the sheet
  ended : Bool := false                    -- the list's end has been fetched
  branching : Bool := false                -- it stands in a resident loop body that branches every time
  blocks : List FBlock := []
  deriving DecidableEq, Repr

/-- A medium position a brush has entered into the target table, in list order, and its tick once frozen (R198). -/
structure Reach where
  sheet : Nat
  pos : Int
  tick : Option Nat := none
  deriving DecidableEq, Repr

/-- Where target entry stands in a list (R198): sheet, record, pass, medium anchor, and how many loop branches it is ahead of execution. -/
structure Entry where
  sheet : Nat := 0
  idx : Nat := 0
  pass : Nat := 0
  am : Int := 0
  ahead : Nat := 0
  lap : Nat := 0                           -- branches of refetched loops it has passed in the sheet
  full : Bool := false                     -- a target the brush needs is not in the table, which is full: both fetch paths pause
  deriving DecidableEq, Repr

/-- A one-axis move of the profile generator (R247 to R252): position, velocity, acceleration in 2^-24 of a position unit, and its target. -/
structure Gen where
  pos : Int := 0
  vel : Int := 0
  acc : Int := 0
  deriving DecidableEq, Repr

structure Brush where
  hdrFetch : Option Nat := none            -- header address being fetched
  chain : Bool := false                    -- a chain has been started whose first sheet has not yet taken effect (R182)
  badHeader : Bool := false                -- a header failed its check; FAULT at the next frame start (R156)
  seq : Nat := 0                           -- sheets fetched since STARTING
  force : Option Sheet := none             -- the sheet in force
  queue : List Sheet := []                 -- fetched and checked, waiting for their boundaries
  gone : List Sheet := []                  -- sheets no longer in force of which `past` still holds records
  idx : Nat := 0                           -- the next record execution comes to
  ended : Bool := false                    -- the list has ended (R154)
  ord : Nat := 0                           -- stroke index of the next timed record
  anchorT : Nat := 0
  anchorM : Int := 0
  pen : P3 := {}
  cur : Option Up := none                  -- the timed record in progress
  past : List Up := []                     -- ended records whose edges or powers may still be due, newest first
  early : List Up := []                    -- older ended records of the sheet in force, newest first (R159)
  lap : Nat := 0                           -- branches of refetched loops execution has taken in the sheet (R162)
  named : Bool := false                    -- a sheet has named sets since the brush's reset (R143)
  prevEnd : Nat := 0                       -- end of the latest timed record or wait
  lastStop : Option Nat := none            -- end of the latest timed record of the sheet in force
  decs : List Dec := []                    -- newest last
  flowUntil : Option Nat := none           -- FLOW skips records whose fetch deadline lies before this tick (R179)
  settleNext : Bool := true                -- BALANCED checks the next emitting record (R179)
  settleSheet : Nat := 0                   -- the sheet of the latest record a cut has come to
  seam : Option Seam := none
  pathA : Path := {}
  pathB : Path := {}
  reach : List Reach := []
  entry : Entry := {}
  log : List (Nat × Nat) := []             -- start ticks and stroke indices, newest first (R185); index 2^32 - 1 marks a boundary
  outside : Bool := false                  -- the latest set-point was clamped (R140)
  started : Bool := false                  -- STARTING counts frames (R181)
  parkSet : Bool := false                  -- STARTING has written its park set-points
  startFrames : Nat := 0
  parkFrames : Nat := 0                    -- frames of STOPPING so far (R183)
  parkOk : Nat := 0                        -- consecutive cuts within SETTLE_TOL once the profile has arrived
  parkDone : Bool := false                 -- the parking profile has arrived
  park : Vector Gen 3 := Vector.replicate 3 {}
  lastSp : P3 := {}                        -- the last set-point written, and the one before it
  prevSp : P3 := {}
  spFrame : Nat := 0                       -- the engine frame the last set-point was written for
  pollFrame : Nat := 0                     -- frame of the latest read of NEXT (R158)
  pollAt : Option Nat := none              -- and its tick, where it was read by itself (R353)
  stretch : Nat := 0                       -- what thermal holds have added to the chain's anchors (R367)
  deriving DecidableEq, Repr

/-- A rectangle of the open tile (R217): its CRC register before the final inversion, and its pixel count. -/
structure Rect where
  crc : Nat := 0xFFFFFFFF
  count : Nat := 0
  deriving DecidableEq, Repr

/-- A rectangle whose pixel count is complete (R217). -/
structure SwDue where
  rect : Nat
  tile : Nat
  got : Nat
  expected : Nat
  stamp : Nat
  deriving DecidableEq, Repr

/-- The line of a RASTER_LINE in the ring (R211): its sheet and record, its granules, where in the ring it starts, and the byte of the tile's
line it starts with. -/
structure RLine where
  sheet : Nat
  idx : Nat
  granules : Nat
  pos : Nat := 0
  off : Nat := 0
  lap : Nat := 0                           -- branches of refetched loops before the pass it was fetched for (R162)
  deriving DecidableEq, Repr

/-- The RASTER_LINE in progress (R213): its record, tile directory and palette set, and whether it is skipped. -/
structure RCur where
  u : Up
  tiles : Nat
  palSet : Nat
  skip : Bool
  deriving DecidableEq, Repr

structure Raster where
  descs : List (Nat × Nat) := []           -- tile directory and tile of each held descriptor, latest used first (R211)
  lines : List RLine := []                 -- oldest first
  ringPos : Nat := 0                       -- the granule the next line is written to
  tile : Option (Nat × Nat) := none        -- tile directory and tile of the open tile (R213)
  lastTile : Option (Nat × Nat) := none
  rects : Vector Rect 8 := Vector.replicate 8 {}
  cur : Option RCur := none
  px : Nat := 0                            -- pixels of the line in progress that have been taken
  since : Option Nat := none               -- BRUSH_n and RASTER_n have both been ON since that tick, so that pixels are exposed
  spans : List (Nat × Nat) := []           -- the earlier spans of that kind since the line began
  bad : Bool := false                      -- some pixel of the line has not been exposed
  closeAt : Option Nat := none             -- the tile's last line has ended (R213)
  due : List SwDue := []
  deriving DecidableEq, Repr

/-- A camera record held for an ROI (R291): its metrics, and the frame from which it is fresh. -/
structure MetHeld where
  area : Nat
  peak : Nat
  integral : Nat
  frame : Nat
  deriving DecidableEq, Repr

structure Glaze where
  f : Nat := 0x4000
  miss : Nat := 0
  back : Bool := false                     -- the factor returns to 1.0 after missing metrics
  trims : Vector Int 16 := Vector.replicate 16 0
  esum : Vector Int 16 := Vector.replicate 16 0
  en : Vector Nat 16 := Vector.replicate 16 0
  setUsed : Option (Nat × Nat × Bool) := none   -- the sheet of the latest latch, its set, and whether that counts as in use (R294)
  openRec : Option (Nat × Nat × Nat) := none    -- sheet, stroke index and end of the record that is open (R293)
  held : Vector (Option MetHeld) 8 := Vector.replicate 8 none
  fallback : Bool := false                 -- camera fallback is in force
  deriving DecidableEq, Repr

/-- An edge of a gate timer: its tick and its kind, coded as in R315 (0: GATE rise; 1: GATE fall; 2: PSYNC rise; 3: PSYNC fall). -/
structure Edge where
  tick : Nat
  kind : Nat
  deriving DecidableEq, Repr

/-- A laser port. -/
structure Laser where
  gA : Bool := false
  gB : Bool := false
  pA : Bool := false
  pB : Bool := false
  gatePin : Bool := false
  psyncPin : Bool := false
  gateSince : Nat := 0
  drive : Bool := false                    -- the pins follow their timers (R303)
  gateWait : Bool := false                 -- the opening rule holds GATE low
  psyncWait : Bool := false
  edgesA : List Edge := []                 -- edges loaded into timer A
  edgesB : List Edge := []
  unpaired : List (Bool × Edge) := []      -- edges of one timer (true: A) that wait for their partner (R170)
  words : List (Nat × Nat) := []           -- power words formed by glaze, with their latch ticks (R292)
  burst : Option (Nat × Nat) := none       -- the latch tick and word of the burst in progress (R174)
  bursts : List Nat := []                  -- the latch ticks of the latest bursts, newest first (R315)
  sent : Nat := 0                          -- words latched in STARTING or STOPPING (R187)
  strobe : Option Nat := none              -- the latch tick of the strobe sent last (R174)
  issued : Vector (Option (Nat × Nat)) 4 := Vector.replicate 4 none   -- count t_k and tap of the latest edge of GATE A, GATE B, PSYNC A, PSYNC B (R169)
  readyIn : Bool := false
  faultIn : Bool := false
  deriving DecidableEq, Repr

/-! ### The moving medium (spec/10_moving_medium.md) -/

/-- An encoder port: the filtered levels at its balls, which no reset touches (R202), and what it counts with. -/
structure Enc where
  a : Bool := false
  b : Bool := false
  z : Bool := false
  lastEdge : Option Nat := none            -- stamp of the latest counted edge (R189)
  armed : Bool := false                    -- the Z input is armed (R190)
  deriving DecidableEq, Repr

/-- A medium sample word (R189): COUNT, as an unsigned 48-bit number, and AGE. -/
structure MSample where
  count : Nat
  age : Nat
  deriving DecidableEq, Repr

/-- A target of the reach table (R197, R198). -/
structure Target where
  pos : Int
  tick : Option Nat := none
  evalFrame : Option Nat := none           -- the latest frame in which it was evaluated without being frozen
  deriving DecidableEq, Repr

structure MediumSt where
  c64 : Int := 0
  c48 : Nat := 0
  p : Int := 0
  v : Int := 0
  frame : Nat := 0                         -- the frame of p and v
  init : Bool := false                     -- STARTING has taken its first sample (R193)
  left : Nat := 0                          -- frames of STARTING still to run
  targets : List Target := []
  samples : Vector (Option MSample) 4 := Vector.replicate 4 none
  samplesOf : Nat := 0                     -- the frame the samples belong to
  samplesPrev : Vector (Option MSample) 4 := Vector.replicate 4 none   -- the samples of the frame before it (R225, R226)
  mirror : Option (Nat × List (Option MSample)) := none   -- the first KIND 1 accepted for the latest frame (R195)
  own64 : Int := 0                         -- extended count of the device's own port
  ownInit : Bool := false
  own48 : Nat := 0
  offsetD : Option Int := none             -- D of R195
  deriving DecidableEq, Repr


/-! ### Calibration, self-test, thermal (spec/21_thermal.md, spec/23_calibration_bist.md) -/

/-- A calibration run in progress (R387): its OP, target and start, and what a SENSOR run has summed. -/
structure CalRun where
  op : Nat
  target : Nat
  start : Nat
  rounds : Nat := 0
  sums : List Int := []
  deriving DecidableEq, Repr

/-- The values in force that a field run or a loaded record has replaced; everything unlisted has its factory value (R383, R387). -/
structure CalSt where
  run : Option CalRun := none
  cells : List (Nat × Nat) := []           -- delay-line step (R384) to its selection
  offsets : List (Nat × Int) := []         -- on-die sensor to its offset
  segs : List (Nat × Nat) := []            -- lane to SEG_N and SEG_P
  brushValid : Nat := 0                    -- VALID bits of the values in force (R389)
  laneValid : Nat := 0
  sensorValid : Bool := false
  count : Nat := 0                         -- COUNT of the record in force or of the latest save (R389)
  copy : Nat := 0                          -- the record copy in use
  calAddr : Nat := 0                       -- from the directory (R376)
  repairAddr : Nat := 0
  repairs : List (Nat × Nat) := []         -- the repair list in use: bank and row (R385)
  deriving DecidableEq, Repr

/-- A BIST run in progress (R390). -/
structure BistRun where
  kind : Nat
  dom : Nat
  start : Nat
  deriving DecidableEq, Repr

structure ThermSt where
  qm : List (Nat × Int × Int) := []        -- q_s and m_s of R363, by on-die sensor
  dead : List Nat := []                    -- sensors made invalid
  hot : Nat := 0                           -- consecutive rounds at or above 125 °C (R368)
  graceFrom : Option Nat := none           -- frame whose cut started the grace time (R365)
  release : Option Nat := none             -- c: the cut at which the latest enforcement ended (R367)
  held : List Nat := []                    -- the boundaries that are held (R367)
  enforcedAt : Option Nat := none          -- the cut at which the latest enforcement began (R365)
  shutAt : Option Nat := none              -- d of R368
  peakSeen : Bool := false                 -- PEAK has taken a value since it was read
  deriving DecidableEq, Repr


/-! ### Servo engines (spec/12_servo.md) -/

/-- The state of one biquad section (R229). -/
structure Bq where
  x1 : Int := 0
  x2 : Int := 0
  w1 : Int := 0
  w2 : Int := 0
  deriving DecidableEq, Repr

/-- The loop state of an axis (R228); its latest result stands in the live group of its page. -/
structure Axis where
  rs : Int := 0
  r1 : Int := 0
  vr1 : Int := 0
  ed1 : Int := 0
  df : Int := 0
  y1 : Int := 0
  y2 : Int := 0
  i : Int := 0
  hi : Bool := false
  lo : Bool := false
  bq : Vector Bq 8 := Vector.replicate 8 {}
  x : Int := 0                             -- x before the biquads, of the latest computed frame (R243)
  inj : Int := 0                           -- the value injected in the latest computed frame (R244)
  cmd : Int := 0                           -- the command of the latest result
  final : Int := 0                         -- the command final at the latest cut (R223)
  aux : Int := 0                           -- what an outer loop takes from it (R231)
  ready : Bool := false                    -- initialised: ON from the next engine frame (R238)
  left : Option Nat := none                -- computed frames of STOPPING still to run (R239)
  lastFrame : Option Nat := none           -- the engine frame whose HEAD_DN carries its final zero command (R239)
  overran : Bool := false                     -- its slot does not finish in time in the present engine frame (R233)
  fe : Option (Fin 16) := none             -- the brush of an axis with abs(e) > FE_LIMIT in the present engine frame (R241)
  atCut : Option (Nat × Nat) := none       -- the engine frame and F_k, where the cut will tell whether its slot has finished in time (R233)
  pend : Nat := 0                          -- FAULT_CAUSE the cut will fault it with; 0: none
  deriving DecidableEq, Repr

structure Engine where
  count : Nat := 0                         -- trace records written since arming (R243)
  post : Nat := 0                          -- trace records still to be written once the trigger has fired
  prbs : Nat := 0x7FFF                     -- the PRBS15 register (R244)
  traceDue : Option Nat := none            -- the engine frame whose trace waits for the cut (R233, R243)
  deriving DecidableEq, Repr

/-! ### Steppers (spec/13_profiles_steppers.md) -/

structure Stepper where
  g : Gen := {}
  tick : Nat := 0                          -- the latest plan tick q
  target : Int := 0
  writes : List (Nat × Int) := []          -- targets written and not yet taken, with the ticks of their writes, oldest first (R254)
  vNow : Int := 0                          -- the generator's v at the latest plan tick, and at the one before it (R261)
  vWas : Int := 0
  ia : Int := 0                            -- the phase currents of the down frame (R260)
  ib : Int := 0
  down : List Nat := []                    -- the words of the latest down frame (R257); none while no bursts run
  checked : Bool := true                   -- the up frame of the latest burst has been checked
  run : Nat := 0                           -- consecutive accepted up frames in STARTING (R263)
  rest : Bool := false                     -- gen_step has returned 1 with stop = 1
  hold : Nat := 0                          -- plan ticks at full current since then (R263)
  off : Nat := 0                           -- bursts sent with DRIVE_EN = 0 at the end of STOPPING
  ia1 : Int := 0                           -- the currents of the previous accepted up frame (R261)
  ib1 : Int := 0
  df : Int := 0
  stalled : Bool := false                  -- a stall has been declared since STALL_RUN was last 0 (R262)
  cut : Bool := false                      -- a reset ended its bursts, and STARTING has not begun since (R398)
  deriving DecidableEq, Repr


/-! ### Vision (spec/14_vision.md) -/

/-- The accumulators of one region of interest (R272). -/
structure Roi where
  peak : Nat := 0
  area : Nat := 0
  integ : Nat := 0
  sw : Nat := 0
  su : Nat := 0
  sv : Nat := 0
  suu : Nat := 0
  svv : Nat := 0
  suv : Nat := 0
  sat : Bool := false
  hist : List Nat := List.replicate 64 0
  deriving DecidableEq, Repr

/-- A frame of a context, from its FS until its records are complete (R268, R275). -/
structure VFrame where
  id : Nat
  fsTime : Nat
  fn : Nat
  seq : Nat                                -- s of R275
  setId : Nat
  mid : Nat                                -- mid-exposure tick (R276)
  noTrig : Bool
  resynced : Bool
  throttled : Bool                         -- neither processed nor stored (R283)
  black : Nat                              -- BLACK and MERGE as they act on it (R274)
  ratio : Nat
  knee : Nat
  slot : Option Nat                        -- the storage slot it goes to (R282)
  ended : Bool := false
  truncated : Bool := false
  lineLost : Bool := false
  crcErr : Bool := false
  lineShort : Bool := false
  extraLine : Bool := false
  seen : Nat := 0                          -- line packets so far
  lines : Nat := 0                         -- lines received
  rois : List Roi := []
  deriving DecidableEq, Repr

/-- A long packet in a port's input buffer (R267). -/
structure Packet where
  ctx : Nat
  frame : Nat
  line : Nat
  pos : Nat                                -- byte of the buffer at which it begins
  bytes : List Byte
  deriving DecidableEq, Repr

/-- What a camera port holds beside its buffer: the byte at which the next packet begins, and the tick of the latest packet on its lanes. -/
structure CamPort where
  pos : Nat := 0
  packetAt : Option Nat := none
  deriving DecidableEq, Repr

/-- A stored image that waits to be sent (R282): its slot, sequence number and length. -/
structure Img where
  slot : Nat
  seq : Nat
  len : Nat
  deriving DecidableEq, Repr

/-- BLACK and MERGE from trigger `seq` on (R274). -/
structure PipeSet where
  seq : Nat
  black : Nat
  ratio : Nat
  knee : Nat
  deriving DecidableEq, Repr

/-- A line of a merge ring: sequence number, line, its place in the ring and linearised values (R271). -/
structure MergeLine where
  seq : Nat
  line : Nat
  slot : Nat
  vals : List Nat
  deriving DecidableEq, Repr

structure Stream where
  nextId : Nat := 0
  frames : List VFrame := []               -- oldest first; only the last can be open
  seq0 : Nat := 0                          -- S0 (R275)
  prevSeq : Option Nat := none
  fnPrev : Nat := 0                        -- the latest non-zero frame number
  sets : List PipeSet := []                -- newest first
  ring : List MergeLine := []              -- oldest first
  nextSlot : Nat := 0
  imgs : List Img := []                    -- queued images, oldest first
  sending : Option (Img × Nat) := none     -- the image being sent, and its next OFFSET
  deriving DecidableEq, Repr

/-- An entry of a trigger log (R273). -/
structure TrigLog where
  seq : Nat
  tick : Nat
  width : Nat
  setId : Nat
  delay : Int
  deriving DecidableEq, Repr

/-- A trigger output. -/
structure Trig where
  seq : Nat := 0                           -- the owner's sequence counter
  next : Option Nat := none                -- the next periodic launch
  oneshot : Option Nat := none             -- a queued one-shot launch
  endAt : Option Nat := none               -- a pulse is being driven until then
  log : List TrigLog := []                 -- newest first, at most 64
  deriving DecidableEq, Repr

/-- A complete frame whose records are not all ready yet (R279): its class, FS_TIME, context and full records. -/
structure DoneFrame where
  cls : Nat
  fsTime : Nat
  ctx : Nat
  recs : List (List Byte)
  deriving DecidableEq, Repr

structure VisionSt where
  complete : List DoneFrame := []
  queue : List (Nat × List Byte) := []     -- the release queue: ready tick and short record, in order
  batches : List (Nat × List (List Byte)) := []   -- batches formed and not yet delivered
  met : Option (Nat × List (List Byte)) := none   -- the first MET accepted for the latest frame (R280)
  deriving DecidableEq, Repr


/-! ### Inspection lighting (spec/18_light.md) -/

/-- An entry of a light port's command FIFO (R328). -/
structure LtCmd where
  data : Nat
  head : Nat                               -- BCAST and ADDR, CMD and INDEX where word 0 has them
  after : Bool                             -- pushed with AFTER_SYNC = 1
  wait : Bool                              -- it still waits for the next sync to be sent
  deriving DecidableEq, Repr

/-- An entry of the response FIFO (R331). -/
structure LtResp where
  data : Nat
  ans : Bool
  addr : Nat
  index : Nat
  deriving DecidableEq, Repr

/-- What a burst brings with its return beside the ring check (R327, R330 to R332): a sync its SYNC_DONE, a READ of the host its answer, a poll
the temperature of driver `k`, an ID read the address of driver `k`. -/
inductive LtKind where
  | plain
  | sync
  | host
  | poll (k : Nat)
  | id (k : Nat)
  deriving DecidableEq, Repr

/-- A burst whose return is still to come: its last rising edge, its words 0 and 1, and the words that return. -/
structure LtBack where
  kind : LtKind
  lastEdge : Nat
  w0 : Nat
  w1 : Nat
  r0 : Nat
  r1 : Nat
  r2 : Nat
  deriving DecidableEq, Repr

/-- A light port. -/
structure LtPort where
  cmds : List LtCmd := []                  -- at most 64
  syncs : List Nat := []                   -- the sync queue: ticks v, at most 4
  resps : List LtResp := []                -- at most 16
  sub : Nat := 0                           -- WRITEs already sent of a broadcast CURRENT at the FIFO's head (R329)
  polled : Nat := 0                        -- bit k: driver k has given a valid temperature (R329)
  next : Nat := 0                          -- the driver polled next
  pollAt : Nat := 0                        -- tick of the latest poll due
  pollDue : Bool := false
  nopDue : Bool := false
  lastEnd : Option Nat := none             -- last rising edge of the latest burst
  line : Option (Nat × Nat × Nat) := none  -- the latest burst: its start, and words 0 and 1 (R323)
  back : Option LtBack := none             -- the return still to come (R331)
  fails : Nat := 0                         -- consecutive failed returns (R331)
  idNext : Nat := 0                        -- STARTING: the address whose ID is read next (R332)
  idOk : Bool := true                      -- every answer of this round matched
  rounds : Nat := 0                        -- failed rounds
  idDone : Bool := false
  off : Nat := 0                           -- bursts left that turn the drivers off (R332)
  deriving DecidableEq, Repr

/-! ### Memory banks and DRAM (spec/19_onchip_memory.md, spec/20_dram.md) -/

/-- The background test (R340). -/
structure BankTest where
  bank : Nat := 0                          -- the bank and row it visits next
  row : Nat := 0
  active : Bool := false
  lastStart : Option Nat := none
  marchAt : Nat := 0                       -- ticks at which the row in progress comes to MARCH and to RESTORE, which the spec leaves open
  restoreAt : Nat := 0
  deriving DecidableEq, Repr

/-- The words of BANK_XCH one of its ports has written in a CLK_FAST cycle, by the count of that cycle, each with its bytes before the cycle, and
those of them that the other port wrote too (R338). -/
structure XchPort where
  cycle : Nat := 0
  words : List (Nat × List Byte) := []
  hits : List Nat := []
  deriving DecidableEq, Repr

/-- A write that a host port has made to registers or to a bank: its port, place and bytes, what stood there before, and its tick (R89). -/
structure HostWrite where
  port : Nat
  addr : Nat
  data : List Byte
  old : List Byte
  tick : Nat
  deriving DecidableEq, Repr

/-- A read that waits in a controller: its class, the requester's page, granule, host address, tick of entry and age limit (R349, R350). -/
structure DramReq where
  cls : Nat
  who : Nat
  gran : Nat
  addr : Nat
  at_ : Nat
  limit : Nat
  promoted : Bool := false
  mask : Nat := 0                          -- the bytes of the granule it reads
  deriving DecidableEq, Repr

/-- An entry of a write queue: a granule and its byte mask (R353). -/
structure WqEntry where
  cls : Nat
  who : Nat
  gran : Nat
  addr : Nat
  mask : Nat
  at_ : Nat
  limit : Nat                              -- its age limit (R350)
  promoted : Bool := false
  flush : Bool := false                    -- a read has been forwarded from it in part
  deriving DecidableEq, Repr

/-- An open page: its row and the tick it was last used (R352). -/
structure OpenPage where
  row : Nat
  used : Nat
  deriving DecidableEq, Repr

/-- A DRAM controller. -/
structure DramSt where
  reads : List DramReq := []               -- oldest first
  wq : List WqEntry := []                  -- oldest first, at most 64
  pages : Vector (Option OpenPage) 16 := Vector.replicate 16 none   -- by bank group × 4 + bank
  lfsr : Nat := 0                          -- R354
  postponed : Vector Nat 16 := Vector.replicate 16 0   -- refreshes owed (R355)
  powerUp : Bool := true                   -- the next STARTING initialises and trains (R357)
  checks : List (Nat × Bool) := []         -- the check granules held, latest use first, and whether each is to be written back (R348)
  fixes : List Nat := []                   -- granules with a corrected error that a read has found, not yet written back (R356)
  ready : Bool := false                    -- this STARTING has initialised or left self-refresh
  deriving DecidableEq, Repr



/-- The writes that have entered the controllers in a CLK_CORE cycle: merge order, host address and length of each (R353). -/
structure DramCycle where
  cycle : Nat := 0
  writes : List (Nat × Nat × Nat) := []
  deriving DecidableEq, Repr

/-! ### The test access port (spec/25_pins_electrical.md, R423, R424) -/

/-- The states of an IEEE 1149.1 controller. -/
inductive TapState where
  | reset | idle | selectDr | captureDr | shiftDr | exit1Dr | pauseDr | exit2Dr | updateDr
  | selectIr | captureIr | shiftIr | exit1Ir | pauseIr | exit2Ir | updateIr
  deriving DecidableEq, Repr

structure TapSt where
  state : TapState := .reset
  ir : Nat := 2                            -- the instruction in force; IDCODE in Test-Logic-Reset
  sr : List Bool := []                     -- the shift register selected, next bit out first
  upd : List Bool := []                    -- the update stage of the boundary register
  tdo : Option Bool := none                -- TDO, none while it is high-impedance
  deriving DecidableEq, Repr


/-- The whole machine. Registers that differ from their reset value are listed by byte address in `regs` (what a read shows, and the shadow of
an RWS register), `active` (the active copy of an RWS register, and the applied value of a field of several words, R38, R40) and `snap` (the
values latched by SNAPSHOT, R41). Memory that differs from 0 is listed by host address in `mem`. -/
structure State where
  pending : List Instr := []
  regs : List (Nat × Word) := []
  active : List (Nat × Word) := []
  snap : List (Nat × Word) := []
  mem : List (Nat × Byte) := []
  memErr : List (Nat × Nat) := []          -- stored words with 1 or 2 bits in error, by host address of the word (R339, R356)
  commitAt : List (Nat × Nat) := []        -- commit tick of a page (R38)
  shadowWas : List (Nat × (Nat × Word)) := []   -- what a shadow held before the first write of the cycle of its latest write, and that write's
                                           -- tick + 1 (R39)
  enteredAt : List (Nat × Nat) := []       -- tick at which a page's STATE last changed (R34)
  lastEv : List (Nat × Nat) := []          -- tick + 1 of the latest assertion of an event source (R43)
  freeCtr : Nat := 0                       -- the model's own: how many free values have been taken
  lanes : Vector Lane 20 := Vector.replicate 20 {}
  heads : Vector Head 16 := Vector.replicate 16 {}
  time : TimeSt := {}
  clk : ClkSt := {}
  pwr : PwrSt := {}
  ev : EvcolSt := {}
  knife : KnifeSt := {}
  dip : DipSt := {}
  rcd : RecSt := {}
  brushes : Vector Brush 16 := Vector.replicate 16 {}
  lasers : Vector Laser 16 := Vector.replicate 16 {}
  encs : Vector Enc 4 := Vector.replicate 4 {}
  medium : MediumSt := {}
  cal : CalSt := {}
  bist : Option BistRun := none
  therm : ThermSt := {}
  rasters : Vector Raster 16 := Vector.replicate 16 {}
  glazes : Vector Glaze 16 := Vector.replicate 16 {}
  axes : Vector Axis 64 := Vector.replicate 64 {}
  engines : Vector Engine 4 := Vector.replicate 4 {}
  steppers : Vector Stepper 8 := Vector.replicate 8 {}
  cams : Vector (List Packet) 4 := Vector.replicate 4 []
  camPorts : Vector CamPort 4 := Vector.replicate 4 {}
  streams : Vector Stream 32 := Vector.replicate 32 {}
  trigs : Vector Trig 8 := Vector.replicate 8 {}
  vision : VisionSt := {}
  lights : Vector LtPort 4 := Vector.replicate 4 {}
  bankTest : BankTest := {}
  xch : Vector XchPort 2 := Vector.replicate 2 {}   -- ports A and B of BANK_XCH (R335, R338)
  drams : Vector DramSt 2 := Vector.replicate 2 {}
  training : Nat := 0                      -- bit i: DRAM_i is being trained or trained again (R358, R359)
  retrain : Nat := 0                       -- bit i: DRAM_i is being trained again (R359)
  sweeps : Nat × Nat := (0, 0)             -- ticks at which the training comes to its read and its write sweep, which the spec leaves open
  dramCycle : DramCycle := {}              -- (R353)
  hostCycle : List HostWrite := []         -- the hosts' latest writes, newest first, for the order of the two ports in a cycle (R89)
  tap : TapSt := {}
  deriving DecidableEq, Repr

/-- The reasons a command stops with a fault. Every one is a host error of R44, whose result the spec calls unpredictable; stopping there is
safe, since no claim is made about what follows. -/
inductive Fault where
  /-- An address outside the ranges of R28, or a bank part the spec reserves; raised by the transactions and register accesses. Safe. -/
  | badAddress (addr : Nat)
  /-- A register access that is not an aligned 32-bit word, or a transaction that crosses a 4 KiB boundary (R29, R87). Safe. -/
  | misaligned (addr : Nat)
  /-- An access to a page or bank whose domain is off, other than by R31. Safe. -/
  | domainOff (addr : Nat)
  /-- A non-zero write to a reserved field or register (R6, R44). Safe. -/
  | reservedWrite (addr : Nat)
  /-- A reserved encoding written to a field (R44). Safe. -/
  | reservedEncoding (addr : Nat)
  /-- A servo coefficient written while its loop is closed (R242, R44). Safe. -/
  | loopClosed (addr : Nat)
  /-- A breach of a "The host must" rule, named by that rule (R44). Safe. -/
  | hostBreach (rule : Nat)
  deriving DecidableEq, Repr

/-- The reasons a command is refused. -/
inductive Refusal where
  /-- The command has no meaning in the model yet; raised by Dispatch alone. Safe. -/
  | notModelled (mnemonic : String)
  deriving DecidableEq, Repr

/-- The block right after the VDD_AON power-on reset (R127 step 1): DORMANT, every switched domain off, every register at its reset value,
every memory 0, no command waiting. -/
def State.reset : State := {}

end Sys2Proof.Machine
end

