-- ==== Sys2Proof/Machine/Ops.lean ====
section
/-! DEFINITION. The named operations over registers, memory and time that every meaning is built from: canonical tables, fields of a register's
live and active copy (R5, R38, R40), counters that saturate, memory by host address (R4, R28), the timebase (R103), and the end of a command. -/

namespace Sys2Proof.Machine

/-! ### Tables in canonical form -/

/-- The value of a table at `k`; an unlisted key has its default. -/
def tabGet {α : Type} (d : Nat → α) : List (Nat × α) → Nat → α
  | [], k => d k
  | e :: r, k => if e.1 = k then e.2 else tabGet d r k

/-- Put an entry in its place, keys rising. -/
def tabIns {α : Type} (k : Nat) (v : α) : List (Nat × α) → List (Nat × α)
  | [] => [(k, v)]
  | e :: r => if k < e.1 then (k, v) :: e :: r else if k = e.1 then (k, v) :: r else e :: tabIns k v r

/-- Remove every entry of key `k`. -/
def tabDel {α : Type} (k : Nat) (l : List (Nat × α)) : List (Nat × α) := l.filter fun e => e.1 != k

/-- Write a table: a value equal to the default is not listed. -/
def tabSet {α : Type} [DecidableEq α] (d : Nat → α) (l : List (Nat × α)) (k : Nat) (v : α) : List (Nat × α) :=
  if v = d k then tabDel k l else tabIns k v (tabDel k l)

/-- The canonical form of a table: keys strictly rising, no entry equal to its default. -/
abbrev TabWf {α : Type} (d : Nat → α) (l : List (Nat × α)) : Prop :=
  l.Pairwise (fun a b => a.1 < b.1) ∧ ∀ e ∈ l, e.2 ≠ d e.1

/-- A table written back entry by entry into its canonical form. -/
def tabNorm {α : Type} [DecidableEq α] (d : Nat → α) (l : List (Nat × α)) : List (Nat × α) :=
  l.foldr (fun e acc => tabSet d acc e.1 e.2) []

/-- Remove every entry whose key lies in `[lo, hi)`. -/
def tabDrop {α : Type} (lo hi : Nat) (l : List (Nat × α)) : List (Nat × α) :=
  l.filter fun e => decide (e.1 < lo) || decide (hi ≤ e.1)

/-- What a byte of memory that nothing has written reads as: 0 (R132 for the banks). -/
def memDefault (_ : Nat) : Byte := 0#8

/-- What a byte of the NV device that nothing has written reads as: 0xFF, as after an erase (R378). -/
def nvDefault (_ : Nat) : Byte := 0xFF#8

/-- The default of a table of numbers. -/
def zeroNat (_ : Nat) : Nat := 0

/-- The default of a table of register words whose default is 0. -/
def zeroWord (_ : Nat) : Word := 0#32

/-- The memory of the block is in its canonical form. -/
abbrev Memory.wf (m : List (Nat × Byte)) : Prop := TabWf memDefault m

/-! ### Registers -/

/-- The live word of a register (or the shadow of an RWS register), by byte address. -/
def State.word (s : State) (a : Nat) : Word := tabGet resetWord s.regs a

def State.setWord (s : State) (a : Nat) (v : Word) : State := { s with regs := tabSet resetWord s.regs a v }

/-- The active word of a register (R38), or the applied word of a field of several words (R40). -/
def State.actWord (s : State) (a : Nat) : Word := tabGet resetWord s.active a

def State.setActWord (s : State) (a : Nat) (v : Word) : State := { s with active := tabSet resetWord s.active a v }

/-- The value latched by SNAPSHOT (R41). -/
def State.snapWord (s : State) (a : Nat) : Word := tabGet zeroWord s.snap a

def State.setSnapWord (s : State) (a : Nat) (v : Word) : State := { s with snap := tabSet zeroWord s.snap a v }

/-- The byte address of offset `o` in page `p` (R28). -/
def regAddr (p o : Nat) : Nat := p * 0x1000 + o

/-- The default of `shadowWas`: the shadow has not been written. -/
def noShadow (_ : Nat) : Nat × Word := (0, 0#32)

/-- A field of a word. -/
def fldOf (w : Word) (f : Fld) : Nat := bits w.toNat f.lo f.width

/-- A word with a field replaced by the low bits of `v`. -/
def putFld (w : Word) (f : Fld) (v : Nat) : Word :=
  BitVec.ofNat 32 (w.toNat - (fldOf w f) * 2 ^ f.lo + (v % 2 ^ f.width) * 2 ^ f.lo)

/-- A field of page `p`, unsigned. -/
def State.f (s : State) (p : Nat) (fl : Fld) : Nat := fldOf (s.word (regAddr p fl.off)) fl

/-- A field of page `p`, two's complement. -/
def State.fi (s : State) (p : Nat) (fl : Fld) : Int := signed fl.width (s.f p fl)

/-- A one-bit field of page `p`. -/
def State.fb (s : State) (p : Nat) (fl : Fld) : Bool := decide (s.f p fl ≠ 0)

/-- Set a field of page `p`. -/
def State.setF (s : State) (p : Nat) (fl : Fld) (v : Nat) : State :=
  s.setWord (regAddr p fl.off) (putFld (s.word (regAddr p fl.off)) fl v)

/-- Set a field of page `p` to an integer's low bits. -/
def State.setFi (s : State) (p : Nat) (fl : Fld) (v : Int) : State := s.setF p fl (wrapU fl.width v)

/-- Set a one-bit field of page `p`. -/
def State.setB (s : State) (p : Nat) (fl : Fld) (v : Bool) : State := s.setF p fl (b2n v)

/-- A field of the active copy. -/
def State.a (s : State) (p : Nat) (fl : Fld) : Nat := fldOf (s.actWord (regAddr p fl.off)) fl

def State.ai (s : State) (p : Nat) (fl : Fld) : Int := signed fl.width (s.a p fl)

def State.ab (s : State) (p : Nat) (fl : Fld) : Bool := decide (s.a p fl ≠ 0)

/-- A value spread over a low and a high field. -/
def State.pair (s : State) (p : Nat) (lo hi : Fld) : Nat := s.f p lo + s.f p hi * 2 ^ lo.width

def State.actPair (s : State) (p : Nat) (lo hi : Fld) : Nat := s.a p lo + s.a p hi * 2 ^ lo.width

def State.setPair (s : State) (p : Nat) (lo hi : Fld) (v : Nat) : State :=
  (s.setF p lo v).setF p hi (v / 2 ^ lo.width)

/-- Add to a count that saturates at its maximum. -/
def State.inc (s : State) (p : Nat) (fl : Fld) (n : Nat := 1) : State := s.setF p fl (satU (s.f p fl + n) fl.width)

/-- Add to a count of two words that saturates. -/
def State.incPair (s : State) (p : Nat) (lo hi : Fld) (n : Nat) : State :=
  s.setPair p lo hi (satU (s.pair p lo hi + n) (lo.width + hi.width))

/-- Do `g` when `c` holds. -/
def State.when (s : State) (c : Bool) (g : State → State) : State := if c then g s else s

/-- Run `g` over a list of operands in order. -/
def State.each {α : Type} (s : State) (l : List α) (g : State → α → State) : State := l.foldl g s

/-! ### Memory (R4, R28) -/

def State.byte (s : State) (a : Nat) : Byte := tabGet memDefault s.mem a

/-- Store a byte; its word is stored with new check bits, so an error it held is gone (R339, R356). -/
def State.setByte (s : State) (a : Nat) (v : Byte) : State :=
  { s with mem := tabSet memDefault s.mem a v, memErr := tabDel (a / 8 * 8) s.memErr }

/-- The lowest host address of DRAM (R28). -/
def dramBase : Nat := 0x400000000

/-- The number of bits in error in the stored word that holds host address `a`. -/
def State.errAt (s : State) (a : Nat) : Nat := tabGet zeroNat s.memErr (a / 8 * 8)

/-- A byte as the owner of a bank uses it: a word that cannot be corrected is used as 0 (R339). -/
def State.ownByte (s : State) (a : Nat) : Byte := if a < dramBase ∧ 2 ≤ s.errAt a then 0#8 else s.byte a

/-- `n` bytes from host address `a` upwards, as an owner uses them. -/
def State.bytes (s : State) (a n : Nat) : List Byte := (List.range n).map fun k => s.ownByte (a + k)

/-- `n` bytes from host address `a` upwards, as stored. -/
def State.rawBytes (s : State) (a n : Nat) : List Byte := (List.range n).map fun k => s.byte (a + k)

/-- A word in `[a, a + n)` cannot be corrected. -/
def State.bad (s : State) (a n : Nat) : Bool := s.memErr.any fun e => decide (2 ≤ e.2 ∧ a < e.1 + 8 ∧ e.1 < a + n)

/-- Store bytes from host address `a` upwards. -/
def State.setBytes (s : State) (a : Nat) : List Byte → State
  | [] => s
  | b :: r => (s.setByte a b).setBytes (a + 1) r

/-- The little-endian number of `k` bytes at host address `a`. -/
def State.rd (s : State) (a k : Nat) : Nat := leNat (s.bytes a k)

def State.rdS (s : State) (a k : Nat) : Int := signed (8 * k) (s.rd a k)

/-- Store the low `k` bytes of `v` at host address `a`. -/
def State.wrMem (s : State) (a k v : Nat) : State := s.setBytes a (leBytes k v)

def State.wrMemI (s : State) (a k : Nat) (v : Int) : State := s.wrMem a k (wrapU (8 * k) v)

/-! The host addresses of the banks (R28). -/
def brushBank (b : Nat) : Nat := 0x10000000 + b * 0x100000
def servoBank : Nat := 0x11000000
def visionBank : Nat := 0x11400000
def recordBank : Nat := 0x11800000
def xchBank : Nat := 0x11C00000

/-! ### Per-page bookkeeping -/

def State.commitTick (s : State) (p : Nat) : Nat := tabGet zeroNat s.commitAt p
def State.setCommitTick (s : State) (p t : Nat) : State := { s with commitAt := tabSet zeroNat s.commitAt p t }
def State.entered (s : State) (p : Nat) : Nat := tabGet zeroNat s.enteredAt p
def State.setEntered (s : State) (p t : Nat) : State := { s with enteredAt := tabSet zeroNat s.enteredAt p t }

/-! ### Time (R103, R104) -/

/-- What one CLK_FAST cycle adds to the accumulator. -/
def State.fastInc (s : State) : Nat := ((8 * 2 ^ 32 : Int) + s.fi Pg.TIME Reg.TIME_RATE).toNat

/-- What a CLK_FAST cycle added before the present rate took effect (R104). -/
def State.oldInc (s : State) : Nat := ((8 * 2 ^ 32 : Int) + s.time.oldRate).toNat

/-- The accumulator at the latest CLK_FAST edge. -/
def State.edgeAcc (s : State) : Nat := if wrapS 96 ((s.time.acc : Int) - s.time.rateAcc) < 0 then wrapU 96 ((s.time.rateAcc : Int) - s.oldInc) else s.time.acc

/-- The tick of the latest step. -/
def State.now (s : State) : Nat := s.time.now

/-- R2, R13: tick `v` has been reached. -/
def State.past (s : State) (v : Int) : Bool := reached s.now v

/-- How far tick `t` lies ahead of `now` on the uint64 count (R103). -/
def ahead (now t : Nat) : Nat := wrapU 64 ((t : Int) - now)

/-- Let the timebase run on to tick `t`. The counter advances by whole CLK_FAST cycles up to `t`; the count is a uint64, its accumulator a uint96. A
timebase that does not run, or that has passed `t`, stays: the command then takes place at the present tick. -/
def State.upTo (s : State) (t : Nat) : State :=
  if s.time.running ∧ 0 < ahead s.time.now t ∧ ahead s.time.now t < 2 ^ 63 then
    { s with time := { s.time with
        acc := wrapU 96 (s.time.acc + wrapU 96 ((t : Int) * 2 ^ 32 - s.time.acc) / s.fastInc * s.fastInc)
        now := t % 2 ^ 64
        cycles := s.time.cycles + wrapU 96 ((t : Int) * 2 ^ 32 - s.time.acc) / s.fastInc } }
  else s

/-- The count of CLK_FAST edges as tick `v` is reached, at the present rate (R60, R103). -/
def State.cyclesAt (s : State) (v : Nat) : Nat :=
  ((s.time.cycles : Int) + wrapS 96 ((v : Int) * 2 ^ 32 - s.time.acc) / s.fastInc).toNat

/-- The start of frame `n` (R16). -/
def t0 (n : Nat) : Nat := n * 16000

/-- The frame a tick lies in. -/
def frameOf (t : Nat) : Nat := t / 16000

/-- The exchange cut of frame `n` (R18). -/
def cutOf (n : Nat) : Nat := t0 n + 15040

/-! ### Free values -/

/-- Take a fresh index for a free value. -/
def State.takeFree (s : State) : State := { s with freeCtr := s.freeCtr + 1 }

/-! ### The end of a command -/

/-- The tables written back in their canonical form. -/
def State.canon (s : State) : State :=
  { s with
    regs := tabNorm resetWord s.regs, active := tabNorm resetWord s.active, snap := tabNorm zeroWord s.snap,
    mem := tabNorm memDefault s.mem, memErr := tabNorm zeroNat s.memErr, commitAt := tabNorm zeroNat s.commitAt,
    shadowWas := tabNorm noShadow s.shadowWas,
    enteredAt := tabNorm zeroNat s.enteredAt, lastEv := tabNorm zeroNat s.lastEv,
    rcd := { s.rcd with nv := tabNorm nvDefault s.rcd.nv } }

/-- A command has had its effect: the next state, its tables in canonical form and the queue as it was. -/
def done (s s' : State) : Host.Outcome State Fault Refusal := .next { s'.canon with pending := s.pending }

end Sys2Proof.Machine
end

