-- ==== Sys2Proof/Machine/Operands.lean ====
section
/-! DEFINITION. How the operands of the commands name the parts they act on: pages, lanes and the instances behind them (R30, R407). -/

namespace Sys2Proof.Machine

/-- The page of a lane, in the order HOST_A, HOST_B, PEER_A, PEER_B, HEAD_0 to HEAD_15. -/
def lanePage (l : Nat) : Nat := if l < 4 then Pg.LINK l else Pg.HEAD (l - 4)

/-- The instance number of a page, within `n` instances. -/
def inst (first n p : Nat) (h : 0 < n) : Fin n := ⟨(p - first) % n, Nat.mod_lt _ h⟩

def brushOf (p : Nat) : Fin 16 := inst 0x30 16 p (by decide)
def laserOf (p : Nat) : Fin 16 := inst 0x60 16 p (by decide)
def encOf (p : Nat) : Fin 4 := inst 0x18 4 p (by decide)

def engineOf (p : Nat) : Fin 4 := inst 0x70 4 p (by decide)
def stepOf (p : Nat) : Fin 8 := inst 0x74 8 p (by decide)
def lightOf (p : Nat) : Fin 4 := inst 0x7c 4 p (by decide)
def dramOf (p : Nat) : Fin 2 := inst 0x10 2 p (by decide)
def rasterOf (p : Nat) : Fin 16 := inst 0x40 16 p (by decide)
def glazeOf (p : Nat) : Fin 16 := inst 0x50 16 p (by decide)
def camOf (p : Nat) : Fin 4 := inst 0x1c 4 p (by decide)
def streamOf (p : Nat) : Fin 32 := inst 0xc0 32 p (by decide)
def axisOf (p : Nat) : Fin 64 := inst 0x80 64 p (by decide)

/-- The lane a page describes: 0 to 3 for the host and peer ports, 4 + h for HEAD_h. -/
def laneOf (p : Nat) : Fin 20 := if p < 0x20 then ⟨(p - 0x14) % 4, by omega⟩ else ⟨4 + (p - 0x20) % 16, by omega⟩

/-! ### Record opcodes (R145) -/

abbrev opNop : Nat := 0x00
abbrev opMark : Nat := 0x01
abbrev opJump : Nat := 0x02
abbrev opDwell : Nat := 0x03
abbrev opRaster : Nat := 0x04
abbrev opWaitTime : Nat := 0x05
abbrev opWaitMedium : Nat := 0x06
abbrev opOut : Nat := 0x07
abbrev opIn : Nat := 0x08
abbrev opLoop : Nat := 0x09
abbrev opEnd : Nat := 0x0F

end Sys2Proof.Machine
end

