-- ==== Sys2Proof/Machine/Flags.lean ====
section
/-! DEFINITION. Events, sticky flags, block states, domains, the emission outputs, knife causes, the recorder's accumulators and triggers: the
effects many meanings share (R10, R34 to R36, R42, R43, R299 to R304, R370 to R374). -/

namespace Sys2Proof.Machine

/-! ### Domains (R31, R122) -/

/-- Whether power domain `d` (PAGE_CAPS.DOMAIN) is on and in use; a DIRTY domain counts as off (R391), and one that is
being switched off is isolated (R132). -/
def State.domOn (s : State) (d : Nat) : Bool :=
  if d = 0 then s.pwr.sysOn
  else if d = 1 then s.pwr.sysOn && s.pwr.linkOn
  else s.pwr.sysOn && (s.f Pg.PWR Reg.PWR_DOMAIN_STATUS_ON).testBit d && !s.pwr.dirty.contains d && s.pwr.switching != some (d, false)

/-- Whether the domain of page `p` is on. -/
def State.pageOn (s : State) (p : Nat) : Bool := s.domOn (pageDomain p)

/-! ### Events (R42) -/

/-- Add an offer to crossing 9: offers of one source that wait merge and are counted (R399). -/
def offerInsert (src stamp : Nat) : List EvEntry → List EvEntry
  | [] => [⟨src, stamp, 1, false⟩]
  | e :: r => if e.source = src then { e with count := e.count + 1, stamp := if sdiff48 stamp e.stamp < 0 then stamp else e.stamp } :: r
              else e :: offerInsert src stamp r

/-- The tick of the latest assertion of a source (R43). -/
def State.markEv (s : State) (src : Nat) : State := { s with lastEv := tabSet zeroNat s.lastEv src (s.now + 1) }

/-- Offer an assertion to crossing 9; an offer that merges with a waiting one is counted while EVCOL is ON (R399). -/
def State.offer (s : State) (src stamp : Nat) : State :=
  { s with ev := { s.ev with offers := offerInsert src stamp s.ev.offers } }.when
    ((s.ev.offers.any fun e => e.source == src) && decide (s.f Pg.EVCOL Reg.STATE_STATE = 2)) fun s => s.inc Pg.EVCOL Reg.EVCOL_MERGED

/-- Assert event bit `k` of page `p`, stamped `stamp`: the EVENT bit sets, and the assertion is offered to the collector when its mask bit is
1, whether or not the EVENT bit was already set. An unimplemented bit, or a page whose domain is off, has no effect. -/
def State.event (s : State) (p k stamp : Nat) : State :=
  if s.pageOn p ∧ k < eventCount p then
    ((s.markEv (p * 32 + k)).setF p Reg.EVENT (putBit (s.f p Reg.EVENT) k true)).when ((s.f p Reg.EVENT_MASK).testBit k) fun u =>
      u.offer (p * 32 + k) stamp
  else s

/-- Set ERROR_STICKY bit `k` of page `p`; ERROR is asserted when the bit goes from 0 to 1 (R32). -/
def State.sticky (s : State) (p k stamp : Nat) : State :=
  if s.pageOn p then
    if (s.f p Reg.ERROR_STICKY).testBit k then s
    else (s.setF p Reg.ERROR_STICKY (putBit (s.f p Reg.ERROR_STICKY) k true)).event p Ev.ERROR stamp
  else s

/-- Assert an event at the present tick. -/
def State.ev! (s : State) (p k : Nat) : State := s.event p k s.now

/-- Set a sticky flag at the present tick. -/
def State.sticky! (s : State) (p k : Nat) : State := s.sticky p k s.now

/-! ### Block states (R34 to R36) -/

abbrev stOff : Nat := 0
abbrev stStarting : Nat := 1
abbrev stOn : Nat := 2
abbrev stStopping : Nat := 3
abbrev stFault : Nat := 4

/-- STATE of page `p`; a page whose domain is off reads 0 (R31). -/
def State.st (s : State) (p : Nat) : Nat := if s.pageOn p then s.f p Reg.STATE_STATE else 0

def State.isOn (s : State) (p : Nat) : Bool := s.st p == stOn

/-- The latest value written to CTRL.EN. -/
def State.en (s : State) (p : Nat) : Bool := s.fb p Reg.CTRL_EN

/-- STATE.EN_PENDING as R35 defines it. -/
def pendingBit (st : Nat) (en : Bool) : Bool :=
  (st == stStarting && !en) || (st == stStopping && en) || (st == stOff && en) || (st == stOn && !en)

/-! ### The precondition of a calibration run (R387, R388) -/

/-- The condition under "Only while" for run `op` on `target`. -/
def State.calHolds (s : State) (op target : Nat) : Bool :=
  match op with
  | 1 => decide (target < 16) && s.domOn 2 && s.st (Pg.LASER target) == stOff
  | 2 => s.isOn Pg.THERM
  | 3 => decide (target < 20) && s.pageOn (lanePage target) && s.st (lanePage target) == stOff
  | _ => s.rcd.dir && !s.fb Pg.NV Reg.NV_NV_STATUS_BUSY

/-- The NV address of the calibration record copy that is not in use (R383, R389). -/
def State.spareCopy (s : State) : Nat := s.cal.calAddr + (1 - s.cal.copy) * 0x1000

/-- A run is abandoned: RESULT 2, and SAVE_FAIL for a save, whose copy no longer passes its check; the values in force stay. -/
def State.calAbandon (s : State) (op : Nat) : State :=
  let s1 := (({ s with cal := { s.cal with run := none } }.setB Pg.CALIB Reg.CALIB_STATUS_BUSY false).setF Pg.CALIB Reg.CALIB_STATUS_RESULT 2).ev!
    Pg.CALIB Ev.CALIB_CAL_FAIL
  if op = 4 then
    { s1 with rcd := { s1.rcd with nv := tabDrop s.spareCopy (s.spareCopy + 0x1000) s1.rcd.nv } }.sticky! Pg.CALIB Sticky.CALIB_SAVE_FAIL
  else s1

/-- A run whose precondition has failed is abandoned. -/
def State.calWatch (s : State) : State :=
  match s.cal.run with
  | some r => if s.calHolds r.op r.target then s else s.calAbandon r.op
  | none => s

/-- Recompute EN_PENDING. -/
def State.refreshEn (s : State) (p : Nat) : State :=
  s.setB p Reg.STATE_EN_PENDING (pendingBit (s.f p Reg.STATE_STATE) (s.en p))

/-- Move page `p` to state `v`, stamped `stamp`: STATE_CHANGE is asserted, and FAULT on entry into FAULT. -/
def State.setState (s : State) (p v stamp : Nat) : State :=
  if s.f p Reg.STATE_STATE = v then s.refreshEn p
  else
    let s1 := ((s.setF p Reg.STATE_STATE v).setEntered p stamp).refreshEn p
    let s2 := s1.event p Ev.STATE_CHANGE stamp
    (if v = stFault then s2.event p Ev.FAULT stamp else s2).calWatch

/-! ### Emission outputs (R299, R303) -/

/-- Interlock `i` is in state OK (R300). -/
def Ilk.ok (k : Ilk) : Bool := k.a && !k.b

def Ilk.discrepant (k : Ilk) : Bool := k.a == k.b

/-- All four interlocks are OK. -/
def State.ilkOk (s : State) : Bool := s.knife.ilk.toList.all Ilk.ok

/-- A clock-free force is in place: an interlock away from OK, the clock-loss force, a reset force or the shutdown latch. -/
def State.forced (s : State) : Bool :=
  s.pwr.clockForce || s.pwr.resetForce || s.pwr.shutdownLatch || !s.ilkOk

/-- The causes latched for brush `n` (R304). -/
def State.latched (s : State) (n : Nat) : Nat := s.f Pg.KNIFE (Reg.KNIFE_CAUSE_LATCHED.num n)

/-- permit_n (R299): ARM set and its permit begun, every interlock OK, no cause latched. -/
def State.permit (s : State) (n : Fin 16) : Bool :=
  (s.f Pg.KNIFE Reg.KNIFE_ARM_STATE).testBit n && s.knife.permitted[n] && s.ilkOk && decide (s.latched n = 0)

/-- EXTEST, CLAMP or HIGHZ is in force, so that the emission outputs are driven low (R424). -/
def State.scanLow (s : State) : Bool := s.tap.ir == 0 || s.tap.ir == 3 || s.tap.ir == 4

/-- EXTEST, CLAMP or HIGHZ is in force while some page outside PD_SYS and PD_LINK is not OFF, which the host must not bring about (R423). -/
def State.scanBreach (s : State) : Bool :=
  s.scanLow && allBlks.any fun b => (List.range (blkInfo b).count).any fun k =>
    decide (2 ≤ pageDomain ((blkInfo b).first + k)) && s.st ((blkInfo b).first + k) != stOff

/-- The level at the ARM pin of brush `n`. -/
def State.armPin (s : State) (n : Fin 16) : Bool := s.permit n && s.domOn 2 && !s.forced && !s.scanLow

/-- The level at KNIFE_OUT. -/
def State.knifeOut (s : State) : Bool := (List.finRange 16).any fun n => s.armPin n

def State.setLaser (s : State) (n : Fin 16) (g : Laser → Laser) : State := { s with lasers := s.lasers.set n (g s.lasers[n]) }

/-! ### The diptych's roles (R309, R310, R318) -/

abbrev pairUnpaired : Nat := 0
abbrev pairForming : Nat := 1
abbrev pairLockstep : Nat := 2
abbrev pairAOnly : Nat := 3
abbrev pairTakenOver : Nat := 4
abbrev pairDiverged : Nat := 5

def State.pairState (s : State) : Nat := s.f Pg.DIPTYCH Reg.DIPTYCH_STATUS_PAIR

/-- The device is strapped B (R309). -/
def State.roleB (s : State) : Bool := s.fb Pg.SYS Reg.SYS_STRAPS

/-- The device is the active device (R310, R317): the ACTIVE bit in a pair; a single device is active if it is strapped A. -/
def State.isActive (s : State) : Bool :=
  if s.st Pg.DIPTYCH = stOff then s.pwr.sysOn && !s.roleB else s.fb Pg.DIPTYCH Reg.DIPTYCH_STATUS_ACTIVE

/-- Device A declares a fault (R318): DECLARE goes into its next KIND 2, if B's latest shows READY; otherwise DECLARE_REFUSED. -/
def State.declareNow (s : State) : State :=
  match s.dip.latest with
  | some b => if b.ready then { s with dip := { s.dip with declareDue := true } }
              else s.sticky! Pg.DIPTYCH Sticky.DIPTYCH_DECLARE_REFUSED
  | none => s.sticky! Pg.DIPTYCH Sticky.DIPTYCH_DECLARE_REFUSED

/-- A condition of PAIR_CFG.FAULT_MASK occurs on A while PAIR = LOCKSTEP; `bit` is its bit number, 8 to 11. -/
def State.declare (s : State) (bit : Nat) : State :=
  if s.pairState = pairLockstep ∧ ¬ s.roleB ∧ ¬ s.dip.declareDue ∧ (s.f Pg.DIPTYCH Reg.DIPTYCH_PAIR_CFG_FAULT_MASK).testBit (bit - 8) then
    s.declareNow
  else s

/-! ### Recorder accumulators and triggers (R370, R371, R373, R374) -/

/-- The recorder accumulates while CTRL.EN of its page is 1 (R380). -/
def State.recorderOn (s : State) : Bool := s.pwr.sysOn && s.en Pg.RECORD

/-- The host address of record offset `o` in the accumulators. -/
def accAddr (o : Nat) : Nat := recordBank + (o - 0x40)

/-- Add to an accumulator of `k` bytes at record offset `o`, as it is read; counts saturate. -/
def State.accPut (s : State) (o k n : Nat) : State :=
  if s.recorderOn then s.wrMem (accAddr o) k (satU (s.rd (accAddr o) k + n) (8 * k)) else s

/-- R339: bank `b` finds its word at bank offset `off` with `n` bits in error, as it is read: corrected and counted, or uncorrectable and recorded,
whoever reads it. `acc` adds one to an accumulator. -/
def State.bankFinds (s : State) (acc : State → Nat → State) (b off n : Nat) : State :=
  let p := Pg.BANKS
  if n = 1 then acc ((s.inc p (Reg.BANKS_BANKCNT_CORRECTED.num b)).ev! p Ev.BANKS_CORRECTED) (0xCD0 + 4 * b)
  else
    let s1 := (((acc (s.inc p (Reg.BANKS_BANKCNT_UNCORRECTED.num b)) (0xCD2 + 4 * b)).sticky! p Sticky.BANKS_UNCORR).ev! p Ev.BANKS_UNCORR).declare 10
    ((((s1.setB p Reg.BANKS_LAST_ERR_VALID true).setF p Reg.BANKS_LAST_ERR_BANK b).setF p Reg.BANKS_LAST_ERR_OFFSET off).setF p
      Reg.BANKS_LAST_ERR_TIME_LO (s.now % 2 ^ 32)).setF p Reg.BANKS_LAST_ERR_TIME_HI (s.now / 2 ^ 32 % 2 ^ 16)

/-- R339: the recorder reads `n` bytes of accumulators from record offset `o`: an error is seen, and a word that cannot be corrected is reset. -/
def State.accClean (s : State) (o n : Nat) : State :=
  s.each (s.memErr.filter fun e => decide (accAddr o / 8 ≤ e.1 / 8 ∧ e.1 / 8 * 8 < accAddr o + n)) fun s (e : Nat × Nat) =>
    let s1 := s.bankFinds (fun s o => s.accPut o 2 1) 18 (e.1 - recordBank) e.2
    if e.2 < 2 then s1 else s1.wrMem (e.1 / 8 * 8) 8 0

/-- Add to an accumulator of `k` bytes at record offset `o`; counts saturate. -/
def State.accAdd (s : State) (o k n : Nat) : State := (if s.recorderOn then s.accClean o k else s).accPut o k n

/-- An extreme at record offset `o`: the first value since the accumulators were cleared, then the larger (or smaller) of the two. -/
def State.accExt (s0 : State) (o k : Nat) (sgn big : Bool) (v : Int) : State :=
  if s0.recorderOn then
    let s := s0.accClean o k
    let old := if sgn then s.rdS (accAddr o) k else (s.rd (accAddr o) k : Int)
    if s.rcd.seen.contains o then
      if (if big then old < v else v < old) then s.wrMemI (accAddr o) k v else s
    else { s.wrMemI (accAddr o) k v with rcd := { s.rcd with seen := o :: s.rcd.seen } }
  else s0

/-- The FAULT_EN bit that enables a trigger, where it has one (R373). -/
def trigEnabled (faultEn bit : Nat) : Bool :=
  match bit with
  | 2 => faultEn.testBit 0
  | 4 => faultEn.testBit 1
  | 5 => faultEn.testBit 2
  | 6 => faultEn.testBit 3
  | _ => true

/-- Whether a trigger waits for MIN_GAP (R373). -/
def trigGated (bit : Nat) : Bool := bit == 2 || bit == 4 || bit == 5 || bit == 6

/-- CFG.MIN_GAP seconds have passed since the start of the previous flush (R374). -/
def State.gapOver (s : State) : Bool :=
  match s.rcd.lastStart with
  | some t => decide (s.f Pg.RECORD Reg.RECORD_CFG_MIN_GAP * 6400000000 ≤ ahead t s.now)
  | none => true

/-- The recorder takes triggers: CTRL.EN = 1 and a valid directory (R377, R380). -/
def State.recorderTakes (s : State) : Bool := s.recorderOn && s.rcd.dir

/-- A flush ends; its slot is used up (R374). -/
def State.flushOver (s : State) (fl : Flush) : State :=
  let s1 := { s with rcd := { s.rcd with flush := none, suspended := false } }
  let s2 := (s1.setB Pg.RECORD Reg.RECORD_STATUS_FLUSHING false).setF Pg.RECORD Reg.RECORD_STATUS_NEXT_SLOT
    (if s.rcd.ringSlots = 0 then 0 else (fl.slot + 1) % s.rcd.ringSlots)
  let s3 := s2.setF Pg.RECORD Reg.RECORD_STATUS_ERASED (s2.f Pg.RECORD Reg.RECORD_STATUS_ERASED - 1)
  s3.setB Pg.NV Reg.NV_NV_STATUS_BUSY s3.rcd.host.isSome

/-- The NV bytes of a slot whose flush is abandoned, so that it fails its check word (R374, R379). -/
def RecSt.spoil (r : RecSt) (fl : Flush) : List (Nat × Byte) := tabDrop (r.ringBase + fl.slot * 4096) (r.ringBase + fl.slot * 4096 + 4096) r.nv

/-- A flush is abandoned: its slot fails its check word, and is used up (R374). -/
def State.abandonFlush (s : State) (fl : Flush) : State := { s with rcd := { s.rcd with nv := s.rcd.spoil fl } }.flushOver fl

/-- Collect a trigger into the pending request (R373, R374). POWER_FAIL and SHUTDOWN abandon a flush that another trigger started, and the new
capture carries the merged bits. A trigger that must wait for MIN_GAP counts DEFERRED. -/
def State.trigger (s : State) (bit : Nat) : State :=
  if s.recorderTakes ∧ trigEnabled (s.f Pg.RECORD Reg.RECORD_CFG_FAULT_EN) bit then
    let old := s.rcd.pending
    let (s1, extra, more) : State × Nat × Nat :=
      match s.rcd.flush with
      | some fl =>
        if (bit == 1 || bit == 3) && !fl.trig.testBit 1 && !fl.trig.testBit 3 then (s.abandonFlush fl, fl.trig, fl.merged + 1) else (s, 0, 0)
      | none => (s, 0, 0)
    let joins := old != 0 || more != 0
    let s2 := { s1 with rcd := { s1.rcd with
      pending := old ||| extra ||| 2 ^ bit, merged := satU ((if old = 0 then 0 else s1.rcd.merged) + more + b2n (old != 0)) 8 } }
    let s3 := s2.setB Pg.RECORD Reg.RECORD_STATUS_PENDING true
    let s4 := if joins then s3.inc Pg.RECORD Reg.RECORD_MERGED else s3
    if trigGated bit && !s4.gapOver then (s4.inc Pg.RECORD Reg.RECORD_DEFERRED).ev! Pg.RECORD Ev.RECORD_FLUSH_DEFERRED else s4
  else s

/-! ### The pins of a laser port (R303) -/

/-- An engine that is ON serves every galvo axis of brush `n` (R15, R221). -/
def State.servoServes (s : State) (n : Nat) : Bool :=
  [3 * n, 3 * n + 1, 3 * n + 2].all fun a =>
    s.fb (Pg.AXIS a) Reg.AXIS_STATUS_ASSIGNED && s.isOn (Pg.ENGINE (s.f (Pg.AXIS a) Reg.AXIS_STATUS_ENGINE))

/-- The four subsystems without which brush `n` emits nothing are ON: its sequencer, the engine that serves its axes, its head link, the knife
(R15, R36). -/
def State.mayEmit (s : State) (n : Nat) : Bool :=
  s.isOn (Pg.BRUSH n) && s.servoServes n && s.isOn (Pg.HEAD n) && s.isOn Pg.KNIFE

/-- The laser port of brush `n` with its GATE and PSYNC pins at the levels of R303: the AND of the two timers under the permit, with the opening
rule, while LASER_n and all that the brush needs to emit are ON (R15, R36). -/
def State.pinLaser (s : State) (n : Fin 16) : Laser :=
  let l := s.lasers[n]
  let drive := s.permit n && !s.forced && s.isOn (Pg.LASER n) && s.mayEmit n
  let g := l.gA && l.gB
  let q := l.pA && l.pB
  let gw := g && (if drive && !l.drive then true else l.gateWait)
  let pw := q && (if drive && !l.drive then true else l.psyncWait)
  let gp := drive && g && !gw && !s.scanLow
  { l with drive := drive, gateWait := gw, psyncWait := pw, gatePin := gp, psyncPin := drive && q && !pw && !s.scanLow,
           gateSince := if gp && !l.gatePin then s.now else l.gateSince }

/-- PORT_STATUS follows the pins of brush `n`, and a rising GATE edge is counted (R187); `was` is the level of GATE before. -/
def State.pinShow (s : State) (n : Fin 16) (was : Bool) : State :=
  let p := Pg.LASER n
  let l := s.lasers[n]
  if s.domOn 2 then
    ((((s.setB p Reg.LASER_PORT_STATUS_GATE l.gatePin).setB p Reg.LASER_PORT_STATUS_PSYNC l.psyncPin).setB p Reg.LASER_PORT_STATUS_ARM
      (s.armPin n)).setB p Reg.LASER_PORT_STATUS_FORCED s.forced).when (l.gatePin && !was) fun u => u.inc p Reg.LASER_GATE_PULSES
  else s

/-- The time for which the GATE pin of brush `n` has been high is added up to the present tick (R371). -/
def State.gateTime (s : State) (n : Fin 16) : State :=
  let l := s.lasers[n]
  if l.gatePin then (s.accAdd (0x40 + 160 * n) 8 (ahead l.gateSince s.now)).setLaser n fun l => { l with gateSince := s.now } else s

/-- Every brush's laser-on time up to the present tick, before it is read, captured, cleared or switched on or off (R371, R374, R380). -/
def State.gateTimes (s : State) : State := s.each (List.finRange 16) fun s n => s.gateTime n

/-- Bring the GATE and PSYNC pins of brush `n` up to date at the present tick; the time GATE was high is added up as it falls (R303, R371). -/
def State.pins (s : State) (n : Fin 16) : State :=
  let was := s.lasers[n]
  let l := s.pinLaser n
  ((s.setLaser n fun _ => l).pinShow n was.gatePin).when (was.gatePin && !l.gatePin) fun u =>
    u.accAdd (0x40 + 160 * n) 8 (ahead was.gateSince s.now)

/-- Bring every laser port's pins up to date. -/
def State.allPins (s : State) : State := s.each (List.finRange 16) fun s n => s.pins n

/-! ### Knife causes (R302, R304) -/

abbrev causeReset : Nat := 0
abbrev causeInterlock : Nat := 1
abbrev causeClock : Nat := 2
abbrev causeHead : Nat := 3
abbrev causeFe : Nat := 4
abbrev causeAxis : Nat := 5
abbrev causeTwin : Nat := 6
abbrev causeSwatch : Nat := 7
abbrev causeStrict : Nat := 8
abbrev causeDiverged : Nat := 9
abbrev causeTest : Nat := 10
abbrev causeDiscrepancy : Nat := 11

/-- The earlier of two trips; a tie goes to the lower brush, then to the lower cause (R304). -/
def earlierTrip (a b : Trip) : Trip :=
  let d := sdiff48 b.tick a.tick
  if 0 < d then a else if d < 0 then b
  else if a.brush < b.brush ∨ (a.brush = b.brush ∧ a.cause ≤ b.cause) then a else b

/-- An assertion of source `src` that crossing 9 still holds is withdrawn. -/
def State.unoffer (s : State) (src : Nat) : State :=
  { s with ev := { s.ev with offers := (s.ev.offers.map fun e => if e.source = src then { e with count := e.count - 1 } else e).filter fun e => e.count != 0 } }

/-- Every brush. -/
def allBrushes : List (Fin 16) := List.finRange 16

/-- The CLEAR of the present CLK_FAST cycle that removed the last cause of brush `n`, if one did. -/
def State.clearOf (s : State) (n : Fin 16) : Option ClearRec := s.knife.clears[n].filter fun r => r.last && r.tick / 8 == s.now / 8

/-- A CLEAR that has acted on brush `n` in the present CLK_FAST cycle takes no effect for it: its causes, its count and its event are as before
(R304). -/
def State.unclear (s : State) (n : Fin 16) : State :=
  let p := Pg.KNIFE
  match s.knife.clears[n] with
  | some r =>
    if r.tick / 8 = s.now / 8 then
      let s1 := (s.setF p (Reg.KNIFE_CAUSE_LATCHED.num n) r.causes).when r.last fun s =>
        ((s.setF p Reg.KNIFE_CLEARS (s.f p Reg.KNIFE_CLEARS - 1)).setF p Reg.EVENT (putBit (s.f p Reg.EVENT) Ev.KNIFE_CLEARED
            (r.event || ((allBrushes.filter fun k => k != n).any fun k => (s.clearOf k).isSome)))).when
          ((s.f p Reg.EVENT_MASK).testBit Ev.KNIFE_CLEARED) fun s => s.unoffer (p * 32 + Ev.KNIFE_CLEARED)
      { s1 with knife := { s1.knife with clears := s1.knife.clears.set n none } }
    else s
  | none => s

/-- Latch cause `c` for brush `n` alone: the latch, ARM cleared in the same cycle, a CLEAR of that cycle undone. -/
def State.latchOne (s0 : State) (n : Fin 16) (c stamp : Nat) : State :=
  let cf := Reg.KNIFE_CAUSE_LATCHED.num n
  let s := s0.unclear n
  let s1 := s.setF Pg.KNIFE cf (putBit (s.f Pg.KNIFE cf) c true)
  let s2 := s1.setF Pg.KNIFE Reg.KNIFE_ARM_STATE (putBit (s1.f Pg.KNIFE Reg.KNIFE_ARM_STATE) n false)
  let s3 := s2.setF Pg.KNIFE Reg.KNIFE_TRIPPED (putBit (s2.f Pg.KNIFE Reg.KNIFE_TRIPPED) n true)
  let t : Trip := ⟨stamp, n, c⟩
  let s4 := { s3 with knife := { s3.knife with
      armAt := s3.knife.armAt.set n none, permitted := s3.knife.permitted.set n false,
      causeAt := s3.knife.causeAt.set n (s3.now + 1),
      live := some (match s3.knife.live with | some a => earlierTrip a t | none => t) } }
  (s4.accAdd (0x50 + 160 * n) 2 1).pins n

/-- A cause latches for the brushes in its scope: TRIP is asserted with the detection instant, TRIPS counts the detection, and a flush is
requested for every cause but RESET and TEST (R304, R373). -/
def State.latchCause (s : State) (scope : List (Fin 16)) (c stamp : Nat) : State :=
  if s.pwr.sysOn then
    let s1 := s.each scope fun s n => s.latchOne n c stamp
    let s2 := ((s1.inc Pg.KNIFE Reg.KNIFE_TRIPS).event Pg.KNIFE Ev.KNIFE_TRIP stamp).accAdd (0xD30 + 4 * c) 4 1
    if c = causeReset ∨ c = causeTest then s2 else s2.trigger 2
  else s

/-! ### Conditions a cause stands for -/

/-- The axes of brush `n` (R302): its three galvo axes, and every auxiliary axis whose output feeds one of them. -/
def State.axesOf (s : State) (n : Nat) : List Nat :=
  [3 * n, 3 * n + 1, 3 * n + 2] ++ (List.range 16).filterMap fun j =>
    let a := 48 + j
    if s.fb (Pg.AXIS a) Reg.AXIS_OUT_CFG_OUT_EN ∧ s.f (Pg.AXIS a) Reg.AXIS_OUT_CFG_TARGET / 3 = n then some a else none

/-- Whether cause `c` is present for brush `n` now (R302). -/
def State.causePresent (s : State) (n : Fin 16) (c : Nat) : Bool :=
  match c with
  | 1 => !s.ilkOk
  | 2 => s.fb Pg.CLK Reg.CLK_STATUS_SAFE_HOLD
  | 3 => !s.heads[n].healthy
  | 4 => (s.axesOf n).any fun a => s.st (Pg.AXIS a) == stFault
  | 5 => (s.axesOf n).any fun a => s.st (Pg.AXIS a) == stFault
  | 6 => s.st (Pg.BRUSH n) == stFault
  | 7 => s.st (Pg.RASTER n) == stFault
  | 8 => s.st (Pg.BRUSH n) == stFault
  | 9 => s.f Pg.DIPTYCH Reg.DIPTYCH_STATUS_PAIR == 5
  | 11 => s.f Pg.KNIFE Reg.KNIFE_ILK_STATUS_DISC_LATCHED != 0
  | _ => false

/-- CAUSE_n.PRESENT. -/
def State.presentMask (s : State) (n : Fin 16) : Nat :=
  (List.range 12).foldl (fun m c => m + b2n (s.causePresent n c) * 2 ^ c) 0

/-- A device strapped B has taken over and has no camera (R280, R317). -/
def State.noCamera (s : State) : Bool := s.roleB && s.pairState == pairTakenOver

/-! ### The head link's health (R98) -/

def State.setHead (s : State) (h : Fin 16) (g : Head → Head) : State := { s with heads := s.heads.set h (g s.heads[h]) }

def State.setLane (s : State) (l : Fin 20) (g : Lane → Lane) : State := { s with lanes := s.lanes.set l (g s.lanes[l]) }

abbrev phIdle : Nat := 0
abbrev phAcquire : Nat := 1
abbrev phAlign : Nat := 2
abbrev phCapx : Nat := 3
abbrev phUp : Nat := 4
abbrev phStep : Nat := 5
abbrev phLoop : Nat := 6

/-- LANE_STATUS.PHASE of a lane. -/
def State.phase (s : State) (l : Nat) : Nat := s.f (lanePage l) Reg.LANE_LANE_STATUS_PHASE

/-- A lane is UP: its page is ON and its bring-up complete (R71). A lane in STOPPING starts no frame (R73). -/
def State.laneUp (s : State) (l : Nat) : Bool := s.isOn (lanePage l) && s.phase l == phUp

/-- The head link of HEAD_h meets every condition of R98. -/
def State.headFit (s : State) (h : Fin 16) : Bool :=
  let p := Pg.HEAD h
  s.laneUp (4 + h) && s.fb p Reg.LANE_LANE_STATUS_FRAME_LOCK && decide (s.heads[h].missRun < s.f p Reg.HEAD_HEAD_CTRL)
    && !(s.f p Reg.HEAD_HEAD_STATUS_STATUS).testBit 7 && decide (s.f p Reg.HEAD_HEAD_DELAY_DELAY ≤ 640)

/-- Bring the link's health up to date; a loss asserts UNHEALTHY and latches cause HEAD for the brush. -/
def State.headHealth (s : State) (h : Fin 16) : State :=
  let ok := s.headFit h
  let was := s.heads[h].healthy
  let s1 := s.setHead h fun x => { x with healthy := ok }
  if was && !ok then (s1.ev! (Pg.HEAD h) Ev.HEAD_UNHEALTHY).latchCause [h] causeHead s.now else s1

end Sys2Proof.Machine
end

