-- ==== Sys2Proof/Machine/Block.lean ====
section
/-! DEFINITION. The block state machine of spec/02_register_pages.md (R34 to R37) with what each block does on entry into a state, and what a
reset of one side of a crossing does to the other (R397, R398). -/

namespace Sys2Proof.Machine

def State.setBrush (s : State) (b : Fin 16) (g : Brush → Brush) : State := { s with brushes := s.brushes.set b (g s.brushes[b]) }

def State.setEnc (s : State) (n : Fin 4) (g : Enc → Enc) : State := { s with encs := s.encs.set n (g s.encs[n]) }

def State.setAxis (s : State) (a : Fin 64) (g : Axis → Axis) : State := { s with axes := s.axes.set a (g s.axes[a]) }

def State.setEngine (s : State) (e : Fin 4) (g : Engine → Engine) : State := { s with engines := s.engines.set e (g s.engines[e]) }

def State.setStepper (s : State) (n : Fin 8) (g : Stepper → Stepper) : State := { s with steppers := s.steppers.set n (g s.steppers[n]) }

def State.setStream (s : State) (k : Fin 32) (g : Stream → Stream) : State := { s with streams := s.streams.set k (g s.streams[k]) }

def State.setTrig (s : State) (o : Fin 8) (g : Trig → Trig) : State := { s with trigs := s.trigs.set o (g s.trigs[o]) }

/-- The pages of a block type. -/
def blkPages (b : Blk) : List Nat := (List.range (blkInfo b).count).map fun k => (blkInfo b).first + k

/-- Every page that is not reserved. -/
def allPages : List Nat := allBlks.flatMap blkPages

/-- The pages of a power domain. -/
def domainPages (d : Nat) : List Nat := allPages.filter fun p => pageDomain p == d

/-! ### Entry into states -/

/-- Both timers of a laser port drop their edges and take GATE and PSYNC low together (R183, R184, R187). An edge
that waits for its partner is not judged any more (DESIGN CHOICE, log 90). -/
def State.dropEdges (s : State) (n : Fin 16) : State :=
  (s.setLaser n fun l => { l with gA := false, gB := false, pA := false, pB := false, edgesA := [], edgesB := [], unpaired := [] }).pins n

def State.setDram (s : State) (i : Fin 2) (g : DramSt → DramSt) : State := { s with drams := s.drams.set i (g s.drams[i]) }

def State.setRaster (s : State) (b : Fin 16) (g : Raster → Raster) : State := { s with rasters := s.rasters.set b (g s.rasters[b]) }

def State.setGlaze (s : State) (b : Fin 16) (g : Glaze → Glaze) : State := { s with glazes := s.glazes.set b (g s.glazes[b]) }

/-- Granules of the line ring in use. -/
def Raster.used (x : Raster) : Nat := x.lines.foldl (fun n l => n + l.granules) 0

/-- RING_FREE follows the ring. -/
def State.showRing (s : State) (b : Fin 16) : State :=
  s.setF (Pg.RASTER b) Reg.RASTER_LINE_STATUS_RING_FREE (512 - s.rasters[b].used)

def State.setLight (s : State) (p : Fin 4) (g : LtPort → LtPort) : State := { s with lights := s.lights.set p (g s.lights[p]) }

/-- STATUS of DTRAIN follows the training in progress (R361). -/
def State.trainShow (s : State) (phase : Nat) : State :=
  (s.setB Pg.DTRAIN Reg.DTRAIN_STATUS_BUSY (s.training != 0)).setF Pg.DTRAIN Reg.DTRAIN_STATUS_PHASE phase

/-- R358, R359: training of the controllers in `mask` begins; when it comes to its read and its write sweep is left open but for the 30 ms of R358.
Training again has no levelling. -/
def State.trainBegin (s : State) (mask : Nat) (again : Bool) : State :=
  let rd := if again then s.now else s.now + (Config.freeValue s.freeCtr).toNat % 96000000
  let wr := rd + (Config.freeValue (s.freeCtr + 1)).toNat % 96000000
  ({ s.takeFree.takeFree with
      training := s.training ||| mask, retrain := if again then s.retrain ||| mask else s.retrain, sweeps := (rd, wr) }).trainShow (if again then 1 else 0)

/-- A free byte. -/
def freeByte (k : Nat) : Byte := BitVec.ofNat 8 (Config.freeValue k).toNat

/-- A host READ with a read waiting in controller `x`, when that is reset, completes with unpredictable data: free bytes (R398). -/
def State.readsLost (s : State) (x : DramSt) (l : Fin 20) : State :=
  let lost (c : Cpl) : Bool := c.op == 0 && x.reads.any fun r =>
    r.who == lanePage l && decide (dramBase ≤ c.addr ∧ c.addr / 64 * 64 ≤ r.addr ∧ r.addr < c.addr + c.data.length)
  let r := s.lanes[l].cpls.foldl (fun (q : List Cpl × Nat) c =>
    if lost c then (q.1 ++ [{ c with data := (List.range c.data.length).map fun k => freeByte (q.2 + k) }], q.2 + c.data.length) else (q.1 ++ [c], q.2))
    ([], s.freeCtr)
  { s.setLane l fun x => { x with cpls := r.1 } with freeCtr := r.2 }

/-- R357, R398: a soft reset discards the queues: the granules of discarded writes hold unpredictable data, and so do the host READs in flight. -/
def State.dramDiscard (s : State) (i : Fin 2) : State :=
  let l := s.drams[i].wq
  let s0 := (s.readsLost s.drams[i] 0).readsLost s.drams[i] 1
  let s1 := s0.each l fun s w => s.each (List.range 64) fun s k => (s.setByte (w.addr + k) (freeByte s.freeCtr)).takeFree
  let s2 := s1.setDram i fun x => { powerUp := x.powerUp, checks := x.checks }
  if s2.training.testBit i then
    let left := putBit s2.training i false
    ({ s2 with training := left, retrain := putBit s2.retrain i false }).trainShow (if left = 0 then 3 else s2.f Pg.DTRAIN Reg.DTRAIN_STATUS_PHASE)
  else s2

/-- QUEUE_STATUS and the response registers of a light port follow its queues. -/
def State.lightShow (s : State) (n : Fin 4) : State :=
  let p := Pg.LTPORT n
  let x := s.lights[n]
  let s1 := ((s.setF p Reg.LTPORT_QUEUE_STATUS_SYNCS x.syncs.length).setF p Reg.LTPORT_QUEUE_STATUS_RESPS x.resps.length).setF p
    Reg.LTPORT_QUEUE_STATUS_CMDS x.cmds.length
  let h : LtResp := x.resps.headD ⟨0, false, 0, 0⟩
  (((s1.setF p Reg.LTPORT_RESP h.data).setB p Reg.LTPORT_RESP_INFO_ANS h.ans).setF p Reg.LTPORT_RESP_INFO_ADDR h.addr).setF p
    Reg.LTPORT_RESP_INFO_INDEX h.index

/-- R332: a light port that enters STOPPING or FAULT discards its queues, and turns its drivers off. -/
def State.lightOff (s : State) (n : Fin 4) : State :=
  (s.setLight n fun x => { x with cmds := [], syncs := [], sub := 0, pollDue := false, nopDue := false, off := 2 }).lightShow n

/-- STATUS and PEAK of the EVCOL page follow the sort buffer and the host queue (R404). -/
def State.evStat (s : State) : State :=
  let q := min 1024 s.ev.queue.length
  let n := s.ev.sort.length
  let p := Pg.EVCOL
  (((s.setF p Reg.EVCOL_STATUS_QUEUE q).setF p Reg.EVCOL_STATUS_PENDING n).setF p Reg.EVCOL_PEAK_QUEUE
    (max q (s.f p Reg.EVCOL_PEAK_QUEUE))).setF p Reg.EVCOL_PEAK_PENDING (max n (s.f p Reg.EVCOL_PEAK_PENDING))

/-- What VISION and the background test show of thermal enforcement, and VISION of a takeover (R280, R283, R342). -/
def State.showEnforced (s : State) : State :=
  let v := s.fb Pg.THERM Reg.THERM_STATUS_ENFORCED
  let s1 := s.setB Pg.BANKS Reg.BANKS_BG_STATUS_PAUSED v
  if s1.pageOn Pg.VISION then (s1.setB Pg.VISION Reg.VISION_STATUS_THROTTLE v).setB Pg.VISION Reg.VISION_STATUS_NO_CAMERA s.noCamera else s1

/-- R354, R357: a controller enters STARTING: from power-up it initialises its devices and trains once DTRAIN is ON, from self-refresh it is
ready. No page is open and no write waits (R360). -/
def State.dramStart (s : State) (i : Fin 2) : State :=
  let s1 := ((s.setDram i fun x => { x with
    lfsr := 0x1D872B41 ^^^ i.val, reads := [], wq := [], pages := Vector.replicate 16 none, postponed := Vector.replicate 16 0,
    ready := !x.powerUp }).setF (Pg.DRAM i) Reg.DRAM_STATUS_OPEN_PAGES 0).setF (Pg.DRAM i) Reg.DRAM_STATUS_WQ 0
  if s.drams[i].powerUp ∧ s.isOn Pg.DTRAIN then s1.trainBegin (2 ^ i.val) false else s1

/-- R357: DTRAIN is ON: the controllers whose STARTING waits for it to train do so. -/
def State.trainWaiting (s : State) : State :=
  let l := (List.finRange 2).filter fun (i : Fin 2) => s.st (Pg.DRAM i) == stStarting && s.drams[i].powerUp && !s.training.testBit i
  if l = [] then s else s.trainBegin (l.foldl (fun m i => m + 2 ^ i.val) 0) false

/-- Pixels of brush `b` are exposed while BRUSH_n and RASTER_n are both ON: the span begins or ends at the present tick (R213, R218, R220). -/
def State.expose (s : State) (b : Fin 16) : State :=
  match s.isOn (Pg.BRUSH b) && s.isOn (Pg.RASTER b), s.rasters[b].since with
  | true, none => s.setRaster b fun x => { x with since := some s.now }
  | false, some k => s.setRaster b fun x => { x with since := none, spans := (k, s.now) :: x.spans }
  | _, _ => s

/-- As `expose`, after a change of the state of page `p`. -/
def State.exposeAt (s : State) (p : Nat) : State :=
  match pageBlk p with
  | some .brush => s.expose (brushOf p)
  | some .raster => s.expose (rasterOf p)
  | _ => s

/-- Page `p` moves to state `v`, stamped `stamp`. -/
def State.enter (s : State) (p v stamp : Nat) : State := (s.setState p v stamp).exposeAt p

/-- The lines of a brush's ring go, but for those `keep` names (R211). -/
def State.dropLines (s : State) (b : Fin 16) (keep : RLine → Bool) : State :=
  if s.rasters[b].lines.all keep then s else (s.setRaster b fun x => { x with lines := x.lines.filter keep }).showRing b

/-! ### Faults (R36) -/

/-- A block in STARTING or ON enters FAULT at once; in any other state nothing changes. -/
def State.blockFault (s : State) (p stamp : Nat) : State :=
  if s.st p = stStarting ∨ s.st p = stOn then s.enter p stFault stamp else s

/-- BRUSH_n enters FAULT with a cause of R184: its timers drop GATE and PSYNC, its set-point is held; the sheet in force stays shown until
STARTING clears it (R181). -/
def State.brushFault (s : State) (b : Fin 16) (cause stamp : Nat) : State :=
  let p := Pg.BRUSH b
  if s.st p = stStarting ∨ s.st p = stOn then
    (((s.setF p Reg.BRUSH_STATUS_FAULT_CAUSE cause).blockFault p stamp).dropEdges b).dropLines b fun _ => false
  else s

/-- The brush an axis belongs to: its own for a galvo axis, that of its target for an auxiliary axis with OUT_EN = 1 (R302). -/
def State.brushOfAxis (s : State) (a : Nat) : Option (Fin 16) :=
  if h : a < 48 then some ⟨a / 3, by omega⟩
  else if s.fb (Pg.AXIS a) Reg.AXIS_OUT_CFG_OUT_EN then
    let t := s.f (Pg.AXIS a) Reg.AXIS_OUT_CFG_TARGET
    if h : t < 48 then some ⟨t / 3, by omega⟩ else none
  else none

/-- AXIS_a enters FAULT with a cause of R240: the knife trips with cause AXIS and its brush enters FAULT with cause AXIS (R184, R302). -/
def State.axisFault (s : State) (a cause stamp : Nat) : State :=
  let p := Pg.AXIS a
  if s.st p = stStarting ∨ s.st p = stOn then
    let s1 := (s.setF p Reg.AXIS_STATUS_FAULT_CAUSE cause).blockFault p stamp
    match s.brushOfAxis a with
    | some b => (s1.latchCause [b] causeAxis stamp).brushFault b 5 stamp
    | none => s1
  else s

/-! ### Sequences -/

/-- R253: parking starts at the last set-point, at one eighth of the last frame's change. -/
def parkGen (last before : Int) : Gen := { pos := last * 2 ^ 24, vel := (last - before) * 2 ^ 21, acc := 0 }

/-- The park position of brush `b` (R164). -/
def State.parkPos (s : State) (b : Fin 16) : P3 :=
  let p := Pg.BRUSH b
  ⟨s.fi p Reg.BRUSH_PARK_X, s.fi p Reg.BRUSH_PARK_Y, s.fi p Reg.BRUSH_PARK_Z⟩

/-- The registers that show a brush's execution go back to what they show with no sheet in force (R181). -/
def State.clearBrushRegs (s : State) (b : Fin 16) : State :=
  let p := Pg.BRUSH b
  ((((((((((s.setF p Reg.BRUSH_STATUS_WAITING 0).setF p Reg.BRUSH_STATUS_CHAIN_ENDED 0).setF p Reg.BRUSH_STATUS_SHEET_VALID 0).setF p
    Reg.BRUSH_STATUS_SEAM 0).setF p Reg.BRUSH_SHEET_ID 0).setF p Reg.BRUSH_STROKE_INDEX 0xFFFFFFFF).setPair p Reg.BRUSH_ANCHOR_T_LO
    Reg.BRUSH_ANCHOR_T_HI 0).setPair p Reg.BRUSH_ANCHOR_M_LO Reg.BRUSH_ANCHOR_M_HI 0).setF p Reg.BRUSH_PASS_COUNT 0).setF p
    Reg.BRUSH_WINDOW_A_AHEAD 0).setF p Reg.BRUSH_WINDOW_B_AHEAD 0

/-- The stroke log keeps its last `n` timed records, and the ticks from which no record of a sheet had begun (R185). -/
def keepLog : Nat → List (Nat × Nat) → List (Nat × Nat)
  | _, [] => []
  | n, e :: r =>
    if e.2 = 0xFFFFFFFF then e :: keepLog n r
    else match n with
      | 0 => []
      | k + 1 => e :: keepLog k r

/-- The sheet of the record ends at `c`, unless it has ended before. -/
def Up.cutAt (c : Nat) (u : Up) : Up := if u.cutoff.isNone then { u with cutoff := some c } else u

/-- The device is B in lockstep: should it take over, the strokes of its takeover window are counted, whatever has become of their brush (R319). -/
def State.gapWatch (s : State) : Bool := s.isOn Pg.DIPTYCH && s.roleB && decide (s.pairState = pairLockstep)

/-- No sheet is in force any more; the anchors, pass counter and SHEET_ID stay until STARTING clears them (R181). -/
def State.endForce (s : State) (b : Fin 16) : State :=
  let p := Pg.BRUSH b
  let s1 := ((((s.setF p Reg.BRUSH_STATUS_WAITING 0).setF p Reg.BRUSH_STATUS_CHAIN_ENDED 0).setF p Reg.BRUSH_STATUS_SHEET_VALID 0).setF p
    Reg.BRUSH_STATUS_SEAM 0).setF p Reg.BRUSH_STROKE_INDEX 0xFFFFFFFF
  (s1.setBrush b fun x => { x with
    hdrFetch := none, chain := false, badHeader := false, force := none, queue := [], cur := none, early := [], seam := none,
    gone := if s.gapWatch then x.force.toList ++ x.gone else [], decs := if s.gapWatch then x.decs else [],
    past := if s.gapWatch then (x.cur.toList ++ x.past).map (Up.cutAt s.now) else [],
    pathA := {}, pathB := {}, reach := [], entry := {}, log := keepLog 1024 ((s.now, 0xFFFFFFFF) :: x.log) }).dropLines b fun _ => false

/-- The phase a lane rests in: LOOP while a loop mode is set, else IDLE (R77). -/
def loopPhase (s : State) (p : Nat) : Nat := if s.f p Reg.LANE_LOOP_CTRL_MODE = 0 then phIdle else phLoop

/-! ### The slots of an engine (R221) -/

/-- The axis of slot `k` of engine `e`, where the slot is enabled. -/
def State.slotAxis (s : State) (e : Fin 4) (k : Nat) : Option (Fin 64) :=
  let b := bits (s.word (regAddr (Pg.ENGINE e) (0x40 + k / 4 * 4))).toNat (8 * (k % 4)) 8
  if b.testBit 7 then some ⟨b % 64, Nat.mod_lt _ (by decide)⟩ else none

/-- The axes of an engine's enabled slots, with their slots, in slot order. -/
def State.slotsOf (s : State) (e : Fin 4) : List (Nat × Fin 64) :=
  (List.range 16).filterMap fun k => (s.slotAxis e k).map fun a => (k, a)

/-- Engine `e` serves no axis any more. -/
def State.unassign (s : State) (e : Fin 4) : State :=
  s.each (List.range 64) fun s a =>
    let p := Pg.AXIS a
    if s.fb p Reg.AXIS_STATUS_ASSIGNED ∧ s.f p Reg.AXIS_STATUS_ENGINE = e then
      ((s.setB p Reg.AXIS_STATUS_ASSIGNED false).setF p Reg.AXIS_STATUS_ENGINE 0).setF p Reg.AXIS_STATUS_SLOT 0
    else s

/-- R245: STARTING applies the slot map. -/
def State.assign (s : State) (e : Fin 4) : State :=
  (s.unassign e).each (s.slotsOf e) fun s q =>
    let p := Pg.AXIS q.2
    ((s.setB p Reg.AXIS_STATUS_ASSIGNED true).setF p Reg.AXIS_STATUS_ENGINE e).setF p Reg.AXIS_STATUS_SLOT q.1

/-! ### Camera contexts (R268, R273, R275, R282) -/

/-- The trigger output context `k` names. -/
def State.trigOf (s : State) (k : Fin 32) : Fin 8 := ⟨s.f (Pg.STREAM k) Reg.STREAM_CTX_CFG_TRIG % 8, Nat.mod_lt _ (by decide)⟩

/-- Context `k` owns its trigger output (R273). -/
def State.ownsTrig (s : State) (k : Fin 32) : Bool := s.fb (Pg.STREAM k) Reg.STREAM_CTX_CFG_TRIG_OWN

/-- The open frame of a context: the last one, until it has ended. -/
def Stream.open? (x : Stream) : Option VFrame := x.frames.getLast?.bind fun f => if f.ended then none else some f

/-- Change the last frame of a context. -/
def Stream.onLast (x : Stream) (g : VFrame → VFrame) : Stream :=
  match x.frames.getLast? with
  | some f => { x with frames := x.frames.dropLast ++ [g f] }
  | none => x

/-- R268: the open frame of context `k` ends as TRUNCATED. -/
def State.truncateOpen (s : State) (k : Fin 32) : State :=
  let p := Pg.STREAM k
  if s.streams[k].open?.isSome then
    (((((s.setStream k fun x => x.onLast fun f => { f with ended := true, truncated := true }).setB p Reg.STREAM_STATUS_OPEN false).inc p
      Reg.STREAM_FRAMES).inc p Reg.STREAM_TRUNCATED).sticky! p Sticky.STREAM_TRUNCATED).ev! p Ev.STREAM_TRUNCATED
  else s

/-- The contexts of camera port `p`. -/
def portCtxs (p : Nat) : List (Fin 32) := (List.finRange 32).filter fun k => k.val / 8 == p

/-- R273: the first periodic launch of an owner that reaches ON at the present tick. -/
def State.firstLaunch (s : State) (k : Fin 32) : Nat :=
  let p := Pg.STREAM k
  let per := s.a p Reg.STREAM_TRIG_PERIOD
  let on := s.now + 1280
  let d := sdiff48 (s.actPair p Reg.STREAM_TRIG_FIRST_LO Reg.STREAM_TRIG_FIRST_HI) on
  if 0 ≤ d ∨ per = 0 then on + d.toNat else on + ((d % per).toNat)

/-- A context reaches ON: an owner's counter starts at 0, and every context takes S0 (R273, R275). -/
def State.streamOn (s : State) (k : Fin 32) : State :=
  let p := Pg.STREAM k
  let o := s.trigOf k
  let s1 := if s.ownsTrig k then s.setTrig o fun x => { x with
      seq := 0, oneshot := none, next := if s.f p Reg.STREAM_TRIG_CFG_MODE = 0 then some (s.firstLaunch k) else none } else s
  let q := if s.fb p Reg.STREAM_CTX_CFG_TRIG_USE then s1.trigs[o].seq else 0
  s1.setStream k fun x => { x with
    seq0 := q, prevSeq := none, fnPrev := 0, ring := [],
    sets := [⟨q, s.a p Reg.STREAM_BLACK, s.a p Reg.STREAM_MERGE_RATIO, s.a p Reg.STREAM_MERGE_KNEE⟩] }

/-- R282: the image a context is sending is abandoned: its slot is freed. -/
def State.abandonImage (s : State) (k : Fin 32) : State :=
  let p := Pg.STREAM k
  if s.streams[k].sending.isSome then
    ((((s.setStream k fun x => { x with sending := none }).setB p Reg.STREAM_STATUS_SENDING false).inc p Reg.STREAM_STREAM_SKIPS).sticky! p
      Sticky.STREAM_STREAM_SKIP).ev! p Ev.STREAM_STREAM_SKIP |>.accAdd 0xD6E 2 1
  else s

/-- Host port `l` leaves UP: images being sent on it are abandoned (R282). -/
def State.hostPortGone (s : State) (l : Nat) : State :=
  s.each (List.finRange 32) fun s k => if s.f (Pg.STREAM k) Reg.STREAM_STORE_CFG_HOST = l + 1 then s.abandonImage k else s

/-- The galvo axes of head `h` fault with cause LINK (R240). -/
def State.linkFault (s : State) (h : Nat) : State := s.each [0, 1, 2] fun s k => s.axisFault (3 * h + k) 5 s.now

/-- The link of a head lane leaves UP: its galvo axes fault; for a brush that is ON this is a fault device A may declare (R318). -/
def State.linkGone (s : State) (l : Nat) : State :=
  (if s.isOn (Pg.BRUSH (l - 4)) then s.declare 9 else s).linkFault (l - 4)

/-- A head link that is no longer UP: its delay is measured and its samples are judged afresh from the next UP (R94, R98). -/
def State.headFresh (s : State) (h : Fin 16) : State :=
  let p := Pg.HEAD h
  ((s.setB p Reg.HEAD_HEAD_DELAY_MEASURED false).setF p Reg.HEAD_HEAD_DELAY_DELAY 0).setHead h fun x =>
    { x with sumRt := 0, nRt := 0, missRun := 0, judgeFrom := none, gotA := none, gotB := none }

/-- The Rhapen's side of lane `l` sets the line timing (R63): every head lane, the peer lanes of a device strapped A, and a HOST_B that forwards
time in the host's place (R109). -/
def State.laneSource (s : State) (l : Fin 20) : Bool :=
  decide (4 ≤ l.val) || (decide (2 ≤ l.val) && !s.roleB) || (l.val == 1 && (s.f Pg.TIME Reg.TIME_MODE_CTRL_FWD_MASK).testBit 0)

/-- The lane is told to run: its page is STARTING or ON. -/
def State.laneRuns (s : State) (l : Fin 20) : Bool :=
  let st := s.st (lanePage l)
  st == stStarting || st == stOn

/-- A lane that sets the line timing starts its clock pattern once the root PLL has locked (R64, R71, R127). The 40 µs of R71 count from here, also
in IDLE (DESIGN CHOICE, log 83). -/
def State.patternStart (s : State) (l : Fin 20) : State :=
  if s.laneRuns l ∧ s.laneSource l ∧ s.clk.locked ∧ s.lanes[l].patternAt = none ∧ s.phase l ≠ phLoop then
    s.setLane l fun x => { x with patternAt := some s.now }
  else s

/-- In loop mode 3 the transmitter is loop-timed (R77). -/
def State.loopTimed (s : State) (p : Nat) : Bool := s.f p Reg.LANE_LOOP_CTRL_MODE == 3

/-- The rate the partner of the lane of page `p` sends at, of those the lane has: a head lane has no code 3 (R65, R77). -/
def State.farRate (s : State) (p : Nat) : Nat :=
  (Config.farEndRate (laneOf p) s.now).toNat % (if pageBlk p = some .head then 3 else 4)

/-- The rate a lane shows as it enters phase `ph`: 1.6 Gb/s, and in a test loop LOOP_CTRL.RATE, or in mode 3 the partner's (R71, R77). -/
def State.restRate (s : State) (p ph : Nat) : Nat :=
  if ph ≠ phLoop then 0 else if s.f p Reg.LANE_LOOP_CTRL_MODE = 3 then s.farRate p else s.f p Reg.LANE_LOOP_CTRL_RATE

/-- A rate step ends with a RESULT (R74, R75). -/
def State.stepEnd (s : State) (l : Fin 20) (result : Nat) : State :=
  let p := lanePage l
  let s1 := ((s.setF p Reg.LANE_STEP_STATUS_RESULT result).setB p Reg.LANE_STEP_STATUS_BUSY false).setLane l fun x => { x with step := none }
  if result = 1 then (s1.inc p Reg.LANE_STEPS).ev! p Ev.LANE_STEP_DONE
  else if result = 5 then s1 else s1.ev! p Ev.LANE_STEP_FAIL

/-- R62: source `src` of instance `i` stops under a measurement of it. -/
def State.fmeasGone (s : State) (src i : Nat) : State :=
  { s with clk := { s.clk with fmeas := s.clk.fmeas.map fun m => if m.src = src ∧ m.inst = i then { m with gone := true } else m } }

/-- The recovery loop of lane `l` is no longer locked: a head lane's recovered clock stops for a measurement of it (R60, R62). -/
def State.cdrLost (s : State) (l : Fin 20) : State := s.when (decide (4 ≤ l.val)) fun s => s.fmeasGone 17 (l - 4)

/-- Start or repeat bring-up of a lane in phase `ph` at 1.6 Gb/s (R71, R72); a lane that was UP leaves it, and a step in progress fails (R75). -/
def State.laneRestart (s : State) (l : Fin 20) (ph : Nat) : State :=
  let p := lanePage l
  let up := decide (s.phase l = phUp)
  let sb := (s.when (s.fb p Reg.LANE_STEP_STATUS_BUSY) fun s => s.stepEnd l 6).cdrLost l
  let s0 := if 4 ≤ l.val ∧ up then sb.linkGone l else if l.val < 2 ∧ (up ∨ s.phase l = phStep) then sb.hostPortGone l else sb
  let s1 := ((((s0.setF p Reg.LANE_LANE_STATUS_PHASE ph).setF p Reg.LANE_LANE_STATUS_RATE (s0.restRate p ph)).setF p
    Reg.LANE_LANE_STATUS_PARTNER_RATES 0).setB p Reg.LANE_LANE_STATUS_FRAME_LOCK false).setF p Reg.LANE_LANE_STATUS_CDR_LOCK 0
  let s2 := s1.setLane l fun x => { x with good := 0, bad := 0, phaseAt := s.now, attemptAt := s.now, patternAt := none, patternDone := false,
                                           capAt := none, capSeen := false, capAcked := false, rxAny := false, cpls := [], fences := [],
                                           waits := [], step := none, pstep := none, gapPrev := false }
  (if 4 ≤ l.val then s2.headFresh ⟨(l.val - 4) % 16, Nat.mod_lt _ (by decide)⟩ else s2).patternStart l

/-- Steps 2 to 4 of a brush's STARTING begin, once SYS is ON: the windows are emptied and what shows its execution is cleared (R181). -/
def State.brushStarts (s : State) (b : Fin 16) : State :=
  (s.clearBrushRegs b).setBrush b fun x =>
    { started := true, seq := x.seq, named := x.named, lastSp := x.lastSp, prevSp := x.prevSp, spFrame := x.spFrame }

/-- The loop of an axis starts afresh; a following error already found still reaches the knife at the cut (R21, R241). -/
def Axis.fresh (x : Axis) : Axis := { fe := x.fe }

/-- What a block does as it enters STARTING. -/
def State.onStarting (s : State) (p : Nat) : State :=
  match pageBlk p with
  | some .brush =>
    let b := brushOf p
    let s1 := (s.setF p Reg.BRUSH_STATUS_FAULT_CAUSE 0).setF p Reg.BRUSH_STATUS_MISS_RUN 0
    let s2 := s1.setBrush b fun x => { x with started := false }
    if s.isOn Pg.SYS then s2.brushStarts b else s2
  | some .laser => (s.setLaser (laserOf p) fun l => { l with sent := 0 }).setF p Reg.LASER_PORT_STATUS_WORDS 1
  | some .enc => s.setPair p Reg.ENC_COUNT_LO Reg.ENC_COUNT_HI 0
  | some .medium => { s with medium := { s.medium with init := false, left := 64 } }.setF p Reg.MEDIUM_STATUS_MISS_RUN 0
  | some .evcol => ({ s with ev := { s.ev with sort := [], queue := [] } }.setF p Reg.EVCOL_QSEQ_NEXT 0).evStat
  | some .diptych => { s with dip := { queue := s.dip.queue } }.setF p Reg.DIPTYCH_STATUS_PAIR pairForming
  | some .link => ((s.laneRestart (laneOf p) (loopPhase s p)).setB p Reg.LANE_LANE_STATUS_TX_LOOP_TIMED (!s.clk.locked || s.loopTimed p)).setLane
      (laneOf p) fun x => { x with retries := 0 }
  | some .head => (s.laneRestart (laneOf p) (loopPhase s p)).setLane (laneOf p) fun x => { x with retries := 0 }
  | some .engine => s.assign (engineOf p)
  | some .axis =>
    (((s.setF p Reg.AXIS_STATUS_FAULT_CAUSE 0).setF p Reg.AXIS_STATUS_OVR_RUN 0).setF p Reg.AXIS_STATUS_MISS_RUN 0).setAxis (axisOf p) Axis.fresh
  | some .step =>
    (((s.setF p Reg.STEP_STATUS_FAULT_CAUSE 0).setF p Reg.STEP_STATUS_LINK_MISS 0).setF p Reg.STEP_STATUS_STALL_RUN 0).setStepper (stepOf p) fun x =>
      { x with run := 0, checked := true, cut := false }
  | some .ltport => s.setLight (lightOf p) fun x => { x with next := 0, idNext := 0, idOk := true, rounds := 0, idDone := false, fails := 0, off := 0 }
  | some .dram => s.dramStart (dramOf p)
  | some .glaze =>
    let s1 := (s.each (List.range 16) fun s c => s.setF p (Reg.GLAZE_TRIM.num c) 0).setGlaze (glazeOf p) fun x => { fallback := x.fallback }
    ((s1.setF p Reg.GLAZE_STATUS_FACTOR 0x4000).setF p Reg.GLAZE_STATUS_MISS 0).setF p Reg.GLAZE_STATUS_FALLBACK 0
  | _ => s

/-- What a block does as it enters STOPPING. SYS writes CTRL.EN = 0 on every BRUSH page, which `ctrlEn` does. -/
def State.onStopping (s : State) (p : Nat) : State :=
  match pageBlk p with
  | some .brush =>
    let b := brushOf p
    ((s.dropEdges b).endForce b).setBrush b fun x => { x with
      parkFrames := 0, parkOk := 0, parkDone := false,
      park := #v[parkGen x.lastSp.x x.prevSp.x, parkGen x.lastSp.y x.prevSp.y, parkGen x.lastSp.z x.prevSp.z] }
  | some .laser => (s.dropEdges (laserOf p)).setLaser (laserOf p) fun l => { l with sent := 0 }
  | some .axis => s.setAxis (axisOf p) fun x => { x with ready := false, left := none, lastFrame := none }
  | some .step => s.setStepper (stepOf p) fun x => { x with rest := false, hold := 0, off := 0 }
  | some .cam => s.each (portCtxs (p - 0x1c)) State.truncateOpen
  | some .stream => s.truncateOpen (streamOf p)
  | some .ltport => s.lightOff (lightOf p)
  | some .link => s.laneRestart (laneOf p) (loopPhase s p)
  | some .head => s.laneRestart (laneOf p) (loopPhase s p)
  | _ => s

/-- What a block does as it reaches ON. -/
def State.onOn (s : State) (p : Nat) : State :=
  match pageBlk p with
  | some .sys => s.each allBrushes (fun s b =>
      if s.st (Pg.BRUSH b) = stStarting ∧ ¬ s.brushes[b].started then s.brushStarts b else s)
      |> fun s => { s with pwr := { s.pwr with dev := if s.pwr.dev = .linked then .active else s.pwr.dev } }
  | some .laser => (s.setLaser (laserOf p) fun l => { l with drive := false }).pins (laserOf p)
  | some .stream => s.streamOn (streamOf p)
  | some .ltport => s.setLight (lightOf p) fun x => { x with pollAt := s.now }
  | some .raster => s.showRing (rasterOf p)
  | some .dtrain => s.trainWaiting
  | _ => s

/-- What a block does as it reaches OFF from STOPPING. -/
def State.onOff (s : State) (p : Nat) : State :=
  match pageBlk p with
  | some .sys => { s with pwr := { s.pwr with dev := if s.pwr.dev = .active then .linked else s.pwr.dev } }
  | some .brush => s.setBrush (brushOf p) fun x => { x with park := Vector.replicate 3 {}, started := false }
  | some .laser => (s.setF p Reg.LASER_PORT_STATUS_WORDS 0).setLaser (laserOf p) fun l => { l with burst := none }
  | some .evcol => { s with ev := { s.ev with sort := [], queue := [] } }.evStat
  | some .diptych => (({ s with dip := { queue := s.dip.queue } }.setF p Reg.DIPTYCH_STATUS_PAIR pairUnpaired).setF p Reg.DIPTYCH_STATUS_ACTIVE
      0).setF p Reg.DIPTYCH_STATUS_HB_MISS 0
  | some .link => (s.laneRestart (laneOf p) (loopPhase s p))
  | some .head => (s.laneRestart (laneOf p) (loopPhase s p)).headHealth (inst 0x20 16 p (by decide))
  | some .axis => s.setAxis (axisOf p) Axis.fresh
  | some .step => (s.setStepper (stepOf p) fun x => { x with down := [], checked := true }).fmeasGone 18 (p - 0x74)
  | _ => s

/-! ### Shadows (R38, R39) -/

/-- The RWS words of page `p`. -/
def rwsWords (p : Nat) : List Nat :=
  match pageBlk p with
  | some b => ((blkInfo b).rows.filter fun r => r.acc == .rws).flatMap (fun r => (List.range r.cnt).map fun k => r.fld.off + k * r.fld.stride)
      |>.eraseDups
  | none => []

/-- A shadow of page `p` is about to be written: what it holds is kept until a later cycle of the block's clock writes it again (R39). -/
def State.noteShadow (s : State) (p o : Nat) : State :=
  let a := regAddr p o
  let e := tabGet noShadow s.shadowWas a
  if accMask p o .rws = 0 ∨ (e.1 ≠ 0 ∧ (e.1 - 1) / pagePeriod p = s.now / pagePeriod p) then s
  else { s with shadowWas := tabSet noShadow s.shadowWas a (s.now + 1, s.word a) }

/-- A shadow as it stands at the start of the cycle of the block's clock that holds tick `b` (R39). -/
def State.shadowAt (s : State) (p o b : Nat) : Word :=
  let e := tabGet noShadow s.shadowWas (regAddr p o)
  if 0 < e.1 ∧ reached ((e.1 : Int) - 1) (b / pagePeriod p * pagePeriod p : Nat) then e.2 else s.word (regAddr p o)

/-- A shadow of two words as a boundary at tick `b` takes it. -/
def State.shadowPair (s : State) (p : Nat) (lo hi : Fld) (b : Nat) : Nat :=
  fldOf (s.shadowAt p lo.off b) lo + fldOf (s.shadowAt p hi.off b) hi * 2 ^ lo.width

/-- A block boundary at tick `b`: a commit recorded before it copies every shadow of the page, as it stands at the start of the boundary cycle, to
its active copy, clears COMMIT_PENDING and asserts COMMITTED, stamped `b` (R38, R39). -/
def State.takeShadow (s : State) (p b : Nat) : State :=
  if s.fb p Reg.COMMIT_PENDING ∧ 0 < sdiff48 b (s.commitTick p) then
    let s1 := s.each (rwsWords p) fun s o => s.setActWord (regAddr p o) (s.shadowAt p o b)
    (s1.setB p Reg.COMMIT_PENDING false).event p Ev.COMMITTED b
  else s

/-! ### Transitions (R34) -/

def State.toStarting (s : State) (p : Nat) : State := (s.enter p stStarting s.now).onStarting p
def State.toStopping (s : State) (p : Nat) : State := (s.enter p stStopping s.now).onStopping p
def State.toOn (s : State) (p : Nat) : State := (s.enter p stOn s.now).onOn p
def State.toOff (s : State) (p : Nat) : State := (s.enter p stOff s.now).onOff p

/-- A block's STARTING or STOPPING sequence completes (R34). With the opposite request pending, the block spends one cycle in ON or OFF, which
BLOCK_TRANSIT_CYCLE_END ends. -/
def State.endSequence (s : State) (p : Nat) : State :=
  if s.st p = stStarting then s.toOn p
  else if s.st p = stStopping then s.toOff p
  else s

/-- The latest value written to CTRL.EN acts on the state machine (R34), or waits as EN_PENDING (R35). -/
def State.ctrlEn1 (s : State) (p : Nat) (en : Bool) : State :=
  let s1 := (if p = Pg.RECORD then s.gateTimes else s).setB p Reg.CTRL_EN en
  match s1.f p Reg.STATE_STATE, en with
  | 0, true => s1.toStarting p
  | 2, false => s1.toStopping p
  | 4, false => s1.toStopping p
  | _, _ => s1.refreshEn p

/-- As `ctrlEn1`, and SYS entering STOPPING writes CTRL.EN = 0 on every BRUSH page (R130). -/
def State.ctrlEn (s : State) (p : Nat) (en : Bool) : State :=
  let s1 := s.ctrlEn1 p en
  if p = Pg.SYS ∧ s.st p ≠ stStopping ∧ s1.st p = stStopping then
    s1.each (blkPages .brush) fun s q => if s.pageOn q then s.ctrlEn1 q false else s
  else s1

/-! ### Soft reset and crossings (R37, R397, R398) -/

/-- The AON-held registers of the PWR page, which no reset of PD_SYS clears (R133, R137). -/
def aonHeld (a : Nat) : Bool := a == 0x2048 || a == 0x204C || a == 0x2050

/-- Every register of page `p` back to its reset value, active and latched copies too; its side of crossing 9 is emptied (R397). -/
def State.clearPage (s : State) (p : Nat) : State :=
  let keep : Nat × Word → Bool := fun e => decide (e.1 / 0x1000 ≠ p) || aonHeld e.1
  { s with regs := s.regs.filter keep, active := s.active.filter keep, snap := s.snap.filter keep,
           shadowWas := s.shadowWas.filter fun e => decide (e.1 / 0x1000 ≠ p),
           commitAt := s.commitAt.filter fun e => e.1 != p, enteredAt := s.enteredAt.filter fun e => e.1 != p,
           lastEv := s.lastEv.filter (fun e => decide (e.1 / 32 ≠ p)),
           ev := { s.ev with offers := s.ev.offers.filter fun e => decide (e.source / 32 ≠ p) } }

/-- Bytes waiting in an input buffer. -/
def bufUsed (l : List Packet) : Nat := l.foldl (fun n x => n + x.bytes.length) 0

/-- CAM_STATUS and BUF_PEAK follow the input buffer. -/
def State.bufShow (s : State) (p : Fin 4) : State :=
  let q := Pg.CAM p
  let used := bufUsed s.cams[p]
  (s.setF q Reg.CAM_CAM_STATUS_BUF_USED ((used + 63) / 64)).setF q Reg.CAM_BUF_PEAK (max (s.f q Reg.CAM_BUF_PEAK) used)

/-- The internal state of page `p`'s block goes back to what it is after reset. -/
def State.clearInternal (s : State) (p : Nat) : State :=
  match pageBlk p with
  | some .brush => ((s.dropEdges (brushOf p)).dropLines (brushOf p) fun _ => false).setBrush (brushOf p) fun x => { seq := x.seq }
  | some .laser => (s.dropEdges (laserOf p)).setLaser (laserOf p) fun l =>
      { gateSince := l.gateSince, readyIn := l.readyIn, faultIn := l.faultIn, words := l.words, bursts := l.bursts }
  | some .enc => s.setEnc (encOf p) fun e => { a := e.a, b := e.b, z := e.z }
  | some .medium => { s with medium := { samples := s.medium.samples, samplesOf := s.medium.samplesOf, samplesPrev := s.medium.samplesPrev } }
  | some .evcol => { s with ev := {} }
  | some .diptych => { s with dip := { queue := if s.roleB then [] else s.dip.queue } }
  | some .link => (s.laneRestart (laneOf p) phIdle).setLane (laneOf p) fun _ => {}
  | some .head =>
    let h := inst 0x20 16 p (by decide)
    (((s.laneRestart (laneOf p) phIdle).linkFault h).headHealth h |>.setLane (laneOf p) fun _ => {}).setHead h fun _ => {}
  | some .time => { s with time := { s.time with
      nextRate := none, nextStep := none, nextAdj := none, integ := 0, master := none, okRun := 0, badRun := 0,
      ports := Vector.replicate 4 {}, routes := Vector.replicate 16 none, forwards := [] } }
  | some .engine => (s.unassign (engineOf p)).setEngine (engineOf p) fun _ => {}
  | some .axis => s.setAxis (axisOf p) Axis.fresh
  | some .step => (s.setStepper (stepOf p) fun _ => { cut := true }).fmeasGone 18 (p - 0x74)
  | some .cam => { s with cams := s.cams.set (camOf p) [] }.each (portCtxs (p - 0x1c)) State.truncateOpen
  | some .stream =>
    let k := streamOf p
    let q : Fin 4 := ⟨k.val / 8, by omega⟩
    let s1 := { s with cams := s.cams.set q (s.cams[q].filter fun x => x.ctx != k.val) }.bufShow q
    (if s1.ownsTrig k then s1.setTrig (s1.trigOf k) fun x => { log := x.log } else s1).setStream k fun _ => {}
  | some .vision => { s with vision := {} }
  | some .ltport => s.setLight (lightOf p) fun x => { lastEnd := x.lastEnd }
  | some .dram => s.dramDiscard (dramOf p)
  | some .dtrain => { s with training := 0, retrain := 0 }
  | some .banks => { s with bankTest := {} }
  | some .raster => s.setRaster (rasterOf p) fun _ => {}
  | some .glaze => s.setGlaze (glazeOf p) fun _ => {}
  | some .record =>
    let s1 := match s.rcd.flush with
      | some fl => s.gateTimes.abandonFlush fl
      | none => s.gateTimes
    { s1 with rcd := { s1.rcd with pending := 0, merged := 0, erasing := none, suspended := false } }
  | some .nv => { s with rcd := { s.rcd with host := none } }
  | some .calib =>
    match s.cal.run with
    | some r => s.calAbandon r.op
    | none => s
  | some .bist => { s with bist := none }
  | _ => s

/-- The fuse load failed and built-in trims are used (R382). -/
def State.fuseBad (s : State) : Bool := s.fb Pg.SYS Reg.SYS_BOOT_STATUS_FUSE_BAD

/-- The factory value of a trim: kind 0 cells, 1 sensor offset, 2 lane segments, 3 L_port (R393), 4 the stamp latencies (R105). -/
def State.factory (s : State) (kind i : Nat) : Nat :=
  if s.fuseBad then (Config.builtinTrim kind i).toNat
  else match kind with
  | 0 => (Config.fuseCells i).toNat
  | 1 => (Config.fuseOffset i).toNat
  | 2 => (Config.fuseSegs i).toNat
  | 3 => (Config.fuseLport i).toNat
  | _ => (Config.fuseStamp i).toNat

/-- R105: the time-stamp of a delimiter that crosses the ball of lane `l` at tick `v`. The block adds the latency in force to the instant at its own
boundary: the ball's instant, unless built-in values stand in for the fused ones. -/
def State.stampTick (s : State) (l : Nat) (rx : Bool) (v : Nat) : Nat :=
  let i := 2 * l + b2n rx
  if s.fuseBad then wrapU 64 ((v : Int) + s.factory 4 i - (Config.fuseStamp i).toNat) else v

/-- The page that sees a reset of a controller with requests of page `q` in flight: VISION for a stream's stores and reads (R284, R398). -/
def dramSide (q : Nat) : Nat := if pageBlk q = some .stream then Pg.VISION else q

/-- RASTER_b waits for a line: a RASTER_LINE that stands in window A and is still to be executed has no line in the ring for its pass (R211, R398). -/
def State.lineInFlight (s : State) (b : Fin 16) : Bool :=
  let x := s.brushes[b]
  s.isOn (Pg.RASTER b) && (x.force.toList ++ x.queue).any fun h => (x.pathA.blocks.filter fun q => q.sheet == h.seq && q.arrived.isSome).any fun q =>
    (List.range (min 64 (h.records - 64 * q.blk))).any fun k =>
      let i := 64 * q.blk + k
      let ahead := x.force.all fun f => f.seq != h.seq || decide (x.lap < q.lap ∨ x.idx ≤ i)
      s.rd (h.list + 32 * i) 1 == opRaster && ahead && !s.rasters[b].lines.any fun l => l.sheet == h.seq && l.idx == i && l.lap == q.lap

/-- The pages on the far side of page `p`'s crossings (R398). -/
def State.farSides (s : State) (p : Nat) : List Nat :=
  match pageBlk p with
  | some .head => let h := p - 0x20; [Pg.AXIS (3 * h), Pg.AXIS (3 * h + 1), Pg.AXIS (3 * h + 2)]
  | some .axis => let a := p - 0x80; if a < 48 then [Pg.HEAD (a / 3)] else []
  | some .engine =>
    ((List.range 48).filter fun a => s.fb (Pg.AXIS a) Reg.AXIS_STATUS_ASSIGNED && s.f (Pg.AXIS a) Reg.AXIS_STATUS_ENGINE == p - 0x70).map
      (fun a => Pg.HEAD (a / 3)) |>.eraseDups
  | some .brush => let b := p - 0x30; [Pg.AXIS (3 * b), Pg.AXIS (3 * b + 1), Pg.AXIS (3 * b + 2), Pg.LASER b, Pg.GLAZE b]
  | some .laser => let b := p - 0x60; [Pg.BRUSH b, Pg.GLAZE b]
  | some .glaze => let b := p - 0x50; [Pg.LASER b, Pg.VISION]
  | some .enc =>
    let n := p - 0x18
    Pg.MEDIUM :: (List.range 64).filterMap fun a =>
      if s.a (Pg.AXIS a) Reg.AXIS_SOURCE_SP_SRC = 2 ∧ s.a (Pg.AXIS a) Reg.AXIS_SOURCE_SP_INST = n ∨
         s.f (Pg.AXIS a) Reg.AXIS_AXIS_CFG_FB_SRC = 1 ∧ 48 ≤ a ∧ s.f (Pg.AXIS a) Reg.AXIS_AXIS_CFG_FB_INST = n then some (Pg.AXIS a) else none
  | some .step =>
    let n := p - 0x74
    (blkPages .enc).filter fun q => s.f q Reg.ENC_ENC_CFG_MODE == 2 && s.f q Reg.ENC_ENC_CFG_STEP_SRC == n
  | some .cam => (List.range 8).map fun k => Pg.STREAM (8 * (p - 0x1C) + k)
  | some .stream => [Pg.VISION, Pg.CAM ((p - 0xC0) / 8)]
  | some .dram =>
    let x := s.drams[dramOf p]
    ((blkPages .brush).filter (fun q =>
      let b := s.brushes[brushOf q]; b.hdrFetch.isSome || (b.pathA.blocks ++ b.pathB.blocks).any fun k => k.arrived.isNone) ++
      ((List.finRange 16).filter s.lineInFlight).map (fun (b : Fin 16) => Pg.RASTER b) ++
      x.reads.map (dramSide ·.who) ++ x.wq.map (dramSide ·.who)).eraseDups
  | some .link => [Pg.EVCOL]
  | _ => []

/-- The far sides assert CROSS_RESET, stamped with the tick of the reset (R397). -/
def State.crossReset (s : State) (p : Nat) : State := s.each (s.farSides p) fun s q => s.ev! q Ev.CROSS_RESET

end Sys2Proof.Machine
end

