-- ==== Sys2Proof/Machine/Ring.lean ====
section
/-! DEFINITION. What the light ports send, and what their rings return (spec/18_light.md, R324, R331, R332): the return of a burst takes effect at
its last rising edge, and is taken by the first command after it that concerns the port. -/

namespace Sys2Proof.Machine

/-- N of R322. -/
def State.drivers (s : State) (n : Fin 4) : Nat := s.f (Pg.LTPORT n) Reg.LTPORT_PORT_CFG_DRIVERS

/-! ### Frames (R324) -/

/-- The bytes of a word, most significant first. -/
def beBytes (w : Nat) : List Byte := (leBytes 4 w).reverse

/-- Word 0 of a frame: START, then BCAST, ADDR, CMD and INDEX. -/
def ltWord (bcast : Bool) (addr cmd index : Nat) : Nat := 2 ^ 31 + b2n bcast * 2 ^ 29 + addr % 32 * 2 ^ 24 + cmd % 16 * 2 ^ 20 + index % 256

/-- Word 2: the crc32 of words 0 and 1 in transmission order. -/
def ltCrc (w0 w1 : Nat) : Nat := crc32 (beBytes w0 ++ beBytes w1)

/-! ### The ring check (R331) -/

/-- What came back for words `w0` and `w1` is valid: bit for bit, or for a READ with its CRC and its START, ADDR, CMD and INDEX as sent. -/
def returnOk (w0 w1 r0 r1 r2 : Nat) : Bool :=
  if bits w0 20 4 = 2 then r2 == ltCrc r0 r1 && bits r0 30 2 == 2 && bits r0 20 9 == bits w0 20 9 && bits r0 0 8 == bits w0 0 8
  else r0 == w0 && r1 == w1 && r2 == ltCrc w0 w1

/-- A port enters FAULT (R332). -/
def State.lightFault (s : State) (n : Fin 4) : State :=
  let p := Pg.LTPORT n
  if s.st p = stStarting ∨ s.st p = stOn then (s.blockFault p s.now).lightOff n else s

/-- A frame has returned; a run of RING_LIMIT failures faults the port. -/
def State.ringCheck (s : State) (n : Fin 4) (ok : Bool) : State :=
  let p := Pg.LTPORT n
  if ok then s.setLight n fun x => { x with fails := 0 }
  else
    let s1 := (((s.inc p Reg.LTPORT_RING_ERRORS).sticky! p Sticky.LTPORT_RING_ERR).ev! p Ev.LTPORT_RING_ERR).setLight n fun x =>
      { x with fails := x.fails + 1 }
    if s1.f p Reg.LTPORT_PORT_CFG_RING_LIMIT ≤ s1.lights[n].fails then s1.lightFault n else s1

/-- A valid answer to a READ of the host enters the response FIFO, or is dropped and counted. -/
def State.hostAnswer (s : State) (n : Fin 4) (r0 r1 : Nat) : State :=
  let p := Pg.LTPORT n
  if 16 ≤ s.lights[n].resps.length then s.inc p Reg.LTPORT_RING_ERRORS
  else ((s.setLight n fun x => { x with resps := x.resps ++ [⟨r1, r0.testBit 19, bits r0 24 5, bits r0 0 8⟩] }).lightShow n).ev! p Ev.LTPORT_RESP

/-- R330: the answer of driver `k` to a poll updates its TEMP entry, and its flags set DRIVER_FLAG. -/
def State.pollAnswer (s : State) (n : Fin 4) (k r1 : Nat) : State :=
  let p := Pg.LTPORT n
  let f := if k % 2 = 0 then Reg.LTPORT_TEMP_TEMP_EVEN else Reg.LTPORT_TEMP_TEMP_ODD
  let s1 := (s.setF p { f with off := f.off + k / 2 * 4 } (r1 % 65536)).setLight n fun x => { x with polled := putBit x.polled k true }
  if bits r1 16 4 ≠ 0 then s1.sticky! p Sticky.LTPORT_DRIVER_FLAG else s1

/-- R332: the answer of address `k` to an ID read in STARTING. The round ends with address N − 1; after three failed rounds the port faults with
CHAIN. -/
def State.idAnswer (s : State) (n : Fin 4) (k : Nat) (valid : Bool) (r0 r1 : Nat) : State :=
  let p := Pg.LTPORT n
  let good := valid && r0.testBit 19 && r1 % 32 == k && s.lights[n].idOk
  let last := decide (s.drivers n ≤ k + 1)
  let s1 := s.setLight n fun x => { x with
    idNext := if last then 0 else k + 1, idOk := if last then true else good, idDone := last && good,
    rounds := if last && !good then x.rounds + 1 else x.rounds }
  if 3 ≤ s1.lights[n].rounds ∧ s.st p = stStarting then (s1.sticky! p Sticky.LTPORT_CHAIN).lightFault n else s1

/-- The return of burst `b` is taken. -/
def State.takeReturn (s : State) (n : Fin 4) (b : LtBack) : State :=
  let ok := returnOk b.w0 b.w1 b.r0 b.r1 b.r2
  let s1 := match b.kind with
    | .id k => s.idAnswer n k ok b.r0 b.r1
    | .poll k => if ok ∧ b.r0.testBit 19 then s.pollAnswer n k b.r1 else s
    | .host => if ok then s.hostAnswer n b.r0 b.r1 else s
    | _ => s
  s1.ringCheck n ok

/-- Let `g` act at the past tick `a`. -/
def State.backAt (s : State) (a : Nat) (g : State → State) : State :=
  { g { s with time := { s.time with now := a } } with time := s.time }

/-- Edge 94 + N of the burst on its way, at which a sync is applied (R327), and then the edge at which its return is complete (R331), if they have
come. -/
def State.lightReturn (s : State) (n : Fin 4) : State :=
  match s.lights[n].back with
  | none => s
  | some b =>
    let e := wrapU 64 ((b.lastEdge : Int) - 256)
    let s1 := if b.kind = .sync ∧ s.past e then
        (s.backAt e fun s => s.ev! (Pg.LTPORT n) Ev.LTPORT_SYNC_DONE).setLight n fun x => { x with back := some { b with kind := .plain } }
      else s
    if s.past b.lastEdge then (s1.setLight n fun x => { x with back := none }).backAt b.lastEdge fun s => s.takeReturn n b else s1

end Sys2Proof.Machine
end

