-- ==== Sys2Proof/Machine/Memory.lean ====
section
/-! DEFINITION. The banks' codes and repair as their readers meet them (spec/19_banks.md, R335, R339, R343), and what a requester does to the DRAM
controllers (spec/20_dram.md, R347 to R349, R353). What memory holds is the state's `mem`; a write counts as in place at once (R351, R353). -/

namespace Sys2Proof.Machine

/-! ### Banks (R335) -/

/-- The bank a host address lies in, by the numbers of R335. -/
def bankAt (a : Nat) : Option Nat :=
  if 0x10000000 ≤ a ∧ a < 0x11000000 then some ((a - 0x10000000) / 0x100000)
  else if servoBank ≤ a ∧ a < servoBank + 0x100000 then some 16
  else if visionBank ≤ a ∧ a < visionBank + 0x400000 then some 17
  else if recordBank ≤ a ∧ a < recordBank + 0x80000 then some 18
  else if xchBank ≤ a ∧ a < xchBank + 0x40000 then some 19
  else none

/-- The host address a bank begins at. -/
def bankBase (b : Nat) : Nat :=
  if b < 16 then brushBank b else if b = 16 then servoBank else if b = 17 then visionBank else if b = 18 then recordBank else xchBank

/-- The rows of a bank. -/
def bankRows (b : Nat) : Nat := if b ≤ 16 then 2048 else if b = 17 then 8192 else if b = 18 then 1024 else 512

/-- The spare rows of a bank. -/
def bankSpares (b : Nat) : Nat := if b ≤ 16 then 16 else if b = 17 then 64 else if b = 18 then 8 else 4

/-- The power domain of a bank (R15). -/
def bankDomain (b : Nat) : Nat := if b < 16 ∨ b = 19 then 3 else if b = 16 then 4 else if b = 17 then 6 else 0

/-! ### SECDED (R339) -/

/-- The brush page an uncorrectable owner read at `a` stops (ECC_CFG.STOP): a brush bank outside its windows, or a table of an axis. -/
def State.stopsBrush (s : State) (b a : Nat) : Option (Fin 16) :=
  if ¬ (s.f Pg.BANKS Reg.BANKS_ECC_CFG).testBit b then none
  else if h : b < 16 then
    let o := a - brushBank b
    if 0xC3000 ≤ o ∧ o < 0xE3000 then none else some ⟨b, h⟩
  else if b = 16 then
    let o := a - servoBank
    if o < 0x40000 then s.brushOfAxis (o / 0x1000) else none
  else none

/-- A read finds the stored word at `a` of bank `b` in error. -/
def State.bankError (s : State) (b a n : Nat) : State := s.bankFinds (fun s o => s.accAdd o 2 1) b (a - bankBase b) n

/-- The owner of a bank reads `[a, a + n)`: every stored word in error is seen, and an uncorrectable one acts as R339's table says, where the
effect is not the reader's own. -/
def State.ownerRead (s : State) (a n : Nat) : State :=
  s.each (s.memErr.filter fun e => decide (a < e.1 + 8 ∧ e.1 < a + n)) fun s (e : Nat × Nat) =>
    match bankAt e.1 with
    | some b =>
      let s1 := s.bankError b e.1 e.2
      if e.2 < 2 then s1
      else if b = 18 then s1.wrMem e.1 8 0
      else match s.stopsBrush b e.1 with
        | some n => s1.ctrlEn (Pg.BRUSH n) false
        | none => s1
    | none => s

/-- The words of `[a, a + n)` are written anew: no error is left in them. -/
def State.freshWords (s : State) (a n : Nat) : State :=
  { s with memErr := s.memErr.filter fun e => !decide (a ≤ e.1 ∧ e.1 < a + n) }

/-- Several owner reads. -/
def State.ownerReads (s : State) (l : List (Nat × Nat)) : State := if s.memErr.isEmpty then s else s.each l fun s q => s.ownerRead q.1 q.2

/-- What port `x` of BANK_XCH has written in the CLK_FAST cycle of count `c`. -/
def XchPort.of (x : XchPort) (c : Nat) : XchPort := if x.cycle = c then x else { cycle := c }

/-- R338: port `q` of BANK_XCH (0 is port A) writes `k` bytes of one word. Of two writes of a word in one CLK_FAST cycle port A's is kept and port
B's is discarded; the word counts once. -/
def State.xchWrite (s : State) (q : Fin 2) (a k : Nat) (v : Int) : State :=
  let c := s.time.acc
  let w := a / 8
  let mine := s.xch[q].of c
  let other := s.xch[1 - q].of c
  let old := (other.words.find? fun e => e.1 == w).map (·.2)
  let s1 := match old with
    | some l =>
      let s1 := if mine.hits.contains w ∨ other.hits.contains w then s
        else (s.sticky! Pg.BANKS Sticky.BANKS_XCH_COLLIDE).inc Pg.BANKS Reg.BANKS_XCH_COLLIDES
      if q = 0 ∧ ¬ (mine.words.any fun e => e.1 == w) then s1.setBytes (8 * w) l else s1
    | none => s
  let mine1 := { mine with
    words := if mine.words.any fun e => e.1 == w then mine.words else (w, old.getD (s.rawBytes (8 * w) 8)) :: mine.words,
    hits := if old.isSome then w :: mine.hits else mine.hits }
  { (if old.isSome ∧ q = 1 then s1 else s1.wrMemI a k v) with xch := s.xch.set q mine1 }

/-- R338: memory as port `q` of BANK_XCH reads it: a word that the other port writes in the same CLK_FAST cycle reads as it was before. -/
def State.xchSees (s : State) (q : Fin 2) : State := s.each (s.xch[1 - q].of s.time.acc).words fun s e => s.setBytes (8 * e.1) e.2

/-- Several writes of port `q`: addresses, sizes and values. -/
def State.xchWrites (s : State) (q : Fin 2) (l : List (Nat × Nat × Int)) : State := s.each l fun s e => s.xchWrite q e.1 e.2.1 e.2.2

/-! ### Repair (R343) -/

/-- The failed rows of bank `b`: the fuse repairs, then the repair list in use; a row that does not exist is skipped (R385). -/
def State.failedRows (s : State) (b : Nat) : List Nat :=
  ((Config.fuseRepairs ++ s.cal.repairs).filter fun (e : Nat × Nat) => e.1 == b && decide (e.2 < bankRows b)).map (·.2) |>.eraseDups

/-- The banks of a domain are mapped at its switch-on: no spare buffer stands in any more, and a bank with more failed rows than spares is short. -/
def State.repairBanks (s : State) (d : Nat) : State :=
  let p := Pg.BANKS
  s.each ((List.range 20).filter fun b => bankDomain b == d) fun s b =>
    let short := decide (bankSpares b < (s.failedRows b).length)
    let s1 := (s.setF p Reg.BANKS_SPARE_IN_USE (putBit (s.f p Reg.BANKS_SPARE_IN_USE) b false)).setF p Reg.BANKS_REPAIR_SHORT
      (putBit (s.f p Reg.BANKS_REPAIR_SHORT) b short)
    if short then s1.sticky! p Sticky.BANKS_REPAIR_SHORT else s1

/-! ### The DRAM address map (R346, R347) -/

/-- The capacity of one controller in bytes. -/
def State.dramCap (s : State) : Nat := 2 ^ (30 + s.f (Pg.DRAM 0) Reg.DRAM_CFG_DENSITY)

/-- The controller and local address of a DRAM offset `a`, by INTERLEAVE. -/
def dramMap (interleave cap a : Nat) : Fin 2 × Nat :=
  let sh (k : Nat) : Fin 2 × Nat := (⟨a / 2 ^ k % 2, Nat.mod_lt _ (by decide)⟩, a / 2 ^ (k + 1) * 2 ^ k + a % 2 ^ k)
  if interleave = 0 then sh 12
  else if interleave = 1 then sh 18
  else if a < cap then (0, a) else (1, a - cap)

def State.dramLoc (s : State) (addr : Nat) : Fin 2 × Nat := dramMap (s.f Pg.DTRAIN Reg.DTRAIN_MAP) s.dramCap (addr - dramBase)

/-- The bank (bank group × 4 + bank) and the row of a granule. -/
def granBank (g : Nat) : Fin 16 :=
  let l := g * 64
  ⟨(l / 2 ^ 12 % 4 * 4 + l / 2 ^ 14 % 4) % 16, Nat.mod_lt _ (by decide)⟩

def granRow (g : Nat) : Nat := g * 64 / 2 ^ 16

/-- A location the host and the requesters may use: in the populated range, and outside the check bytes where ECC is on (R346, R348). -/
def State.dramUsable (s : State) (addr : Nat) : Bool :=
  let cap := s.dramCap
  let loc := s.dramLoc addr
  decide (dramBase ≤ addr ∧ addr < dramBase + 2 * cap) &&
    (!s.fb (Pg.DRAM loc.1) Reg.DRAM_CFG_ECC_EN || decide (loc.2 < 7 * cap / 8))

/-- Both DRAM pages are ON. -/
def State.dramOn (s : State) : Bool := s.isOn (Pg.DRAM 0) && s.isOn (Pg.DRAM 1)

/-! ### Requests (R349, R350, R353) -/

/-- The age limit of a class in tk (R350); C0 has none. -/
def State.ageLimit (s : State) (i : Fin 2) (cls : Nat) : Nat :=
  let p := Pg.DRAM i
  3200 * 2 ^ (if cls = 1 then s.f p Reg.DRAM_SCHED_AGE_C1 else if cls = 2 then s.f p Reg.DRAM_SCHED_AGE_C2 else s.f p Reg.DRAM_SCHED_AGE_C3)

/-- STATUS of a controller follows its write queue and its open pages. -/
def State.dramShow (s : State) (i : Fin 2) : State :=
  let p := Pg.DRAM i
  let x := s.drams[i]
  (s.setF p Reg.DRAM_STATUS_WQ x.wq.length).setF p Reg.DRAM_STATUS_OPEN_PAGES (x.pages.toList.filter Option.isSome).length

/-- LAT_PEAK of a class takes the time from queue entry to completion (R360). -/
def State.latPeak (s : State) (i : Fin 2) (cls since : Nat) : State :=
  let f := if cls = 0 then Reg.DRAM_LAT_PEAK_C0 else if cls = 1 then Reg.DRAM_LAT_PEAK_C1 else if cls = 2 then Reg.DRAM_LAT_PEAK_C2
    else Reg.DRAM_LAT_PEAK_C3
  s.setF (Pg.DRAM i) f (max (s.f (Pg.DRAM i) f) (min 255 ((s.now - since) * 10 / 16384)))

/-- Inline ECC finds the data word of entry `e` in error as it is read; a corrected granule is then to be written back (R356). -/
def State.dramFinds (s : State) (e : Nat × Nat) : State :=
  let (i, l) := s.dramLoc e.1
  let p := Pg.DRAM i
  if e.2 = 1 then
    (((s.inc p Reg.DRAM_ECC_CORRECTED).ev! p Ev.DRAM_CORRECTED).accAdd (0xD20 + 8 * i) 4 1).setDram i fun x =>
      { x with fixes := if x.fixes.contains (l / 64) then x.fixes else x.fixes ++ [l / 64] }
  else
    let s1 := ((((s.inc p Reg.DRAM_ECC_UNCORR).accAdd (0xD24 + 8 * i) 4 1).sticky! p Sticky.DRAM_UNCORR).ev! p Ev.DRAM_UNCORR).declare 10
    (((s1.setB p Reg.DRAM_LAST_ERR_VALID true).setF p Reg.DRAM_LAST_ERR_GRANULE (l / 64)).setF p Reg.DRAM_LAST_ERR_TIME_LO (s.now % 2 ^ 32)).setF p
      Reg.DRAM_LAST_ERR_TIME_HI (s.now / 2 ^ 32 % 2 ^ 16)

/-- Inline ECC acts on the controller that holds `a`. -/
def State.eccOn (s : State) (a : Nat) : Bool := s.fb (Pg.DRAM (s.dramLoc a).1) Reg.DRAM_CFG_ECC_EN

/-- A read granule checked by inline ECC (R356). -/
def State.dramCheck (s : State) (addr : Nat) : State :=
  if s.eccOn addr then s.each (s.memErr.filter fun e => decide (addr / 64 * 64 ≤ e.1 ∧ e.1 < addr / 64 * 64 + 64)) State.dramFinds else s

/-- R348, R356: a write of `[a, a + n)` reads each word that it covers in part, before it merges and writes it. -/
def State.mergeRead (s : State) (a n : Nat) : State :=
  s.each (s.memErr.filter fun e => decide (a < e.1 + 8 ∧ e.1 < a + n) && !decide (a ≤ e.1 ∧ e.1 + 8 ≤ a + n) && s.eccOn e.1) State.dramFinds

/-! ### Devices (R348, R352, R354) -/

/-- The host address of local address `l` of controller `i`: the inverse of `dramMap`. -/
def dramUnmap (interleave cap : Nat) (i : Fin 2) (l : Nat) : Nat :=
  let sh (k : Nat) : Nat := l / 2 ^ k * 2 ^ (k + 1) + i * 2 ^ k + l % 2 ^ k
  dramBase + (if interleave = 0 then sh 12 else if interleave = 1 then sh 18 else i * cap + l)

def State.dramAddr (s : State) (i : Fin 2) (l : Nat) : Nat := dramUnmap (s.f Pg.DTRAIN Reg.DTRAIN_MAP) s.dramCap i l

/-- The check byte of a data word. The spec does not give the (72,64) code; like any linear code it gives the zero word a zero byte (PRESUMED,
log 44). -/
def checkOf (v : Nat) : Byte := if v = 0 then 0#8 else Config.checkByte (BitVec.ofNat 64 v)

/-- R348: check granule `c` is written back: the check bytes of the data words of granules 8c to 8c + 7. -/
def State.checkOut (s : State) (i : Fin 2) (c : Nat) : State :=
  s.each (List.range 64) fun s k =>
    s.setByte (s.dramAddr i (7 * s.dramCap / 8 + 64 * c + k)) (checkOf (leNat (s.rawBytes (s.dramAddr i (512 * c + 8 * k)) 8)))

/-- R348: the check bytes of granule `g` are used. The cache of 64 check granules holds the latest used, and writes back one that it evicts and that
has changed. -/
def State.checkUse (s : State) (i : Fin 2) (g : Nat) (write : Bool) : State :=
  if s.fb (Pg.DRAM i) Reg.DRAM_CFG_ECC_EN then
    let c := g / 8
    let l := s.drams[i].checks
    let dirty := write || l.any fun e => e.1 == c && e.2
    let l' := (c, dirty) :: l.filter fun e => e.1 != c
    let s1 := s.setDram i fun x => { x with checks := l'.take 64 }
    match l'[64]? with
    | some (k, true) => s1.checkOut i k
    | _ => s1
  else s

/-- One step of the LFSR of R354: x^32 + x^22 + x^2 + x + 1, shifting left. -/
def lfsr32 (n : Nat) : Nat := n * 2 % 2 ^ 32 + b2n ((n.testBit 31 != n.testBit 21) != (n.testBit 1 != n.testBit 0))

/-- Row `row` of bank `b` is open. -/
def DramSt.rowOpen (x : DramSt) (b : Fin 16) (row : Nat) : Bool :=
  match x.pages[b] with
  | some q => q.row == row
  | none => false

/-- R352, R354: the page of a granule is opened where it is not open; an activate steps the LFSR, and may refresh the row's neighbours, which
leaves the bank closed. -/
def State.activate (s : State) (i : Fin 2) (g : Nat) : State :=
  let p := Pg.DRAM i
  let b := granBank g
  let row := granRow g
  let x := s.drams[i]
  if x.rowOpen b row then s.setDram i fun x => { x with pages := x.pages.set b (some ⟨row, s.now⟩) }
  else if s.fb p Reg.DRAM_NREF_EN then
    let n := lfsr32 x.lfsr
    let hit := decide (n % 2 ^ s.f p Reg.DRAM_NREF_K = 0)
    let rows := s.dramCap / 2 ^ 16
    let s1 := s.setDram i fun x => { x with lfsr := n, pages := x.pages.set b (if hit then none else some ⟨row, s.now⟩) }
    if hit then s1.inc p Reg.DRAM_NEIGHBOUR_REFRESHES (b2n (decide (0 < row)) + b2n (decide (row + 1 < rows))) else s1
  else s.setDram i fun x => { x with pages := x.pages.set b (some ⟨row, s.now⟩) }

/-- A command of a controller: a read, or a write that leaves its queue. -/
inductive DramCmd where
  | read (r : DramReq)
  | write (w : WqEntry)
  deriving DecidableEq, Repr

/-- The rank of a request (R350): its class, or C0 once promoted; then first-ready. -/
def DramSt.rank (x : DramSt) : DramCmd → Nat × Nat × Nat
  | .read r => (if r.promoted then 0 else r.cls, b2n (!x.rowOpen (granBank r.gran) (granRow r.gran)), r.at_)
  | .write w => (if w.promoted then 0 else w.cls, b2n (!x.rowOpen (granBank w.gran) (granRow w.gran)), w.at_)

/-- Rank `a` goes before rank `b`: by class, then first-ready, then age. -/
def rankLt (a b : Nat × Nat × Nat) : Bool :=
  decide (a.1 < b.1) || (a.1 == b.1 && (decide (a.2.1 < b.2.1) || (a.2.1 == b.2.1 && decide (sdiff48 a.2.2 b.2.2 < 0))))

/-- The first of several commands, which stand oldest first. -/
def DramSt.best (x : DramSt) (l : List DramCmd) : Option DramCmd :=
  l.foldl (fun (a : Option DramCmd) c => match a with | some q => if rankLt (x.rank c) (x.rank q) then some c else some q | none => some c) none

/-- A write leaves the queue for the device. -/
def State.serveWrite (s : State) (i : Fin 2) (w : WqEntry) : State :=
  ((((s.activate i w.gran).checkUse i w.gran true).setDram i fun x => { x with wq := x.wq.erase w }).inc (Pg.DRAM i) Reg.DRAM_WRITE_GRANULES).latPeak i
    w.cls w.at_

/-- The granules of `[a, a + n)` with the bytes of each that lie in it, as masks. -/
def granules (a n : Nat) : List (Nat × Nat) :=
  if n = 0 then []
  else (List.range ((a + n - 1) / 64 + 1 - a / 64)).map fun k =>
    let g := (a / 64 + k) * 64
    let lo := max a g - g
    let hi := min (a + n) (g + 64) - g
    (g, 2 ^ hi - 2 ^ lo)

/-- A read of one granule enters a controller: it is served from the write queue where an entry covers it, else it waits (R353). -/
def State.readGranule (s : State) (cls who : Nat) (q : Nat × Nat) : State :=
  let (i, l) := s.dramLoc q.1
  let p := Pg.DRAM i
  let g := l / 64
  let wait : DramReq := { cls := cls, who := who, gran := g, addr := q.1, at_ := s.now, limit := s.ageLimit i cls, promoted := cls == 0, mask := q.2 }
  match s.drams[i].wq.find? fun e => e.gran == g with
  | some e =>
    if e.mask &&& q.2 = q.2 then s.inc p Reg.DRAM_FORWARDS
    else s.setDram i fun x => { x with
      reads := x.reads ++ [wait], wq := if e.mask &&& q.2 = 0 then x.wq else x.wq.map fun w => if w.gran = g then { w with flush := true } else w }
  | none => s.setDram i fun x => { x with reads := x.reads ++ [wait] }

/-- The requester of page `who` reads `[a, a + n)` of DRAM. -/
def State.dramRead (s : State) (cls who a n : Nat) : State :=
  if s.dramOn then s.each (granules a n) fun s q => s.readGranule cls who q else s

/-- The write that goes first leaves a full queue. -/
def State.writeOut (s : State) (i : Fin 2) : State :=
  match s.drams[i].best (s.drams[i].wq.map .write) with
  | some (.write w) => s.serveWrite i w
  | _ => s

/-- R353: the reads of granule `g` that entered in the CLK_CORE cycle of a write to it are compared after the write: one that its entry covers is
served from the queue, and one that it covers in part lets the entry go. -/
def State.lateCompare (s : State) (i : Fin 2) (g : Nat) : State :=
  match s.drams[i].wq.find? fun e => e.gran == g with
  | some e =>
    let same (r : DramReq) : Bool := r.gran == g && r.at_ / 16 == s.now / 16
    let whole (r : DramReq) : Bool := same r && e.mask &&& r.mask == r.mask
    let x := s.drams[i]
    let part := x.reads.any fun r => same r && !whole r && e.mask &&& r.mask != 0
    ((s.setDram i fun x => { x with
      reads := x.reads.filter fun r => !whole r,
      wq := if part then x.wq.map fun w => if w.gran = g then { w with flush := true } else w else x.wq }).inc (Pg.DRAM i) Reg.DRAM_FORWARDS
      (x.reads.filter whole).length)
  | none => s

/-- A write of one granule enters a controller: it merges into an entry of its granule, or takes a new one; a full queue lets one go first. -/
def State.writeGranule (s : State) (cls who : Nat) (q : Nat × Nat) : State :=
  let (i, l) := s.dramLoc q.1
  let g := l / 64
  let s0 := s.setDram i fun x => { x with fixes := x.fixes.filter (· != g) }
  (if s0.drams[i].wq.any fun e => e.gran == g then
    s0.setDram i fun x => { x with wq := x.wq.map fun e => if e.gran = g then { e with mask := e.mask ||| q.2 } else e }
  else
    let s1 := if 64 ≤ s0.drams[i].wq.length then s0.writeOut i else s0
    let e : WqEntry := { cls := cls, who := who, gran := g, addr := q.1, mask := q.2, at_ := s.now, limit := s.ageLimit i cls }
    (s1.setDram i fun x => { x with wq := x.wq ++ [e] }).dramShow i).lateCompare i g

/-- R353: the order in which writes of one CLK_CORE cycle merge: by class, and of the host's, HOST_A's before HOST_B's. -/
def mergeOrder (cls who : Nat) : Nat := 2 * cls + b2n (who == Pg.LINK 1)

/-- The bytes `l` of a write of order `o` at `a`, stored but where a write of the same cycle that merges after it has been. -/
def State.mergeBytes (s : State) (o a : Nat) (l : List Byte) : State :=
  let c := s.now / 16
  let was := if s.dramCycle.cycle = c then s.dramCycle.writes else []
  let kept (k : Nat) : Bool := was.any fun w => decide (o < w.1 ∧ w.2.1 ≤ k ∧ k < w.2.1 + w.2.2)
  let s1 := if was.any (fun w => decide (o < w.1)) then
      (l.foldl (fun (q : State × Nat) b => (if kept q.2 then q.1 else q.1.setByte q.2 b, q.2 + 1)) (s, a)).1
    else s.setBytes a l
  { s1 with dramCycle := ⟨c, (o, a, l.length) :: was⟩ }

/-- R353: a host READ of the same CLK_CORE cycle as a write by another requester, `who`, of `[a, a + n)` sees it. -/
def State.readsSee (s : State) (who a n : Nat) : State :=
  s.each [(0 : Fin 20), 1] fun s l =>
    if who = lanePage l then s
    else
      let sees (c : Cpl) : Bool := c.op == 0 && c.taken / 16 == s.now / 16 && decide (dramBase ≤ c.addr ∧ a < c.addr + c.data.length ∧ c.addr < a + n)
      if s.lanes[l].cpls.any sees then
        s.setLane l fun x => { x with cpls := x.cpls.map fun c => if sees c then { c with data := s.rawBytes c.addr c.data.length } else c }
      else s

/-- A requester writes bytes to DRAM at a host address: they are in place at once. Nothing is stored below the DRAM window. -/
def State.dramWrite (s : State) (cls who a : Nat) (l : List Byte) : State :=
  if s.dramOn then
    let s1 := s.when (decide (dramBase ≤ a)) fun s => ((s.mergeRead a l.length).mergeBytes (mergeOrder cls who) a l).readsSee who a l.length
    s1.each (granules a l.length) fun s q => s.writeGranule cls who q
  else s

/-- A request of the state's queues lies outside the populated DRAM range or in the check bytes, which R346 makes a host error. -/
def State.dmaBreach (s : State) : Bool :=
  s.drams.toList.any fun x => x.reads.any (fun r => !s.dramUsable r.addr) || x.wq.any fun w => !s.dramUsable w.addr

/-- As `done`, for a command that makes a block's own requests of DRAM. -/
def doneDma (s s' : State) : Host.Outcome State Fault Refusal := if s'.dmaBreach then .fault (.hostBreach 346) else done s s'

/-- A word of `[a, a + n)` in DRAM is uncorrectable for a read under inline ECC (R356). -/
def State.dramBad (s : State) (a n : Nat) : Bool :=
  s.fb (Pg.DRAM (s.dramLoc a).1) Reg.DRAM_CFG_ECC_EN && s.bad a n

end Sys2Proof.Machine
end

