-- ==== Sys2Proof/Machine/Clock.lean ====
section
/-! DEFINITION. Reference candidates, hold, coasting and SAFE-HOLD, and the frequency meter (spec/03_clocking.md, R47 to R62). -/

namespace Sys2Proof.Machine

/-- At least `d` tk have passed since `since`. Before the timebase runs the AON oscillator times the block (R61, R128), of which State holds no
count: the command is then taken at its word. -/
def State.elapsed (s : State) (since d : Nat) : Bool := !s.time.running || s.past (since + d)

/-- No more than `d` tk have passed since `since`, as far as the block times it. -/
def State.within (s : State) (since d : Nat) : Bool := !s.time.running || !s.past (since + d + 1)

def State.setClk (s : State) (g : ClkSt → ClkSt) : State := { s with clk := g s.clk }

/-- Bit `c` of REF_STATUS.VALID. -/
def State.candValid (s : State) (c : Nat) : Bool := (s.f Pg.CLK Reg.CLK_REF_STATUS_VALID).testBit c

def State.setValid (s : State) (c : Nat) (v : Bool) : State :=
  s.setF Pg.CLK Reg.CLK_REF_STATUS_VALID (putBit (s.f Pg.CLK Reg.CLK_REF_STATUS_VALID) c v)

def State.candEdges (s : State) (c : Nat) : Bool := (s.f Pg.CLK Reg.CLK_REF_STATUS_EDGES).testBit c

def State.setEdges (s : State) (c : Nat) (v : Bool) : State :=
  s.setF Pg.CLK Reg.CLK_REF_STATUS_EDGES (putBit (s.f Pg.CLK Reg.CLK_REF_STATUS_EDGES) c v)

def State.coasting (s : State) : Bool := s.fb Pg.CLK Reg.CLK_STATUS_COASTING

def State.selected (s : State) : Nat := s.f Pg.CLK Reg.CLK_REF_STATUS_SELECTED

/-- The candidates in CLK.REF_PRIO order. -/
def State.refOrder (s : State) : List Nat :=
  [s.f Pg.CLK Reg.CLK_REF_PRIO_P0, s.f Pg.CLK Reg.CLK_REF_PRIO_P1, s.f Pg.CLK Reg.CLK_REF_PRIO_P2, s.f Pg.CLK Reg.CLK_REF_PRIO_P3].filter (· < 4)

/-- The first valid candidate in CLK.REF_PRIO order (R51). -/
def State.firstValid (s : State) : Option Nat := s.refOrder.find? fun c => s.candValid c

/-- The conditions of R50 but the qualification time: a device strapped A never takes its peer lanes; the port is ON with frame lock (a lane in
its rate step keeps its place, R52); edges are present; the monitor reads it in range, which is waived while coasting (R59). -/
def State.candFit (s : State) (c : Fin 4) : Bool :=
  let p := Pg.LINK c
  (decide (c.val < 2) || s.roleB) && s.isOn p && (s.fb p Reg.LANE_LANE_STATUS_FRAME_LOCK || s.phase c == phStep) && s.candEdges c
    && (s.coasting || s.clk.freqOk[c])

/-- The device is in a state from which the loss of every reference takes it to SAFE-HOLD (R24). -/
def State.mayHold (s : State) : Bool := s.pwr.dev == .linked || s.pwr.dev == .active

/-- What the block does on entry to SAFE-HOLD outside the clock (R24, R57): CTRL.EN = 0 on every page outside PD_SYS and PD_LINK but the HEAD
pages, and on SYS; cause CLOCK for every brush; a SAFE_HOLD record. -/
def State.enterSafeHold (s : State) : State :=
  let pages := allPages.filter fun p => decide (pageDomain p ≠ 0 ∧ pageDomain p ≠ 1) && pageBlk p != some .head
  let s1 := (s.setB Pg.CLK Reg.CLK_STATUS_SAFE_HOLD true).each pages fun s p => if s.pageOn p then s.ctrlEn1 p false else s
  let s2 := (s1.ctrlEn Pg.SYS false).latchCause allBrushes causeClock s.now
  { s2 with pwr := { s2.pwr with dev := .safeHold } }.trigger 6

/-- R116: as coasting begins the servo stops: what it has not yet put in force is dropped, and the rate is held. -/
def State.servoHold (s : State) : State :=
  if s.f Pg.TIME Reg.TIME_MODE_CTRL_MODE = 1 then { s with time := { s.time with nextRate := none, nextStep := none } } else s

/-- Every reference is lost (R55, R56): the clock-free force acts, the PLL coasts, a fault device A may declare (R318), and the device enters SAFE-HOLD, from LINKED or ACTIVE. -/
def State.coastEnter (s : State) : State :=
  let s1 := { s with pwr := { s.pwr with clockForce := true } }
  let s2 := (((((s1.setB Pg.CLK Reg.CLK_STATUS_FORCED true).setB Pg.CLK Reg.CLK_STATUS_COASTING
    true).setB Pg.CLK Reg.CLK_STATUS_HOLD false).setF Pg.CLK Reg.CLK_STATUS_HOLD_CAUSE 0).setB Pg.CLK Reg.CLK_STATUS_LOCKED false).setF Pg.CLK
    Reg.CLK_REF_STATUS_SELECTED 7
  let s3 := (((s2.servoHold.setClk fun k => { k with chain := false, exiting := false }).inc Pg.CLK Reg.CLK_COUNTS_COAST_COUNT).accAdd 0xD66 2 1 |>.sticky! Pg.CLK
    Sticky.CLK_FORCE_ASSERTED).sticky! Pg.CLK Sticky.CLK_COAST_ENTERED
  (((s3.ev! Pg.CLK Ev.CLK_COAST).declare 8).when s3.mayHold State.enterSafeHold).allPins

/-- The root PLL enters hold towards candidate `c` (R52). A second cause during a hold changes the candidate and not the count (R53); the cause
shown stays the first. -/
def State.holdBegin (s : State) (c cause : Nat) : State :=
  if s.fb Pg.CLK Reg.CLK_STATUS_HOLD then s.setF Pg.CLK Reg.CLK_REF_STATUS_SELECTED c
  else
    let s1 := ((((s.setB Pg.CLK Reg.CLK_STATUS_HOLD true).setB Pg.CLK Reg.CLK_STATUS_LOCKED false).setF Pg.CLK Reg.CLK_STATUS_HOLD_CAUSE
      cause).setPair Pg.CLK Reg.CLK_LAST_SWITCH_LO Reg.CLK_LAST_SWITCH_HI s.now)
    (s1.setClk fun k => { k with holdStart := s.now, prevSel := s.selected, chain := false }).setF Pg.CLK Reg.CLK_REF_STATUS_SELECTED c

/-- Step 2 of R59 begins with the first valid candidate, or waits at step 1. -/
def State.exitBegin (s : State) : State := s.setClk fun k => { k with exiting := s.firstValid.isSome }

/-- A valid candidate has become invalid (R50, R51): REF_LOST; if it is the selected one, the next valid one is acquired in hold, or the PLL
coasts. -/
def State.candLost (s : State) (c : Nat) : State :=
  let s1 := (s.setValid c false).ev! Pg.CLK Ev.CLK_REF_LOST
  if s1.coasting then s1.exitBegin
  else if s1.selected = c then
    match s1.firstValid with
    | some d => s1.holdBegin d 2
    | none => s1.coastEnter
  else s1

/-- R50, R127: in step 6 the first candidate in CLK.REF_PRIO order to reach frame lock is taken, and kept while it has it. -/
def State.primerTake (s : State) : State :=
  let fit (c : Nat) : Bool := (decide (c < 2) || s.roleB) && s.pageOn (Pg.LINK c) && s.fb (Pg.LINK c) Reg.LANE_LANE_STATUS_FRAME_LOCK
  if s.pwr.primer = .waitLink then
    match s.clk.primer with
    | some c => if fit c then s else s.setClk fun k => { k with primer := s.refOrder.find? fit }
    | none => s.setClk fun k => { k with primer := s.refOrder.find? fit }
  else s

/-- Bring a candidate up to date with the conditions of R50; before the root PLL has locked there is only the primer's choice. -/
def State.candUpdate (s : State) (c : Fin 4) : State :=
  if ¬ s.clk.locked then s.primerTake
  else if s.candFit c then
    if s.clk.qualSince[c].isNone then s.setClk fun k => { k with qualSince := k.qualSince.set c (some s.now) } else s
  else
    let flap := s.clk.qualSince[c].isSome && !s.candValid c
    let s1 := s.setClk fun k => { k with qualSince := k.qualSince.set c none }
    let s2 := if flap then s1.sticky! Pg.CLK Sticky.CLK_REF_FLAP else s1
    if s2.candValid c then s2.candLost c else s2

/-- Every candidate brought up to date; a port that is not ON shows no measured offset. -/
def State.candAll (s : State) : State :=
  s.each (List.finRange 4) fun s c =>
    let s1 := if s.isOn (Pg.LINK c) then s else s.setF Pg.CLK (Reg.CLK_REF_OFFSET.num c) 0x8000
    s1.candUpdate c

/-- R62: source `src` stops under a measurement of it. -/
def State.fmeasStop (s : State) (src : Nat) : State :=
  s.setClk fun k => { k with fmeas := k.fmeas.map fun m => if m.src = src then { m with gone := true } else m }

/-- R55, R50: the missing-edge detector of candidate `c` fires. -/
def execMissingEdge (t : Nat) (c : Fin 4) (s : State) : Host.Outcome State Fault Refusal :=
  let s1 := s.upTo t
  done s (if s1.pwr.linkOn ∧ s1.candEdges c then
    (((s1.setEdges c false).fmeasStop (4 + c)).setF Pg.CLK (Reg.CLK_REF_OFFSET.num c) 0x8000).candUpdate c
  else s1)

/-- The end of a monitor window (R50): OFFSET of every candidate that can be measured, and its place in the window of REF_TOL, which is waived
while the window runs against a coasting root (R59). -/
def State.freqWindow (s : State) (c : Fin 4) (o : Int) : State :=
  if s.isOn (Pg.LINK c) ∧ s.candEdges c then
    let s1 := s.setFi Pg.CLK (Reg.CLK_REF_OFFSET.num c) (clampI o (-32767) 32767)
    (s1.setClk fun k => { k with freqOk := k.freqOk.set c (s.coasting || decide (o.natAbs ≤ 100 * s1.f Pg.CLK Reg.CLK_REF_CTRL_REF_TOL)) }).candUpdate c
  else s

/-- R50: a monitor window ends; `o0` to `o3` are the candidates' frequencies against CLK_ROOT / 16 in 0.1 ppm. -/
def execFreqWindowEnd (t : Nat) (o0 o1 o2 o3 : Int) (s : State) : Host.Outcome State Fault Refusal :=
  done s (if s.clk.locked then ((((s.upTo t).freqWindow 0 o0).freqWindow 1 o1).freqWindow 2 o2).freqWindow 3 o3 else s.upTo t)

/-- Whether candidate `c` stands before the selected one in CLK.REF_PRIO order. -/
def State.earlierRef (s : State) (c : Nat) : Bool :=
  match s.refOrder.find? fun d => d == c || d == s.selected with
  | some d => d == c && decide (c ≠ s.selected)
  | none => false

/-- R50, R51, R59: a candidate has met its conditions for the qualification time and becomes valid; a revertive switch, or the exit from
coasting, may begin. -/
def execCandidateQualified (t : Nat) (c : Fin 4) (s : State) : Host.Outcome State Fault Refusal :=
  let s1 := s.upTo t
  done s (match s1.clk.qualSince[c] with
  | some since =>
    if s1.candFit c ∧ ¬ s1.candValid c ∧ s1.elapsed since (2 ^ s1.f Pg.CLK Reg.CLK_REF_CTRL_QUAL * 102400) then
      let s2 := (s1.setValid c true).ev! Pg.CLK Ev.CLK_REF_RETURN
      if s2.coasting then (if s2.clk.exiting then s2 else s2.exitBegin)
      else if s2.fb Pg.CLK Reg.CLK_REF_CTRL_REVERT ∧ s2.earlierRef c then s2.holdBegin c 3 else s2
    else s1
  | none => s1)

/-- R52, R53: the phase error has stayed below 16 ps for 1,024 reference cycles, and the hold ends in lock, within its 20 µs. -/
def execHoldLock (t : Nat) (s : State) : Host.Outcome State Fault Refusal :=
  let s1 := s.upTo t
  done s (if s1.fb Pg.CLK Reg.CLK_STATUS_HOLD ∧ s1.elapsed s1.clk.holdStart 16384 ∧ s1.within s1.clk.holdStart 128000 then
    let s2 := ((s1.setB Pg.CLK Reg.CLK_STATUS_HOLD false).setF Pg.CLK Reg.CLK_STATUS_HOLD_CAUSE 0).setB Pg.CLK Reg.CLK_STATUS_LOCKED true
    if s2.selected = s2.clk.prevSel then s2
    else (s2.inc Pg.CLK Reg.CLK_COUNTS_SWITCH_COUNT).ev! Pg.CLK Ev.CLK_REF_SWITCH
  else s1)

/-- R53: a hold has lasted 20 µs without lock: its candidate is marked invalid and the next valid one is acquired in a new hold, or the PLL
coasts. -/
def execHoldExpired (t : Nat) (s : State) : Host.Outcome State Fault Refusal :=
  let s1 := s.upTo t
  done s (if s1.fb Pg.CLK Reg.CLK_STATUS_HOLD ∧ s1.elapsed s1.clk.holdStart 128000 then
    let c := s1.selected
    let s2 := (s1.sticky! Pg.CLK Sticky.CLK_HOLD_EXPIRED).ev! Pg.CLK Ev.CLK_HOLD_EXPIRED
    let s3 := if s2.candValid c then (s2.setValid c false).ev! Pg.CLK Ev.CLK_REF_LOST else s2
    let s4 := if h : c < 4 then s3.setClk fun k => { k with qualSince := k.qualSince.set c (if s3.candFit ⟨c, h⟩ then some s3.now else none) }
      else s3
    match s4.firstValid with
    | some d => ((s4.setPair Pg.CLK Reg.CLK_LAST_SWITCH_LO Reg.CLK_LAST_SWITCH_HI s4.now).setClk fun k =>
        { k with holdStart := s4.now, chain := true }).setF Pg.CLK Reg.CLK_REF_STATUS_SELECTED d
    | none => s4.coastEnter
  else s1)

/-- TSTATE goes to ACQUIRING on leaving SAFE-HOLD, where the protocol runs (R114, R116). -/
def State.reacquireTime (s : State) : State :=
  if s.en Pg.TIME ∧ s.f Pg.TIME Reg.TIME_MODE_CTRL_MODE = 1 then
    { s.setF Pg.TIME Reg.TIME_STATUS_TSTATE 1 with time := { s.time with okRun := 0, badRun := 0 } }
  else s

/-- R59 step 2: the PLL has slewed back and locks (`ok`), and monitor windows begin against the locked root; or it has not locked within its 20 µs,
and then returns to coasting with its candidate marked invalid. The candidate is the first valid one of REF_PRIO at the present tick, whatever REVERT
says (DESIGN CHOICE, log 91). -/
def execCoastExitLock (t : Nat) (ok : Bool) (s : State) : Host.Outcome State Fault Refusal :=
  let s1 := s.upTo t
  done s (if s1.coasting ∧ s1.clk.exiting then
    match s1.firstValid with
    | some c =>
      if ok then
        ((s1.setB Pg.CLK Reg.CLK_STATUS_COASTING false).setB Pg.CLK Reg.CLK_STATUS_LOCKED true).setF Pg.CLK Reg.CLK_REF_STATUS_SELECTED c
          |>.setClk fun k => { k with exiting := false, freqOk := Vector.replicate 4 true }
      else
        let s2 := (s1.setValid c false).ev! Pg.CLK Ev.CLK_REF_LOST
        (s2.setClk fun k => { k with qualSince := if h : c < 4 then k.qualSince.set c (some s2.now) else k.qualSince }).exitBegin
    | none => s1
  else s1)

/-- R59 steps 3 and 4: SAFE_HOLD_CLEAR.GO releases the force and takes the device to LINKED, once coasting has ended. -/
def execSafeHoldClear (t : Nat) (s : State) : Host.Outcome State Fault Refusal :=
  let s1 := s.upTo t
  if ¬ s1.pageOn (Pg.CLK) then .fault (.domainOff (regAddr (Pg.CLK) 0x050))
  else done s (if s1.pwr.sysOn ∧ s1.fb Pg.CLK Reg.CLK_STATUS_SAFE_HOLD ∧ ¬ s1.coasting then
    let s2 := (s1.setB Pg.CLK Reg.CLK_STATUS_SAFE_HOLD false).setB Pg.CLK Reg.CLK_STATUS_FORCED false
    { s2 with pwr := { s2.pwr with clockForce := false, dev := if s2.pwr.dev = DevState.safeHold then .linked else s2.pwr.dev } }.reacquireTime.allPins
  else s1)

/-! ### The frequency meter (R60, R62) -/

/-- The reading of a source divided from CLK_ROOT: its ratio to CLK_CORE is 2 for sources 0 to 2 and 1/4 for CLK_SLOW (R48), and 1/4, 1/8, 1/16
or 1/32 for SCK by NV_CFG.SCK (R381). -/
def fmeasFixed (m : Fmeas) (sck : Nat) : Option Nat :=
  let slower (k : Nat) : Option Nat := some (if m.dir = 0 then 2 ^ (m.gate - k) else 2 ^ (m.gate + k))
  if m.src < 3 then some (if m.dir = 0 then 2 ^ (m.gate + 1) else 2 ^ (m.gate - 1))
  else if m.src = 3 then slower 2
  else if m.src = 20 then slower (2 + sck)
  else none

/-- The power domain of a source (R60): that of its port, or PD_SYS. -/
def fmeasDomain (src : Nat) : Nat :=
  if 4 ≤ src ∧ src ≤ 7 then pageDomain (Pg.LINK (src - 4))
  else if 8 ≤ src ∧ src ≤ 11 then pageDomain (Pg.CAM (src - 8))
  else if 12 ≤ src ∧ src ≤ 15 then pageDomain (Pg.ENC (src - 12))
  else if src = 17 then pageDomain (Pg.HEAD 0)
  else if src = 18 then pageDomain (Pg.STEP 0)
  else if src = 19 then pageDomain (Pg.LTPORT 0)
  else if src = 21 ∨ src = 22 then pageDomain (Pg.DRAM 0)
  else 0

/-- The gate takes an edge of a source that the block counts itself, at the CLK_FAST edge `c`: with DIR 0 within 2^G CLK_CORE cycles, of two CLK_FAST
cycles each (R48); with DIR 1 from the first edge up to the one that ends 2^G source cycles. -/
def Fmeas.edge (m : Fmeas) (c : Nat) : Fmeas :=
  if m.dir = 0 then (if c < m.startC + 2 * 2 ^ m.gate then { m with edges := m.edges + 1 } else m)
  else if m.edges = 0 then { m with edges := 1, opened := c, closed := c }
  else if m.edges ≤ 2 ^ m.gate then { m with edges := m.edges + 1, closed := c }
  else m

/-- R60: an encoder port counts an edge, which a measurement of it takes. -/
def State.fmeasEdge (s : State) (n : Nat) : State :=
  s.setClk fun k => { k with fmeas := k.fmeas.map fun m => if m.src = 12 + n then m.edge s.time.cycles else m }

/-- R60: source `src` of instance `n` sends a burst of `edges` edges, `gap` tk apart from tick `v`; a measurement takes those not before its start. -/
def State.fmeasBurst (s : State) (src n v gap edges : Nat) : State :=
  let take (m : Fmeas) : Fmeas := (List.range edges).foldl
    (fun m i => if reached ((v + gap * i : Nat) : Int) m.start then m.edge (s.cyclesAt (wrapU 64 ((v + gap * i : Nat) : Int))) else m) m
  s.setClk fun k => { k with fmeas := k.fmeas.map fun m => if m.src = src ∧ m.inst = n then take m else m }

/-- R255: the receive clock of STEP_n takes the 128 bits of STP_DI in the burst of plan tick `q`. -/
def State.fmeasStep (s : State) (n : Fin 8) (q : Nat) : State :=
  s.fmeasBurst 18 n (q * 64000 + 640 + 128 + 16 * s.f (Pg.STEP n) Reg.STEP_PORT_CFG_DI_DELAY) 128 128

/-- R323: light port `n` sends a burst of rising edges of LT_CK from tick `v`. -/
def State.fmeasLight (s : State) (n : Fin 4) (v : Nat) : State :=
  s.fmeasBurst 19 n v 256 (96 + s.f (Pg.LTPORT n) Reg.LTPORT_PORT_CFG_DRIVERS)

/-- The burst of a stepper or light port that is on its way is taken into a measurement that starts under it. -/
def State.fmeasUnder (s : State) : State :=
  match s.clk.fmeas with
  | some m =>
    let n : Fin 4 := ⟨m.inst % 4, Nat.mod_lt _ (by decide)⟩
    let k : Fin 8 := ⟨m.inst % 8, Nat.mod_lt _ (by decide)⟩
    let s1 := s.when (!s.steppers[k].down.isEmpty) fun s => s.fmeasStep k s.steppers[k].tick
    match s.lights[n].line with
    | some (v, _) => s1.fmeasLight n v
    | none => s1
  | none => s

/-- An operation of the NV port has clocked SCK without a break since tick `v` (R378, R381). -/
def State.nvClocked (s : State) (v : Nat) : Bool :=
  (s.rcd.host.any fun c => reached v c.start) || (s.rcd.flush.any fun f => reached v f.start)

/-- The source of a measurement runs, as far as the block knows it: a candidate's divided clock has edges, a head lane's recovery loop is locked, the
NV port clocks SCK (R62). -/
def State.fmeasRuns (s : State) (m : Fmeas) : Bool :=
  !m.gone && s.domOn (fmeasDomain m.src) &&
    (if 4 ≤ m.src ∧ m.src ≤ 7 then s.candEdges (m.src - 4)
     else if m.src = 17 then s.fb (Pg.HEAD m.inst) Reg.LANE_LANE_STATUS_CDR_LOCK
     else m.src != 20 || s.nvClocked m.start)

/-- `n` CLK_CORE cycles have passed since measurement `m` began (R60); before the timebase runs the block holds no count of them. -/
def State.fmeasPast (s : State) (m : Fmeas) (n : Nat) : Bool := !s.time.running || decide (m.startC + 2 * n ≤ s.time.cycles)

/-- R62: domain `d` is switched off under a measurement. -/
def State.fmeasLost (s : State) (d : Nat) : State :=
  s.setClk fun k => { k with fmeas := k.fmeas.map fun m => if fmeasDomain m.src = d then { m with gone := true } else m }

/-- The reading of a gate that has completed: the edges of an encoder port, or of the clock of a stepper or light port, where there were any (R62),
what the ratio gives a clock divided from CLK_ROOT, else `n`. -/
def Fmeas.reading (m : Fmeas) (sck n : Nat) : Option Nat :=
  if 12 ≤ m.src ∧ m.src ≤ 15 ∨ m.src = 18 ∨ m.src = 19 then
    (if m.dir = 0 then (if m.edges = 0 then none else some m.edges)
     else if 2 ^ m.gate < m.edges then some ((m.closed - m.opened) / 2) else none)
  else some ((fmeasFixed m sck).getD n)

/-- FMEAS_START.GO starts or restarts a measurement, with FMEAS_CTRL as it stands now (R60, R62). -/
def execFmeasStart (t : Nat) (s : State) : Host.Outcome State Fault Refusal :=
  let s1 := s.upTo t
  if ¬ s1.pageOn (Pg.CLK) then .fault (.domainOff (regAddr (Pg.CLK) 0x074))
  else done s (if s1.pwr.sysOn then
    let m : Fmeas := ⟨s1.f Pg.CLK Reg.CLK_FMEAS_CTRL_SRC, s1.f Pg.CLK Reg.CLK_FMEAS_CTRL_INST, s1.f Pg.CLK Reg.CLK_FMEAS_CTRL_DIR,
      s1.f Pg.CLK Reg.CLK_FMEAS_CTRL_GATE, s1.now, s1.time.cycles, 0, 0, 0, false⟩
    (((s1.setClk fun k => { k with fmeas := some m }).fmeasUnder).setB Pg.CLK Reg.CLK_FMEAS_STATUS_BUSY true).setB Pg.CLK Reg.CLK_FMEAS_STATUS_DONE false
  else s1)

/-- R60, R62: the gate completes, while its source runs. `n` is the count of a source the block does not clock or count itself. -/
def execFmeasDone (t n : Nat) (s : State) : Host.Outcome State Fault Refusal :=
  let s1 := s.upTo t
  done s (match s1.clk.fmeas with
  | some m =>
    match m.reading (s1.f Pg.NV Reg.NV_NV_CFG_SCK) n with
    | some count =>
      let gate := if m.dir = 0 then 2 ^ m.gate else count
      if s1.fmeasRuns m ∧ s1.fmeasPast m gate ∧ gate ≤ 2 ^ 32 then
        let s2 := (((s1.setClk fun k => { k with fmeas := none }).setB Pg.CLK Reg.CLK_FMEAS_STATUS_BUSY false).setB Pg.CLK
          Reg.CLK_FMEAS_STATUS_DONE true).setB Pg.CLK Reg.CLK_FMEAS_STATUS_TIMEOUT false
        (s2.setF Pg.CLK Reg.CLK_FMEAS_COUNT (satU count 32)).ev! Pg.CLK Ev.CLK_FMEAS_DONE
      else s1
    | none => s1
  | none => s1)

/-- R60: 2^32 CLK_CORE cycles have passed without completion. -/
def execFmeasTimeout (t : Nat) (s : State) : Host.Outcome State Fault Refusal :=
  let s1 := s.upTo t
  done s (match s1.clk.fmeas with
  | some m =>
    if s1.fmeasPast m (2 ^ 32) then
      ((s1.setClk fun k => { k with fmeas := none }).setB Pg.CLK Reg.CLK_FMEAS_STATUS_BUSY false).setB Pg.CLK Reg.CLK_FMEAS_STATUS_TIMEOUT true
    else s1
  | none => s1)

end Sys2Proof.Machine
end

