-- ==== Sys2Proof/Machine/Lane.lean ====
section
/-! DEFINITION. The Vreleri lanes as bit pipes: the frame envelope, bring-up, frame lock, rate steps, test loops and launches at a tick
(spec/04_lanes.md R63 to R81, spec/05_link_frames.md R82 to R85, spec/06_timebase.md R118 and R119). -/

namespace Sys2Proof.Machine

/-! ### A frame on the line (R66 to R69, R82) -/

/-- The bytes of a frame after its delimiter: HDR, HCRC, payload and, where there is a payload, PCRC. -/
def TxFrame.wire (f : TxFrame) : List Byte :=
  let hdr := leBytes 4 (f.seq * 2 ^ 24 + f.payload.length * 2 ^ 12 + f.flags * 2 ^ 8 + f.ty)
  hdr ++ leBytes 4 (crc32 hdr) ++ f.payload ++ (if f.payload.isEmpty then [] else leBytes 4 (crc32 f.payload))

/-- One bit of the keystream generator (R67): the bit it gives, and its next state. -/
def keystream (g : Nat) : Bool × Nat :=
  let k := g.testBit 30 != g.testBit 27
  (k, (2 * g + b2n k) % 2 ^ 31)

/-- Frame bits through the scrambler, or scrambled bits back through it (R67). -/
def scramble (g : Nat) : List Bool → List Bool
  | [] => []
  | d :: r => (d != (keystream g).1) :: scramble (keystream g).2 r

/-- The state the generator is reset to at the first bit after a delimiter (R67). -/
def keySeed : Nat := 0x5D3CA5F1

/-- The run of equal bits that ends with `b`, after a run of `run` bits equal to `last` (R68). -/
def runAfter (run : Nat) (last b : Bool) : Nat := if run ≠ 0 ∧ b = last then run + 1 else 1

/-- The transmitter's stuffing: after 10 equal bits their complement, which restarts the count (R68). -/
def stuff (run : Nat) (last : Bool) : List Bool → List Bool
  | [] => []
  | b :: r => if runAfter run last b = 10 then b :: (!b) :: stuff 0 b r else b :: stuff (runAfter run last b) b r

/-- The receiver's destuffing: each frame bit, and whether the bit removed after it equals its run, which is a stuff error (R68). -/
def destuff (run : Nat) (last : Bool) : List Bool → List (Bool × Bool)
  | [] => []
  | b :: r =>
    if runAfter run last b = 10 then
      match r with
      | x :: r' => (b, x == b) :: destuff 0 b r'
      | [] => [(b, false)]
    else (b, false) :: destuff (runAfter run last b) b r

/-- The bits of bytes, least significant first (R65). -/
def bitsOf (l : List Byte) : List Bool := l.flatMap fun b => (List.range 8).map fun k => b.toNat.testBit k

/-- `n` bytes of bits, least significant first; bits that are missing count as 0. -/
def bytesOf : Nat → List Bool → List Byte
  | 0, _ => []
  | n + 1, l => BitVec.ofNat 8 ((List.range 8).foldl (fun v k => v + b2n (l.getD k false) * 2 ^ k) 0) :: bytesOf n (l.drop 8)

/-- The start-of-frame delimiter 0x3C5A as it crosses the line (R66). -/
def delimiter : List Bool := bitsOf (leBytes 2 0x3C5A)

/-- `n` UI of gap fill (R66). -/
def gapFill (n : Nat) : List Bool := (List.range n).map fun k => k % 2 == 0

/-- A frame's bits on the line after its delimiter: scrambled, then stuffed (R67, R68). -/
def frameLine (l : List Byte) : List Bool := stuff 0 false (scramble keySeed (bitsOf l))

/-- A frame on the line with its delimiter. -/
def TxFrame.line (f : TxFrame) : List Bool := delimiter ++ frameLine f.wire

/-- The UI a frame occupies after its delimiter, its stuff bits included (R69). -/
def lineUi (l : List Byte) : Nat := (frameLine l).length

/-- The line bits left after the next `n` frame bits and the stuff bits among them (R68). -/
def afterBits : Nat → Nat → Bool → List Bool → List Bool
  | 0, _, _, l => l
  | _ + 1, _, _, [] => []
  | n + 1, run, last, b :: r => if runAfter run last b = 10 then afterBits n 0 b r.tail else afterBits n (runAfter run last b) b r

/-- Gap search (R66): the gap errors up to the first delimiter, and the bits after it. Gap fill begins with 1, so a first bit of 0 departs from
it; the departing bits of the delimiter itself are no errors. -/
def gapSearch (prev : Bool) : List Bool → Nat × Option (List Bool)
  | [] => (0, none)
  | b :: r =>
    if delimiter.isPrefixOf (b :: r) then (0, some ((b :: r).drop 16))
    else ((gapSearch b r).1 + b2n (b == prev), (gapSearch b r).2)

/-- A frame as a receiver has it from the line (R66 to R68, R82): its header word, HCRC, payload and PCRC, and the stuff errors within it. -/
structure RxFrame where
  hdr : Nat
  hcrc : Nat
  payload : List Byte
  pcrc : Nat
  stuffErrs : Nat
  deriving DecidableEq, Repr

/-- The bytes of a frame after its HCRC, payload and PCRC, as its header says; a frame that fails its header check ends with its HCRC (R66, R83). -/
def restBytes (hdr hcrc : Nat) : Nat :=
  let n := if hcrc = crc32 (leBytes 4 hdr) then bits hdr 12 12 else 0
  if n = 0 then 0 else n + 4

/-- The line bits a frame takes up, by its header: its last bit ends at the bits left over. -/
def RxFrame.left (f : RxFrame) (l : List Bool) : List Bool := afterBits (64 + 8 * restBytes f.hdr f.hcrc) 0 false l

/-- Read a frame from the bits after its delimiter: destuff, descramble, and take as many bytes as its header says. -/
def readFrame (l : List Bool) : RxFrame :=
  let d := destuff 0 false l
  let data := scramble keySeed (d.map (·.1))
  let head := bytesOf 8 data
  let hdr := fieldAt head 0 4
  let hcrc := fieldAt head 4 4
  let n := restBytes hdr hcrc - 4
  let tail := bytesOf (if n = 0 then 0 else n + 4) (data.drop 64)
  ⟨hdr, hcrc, tail.take n, fieldAt tail n 4, ((d.take (64 + 8 * tail.length)).filter (·.2)).length⟩

/-- Half ticks per UI at a rate code (R118). -/
def uiHalf (rate : Nat) : Nat := 8 / 2 ^ rate

/-- The first instant on the UI grid at or after a tick, in ticks (R118). -/
def uiGrid (rate v : Nat) : Nat :=
  let g := if rate = 0 then 4 else if rate = 1 then 2 else 1
  (v + g - 1) / g * g

def State.laneRate (s : State) (l : Fin 20) : Nat := s.f (lanePage l) Reg.LANE_LANE_STATUS_RATE

/-- The line is free for a delimiter whose last bit crosses the ball at `v` (R66). -/
def State.lineFree (s : State) (l : Fin 20) (v : Nat) : Bool := halfLe (s.lanes[l].freeAt + 16 * uiHalf (s.laneRate l)) (2 * v)

/-- End of a frame's last bit, in half ticks, when its delimiter crosses at `v`. -/
def State.lineEnd (s : State) (l : Fin 20) (f : TxFrame) (v : Nat) : Nat := 2 * v + uiHalf (s.laneRate l) * lineUi f.wire

/-- The number of the next frame of a type (R82): IDLE and CAP repeat the present one. -/
def State.nextSeq (s : State) (l : Fin 20) (ty : Nat) : Nat := if ty ≤ 1 then s.lanes[l].txSeq else (s.lanes[l].txSeq + 1) % 256

/-- The first tick at or after `now` that is `off` past a multiple of `per`. -/
def nextEvery (per off now : Nat) : Nat := (now - off + per - 1) / per * per + off

def State.shortTime (s : State) (l : Fin 20) : Bool := decide (l.val < 4) && s.pwr.sysOn && s.en Pg.TIME && s.laneUp l

/-- The period of the SYNCs of master mode, in tk (R117). -/
def syncPeriod (i : Int) : Nat := if 0 ≤ i then 16000 * 2 ^ i.toNat else 16000 / 2 ^ (-i).toNat

/-- The next instants at which the block itself launches a time frame on a host or peer lane: DLY_REQ on a port of PORT_PRIO that has a SYNC from
the current master (R110), SYNC in master mode (R117). -/
def State.timeTicks (s : State) (l : Fin 20) : List Nat :=
  if h : s.shortTime l = true ∧ l.val < 4 then
    let sync := (s.time.ports[l.val]'h.2).sync
    (if (List.range 4).any (fun k => bits (s.f Pg.TIME Reg.TIME_PORT_PRIO) (4 * k) 4 == l.val) ∧
        (sync.map (·.master)).isSome ∧ sync.map (·.master) = s.time.master then
      [nextEvery (16000 * 2 ^ s.f Pg.TIME Reg.TIME_DLY_CTRL_INTERVAL) 4000 s.now] else []) ++
    (if s.f Pg.TIME Reg.TIME_MODE_CTRL_MODE = 2 ∧ (s.f Pg.TIME Reg.TIME_MASTER_CTRL_TX_MASK).testBit l then
      [nextEvery (syncPeriod (s.fi Pg.TIME Reg.TIME_MASTER_CTRL_INTERVAL)) 0 s.now] else [])
  else []

/-- The launch instants a transmitter protects on a lane (R118): the ticks of its queue, the time frames the block is about to launch, T_s of a
rate step (R75), and on a head lane the next HEAD_DN (R92). -/
def State.protectedTicks (s : State) (l : Fin 20) : List Nat :=
  ((s.lanes[l].launches.map (·.tick)).filter fun (v : Nat) => reached v s.now) ++ s.timeTicks l ++
    (match s.lanes[l].step, s.lanes[l].pstep with
      | some st, _ => if st.launched then [] else [st.tick]
      | none, some st => if st.acked ∧ ¬ st.launched ∧ reached st.tick s.now then [st.tick] else []
      | none, none => []) ++
    (if 4 ≤ l.val ∧ s.laneUp l then [t0 (frameOf (s.now + 640 - 1)) + 15360] else [])

/-- R75: a frame whose delimiter crosses at `v` cannot still be on the line at tick T_s of step `st`, nor leave the STEP_GO launched there less
than its gap (R69). -/
def State.endsBefore (s : State) (l : Fin 20) (f : TxFrame) (v : Nat) (st : RateStep) : Bool :=
  decide (12800 < sdiff48 st.tick v) || halfLe (s.lineEnd l f v + 48 * uiHalf (s.laneRate l)) (2 * uiGrid (s.laneRate l) st.tick)

/-- R75 step 4: a frame whose delimiter crosses at `v` ends within the 2 µs that a partner has from its receipt of STEP_GO, whenever that comes. -/
def State.endsSoon (s : State) (l : Fin 20) (f : TxFrame) (v : Nat) : Bool := halfLe (s.lineEnd l f v) (2 * v + 2 * 12800)

/-- R75: no rate step of the lane bars a frame whose delimiter crosses at `v`: neither its own before T_s, nor the partner's from its STEP_ACK to
T_s, from T_s on if it cannot end within 2 µs of STEP_GO, and from STEP_GO on. -/
def State.stepClear (s : State) (l : Fin 20) (f : TxFrame) (v : Nat) : Bool :=
  match s.lanes[l].step, s.lanes[l].pstep with
  | some st, _ => st.launched || s.endsBefore l f v st
  | none, some st => !st.acked || !st.launched && (if reached st.tick v then s.endsBefore l f v st else s.endsSoon l f v)
  | none, none => true

/-- A CAP, or a frame that no step of the partner bars from T_s on (R75). -/
def State.partnerClear (s : State) (l : Fin 20) (f : TxFrame) (v : Nat) : Bool :=
  f.ty == 1 || s.phase l == phStep || s.lanes[l].step.isSome ||
    s.lanes[l].pstep.all fun st => !st.acked || !st.launched && (reached st.tick v || s.endsSoon l f v)

/-- An EVT frame is ready on host lane `l` (R85, R91). -/
def State.evtReady (s : State) (l : Fin 20) : Bool :=
  s.isOn Pg.EVCOL && s.f Pg.EVCOL Reg.EVCOL_EVCOL_CFG == l.val + 1 && !s.ev.queue.isEmpty

/-- An image is being sent, or waits to be sent, on host lane `l` (R85, R282). -/
def State.streamReady (s : State) (l : Fin 20) : Bool :=
  (List.finRange 32).any fun k =>
    s.pageOn (Pg.STREAM k) && s.f (Pg.STREAM k) Reg.STREAM_STORE_CFG_HOST == l.val + 1 &&
      (s.streams[k].sending.isSome || !s.streams[k].imgs.isEmpty)

/-- A launch-timed frame waits for the line: a late entry that may slip, or a time frame to be forwarded (R107, R119). -/
def State.launchWaits (s : State) (l : Fin 20) : Bool :=
  (s.lanes[l].launches.any fun e => e.late) || (s.time.forwards.any fun f => f.out == l.val)

/-- A frame that ranks before type `ty` is ready on the lane (R85): launch-timed frames first; then CPL, EVT, STREAM on a host lane, MIRROR, MET on
a peer lane; IDLE last. A CAP goes ahead of CPL, EVT and STREAM (DESIGN CHOICE, log 83). -/
def State.outranked (s : State) (l : Fin 20) (ty : Nat) : Bool :=
  s.launchWaits l ||
    (if ¬ s.laneUp l then false
     else if l.val < 2 then
       (ty != 3 && ty != 1 && s.lanes[l].cpls.any fun c => s.past c.ready) || ((ty == 0x0C || ty == 0) && s.evtReady l) || (ty == 0 && s.streamReady l)
     else (ty == 0x0B && s.lanes[l].waits.any fun w => w.1 == 0x0A) || (ty == 0 && !s.lanes[l].waits.isEmpty))

/-- A frame that is not launch-timed may start now: the line is free, no frame that ranks before it is ready, and no launch is disturbed. -/
def State.mayStart (s : State) (l : Fin 20) (f : TxFrame) : Bool :=
  let r := s.laneRate l
  let v := uiGrid r s.now
  s.lineFree l v && !s.outranked l f.ty && s.partnerClear l f v &&
    (s.protectedTicks l).all fun w => halfLe (s.lineEnd l f v + 48 * uiHalf r) (2 * uiGrid r w)

/-- A frame leaves with the last bit of its delimiter at `v`: its number, its line time, and TX_SEQ. -/
def State.sendFrame (s : State) (l : Fin 20) (ty flags : Nat) (payload : List Byte) (v : Nat) : State :=
  let f : TxFrame := ⟨ty, s.nextSeq l ty, flags, payload⟩
  let s1 := s.setLane l fun x => { x with
    txSeq := f.seq, tx := some (v, f), endAt := s.lineEnd l f v, freeAt := s.lineEnd l f v + 32 * uiHalf (s.laneRate l) }
  if l.val < 4 then s1.setF (lanePage l) Reg.FRAME_FRAME_STATUS_TX_SEQ f.seq else s1

/-- A frame of a type that is not launch-timed leaves now, where `mayStart` allows it. -/
def State.trySend (s : State) (l : Fin 20) (ty flags : Nat) (payload : List Byte) (after : State → State) : State :=
  if s.mayStart l ⟨ty, s.nextSeq l ty, flags, payload⟩ then
    after (s.sendFrame l ty flags payload (uiGrid (s.laneRate l) s.now))
  else s

/-! ### Launches at a tick (R118, R119) -/

/-- The payload as it leaves: a SYNC takes its ORIGIN and a DLY_REQ its TX_TIME from the transmit stamp (R106). -/
def stampPayload (ty v : Nat) (payload : List Byte) : List Byte :=
  if ty = 5 ∨ ty = 6 then leBytes 8 v ++ payload.drop 8 else payload

def State.setTime (s : State) (g : TimeSt → TimeSt) : State := { s with time := g s.time }

def State.setTPort (s : State) (p : Fin 4) (g : TimePort → TimePort) : State :=
  s.setTime fun x => { x with ports := x.ports.set p (g x.ports[p]) }

/-- A queued frame leaves at `v`; a DLY_REQ is then in progress, paired with the latest SYNC of its port (R110). -/
def State.launchOut (s : State) (l : Fin 20) (e : LaunchEntry) (v : Nat) : State :=
  let u := s.stampTick l false v
  let s1 := s.sendFrame l e.ty 0 (stampPayload e.ty u e.payload) v
  if h : l.val < 4 ∧ e.ty = 6 then
    s1.setTPort ⟨l, h.1⟩ fun x =>
      match x.sync with
      | some r => { x with reqs := x.reqs ++ [⟨fieldAt e.payload 10 2, u, r⟩] }
      | none => x
  else s1

/-- An entry is counted late (R119). -/
def State.countLate (s : State) : State :=
  ((s.inc Pg.TIME Reg.TIME_LAUNCH_LATE).sticky! Pg.TIME Sticky.TIME_LAUNCH_LATE).ev! Pg.TIME Ev.TIME_LAUNCH_LATE

/-- The first entry of a lane's queue whose tick has been reached leaves at its tick, or is late; a late entry that may slip leaves as soon as the
line is free and a rate step is not in its way. -/
def State.launchHead (s : State) (l : Fin 20) : State :=
  match s.lanes[l].launches with
  | [] => s
  | e :: rest =>
    if ¬ s.past e.tick then s
    else
      let r := s.laneRate l
      let pop (s : State) : State := s.setLane l fun x => { x with launches := rest }
      let fits (v : Nat) : Bool := s.laneUp l && s.lineFree l v && s.stepClear l ⟨e.ty, s.nextSeq l e.ty, 0, stampPayload e.ty v e.payload⟩ v
      let v := uiGrid r e.tick
      if !e.late ∧ reached v s.now ∧ fits v then (pop s).launchOut l e v
      else
        let s1 := if e.late then s else s.countLate
        if e.slip ∧ (s.laneUp l ∨ s.phase l = phStep) then
          let w := uiGrid r s.now
          if fits w then (pop s1).launchOut l e w
          else s1.setLane l fun x => { x with launches := { e with late := true } :: rest }
        else pop s1

/-- Entries stand in the order of their ticks; equal ticks keep the order in which they were queued. -/
def queueLaunch (e : LaunchEntry) : List LaunchEntry → List LaunchEntry
  | [] => [e]
  | x :: r => if sdiff48 e.tick x.tick < 0 then e :: x :: r else x :: queueLaunch e r

/-- Queue a frame for a tick; the queue holds 8 entries (R118). A ninth entry is dropped (DESIGN CHOICE, log 84). -/
def State.enqueue (s : State) (l : Fin 20) (e : LaunchEntry) : State :=
  if s.lanes[l].launches.length < 8 then s.setLane l fun x => { x with launches := queueLaunch e x.launches } else s

/-- The MIRROR or MET that stands first on a peer lane leaves, where `mayStart` allows it (R85). -/
def State.sendWaiting (s : State) (l : Fin 20) : State :=
  match s.lanes[l].waits with
  | (ty, pl) :: r =>
    if s.laneUp l ∧ s.mayStart l ⟨ty, s.nextSeq l ty, 0, pl⟩ then
      ((s.sendFrame l ty 0 pl (uiGrid (s.laneRate l) s.now)).setLane l fun x => { x with waits := r }).when (ty == 0x0B) fun s =>
        s.inc Pg.VISION Reg.VISION_MET_SENT
    else s
  | [] => s

/-- A MIRROR or MET is ready on a peer lane that is UP: it leaves now, or waits behind those of its type, every MIRROR before a MET (R85). -/
def State.queueFrame (s : State) (l : Fin 20) (ty : Nat) (payload : List Byte) : State :=
  let mirror (w : Nat × List Byte) : Bool := w.1 == 0x0A
  if s.laneUp l then
    (s.setLane l fun x => { x with waits := if ty = 0x0A then x.waits.filter mirror ++ [(ty, payload)] ++ x.waits.filter fun w => !mirror w
                                            else x.waits ++ [(ty, payload)] }).sendWaiting l
  else s

/-- R118: a queued frame leaves at its tick, or is late; on a peer lane a MIRROR or MET that waits leaves once the line is free for it. -/
def execLaunch (t : Nat) (l : Fin 20) (s : State) : Host.Outcome State Fault Refusal := done s (((s.upTo t).launchHead l).sendWaiting l)

/-! ### Bring-up (R70 to R73) -/

/-- What rests on a lane is judged again: the candidate of a host or peer lane (R50), the head link of a head lane (R98). -/
def State.laneJudge (s : State) (l : Fin 20) : State :=
  if h : l.val < 4 then s.candUpdate ⟨l, h⟩ else s.headHealth ⟨l - 4, by omega⟩

/-- Bring-up repeats at 1.6 Gb/s: from ACQUIRE while the squelch sees activity, else from IDLE (R72). -/
def State.laneRepeat (s : State) (l : Fin 20) (activity : Bool) : State :=
  let p := lanePage l
  (((s.setB p Reg.LANE_LANE_STATUS_ACTIVITY activity).laneRestart l (if activity then phAcquire else phIdle))).laneJudge l

def State.toPhase (s : State) (l : Fin 20) (ph : Nat) : State :=
  (s.setF (lanePage l) Reg.LANE_LANE_STATUS_PHASE ph).setLane l fun x => { x with phaseAt := s.now }

/-- The capability exchange is complete: UP, and STATE reaches ON (R71). -/
def State.laneToUp (s : State) (l : Fin 20) : State :=
  let p := lanePage l
  let s1 := (s.toPhase l phUp).setLane l fun x => { x with retries := 0, rxAny := false }
  let s2 := if l.val < 4 then (s1.setF p Reg.FRAME_FRAME_STATUS_POSTED_DONE 0).setF p Reg.FRAME_FRAME_STATUS_OUTSTANDING 0 else s1
  (if s2.st p = stStarting then s2.endSequence p else s2).laneJudge l

/-- R71: the squelch sees activity for 64 ns (`on`), and a lane in phase IDLE enters ACQUIRE: its attempt begins (R72); or it sees activity no
longer. -/
def execLaneActivity (t : Nat) (q : Squelch) (s : State) : Host.Outcome State Fault Refusal :=
  let s1 := s.upTo t
  let l := q.lane
  let p := lanePage l
  done s (if s1.pageOn p then
    let s2 := s1.setB p Reg.LANE_LANE_STATUS_ACTIVITY q.on
    if q.on ∧ s2.laneRuns l ∧ s2.phase l = phIdle then (s2.toPhase l phAcquire).setLane l fun x => { x with attemptAt := s2.now } else s2
  else s1)

/-- R71: the recovery loop locks. A lane in ACQUIRE moves to ALIGN, and a loop-timed one starts its clock pattern; a candidate's divided clock has
edges from here on. -/
def execCdrLock (t : Nat) (l : Fin 20) (s : State) : Host.Outcome State Fault Refusal :=
  let s1 := s.upTo t
  let p := lanePage l
  done s (if s1.laneRuns l ∧ s1.phase l ≠ phIdle ∧ (s1.phase l = phAcquire ∨ ¬ s1.fb p Reg.LANE_LANE_STATUS_CDR_LOCK) then
    let s2 := s1.setB p Reg.LANE_LANE_STATUS_CDR_LOCK true
    let s3 := if s2.phase l = phAcquire then
        (s2.toPhase l phAlign).setLane l fun x => { x with patternAt := if s2.laneSource l then x.patternAt else some s2.now }
      else s2
    if h : l.val < 4 then
      (if s3.candEdges l then s3 else (s3.setEdges l true).setClk fun k => { k with freqOk := k.freqOk.set l.val true h }).candUpdate ⟨l, h⟩
    else s3
  else s1)

/-- R71: the clock pattern has been sent for 40 µs, and IDLE frames follow: on the timing-source side, and after its own recovery has locked on the
loop-timed side. The 40 µs count from the start of the pattern (DESIGN CHOICE, log 83). -/
def execClockPatternEnd (t : Nat) (l : Fin 20) (s : State) : Host.Outcome State Fault Refusal :=
  let s1 := s.upTo t
  done s (match s1.lanes[l].patternAt with
  | some a =>
    if s1.laneRuns l ∧ 1 ≤ s1.phase l ∧ s1.phase l ≤ 3 ∧ s1.elapsed a 256000 then s1.setLane l fun x => { x with patternDone := true } else s1
  | none => s1)

/-- Frame lock at the new rate has been reached by T_s + 102,400 tk (R75), for the step the lane has asked for or the partner's. -/
def State.relockInTime (s : State) (l : Fin 20) : Bool :=
  match s.lanes[l].step, s.lanes[l].pstep with
  | some st, _ => !s.past (st.tick + 102401)
  | none, some st => !s.past (st.tick + 102401)
  | none, none => true

/-- R70: eight consecutive frames have passed their checks. A lane in ALIGN moves to CAPX; a lane in its rate step has relocked, and the step
succeeds where that is in time (R75). -/
def execFrameLock (t : Nat) (l : Fin 20) (s : State) : Host.Outcome State Fault Refusal :=
  let s1 := s.upTo t
  let p := lanePage l
  done s (if s1.laneRuns l ∧ 8 ≤ s1.lanes[l].good ∧ ¬ s1.fb p Reg.LANE_LANE_STATUS_FRAME_LOCK ∧ 2 ≤ s1.phase l ∧ s1.phase l ≤ 5 then
    let s2 := (s1.setB p Reg.LANE_LANE_STATUS_FRAME_LOCK true).ev! p Ev.LANE_LOCK
    if s2.phase l = phStep ∧ ¬ s2.relockInTime l then s2.laneRepeat l (s2.fb p Reg.LANE_LANE_STATUS_ACTIVITY)
    else
      (if s2.phase l = phAlign then s2.toPhase l phCapx
        else if s2.phase l = phStep then
          let s3 := (s2.toPhase l phUp).setLane l fun x => { x with pstep := none }
          if s3.fb p Reg.LANE_STEP_STATUS_BUSY then s3.stepEnd l 1 else s3
        else s2).laneJudge l
  else s1)

/-- Why a receiver loses frame lock (R70): four failed frames (0), no delimiter for 16,384 UI (1), or its recovery loop loses lock (2). -/
def State.lockLost (s : State) (l : Fin 20) (cause : Fin 3) : Bool :=
  match cause with
  | 0 => decide (4 ≤ s.lanes[l].bad)
  | 1 => s.elapsed s.lanes[l].delimAt (16384 * uiHalf (s.laneRate l) / 2)
  | 2 => true

/-- R70, R72: a receiver loses frame lock, or its recovery loop loses lock. `activity` says whether the squelch still sees activity. A lane in UP
asserts UNLOCK and repeats bring-up; in any other phase the lane stays there, and what rests on it is judged again (R50). -/
def execFrameLockLoss (t : Nat) (l : Fin 20) (cause : Fin 3) (activity : Bool) (s : State) : Host.Outcome State Fault Refusal :=
  let s1 := s.upTo t
  let p := lanePage l
  let locked := s1.fb p Reg.LANE_LANE_STATUS_FRAME_LOCK
  done s (if s1.laneRuns l ∧ (locked ∨ cause.val = 2 ∧ s1.fb p Reg.LANE_LANE_STATUS_CDR_LOCK) ∧ s1.lockLost l cause then
    let s2 := (s1.setB p Reg.LANE_LANE_STATUS_FRAME_LOCK false).setLane l fun x => { x with good := 0, bad := 0, gapPrev := false }
    let s3 := if cause.val = 2 then (s2.cdrLost l).setB p Reg.LANE_LANE_STATUS_CDR_LOCK false else s2
    if s3.phase l = phUp then
      ((((s3.sticky! p Sticky.LANE_LOCK_LOST).ev! p Ev.LANE_UNLOCK).inc p Reg.LANE_LOCK_LOSSES).accAdd (0xC82 + 4 * l) 2 1).laneRepeat l activity
    else (s3.setB p Reg.LANE_LANE_STATUS_ACTIVITY activity).laneJudge l
  else s1)

/-- The limit of a bring-up phase in tk (R71). -/
def phaseLimit (ph : Nat) : Nat := if ph = phAcquire then 192000 else if ph = phAlign then 384000 else 640000

/-- R72: a phase exceeds its limit, or 1 ms has passed from the end of IDLE without UP: the attempt fails. -/
def execBringupPhaseTimeout (t : Nat) (l : Fin 20) (s : State) : Host.Outcome State Fault Refusal :=
  let s1 := s.upTo t
  let p := lanePage l
  let x := s1.lanes[l]
  let ph := s1.phase l
  done s (if s1.laneRuns l ∧ 1 ≤ ph ∧ ph ≤ 3 ∧ (s1.elapsed x.phaseAt (phaseLimit ph) ∨ s1.elapsed x.attemptAt 6400000) then
    let n := x.retries + 1
    let limit := s1.f p Reg.LANE_LANE_CTRL_BRINGUP_RETRIES
    let act := s1.fb p Reg.LANE_LANE_STATUS_ACTIVITY
    let s2 := ((s1.inc p Reg.LANE_BRINGUP_FAILS).laneRepeat l act).setLane l fun y => { y with retries := n }
    if limit ≠ 0 ∧ limit ≤ n then
      ((((s2.sticky! p Sticky.LANE_BRINGUP_FAIL).blockFault p s2.now).laneRestart l phIdle).laneJudge l).when (decide (l.val < 4)) State.candAll
    else s2
  else s1)

/-- R64: at the first inter-frame gap after root lock a host or peer transmitter moves from loop timing to CLK_ROOT. -/
def execTxTimingSwitch (t : Nat) (l : Fin 4) (s : State) : Host.Outcome State Fault Refusal :=
  let s1 := s.upTo t
  done s (if s1.pwr.linkOn ∧ s1.clk.locked ∧ halfLe s1.lanes[l].endAt (2 * s1.now) ∧ ¬ s1.loopTimed (Pg.LINK l) then
    s1.setB (Pg.LINK l) Reg.LANE_LANE_STATUS_TX_LOOP_TIMED false
    else s1)

/-! ### CAP and IDLE frames (R70, R71, R75, R86) -/

/-- RATES and KIND of the Rhapen's own CAP. -/
def State.capWord0 (s : State) (l : Fin 20) (flags : Nat) : Nat :=
  let kind := if l.val < 2 then 1 else if l.val < 4 then (if s.roleB then 3 else 2) else 4
  0x01000000 + (if l.val < 4 then 0xF else 0x7) * 2 ^ 16 + kind * 2 ^ 8 + flags

/-- The payload of a CAP with its step fields. -/
def State.capPayload (s : State) (l : Fin 20) (flags rate tick : Nat) : List Byte :=
  leBytes 4 (s.capWord0 l (flags + b2n s.lanes[l].capSeen)) ++ leBytes 4 rate ++ leBytes 6 tick ++ [0#8, 0#8]

/-- R52: on the selected reference a rate step puts the root PLL into hold at the tick agreed for it. -/
def State.stepHold (s : State) (l : Fin 20) : State :=
  if l.val < 4 ∧ s.clk.locked ∧ ¬ s.coasting ∧ s.selected = l.val then s.holdBegin l 1 else s

/-- R52, R75: at the tick of a step the partner has asked for, the lane's root PLL enters hold, once. -/
def State.partnerHold (s : State) (l : Fin 20) : State :=
  match s.lanes[l].pstep with
  | some st =>
    if st.acked ∧ ¬ st.held ∧ s.past st.tick then (s.setLane l fun x => { x with pstep := some { st with held := true } }).stepHold l else s
  | none => s

/-- The lane's transmitter has sent STEP_GO and moves to the new rate; it looks for frame lock at that rate (R75). The recovery loop of the old rate
is gone for a measurement of it (R62), and the link of a head lane leaves UP: an axis that is not OFF faults (R240). -/
def State.toStep (s0 : State) (l : Fin 20) (rate : Nat) : State :=
  let p := lanePage l
  let s := s0.cdrLost l |>.when (decide (4 ≤ l.val)) fun s => s.linkGone l
  ((((s.setF p Reg.LANE_LANE_STATUS_RATE rate).setB p Reg.LANE_LANE_STATUS_FRAME_LOCK false).setB p Reg.LANE_LANE_STATUS_CDR_LOCK
    false).toPhase l phStep).setLane l fun x => { x with good := 0, bad := 0 }

/-- R71, R75: a CAP leaves: every 5 µs in CAPX; with STEP_REQ once a step has been accepted; with STEP_ACK or STEP_GO in answer to the partner,
which is followed by 2 µs of clock pattern. A lane that has reached UP sends none but those of a step (DESIGN CHOICE, log 95). -/
def execCapSend (t : Nat) (l : Fin 20) (s : State) : Host.Outcome State Fault Refusal :=
  let s1 := s.upTo t
  let x := s1.lanes[l]
  done s (if s1.laneRuns l ∧ s1.phase l = phCapx ∧ s1.lanes[l].patternDone then
    if (match x.capAt with | some a => s1.elapsed a 32000 | none => true) then
      s1.trySend l 1 0 (s1.capPayload l 0 0 0) fun s => s.setLane l fun y => { y with capAt := some s1.now }
    else s1
  else if s1.laneUp l then
    match x.step, x.pstep with
    | some st, _ =>
      if st.reqSent then s1
      else s1.trySend l 1 0 (s1.capPayload l 2 st.rate st.tick) fun s => s.setLane l fun y => { y with step := some { st with reqSent := true } }
    | none, some st =>
      if st.launched then
        s1.trySend l 1 0 (s1.capPayload l 8 st.rate st.tick) fun s =>
          (((s.partnerHold l).toStep l st.rate).laneJudge l).setLane l fun y => { y with freeAt := y.endAt + 2 * 12800 }
      else if st.acked then s1
      else s1.trySend l 1 0 (s1.capPayload l 4 st.rate st.tick) fun s => s.setLane l fun y => { y with pstep := some { st with acked := true } }
    | none, none => s1
  else s1)

/-- A CAP is valid: VERSION 1 and a KIND that is not reserved (R86). -/
def capValid (w0 : Nat) : Bool := decide (bits w0 24 8 = 1) && decide (bits w0 8 4 ≤ 5)

/-- R71, R75: a CAP of the partner, its four words. -/
def execCapReceive (t : Nat) (l : Fin 20) (w0 w1 w2 w3 : Nat) (s : State) : Host.Outcome State Fault Refusal :=
  let s1 := s.upTo t
  let p := lanePage l
  done s (if s1.laneRuns l ∧ capValid w0 ∧ (s1.phase l = phCapx ∨ s1.phase l = phUp) then
    let s2 := (s1.setF p Reg.LANE_LANE_STATUS_PARTNER_RATES (bits w0 16 4)).setLane l fun y =>
      { y with capSeen := true, capAcked := y.capAcked || (w0.testBit 0 && y.capAt.isSome) }
    if s2.phase l = phCapx then (if s2.lanes[l].capAcked then s2.laneToUp l else s2)
    else if ¬ s2.laneUp l then s2
    else
      let tick := near48 s2.now (w2 % 2 ^ 32 + bits w3 0 16 * 2 ^ 32)
      let s3 := if w0.testBit 2 then s2.setLane l fun y => { y with step := y.step.map fun st => { st with acked := st.acked || st.reqSent } } else s2
      let s4 := if w0.testBit 1 then s3.setLane l fun y => { y with pstep := some { rate := bits w1 0 2, tick := tick } } else s3
      if w0.testBit 3 then (s4.setLane l fun y => { y with pstep := y.pstep.map fun st => { st with launched := true } }).partnerHold l else s4
  else s1)

/-- No frame has begun for 4,096 UI (R70). -/
def State.lineQuiet (s : State) (l : Fin 20) : Bool :=
  match s.lanes[l].tx with
  | some (v, _) => s.elapsed v ((4096 - 16) * uiHalf (s.laneRate l) / 2)
  | none => true

/-- R70: no frame has begun for 4,096 UI, and an IDLE frame is sent; on a host lane it carries POSTED_DONE (R86). During bring-up, and after a rate
step, IDLE frames follow the clock pattern one after the other, so that the partner can lock within its limit (R71, R75; DESIGN CHOICE, log 83). -/
def execIdleSend (t : Nat) (l : Fin 20) (s : State) : Host.Outcome State Fault Refusal :=
  let s1 := s.upTo t
  done s (if s1.laneRuns l ∧ 1 ≤ s1.phase l ∧ s1.phase l ≤ 5 ∧ (4 ≤ s1.phase l ∨ s1.lanes[l].patternDone) ∧ (s1.phase l = phUp → s1.lineQuiet l) then
    s1.trySend l 0 0 (if l.val < 2 then leBytes 4 (s1.f (lanePage l) Reg.FRAME_FRAME_STATUS_POSTED_DONE) else []) fun s => s
  else s1)

/-! ### Receiving a frame (R83, R84, R90) -/

/-- Bits from a lane's receive pins, in the polarity of LANE_CTRL.RX_INVERT (R80). -/
def State.rxBits (s : State) (l : Fin 20) (line : List Bool) : List Bool :=
  if s.fb (lanePage l) Reg.LANE_LANE_CTRL_RX_INVERT then line.map (!·) else line

/-- Whether a type may arrive on a lane (R84): host lanes take the host's frames, peer lanes the partner's, head lanes the head module's. MET goes
from device A to device B alone. -/
def State.typeAllowed (s : State) (l : Fin 20) (ty : Nat) : Bool :=
  if ty ≤ 1 then true
  else if l.val < 2 then ty == 2 || (5 ≤ ty && ty ≤ 7)
  else if l.val < 4 then (5 ≤ ty && ty ≤ 7) || ty == 10 || (ty == 11 && s.roleB)
  else ty == 9

/-- Whether LEN is within the limits of R84 on lane `l`; on a host lane the partner may be a further Rhapen, whose IDLE has 4 bytes (R86, R109). -/
def lenAllowed (l : Fin 20) (ty len : Nat) : Bool :=
  len % 4 == 0 &&
  (match ty with
  | 0 => len == 0 || (len == 4 && decide (l.val < 2))
  | 1 => len == 16
  | 2 => 12 ≤ len && len ≤ 268
  | 5 => len == 24
  | 6 => len == 12
  | 7 => len == 20
  | 9 => len == 32
  | 10 => 16 ≤ len && len ≤ 280
  | 11 => 8 ≤ len && len ≤ 2048
  | _ => false)

/-- A frame that fails its check: four of them in a row lose frame lock. -/
def State.frameBad (s : State) (l : Fin 20) : State := s.setLane l fun x => { x with good := 0, bad := x.bad + 1 }

/-- R83, R90: a frame with a delimiter: its envelope is judged; what an accepted frame does is the command of its type. The SEQ of an IDLE or a CAP
is in no gap (DESIGN CHOICE, log 83). -/
def State.takeFrame (s : State) (l : Fin 20) (f : RxFrame) : State :=
  let p := lanePage l
  let s3 := (s.inc p Reg.LANE_STUFF_ERRORS f.stuffErrs).when (f.stuffErrs != 0) fun s => s.sticky! p Sticky.LANE_STUFF_ERR
  let ty := bits f.hdr 0 8
  let len := bits f.hdr 12 12
  if f.hcrc ≠ crc32 (leBytes 4 f.hdr) then s3.frameBad l
  else if ¬ s3.typeAllowed l ty then
    let s4 := ((s3.inc p Reg.LANE_FRAME_DISCARDS).accAdd (0xC80 + 4 * l) 2 1).frameBad l
    if l.val < 4 then ((s4.inc p Reg.FRAME_TYPE_ERRORS).sticky! p Sticky.LANE_TYPE_ERR).ev! p Ev.LANE_TYPE_ERR else s4
  else if ¬ lenAllowed l ty len ∨ (len ≠ 0 ∧ f.pcrc ≠ crc32 f.payload) ∨ f.stuffErrs ≠ 0 then
    ((s3.inc p Reg.LANE_FRAME_DISCARDS).accAdd (0xC80 + 4 * l) 2 1).frameBad l
  else
    let s4 := s3.setLane l fun x => { x with good := x.good + 1, bad := 0 }
    let seq := bits f.hdr 24 8
    let s5 := if l.val < 4 then s4.setF p Reg.FRAME_FRAME_STATUS_RX_SEQ seq else s4
    if ty ≤ 1 then s5
    else
      let x := s5.lanes[l]
      let gap := if x.rxAny then (seq + 256 - (x.rxSeq + 1) % 256) % 256 else 0
      let s6 := s5.setLane l fun y => { y with rxAny := true, rxSeq := seq }
      if l.val < 4 ∧ gap ≠ 0 then ((s6.inc p Reg.FRAME_SEQ_GAPS gap).sticky! p Sticky.LANE_SEQ_GAP).ev! p Ev.LANE_SEQ_GAP else s6

/-- R66, R83: line bits that a receiver in gap search takes, the last of them now: gap errors are counted up to a delimiter, the frame behind it is
judged, and what stands after its last bit, or after the HCRC that fails it, is searched again, at most `n` frames in all. -/
def State.takeLine (s : State) (l : Fin 20) : Nat → List Bool → State
  | 0, _ => s
  | _ + 1, [] => s
  | n + 1, b :: r =>
    let line := b :: r
    let g := gapSearch s.lanes[l].gapPrev line
    let s1 := s.inc (lanePage l) Reg.LANE_GAP_ERRORS g.1
    match g.2 with
    | some rest =>
      let f := readFrame rest
      ((s1.setLane l fun x => { x with gapPrev := false, delimAt := wrapU 64 ((s.now : Int) - rest.length * uiHalf (s.laneRate l) / 2) }).takeFrame l
        f).takeLine l n (f.left rest)
    | none => s1.setLane l fun x => { x with gapPrev := line.getLastD false }

/-- R66 to R68, R83: the next bits of the line, the last of them at `t`: gap fill, and the frame that ends it, or what stands in its place. A lane
has a recovered clock to receive with from ALIGN on. -/
def execFrameReceive (t : Nat) (l : Fin 20) (fill delim hdr hcrc payload pcrc : List Bool) (s : State) : Host.Outcome State Fault Refusal :=
  let s1 := s.upTo t
  let line := fill ++ delim ++ hdr ++ hcrc ++ payload ++ pcrc
  done s (if s1.laneRuns l ∧ 2 ≤ s1.phase l ∧ s1.phase l ≤ 5 then s1.takeLine l line.length (s1.rxBits l line) else s1)

/-! ### Rate steps (R74, R75) -/

/-- The axes of a head lane's brush are all OFF (R74). -/
def State.headAxesOff (s : State) (l : Fin 20) : Bool :=
  decide (l.val < 4) || [0, 1, 2].all fun k => s.st (Pg.AXIS (3 * (l.val - 4) + k)) == stOff

/-- R74: STEP_CTRL is written with GO. Causes 2, 3 and 4 refuse it before a RATE more than one octave away is a host error (DESIGN CHOICE, log 74).
-/
def execStepCtrlGo (t : Nat) (l : Fin 20) (rate : Fin 4) (s : State) : Host.Outcome State Fault Refusal :=
  let s1 := s.upTo t
  let p := lanePage l
  if ¬ s1.pageOn p then .fault (.domainOff (regAddr p 0x048))
  else
    let own := if l.val < 4 then 0xF else 0x7
    let tick := near48 s1.now (s1.actPair p Reg.LANE_STEP_AT_LO Reg.LANE_STEP_AT_HI)
    let busy := s1.fb p Reg.LANE_STEP_STATUS_BUSY
    let refuse (r : Nat) : State := (s1.setF p Reg.LANE_STEP_STATUS_RESULT r).ev! p Ev.LANE_STEP_FAIL
    if !own.testBit rate || !(s1.f p Reg.LANE_LANE_STATUS_PARTNER_RATES).testBit rate || s1.f p Reg.LANE_LANE_CTRL_MAX_RATE < rate.val then
      done s (refuse 2)
    else if sdiff48 tick s1.now < 640000 then done s (refuse 3)
    else if busy || !s1.laneUp l || s1.f p Reg.LANE_LOOP_CTRL_MODE ≠ 0 || !s1.headAxesOff l then done s (refuse 4)
    else if 1 < (if s1.laneRate l ≤ rate.val then rate.val - s1.laneRate l else s1.laneRate l - rate.val) then .fault (.hostBreach 74)
    else done s (((s1.setB p Reg.LANE_STEP_STATUS_BUSY true).setF p Reg.LANE_STEP_STATUS_RESULT 0).setLane l fun x =>
        { x with step := some { rate := rate, tick := tick } })

/-- R75 step 1: no STEP_ACK has arrived by T_s - 64,000 tk. -/
def execStepAckDeadline (t : Nat) (l : Fin 20) (s : State) : Host.Outcome State Fault Refusal :=
  let s1 := s.upTo t
  done s (match s1.lanes[l].step with
  | some st => if !st.acked ∧ s1.past (st.tick - 64000) then s1.stepEnd l 5 else s1
  | none => s1)

/-- R75 step 2: from T_s - 12,800 tk the lane starts no frame that could still be on the line at T_s (`stepClear`), on a head lane no HEAD_DN (R92),
and a host port carries no transaction (R76). -/
def execStepQuiesce (t : Nat) (l : Fin 20) (s : State) : Host.Outcome State Fault Refusal :=
  let s1 := s.upTo t
  done s (match s1.lanes[l].step with
  | some st => if st.acked ∧ s1.past (st.tick - 12800) then s1.setLane l fun x => { x with step := some { st with quiet := true } } else s1
  | none => s1)

/-- The first instant at or after tick `v` at which the line is free for a delimiter. -/
def State.freeFrom (s : State) (l : Fin 20) (v : Nat) : Nat :=
  let r := s.laneRate l
  let w := (s.lanes[l].freeAt + 16 * uiHalf r + 1) / 2
  uiGrid r (if halfLe (2 * w) (2 * v) then v else w % 2 ^ 64)

/-- R75 step 3: at T_s a CAP with STEP_GO is launched and the transmitter changes rate; on the selected reference the root PLL enters hold (R52),
there also at the tick of a step the partner has asked for. -/
def execStepLaunch (t : Nat) (l : Fin 20) (s : State) : Host.Outcome State Fault Refusal :=
  let s1 := s.upTo t
  done s (match s1.lanes[l].step with
  | some st =>
    if st.acked ∧ ¬ st.launched ∧ s1.past st.tick ∧ s1.laneUp l then
      let s2 := s1.sendFrame l 1 0 (s1.capPayload l 8 st.rate st.tick) (s1.freeFrom l st.tick)
      let s3 := (s2.toStep l st.rate).setLane l fun x => { x with step := some { st with launched := true } }
      (s3.laneJudge l).stepHold l
    else s1
  | none => s1.partnerHold l)

/-- R75: frame lock at the new rate has not been reached by T_s + 102,400 tk: bring-up at 1.6 Gb/s. -/
def execStepRelockTimeout (t : Nat) (l : Fin 20) (s : State) : Host.Outcome State Fault Refusal :=
  let s1 := s.upTo t
  let p := lanePage l
  let due (st : RateStep) : Bool := s1.past (st.tick + 102400)
  done s (if s1.phase l = phStep ∧ s1.pageOn p ∧ ((s1.lanes[l].step.any due) || (s1.lanes[l].step.isNone && s1.lanes[l].pstep.any due)) then
    s1.laneRepeat l (s1.fb p Reg.LANE_LANE_STATUS_ACTIVITY)
  else s1)

/-! ### Test loops and the pattern checker (R77, R78) -/

/-- What a lane's transmit pins carry. -/
inductive TxPins where
  /-- Electrical idle: the lane does not run, bring-up has not begun, or a loop keeps its data inside (R71, R73, R77). -/
  | idle
  /-- Gap fill as a clock pattern, before the first frame (R71). -/
  | pattern
  /-- Frames and gap fill (R66, R82). -/
  | frames
  /-- The loop's data of mode 2 with NES_DRIVE = 1 (R77). -/
  | loopData
  /-- The received line bits, unchanged (mode 3). -/
  | received
  /-- The pattern generator's bits (mode 4). -/
  | generator
  deriving DecidableEq, Repr

/-- The transmit pins of a lane, by its loop mode and its bring-up (R71, R73, R77). A loop, its generator and its checker run in every
STATE of the port, OFF and STOPPING too (DESIGN CHOICE, log 93). -/
def State.txPins (s : State) (l : Fin 20) : TxPins :=
  let p := lanePage l
  match s.f p Reg.LANE_LOOP_CTRL_MODE with
  | 0 => if ¬ s.laneRuns l then (if halfLe s.lanes[l].endAt (2 * s.now) then .idle else .frames)
         else if 4 ≤ s.phase l then .frames
         else if s.lanes[l].patternDone ∧ 1 ≤ s.phase l then .frames
         else if s.lanes[l].patternAt.isSome then .pattern else .idle
  | 2 => if s.fb p Reg.LANE_LOOP_CTRL_NES_DRIVE ∧ s.lanes[l].gen.isSome then .loopData else .idle
  | 3 => .received
  | 4 => if s.lanes[l].gen.isSome then .generator else .idle
  | _ => .idle

/-- The receiver takes its bits from the lane's own transmitter, and not from the pins: modes 1 and 2 (R77). -/
def State.loopedBack (s : State) (l : Fin 20) : Bool :=
  let m := s.f (lanePage l) Reg.LANE_LOOP_CTRL_MODE
  m == 1 || m == 2

/-- The two taps of a pattern: its degree and the other exponent of its polynomial (R78). -/
def prbsTaps (pattern : Nat) : Nat × Nat := if pattern = 0 then (7, 6) else if pattern = 1 then (15, 14) else (31, 28)

/-- The next `n` bits of a pattern after `hist`, the newest first (R78). -/
def prbsRun (pattern : Nat) : Nat → List Bool → List Bool
  | 0, _ => []
  | n + 1, hist =>
    let b := hist.getD ((prbsTaps pattern).1 - 1) false != hist.getD ((prbsTaps pattern).2 - 1) false
    b :: prbsRun pattern n (b :: hist)

/-- The checker seeds itself from the received bits, oldest first, and the 64 that follow match what it expects (R78). -/
def prbsInSync (pattern : Nat) (line : List Bool) : Bool :=
  let d := (prbsTaps pattern).1
  let w := line.drop (line.length - (d + 64))
  w.length == d + 64 && w.drop d == prbsRun pattern 64 (w.take d).reverse

/-- A polynomial over GF(2), its coefficients as bits, times x modulo the pattern's polynomial, whose bits give each bit from the ones before it. -/
def prbsMulX (pattern a : Nat) : Nat :=
  let t := prbsTaps pattern
  if (2 * a).testBit t.1 then (2 * a) ^^^ (2 ^ t.1 + 2 ^ (t.1 - t.2) + 1) else 2 * a

/-- The product of two such polynomials. -/
def prbsMul (pattern a b : Nat) : Nat :=
  (List.range (prbsTaps pattern).1).reverse.foldl (fun r k => prbsMulX pattern r ^^^ (if b.testBit k then a else 0)) 0

/-- x to the power `n`, by the bits of `n` from bit `k - 1` down. -/
def prbsPow (pattern n : Nat) : Nat → Nat → Nat
  | 0, r => r
  | k + 1, r =>
    let q := prbsMul pattern r r
    prbsPow pattern n k (if n.testBit k then prbsMulX pattern q else q)

/-- Bit `n` of the pattern whose first bits are `seed`, the oldest as bit 0: the sum of the seed's bits that x to the power `n` names (R78). -/
def prbsBit (pattern seed n : Nat) : Bool :=
  let c := prbsPow pattern n 64 1 &&& seed
  (List.range (prbsTaps pattern).1).foldl (fun r k => r != c.testBit k) false

/-- Bit `n` of a running generator, with what INJECT has inverted. -/
def PatternGen.bit (g : PatternGen) (pattern n : Nat) : Bool := prbsBit pattern g.seed n != g.inverted.contains n

/-- How many bits a generator has sent at the present tick, at the lane's rate. -/
def State.genSent (s : State) (l : Fin 20) (g : PatternGen) : Nat := ahead g.since s.now * 2 ^ s.laneRate l / 4

/-- How many quarters of a bit the lane's own generator stands past its latest bit, where its bits are turned back to the checker. -/
def State.genPhase (s : State) (l : Fin 20) : Nat :=
  match s.lanes[l].gen with
  | some g => if s.loopedBack l then ahead g.since s.now * 2 ^ s.laneRate l % 4 else 0
  | none => 0

/-- The latest bits the lane turns back to its own receiver in modes 1 and 2, oldest first: what its generator has sent (R77, R78). -/
def State.turnedBack (s : State) (l : Fin 20) : List Bool :=
  match s.lanes[l].gen with
  | some g =>
    let n := s.genSent l g
    (List.range (min n 95)).map fun k => g.bit (s.f (lanePage l) Reg.LANE_LOOP_CTRL_PATTERN) (n - min n 95 + k)
  | none => []

/-- Bit `k` on a lane's transmit pins, counted from the delimiter of the latest frame, from the start of the clock pattern or of the generator, in
the polarity of LANE_CTRL.TX_INVERT; none where the pins are idle, or pass on what the lane receives (R66, R71, R77, R78, R80). -/
def State.txBit (s : State) (l : Fin 20) (k : Nat) : Option Bool :=
  let x := s.lanes[l]
  let gap (n : Nat) : Bool := (gapFill (n + 1)).getLastD true
  let gen := x.gen.map fun g => g.bit (s.f (lanePage l) Reg.LANE_LOOP_CTRL_PATTERN) k
  let b := match s.txPins l with
    | .frames => some (match x.tx with
      | some (_, f) => (f.line ++ gapFill (k + 1)).getD k false
      | none => gap k)
    | .pattern => some (gap k)
    | .loopData => gen
    | .generator => gen
    | .idle => none
    | .received => none
  b.map fun v => v != s.fb (lanePage l) Reg.LANE_LANE_CTRL_TX_INVERT

/-- PRBS_BITS brought up to the present tick: the bits received while in sync (R78). What is less than a bit is counted with the next. -/
def State.prbsCount (s : State) (l : Fin 20) : State :=
  let p := lanePage l
  let q := ahead s.lanes[l].prbsAt s.now * 2 ^ s.laneRate l
  if s.fb p Reg.LANE_PRBS_STATUS then
    (s.incPair p Reg.LANE_PRBS_BITS_LO Reg.LANE_PRBS_BITS_HI (q / 4)).setLane l fun x =>
      { x with prbsAt := s.now - q % 4 / 2 ^ s.laneRate l, prbsSeen := x.prbsSeen + q / 4 }
  else s.setLane l fun x => { x with prbsAt := s.now }

/-- The checker counters cleared; a checker in sync goes on with its pattern. -/
def State.prbsClear (s : State) (l : Fin 20) : State :=
  let p := lanePage l
  (((s.prbsCount l).setF p Reg.LANE_PRBS_ERRORS 0).setPair p Reg.LANE_PRBS_BITS_LO Reg.LANE_PRBS_BITS_HI 0).setLane l fun x =>
    { x with prbsFirst := true }

/-- A mismatch while in sync: PRBS_ERRORS counts it, and the first since a clear asserts PRBS_ERR (R78). -/
def State.prbsError (s : State) (l : Fin 20) : State :=
  let p := lanePage l
  let s1 := s.prbsCount l
  let s2 := (s1.inc p Reg.LANE_PRBS_ERRORS).setLane l fun x => { x with prbsErrs := (x.prbsSeen :: x.prbsErrs).take 65 }
  if s2.lanes[l].prbsFirst then
    ((s2.sticky! p Sticky.LANE_PRBS_ERR).ev! p Ev.LANE_PRBS_ERR).setLane l fun x => { x with prbsFirst := false }
  else s2

/-- What the checker takes: `line` from the pins, or in modes 1 and 2 what the lane turns back (R77, R78). -/
def State.checkBits (s : State) (l : Fin 20) (line : List Bool) : List Bool := if s.loopedBack l then s.turnedBack l else s.rxBits l line

/-- Bits, oldest first, as a number with the oldest as bit 0. -/
def seedOf : List Bool → Nat
  | [] => 0
  | b :: r => b2n b + 2 * seedOf r

/-- The checker runs and is in sync. -/
def State.prbsLocked (s : State) (l : Fin 20) : Bool := s.pageOn (lanePage l) && s.fb (lanePage l) Reg.LANE_PRBS_STATUS

/-- The generator starts as GEN_EN goes from 0 to 1, and anew as PATTERN changes under it, with first bits the spec leaves open, not all 0; it ends
with GEN_EN = 0 (R78). -/
def State.genUpdate (s : State) (l : Fin 20) (patternWas : Nat) : State :=
  let p := lanePage l
  let k := s.f p Reg.LANE_LOOP_CTRL_PATTERN
  if ¬ s.fb p Reg.LANE_LOOP_CTRL_GEN_EN then s.setLane l fun x => { x with gen := none }
  else if s.lanes[l].gen.isSome ∧ k = patternWas then s
  else (s.setLane l fun x => { x with
    gen := some { seed := (Config.freeValue s.freeCtr).toNat % (2 ^ (prbsTaps k).1 - 1) + 1, since := s.now } }).takeFree

/-- R77, R78: LOOP_CTRL is written with `v`. MODE changes only while the port is OFF, and is ignored in any other state; CHK_EN rising clears the
checker counters. A loop in mode 3 takes the partner's rate. -/
def execLoopCtrlWrite (t : Nat) (l : Fin 20) (v : Word) (s : State) : Host.Outcome State Fault Refusal :=
  let s1 := s.upTo t
  let p := lanePage l
  let a := regAddr p 0x058
  if ¬ s1.pageOn p then .fault (.domainOff a)
  else if v.toNat / 2 ^ 11 ≠ 0 ∨ v.toNat.testBit 3 then .fault (.reservedWrite a)
  else if s1.st p = stOff ∧ 5 ≤ fldOf v Reg.LANE_LOOP_CTRL_MODE ∨ fldOf v Reg.LANE_LOOP_CTRL_PATTERN = 3 then .fault (.reservedEncoding a)
  else
    let s2 := s1.prbsCount l
    let off := s2.st p == stOff
    let rise := !s2.fb p Reg.LANE_LOOP_CTRL_CHK_EN && decide (fldOf v Reg.LANE_LOOP_CTRL_CHK_EN ≠ 0)
    let v' := if off then v else putFld v Reg.LANE_LOOP_CTRL_MODE (s2.f p Reg.LANE_LOOP_CTRL_MODE)
    let s4 := s2.setWord a v'
    let s5 := if rise then (s4.prbsClear l).setF p Reg.LANE_PRBS_STATUS 0
      else if fldOf v Reg.LANE_LOOP_CTRL_CHK_EN = 0 then s4.setF p Reg.LANE_PRBS_STATUS 0 else s4
    let s6 := if off then (s5.setF p Reg.LANE_LANE_STATUS_PHASE (loopPhase s5 p)).setB p Reg.LANE_LANE_STATUS_TX_LOOP_TIMED (s5.loopTimed p) else s5
    let far := s6.f p Reg.LANE_LOOP_CTRL_MODE == 3 && s1.f p Reg.LANE_LOOP_CTRL_MODE == 3
    let s7 := if (off ∨ s6.phase l = phLoop) ∧ ¬ far then s6.setF p Reg.LANE_LANE_STATUS_RATE (s6.restRate p (s6.phase l)) else s6
    done s (s7.genUpdate l (s1.f p Reg.LANE_LOOP_CTRL_PATTERN))

/-- R78: LOOP_CMD.INJECT inverts the present bit of a running generator; in modes 1 and 2 that bit reaches the lane's own checker. -/
def execLoopInject (t : Nat) (l : Fin 20) (s : State) : Host.Outcome State Fault Refusal :=
  let s1 := s.upTo t
  let p := lanePage l
  if ¬ s1.pageOn p then .fault (.domainOff (regAddr p Reg.LANE_LOOP_CMD_INJECT.off))
  else done s (match s1.lanes[l].gen with
    | some g =>
      let n := s1.genSent l g
      let s2 := s1.setLane l fun x => { x with
        gen := some { g with inverted := if g.inverted.contains n then g.inverted.filter (· != n) else n :: g.inverted } }
      if s2.loopedBack l ∧ s2.prbsLocked l then s2.prbsError l else s2
    | none => s1)

/-- R78: LOOP_CMD.CLEAR clears every lane counter and frame-level counter of the page. -/
def execLoopClear (t : Nat) (l : Fin 20) (s : State) : Host.Outcome State Fault Refusal :=
  let s1 := s.upTo t
  let p := lanePage l
  let zero (s : State) (o : Nat) : State := s.setWord (regAddr p o) 0#32
  if ¬ s1.pageOn (lanePage l) then .fault (.domainOff (regAddr (lanePage l) Reg.LANE_LOOP_CMD_CLEAR.off))
  else done s (if s1.pageOn p then
    let s2 := (s1.prbsClear l).each [0x070, 0x074, 0x078, 0x07C] zero
    if l.val < 4 then s2.each [0x104, 0x108, 0x10C, 0x110, 0x114, 0x118] zero else s2.each [0x10C, 0x110, 0x114] zero
  else s1)

/-- R78: the checker has seeded itself from the bits it received, 64 consecutive ones match, and it is in sync. It takes them from the pins, `r`,
or in modes 1 and 2 from the lane's own transmitter. -/
def execPrbsSyncGain (t : Nat) (r : LaneBits) (s : State) : Host.Outcome State Fault Refusal :=
  let s1 := s.upTo t
  let l := r.lane
  let p := lanePage l
  let line := s1.checkBits l r.line
  let pattern := s1.f p Reg.LANE_LOOP_CTRL_PATTERN
  done s (if s1.pageOn p ∧ s1.fb p Reg.LANE_LOOP_CTRL_CHK_EN ∧ ¬ s1.fb p Reg.LANE_PRBS_STATUS ∧ prbsInSync pattern line then
    (s1.setF p Reg.LANE_PRBS_STATUS 1).setLane l fun x => { x with
      prbsAt := s1.now, prbsSeen := 0, prbsErrs := [], chkPhase := s1.genPhase l, chkSeed := seedOf (line.drop (line.length - (prbsTaps pattern).1)) }
  else s1)

/-- The bit the checker expects as the latest one it has received (R78). -/
def State.expectedBit (s : State) (l : Fin 20) : Bool :=
  let pattern := s.f (lanePage l) Reg.LANE_LOOP_CTRL_PATTERN
  let x := s.lanes[l]
  prbsBit pattern x.chkSeed ((prbsTaps pattern).1 - 1 + x.prbsSeen + (ahead x.prbsAt s.now * 2 ^ s.laneRate l + x.chkPhase) / 4)

/-- The latest bit a checker receives: `b` from the pins; in modes 1 and 2 the latest one of the lane's own generator, but for what INJECT has
inverted, which `execLoopInject` counts. Without a generator, or before its first bit, the spec does not say what is turned back, and `b` is taken. -/
def State.latestBit (s : State) (l : Fin 20) (b : Bool) : Bool :=
  if s.loopedBack l then
    match s.lanes[l].gen with
    | some g => if 0 < s.genSent l g then prbsBit (s.f (lanePage l) Reg.LANE_LOOP_CTRL_PATTERN) g.seed (s.genSent l g - 1) else b
    | none => b
  else (s.rxBits l [b]).headD b

/-- More than 64 errors stand in 256 received bits (R78). -/
def State.prbsSwamped (s : State) (l : Fin 20) : Bool :=
  let e := s.lanes[l].prbsErrs
  decide (65 ≤ e.length ∧ e.headD 0 < e.getD 64 0 + 256)

/-- R78: more than 64 errors stand in 256 bits, and the checker drops sync. -/
def execPrbsSyncLoss (t : Nat) (l : Fin 20) (s : State) : Host.Outcome State Fault Refusal :=
  let s1 := s.upTo t
  let p := lanePage l
  done s (if s1.prbsLocked l ∧ s1.prbsSwamped l then
    ((s1.prbsCount l).setF p Reg.LANE_PRBS_STATUS 0).setLane l fun x => { x with prbsSeen := 0, prbsErrs := [] }
  else s1)

/-- R78: a received bit mismatches while in sync. The bits that the lane turns back itself (modes 1 and 2) mismatch where INJECT inverted one, and
where the generator has been stopped or started anew under the checker. -/
def execPrbsBitError (t : Nat) (r : LaneBit) (s : State) : Host.Outcome State Fault Refusal :=
  let s1 := s.upTo t
  let l := r.lane
  done s (if s1.prbsLocked l ∧ s1.latestBit l r.bit ≠ (s1.prbsCount l).expectedBit l then s1.prbsError l else s1)

end Sys2Proof.Machine
end

