-- ==== Sys2Proof/Machine/Time.lean ====
section
/-! DEFINITION. Network time: SYNC, delay exchanges, forwarding, the time servo, holdover, master mode, steps (spec/06_timebase.md, R103 to R121). -/

namespace Sys2Proof.Machine

/-- A port page's lane is UP. -/
def State.portUp (s : State) (p : Nat) : Bool := decide (p < 4) && s.laneUp p

/-- The protocol runs: CTRL.EN of the TIME page (R121). -/
def State.timeEn (s : State) : Bool := s.pwr.sysOn && s.en Pg.TIME

def State.timeMode (s : State) : Nat := s.f Pg.TIME Reg.TIME_MODE_CTRL_MODE

def State.tstate (s : State) : Nat := s.f Pg.TIME Reg.TIME_STATUS_TSTATE

def State.timePort (s : State) : Nat := s.f Pg.TIME Reg.TIME_STATUS_TIME_PORT

/-- The ports in TIME.PORT_PRIO order. -/
def State.portPrio (s : State) : List (Fin 4) :=
  let v := s.f Pg.TIME Reg.TIME_PORT_PRIO
  [0, 1, 2, 3].filterMap fun k => let c := bits v (4 * k) 4; if h : c < 4 then some ⟨c, h⟩ else none

/-- The forward ports (R107): HOST_B, PEER_A, PEER_B. -/
def State.fwdPorts (s : State) : List (Fin 4) :=
  ([1, 2, 3] : List (Fin 4)).filter fun p => (s.f Pg.TIME Reg.TIME_MODE_CTRL_FWD_MASK).testBit (p.val - 1)

/-- `k` frames of a log2 interval, in tk. -/
def intervalTk (k : Nat) (i : Int) : Nat := if 0 ≤ i then k * 2 ^ i.toNat * 16000 else k * 16000 / 2 ^ (-i).toNat

/-- A port has delivered a SYNC from the current master within the loss time (R112). -/
def State.portFresh (s : State) (p : Fin 4) : Bool :=
  match s.time.ports[p].sync with
  | some r => some r.master == s.time.master &&
      decide (sdiff48 s.now r.rx - s.time.ports[p].stepped ≤ intervalTk (s.f Pg.TIME Reg.TIME_MODE_CTRL_LOSS) r.interval)
  | none => false

/-- The time port chosen again (R112); a move between ports asserts PORT_SWITCH and counts, to a new master's port too, and a move from or to none
does not (DESIGN CHOICE, log 96). -/
def State.retimePort (s : State) : State :=
  let new := match s.portPrio.find? fun p => s.portFresh p with
    | some p => p.val
    | none => 7
  let old := s.timePort
  let s1 := s.setF Pg.TIME Reg.TIME_STATUS_TIME_PORT new
  if old ≠ 7 ∧ new ≠ 7 ∧ old ≠ new then (s1.inc Pg.TIME Reg.TIME_PORT_SWITCHES).ev! Pg.TIME Ev.TIME_PORT_SWITCH else s1

/-- The order of the ports, or the loss time, has been written: the time port follows at once, where the protocol runs (R5, R112). -/
def State.portsJudge (s : State) : State := s.when s.timeEn State.retimePort

/-- TSTATE by CTRL.EN and MODE (R114). A rate or step that the servo has decided still takes effect at the frame start (DESIGN CHOICE, log 96). -/
def State.timeModeCheck (s : State) : State :=
  if s.timeEn ∧ s.timeMode = 1 then (if s.tstate = 0 then s.reacquireTime else s)
  else s.setF Pg.TIME Reg.TIME_STATUS_TSTATE 0

/-- Entry into HOLDOVER: the rate in force is kept, and integ is set to it (R115). -/
def State.enterHoldover (s : State) : State :=
  let r := s.fi Pg.TIME Reg.TIME_RATE
  let s1 := (s.setTime fun x => { x with integ := r, nextRate := none, okRun := 0, badRun := 0 }).setFi Pg.TIME Reg.TIME_INTEG r
  (((s1.setF Pg.TIME Reg.TIME_STATUS_TSTATE 3).inc Pg.TIME Reg.TIME_HOLDOVERS).accAdd 0xD64 2 1).ev! Pg.TIME Ev.TIME_HOLDOVER

/-- step_allowed() of R113. -/
def State.stepAllowed (s : State) : Bool :=
  s.fb Pg.TIME Reg.TIME_MODE_CTRL_STEP_EN &&
    [3, 4, 5, 6, 7].all fun d => !s.domOn d || (domainPages d).all fun p => s.st p == stOff

/-- One offset through the servo (R111), and the lock count of R114. -/
def State.timeServo (s : State) (port : Fin 4) (r : SyncRec) : State :=
  let dq := s.time.ports[port].delay + s.fi Pg.TIME (Reg.TIME_ASYM.num port) * 2 ^ 12
  let e : Int := wrapS 64 (sdiff48 r.origin r.rx * 2 ^ 16 + r.corr + wrapS 64 dq)
  let s1 := (s.setFi Pg.TIME Reg.TIME_OFFSET (sat (rnd e 12) 32)).inc Pg.TIME Reg.TIME_SYNC_ACCEPTED
  let big : Bool := decide (s.f Pg.TIME Reg.TIME_THRESH_STEP_THRESH * 16 * 2 ^ 16 ≤ e.natAbs)
  let s2 :=
    if big ∧ s1.stepAllowed then s1.setTime fun x => { x with nextStep := some (rnd e 16) }
    else
      let s2 := if big then s1.sticky! Pg.TIME Sticky.TIME_STEP_REFUSED else s1
      let p := wrapS 64 (rnd (e * s.f Pg.TIME Reg.TIME_GAINS_KP) 8)
      let i0 := s.time.integ + rnd (e * s.f Pg.TIME Reg.TIME_GAINS_KI) 16
      let i := sat i0 32
      let s3 := (s2.setTime fun x => { x with integ := i, nextRate := some (sat (i + p) 24) }).setFi Pg.TIME Reg.TIME_INTEG i
      let s4 := if satHit i0 32 then s3.sticky! Pg.TIME Sticky.TIME_INTEG_SAT else s3
      if satHit (i + p) 24 then s4.sticky! Pg.TIME Sticky.TIME_RATE_SAT else s4
  let near : Bool := decide (e.natAbs < s.f Pg.TIME Reg.TIME_THRESH_LOCK_THRESH * 2 ^ 12)
  let s3 := s2.setTime fun x => { x with okRun := if near then x.okRun + 1 else 0, badRun := if near then 0 else x.badRun + 1 }
  if s3.tstate = 1 ∧ 8 ≤ s3.time.okRun then (s3.setF Pg.TIME Reg.TIME_STATUS_TSTATE 2).ev! Pg.TIME Ev.TIME_TIME_LOCK
  else if s3.tstate = 2 ∧ 4 ≤ s3.time.badRun then s3.setF Pg.TIME Reg.TIME_STATUS_TSTATE 1
  else s3

/-- Queue a time frame for forwarding. -/
def State.forward (s : State) (f : Forward) : State := s.setTime fun x => { x with forwards := x.forwards ++ [f] }

/-- The payload of a SYNC. -/
def syncPayload (origin : Nat) (corr : Int) (seqId masterId : Nat) (interval : Int) : List Byte :=
  leBytes 8 origin ++ leBytes 8 (wrapU 64 corr) ++ leBytes 2 masterId ++ leBytes 2 seqId ++ leBytes 4 (wrapU 8 interval)

def State.setMaster (s : State) (m : Nat) : State :=
  (s.setTime fun x => { x with master := some m }).setF Pg.TIME Reg.TIME_STATUS_MASTER_ID m

/-- R107, R111, R112, R115: a SYNC is accepted on a host or peer port with receive stamp `t`. -/
def execSyncReceive (t : Nat) (port : Fin 4) (origin : Nat) (corr : Int) (seqId masterId : Nat) (interval : Int) (s : State) :
    Host.Outcome State Fault Refusal :=
  let s1 := s.upTo t
  let rx := s1.stampTick port true t
  let rec_ : SyncRec := ⟨origin, corr, rx, masterId, interval⟩
  done s (if s1.timeEn ∧ s1.portUp port then
    let s2 := if s1.time.master.isNone then s1.setMaster masterId else s1
    if s2.time.master = some masterId then
      let held := s2.tstate == 3
      let s3 := (s2.setTPort port fun x => { x with sync := some rec_, stepped := 0, newRun := 0 }).retimePort
      let s4 := if held then s3.reacquireTime.ev! Pg.TIME Ev.TIME_RESUME else s3
      if s4.timePort = port.val then
        let outs : List (Fin 4) := s4.fwdPorts.filter fun q => s4.portUp q.val && decide (q ≠ port)
        let s5 := s4.each outs fun s q => s.forward ⟨q.val, 5, rx, syncPayload origin corr seqId masterId interval⟩
        if !held ∧ s5.timeMode = 1 ∧ s5.time.ports[port].delayValid ∧ ¬ s5.coasting then s5.timeServo port rec_ else s5
      else s4
    else
      let run := if s2.time.ports[port].newId = masterId then s2.time.ports[port].newRun + 1 else 1
      let s3 := (s2.inc Pg.TIME Reg.TIME_SYNC_DISCARDED).setTPort port fun x => { x with newId := masterId, newRun := run }
      let s4 := if s3.timePort = port.val ∧ (s3.tstate = 1 ∨ s3.tstate = 2) then
        s3.enterHoldover.ev! Pg.TIME Ev.TIME_MASTER_CHANGE else s3
      if s4.f Pg.TIME Reg.TIME_MODE_CTRL_QUAL ≤ run ∧ (s4.tstate = 3 ∨ s4.tstate = 0) then
        let was := s4.tstate == 3
        let s5 := (s4.setMaster masterId).setTime fun x => { x with ports := x.ports.map fun q =>
          { q with delay := 0, delayValid := false, sync := none, reqs := [], newRun := 0 } }
        let s6 := (s5.each (List.range 4) fun s k => s.setF Pg.TIME (Reg.TIME_DELAY.num k) 0).setTPort port fun x => { x with sync := some rec_, stepped := 0 }
        if was then s6.retimePort.reacquireTime.ev! Pg.TIME Ev.TIME_RESUME else s6.retimePort
      else s4
  else s1)

/-- R115: the loss time has passed; the time port is chosen again, and with no port left the timebase is in HOLDOVER. Without a master there
is no loss (DESIGN CHOICE, log 96). -/
def execSyncLoss (t : Nat) (s : State) : Host.Outcome State Fault Refusal :=
  let s1 := s.upTo t
  done s (if s1.timeEn then
    let s2 := s1.retimePort
    if s2.timePort = 7 ∧ (s2.tstate = 1 ∨ s2.tstate = 2) ∧ s2.time.master.isSome then s2.enterHoldover else s2
  else s1)

/-! ### Delay exchanges (R108, R110) -/

/-- ID[3:0] of the device. -/
def State.shortId (s : State) : Nat := s.f Pg.TIME Reg.TIME_IDENTITY % 16

/-- R110: in frame `n` a DLY_REQ is launched on every port of PORT_PRIO that is UP and has received a SYNC from the current master. INTERVAL counts
from frame 0 (DESIGN CHOICE, log 84). -/
def execDlyReqLaunch (n : Nat) (s : State) : Host.Outcome State Fault Refusal :=
  let tick := t0 n + 4000
  let s1 := s.upTo tick
  done s (if s1.timeEn ∧ n % 2 ^ s1.f Pg.TIME Reg.TIME_DLY_CTRL_INTERVAL = 0 then
    s1.each s1.portPrio.eraseDups fun s p =>
      match s.time.ports[p].sync with
      | some r =>
        if s.portUp p ∧ some r.master = s.time.master then
          let id := s.shortId * 4096 + s.time.reqCount % 4096
          let e : LaunchEntry := ⟨tick, true, 6, leBytes 8 0 ++ leBytes 2 (s.f Pg.TIME Reg.TIME_IDENTITY) ++ leBytes 2 id, false⟩
          ((s.setTime fun x => { x with reqCount := (x.reqCount + 1) % 4096 }).enqueue (p.castLE (by decide)) e).launchHead (p.castLE (by decide))
        else s
      | none => s
  else s1)

/-- R107, R108, R117: a DLY_REQ arrives: from a forward port it goes on to the time port, with the port entered in the route table; in master
mode it is answered. A port named in both masks forwards while there is a time port (DESIGN CHOICE, log 96). -/
def execDlyReqReceive (t : Nat) (port : Fin 4) (txTime seqId senderId : Nat) (s : State) : Host.Outcome State Fault Refusal :=
  let s1 := s.upTo t
  let rx := s1.stampTick port true t
  let k : Fin 16 := ⟨seqId / 4096 % 16, Nat.mod_lt _ (by decide)⟩
  done s (if s1.timeEn ∧ s1.portUp port then
    if s1.fwdPorts.contains port ∧ s1.timePort < 4 ∧ s1.timePort ≠ port.val then
      let s2 := match s1.time.routes[k] with
        | some q => if q ≠ port.val then s1.sticky! Pg.TIME Sticky.TIME_ROUTE_CONFLICT else s1
        | none => s1
      (s2.setTime fun x => { x with routes := x.routes.set k (some port.val) }).forward
        ⟨s1.timePort, 6, rx, leBytes 8 txTime ++ leBytes 2 senderId ++ leBytes 2 seqId⟩
    else if s1.timeMode = 2 ∧ (s1.f Pg.TIME Reg.TIME_MASTER_CTRL_TX_MASK).testBit port then
      s1.forward ⟨port, 7, rx, leBytes 8 rx ++ leBytes 8 txTime ++ leBytes 2 (s1.f Pg.TIME Reg.TIME_IDENTITY) ++ leBytes 2 seqId⟩
    else s1
  else s1)

/-- The mean path delay of a completed exchange (R110). -/
def State.delayUpdate (s : State) (port : Fin 4) (r : SyncRec) (reqRx reqCorr : Nat) : State :=
  let up : Int := wrapS 64 (sdiff48 r.rx r.origin * 2 ^ 16 - r.corr)
  let down : Int := wrapS 64 (sdiff48 reqRx reqCorr * 2 ^ 16)
  let dm := wrapS 64 (rnd (up + down) 1)
  let x := s.time.ports[port]
  let d := if x.delayValid then wrapS 64 (x.delay + rnd (dm - x.delay) (s.f Pg.TIME Reg.TIME_DLY_CTRL_FILT)) else dm
  ((s.setTPort port fun x => { x with delay := d, delayValid := true }).setFi Pg.TIME (Reg.TIME_DELAY.num port) (rnd d 8)).inc Pg.TIME
    Reg.TIME_DLY_COMPLETED

/-- R108, R110: a DLY_RSP arrives: the device's own ends its exchange; any other goes to the port of its route. -/
def execDlyRspReceive (t : Nat) (port : Fin 4) (reqRx reqCorr seqId responder : Nat) (s : State) : Host.Outcome State Fault Refusal :=
  let s1 := s.upTo t
  let k : Fin 16 := ⟨seqId / 4096 % 16, Nat.mod_lt _ (by decide)⟩
  done s (if s1.timeEn ∧ s1.portUp port then
    if k.val = s1.shortId then
      match s1.time.ports[port].reqs.find? fun q => q.seqId == seqId with
      | some q => (s1.setTPort port fun x => { x with reqs := x.reqs.filter fun y => y.seqId != seqId }).delayUpdate port q.paired reqRx reqCorr
      | none => s1
    else if s1.timePort = port.val then
      match s1.time.routes[k] with
      | some q => s1.forward ⟨q, 7, s1.stampTick port true t, leBytes 8 reqRx ++ leBytes 8 reqCorr ++ leBytes 2 responder ++ leBytes 2 seqId⟩
      | none => s1.inc Pg.TIME Reg.TIME_SYNC_DISCARDED
    else s1
  else s1)

/-- R110: no DLY_RSP has come within 1 ms, and the exchange ends. -/
def execDlyTimeout (t : Nat) (port : Fin 4) (s : State) : Host.Outcome State Fault Refusal :=
  let s1 := s.upTo t
  done s (match s1.time.ports[port].reqs with
  | q :: r =>
    if s1.past (q.tick + 6400000) then
      ((s1.setTPort port fun x => { x with reqs := r }).inc Pg.TIME Reg.TIME_DLY_TIMEOUTS).sticky! Pg.TIME Sticky.TIME_DLY_TIMEOUT
    else s1
  | [] => s1)

/-- The payload of a forwarded frame that leaves with transmit stamp `tx` (R105, R107). -/
def Forward.out_ (f : Forward) (tx : Nat) : List Byte :=
  let res := (tx : Int) - f.rx
  if f.ty = 5 then f.payload.take 8 ++ leBytes 8 (wrapU 64 (fieldAtS f.payload 8 8 + res * 2 ^ 16)) ++ f.payload.drop 16
  else if f.ty = 6 then leBytes 8 (wrapU 64 (fieldAt f.payload 0 8 + res)) ++ f.payload.drop 8
  else f.payload

/-- R107: the first time frame that waits for an output port leaves, with its residence inserted. It ranks with launch-timed frames: it waits only
for a frame on the line, and for a rate step (R75). A frame whose port is no longer UP is dropped. -/
def execTimeFrameForward (t : Nat) (port : Fin 4) (s : State) : Host.Outcome State Fault Refusal :=
  let s1 := s.upTo t
  let l : Fin 20 := port.castLE (by decide)
  done s (match s1.time.forwards.find? fun f => f.out == port.val with
  | some f =>
    let drop (s : State) : State := s.setTime fun x => { x with forwards := x.forwards.erase f }
    let v := uiGrid (s1.laneRate l) s1.now
    let pl := f.out_ (s1.stampTick l false v)
    if ¬ s1.portUp port then drop s1
    else if s1.lineFree l v ∧ s1.stepClear l ⟨f.ty, s1.nextSeq l f.ty, 0, pl⟩ v then drop (s1.sendFrame l f.ty 0 pl v)
    else s1
  | none => s1)

/-! ### Master mode and steps (R113, R117) -/

/-- The SYNC instants of master mode (R117): frame starts of every 2^INTERVAL-th frame, or 2^-INTERVAL evenly spaced instants of every frame. -/
def syncInstant (i : Int) (t : Nat) : Bool := t % syncPeriod i == 0

/-- R117: in master mode a SYNC is launched at a scheduled instant on every master port that is UP. -/
def execSyncLaunch (t : Nat) (s : State) : Host.Outcome State Fault Refusal :=
  let s1 := s.upTo t
  let i := s1.fi Pg.TIME Reg.TIME_MASTER_CTRL_INTERVAL
  done s (if s1.timeEn ∧ s1.timeMode = 2 ∧ syncInstant i t then
    let s2 := s1.each (List.finRange 4) fun s p =>
      if (s.f Pg.TIME Reg.TIME_MASTER_CTRL_TX_MASK).testBit p ∧ s.portUp p then
        let e : LaunchEntry := ⟨t, true, 5, syncPayload 0 0 s.time.syncCount (s.f Pg.TIME Reg.TIME_IDENTITY) i, false⟩
        (s.enqueue (p.castLE (by decide)) e).launchHead (p.castLE (by decide))
      else s
    s2.setTime fun x => { x with syncCount := (x.syncCount + 1) % 2 ^ 16 }
  else s1)

/-- R113: ADJ_HI is written, and the signed adjustment is applied at the next frame start where steps are allowed. A later write
replaces one that waits (DESIGN CHOICE, log 96). -/
def execAdjHiWrite (t : Nat) (v : Word) (s : State) : Host.Outcome State Fault Refusal :=
  let s1 := s.upTo t
  let a := regAddr Pg.TIME 0x070
  if ¬ s1.pwr.sysOn then .fault (.domainOff a)
  else
    let s2 := ((s1.setWord a v).setActWord a v).setActWord (regAddr Pg.TIME 0x06C) (s1.word (regAddr Pg.TIME 0x06C))
    done s (if s2.stepAllowed then
      s2.setTime fun x => { x with nextAdj := some (signed 64 (s2.pair Pg.TIME Reg.TIME_ADJ_LO Reg.TIME_ADJ_HI)) }
    else s2.sticky! Pg.TIME Sticky.TIME_STEP_REFUSED)

/-- A tick from which a span is counted, on the timebase after a step of `d` tk: the spans themselves do not jump. -/
def moved (d : Int) (t : Nat) : Nat := wrapU 64 (t + d)

def Lane.move (d : Int) (x : Lane) : Lane :=
  { x with phaseAt := moved d x.phaseAt, attemptAt := moved d x.attemptAt, patternAt := x.patternAt.map (moved d), capAt := x.capAt.map (moved d),
           tx := x.tx.map fun e => (moved d e.1, e.2), endAt := wrapU 65 ((x.endAt : Int) + 2 * d), freeAt := wrapU 65 ((x.freeAt : Int) + 2 * d),
           delimAt := moved d x.delimAt, prbsAt := moved d x.prbsAt, gen := x.gen.map (fun g => { g with since := moved d g.since }),
           cpls := x.cpls.map fun c => { c with ready := moved d c.ready } }

/-- The starts of the spans that run across a step, moved with the timebase. Queued launches and the ticks the host has named keep their absolute
values (R113). -/
def State.moveMarks (s : State) (d : Int) : State :=
  { s with
    lanes := s.lanes.map (Lane.move d), enteredAt := s.enteredAt.map (fun e => (e.1, moved d e.2)),
    heads := s.heads.map fun x => { x with mbxAt := moved d x.mbxAt },
    lights := s.lights.map fun x => { x with
      pollAt := moved d x.pollAt, lastEnd := x.lastEnd.map (moved d), line := x.line.map (fun e => (moved d e.1, e.2)),
      back := x.back.map fun b => { b with lastEdge := moved d b.lastEdge } },
    clk := { s.clk with holdStart := moved d s.clk.holdStart, qualSince := s.clk.qualSince.map (·.map (moved d)),
                        fmeas := s.clk.fmeas.map fun m => { m with start := moved d m.start } },
    camPorts := s.camPorts.map (fun x => { x with packetAt := x.packetAt.map (moved d) }),
    lasers := s.lasers.map fun x => { x with gateSince := moved d x.gateSince },
    knife := { s.knife with ilk := s.knife.ilk.map fun k => { k with discSince := k.discSince.map (moved d), stopSince := k.stopSince.map (moved d) } },
    rcd := { s.rcd with lastStart := s.rcd.lastStart.map (moved d), hoursAt := moved d s.rcd.hoursAt, flush := s.rcd.flush.map (fun x => { x with start := moved d x.start }),
                        erasing := s.rcd.erasing.map (fun e => (e.1, moved d e.2)), host := s.rcd.host.map fun x => { x with start := moved d x.start } },
    cal := { s.cal with run := s.cal.run.map fun x => { x with start := moved d x.start } },
    bankTest := { s.bankTest with lastStart := s.bankTest.lastStart.map (moved d), marchAt := moved d s.bankTest.marchAt, restoreAt := moved d s.bankTest.restoreAt },
    bist := s.bist.map fun x => { x with start := moved d x.start } }

/-- Add `d` tk to the timebase (R113), where a step is allowed at this frame start. -/
def State.shiftTime (s : State) (d : Int) : State :=
  if s.stepAllowed then
    (((s.setTime fun x => { x with acc := wrapU 96 (x.acc + d * 2 ^ 32), rateAcc := wrapU 96 (x.rateAcc + d * 2 ^ 32), now := moved d x.now, ports := x.ports.map fun p =>
      { p with stepped := p.stepped + d, reqs := p.reqs.map fun q => { q with tick := moved d q.tick } } }).moveMarks d).inc Pg.TIME
      Reg.TIME_STEPS).ev! Pg.TIME Ev.TIME_STEP
  else s.sticky! Pg.TIME Sticky.TIME_STEP_REFUSED

/-- A new rate holds from the CLK_FAST edge at which the timebase reaches the present frame start (R104). The accumulator then stands one cycle of
the new rate before that edge, unless the edge is the latest one. -/
def State.adoptRate (s : State) (r : Int) : State :=
  let s1 := s.setFi Pg.TIME Reg.TIME_RATE r
  s1.setTime fun x =>
    let old := s.fi Pg.TIME Reg.TIME_RATE
    if x.acc % 2 ^ 96 = s.now * 2 ^ 32 then { x with nextRate := none, oldRate := old, rateAcc := x.acc }
    else { x with nextRate := none, oldRate := old, rateAcc := wrapU 96 (x.acc + s.fastInc), acc := wrapU 96 ((x.acc : Int) + s.fastInc - s1.fastInc) }

/-- What waits for a frame start takes effect (R104, R111, R113): the rate, the host's adjustment, the servo's step. -/
def State.timeFrameStart (s : State) : State :=
  let s1 := match s.time.nextRate with
    | some r => s.adoptRate r
    | none => s
  let s2 := match s1.time.nextAdj with
    | some d => (s1.setTime fun x => { x with nextAdj := none }).shiftTime d
    | none => s1
  match s2.time.nextStep with
    | some d => (s2.setTime fun x => { x with nextStep := none }).shiftTime d
    | none => s2

end Sys2Proof.Machine
end

