-- ==== Sys2Proof/Machine/Nv.lean ====
section
/-! DEFINITION. The NV device, its directory, headers, markers and field records, and the trims in force (spec/22_recorder.md R372 to R377,
spec/23_calibration_bist.md R382 to R385). -/

namespace Sys2Proof.Machine

def State.setRcd (s : State) (g : RecSt → RecSt) : State := { s with rcd := g s.rcd }

def State.nvByte (s : State) (a : Nat) : Byte := tabGet nvDefault s.rcd.nv a

def State.nvBytes (s : State) (a n : Nat) : List Byte := (List.range n).map fun k => s.nvByte (a + k)

/-- The little-endian 32-bit word at NV address `a`. -/
def State.nvWord (s : State) (a : Nat) : Nat := leNat (s.nvBytes a 4)

/-- Write bytes into a table of NV bytes. -/
def nvPut (nv : List (Nat × Byte)) (a : Nat) : List Byte → List (Nat × Byte)
  | [] => nv
  | b :: r => nvPut (tabSet nvDefault nv a b) (a + 1) r

def State.nvWrite (s : State) (a : Nat) (l : List Byte) : State := s.setRcd fun r => { r with nv := nvPut r.nv a l }

/-- An erased range reads 0xFF. -/
def State.nvErase (s : State) (a n : Nat) : State := s.setRcd fun r => { r with nv := tabDrop a (a + n) r.nv }

/-! ### The directory (R376) -/

def dirMagic : Nat := 0x71604E56
def hdrMagic : Nat := 0x71605052

/-- The directory passes its check. -/
def State.dirOk (s : State) : Bool := s.nvWord 0 == dirMagic && s.nvWord 0x3C == crc32 (s.nvBytes 0 0x3C)

/-- Take the places it gives. -/
def State.loadDir (s : State) : State :=
  let s1 := s.setRcd fun r => { r with dir := true, nvType := s.nvWord 4 / 2 ^ 24, addrBytes := s.nvWord 4 / 2 ^ 16 % 2 ^ 8,
                                       version := s.nvWord 4 % 2 ^ 8, ringBase := s.nvWord 8, ringSlots := s.nvWord 12 % 2 ^ 16,
                                       markSectors := s.nvWord 12 / 2 ^ 16, markBase := s.nvWord 16 }
  { s1 with cal := { s1.cal with calAddr := s.nvWord 0x14, repairAddr := s.nvWord 0x18 } }

/-! ### Headers (R372, R375, R377) -/

/-- A header of 64 bytes at `a` is whole: MAGIC and HCRC. -/
def State.hdrOk (s : State) (a : Nat) : Bool := s.nvWord a == hdrMagic && s.nvWord (a + 0x3C) == crc32 (s.nvBytes a 0x3C)

/-- `x` is newer than `y` by 32-bit signed difference. -/
def newerSeq (x y : Nat) : Bool := decide (0 < signed 32 (wrapU 32 ((x : Int) - y)))

/-- The place with the greatest SEQ among those given with their SEQ. -/
def newestOf : List (Nat × Nat) → Option (Nat × Nat)
  | [] => none
  | e :: r => match newestOf r with
    | some b => if newerSeq b.2 e.2 then some b else some e
    | none => some e

/-- The newest valid record, as its slot and SEQ. -/
def State.newestRecord (s : State) : Option (Nat × Nat) :=
  newestOf ((List.range s.rcd.ringSlots).filterMap fun k =>
    let a := s.rcd.ringBase + k * 4096
    if s.hdrOk a then some (k, s.nvWord (a + 8)) else none)

/-- The marker sector whose first marker is the newest (R377). -/
def State.newestSector (s : State) : Option Nat :=
  (newestOf ((List.range s.rcd.markSectors).filterMap fun k =>
    let a := s.rcd.markBase + k * 4096
    if s.nvWord a = hdrMagic then some (k, s.nvWord (a + 8)) else none)).map (·.1)

/-- The first place of a marker sector whose MAGIC reads 0xFFFFFFFF, 64 where there is none. -/
def State.firstFree (s : State) (sector : Nat) : Nat :=
  ((List.range 64).find? fun k => s.nvWord (s.rcd.markBase + sector * 4096 + k * 64) == 0xFFFFFFFF).getD 64

/-- The newest valid marker, as its place in the whole area and its SEQ: one whose check fails gives way to the next newest, which may lie in an
older sector (R377). -/
def State.newestMarker (s : State) : Option (Nat × Nat) :=
  newestOf ((List.range s.rcd.markSectors).flatMap fun k => (List.range (s.firstFree k)).filterMap fun j =>
    let a := s.rcd.markBase + k * 4096 + j * 64
    if s.hdrOk a then some (k * 64 + j, s.nvWord (a + 8)) else none)

/-- The address of the newest valid header of either kind. -/
def State.newestHeader (s : State) : Option Nat :=
  match s.newestRecord, s.newestMarker with
  | some r, some m => if newerSeq m.2 r.2 then some (s.rcd.markBase + m.1 * 64) else some (s.rcd.ringBase + r.1 * 4096)
  | some r, none => some (s.rcd.ringBase + r.1 * 4096)
  | none, some m => some (s.rcd.markBase + m.1 * 64)
  | none, none => none

/-- A header of R372; `kind` 1 is a record's, 2 a marker's. -/
def State.header (s : State) (kind seq trig merged word28 time : Nat) : List Byte :=
  let body := leBytes 4 hdrMagic ++ leBytes 4 ((if kind = 1 then 0x1000 else 0x40) * 2 ^ 16 + 0x0100 + kind) ++ leBytes 4 seq ++
    leBytes 4 (s.f Pg.RECORD Reg.RECORD_POWER_CYCLES) ++ leBytes 4 (s.f Pg.RECORD Reg.RECORD_HOURS) ++ leBytes 4 (merged * 2 ^ 16 + trig) ++
    leBytes 8 time ++ leBytes 4 s.rcd.accHours ++ leBytes 4 (s.word (regAddr Pg.SYS 0x040)).toNat ++ leBytes 4 word28 ++
    leBytes 4 (s.f Pg.RECORD Reg.RECORD_TAG) ++ List.replicate 12 0#8
  body ++ leBytes 4 (crc32 body)

/-! ### Field records and trims in force (R383 to R385) -/

/-- A calibration record copy at `a` is valid. -/
def State.calOk (s : State) (a : Nat) : Bool := s.nvWord a == 0x71604341 && s.nvWord (a + 0x8FC) == crc32 (s.nvBytes a 0x8FC)

/-- A repair list copy at `a` is valid. -/
def State.repairOk (s : State) (a : Nat) : Bool := s.nvWord a == 0x71605250 && s.nvWord (a + 0x140) == crc32 (s.nvBytes a 0x140)

/-- Of two copies, the one to use: 0 or 1, by the count each holds. -/
def pickCopy (ok0 ok1 : Bool) (n0 n1 : Nat) : Option Nat :=
  if ok0 && ok1 then (if newerSeq n1 n0 then some 1 else some 0) else if ok0 then some 0 else if ok1 then some 1 else none

/-- The items of a valid calibration record replace factory values where their VALID bits say so. -/
def State.loadCal (s : State) (a : Nat) : State :=
  let bv := s.nvWord (a + 0x10) % 2 ^ 16
  let lv := s.nvWord (a + 0x14) % 2 ^ 20
  let sv := (s.nvWord (a + 0x18)).testBit 0
  let cells := (List.range 512).filterMap fun i => if bv.testBit (i / 32) then some (i, s.nvWord (a + 0x40 + 4 * i) % 2 ^ 24) else none
  let offs := if sv then (List.range 12).map fun i => (i, signed 16 (leNat (s.nvBytes (a + 0x840 + 2 * i) 2))) else []
  let segs := (List.range 20).filterMap fun k => if lv.testBit k then some (k, s.nvWord (a + 0x860 + 4 * k)) else none
  { s with cal := { s.cal with cells := cells, offsets := offs, segs := segs, brushValid := bv, laneValid := lv, sensorValid := sv,
                               count := s.nvWord (a + 8) } }

/-- The value in force of a trim. -/
def State.trim (s : State) (kind i : Nat) : Nat :=
  match kind with
  | 0 => ((s.cal.cells.find? fun e => e.1 == i).map (·.2)).getD (s.factory 0 i)
  | 1 => ((s.cal.offsets.find? fun e => e.1 == i).map fun e => wrapU 16 e.2).getD (s.factory 1 i)
  | 2 => ((s.cal.segs.find? fun e => e.1 == i).map (·.2)).getD (s.factory 2 i)
  | _ => s.factory 3 i

/-- Primer step 7 for the calibration record and the repair list: CAL_COPY, CAL_LOADED, REPAIR_COPY, COUNT, LAST_HOURS. -/
def State.loadField (s : State) : State :=
  let a := s.cal.calAddr
  let r := s.cal.repairAddr
  let s1 := match pickCopy (s.calOk a) (s.calOk (a + 0x1000)) (s.nvWord (a + 8)) (s.nvWord (a + 0x1008)) with
    | some c =>
      let b := a + c * 0x1000
      let s0 := s.loadCal b
      let s1 := { s0 with cal := { s0.cal with copy := c } }
      (((s1.setF Pg.CALIB Reg.CALIB_STATUS_CAL_COPY c).setB Pg.CALIB Reg.CALIB_STATUS_CAL_LOADED true).setF Pg.CALIB Reg.CALIB_COUNT
        (s.nvWord (b + 8))).setF Pg.CALIB Reg.CALIB_LAST_HOURS (s.nvWord (b + 12))
    | none => s.setB Pg.SYS Reg.SYS_BOOT_STATUS_CAL_FALLBACK true
  match pickCopy (s.repairOk r) (s.repairOk (r + 0x1000)) (s.nvWord (r + 8)) (s.nvWord (r + 0x1008)) with
  | some c =>
    let b := r + c * 0x1000
    let n := min 64 (s.nvWord (b + 4) % 256)
    let list := (List.range n).map fun k => let w := s.nvWord (b + 0x40 + 4 * k); (bits w 24 5, bits w 0 13)
    let s2 := s1.setF Pg.CALIB Reg.CALIB_STATUS_REPAIR_COPY c
    { s2 with cal := { s2.cal with repairs := list } }
  | none => s1.setB Pg.SYS Reg.SYS_BOOT_STATUS_REPAIR_FALLBACK true

end Sys2Proof.Machine
end

