-- ==== Sys2Proof/Machine/Recorder.lean ====
section
/-! DEFINITION. The event recorder and the NV port (spec/22_recorder.md, R370 to R381). -/

namespace Sys2Proof.Machine

/-- The device is a NOR flash, so that slots are erased ahead (R375). -/
def State.nor (s : State) : Bool := s.rcd.nvType == 0

def State.erasedAhead (s : State) : Nat := s.f Pg.RECORD Reg.RECORD_STATUS_ERASED

/-- R373: trigger `bit` occurs. -/
def execFlushTrigger (t : Nat) (bit : Fin 7) (s : State) : Host.Outcome State Fault Refusal := done s ((s.upTo t).trigger bit)

/-- R373: RECORD.CMD.FLUSH raises the COMMAND trigger. -/
def execRecordFlush (t : Nat) (s : State) : Host.Outcome State Fault Refusal :=
  let s1 := s.upTo t
  if ¬ s1.pageOn Pg.RECORD then .fault (.domainOff (regAddr Pg.RECORD Reg.RECORD_CMD_FLUSH.off))
  else done s (s1.trigger 0)

/-- A pending request may start a flush: none is in progress, and a bit that need not wait is set or MIN_GAP is over (R374). -/
def State.mayFlush (s : State) : Bool :=
  s.recorderTakes && s.rcd.flush.isNone && s.rcd.pending != 0 &&
    ([0, 1, 3].any (fun b => s.rcd.pending.testBit b) || s.gapOver)

/-- Bytes 0x000 to 0xFFF of a record: header, accumulators, check word. -/
def State.recordImage (s : State) (seq trig merged : Nat) : List Byte :=
  let body := s.header 1 seq trig merged (b2n s.roleB) s.now ++ s.bytes recordBank 0xFBC
  body ++ leBytes 4 (crc32 body)

/-- A request starts its flush: the accumulators are captured with the header (R374). A slot that is not yet erased on a NOR device makes the
flush wait (R377); a POWER_FAIL or SHUTDOWN flush abandons a host read or program (R378). -/
def State.flushStart (s0 : State) : State :=
  let s := s0.gateTimes.accClean 0x40 0xFBC
  if s0.mayFlush then
    if s.nor ∧ s.erasedAhead = 0 then s.sticky! Pg.RECORD Sticky.RECORD_ERASE_WAIT
    else
      let trig := s.rcd.pending
      let seq := (s.f Pg.RECORD Reg.RECORD_SEQ + 1) % 2 ^ 32
      let slot := s.f Pg.RECORD Reg.RECORD_STATUS_NEXT_SLOT
      let urgent := trig.testBit 1 || trig.testBit 3
      let s1 := s.setBytes (recordBank + 0x40000) (s.recordImage seq trig s.rcd.merged)
      let s2 := s1.setRcd fun r => { r with
        pending := 0, merged := 0, flush := some ⟨trig, r.merged, slot, seq, s.now, s.now⟩, lastStart := some s.now, suspended := true,
        imageKnown := true
        host := match r.host with
          | some h => if urgent && h.op != .erase then none else some h
          | none => none }
      (((s2.setB Pg.RECORD Reg.RECORD_STATUS_PENDING false).setB Pg.RECORD Reg.RECORD_STATUS_FLUSHING true).setB Pg.NV Reg.NV_NV_STATUS_BUSY
        true).calWatch
  else s0

/-- R374: a pending request starts a flush. -/
def execFlushStart (t : Nat) (s : State) : Host.Outcome State Fault Refusal := done s (s.upTo t).flushStart

/-- R374: MIN_GAP is over, and a request that waited for it may start. -/
def execMinGapExpiry (t : Nat) (s : State) : Host.Outcome State Fault Refusal :=
  let s1 := s.upTo t
  done s (if s1.gapOver then s1.flushStart else s1)

/-- The record of a flush is written to its slot (R374, R375). -/
def State.flushFinish (s : State) (fl : Flush) : State :=
  let s0 := s.ownerReads [(recordBank + 0x40000, 4096)]
  let s1 := s0.nvWrite (s0.rcd.ringBase + fl.slot * 4096) (s0.bytes (recordBank + 0x40000) 4096)
  let s2 := ((s1.flushOver fl).setF Pg.RECORD Reg.RECORD_SEQ fl.seq).setPair Pg.RECORD Reg.RECORD_LAST_LO Reg.RECORD_LAST_HI (fl.taken % 2 ^ 48)
  (s2.inc Pg.RECORD Reg.RECORD_FLUSHES).ev! Pg.RECORD Ev.RECORD_FLUSH_DONE

/-- R375: the recorder erases in the background: a marker sector that is due, or on a NOR device the slot after those already erased ahead. -/
def execEraseAhead (t : Nat) (s : State) : Host.Outcome State Fault Refusal :=
  let s1 := s.upTo t
  done s (if s1.recorderTakes ∧ s1.rcd.erasing.isNone ∧ s1.rcd.ringSlots ≠ 0 then
    match s1.rcd.markErase with
    | some a => s1.setRcd fun r => { r with erasing := some (a, s1.now), markErase := none }
    | none =>
      let n := s1.erasedAhead + b2n s1.rcd.flush.isSome
      if s1.nor ∧ n < 2 then
        let slot := (s1.f Pg.RECORD Reg.RECORD_STATUS_NEXT_SLOT + n) % s1.rcd.ringSlots
        s1.setRcd fun r => { r with erasing := some (r.ringBase + slot * 4096, s1.now) }
      else s1
  else s1)

/-- R375: a background erase completes; a flush that waited for its slot may start. -/
def execEraseDone (t : Nat) (s : State) : Host.Outcome State Fault Refusal :=
  let s1 := s.upTo t
  done s (match s1.rcd.erasing with
  | some e =>
    if s1.rcd.suspended then s1
    else
      let s2 := (s1.nvErase e.1 4096).setRcd fun r => { r with erasing := none }
      let ring := s2.rcd.ringBase ≤ e.1 ∧ e.1 < s2.rcd.ringBase + s2.rcd.ringSlots * 4096
      if ring then (s2.setF Pg.RECORD Reg.RECORD_STATUS_ERASED (min 2 (s2.erasedAhead + 1))).flushStart else s2
  | none => s1)

/-- R372: 225 s of timebase have passed, and the operating hours advance by 1/16 h. -/
def execHoursTick (t : Nat) (s : State) : Host.Outcome State Fault Refusal :=
  let s1 := s.upTo t
  done s (if s1.pwr.sysOn ∧ s1.time.running ∧ s1.past (s1.rcd.hoursAt + 1440000000000) then
    (s1.setF Pg.RECORD Reg.RECORD_HOURS (s1.f Pg.RECORD Reg.RECORD_HOURS + 1)).setRcd fun r => { r with hoursAt := r.hoursAt + 1440000000000 }
  else s1)

/-- R370: every accumulator is cleared, and accumulation begins at the present hours. -/
def execClearAcc (t : Nat) (s : State) : Host.Outcome State Fault Refusal :=
  let s1 := s.upTo t
  if ¬ s1.pageOn (Pg.RECORD) then .fault (.domainOff (regAddr (Pg.RECORD) Reg.RECORD_CMD_CLEAR_ACC.off))
  else done s (if s1.pwr.sysOn then
    let s2 := s1.gateTimes.freshWords recordBank 0x1000
    { s2 with mem := tabDrop recordBank (recordBank + 0x1000) s2.mem,
              rcd := { s2.rcd with seen := [], accHours := s2.f Pg.RECORD Reg.RECORD_HOURS } }
  else s1)

/-! ### Host NV commands (R378) -/

/-- The range `[a, a + n)` touches the ring or the marker area. -/
def State.nvProtected (s : State) (a n : Nat) : Bool :=
  let hit (b k : Nat) : Bool := decide (a < b + k) && decide (b < a + n)
  hit s.rcd.ringBase (s.rcd.ringSlots * 4096) || hit s.rcd.markBase (s.rcd.markSectors * 4096)

/-- NV_CMD is written with an OP: refused while BUSY or where the range is protected, else the command begins. -/
def State.nvCommand (s : State) (op : NvOp) : State :=
  let a := s.f Pg.NV Reg.NV_NV_ADDR
  let n := s.f Pg.NV Reg.NV_NV_LEN
  let guarded := match op with
    | .read => false
    | .program => s.nvProtected a n
    | .erase => s.nvProtected (a / 4096 * 4096) 4096
  if !s.pwr.sysOn then s
  else if s.fb Pg.NV Reg.NV_NV_STATUS_BUSY || guarded then
    ((s.setB Pg.NV Reg.NV_NV_STATUS_REFUSED true).sticky! Pg.NV Sticky.NV_CMD_REFUSED).ev! Pg.NV Ev.NV_CMD_REFUSED
  else (((s.setRcd fun r => { r with host := some ⟨op, a, n, s.now⟩ }).setB Pg.NV Reg.NV_NV_STATUS_BUSY true).setB Pg.NV
    Reg.NV_NV_STATUS_REFUSED false).calWatch

/-- R378: NV_CMD OP 1. While NV_LEN still holds its reset value 0, which lies outside its range of 1 to 4,096, the command moves no byte (DESIGN
CHOICE, log 92). -/
def execNvRead (t : Nat) (s : State) : Host.Outcome State Fault Refusal :=
  let s1 := s.upTo t
  if ¬ s1.pageOn (Pg.NV) then .fault (.domainOff (regAddr (Pg.NV) Reg.NV_NV_CMD.off)) else done s (s1.nvCommand .read)

/-- R378: NV_CMD OP 2, with NV_LEN as in `execNvRead`. -/
def execNvProgram (t : Nat) (s : State) : Host.Outcome State Fault Refusal :=
  let s1 := s.upTo t
  if ¬ s1.pageOn (Pg.NV) then .fault (.domainOff (regAddr (Pg.NV) Reg.NV_NV_CMD.off)) else done s (s1.nvCommand .program)

/-- R378: NV_CMD OP 3. -/
def execNvErase (t : Nat) (s : State) : Host.Outcome State Fault Refusal :=
  let s1 := s.upTo t
  if ¬ s1.pageOn Pg.NV then .fault (.domainOff (regAddr Pg.NV Reg.NV_NV_CMD.off))
  else done s (s1.nvCommand .erase)

/-- Words of the NV buffer that nothing has written hold free bytes before `n` bytes at `a` of it are used or written (R370). -/
def State.fillBuf (s : State) (a n : Nat) : State :=
  let base := recordBank + 0x41000
  let words := (List.range (if n = 0 then 0 else (a + n - 1 - base) / 4 + 1 - (a - base) / 4)).map fun k => (a - base) / 4 + k
  let s1 := s.each (words.filter fun w => !s.rcd.bufKnown.contains w) fun s w =>
    { s.setBytes (base + 4 * w) ((List.range 4).map fun k => freeByte (s.freeCtr + k)) with freeCtr := s.freeCtr + 4 }
  { s1 with rcd := { s1.rcd with bufKnown := (words ++ s1.rcd.bufKnown).eraseDups } }

/-- The codes of the NV port's commands (R378). -/
inductive NvCode where
  | identify | read | quadRead | program | erase | writeEnable | readStatus | suspend | resume
  deriving DecidableEq, Repr

/-- The byte that starts a command on the port, by the directory's ADDR_BYTES. -/
def NvCode.byte (c : NvCode) (addrBytes : Nat) : Nat :=
  let four := addrBytes == 4
  match c with
  | .identify => 0x9F
  | .read => if four then 0x13 else 0x03
  | .quadRead => if four then 0x6C else 0x6B
  | .program => if four then 0x12 else 0x02
  | .erase => if four then 0x21 else 0x20
  | .writeEnable => 0x06
  | .readStatus => 0x05
  | .suspend => 0x75
  | .resume => 0x7A

/-- The page programs that write `n` bytes at `a`, `fuel` at most: up to each multiple of 256 on NOR flash, one whole write on MRAM or FRAM. -/
def pagePrograms (nor : Bool) : Nat → Nat → Nat → List (Nat × Nat)
  | 0, _, _ => []
  | fuel + 1, a, n =>
    let k := if nor then min n (256 - a % 256) else n
    if n = 0 then [] else (a, k) :: pagePrograms nor fuel (a + k) (n - k)

/-- The commands that the port sends for an operation, each with its address and byte count: a write enable before each program or erase, and the
status read behind it; on MRAM or FRAM an erase is a write of 4,096 bytes of 0xFF (R378). -/
def State.nvBus (s : State) (op : NvOp) (a n : Nat) : List (Nat × Nat × Nat) :=
  let code (c : NvCode) : Nat := c.byte s.rcd.addrBytes
  let step (c : NvCode) (e : Nat × Nat) : List (Nat × Nat × Nat) :=
    [(code .writeEnable, 0, 0), (code c, e.1, e.2), (code .readStatus, 0, 1)]
  let sector := a / 4096 * 4096
  match op with
  | .read => [(code (if s.fb Pg.NV Reg.NV_NV_CFG_QUAD then .quadRead else .read), a, n)]
  | .program => (pagePrograms s.nor 17 a n).flatMap (step .program)
  | .erase => if s.nor then step .erase (sector, 0) else step .program (sector, 4096)

/-- R378, R381: a host NV command completes: its data has moved, and CMD_DONE is asserted. An erase is held while it is suspended for a flush. -/
def execNvCmdDone (t : Nat) (s : State) : Host.Outcome State Fault Refusal :=
  let s1 := s.upTo t
  let buf := recordBank + 0x41000
  done s (match s1.rcd.host with
  | some h =>
    if h.op = .erase ∧ s1.rcd.suspended then s1
    else
      let s2 := match h.op with
        | .read => (s1.fillBuf buf h.len).setBytes buf (s1.nvBytes h.addr h.len)
        | .program =>
          let s2 := (s1.fillBuf buf h.len).ownerReads [(buf, h.len)]
          s2.nvWrite h.addr (s2.bytes buf h.len)
        | .erase => s1.nvErase (h.addr / 4096 * 4096) 4096
      ((s2.setRcd fun r => { r with host := none }).setB Pg.NV Reg.NV_NV_STATUS_BUSY s2.rcd.flush.isSome).ev! Pg.NV Ev.NV_CMD_DONE
  | none => s1)

end Sys2Proof.Machine
end

