-- ==== Sys2Proof/Machine/Power.lean ====
section
/-! DEFINITION. Device states, the primer sequence, resets and domain switching (spec/07_power_start.md, R122 to R137). -/

namespace Sys2Proof.Machine

def State.setPwr (s : State) (g : PwrSt → PwrSt) : State := { s with pwr := g s.pwr }

/-- The host-address ranges of a domain's banks and DRAM (R28, R122). -/
def domainRanges (d : Nat) : List (Nat × Nat) :=
  match d with
  | 3 => [(0x10000000, 0x11000000), (0x11C00000, 0x12000000)]
  | 4 => [(0x11000000, 0x11400000)]
  | 6 => [(0x11400000, 0x11800000)]
  | 8 => [(dramBase, 0x10000000000)]
  | _ => []

/-- R342: the row of the background test is abandoned where its bank's domain `d` goes off; the test comes back to it. -/
def State.testAbandon (s : State) (d : Nat) : State :=
  if s.bankTest.active ∧ bankDomain s.bankTest.bank = d then
    { s with bankTest := { s.bankTest with active := false } }.setB Pg.BANKS Reg.BANKS_BG_STATUS_ACTIVE false
  else s

/-- The units of domain `d` that belong to no one page. -/
def State.domainUnits (s : State) (d : Nat) : State :=
  if d = 6 then { s with trigs := Vector.replicate 8 {} }
  else if d = 8 then { s with drams := Vector.replicate 2 {}, training := 0, retrain := 0 }
  else if d = 3 then { s with xch := Vector.replicate 2 {} }
  else s

/-- Every page and bank of a domain back to what a switch-on leaves. The far sides of its crossings that lie in other domains, and so are not
reset, are told (R132, R397). -/
def State.domainClear (s : State) (d : Nat) : State :=
  let s0 := if d = 4 then s.each (List.range 64) fun s a => s.axisFault a 6 s.now else s
  let far := ((domainPages d).flatMap s0.farSides).filter fun q => pageDomain q != d
  let s1 := (s0.each far fun s q => s.ev! q Ev.CROSS_RESET).each (domainPages d) State.clearInternal
  let s2 := s1.each (domainPages d) fun s p => s.clearPage p
  (s2.testAbandon d).domainUnits d |>.each (domainRanges d) fun s r => { s with mem := tabDrop r.1 r.2 s.mem, memErr := tabDrop r.1 r.2 s.memErr }

/-- Every page, bank, counter and sequence of the nine switched domains is cleared, and both fixed domains are off (R133). The AON registers, the
levels at the input pins, the NV device and the AON state stay; the slot of a flush that this abandons fails its check word (R379). -/
def State.clearSwitched (s : State) : State :=
  { State.reset with
    pending := s.pending, freeCtr := s.freeCtr, regs := s.regs.filter fun e => aonHeld e.1
    rcd := { nv := (s.rcd.flush.map s.rcd.spoil).getD s.rcd.nv }
    knife := { ilk := s.knife.ilk.map fun k => { a := k.a, b := k.b } }
    encs := s.encs.map fun e => { a := e.a, b := e.b, z := e.z }
    lasers := s.lasers.map fun l => { readyIn := l.readyIn, faultIn := l.faultIn }
    pwr := { s.pwr with sysOn := false, linkOn := false, primer := .idle, switching := none, refused := [], dirty := [], dormantWait := false,
                        restartDue := false, clockForce := false, limitHeld := false } }

/-- PWR_REQ falls, and the blanking delay starts (R125). -/
def State.dropPwrReq (s : State) : State := s.setPwr fun p => { p with pwrReq := false, blanking := true, wakeHeld := none }

def State.lastExit (s : State) (n : Nat) : State := s.setF Pg.PWR Reg.PWR_WAKE_STATUS_LAST_EXIT n

def State.setDev (s : State) (d : DevState) : State := s.setPwr fun p => { p with dev := d }

/-! ### From the power-on reset to LINKED (R125 to R129) -/

/-- R127 step 1: VDD_AON rises through its threshold: everything is cleared and the device is DORMANT. The NV device, the levels at the input pins
and the strap are outside it. -/
def execVddAonPor (t : Nat) (s : State) : Host.Outcome State Fault Refusal :=
  let s1 := (s.upTo t).clearSwitched
  done s { s1 with regs := [], pwr := { dev := .dormant, rolePin := s.pwr.rolePin, pgIn := s.pwr.pgIn } }

/-- R412: VDD_AON falls below its reset threshold: OFF, with the shutdown latch cleared. -/
def execVddAonLoss (t : Nat) (s : State) : Host.Outcome State Fault Refusal :=
  let s1 := (s.upTo t).clearSwitched
  done s { s1 with regs := [], pwr := { dev := .off, rolePin := s.pwr.rolePin, pgIn := s.pwr.pgIn } }

/-- A wake event acts (R125, R126): WAKING with PWR_REQ high. -/
def State.wake (s : State) (cause : Nat) : State :=
  let s1 := (s.setF Pg.PWR Reg.PWR_WAKE_STATUS_CAUSE cause).inc Pg.PWR Reg.PWR_AON_COUNTS_WAKES
  s1.setPwr fun p => { p with dev := .waking, pwrReq := true, primer := .waitPg, wakeHeld := none, resetForce := false }

/-- Whether a wake event of CAUSE code `c` is enabled: a lane in WAKE_MASK, or the WAKE pin. -/
def State.wakeEnabled (s : State) (c : Nat) : Bool :=
  if c = 5 then s.fb Pg.PWR Reg.PWR_WAKE_CFG_PIN_EN else (s.f Pg.PWR Reg.PWR_WAKE_CFG_WAKE_MASK).testBit (c - 1)

/-- R125: a wake event completes its qualification: lane `c` (0 to 3) or the WAKE pin (4). Within the blanking delay it is held. Of events within 50
ns of each other the arbiter takes the lowest code; no timebase runs, so it goes by the ticks given with them. While RESET_L is held low it is
dropped (DESIGN CHOICE, log 85). -/
def execWakeEvent (t : Nat) (c : Fin 5) (s : State) : Host.Outcome State Fault Refusal :=
  let s1 := s.upTo t
  let code := c.val + 1
  let ties := decide (ahead s1.pwr.wakeAt t ≤ 320)
  done s (if s1.pwr.shutdownLatch ∨ s1.pwr.resetL ∨ ¬ s1.wakeEnabled code then s1
  else if s1.pwr.dev = .dormant then
    if s1.pwr.blanking then
      match s1.pwr.wakeHeld with
      | some d => if ties ∧ code < d then s1.setPwr fun p => { p with wakeHeld := some code } else s1
      | none => s1.setPwr fun p => { p with wakeHeld := some code, wakeAt := t }
    else (s1.wake code).setPwr fun p => { p with wakeAt := t }
  else if s1.pwr.dev = .waking ∧ s1.pwr.primer = .waitPg ∧ ties ∧ code < s1.f Pg.PWR Reg.PWR_WAKE_STATUS_CAUSE then
    s1.setF Pg.PWR Reg.PWR_WAKE_STATUS_CAUSE code
  else s1)

/-- R125: the blanking delay ends, and a held wake event acts. -/
def execWakeBlankEnd (t : Nat) (s : State) : Host.Outcome State Fault Refusal :=
  let s1 := (s.upTo t).setPwr fun p => { p with blanking := false }
  done s (match s1.pwr.wakeHeld with
  | some c => if s1.pwr.dev = .dormant ∧ ¬ s1.pwr.shutdownLatch then s1.wake c else s1.setPwr fun p => { p with wakeHeld := none }
  | none => s1)

/-- The pages the primer sequence enables in step 5. -/
def primerPages : List Nat := [Pg.CLK, Pg.THERM, Pg.KNIFE, Pg.RECORD, Pg.NV, Pg.PWR, Pg.LINK 0, Pg.LINK 1, Pg.LINK 2, Pg.LINK 3]

/-- An interlock whose DISCREPANT or STOP time counts from `now`. -/
def Ilk.since (now : Nat) (k : Ilk) : Ilk :=
  { k with discSince := if k.discrepant then some now else none, stopSince := if !k.a && k.b then some now else none }

/-- R127 step 5: PD_SYS and PD_LINK are switched on, each asserting DOMAIN_ON (R132), the strap is latched, the first pages are enabled, and the
time of an interlock that stands in DISCREPANT or STOP counts from here (R301). -/
def State.primerOn (s : State) : State :=
  let s0 := { s with knife := { s.knife with ilk := s.knife.ilk.map (Ilk.since s.now) } }
  let s1 := s0.setPwr fun p => { p with dev := .waking, pwrReq := true, sysOn := true, linkOn := true, primer := .waitLink, resetForce := false,
                                        restartDue := false }
  (((s1.ev! Pg.PWR Ev.PWR_DOMAIN_ON).ev! Pg.PWR Ev.PWR_DOMAIN_ON).setB Pg.SYS Reg.SYS_STRAPS s1.pwr.rolePin).each primerPages fun s p =>
    s.ctrlEn1 p true

/-- R126, R127: PG_IN counts as high. `roleB` is the level of the DIPTYCH_ROLE strap. -/
def execPgInHigh (t : Nat) (roleB : Bool) (s : State) : Host.Outcome State Fault Refusal :=
  let s1 := (s.upTo t).setPwr fun p => { p with pgIn := true, rolePin := roleB }
  done s (if s1.pwr.dev = .waking ∧ s1.pwr.primer = .waitPg ∧ ¬ s1.pwr.resetL then s1.primerOn else s1)

/-- R126: PG_IN has not counted as high within PG_TIMEOUT. -/
def execPgTimeout (t : Nat) (s : State) : Host.Outcome State Fault Refusal :=
  let s1 := s.upTo t
  done s (if s1.pwr.dev = .waking ∧ s1.pwr.primer = .waitPg ∧ ¬ s1.pwr.pgIn then
    ((((s1.dropPwrReq).setB Pg.PWR Reg.PWR_WAKE_STATUS_PG_TIMEOUT true).lastExit 5).setDev .dormant).setPwr fun p => { p with primer := .idle }
  else s1)

/-- R133: PG_IN counts as low: a power-fail reset. -/
def execPgInLow (t : Nat) (s : State) : Host.Outcome State Fault Refusal :=
  let s1 := s.upTo t
  let was := s1.pwr.pgIn
  let s2 := s1.setPwr fun p => { p with pgIn := false }
  let d := s2.pwr.dev
  done s (if was ∧ (d = .waking ∨ d = .linked ∨ d = .active ∨ d = .safeHold) then
    let s3 := ((s2.clearSwitched.setPwr fun p => { p with resetForce := true }).dropPwrReq).lastExit 1
    (s3.inc Pg.PWR Reg.PWR_AON_COUNTS_PG_DROPS).setDev .dormant
  else s2)

/-- R127 step 6: the root PLL has locked to the candidate that was taken, the timebase starts at 0 and CLK reaches ON, with the candidate's port UP
at tick `t` of the new timebase. The candidate is taken without qualification (R50). Every lane that waited for the lock starts its clock pattern
(R64). -/
def execPrimerLinkReady (t : Nat) (c : Fin 4) (s : State) : Host.Outcome State Fault Refusal :=
  done s (if s.pwr.primer = .waitLink ∧ s.clk.primer = some c.val ∧ s.laneUp c ∧ s.fb (Pg.LINK c) Reg.LANE_LANE_STATUS_FRAME_LOCK then
    let s1 := (s.setTime fun x => { x with running := true, now := 0, acc := 0, rateAcc := 0 }).upTo t
    let s2 := ((s1.setClk fun k => { k with locked := true, prevSel := c, primer := none }).setF Pg.CLK Reg.CLK_REF_STATUS_SELECTED c).setB Pg.CLK
      Reg.CLK_STATUS_LOCKED true
    let s3 := ((s2.setEdges c true).setValid c true).setPwr fun p => { p with primer := .load }
    let s4 := s3.candAll.each (List.finRange 20) State.patternStart
    if s4.st Pg.CLK = stStarting then s4.toOn Pg.CLK else s4
  else s)

/-- R128: step 6 has not ended within LINK_WAIT. -/
def execLinkWaitTimeout (t : Nat) (s : State) : Host.Outcome State Fault Refusal :=
  let s1 := s.upTo t
  done s (if s1.pwr.primer = .waitLink ∧ s1.pwr.dev = .waking ∧ ¬ s1.pwr.limitHeld then
    let s2 := (s1.clearSwitched.setPwr fun p => { p with resetForce := true }).dropPwrReq
    ((s2.setB Pg.PWR Reg.PWR_WAKE_STATUS_LINK_TIMEOUT true).lastExit 6).setDev .dormant
  else s1)

/-- R377: the recorder's cold start: the directory, the newest headers, the counts they carry. -/
def State.coldStart (s : State) : State :=
  let s1 := s.loadDir
  let s2 := match s1.newestHeader with
    | some a => (((s1.setF Pg.RECORD Reg.RECORD_SEQ (s1.nvWord (a + 8))).setF Pg.RECORD Reg.RECORD_POWER_CYCLES (s1.nvWord (a + 12) + 1)).setF
        Pg.RECORD Reg.RECORD_HOURS (s1.nvWord (a + 16))).setRcd fun r => { r with accHours := s1.nvWord (a + 16) }
    | none => s1.setF Pg.RECORD Reg.RECORD_POWER_CYCLES 1
  let next := match s1.newestRecord with
    | some r => if s1.rcd.ringSlots = 0 then 0 else (r.1 + 1) % s1.rcd.ringSlots
    | none => 0
  let mark := match s1.newestSector with
    | some k => if s1.firstFree k = 64 then (k + 1) * 64 else k * 64 + s1.firstFree k
    | none => 0
  (s2.setF Pg.RECORD Reg.RECORD_STATUS_NEXT_SLOT next).setRcd fun r =>
    { r with markNext := if r.markSectors = 0 then 0 else mark % (r.markSectors * 64), hoursAt := s.now }

/-- The start marker is written to its place (R372, R375). -/
def State.writeMarker (s : State) : State :=
  let seq := (s.f Pg.RECORD Reg.RECORD_SEQ + 1) % 2 ^ 32
  let ws := (s.word (regAddr Pg.PWR 0x04C)).toNat
  let w28 := (s.word (regAddr Pg.SYS 0x044)).toNat % 2 ^ 16 * 2 ^ 16 + (ws % 2 ^ 7)
  let a := s.rcd.markBase + s.rcd.markNext * 64
  let s1 := (s.nvWrite a (s.header 2 seq 0 0 w28 s.now)).setF Pg.RECORD Reg.RECORD_SEQ seq
  s1.setRcd fun r =>
    let n := r.markSectors * 64
    { r with markNext := if n = 0 then 0 else (r.markNext + 1) % n,
             markErase := if n ≠ 0 ∧ r.markNext % 64 = 0 then some (r.markBase + (r.markNext / 64 + 1) % r.markSectors * 4096) else r.markErase }

/-- A cold start without a directory: the first power cycle known, factory trims and fuse repairs alone (R129, R377, R383). -/
def State.noDirectory (s : State) : State :=
  ((((s.setB Pg.SYS Reg.SYS_BOOT_STATUS_CAL_FALLBACK true).setB Pg.SYS Reg.SYS_BOOT_STATUS_REPAIR_FALLBACK true).setB Pg.RECORD
    Reg.RECORD_STATUS_NO_DIR true).setF Pg.RECORD Reg.RECORD_POWER_CYCLES 1).setRcd fun r => { r with hoursAt := s.now }

/-- R127 steps 7 and 8, R129: fuses, NV records and marker; LINKED. `fuseOk`: the fuse check word holds; `nvId`: what the NV device answers to its
identification command, none if it does not; `markerOk`: the marker is programmed within 3 ms; `us`: the µs since PG_IN rose. A device whose references went while it woke enters SAFE-HOLD
from LINKED (R24, R55). -/
def execPrimerDone (t : Nat) (fuseOk : Bool) (nvId : Option Nat) (markerOk : Bool) (us : Nat) (s : State) : Host.Outcome State Fault Refusal :=
  let s1 := s.upTo t
  done s (if s1.pwr.primer = .load ∧ s1.pwr.dev = .waking then
    let s2 := ((s1.setB Pg.SYS Reg.SYS_BOOT_STATUS_FUSE_BAD (!fuseOk)).setF Pg.SYS Reg.SYS_BOOT_STATUS_PRIMER_US (satU us 16)).setF Pg.SYS
      Reg.SYS_BOOT_STATUS_REF_USED s1.selected
    let s3 := match nvId with
      | none => (s2.setB Pg.SYS Reg.SYS_BOOT_STATUS_NV_ABSENT true).noDirectory
      | some id =>
        let s3 := s2.setF Pg.NV Reg.NV_NV_ID id
        if s3.dirOk then
          let s4 := s3.coldStart.loadField
          if markerOk then s4.writeMarker else s4.setB Pg.SYS Reg.SYS_BOOT_STATUS_MARKER_FAIL true
        else
          (s3.setB Pg.SYS Reg.SYS_BOOT_STATUS_MARKER_FAIL true).noDirectory.sticky! Pg.RECORD Sticky.RECORD_NO_DIR
    let s4 := ((s3.repairBanks 0).setB Pg.RECORD Reg.RECORD_STATUS_READY true).setPwr fun p => { p with primer := .idle, dev := .linked }
    let s5 := s4.ev! Pg.SYS Ev.SYS_PRIMER_DONE
    let s6 := if (s5.word (regAddr Pg.SYS 0x044)).toNat % 32 ≠ 0 then s5.ev! Pg.SYS Ev.SYS_BOOT_FALLBACK else s5
    (s6.latchCause allBrushes causeReset s6.now).when s6.pwr.clockForce fun s => s.enterSafeHold.allPins
  else s1)

/-! ### Resets (R133, R134) -/

/-- R133: RESET_L has been low for 1 µs. SHUTDOWN ignores it (R135). Until the restart the device is WAKING, and a wake event held in
the blanking delay is dropped (DESIGN CHOICE, log 85). -/
def execResetLAssert (t : Nat) (s : State) : Host.Outcome State Fault Refusal :=
  let s1 := s.upTo t
  done s (if s1.pwr.dev = .off ∨ s1.pwr.dev = .shutdown then s1
  else
    let s2 := s1.clearSwitched
    let s3 := ({ s2 with regs := tabDel 0x2048 s2.regs }.setF Pg.PWR Reg.PWR_WAKE_STATUS_CAUSE 0)
    let s4 := ((s3.setB Pg.PWR Reg.PWR_WAKE_STATUS_PG_TIMEOUT false).setB Pg.PWR Reg.PWR_WAKE_STATUS_LINK_TIMEOUT false).lastExit 2
    s4.setPwr fun p => { p with resetL := true, resetForce := true, wakeHeld := none,
                                dev := if s.pwr.dev = .dormant then .dormant else .waking })

/-- R409: a step 5 that a reset brings reads the DIPTYCH_ROLE strap as it stands then, which no operand tells: a free value (log 12). -/
def State.roleRead (s : State) : State := (s.setPwr fun p => { p with rolePin := (Config.freeValue s.freeCtr).getLsbD 0 }).takeFree

/-- R133: RESET_L is released: the primer restarts from step 5 where PG_IN is high, else the device is DORMANT. -/
def execResetLRelease (t : Nat) (s : State) : Host.Outcome State Fault Refusal :=
  let s1 := s.upTo t
  done s (if s1.pwr.resetL then
    let s2 := s1.setPwr fun p => { p with resetL := false }
    if s2.pwr.pgIn then (s2.roleRead.setF Pg.PWR Reg.PWR_WAKE_STATUS_CAUSE 6).primerOn
    else if s2.pwr.pwrReq then s2.dropPwrReq.setDev .dormant
    else s2.setDev .dormant
  else s1)

/-- R134: RESET_CMD is written with KIND 1; any key but 0xA5 is ignored. Until the restart the device is WAKING; in SHUTDOWN the command is ignored
(DESIGN CHOICE, log 85). -/
def execDeviceCommand (t : Nat) (key : Nat) (s : State) : Host.Outcome State Fault Refusal :=
  let s1 := s.upTo t
  if ¬ s1.pageOn (Pg.SYS) then .fault (.domainOff (regAddr (Pg.SYS) Reg.SYS_RESET_CMD_KIND.off))
  else done s (if s1.pwr.sysOn ∧ key = 0xA5 ∧ s1.pwr.dev ≠ .shutdown then
    (s1.clearSwitched.lastExit 3).setPwr fun p => { p with resetForce := true, restartDue := true, dev := .waking }
  else s1)

/-- R133: 10 µs after a device command the primer sequence restarts from step 5. -/
def execDeviceCommandRestart (t : Nat) (s : State) : Host.Outcome State Fault Refusal :=
  let s1 := s.upTo t
  done s (if s1.pwr.restartDue ∧ s1.pwr.pgIn ∧ s1.pwr.dev ≠ .shutdown then (s1.roleRead.setF Pg.PWR Reg.PWR_WAKE_STATUS_CAUSE 6).primerOn else s1)

/-- A dormant command completes once its record is flushed (R133). -/
def State.dormantFinish (s : State) : State :=
  if s.pwr.dormantWait ∧ s.pwr.dev ≠ .shutdown ∧ s.rcd.flush.isNone ∧ (s.rcd.pending = 0 ∨ ¬ s.recorderTakes) then
    ((s.clearSwitched.dropPwrReq).lastExit 4).setDev .dormant
  else s

/-- Every page outside PD_SYS and PD_LINK is OFF or has its domain off (R134). -/
def State.allOff (s : State) : Bool := allPages.all fun p => decide (pageDomain p ≤ 1) || s.st p == stOff

/-- R134: RESET_CMD is written with KIND 2. In SHUTDOWN it is ignored (DESIGN CHOICE, log 85). -/
def execDormantCommand (t : Nat) (key : Nat) (s : State) : Host.Outcome State Fault Refusal :=
  let s1 := s.upTo t
  if ¬ s1.pageOn (Pg.SYS) then .fault (.domainOff (regAddr (Pg.SYS) Reg.SYS_RESET_CMD_KIND.off))
  else done s (if s1.pwr.sysOn ∧ key = 0xA5 ∧ s1.pwr.dev ≠ .shutdown then
    if s1.allOff then ((s1.trigger 0).setPwr fun p => { p with dormantWait := true }).dormantFinish
    else s1.sticky! Pg.SYS Sticky.SYS_DORMANT_REFUSED
  else s1)

/-- R374: the record write completes; a dormant command that waits for it goes on. -/
def execFlushDone (t : Nat) (s : State) : Host.Outcome State Fault Refusal :=
  let s1 := s.upTo t
  done s (match s1.rcd.flush with
  | some fl => if s1.past (fl.start + 32768) then (s1.flushFinish fl).dormantFinish else s1
  | none => s1)

/-- R374, R379: a program has taken more than 5 ms, or an erase more than 1 s, and counts as failed. A dormant command does not wait for a
failed flush any longer (R133), and an abandoned save ends as R388 says. -/
def execNvTimeout (t : Nat) (who : NvUser) (s : State) : Host.Outcome State Fault Refusal :=
  let s1 := s.upTo t
  let late (s : State) : State := s.sticky! Pg.NV Sticky.NV_NV_TIMEOUT
  done s (match who with
  | .flush => match s1.rcd.flush with
    | some fl =>
      if s1.past (fl.start + 32768 + 32000000) then
        ((((late (s1.abandonFlush fl)).inc Pg.RECORD Reg.RECORD_FLUSH_FAILS).sticky! Pg.RECORD Sticky.RECORD_FLUSH_FAIL).ev! Pg.RECORD
          Ev.RECORD_FLUSH_FAIL).dormantFinish
      else s1
    | none => s1
  | .erase => match s1.rcd.erasing with
    | some e => if s1.past (e.2 + 6400000000) then late (s1.setRcd fun r => { r with erasing := none }) else s1
    | none => s1
  | .host => match s1.rcd.host with
    | some h =>
      let limit := match h.op with
        | .read => 0
        | .program => 32000000
        | .erase => 6400000000
      if limit ≠ 0 ∧ s1.past (h.start + limit) then
        (late (s1.setRcd fun r => { r with host := none })).setB Pg.NV Reg.NV_NV_STATUS_BUSY s1.rcd.flush.isSome
      else s1
    | none => s1
  | .marker => if s1.pwr.primer = .load ∧ s1.past 32000000 then late s1 else s1
  | .save => match s1.cal.run with
    | some r =>
      if r.op = 4 ∧ s1.past (r.start + (if s1.nor then 6400000000 else 0) + 32000000) then (late s1).calAbandon 4 else s1
    | none => s1)

/-! ### Domain switching (R131, R132) -/

/-- The order of switch-offs; switch-ons go in the reverse order. -/
def offOrder : List Nat := [7, 6, 5, 4, 3, 8, 2]

def State.supplied (s : State) (d : Nat) : Bool := (s.f Pg.PWR Reg.PWR_DOMAIN_STATUS_ON).testBit d

/-- Request bit of a domain; in SHUTDOWN every domain is to be off (R368). -/
def State.wanted (s : State) (d : Nat) : Bool := s.pwr.dev != .shutdown && (s.f Pg.PWR Reg.PWR_DOMAIN_CTRL_REQ).testBit (d - 2)

/-- The domains a switch-on needs. -/
def onNeeds (d : Nat) : List Nat :=
  match d with
  | 3 => [8]
  | 4 => [3, 2]
  | 6 => [8]
  | _ => []

/-- The domains that must be off for a switch-off. -/
def offNeeds (d : Nat) : List Nat :=
  match d with
  | 2 => [4]
  | 8 => [3, 6]
  | 3 => [4]
  | _ => []

/-- A switch-off is refused while a domain that needs it is on, or a page of the domain is not OFF; not in SHUTDOWN, and not for its pages while
the domain is DIRTY (R131, R368, R391). -/
def State.offRefused (s : State) (d : Nat) : Bool :=
  s.pwr.dev != .shutdown && ((offNeeds d).any (fun q => s.supplied q) || (domainPages d).any fun p => s.st p != stOff)

/-- A switch of domain `d` begins. A domain that is switched off is isolated at once: its pages and banks are lost, the far sides of its crossings see
CROSS_RESET, its outputs are low (R132). -/
def State.switchBegin (s : State) (d : Nat) (on : Bool) : State :=
  let s1 := if on then s else (s.domainClear d).fmeasLost d
  let s2 := (s1.setF Pg.PWR Reg.PWR_DOMAIN_STATUS_SWITCHING d).setPwr fun p => { p with switching := some (d, on) }
  if on then s2 else s2.calWatch.allPins

/-- A request is refused until the next write of DOMAIN_CTRL. -/
def State.switchRefuse (s : State) (d : Nat) (on : Bool) : State :=
  ((s.sticky! Pg.PWR (if on then Sticky.PWR_ON_REFUSED else Sticky.PWR_OFF_REFUSED)).ev! Pg.PWR Ev.PWR_REFUSED).setPwr fun p =>
    { p with refused := d :: p.refused }

/-- One domain at its turn: nothing to do, a switch that begins, or a refusal. -/
def State.switchTurn (s : State) (e : Nat × Bool) : State :=
  let (d, on) := e
  if s.pwr.switching.isSome ∨ s.pwr.refused.contains d then s
  else if on then
    if s.supplied d ∨ ¬ s.wanted d then s
    else if (onNeeds d).all fun q => s.supplied q then s.switchBegin d true else s.switchRefuse d true
  else
    if ¬ s.supplied d ∨ s.wanted d then s
    else if s.offRefused d then s.switchRefuse d false else s.switchBegin d false

/-- Work through the differences between requests and the present state, up to the next switch that begins. -/
def State.switchNext (s : State) : State :=
  s.each (offOrder.map (fun d => (d, false)) ++ offOrder.reverse.map fun d => (d, true)) State.switchTurn

/-- R131: DOMAIN_CTRL is written with `v`. -/
def execDomainCtrlWrite (t : Nat) (v : Word) (s : State) : Host.Outcome State Fault Refusal :=
  let s1 := s.upTo t
  let a := regAddr Pg.PWR 0x040
  if ¬ s1.pwr.sysOn then .fault (.domainOff a)
  else if v.toNat / 2 ^ 9 ≠ 0 then .fault (.reservedWrite a)
  else
    let s2 := (s1.setF Pg.PWR Reg.PWR_DOMAIN_CTRL_REQ (fldOf v Reg.PWR_DOMAIN_CTRL_REQ)).setPwr fun p => { p with refused := [] }
    done s s2.switchNext

/-- R132: a switch-on completes. -/
def execDomainSwitchOnDone (t : Nat) (s : State) : Host.Outcome State Fault Refusal :=
  let s1 := s.upTo t
  done s (match s1.pwr.switching with
  | some (d, true) =>
    let on := putBit (s1.f Pg.PWR Reg.PWR_DOMAIN_STATUS_ON) d true
    let s2 := ((s1.setPwr fun p => { p with switching := none }).setF Pg.PWR Reg.PWR_DOMAIN_STATUS_ON on).setF Pg.PWR
      Reg.PWR_DOMAIN_STATUS_SWITCHING 15
    ((((s2.ev! Pg.PWR Ev.PWR_DOMAIN_ON).repairBanks d).showEnforced).allPins).switchNext
  | _ => s1)

/-- R132: a switch-off completes. -/
def execDomainSwitchOffDone (t : Nat) (s : State) : Host.Outcome State Fault Refusal :=
  let s1 := s.upTo t
  done s (match s1.pwr.switching with
  | some (d, false) =>
    let on := putBit (s1.f Pg.PWR Reg.PWR_DOMAIN_STATUS_ON) d false
    let s3 := ((s1.setPwr fun p => { p with switching := none, dirty := p.dirty.filter (· != d) }).setF Pg.PWR Reg.PWR_DOMAIN_STATUS_ON on).setF
      Pg.PWR Reg.PWR_DOMAIN_STATUS_SWITCHING 15
    (((s3.ev! Pg.PWR Ev.PWR_DOMAIN_OFF).calWatch).allPins).switchNext
  | _ => s1)

/-- R137: PFAIL_L falls. -/
def execPfail (t : Nat) (s : State) : Host.Outcome State Fault Refusal :=
  let s1 := s.upTo t
  done s (if s1.pwr.sysOn then (s1.ev! Pg.PWR Ev.PWR_PFAIL).trigger 1 else s1)

/-- R130: SYS STARTING has lasted 16 CLK_CORE cycles: ACTIVE. -/
def execSysStart (t : Nat) (s : State) : Host.Outcome State Fault Refusal :=
  let s1 := s.upTo t
  done s (if s1.st Pg.SYS = stStarting ∧ s1.elapsed (s1.entered Pg.SYS) 256 then s1.endSequence Pg.SYS else s1)

/-- R368: the flush has completed or 20 ms have passed: PD_LINK and PD_SYS are switched off and PWR_REQ drops. -/
def execShutdownPowerOff (t : Nat) (s : State) : Host.Outcome State Fault Refusal :=
  let s1 := s.upTo t
  done s (match s1.therm.shutAt with
  | some d =>
    let flushed := s1.rcd.flush.isNone && (s1.rcd.pending == 0 || !s1.recorderTakes)
    if s1.pwr.dev = .shutdown ∧ s1.pwr.sysOn ∧ (flushed ∨ s1.past (d + 128000000)) then s1.clearSwitched.dropPwrReq else s1
  | none => s1)

/-- The level at ALERT_L, low (true) in SHUTDOWN and while a wake timeout is flagged (R135). -/
def State.alert (s : State) : Bool :=
  s.pwr.dev == .shutdown || s.fb Pg.PWR Reg.PWR_WAKE_STATUS_PG_TIMEOUT || s.fb Pg.PWR Reg.PWR_WAKE_STATUS_LINK_TIMEOUT

end Sys2Proof.Machine
end

