-- ==== Sys2Proof/Machine/Events.lean ====
section
/-! DEFINITION. The event registers' own writes, the event collector and EVT frames (spec/24_crossings.md R399 to R404, spec/05_link_frames.md R91,
spec/02_register_pages.md R43). -/

namespace Sys2Proof.Machine

def State.setEv (s : State) (g : EvcolSt → EvcolSt) : State := { s with ev := g s.ev }

/-- An offer enters the sort buffer: the pending entry of its source takes it in, with the earliest stamp, or it makes a new entry. -/
def sortInsert (e : EvEntry) : List EvEntry → List EvEntry
  | [] => [e]
  | x :: r =>
    if x.source = e.source then
      { x with count := x.count + e.count, stamp := if sdiff48 e.stamp x.stamp < 0 then e.stamp else x.stamp, late := x.late || e.late } :: r
    else x :: sortInsert e r

/-- One offer through the intake (R400, R402). -/
def State.intakeOne (s : State) (e : EvEntry) : State :=
  let late := decide (12800 ≤ sdiff48 s.now e.stamp)
  let merges := s.ev.sort.any fun x => x.source == e.source
  let s1 := s.setEv fun v => { v with sort := sortInsert { e with late := late } v.sort, scan := (e.source + 1) % 8192 }
  let s2 := if merges then s1.inc Pg.EVCOL Reg.EVCOL_MERGED else s1
  if late then ((s2.inc Pg.EVCOL Reg.EVCOL_LATE).sticky! Pg.EVCOL Sticky.EVCOL_LATE).ev! Pg.EVCOL Ev.EVCOL_LATE else s2

/-- The distance of a source from the place the scan stands at. -/
def scanDist (scan source : Nat) : Nat := (source + 8192 - scan % 8192) % 8192

/-- The offer that stands first in the scan order. -/
def nextOffer (scan : Nat) : List EvEntry → Option EvEntry
  | [] => none
  | e :: r => match nextOffer scan r with
    | some b => if scanDist scan e.source ≤ scanDist scan b.source then some e else some b
    | none => some e

/-- The count of cycle `k`. -/
def CycleCount.of (c : CycleCount) (k : Nat) : Nat := if c.cycle = k then c.n else 0

/-- Take up to `k` waiting offers. -/
def State.intake : Nat → State → State
  | 0, s => s
  | k + 1, s =>
    match nextOffer s.ev.scan s.ev.offers with
    | some e =>
      let c := s.now / 16
      let s1 := s.setEv fun v => { v with offers := v.offers.filter fun x => x.source != e.source, taken := ⟨c, v.taken.of c + 1⟩ }
      State.intake k (if s1.isOn Pg.EVCOL then s1.intakeOne e else s1.setEv fun v => { v with scan := (e.source + 1) % 8192 })
    | none => s

/-- R400: the intake takes up to 8 waiting offers in a CLK_CORE cycle; outside ON they are dropped (R403). -/
def execEventIntake (t : Nat) (s : State) : Host.Outcome State Fault Refusal :=
  let s1 := (s.upTo t).each (List.finRange 4) State.lightReturn
  done s (if s1.pwr.sysOn then (State.intake (8 - s1.ev.taken.of (s1.now / 16)) s1).evStat else s1)

/-- The order in which entries leave: ascending stamp, then source number (R401). -/
def keyBefore (a b : EvEntry) : Bool :=
  let d := sdiff48 a.stamp b.stamp
  decide (d < 0) || (decide (d = 0) && decide (a.source < b.source))

/-- The first entry in that order. -/
def firstKey : List EvEntry → Option EvEntry
  | [] => none
  | e :: r => match firstKey r with
    | some b => if keyBefore b e then some b else some e
    | none => some e

/-- One entry becomes a message with the next QSEQ, or is lost to a full queue (R401, R402). -/
def State.deliverOne (s : State) (e : EvEntry) : State :=
  let q := s.f Pg.EVCOL Reg.EVCOL_QSEQ_NEXT
  let c := s.now / 16
  let s1 := (s.setEv fun v => { v with
    sort := v.sort.filter fun x => x.source != e.source, moved := ⟨c, v.moved.of c + 1⟩ }).setF Pg.EVCOL Reg.EVCOL_QSEQ_NEXT (q + 1)
  if s1.ev.queue.length < 1024 then
    (s1.setEv fun v => { v with queue := v.queue ++ [⟨q, e.source, e.stamp, min e.count 0xFFFF, e.late⟩] }).inc Pg.EVCOL Reg.EVCOL_MESSAGES
  else
    (((s1.inc Pg.EVCOL Reg.EVCOL_LOST).setF Pg.EVCOL Reg.EVCOL_LAST_LOST q).sticky! Pg.EVCOL Sticky.EVCOL_LOST).ev! Pg.EVCOL Ev.EVCOL_LOST

/-- Move up to `k` entries whose stamp is 12,800 tk old. -/
def State.deliver : Nat → State → State
  | 0, s => s
  | k + 1, s =>
    match firstKey s.ev.sort with
    | some e => if 12800 ≤ sdiff48 s.now e.stamp then State.deliver k (s.deliverOne e) else s
    | none => s

/-- R401: the entries that are deliverable move into the host queue in key order, up to 8 in a CLK_CORE cycle. -/
def execEventDeliverable (t : Nat) (s : State) : Host.Outcome State Fault Refusal :=
  let s1 := s.upTo t
  done s (if s1.isOn Pg.EVCOL then (State.deliver (8 - s1.ev.moved.of (s1.now / 16)) s1).evStat else s1)

/-- The payload of an EVT frame (R86). -/
def evtPayload (l : List EvMsg) : List Byte :=
  match l with
  | [] => []
  | m :: _ => leBytes 4 m.qseq ++ leBytes 4 (l.length - 1) ++
      l.flatMap fun e => leBytes 8 e.stamp ++ leBytes 4 (e.count * 2 ^ 16 + b2n e.late * 2 ^ 15 + e.source)

/-- R91: an EVT frame with up to 8 messages leaves on the selected port, when it is UP, its line free and no completion ready. -/
def execEvtSend (t : Nat) (s : State) : Host.Outcome State Fault Refusal :=
  let s1 := s.upTo t
  let port := s1.f Pg.EVCOL Reg.EVCOL_EVCOL_CFG
  let msgs := s1.ev.queue.take 8
  done s (if h : 1 ≤ port ∧ port ≤ 2 then
    let l : Fin 20 := ⟨port - 1, by omega⟩
    if s1.isOn Pg.EVCOL ∧ s1.laneUp l ∧ msgs ≠ [] then
      s1.trySend l 4 0 (evtPayload msgs) fun s =>
        ((s.setEv fun v => { v with queue := v.queue.drop 8 }).inc (lanePage l) Reg.FRAME_EVT_MESSAGES msgs.length).evStat
    else s1
  else s1)

/-- R43: a W1C write to EVENT; an assertion in the same cycle of the block's clock wins. -/
def State.eventClear (s : State) (p bits : Nat) : State :=
  let keep (k : Nat) : Bool :=
    let last := tabGet zeroNat s.lastEv (p * 32 + k)
    let per := pagePeriod p
    last != 0 && decide ((last - 1) / per = s.now / per)
  let old := s.f p Reg.EVENT
  s.setF p Reg.EVENT ((List.range (eventCount p)).foldl (fun m k => if bits.testBit k && !keep k then putBit m k false else m) old)

end Sys2Proof.Machine
end

