-- ==== Sys2Proof/Machine/Knife.lean ====
section
/-! DEFINITION. The emission safety path: interlocks, arming, clearing and testing (spec/16_knife.md, R299 to R308). -/

namespace Sys2Proof.Machine

def State.setIlk (s : State) (i : Fin 4) (g : Ilk → Ilk) : State :=
  { s with knife := { s.knife with ilk := s.knife.ilk.set i (g s.knife.ilk[i]) } }

/-- An interlock takes new channel levels: its discrepancy and STOP times follow; a STOP of 1 ms behind it is remembered (R301). -/
def State.ilkLevels (s : State) (i : Fin 4) (a b : Bool) : State :=
  s.setIlk i fun k =>
    let stopped := k.stopOk || (match k.stopSince with | some t => s.elapsed t 6400000 | none => false)
    let disc := a == b
    { a := a, b := b,
      discSince := if disc then some (k.discSince.getD s.now) else none,
      discDone := disc && k.discDone,
      stopSince := if !a && b then some (k.stopSince.getD s.now) else none,
      stopOk := stopped }

/-- R300: a channel of interlock `i` leaves its OK level, and the pair reads `a`, `b`. The clock-free force acts; INTERLOCK latches on every
brush when the interlock was OK. -/
def execIlkDepart (t : Nat) (i : Fin 4) (a b : Bool) (s : State) : Host.Outcome State Fault Refusal :=
  let s1 := s.upTo t
  let was := s1.knife.ilk[i].ok
  done s (if a && !b then s1
  else
    let s2 := s1.ilkLevels i a b
    if was ∧ s2.pwr.sysOn then
      ((s2.inc Pg.KNIFE Reg.KNIFE_ILK_OPENS).ev! Pg.KNIFE Ev.KNIFE_INTERLOCK).latchCause allBrushes causeInterlock s2.now |>.allPins
    else s2.allPins)

/-- R300, R301: interlock `i` returns to OK. The force is released where nothing else holds it; DISCREPANCY is no longer present once the interlock
has been in STOP for 1 ms. -/
def execIlkReturn (t : Nat) (i : Fin 4) (s : State) : Host.Outcome State Fault Refusal :=
  let s1 := (s.upTo t).ilkLevels i true false
  let d := s1.f Pg.KNIFE Reg.KNIFE_ILK_STATUS_DISC_LATCHED
  let s2 := if s1.pwr.sysOn ∧ s1.knife.ilk[i].stopOk then s1.setF Pg.KNIFE Reg.KNIFE_ILK_STATUS_DISC_LATCHED (putBit d i false) else s1
  done s ((s2.setIlk i fun k => { k with stopOk := false }).allPins)

/-- R301: interlock `i` has been DISCREPANT for DISC_TIME. -/
def execDiscTimeout (t : Nat) (i : Fin 4) (s : State) : Host.Outcome State Fault Refusal :=
  let s1 := s.upTo t
  let k := s1.knife.ilk[i]
  done s (match k.discSince with
  | some since =>
    if s1.pwr.sysOn ∧ ¬ k.discDone ∧ s1.elapsed since (s1.f Pg.KNIFE Reg.KNIFE_ILK_CFG * 6400000) then
      let s2 := (s1.setIlk i fun k => { k with discDone := true, stopOk := false }).setF Pg.KNIFE Reg.KNIFE_ILK_STATUS_DISC_LATCHED
        (putBit (s1.f Pg.KNIFE Reg.KNIFE_ILK_STATUS_DISC_LATCHED) i true)
      (((s2.inc Pg.KNIFE Reg.KNIFE_DISCREPANCIES).sticky! Pg.KNIFE Sticky.KNIFE_DISCREPANCY).ev! Pg.KNIFE Ev.KNIFE_DISCREPANCY).latchCause
        allBrushes causeDiscrepancy s2.now
    else s1
  | none => s1)

/-- The brushes of a mask. -/
def maskBrushes (m : BitVec 16) : List (Fin 16) := allBrushes.filter fun n => m.toNat.testBit n

/-- A cause was detected for brush `n` in the present CLK_FAST cycle (R304). -/
def State.causeNow (s : State) (n : Fin 16) : Bool := s.knife.causeAt[n] != 0 && decide ((s.knife.causeAt[n] - 1) / 8 = s.now / 8)

/-- A key that is wrong has no effect but BAD_KEY (R305). -/
def State.badKey (s : State) : State := s.sticky! Pg.KNIFE Sticky.KNIFE_BAD_KEY

/-- R305: ARM_SET is written with a key and a brush mask. -/
def execKnifeArmSet (t : Nat) (key : Nat) (mask : BitVec 16) (s : State) : Host.Outcome State Fault Refusal :=
  let s1 := s.upTo t
  if ¬ s1.pwr.sysOn then .fault (.domainOff (regAddr Pg.KNIFE 0x040))
  else done s (if key ≠ 0xC3 then s1.badKey
  else
    let refused := (maskBrushes mask).any fun n => s1.latched n != 0
    let s2 := s1.each ((maskBrushes mask).filter fun (n : Fin 16) => s1.latched n == 0 && !s1.causeNow n) fun s (n : Fin 16) =>
      let arm := s.f Pg.KNIFE Reg.KNIFE_ARM_STATE
      if arm.testBit n then s
      else
        let s1 := s.setF Pg.KNIFE Reg.KNIFE_ARM_STATE (putBit arm n true)
        { s1 with knife := { s1.knife with armAt := s1.knife.armAt.set n (some s.now), permitted := s1.knife.permitted.set n false } }
    if refused then (s2.sticky! Pg.KNIFE Sticky.KNIFE_ARM_REFUSED).ev! Pg.KNIFE Ev.KNIFE_ARM_REFUSED else s2)

/-- R305: DISARM clears ARM for every brush of its mask, whatever its key. -/
def execKnifeDisarm (t : Nat) (mask : BitVec 16) (s : State) : Host.Outcome State Fault Refusal :=
  let s1 := s.upTo t
  if ¬ s1.pwr.sysOn then .fault (.domainOff (regAddr Pg.KNIFE 0x044))
  else done s (s1.each (maskBrushes mask) fun s n =>
    let s1 := s.setF Pg.KNIFE Reg.KNIFE_ARM_STATE (putBit (s.f Pg.KNIFE Reg.KNIFE_ARM_STATE) n false)
    ({ s1 with knife := { s1.knife with armAt := s1.knife.armAt.set n none, permitted := s1.knife.permitted.set n false } }).pins n)

/-- The causes of brush `n` that are not present are cleared; the brush's last one asserts CLEARED. What the CLEAR found is kept for R304. -/
def State.clearBrush (s : State) (n : Fin 16) : State :=
  let old := s.latched n
  let new := old &&& s.presentMask n
  let rec_ : ClearRec := ⟨s.now, old, old != 0 && new == 0, match allBrushes.findSome? s.clearOf with | some r => r.event | none => (s.f Pg.KNIFE Reg.EVENT).testBit Ev.KNIFE_CLEARED⟩
  let s1 := { s with knife := { s.knife with clears := s.knife.clears.set n (some rec_) } }.setF Pg.KNIFE (Reg.KNIFE_CAUSE_LATCHED.num n) new
  if old ≠ 0 ∧ new = 0 then
    ((s1.setF Pg.KNIFE Reg.KNIFE_TRIPPED (putBit (s1.f Pg.KNIFE Reg.KNIFE_TRIPPED) n false)).inc Pg.KNIFE Reg.KNIFE_CLEARS).ev! Pg.KNIFE
      Ev.KNIFE_CLEARED
  else s1

/-- R305: CLEAR is written with a key and a brush mask. -/
def execKnifeClear (t : Nat) (key : Nat) (mask : BitVec 16) (s : State) : Host.Outcome State Fault Refusal :=
  let s1 := s.upTo t
  if ¬ s1.pwr.sysOn then .fault (.domainOff (regAddr Pg.KNIFE 0x048))
  else done s (if key ≠ 0x3C then s1.badKey
  else
    let ns := (maskBrushes mask).filter fun n => !s1.causeNow n
    let refused := (maskBrushes mask).any fun n => s1.latched n &&& s1.presentMask n != 0
    let s2 := s1.each ns State.clearBrush
    if refused then (s2.sticky! Pg.KNIFE Sticky.KNIFE_CLEAR_REFUSED).ev! Pg.KNIFE Ev.KNIFE_CLEAR_REFUSED else s2)

/-- R305: TEST trips the brushes of its mask, whatever its key. -/
def execKnifeTest (t : Nat) (mask : BitVec 16) (s : State) : Host.Outcome State Fault Refusal :=
  let s1 := s.upTo t
  if ¬ s1.pwr.sysOn then .fault (.domainOff (regAddr Pg.KNIFE 0x04C))
  else done s (if mask = 0#16 then s1 else s1.latchCause (maskBrushes mask) causeTest s1.now)

/-- R305: at the start of frame `n` the permit of every brush begins that was armed at least 640 tk before. -/
def execPermitStart (n : Nat) (s : State) : Host.Outcome State Fault Refusal :=
  let s1 := s.upTo (t0 n)
  done s (if s1.pwr.sysOn then
    s1.each allBrushes fun s b =>
      match s.knife.armAt[b] with
      | some w =>
        if 640 ≤ sdiff48 (t0 n) w then
          ({ s with knife := { s.knife with armAt := s.knife.armAt.set b none, permitted := s.knife.permitted.set b true } }).pins b
        else s
      | none => s
  else s1)

end Sys2Proof.Machine
end

