-- ==== Sys2Proof/Machine/Profile.lean ====
section
/-! DEFINITION. The profile generator of spec/13_profiles_steppers.md (R247 to R253), over the 64-bit variables of R248. -/

namespace Sys2Proof.Machine

/-- The limits of one coordinate, in 2^-24 u per step, step² and step³ (R247). -/
structure Lim where
  v : Int
  a : Int
  j : Int
  deriving DecidableEq, Repr

/-- Every limit is 1 or more, as the host must keep it (R248). -/
def Lim.ok (m : Lim) : Bool := decide (1 ≤ m.v ∧ 1 ≤ m.a ∧ 1 ≤ m.j)

/-- The velocity the generator wants towards a target at distance `e`. -/
def wantedVel (m : Lim) (e : Int) : Int :=
  let c := wrapS 64 (m.a * m.a / (2 * m.j))
  let w := wrapS 64 ((isqrt (wrapU 128 (c * c + 2 * m.a * e.natAbs)) : Int) - c)
  if e < 0 then wrapS 64 (-(min m.v w)) else min m.v w

/-- R248: one step towards `x`, or to rest when `stop`; the flag is 1 once arrived. -/
def genStep (m : Lim) (x : Int) (stop : Bool) (g : Gen) : Gen × Bool :=
  let e := wrapS 64 (x - g.pos)
  let slow := decide ((g.vel.natAbs : Int) ≤ m.j) && decide ((g.acc.natAbs : Int) ≤ m.j)
  if !stop && decide ((e.natAbs : Int) ≤ m.j) && slow then (⟨x, 0, 0⟩, true)
  else if stop && slow then ({ g with vel := 0, acc := 0 }, true)
  else
    let vd := if stop then 0 else wantedVel m e
    let vp := wrapS 64 (g.vel + tdiv (g.acc * g.acc.natAbs) (2 * m.j))
    let ad := clampI (vd - vp) (-m.a) m.a
    let j := clampI (ad - g.acc) (-m.j) m.j
    let a := g.acc + j
    let vn := wrapS 64 (g.vel + a)
    let vn := if m.v < vn ∧ g.vel < vn then max g.vel m.v else vn
    let vn := if vn < -m.v ∧ vn < g.vel then min g.vel (-m.v) else vn
    (⟨wrapS 64 (g.pos + vn), vn, a⟩, false)

/-- The generator after `n` steps. -/
def genRun (m : Lim) (x : Int) : Nat → Gen → Gen
  | 0, g => g
  | n + 1, g => genRun m x n (genStep m x false g).1

/-- The first step at which the generator returns 1, counted on from `i`; none if that is not within the fuel. -/
def genLen (m : Lim) (x : Int) : Nat → Nat → Gen → Option Nat
  | 0, _, _ => none
  | k + 1, i, g => let r := genStep m x false g; if r.2 then some (i + 1) else genLen m x k (i + 1) r.1

/-- Where limit set `set` of brush `b` stands (R247). -/
def limitSet (b set : Nat) : Nat := brushBank b + 0xFF800 + set * 0x40

/-- R250: limit set `set` of brush `b`, for the coordinates x and y, or for z. -/
def State.limSet (s : State) (b set : Nat) (z : Bool) : Lim :=
  let a := limitSet b set + (if z then 0x18 else 0)
  ⟨s.rd a 6, s.rd (a + 8) 6, s.rd (a + 16) 6⟩

/-- R251: the point of a jump from `q0` to `q1` of duration `d` at elapsed time `k`; none where the jump breaks R248 or R252, whose points the
spec calls unpredictable. -/
def jumpPoint (m : Lim) (q0 q1 : Int) (k d : Nat) : Option Int :=
  let x := q1 * 2 ^ 24
  let g0 : Gen := { pos := q0 * 2 ^ 24 }
  if m.ok then
    match genLen m x 4096 0 g0 with
    | some n =>
      if n * 2000 ≤ d ∧ 0 < d then
        let t := k * n
        let i := t / d
        let f := (t - i * d) * 65536 / d
        let g := genRun m x i g0
        let p (j : Nat) (g : Gen) : Int := if n ≤ j then x else g.pos
        let pi := p i g
        let pj := p (min (i + 1) n) (genStep m x false g).1
        some (wrapS 32 (rnd (wrapS 64 (pi + (pj - pi) * f / 65536)) 24))
      else none
    | none => none
  else none

/-- R253: eight steps of a parking axis, and whether it has arrived. -/
def parkStep (m : Lim) (x : Int) : Nat → Gen × Bool → Gen × Bool
  | 0, g => g
  | n + 1, g => parkStep m x n (let r := genStep m x false g.1; (r.1, g.2 || r.2))

end Sys2Proof.Machine
end

