-- ==== Sys2Proof/Machine/Medium.lean ====
section
/-! DEFINITION. Encoder ports, the medium estimator, the sheet-to-canvas transform and the target table (spec/10_moving_medium.md, R188 to R200). -/

namespace Sys2Proof.Machine

/-! ### Encoder ports -/

/-- The stamp of the CLK_FAST cycle that samples an edge now (R189). -/
def State.fastStamp (s : State) : Nat := s.edgeAcc / 2 ^ 32

/-- An encoder port moves its count by `d` (R188); REVERSE has been applied. -/
def State.encCount (s : State) (n : Fin 4) (d : Int) : State :=
  let p := Pg.ENC n
  ((s.setPair p Reg.ENC_COUNT_LO Reg.ENC_COUNT_HI (wrapU 48 (s.pair p Reg.ENC_COUNT_LO Reg.ENC_COUNT_HI + d))).setEnc n
    fun e => { e with lastEdge := some s.fastStamp }).fmeasEdge n

/-- The sense of every count the port makes. -/
def State.encSign (s : State) (n : Fin 4) : Int := if s.fb (Pg.ENC n) Reg.ENC_ENC_CFG_REVERSE then -1 else 1

/-- The count of a quadrature step from the levels `(a, b)` to `(a', b')`, when A leading B counts up. -/
def quadStep (a b a' b' : Bool) : Int :=
  if a != a' then (if a' != b then 1 else -1) else (if b' == a then 1 else -1)

/-- R188: the filtered levels of an encoder port become `a`, `b` and `z`. The port counts by its mode while it is ON; a change of A and B in one
sample is a quadrature error. -/
def execEncoderEdge (t : Nat) (n : Fin 4) (a b z : Bool) (s : State) : Host.Outcome State Fault Refusal :=
  let s1 := s.upTo t
  let p := Pg.ENC n
  let a0 := s1.encs[n].a
  let b0 := s1.encs[n].b
  let s2 := s1.setEnc n fun e => { e with a := a, b := b, z := z }
  done s (if ¬ s2.isOn p then s2
  else match s2.f p Reg.ENC_ENC_CFG_MODE with
  | 0 =>
    if a != a0 && b != b0 then
      let s3 := ((s2.inc p Reg.ENC_QUAD_ERRORS).ev! p Ev.ENC_QUAD_ERR).sticky! p Sticky.ENC_QUAD_ERR
      if s3.fb p Reg.ENC_ENC_CFG_ERR_FAULT then s3.blockFault p s3.now else s3
    else if a != a0 || b != b0 then
      s2.encCount n (s2.encSign n * (if Config.quadUp then 1 else -1) * quadStep a0 b0 a b)
    else s2
  | 1 => if a && !a0 then s2.encCount n (s2.encSign n * (if b then 1 else -1)) else s2
  | _ => s2)

/-- R190: INDEX_ARM.ARM arms the Z input; INDEX_VALID shows captures since then. -/
def execIndexArm (t : Nat) (n : Fin 4) (s : State) : Host.Outcome State Fault Refusal :=
  let s1 := s.upTo t
  if ¬ s1.pageOn (Pg.ENC n) then .fault (.domainOff (regAddr (Pg.ENC n) Reg.ENC_INDEX_ARM.off))
  else done s ((s1.setB (Pg.ENC n) Reg.ENC_INDEX_VALID false).setEnc n fun e => { e with armed := true })

/-- R190: the first rising edge of Z after arming latches the count and its stamp. -/
def execIndexCapture (t : Nat) (n : Fin 4) (s : State) : Host.Outcome State Fault Refusal :=
  let s1 := s.upTo t
  let p := Pg.ENC n
  done s (if s1.pageOn p then
    let s2 := s1.setEnc n fun e => { e with z := true }
    if s2.encs[n].armed then
      let c := s2.pair p Reg.ENC_COUNT_LO Reg.ENC_COUNT_HI
      let s3 := ((s2.setPair p Reg.ENC_INDEX_COUNT_LO Reg.ENC_INDEX_COUNT_HI c).setPair p Reg.ENC_INDEX_TIME_LO Reg.ENC_INDEX_TIME_HI
        (s2.fastStamp % 2 ^ 48)).setB p Reg.ENC_INDEX_VALID true
      (s3.event p Ev.ENC_INDEX s2.fastStamp).setEnc n fun e => { e with armed := false }
    else s2
  else s1)

/-- R398: port `n` follows a stepper whose bursts a reset ended, so its samples are missing until the stepper is started again. -/
def State.encStepOff (s : State) (n : Fin 4) : Bool :=
  let p := Pg.ENC n
  decide (s.f p Reg.ENC_ENC_CFG_MODE = 2) && s.steppers[stepOf (Pg.STEP (s.f p Reg.ENC_ENC_CFG_STEP_SRC))].cut

/-- AGE of R189 at `d` tk after the edge or plan tick it counts from. -/
def State.sampleAge (s : State) (d : Int) : Nat := min (d.toNat * 2 ^ 32 / s.fastInc) 0xFFFE

/-- R189: port `n` latches its sample word at the start of frame `k`; in mode 2 its age counts from the latest plan tick (R254). Before its first
counted edge the age is a free value other than 0xFFFF. -/
def State.encSample (s : State) (n : Fin 4) (k : Nat) : State :=
  let p := Pg.ENC n
  let put (s : State) (m : Option MSample) : State := { s with medium := { s.medium with samples := s.medium.samples.set n m } }
  if s.isOn p ∧ ¬ s.encStepOff n then
    let c := s.pair p Reg.ENC_COUNT_LO Reg.ENC_COUNT_HI
    if s.f p Reg.ENC_ENC_CFG_MODE = 2 then put s (some ⟨c, s.sampleAge (t0 k % 64000 : Nat)⟩)
    else match s.encs[n].lastEdge with
    | some e => put s (some ⟨c, s.sampleAge (sdiff48 (t0 k) e)⟩)
    | none => put s.takeFree (some ⟨c, (Config.freeValue s.freeCtr).toNat % 0xFFFF⟩)
  else put s none

/-- Every port latches its sample word of frame `k`; those of frame `k - 1` are kept beside them. -/
def State.encSamples (s0 : State) (k : Nat) : State :=
  let m := s0.medium
  let s := { s0 with medium := { m with samplesPrev := if m.samplesOf + 1 = k then m.samples else Vector.replicate 4 none } }
  let s1 := ((s.encSample 0 k).encSample 1 k).encSample 2 k |>.encSample 3 k
  { s1 with medium := { s1.medium with samplesOf := k } }

/-! ### The estimator -/

/-- ENC_n's SCALE in force, Q32.32 (R40). -/
def State.encScale (s : State) (n : Nat) : Int := signed 64 (s.actPair (Pg.ENC n) Reg.ENC_SCALE_LO Reg.ENC_SCALE_HI)

def State.mediumSrc (s : State) : Nat := s.f Pg.MEDIUM Reg.MEDIUM_MODE_CTRL_SRC

def State.moving (s : State) : Bool := s.fb Pg.MEDIUM Reg.MEDIUM_MODE_CTRL_MOVING

/-- The mahlstick is in force (R194). -/
def State.inForce (s : State) : Bool := s.moving && s.isOn Pg.MEDIUM

/-- z of R191, from an extended count and an age. -/
def State.mediumZ (s : State) (c64 : Int) (v : Int) (age : Nat) : Int :=
  let scale := s.encScale s.mediumSrc
  let q : Int := (rnd scale 16).natAbs
  let ext := wrapS 64 (rnd (v * age * 8) 16)
  let ext := if s.f (Pg.ENC s.mediumSrc) Reg.ENC_ENC_CFG_MODE ≠ 2 then min (max ext (1 - q)) (q - 1) else ext
  wrapS 64 (rnd (c64 * scale) 16 + signed 48 (s.actPair Pg.MEDIUM Reg.MEDIUM_ORIGIN_LO Reg.MEDIUM_ORIGIN_HI) * 2 ^ 16 + ext)

/-- One step of R191 for a sample, or a coast for a missing one. -/
def State.estimate (s : State) (m : Option MSample) : State :=
  let x := s.medium
  let pp := wrapS 64 (x.p + rnd (x.v * 16000) 16)
  match m with
  | none => { s with medium := { x with p := pp } }
  | some w =>
    let c64 := wrapS 64 (x.c64 + sdiff48 w.count x.c48)
    let r := wrapS 64 (s.mediumZ c64 x.v w.age - pp)
    let v1 := x.v + rnd (r * s.a Pg.MEDIUM Reg.MEDIUM_GAINS_KB) 16
    let s1 := { s with medium := { x with c64 := c64, c48 := w.count, p := wrapS 64 (pp + rnd (r * s.a Pg.MEDIUM Reg.MEDIUM_GAINS_KA) 16),
                                          v := sat v1 40 } }
    if satHit v1 40 then s1.sticky! Pg.MEDIUM Sticky.MEDIUM_VEL_SAT else s1

/-- The registers of the estimator group follow its state. -/
def State.showMedium (s : State) (n : Nat) : State :=
  let p := Pg.MEDIUM
  let s1 := ((s.setPair p Reg.MEDIUM_POS_LO Reg.MEDIUM_POS_HI (wrapU 64 s.medium.p)).setPair p Reg.MEDIUM_VEL_LO Reg.MEDIUM_VEL_HI
    (wrapU 64 s.medium.v)).setF p Reg.MEDIUM_FRAME (n % 2 ^ 32)
  { s1 with medium := { s1.medium with frame := n } }

/-- Device B takes the medium from device A's MIRROR frames while it is the shadow of a pair (R195). -/
def State.peerSamples (s : State) : Bool := s.roleB && s.isOn Pg.DIPTYCH && !s.isActive

/-- The sample of frame `n` that the estimator uses: the own port's, A's word on a shadow B, or the own count plus D after a takeover (R195). -/
def State.mediumSample (s : State) (n : Nat) : Option MSample :=
  let src := s.mediumSrc
  let own := if s.medium.samplesOf = n then s.medium.samples.toList.getD src none else none
  if s.peerSamples then
    match s.medium.mirror with
    | some m => if m.1 = n then m.2.getD src none else none
    | none => none
  else if s.fb Pg.MEDIUM Reg.MEDIUM_STATUS_LOCAL then
    own.map fun w => { w with count := wrapU 48 (s.medium.own64 + s.medium.offsetD.getD 0) }
  else own

/-- B extends the count of its own port, and records D while both samples are present (R195). -/
def State.ownStream (s : State) (n : Nat) : State :=
  match (if s.medium.samplesOf = n then s.medium.samples.toList.getD s.mediumSrc none else none) with
  | none => s
  | some w =>
    let own := if s.medium.ownInit then wrapS 64 (s.medium.own64 + sdiff48 w.count s.medium.own48) else signed 48 w.count
    { s with medium := { s.medium with own64 := own, ownInit := true, own48 := w.count } }

/-- D of R195, once the estimator has taken A's word. -/
def State.recordD (s : State) (n : Nat) (m : Option MSample) : State :=
  if s.peerSamples ∧ m.isSome ∧ s.medium.samplesOf = n ∧ (s.medium.samples.toList.getD s.mediumSrc none).isSome then
    { s with medium := { s.medium with offsetD := some (s.medium.c64 - s.medium.own64) } }
  else s

/-- A sample of the source is missing, or present (R193). -/
def State.sampleSeen (s : State) (present : Bool) : State :=
  let p := Pg.MEDIUM
  let s1 := s.setB p Reg.MEDIUM_STATUS_COAST (!present)
  if present then s1.setF p Reg.MEDIUM_STATUS_MISS_RUN 0
  else
    let s2 := (((s1.sticky! p Sticky.MEDIUM_SAMPLE_MISSING).ev! p Ev.MEDIUM_SAMPLE_MISSING).inc p Reg.MEDIUM_MISSED_SAMPLES).inc p
      Reg.MEDIUM_STATUS_MISS_RUN
    if s2.f p Reg.MEDIUM_MODE_CTRL_MISS_LIMIT ≤ s2.f p Reg.MEDIUM_STATUS_MISS_RUN then s2.blockFault p s2.now else s2

/-- The estimator at the use instant of frame `n`, by the state of MEDIUM; a missing sample is seen in every state but OFF (R36, R191, R193). -/
def State.estimator (s : State) (n : Nat) : State :=
  let p := Pg.MEDIUM
  let s0 := s.ownStream n
  let m := s0.mediumSample n
  let run (s : State) : State := ((s.estimate m).recordD n m).showMedium n
  let s1 := if s0.st p = stOff then s0 else s0.sampleSeen m.isSome
  match s0.st p with
  | 1 =>
    if s1.medium.init then
      let s2 := run s1
      let s3 := { s2 with medium := { s2.medium with left := s2.medium.left - 1 } }
      if s3.medium.left = 0 ∧ s3.st p = stStarting then s3.toOn p else s3
    else
      match m with
      | none => s1
      | some w =>
        let c := signed 48 w.count
        let s2 := { s1 with medium := { s1.medium with init := true, left := 64, c64 := c, c48 := w.count, v := 0, p := s1.mediumZ c 0 w.age } }
        (s2.recordD n m).showMedium n
  | 2 => run s1
  | 3 => run s1
  | 4 => (s1.estimate none).showMedium n
  | _ => s1

/-- The medium for set-points, `k` tk after the start of the estimator's frame, in 2^-16 cu (R192). -/
def State.mediumAt (s : State) (k : Int) : Int := wrapS 64 (s.medium.p + rnd (s.medium.v * k) 16)

/-- The seam position of the power-word latch at `tL`, for the frame of the estimator (R192). -/
def State.seamPos (s : State) (tL : Nat) : Int :=
  signed 48 (wrapU 48 (rnd (s.medium.p + rnd (s.medium.v * ((tL : Int) - t0 s.medium.frame + s.ai Pg.MEDIUM Reg.MEDIUM_SEAM_LEAD)) 16) 16))

/-! ### Geometry (R196) -/

/-- The CORDIC angles: the integer nearest to 2^32 × arctan(2^-i) / 2π for i = 0 to 31 (R196). -/
def atanTab : List Int :=
  [536870912, 316933406, 167458907, 85004756, 42667331, 21354465, 10679838, 5340245, 2670163, 1335087, 667544, 333772, 166886, 83443, 41722,
   20861, 10430, 5215, 2608, 1304, 652, 326, 163, 81, 41, 20, 10, 5, 3, 1, 1, 0]

/-- One CORDIC rotation step after another over the table, from index `i`. -/
def cordic : List Int → Nat → Int × Int × Int → Int × Int × Int
  | [], _, q => q
  | a :: r, i, (x, y, z) =>
    let dx := y / 2 ^ i
    let dy := x / 2 ^ i
    if 0 ≤ z then cordic r (i + 1) (x - dx, y + dy, z - a) else cordic r (i + 1) (x + dx, y - dy, z + a)

/-- Exact quarter turns. -/
def quarterTurns : Nat → Int × Int → Int × Int
  | 0, q => q
  | k + 1, (x, y) => quarterTurns k (-y, x)

/-- `rotate` of R196: counter-clockwise by `a` / 2^32 turns, in 2^-30 cu. -/
def rotate (sx sy : Int) (a : Nat) : Int × Int :=
  let (x, y) := quarterTurns (a / 2 ^ 30) (sx * 2 ^ 30, sy * 2 ^ 30)
  let (x, y, _) := cordic atanTab 0 (x, y, ((a % 2 ^ 30 : Nat) : Int))
  (rnd (x * 1304065748) 31, rnd (y * 1304065748) 31)

/-- The canvas point of a sheet point (R196), and whether a clamp acted; none for a rotary geometry whose TURN is reserved, whose points are
unpredictable. In standing mode the transform is the identity. -/
def State.canvas (s : State) (m16 aM : Int) (q : P3) : Option (P3 × Bool) :=
  if ¬ s.moving then some (q, false)
  else
    let p := Pg.MEDIUM
    let d16 := wrapS 64 (sdiff48 (m16 / 2 ^ 16) aM * 2 ^ 16 + m16 % 2 ^ 16)
    let turn := s.actPair p Reg.MEDIUM_TURN_LO Reg.MEDIUM_TURN_HI
    let fin (cx cy : Int) : P3 × Bool :=
      let x := rnd cx 30
      let y := rnd cy 30
      let z := rnd (q.z * 2 ^ 30 + rnd (d16 * s.ai p Reg.MEDIUM_KZ) 26) 30
      (⟨sat x 32, sat y 32, sat z 32⟩, satHit x 32 || satHit y 32 || satHit z 32)
    if ¬ s.fb p Reg.MEDIUM_MODE_CTRL_GEOM then
      some (fin (q.x * 2 ^ 30 + rnd (d16 * s.ai p Reg.MEDIUM_DIR_X) 16) (q.y * 2 ^ 30 + rnd (d16 * s.ai p Reg.MEDIUM_DIR_Y) 16))
    else if turn < 2 ^ 16 then none
    else
      let t16 := wrapS 64 (turn * 2 ^ 16)
      let a := wrapU 32 ((d16 % t16) * 2 ^ 32 / t16)
      let a := if s.fb p Reg.MEDIUM_MODE_CTRL_ROT_CW then (2 ^ 32 - a) % 2 ^ 32 else a
      let (rx, ry) := rotate q.x q.y a
      some (fin (s.ai p Reg.MEDIUM_CENTRE_X * 2 ^ 30 + rx) (s.ai p Reg.MEDIUM_CENTRE_Y * 2 ^ 30 + ry))

/-! ### Targets (R197, R198) -/

/-- The tick of a position, once frozen. -/
def State.reachTick (s : State) (pos : Int) : Option Nat :=
  match s.medium.targets.find? fun t => t.pos == pos with
  | some t => t.tick
  | none => none

/-- Enter a position; none when the table is full. -/
def State.addTarget (s : State) (pos : Int) : Option State :=
  if s.medium.targets.any fun t => t.pos == pos then some s
  else if s.medium.targets.length < 256 then some { s with medium := { s.medium with targets := s.medium.targets ++ [{ pos := pos }] } }
  else none

/-- R197 for one target at the use instant of frame `n`. -/
def freezeOne (p v : Int) (f n : Nat) (t : Target) : Target × Bool :=
  if t.tick.isSome then (t, false)
  else
    let num := wrapS 64 (wrapS 64 (sdiff48 t.pos (p / 2 ^ 16) * 2 ^ 16 - p % 2 ^ 16) * 2 ^ 16)
    let k := if num ≤ 0 then tdiv num v else tdiv (num + v - 1) v
    if k < f * 16000 then
      let late := t.evalFrame == some (n - 1) && decide (0 < n) && decide (k < ((f : Int) - 8) * 16000)
      ({ t with tick := some (wrapU 64 ((t0 n : Int) + (if late then ((f : Int) - 8) * 16000 else k))) }, late)
    else ({ t with evalFrame := some n }, false)

/-- R197: the targets not yet frozen, at the use instant of frame `n`. -/
def State.freezeTargets (s : State) (n : Nat) : State :=
  let v := s.medium.v
  if s.inForce ∧ (s.a Pg.MEDIUM Reg.MEDIUM_VMIN : Int) ≤ v ∧ 0 < v then
    let r := s.medium.targets.map (freezeOne s.medium.p v (s.a Pg.MEDIUM Reg.MEDIUM_FREEZE) n)
    let late := (r.filter (·.2)).length
    let s1 := { s with medium := { s.medium with targets := r.map (·.1) } }
    if late = 0 then s1
    else ((s1.inc Pg.MEDIUM Reg.MEDIUM_FREEZE_LATE late).sticky! Pg.MEDIUM Sticky.MEDIUM_FREEZE_LATE).each (List.range late) fun s _ =>
      s.ev! Pg.MEDIUM Ev.MEDIUM_FREEZE_LATE
  else s

/-- R198: entries leave the table 16 frames after their ticks have been reached. -/
def execTargetRemove (t : Nat) (s : State) : Host.Outcome State Fault Refusal :=
  let s1 := s.upTo t
  done s { s1 with medium := { s1.medium with targets := s1.medium.targets.filter fun x =>
    match x.tick with
    | some k => !s1.past (k + 256000)
    | none => true } }

end Sys2Proof.Machine
end

