-- ==== Sys2Proof/Machine/Sheets.lean ====
section
/-! DEFINITION. Sheets and stroke records as they stand in DRAM, and the timeline of a brush: the records execution will come to, with their
start ticks, anchors and pens, as far as they are known (spec/08_canvas_sheets.md, R144 to R159). -/

namespace Sys2Proof.Machine

/-! ### Records (R144 to R147) -/

/-- A record from its 32 bytes. -/
def decodeRec (l : List Byte) : Rec :=
  let w0 := fieldAt l 0 4
  let med := bit w0 8
  { op := bits w0 0 8, oparg := bits w0 16 16, cls := bits w0 12 4, gate := bit w0 10, reanchor := bit w0 9, medium := med,
    start := if med || bits w0 0 8 == opWaitMedium then fieldAtS l 4 6 else (fieldAt l 4 6 : Int),
    power := fieldAt l 10 2, w1 := fieldAt l 4 4, w2 := fieldAt l 8 4, w3 := fieldAt l 12 4, w4 := fieldAt l 16 4, w5 := fieldAt l 20 4,
    w6 := fieldAt l 24 4, w7 := fieldAt l 28 4 }

/-- The end of a list (R154). -/
def endRec : Rec := { op := opEnd, oparg := 0, cls := 0, gate := false, reanchor := false, medium := false, start := 0, power := 0, w1 := 0, w2 := 0,
                      w3 := 0, w4 := 0, w5 := 0, w6 := 0, w7 := 0 }

/-- Record `i` of a sheet's list; a list ends at its first SHEET_END or at RECORDS, and a brush outside BRUSH_MASK has no list (R154, R156). -/
def State.record (s : State) (sh : Sheet) (i : Nat) : Rec :=
  if sh.takesPart ∧ i < sh.records then decodeRec (s.bytes (sh.list + 32 * i) 32) else endRec

def Rec.timed (r : Rec) : Bool := decide (1 ≤ r.op ∧ r.op ≤ 4)

/-- MARK_LINE, DWELL with GATE = 1, and RASTER_LINE (R166). -/
def Rec.emits (r : Rec) : Bool := r.op == opMark || r.op == opRaster || (r.op == opDwell && r.gate)

/-- The types a seam counts (R153). -/
def Rec.counted (r : Rec) : Bool := r.op == opMark || r.op == opRaster || r.op == opDwell

/-- Pixels of a RASTER_LINE, and the first of them (R146). -/
def Rec.count (r : Rec) : Nat := bits r.w5 16 16
def Rec.first (r : Rec) : Nat := bits r.w5 0 16
def Rec.line (r : Rec) : Nat := bits r.w4 16 16
def Rec.tile (r : Rec) : Nat := bits r.w4 0 16
/-- PX_PERIOD in units of 8 tk. -/
def Rec.pxPeriod (r : Rec) : Nat := bits r.w6 0 16

/-- The duration D (R145). -/
def Rec.dur (r : Rec) : Nat := if r.op = opRaster then r.count * r.pxPeriod * 8 else if r.timed then r.w6 else 0

/-- The start is a medium position. -/
def Rec.byMedium (r : Rec) : Bool := r.op == opWaitMedium || (r.timed && r.medium)

/-- The pen at the end of a timed record: an int32 point (R9, R150). -/
def Rec.endPt (r : Rec) (pen : P3) : P3 :=
  if r.op = opMark ∨ r.op = opJump then ⟨signed 32 r.w3, signed 32 r.w4, signed 32 r.w5⟩
  else if r.op = opRaster then
    ⟨wrapS 32 (pen.x + r.count * signed 16 r.w3), wrapS 32 (pen.y + r.count * signed 16 (r.w3 / 2 ^ 16)), pen.z⟩
  else pen

/-- The body of the LOOP at record `i` is too long to stay resident, so that it is fetched again at every pass (R162). -/
def Rec.refetches (r : Rec) (i : Nat) : Bool := decide (2048 < i + 1 - r.w1)

/-- A LOOP whose pass counter is `pass` branches (R152). -/
def Rec.branches (r : Rec) (pass : Nat) : Bool := decide (pass < r.w2 ∨ r.w2 = 0xFFFFFFFF)

/-- The seam a HANDOVER record opens at anchor `am` (R153, R200). -/
def Rec.seam (r : Rec) (am : Int) : Seam :=
  { out := r.op == opOut, o := signed 48 (wrapU 48 (am + signed 48 (r.w2 + r.w3 % 2 ^ 16 * 2 ^ 32))),
    c := signed 48 (wrapU 48 (am + signed 48 (r.w4 + r.w5 % 2 ^ 16 * 2 ^ 32))), left := bits r.w1 16 16 }

/-- A seam with one counted record taken off. -/
def takeSeam (q : Option Seam) (r : Rec) : Option Seam :=
  match q with
  | some k => if r.counted then (if k.left ≤ 1 then none else some { k with left := k.left - 1 }) else some k
  | none => none

/-- The absolute medium position of a medium start (R149). -/
def absPos (am start : Int) : Int := signed 48 (wrapU 48 (am + start))

/-- The end tick, as it stands in time: D after the start, or at once for a record whose whole time has passed before execution came to it. -/
def Up.stop (u : Up) : Nat := later u.beg (u.ts + u.dur)

/-- e_r: the end, or the boundary that truncates the record (R167). -/
def Up.er (u : Up) : Nat :=
  match u.cutoff with
  | some c => sooner (u.ts + u.dur) c
  | none => u.ts + u.dur

/-- The record has ended, or the boundary of its sheet has cut it short. -/
def State.over (s : State) (u : Up) : Bool := s.past u.stop || u.cutoff.any fun c => s.past c

/-- The time of a record that has passed by instant `t`, from 0 to D (R150). -/
def Up.elapsed (u : Up) (t : Nat) : Nat := min (sdiff48 t u.ts).toNat u.dur

/-! ### Headers (R155) -/

/-- The boundary that comes first among sheets that wait; none while one of them is held (R157, R367). -/
def firstCut (l : List Sheet) : Option Nat :=
  if l.any fun h => h.held.isSome then none
  else l.foldl (fun m h => match m, h.boundary with
    | some a, some c => some (sooner a c)
    | none, c => c
    | m, none => m) none

/-- The waiting sheets from the latest one whose boundary is `c` on. -/
def fromCut (c : Nat) : List Sheet → List Sheet
  | [] => []
  | h :: r => match fromCut c r with
    | [] => if h.boundary = some c then h :: r else []
    | l => l

/-- The waiting sheets that are left once the first boundary has been reached: those before the sheet that then comes into force, the latest of the
chain whose boundary has been reached, never do (R157). -/
def dueSheets (l : List Sheet) : List Sheet := match firstCut l with | some c => fromCut c l | none => []

/-- The boundary that ends the sheet in force of a brush, once known. -/
def Brush.cut (x : Brush) : Option Nat := firstCut x.queue

/-- The header check of R156: MAGIC, HEADER_BYTES, VERSION and HCRC. -/
def headerOk (h : List Byte) : Bool :=
  decide (fieldAt h 0 4 = 0x71605348 ∧ fieldAt h 6 2 = 0x0340 ∧ fieldAt h 4 1 = 1) &&
  decide (fieldAt h 0x3C 4 = crc32 (h.take 0x18 ++ List.replicate 8 0#8 ++ (h.drop 0x20).take 0x1C ++ (h.drop 0x40).take 0x300))

/-- NEXT of a header. -/
def State.readNext (s : State) (addr : Nat) : Nat := s.rd (addr + 0x18) 4 / 64 * 64 + s.rd (addr + 0x1C) 1 * 2 ^ 32

/-- The sheet that brush `b` reads from a header. -/
def State.readSheet (s : State) (b : Fin 16) (addr seq : Nat) : Sheet :=
  let h := s.bytes addr 832
  let e := 0x40 + 48 * b
  { seq := seq, addr := addr, id := fieldAt h 8 4, takesPart := bit (fieldAt h 0x0E 2) b, medium := bit (fieldAt h 0x0C 1) 0,
    anchor := fieldAt h 0x10 6, next := s.readNext addr, list := fieldAt h e 5 / 32 * 32, records := fieldAt h (e + 8) 4,
    gridSet := fieldAt h (e + 0x0C) 1 % 2, gridId := fieldAt h (e + 0x0E) 2, palSet := fieldAt h (e + 0x10) 1 % 2, palId := fieldAt h (e + 0x12) 2,
    glzSet := fieldAt h (e + 0x14) 1 % 2, glzId := fieldAt h (e + 0x16) 2,
    pen := ⟨fieldAtS h (e + 0x18) 4, fieldAtS h (e + 0x1C) 4, fieldAtS h (e + 0x20) 4⟩, penSet := bit (fieldAt h (e + 0x24) 1) 0,
    tiles := fieldAt h (e + 0x28) 5 }

/-- A brush outside BRUSH_MASK keeps its sets (R156): sheet `h` with the sets of the sheet before it, or the ones BRUSH.STATUS shows. -/
def State.keepSets (s : State) (b : Fin 16) (old : Option Sheet) (h : Sheet) : Sheet :=
  if h.takesPart then h
  else match old with
    | some k => { h with gridSet := k.gridSet, palSet := k.palSet, glzSet := k.glzSet }
    | none =>
      let p := Pg.BRUSH b
      { h with gridSet := s.f p Reg.BRUSH_STATUS_GRID_SET, palSet := s.f p Reg.BRUSH_STATUS_PALETTE_SET, glzSet := s.f p Reg.BRUSH_STATUS_GLAZE_SET }

/-- The medium anchor a sheet sets (R149). -/
def Sheet.aM (sh : Sheet) : Int := if sh.medium then signed 48 sh.anchor else 0

/-- The slot of a set in a brush bank and the identifier it holds (R141, R206, R289). -/
def gridSlot (b g : Nat) : Nat := brushBank b + g * 0x61800
def palSlot (b g : Nat) : Nat := brushBank b + 0xE3000 + g * 0x1000
def glzSlot (b g : Nat) : Nat := brushBank b + 0xED000 + g * 0x1000
def State.setId (s : State) (a : Nat) : Nat := s.rd a 2

/-- The identifier check of R156. -/
def State.idsOk (s : State) (b : Fin 16) (sh : Sheet) : Bool :=
  !sh.takesPart ||
  ((sh.gridId == 0 || s.setId (gridSlot b sh.gridSet) == sh.gridId) && (sh.palId == 0 || s.setId (palSlot b sh.palSet) == sh.palId) &&
   (sh.glzId == 0 || s.setId (glzSlot b sh.glzSet) == sh.glzId))

/-! ### Points of a record (R150, R164) -/

/-- One coordinate of R150 for a linear record, an int32 (R9). -/
def linPoint (q0 q1 : Int) (k d : Nat) : Int := if d = 0 then q1 else wrapS 32 (q0 + tdiv ((q1 - q0) * k) d)

/-- A point the spec calls unpredictable: three free coordinates, from free value `c` on. -/
def freePoint (c : Nat) : P3 :=
  let q (k : Nat) : Int := ((Config.freeValue (c + k)).setWidth 32).toInt
  ⟨q 0, q 1, q 2⟩

/-- The sheet point of a record at tick `t`; none where the spec calls it unpredictable (R252). -/
def State.pointOf (s : State) (b : Fin 16) (u : Up) (t : Nat) : Option P3 :=
  let k := u.elapsed t
  let q := u.r.endPt u.pen
  if u.r.op = opJump then
    let xy := s.limSet b (u.r.oparg % 4) false
    match jumpPoint xy u.pen.x q.x k u.dur, jumpPoint xy u.pen.y q.y k u.dur, jumpPoint (s.limSet b (u.r.oparg % 4) true) u.pen.z q.z k u.dur with
    | some x, some y, some z => some ⟨x, y, z⟩
    | _, _, _ => none
  else if u.r.op = opMark ∨ u.r.op = opRaster then
    some ⟨linPoint u.pen.x q.x k u.dur, linPoint u.pen.y q.y k u.dur, linPoint u.pen.z q.z k u.dur⟩
  else some u.pen

/-! ### The timeline -/

/-- From `tick` on (none: from before every tick asked for): the sheet in force, its medium anchor, the pen, and the timed record in progress. -/
structure Leg where
  tick : Option Nat
  sheet : Sheet
  am : Int
  pen : P3
  up : Option Up
  deriving DecidableEq, Repr

/-- A walk along a brush's lists in the order of execution; the legs it has passed, newest first. -/
structure Walk where
  sheet : Sheet
  later : List Sheet
  ended : Bool
  idx : Nat
  pass : Nat
  lap : Nat
  ord : Nat
  aT : Nat
  aM : Int
  pen : P3
  prevEnd : Nat
  lastStop : Option Nat
  seam : Option Seam
  reach : List Reach
  last : Option Up
  legs : List Leg
  deriving DecidableEq, Repr

/-- The boundary that ends the walk's sheet, once known. -/
def Walk.cut (w : Walk) : Option Nat := firstCut w.later

/-- The pen a sheet begins with: PEN, or the old sheet's point at b (R157). -/
def State.penAt (s : State) (b : Fin 16) (nx : Sheet) (last : Option Up) (pen : P3) (t : Nat) : Option P3 :=
  if nx.penSet ∧ nx.takesPart then some nx.pen
  else match last with
    | some u => if before t u.stop then s.pointOf b u t else some pen
    | none => some pen

/-- The walk passes into the next sheet at its boundary (R157, R159); it ends where the next sheet is not known or fails its identifier check. -/
def State.walkNext (s : State) (b : Fin 16) (w : Walk) : Option Walk :=
  match dueSheets w.later with
  | [] => none
  | nx :: rest =>
    let nx := s.keepSets b (some w.sheet) nx
    match nx.boundary with
    | none => none
    | some c =>
      if s.idsOk b nx then
        match s.penAt b nx w.last w.pen c with
        | none => none
        | some pen =>
          some { w with sheet := nx, later := rest, ended := false, idx := 0, pass := 0, lap := 0, ord := 0, aT := c, aM := nx.aM, pen := pen,
                        prevEnd := nx.eff, lastStop := none, seam := none, reach := w.reach.filter (fun r => decide (nx.seq ≤ r.sheet)), last := none,
                        legs := ⟨some nx.eff, nx, nx.aM, pen, none⟩ :: w.legs }
      else none

/-- The start tick of the walk's record, and the targets left after it; none while it is not known (R149, R197). -/
def Walk.startOf (w : Walk) (r : Rec) : Option (Nat × List Reach) :=
  if r.byMedium then
    match w.reach with
    | q :: rest => if q.sheet = w.sheet.seq then q.tick.map fun t => (t, rest) else none
    | [] => none
  else some (wrapU 64 ((w.aT : Int) + r.start), w.reach)

/-- A timed record that starts at `ts` meets the one in front of it, which ends at `stop`: its start is reached first (R177). -/
def conflicts (ts : Nat) : Option Nat → Bool
  | some k => before ts k
  | none => false

/-- One record further along the walk; none where it ends or passes the horizon. -/
def State.walkStep (s : State) (b : Fin 16) (horizon : Nat) (w : Walk) : Option Walk :=
  let r := s.record w.sheet w.idx
  let past (t : Nat) : Bool := match w.cut with | some c => reached t c | none => false
  if past w.prevEnd || w.ended then s.walkNext b w
  else if r.op = opNop then some { w with idx := w.idx + 1 }
  else if r.op = opOut ∨ r.op = opIn then some { w with idx := w.idx + 1, seam := some (r.seam w.aM) }
  else if r.op = opLoop then
    if r.branches w.pass then some { w with idx := r.w1, pass := w.pass + 1, lap := w.lap + b2n (r.refetches w.idx) }
    else some { w with idx := w.idx + 1, pass := 0 }
  else if r.op = opWaitTime ∨ r.op = opWaitMedium then
    match w.startOf r with
    | none => s.walkNext b w
    | some (t, rest) =>
      let c := later t w.prevEnd
      if past c then s.walkNext b w
      else
        let aM := if r.reanchor ∧ r.op = opWaitMedium then absPos w.aM r.start else w.aM
        some { w with idx := w.idx + 1, reach := rest, prevEnd := c, aT := if r.reanchor then t else w.aT, aM := aM,
                      legs := ⟨some c, w.sheet, aM, w.pen, none⟩ :: w.legs }
  else if r.timed then
    match w.startOf r with
    | none => s.walkNext b w
    | some (t, rest) =>
      if past t then s.walkNext b w
      else if before horizon t then none
      else
        let u : Up := { sheet := w.sheet.seq, ord := w.ord, idx := w.idx, ts := t, beg := later t w.prevEnd, dur := r.dur, eff := w.sheet.eff,
                        cutoff := w.cut, pen := w.pen, lap := w.lap, seam := if r.counted then w.seam else none, conf := conflicts t w.lastStop, r := r }
        let pen := r.endPt w.pen
        some { w with idx := w.idx + 1, ord := w.ord + 1, reach := rest, prevEnd := u.stop, lastStop := some u.stop, pen := pen, seam := takeSeam w.seam r, last := some u,
                      legs := ⟨some u.stop, w.sheet, w.aM, pen, none⟩ :: ⟨some u.beg, w.sheet, w.aM, w.pen, some u⟩ :: w.legs }
  else if r.op = opEnd then s.walkNext b w
  else none

/-- The walk, as far as the fuel, the horizon and the known ticks allow. -/
def State.walk (s : State) (b : Fin 16) (horizon : Nat) : Nat → Walk → Walk
  | 0, w => w
  | n + 1, w =>
    match s.walkStep b horizon w with
    | some w' => s.walk b horizon n w'
    | none => w

/-- Where a walk of brush `b` begins: with its sheet in force, or with the first sheet of a chain once its boundary is known. -/
def State.walkStart (s : State) (b : Fin 16) : Option Walk :=
  let x := s.brushes[b]
  match x.force with
  | some sh =>
    let base : Walk := { sheet := sh, later := x.queue, ended := x.ended, idx := x.idx, pass := s.f (Pg.BRUSH b) Reg.BRUSH_PASS_COUNT, lap := x.lap,
                         ord := x.ord, aT := x.anchorT, aM := x.anchorM, pen := x.pen, prevEnd := x.prevEnd, lastStop := x.lastStop, seam := x.seam,
                         reach := x.reach, last := none, legs := [⟨none, sh, x.anchorM, x.pen, none⟩] }
    match x.cur with
    | some u =>
      let u := { u with cutoff := u.cutoff.orElse fun _ => x.cut }
      let pen := u.r.endPt u.pen
      some { base with pen := pen, prevEnd := u.stop, lastStop := some u.stop, last := some u,
                       legs := [⟨some u.stop, sh, x.anchorM, pen, none⟩, ⟨none, sh, x.anchorM, u.pen, some u⟩] }
    | none => some base
  | none =>
    match dueSheets x.queue with
    | nx :: rest =>
      let nx := s.keepSets b none nx
      match nx.boundary, s.penAt b nx none x.pen 0 with
      | some c, some pen =>
        if s.idsOk b nx then
          some { sheet := nx, later := rest, ended := false, idx := 0, pass := 0, lap := 0, ord := 0, aT := c, aM := nx.aM, pen := pen, prevEnd := nx.eff,
                 lastStop := none, seam := none, reach := x.reach.filter (fun r => decide (nx.seq ≤ r.sheet)), last := none,
                 legs := [⟨some nx.eff, nx, nx.aM, pen, none⟩] }
        else none
      | _, _ => none
    | [] => none

/-- The timeline of brush `b`, oldest leg first, up to 800,000 tk ahead: beyond every deadline, latency and look-ahead of R163 to R168. -/
def State.timeline (s : State) (b : Fin 16) : List Leg :=
  match s.walkStart b with
  | some w => (s.walk b (s.now + 800000) 65536 w).legs.reverse
  | none => []

/-- What is in force at tick `t`. -/
def legAt (l : List Leg) (t : Nat) : Option Leg :=
  (l.filter fun g => match g.tick with | some k => reached t k | none => true).getLast?

/-- The timed records whose edges or powers can still matter: those ended, the one in progress and those ahead, in order. -/
def State.upsOf (s : State) (b : Fin 16) (l : List Leg) : List Up :=
  let x := s.brushes[b]
  let now := match x.force with | some sh => sh.seq | none => 0
  (x.past.reverse.map fun u => if u.sheet = now ∧ u.cutoff.isNone then { u with cutoff := x.cut } else u) ++ l.filterMap fun g => g.up

/-- The decision taken of a record. -/
def State.decOf (s : State) (b : Fin 16) (u : Up) : Option Dec := s.brushes[b].decs.find? fun d => d.sheet == u.sheet && d.ord == u.ord

/-- The record has been skipped as a miss. -/
def State.skipped (s : State) (b : Fin 16) (u : Up) : Bool := match s.decOf b u with | some d => d.skip | none => false

/-! ### Windows (R161) -/

/-- The tick at which a record's block arrived in a path's window: the block asked for in the lap in which execution comes to the record. -/
def Path.arrival (q : Path) (sheet idx lap : Nat) : Option Nat :=
  match q.blocks.find? fun k => k.sheet == sheet && k.blk == idx / 64 && k.lap == lap && k.arrived.isSome with
  | some k => k.arrived
  | none => none

/-- The record is resident in the window. -/
def Path.holds (q : Path) (sheet idx lap : Nat) : Bool := (q.arrival sheet idx lap).isSome

def Path.holdsUp (q : Path) (u : Up) : Bool := q.holds u.sheet u.idx u.lap

end Sys2Proof.Machine
end

