-- ==== Sys2Proof/Machine/Raster.lean ====
section
/-! DEFINITION. Tiles, palettes, pixels and the swatch check of a raster engine (spec/11_raster.md, R204 to R220). -/

namespace Sys2Proof.Machine

/-! ### Tiles and pixels (R204 to R208) -/

/-- The descriptor address of tile `k` of a directory. -/
def State.tileAddr (s : State) (dir k : Nat) : Nat := s.rd (dir + 8 * k) 8

/-- Bits per pixel of the descriptor at `a`. -/
def State.tileBpp (s : State) (a : Nat) : Nat := 2 ^ bits (s.rd (a + 4) 4) 16 2

def State.tileData (s : State) (a : Nat) : Nat := s.rd a 4 / 64 * 64 + s.rd (a + 4) 1 * 2 ^ 32
def State.tileLines (s : State) (a : Nat) : Nat := s.rd (a + 10) 2
def State.tileWidth (s : State) (a : Nat) : Nat := s.rd (a + 8) 2
def State.tileStride (s : State) (a : Nat) : Nat := s.rd (a + 12) 4

/-- The line ring of a brush (R211). -/
def lineRing (b : Nat) : Nat := brushBank b + 0xE5000

/-- Line `l` of a ring was fetched for record `idx` of sheet `seq`, in the pass that begins after `lap` branches of refetched loops. -/
def RLine.isFor (l : RLine) (seq idx lap : Nat) : Bool := l.sheet == seq && l.idx == idx && l.lap == lap

/-- The line of record `u`, where the ring of brush `b` holds it. -/
def State.ringLine (s : State) (b : Fin 16) (u : Up) : Option RLine := s.rasters[b].lines.find? fun l => l.isFor u.sheet u.idx u.lap

/-- Where the byte `i` of line `l` of a tile is read: in the ring, which both expansion paths read (R212), or in DRAM while it is not there. -/
def State.lineByte (s : State) (b : Fin 16) (a l i : Nat) (ln : Option RLine) : Nat :=
  match ln with
  | some k => if k.off ≤ i then lineRing b + (k.pos * 64 + (i - k.off)) % 0x8000 else s.tileData a + l * s.tileStride a + i
  | none => s.tileData a + l * s.tileStride a + i

/-- The palette index of pixel `i` of line `l` (R205). -/
def State.palIndex (s : State) (b : Fin 16) (a l i : Nat) (ln : Option RLine) : Nat :=
  let bpp := s.tileBpp a
  let v := s.rd (s.lineByte b a l (i * bpp / 8) ln) 1
  (s.rd (a + 7) 1 + bits v (i * bpp % 8) bpp) % 256

/-- A palette entry (R207). -/
structure Pixel where
  index : Nat
  onTime : Nat
  onOff : Nat
  pulses : Nat
  cls : Nat
  trimSkip : Bool
  powerZero : Bool
  deriving DecidableEq, Repr

/-- Entry `k` of palette set `g` of brush `b`. -/
def State.palette (s : State) (b g k : Nat) : Pixel :=
  let a := palSlot b g + 0x100 + 8 * k
  let w1 := s.rd (a + 4) 4
  { index := k, onTime := s.rd (a + 2) 2, onOff := s.rd a 2, pulses := bits w1 16 8, cls := bits w1 12 4, trimSkip := bit w1 1, powerZero := bit w1 0 }

/-- Pixel `j` of a RASTER_LINE of a sheet. -/
def State.pixel (s : State) (b : Fin 16) (tiles palSet : Nat) (u : Up) (j : Nat) : Pixel :=
  s.palette b palSet (s.palIndex b (s.tileAddr tiles u.r.tile) u.r.line (u.r.first + j) (s.ringLine b u))

/-- f of R208, in units of 8 tk. -/
def Pixel.fall (x : Pixel) (period : Nat) : Nat := min (x.onOff + x.onTime) period

/-- The pixel has a gate. -/
def Pixel.gated (x : Pixel) (period : Nat) : Bool := decide (0 < x.onTime ∧ x.onOff < x.fall period)

/-- The pixel's f is cut by PX_PERIOD. -/
def Pixel.clipped (x : Pixel) (period : Nat) : Bool := decide (period < x.onOff + x.onTime)

/-- PSYNC pulses of the pixel (R209). -/
def Pixel.placed (x : Pixel) : Nat := if 0 < x.onTime then x.pulses else 0

/-- The PSYNC pulses of the pixel keep the limits of R209 under pulse width `w`. -/
def Pixel.pulsesOk (x : Pixel) (w : Nat) : Bool :=
  x.placed == 0 || (let q := x.onTime / x.placed; decide (16 ≤ q ∧ 4 ≤ w ∧ w < q))

/-- The pixel record of R216. -/
def Pixel.record (x : Pixel) (period : Nat) : List Byte :=
  let w0 := if x.gated period then x.fall period * 2 ^ 16 + x.onOff else 0
  let w1 := x.index * 2 ^ 16 + x.cls * 2 ^ 12 + b2n x.trimSkip * 2 ^ 9 + b2n x.powerZero * 2 ^ 8 + x.placed
  leBytes 4 w0 ++ leBytes 4 w1

/-! ### The swatch check (R215 to R218) -/

/-- A rectangle's columns and lines: X0, X1, Y0, Y1 (R204). -/
def State.rectOf (s : State) (a k : Nat) : Nat × Nat × Nat × Nat :=
  (s.rd (a + 0x20 + 12 * k) 2, s.rd (a + 0x22 + 12 * k) 2, s.rd (a + 0x24 + 12 * k) 2, s.rd (a + 0x26 + 12 * k) 2)

/-- Rectangle `k` of the tile at descriptor `a` is active (R215). -/
def State.rectActive (s : State) (b : Fin 16) (a k : Nat) : Bool :=
  let p := Pg.RASTER b
  let (x0, x1, y0, y1) := s.rectOf a k
  bit (s.rd (a + 0x10) 1) k && bit (s.a p Reg.RASTER_SWATCH_CFG_RECT_EN) k && s.ab p Reg.RASTER_SWATCH_CFG_EN &&
  decide (x0 < x1 ∧ x1 ≤ s.tileWidth a ∧ y0 < y1 ∧ y1 ≤ s.tileLines a)

/-- One exposed pixel feeds rectangle `k`; a complete rectangle waits for its comparison, stamped with the pixel's end (R217). -/
def State.feedRect (s : State) (b : Fin 16) (a tile line col stamp : Nat) (rec : List Byte) (k : Fin 8) : State :=
  let (x0, x1, y0, y1) := s.rectOf a k
  if s.rectActive b a k ∧ x0 ≤ col ∧ col < x1 ∧ y0 ≤ line ∧ line < y1 then
    let q := s.rasters[b].rects[k]
    let c := rec.foldl crcByte q.crc
    if q.count + 1 = (x1 - x0) * (y1 - y0) then
      s.setRaster b fun x => { x with
        rects := x.rects.set k {}, due := x.due ++ [⟨k, tile, c ^^^ 0xFFFFFFFF, s.rd (a + 0x28 + 12 * k) 4, stamp⟩] }
    else s.setRaster b fun x => { x with rects := x.rects.set k ⟨c, q.count + 1⟩ }
  else s

/-- Pixel `j` of the line in progress has been exposed. -/
def State.exposePixel (s : State) (b : Fin 16) (c : RCur) (j : Nat) : State :=
  let p := Pg.RASTER b
  let u := c.u
  let x := s.pixel b c.tiles c.palSet u j
  let per := u.r.pxPeriod
  let s1 := s.incPair p Reg.RASTER_PIXELS_LO Reg.RASTER_PIXELS_HI 1
  let ends := u.ts + (j + 1) * per * 8
  let s2 := if x.clipped per then (s1.inc p Reg.RASTER_PIXEL_CLIPS).sticky p Sticky.RASTER_PIXEL_CLIP (wrapU 64 ends) else s1
  s2.each (List.finRange 8) fun s k =>
    s.feedRect b (s.tileAddr c.tiles u.r.tile) u.r.tile u.r.line (u.r.first + j) ends (x.record per) k

/-- The sheet a record of brush `b` belongs to. -/
def State.sheetOf (s : State) (b : Fin 16) (seq : Nat) : Option Sheet :=
  (s.brushes[b].force.toList ++ s.brushes[b].queue ++ s.brushes[b].gone).find? fun h => h.seq == seq

/-- A pixel that starts at tick `t` is exposed: BRUSH_n and RASTER_n are both ON then. -/
def Raster.exposes (x : Raster) (t : Nat) : Bool :=
  (match x.since with | some k => reached t k | none => false) || x.spans.any fun q => reached t q.1 && before t q.2

/-- Pixels of line `u` that have ended by tick `t`. Where the line is cut there, or no pixels are exposed any more, the one then in progress is
among them. -/
def Raster.ended (x : Raster) (u : Up) (t : Nat) : Nat :=
  let per := u.r.pxPeriod * 8
  let e := (sdiff48 (sooner t u.er) u.ts).toNat
  let cut := x.since.isNone || (reached t u.er && u.er != u.ts + u.dur)
  if per = 0 then 0 else min u.r.count (e / per + b2n (cut && decide (e % per ≠ 0)))

/-- The pixels of the line in progress that have ended by tick `t` are taken, in order of exposure; a skipped line exposes none, and each other
pixel is judged at its own start (R213, R218, R220). -/
def State.takePixels (s : State) (b : Fin 16) (t : Nat) : State :=
  let x := s.rasters[b]
  match x.cur with
  | some c =>
    let n := x.ended c.u t
    (s.setRaster b fun x => { x with px := max x.px n }).each ((List.range (n - x.px)).map fun k => x.px + k) fun s j =>
      if c.skip then s
      else if x.exposes (c.u.ts + j * c.u.r.pxPeriod * 8) then s.exposePixel b c j
      else s.setRaster b fun x => { x with bad := true }
  | none => s

/-- The pixels exposed up to the present tick, before a command reads or changes what they count (R208, R217, R220). -/
def State.rasterDue (s : State) (b : Fin 16) : State := s.takePixels b s.now

/-- R339: the owner reads that a line makes: its bytes in the ring and the palette entries its pixels name. -/
def State.lineReads (s : State) (b : Fin 16) (tiles palSet : Nat) (u : Up) : State :=
  if s.memErr.isEmpty then s
  else match s.ringLine b u with
    | none => s
    | some l =>
      let a := s.tileAddr tiles u.r.tile
      let entries := ((List.range u.r.count).map fun j => s.palIndex b a u.r.line (u.r.first + j) (some l)).eraseDups
      s.ownerReads (((List.range l.granules).map fun i => (lineRing b + (l.pos + i) % 512 * 64, 64)) ++
        entries.map fun k => (palSlot b palSet + 0x100 + 8 * k, 8))

/-! ### Open tiles (R213) -/

/-- Close the open tile, stamped `stamp`: incomplete rectangles are reported and never compared. -/
def State.closeTile (s : State) (b : Fin 16) (stamp : Nat) : State :=
  let p := Pg.RASTER b
  match s.rasters[b].tile with
  | none => s.setRaster b fun x => { x with closeAt := none }
  | some (dir, k) =>
    let a := s.tileAddr dir k
    let s1 := s.each (List.finRange 8) fun s (i : Fin 8) =>
      if s.rectActive b a i ∧ s.rasters[b].rects[i].count ≠ 0 then
        ((s.inc p Reg.RASTER_SWATCH_INCOMPLETE).sticky p Sticky.RASTER_SWATCH_INCOMPLETE stamp).event p Ev.RASTER_SWATCH_INCOMPLETE stamp
      else s
    ((s1.setRaster b fun x => { x with tile := none, lastTile := some (dir, k), rects := Vector.replicate 8 {}, closeAt := none }).setB p
      Reg.RASTER_TILE_STATUS_OPEN false).event p Ev.RASTER_TILE_CLOSE stamp

/-- A RASTER_LINE begins: it opens its tile, closing another one first. -/
def State.beginLine (s : State) (b : Fin 16) (tiles palSet : Nat) (u : Up) : State :=
  let p := Pg.RASTER b
  let s0 := (match s.rasters[b].closeAt with
    | some k => s.closeTile b k
    | none => s).lineReads b tiles palSet u
  let s1 := match s0.rasters[b].tile with
    | some q => if q = (tiles, u.r.tile) then s0 else s0.closeTile b u.ts
    | none => s0
  let s2 := match s1.rasters[b].tile with
    | some _ => s1
    | none => s1.setRaster b fun x => { x with tile := some (tiles, u.r.tile), rects := Vector.replicate 8 {} }
  ((((s2.setRaster b fun x => { x with cur := some ⟨u, tiles, palSet, s.skipped b u⟩, px := 0, spans := [], bad := false }).setB p Reg.RASTER_TILE_STATUS_OPEN true).setF p Reg.RASTER_TILE_STATUS_TILE u.r.tile).setF p
    Reg.RASTER_LINE_STATUS_LINE u.r.line)

/-- A RASTER_LINE ends: its remaining pixels are taken, it counts if all of them were exposed by the engine that began it, and the last line of a
tile lets it close. -/
def State.endLine (s : State) (b : Fin 16) (tiles : Nat) (u : Up) : State :=
  let p := Pg.RASTER b
  let s1 := s.takePixels b u.er
  let s2 := (if s.skipped b u ∨ s1.rasters[b].bad ∨ s1.rasters[b].cur.isNone then s1 else s1.inc p Reg.RASTER_LINES_DONE).setRaster b fun x => { x with cur := none }
  let a := s2.tileAddr tiles u.r.tile
  if u.r.line + 1 = s2.tileLines a ∧ u.r.first + u.r.count = s2.tileWidth a then s2.setRaster b fun x => { x with closeAt := some u.er } else s2

/-- R213: the open tile closes at the end of its last line, at a sheet boundary, or when the brush has left ON. -/
def execTileClose (t : Nat) (b : Fin 16) (s : State) : Host.Outcome State Fault Refusal :=
  let s1 := s.upTo t
  done s (match s1.rasters[b].closeAt with
  | some k => if s1.past k then s1.closeTile b k else s1
  | none =>
    if s1.isOn (Pg.BRUSH b) ∨ s1.rasters[b].tile.isNone then s1
    else ((s1.takePixels b s1.now).setRaster b fun x => { x with cur := none }).closeTile b s1.now)

/-! ### Fetches (R211) -/

/-- The first byte within a line, and the granules, of the pixels a record exposes. -/
def State.lineSpan (s : State) (a : Nat) (r : Rec) : Nat × Nat :=
  let bpp := s.tileBpp a
  let lo := r.first * bpp / 8 / 64
  (lo * 64, ((r.first + r.count) * bpp + 511) / 512 - lo)

/-- A descriptor is used: it stands first, and at most 4 are held. -/
def useDesc (q : Nat × Nat) (l : List (Nat × Nat)) : List (Nat × Nat) := (q :: l.filter (· != q)).take 4

/-- The place in the ring for `g` granules: the first one, from where the latest line ended, at which no held line is overwritten (DESIGN CHOICE,
log 94). -/
def Raster.room (x : Raster) (g : Nat) : Option Nat :=
  let free (q : Nat) : Bool := x.lines.all fun l => decide (l.granules ≤ (q + 512 - l.pos % 512) % 512 ∧ (q + 512 - l.pos % 512) % 512 + g ≤ 512)
  ((List.range 512).map fun i => (x.ringPos + i) % 512).find? free

/-- The passes for which record `idx` of sheet `seq` stands in window A, oldest first. -/
def Brush.lapsOf (x : Brush) (seq idx : Nat) : List Nat :=
  (x.pathA.blocks.filter fun q => q.sheet == seq && q.blk == idx / 64 && q.arrived.isSome).map fun q => q.lap

/-- R211: a fetch of the raster engine returns for record `idx` of the brush's sheet number `k` (the one in force or the first one waiting is
number 0): the directory entry and descriptor of its tile, or its line bytes, which go to the ring while it has room, once for each pass for which
the record has entered window A (R162). Data with an uncorrectable word counts as not fetched (R356). -/
def execRasterFetchDone (t : Nat) (b : Fin 16) (k idx : Nat) (line : Bool) (s : State) : Host.Outcome State Fault Refusal :=
  let s1 := s.upTo t
  let x := s1.brushes[b]
  doneDma s (match (x.force.toList ++ x.queue)[k]? with
  | some sh =>
    let r := s1.record sh idx
    if r.op = opRaster ∧ x.lapsOf sh.seq idx ≠ [] ∧ s1.pageOn (Pg.RASTER b) ∧ s1.dramOn then
      if line then
        let a := s1.tileAddr sh.tiles r.tile
        let (o, g) := s1.lineSpan a r
        let ra := s1.rasters[b]
        let src := s1.tileData a + r.line * s1.tileStride a + o
        if s1.dramBad src (64 * g) then s1.dramRead 0 (Pg.RASTER b) src (64 * g)
        else match (x.lapsOf sh.seq idx).find? (fun k => !ra.lines.any fun l => l.isFor sh.seq idx k), ra.room g with
          | some k, some pos =>
            if ra.descs.contains (sh.tiles, r.tile) then
              let s2 := (s1.dramRead 0 (Pg.RASTER b) src (64 * g)).each (List.range g) fun s i =>
                s.setBytes (lineRing b + (pos + i) % 512 * 64) (s1.bytes (src + 64 * i) 64)
              (s2.setRaster b fun x => { x with
                lines := x.lines ++ [⟨sh.seq, idx, g, pos, o, k⟩], ringPos := (pos + g) % 512, descs := useDesc (sh.tiles, r.tile) x.descs }).showRing b
            else s1
          | _, _ => s1
      else
        let dir := sh.tiles + 8 * r.tile
        let a := s1.tileAddr sh.tiles r.tile
        let s2 := (s1.dramRead 0 (Pg.RASTER b) dir 8).dramRead 0 (Pg.RASTER b) a 128
        if s1.dramBad dir 8 ∨ s1.dramBad a 128 then s2 else s2.setRaster b fun x => { x with descs := useDesc (sh.tiles, r.tile) x.descs }
    else s1
  | none => s1)

/-- The descriptor and the line bytes of a RASTER_LINE are resident. -/
def State.lineReady (s : State) (b : Fin 16) (tiles : Nat) (u : Up) : Bool :=
  s.rasters[b].descs.contains (tiles, u.r.tile) && (s.ringLine b u).isSome

/-- R217: a rectangle whose pixel count is complete is compared with EXPECTED; a mismatch with TRIP trips the brush and faults RASTER_n (R218). What
it asserts and trips is stamped with the present tick, the end of the comparison (R302, R399); the comparison's own stamp stands in the result group. -/
def execSwatchCompare (t : Nat) (b : Fin 16) (s : State) : Host.Outcome State Fault Refusal :=
  let s1 := (s.upTo t).takePixels b (s.upTo t).now
  let p := Pg.RASTER b
  done s (match s1.rasters[b].due with
  | d :: rest =>
    if s1.past d.stamp then
      let at_ := s1.now
      let ok := decide (d.got = d.expected)
      let s2 := s1.setRaster b fun x => { x with due := rest }
      let s3 := ((((((s2.setF p Reg.RASTER_SWATCH_TILE d.tile).setB p Reg.RASTER_SWATCH_VALID true).setB p Reg.RASTER_SWATCH_MATCH ok).setF p
        Reg.RASTER_SWATCH_RECT d.rect).setF p Reg.RASTER_SWATCH_GOT d.got).setF p Reg.RASTER_SWATCH_EXPECTED d.expected).setPair p
        Reg.RASTER_SWATCH_TIME_LO Reg.RASTER_SWATCH_TIME_HI (d.stamp % 2 ^ 48)
      if ok then s3.inc p Reg.RASTER_SWATCH_PASSES
      else
        let s4 := (((s3.sticky p Sticky.RASTER_SWATCH_FAIL at_).event p Ev.RASTER_SWATCH_FAIL at_).inc p Reg.RASTER_SWATCH_FAILS).accAdd
          (0x52 + 160 * b) 2 1
        if s4.ab p Reg.RASTER_SWATCH_CFG_TRIP then
          (s4.blockFault p at_).latchCause [b] causeSwatch at_
        else s4
    else s1
  | [] => s1)

end Sys2Proof.Machine
end

