-- ==== Sys2Proof/Machine/Gate.lean ====
section
/-! DEFINITION. The gate and PSYNC levels of a brush, the edges its timers load at an exchange cut, and the scheduled power of a latch
(spec/09_stroke_sequencer.md, R163, R166 to R171, R178; spec/11_raster.md, R208 to R210). -/

namespace Sys2Proof.Machine

/-! ### The LASER page's values in force -/

/-- A shadowed value of LASER_n for a sheet: the active copy, or for a sheet that is not yet in force the shadow its boundary will take (R38,
R187). -/
def State.laserVal (s : State) (b : Fin 16) (sheet : Nat) (f : Fld) : Nat :=
  let p := Pg.LASER b
  let ahead : Bool := match s.brushes[b].force with | some h => decide (h.seq < sheet) | none => false
  let due : Bool := match s.brushes[b].queue.find? fun h => h.seq == sheet with
    | some h => (match h.boundary with | some c => before (s.commitTick p) c | none => false)
    | none => false
  if ahead && due && s.fb p Reg.COMMIT_PENDING then s.f p f else s.a p f

/-- A latency value of LASER_n for a sheet, in tk. -/
def State.lat (s : State) (b : Fin 16) (sheet : Nat) (f : Fld) : Int := signed 32 (s.laserVal b sheet f)

/-- H of R163. -/
def State.fetchLead (s : State) (b : Fin 16) : Nat :=
  (49920 + max 0 (max (s.ai (Pg.LASER b) Reg.LASER_LAT_ON) (s.ai (Pg.LASER b) Reg.LASER_LAT_PSYNC))).toNat

/-! ### Intervals -/

/-- A half-open interval of ticks. -/
structure Ival where
  lo : Int
  hi : Int
  deriving DecidableEq, Repr

/-- The earlier of two instants that may lie before tick 0. -/
def sooner' (a b : Int) : Int := if reached a b then b else a

/-- Clip an interval to the time its record's sheet is in force, and for a withdrawn record to before F (R167, R178). -/
def clipIval (u : Up) (wF : Option Nat) (i : Ival) : Ival :=
  let hi := match u.cutoff with | some c => sooner' i.hi c | none => i.hi
  let hi := match wF with | some f => sooner' hi f | none => hi
  ⟨if reached i.lo u.eff then i.lo else u.eff, hi⟩

/-- Whether a decided record places edges: it is not skipped, or it was withdrawn after a rising edge of its own had been placed. -/
def placed (d : Option Dec) (rise : Int) : Bool :=
  match d with
  | some d => !d.skip || (match d.wF with | some f => before rise f | none => false)
  | none => false

def wFOf (d : Option Dec) : Option Nat := match d with | some d => (if d.skip then d.wF else none) | none => none

/-- A record is known to the timers: it has been decided, or both of its copies are in their windows. -/
def State.known (s : State) (b : Fin 16) (u : Up) : Bool :=
  (s.decOf b u).isSome || (s.brushes[b].pathA.holdsUp u && s.brushes[b].pathB.holdsUp u)

/-- Two records join: a MARK_LINE starts exactly where the MARK_LINE before it ends, and neither is skipped (R148, R167). -/
def State.joins (s : State) (b : Fin 16) (u v : Up) : Bool :=
  u.r.op == opMark && v.r.op == opMark && sdiff48 u.er v.ts == 0 && !s.skipped b u && !s.skipped b v && s.known b v && (s.decOf b u).isSome

/-- The pixels of a raster line whose intervals can touch the frame that starts at `f`. -/
def pixelSpan (u : Up) (f : Nat) (early late : Int) : List Nat :=
  let per : Int := u.r.pxPeriod * 8
  if per = 0 then []
  else
    let lo := max 0 ((sdiff48 f u.ts + early) / per - 1)
    let hi := min ((u.r.count : Int) - 1) ((sdiff48 f u.ts + 16000 + late) / per)
    (List.range (hi + 1 - lo).toNat).map fun k => lo.toNat + k

/-- The gate intervals of a record that can touch the frame that starts at `f` (R167, R208). `lo` and `hi` are the compensated ends of its run of
joined records, which for a record that joins no other are its own. -/
def State.gateIvals (s : State) (b : Fin 16) (u : Up) (lo hi : Int) (f : Nat) : List Ival :=
  let on := s.lat b u.sheet Reg.LASER_LAT_ON
  let off := s.lat b u.sheet Reg.LASER_LAT_OFF
  let d := s.decOf b u
  if ¬ u.r.emits then []
  else if u.r.op = opRaster then
    match s.sheetOf b u.sheet with
    | some sh =>
      if s.isOn (Pg.RASTER b) then
        (pixelSpan u f (min on off) (max on off)).filterMap fun (j : Nat) =>
          let x := s.pixel b sh.tiles sh.palSet u j
          let st : Int := u.ts + j * (u.r.pxPeriod * 8)
          let lo := st + 8 * x.onOff - on
          if x.gated u.r.pxPeriod ∧ before st u.er ∧ placed d lo then
            some (clipIval u (wFOf d) ⟨lo, sooner' (st + 8 * x.fall u.r.pxPeriod) u.er - off⟩)
          else none
      else []
    | none => []
  else if placed d lo then [clipIval u (wFOf d) ⟨lo, hi⟩]
  else []

/-- Some exchange cut before tick `t`, of the next `k` from frame `n` on, is a commit boundary of RASTER_n, going by the timeline's lines `ls` and the
sheet boundaries `bs`, past and still to come, which close a tile too (R213, R214). -/
def rasterCutBefore (ls : List (Nat × Nat × Bool)) (bs : List Nat) (isOpen : Bool) (t n : Nat) : Nat → Bool
  | 0 => false
  | k + 1 =>
    let c := cutOf n
    let shut := match (ls.filter fun q => reached c q.1).getLast? with
      | some q => q.2.2 || bs.any fun d => before q.1 d && reached c d
      | none => !isOpen || bs.any fun d => reached c d
    (before c t && shut && ls.all fun q => reached q.1 ((c + 16960 : Nat) : Int) || reached c q.2.1) || rasterCutBefore ls bs isOpen t (n + 1) k

/-- The PSYNC width for the pixels of line `u`: the active value, or, for a line that starts after a commit boundary still to come, the shadow
that a commit already made will take there (R214). `f` is the frame start whose edges are loaded. -/
def State.rasterWidth (s : State) (b : Fin 16) (u : Up) (f : Nat) : Nat :=
  let p := Pg.RASTER b
  if s.fb p Reg.COMMIT_PENDING then
    let ls := (s.upsOf b (s.timeline b)).filterMap fun v =>
      if v.r.op = opRaster then
        let a := match s.sheetOf b v.sheet with | some sh => s.tileAddr sh.tiles v.r.tile | none => 0
        some (v.ts, v.ts + v.dur, decide (v.r.line + 1 = s.tileLines a ∧ v.r.first + v.r.count = s.tileWidth a))
      else none
    let x := s.brushes[b]
    if rasterCutBefore ls ((x.gone ++ x.force.toList ++ x.queue).filterMap fun h => h.boundary) (s.rasters[b].tile.isSome && s.rasters[b].closeAt.isNone) u.ts (frameOf f) 48 then s.f p Reg.RASTER_PIXEL_CFG
    else s.a p Reg.RASTER_PIXEL_CFG
  else s.a p Reg.RASTER_PIXEL_CFG

/-- The limits on PSYNC and pixels that a timed record breaks, if any, by their rules (R168, R205, R209). -/
def State.recBreach (s : State) (b : Fin 16) (u : Up) : Option Nat :=
  if u.r.op = opRaster then
    match s.sheetOf b u.sheet with
    | some sh =>
      let a := s.tileAddr sh.tiles u.r.tile
      let w := s.rasterWidth b u (t0 (frameOf (s.now + 960)))
      if s.tileLines a ≤ u.r.line ∨ s.tileWidth a < u.r.first + u.r.count then some 205
      else if (List.range u.r.count).all fun j => (s.pixel b sh.tiles sh.palSet u j).pulsesOk w then none
      else some 209
    | none => none
  else
    let per := u.r.w7 % 2 ^ 16
    let w := u.r.w7 / 2 ^ 16
    if (u.r.op = opMark ∨ u.r.op = opDwell) ∧ per ≠ 0 ∧ ¬ (16 ≤ per ∧ 4 ≤ w ∧ w < per) then some 168 else none

/-- The PSYNC pulses of a record that can touch the frame that starts at `f` (R168, R209). -/
def State.psyncIvals (s : State) (b : Fin 16) (u : Up) (f : Nat) : List Ival :=
  let lp := s.lat b u.sheet Reg.LASER_LAT_PSYNC
  let d := s.decOf b u
  if u.r.op = opRaster then
    match s.sheetOf b u.sheet with
    | some sh =>
      if s.isOn (Pg.RASTER b) then
        let w := 8 * s.rasterWidth b u f
        (pixelSpan u f (lp - 1048560 - w) lp).flatMap fun (j : Nat) =>
          let x := s.pixel b sh.tiles sh.palSet u j
          let st : Int := u.ts + j * (u.r.pxPeriod * 8)
          if before st u.er ∧ 0 < x.placed then
            (List.range x.placed).filterMap fun (k : Nat) =>
              let lo := st + 8 * (x.onOff + k * (x.onTime / x.placed)) - lp
              if placed d lo then some (clipIval u (wFOf d) ⟨lo, lo + w⟩) else none
          else []
      else []
    | none => []
  else if u.r.op = opMark ∨ u.r.op = opDwell then
    let per : Int := 8 * (u.r.w7 % 2 ^ 16 : Nat)
    let w : Int := 8 * (u.r.w7 / 2 ^ 16 : Nat)
    if per = 0 then []
    else
      let lo := max 0 ((sdiff48 f u.ts - w + lp) / per)
      let hi := min ((sdiff48 u.er u.ts - 1) / per) ((sdiff48 f u.ts + 16000 + lp) / per)
      (List.range (hi + 1 - lo).toNat).filterMap fun (k : Nat) =>
        let r := u.ts - lp + per * (lo + k)
        if placed d r then some (clipIval u (wFOf d) ⟨r, r + w⟩) else none
  else []

/-! ### Edges -/

/-- Put a tick in its place in a rising list, once. -/
def tickIns (t : Int) : List Int → List Int
  | [] => [t]
  | e :: r => if before t e then t :: e :: r else if t = e then e :: r else e :: tickIns t r

/-- The level at tick `t`: the union of the intervals. -/
def levelAt (l : List Ival) (t : Int) : Bool := l.any fun i => reached t i.lo && before t i.hi

/-- One candidate tick: an edge where the level differs from the one before. A rising edge is placed only at its own tick; a level still high
falls (R178). -/
def edgeStep (l : List Ival) (k : Nat) (acc : Bool × List Edge) (t : Int) : Bool × List Edge :=
  let v := levelAt l t
  if v = acc.1 then acc
  else if v then
    (if l.any fun i => i.lo == t && before i.lo i.hi then (true, acc.2 ++ [⟨wrapU 64 t, k⟩]) else acc)
  else (false, acc.2 ++ [⟨wrapU 64 t, k + 1⟩])

/-- Tick `t` lies in the frame that starts at `f`. -/
def inFrame (f : Nat) (t : Int) : Bool := reached t f && before t ((f + 16000 : Nat) : Int)

/-- The edges of a level over the frame that starts at `f`; `prior` is the level before it, `k` the kind of a rising edge. -/
def edgesOf (l : List Ival) (f : Nat) (prior : Bool) (k : Nat) : List Edge :=
  let inF (t : Int) : Bool := inFrame f t
  let ticks := l.foldl (fun m i => (fun m' => if inF i.hi then tickIns i.hi m' else m') (if inF i.lo then tickIns i.lo m else m)) [(f : Int)]
  (ticks.foldl (edgeStep l k) (prior, [])).2

/-- The compensated ends of a record's own gate interval (R167). -/
def State.ownGate (s : State) (b : Fin 16) (u : Up) : Int × Int :=
  (u.ts - s.lat b u.sheet Reg.LASER_LAT_ON, u.er - s.lat b u.sheet Reg.LASER_LAT_OFF)

/-- The records of a timeline, each with the compensated rise and fall of its run of joined records: at a join both edges are omitted (R167). `run`
is the rise of the run the first record joins. A run reaches no further than the records that have been decided. -/
def State.gateRuns (s : State) (b : Fin 16) : Option Int → List Up → List (Up × Int × Int)
  | _, [] => []
  | run, u :: r =>
    let lo := run.getD (s.ownGate b u).1
    let own := (s.ownGate b u).2
    match r with
    | [] => [(u, lo, own)]
    | v :: _ =>
      let j := s.joins b u v
      let rest := s.gateRuns b (if j then some lo else none) r
      let hi : Int := if j then (if (s.decOf b v).isSome then (match rest with | q :: _ => q.2.2 | [] => own) else u.er) else own
      (u, lo, hi) :: rest

/-- The gate intervals of a brush around the frame that starts at `f`. -/
def State.gateAll (s : State) (b : Fin 16) (ups : List Up) (f : Nat) : List Ival :=
  (s.gateRuns b none ups).flatMap fun q => s.gateIvals b q.1 q.2.1 q.2.2 f

/-- The PSYNC pulses of a brush around the frame that starts at `f`. -/
def State.psyncAll (s : State) (b : Fin 16) (ups : List Up) (f : Nat) : List Ival := ups.flatMap fun u => s.psyncIvals b u f

/-- The level a timer will show once the edges it holds have been issued. -/
def afterEdges (v : Bool) (l : List Edge) (k : Nat) : Bool :=
  match (l.filter fun e => e.kind / 2 == k / 2).getLast? with
  | some e => e.kind == k
  | none => v

/-- The edges of the frame that starts at `f`, in order of time (R167, R168). -/
def State.frameEdges (s : State) (b : Fin 16) (f : Nat) (gate psync : Bool) : List Edge :=
  let ups := s.upsOf b (s.timeline b)
  edgesOf (s.gateAll b ups f) f gate 0 ++ edgesOf (s.psyncAll b ups f) f psync 2

/-- The vector records ask more of a timer in the frame that starts at `f` than the 8 gate edges and 2 PSYNC pulse trains it takes (R171); a train
counts in the frame in which its first pulse rises. -/
def State.overCapacity (s : State) (b : Fin 16) (f : Nat) : Bool :=
  let ups := (s.upsOf b (s.timeline b)).filter fun u => u.r.op != opRaster
  let gate := edgesOf (s.gateAll b ups f) f (levelAt (s.gateAll b ups f) ((f : Int) - 1)) 0
  let trains := ups.filter fun u =>
    let r : Int := u.ts - s.lat b u.sheet Reg.LASER_LAT_PSYNC
    inFrame f r && (s.psyncIvals b u f).any fun i => i.lo == r
  decide (8 < gate.length ∨ 2 < trains.length)

/-- Both timers load the edges of the frame that starts at `f` (R160, R170); an interval that is empty sets EMPTY_GATE (R167). -/
def State.loadEdges (s : State) (b : Fin 16) (f : Nat) : State :=
  let l := s.lasers[b]
  if s.isOn (Pg.BRUSH b) then
    let e := s.frameEdges b f (afterEdges l.gA l.edgesA 0) (afterEdges l.pA l.edgesA 2)
    let s1 := s.setLaser b fun l => { l with edgesA := l.edgesA ++ e, edgesB := l.edgesB ++ e }
    let empty := (s.gateAll b (s.upsOf b (s.timeline b)) f).any fun i =>
      reached i.lo i.hi && inFrame f i.lo
    if empty then s1.sticky! (Pg.LASER b) Sticky.LASER_EMPTY_GATE else s1
  else s

/-! ### Scheduled power (R166, R210) -/

/-- Thermal enforcement holds the boundaries of a standing medium (R366). -/
def State.holdsSheets (s : State) : Bool := s.fb Pg.THERM Reg.THERM_STATUS_ENFORCED && !s.moving

/-- The boundary at or before tick `t` that enforcement, as it stands, will hold: from there on the pen is held and the gate is off (R367). -/
def State.holdTick (s : State) (b : Fin 16) (t : Nat) : Option Nat :=
  if s.holdsSheets then
    match dueSheets s.brushes[b].queue with
    | h :: _ => h.boundary.filter fun c => !h.medium && reached t c
    | [] => none
  else none

/-- What is in force at tick `t`, and the instant whose point of it the pen takes: where a boundary is held, the old sheet at the boundary. -/
def State.legFor (s : State) (b : Fin 16) (l : List Leg) (t : Nat) : Option (Leg × Nat) :=
  match s.holdTick b t with
  | some c => (legAt (l.filter fun g => s.brushes[b].force.any fun h => h.seq == g.sheet.seq) c).map fun g => (g, c)
  | none => (legAt l t).map fun g => (g, t)

/-- What the sequencer hands to glaze for a latch: the rule, the scheduled power before seam and window, the class, TRIM_SKIP, and the record. -/
structure Sched where
  rule : Nat
  power : Nat
  cls : Nat
  trimSkip : Bool
  up : Option Up
  leg : Option Leg
  deriving DecidableEq, Repr

/-- The power and class of a record at `u` tk after its start, under rule 1 (or 0 under rule 2): the pixel's, for a RASTER_LINE (R210, R218). -/
def State.powerOf (s : State) (b : Fin 16) (q : Up) (k : Nat) : Nat × Nat × Bool :=
  if q.r.op = opRaster then
    match s.sheetOf b q.sheet with
    | some sh =>
      let x := s.pixel b sh.tiles sh.palSet q (if q.r.pxPeriod = 0 then 0 else k / (q.r.pxPeriod * 8))
      (if x.powerZero ∨ ¬ s.isOn (Pg.RASTER b) then 0 else q.r.power, x.cls, x.trimSkip)
    | none => (0, 0, false)
  else (q.r.power, q.r.cls, false)

/-- u of R166 and R292 for the latch at `tL`, with the LAT_POWER of the sheet in force then. -/
def State.latchU (s : State) (b : Fin 16) (tL : Nat) (g : Option Leg) : Int :=
  tL + (match g with | some g => s.lat b g.sheet.seq Reg.LASER_LAT_POWER | none => s.ai (Pg.LASER b) Reg.LASER_LAT_POWER)

/-- R166: the scheduled power of brush `b` for the latch at `tL`. -/
def State.sched (s : State) (b : Fin 16) (tL : Nat) : Sched :=
  if ¬ s.isOn (Pg.BRUSH b) ∨ s.fb Pg.CLK Reg.CLK_STATUS_SAFE_HOLD then ⟨0, 0, 0, false, none, none⟩
  else
    let l := s.timeline b
    match s.legFor b l tL with
    | none => ⟨3, 0, 0, false, none, none⟩
    | some (g, _) =>
      let u := s.latchU b tL (some g)
      let on (x : Up) : Bool := match s.holdTick b tL with | some c => before u c && before x.ts c | none => true
      let q := (s.upsOf b l).filter fun x => x.sheet == g.sheet.seq && x.r.emits && !s.skipped b x && on x
      match q.find? fun x => reached u x.ts && before u ((x.ts + x.dur : Nat) : Int) with
      | some x => let (p, c, k) := s.powerOf b x (sdiff48 u x.ts).toNat; ⟨1, p, c, k, some x, some g⟩
      | none =>
        match q.find? fun x => decide (0 < sdiff48 x.ts u ∧ sdiff48 x.ts u < 8000) with
        | some x => let (p, c, k) := s.powerOf b x 0; ⟨2, p, c, k, some x, some g⟩
        | none => ⟨3, 0, 0, false, none, some g⟩

end Sys2Proof.Machine
end

