-- ==== Sys2Proof/Machine/Sequencer.lean ====
section
/-! DEFINITION. The exposure sequencer of a brush: chains and headers, prefetch, execution of the list, miss decisions, settle checks, set-points
and parking (spec/08_canvas_sheets.md, spec/09_stroke_sequencer.md, R139 to R143, R151 to R165, R177 to R185; target entry, R198). -/

namespace Sys2Proof.Machine

/-! ### Seams (R153, R200) -/

/-- The open seam closes, stamped `stamp`. -/
def State.closeSeam (s : State) (b : Fin 16) (stamp : Nat) : State :=
  if s.fb (Pg.BRUSH b) Reg.BRUSH_STATUS_SEAM then
    ((s.setB (Pg.BRUSH b) Reg.BRUSH_STATUS_SEAM false).inc Pg.MEDIUM Reg.MEDIUM_SEAMS).event Pg.MEDIUM Ev.MEDIUM_SEAM_CLOSE stamp |>.setBrush b
      fun x => { x with seam := none }
  else s

/-- A HANDOVER record is processed: it replaces an earlier seam. -/
def State.openSeam (s : State) (b : Fin 16) (r : Rec) : State :=
  let s1 := s.closeSeam b s.now
  ((s1.setBrush b fun x => { x with seam := some (r.seam x.anchorM) }).setB (Pg.BRUSH b) Reg.BRUSH_STATUS_SEAM true).ev! Pg.MEDIUM
    Ev.MEDIUM_SEAM_OPEN

/-! ### Chains and headers (R155 to R159, R182) -/

/-- The sheet fetched last. -/
def Brush.newest (x : Brush) : Option Sheet := (x.force.toList ++ x.queue).getLast?

/-- Change the sheet number `seq`, in force or waiting. -/
def Brush.onSheet (x : Brush) (seq : Nat) (g : Sheet → Sheet) : Brush :=
  let h (k : Sheet) : Sheet := if k.seq = seq then g k else k
  { x with force := x.force.map h, queue := x.queue.map h }

/-- R158: NEXT of the newest sheet is read again. Where the word cannot be corrected the header fails its checks (R356). -/
def State.rereadNext (s : State) (b : Fin 16) : State :=
  match s.brushes[b].newest with
  | some h =>
    if h.next = 0 ∧ s.dramBad h.addr 64 then
      (s.dramRead 0 (Pg.BRUSH b) h.addr 64).setBrush b fun x => { x with badHeader := true, pollFrame := frameOf s.now }
    else if h.next = 0 then
      let nx := s.readNext h.addr
      let s1 := (s.dramRead 0 (Pg.BRUSH b) h.addr 64).setBrush b fun x => { x.onSheet h.seq fun k => { k with next := nx } with pollFrame := frameOf s.now, pollAt := some s.now }
      if nx ≠ 0 then s1.setB (Pg.BRUSH b) Reg.BRUSH_STATUS_CHAIN_ENDED false else s1
    else s
  | none => s

/-- The path has nothing further to ask for in its sheet, and all it has asked for there has arrived: the list's end has been fetched, or the path
stands in a resident loop body that branches every time (R158, R162). -/
def Path.fetched (q : Path) : Bool := (q.ended || q.branching) && q.blocks.all fun k => k.sheet != q.sheet || k.arrived.isSome

/-- R158, R162: once the newest sheet's list has been fetched, and NEXT is linked, the next header is fetched. It is path A's end of list that
counts (DESIGN CHOICE, log 86). -/
def State.tryNext (s : State) (b : Fin 16) : State :=
  let x := s.brushes[b]
  match x.newest with
  | some h =>
    if x.hdrFetch.isNone ∧ h.next ≠ 0 ∧ ¬ x.badHeader ∧ x.pathA.sheet = h.seq ∧ x.pathA.fetched then
      (s.dramRead 0 (Pg.BRUSH b) h.next 832).setBrush b fun x => { x with hdrFetch := some h.next }
    else s
  | none => s

/-- A boundary that has become known: b, and the tick from which the sheet is in force (R159: a late one, from the next frame start). -/
def setBoundary (now c : Nat) (h : Sheet) : Sheet :=
  { h with boundary := some c, eff := if reached now c then t0 (frameOf now + 1) else c }

/-- The sheet is late: it takes effect after its boundary. -/
def Sheet.late (h : Sheet) : Bool := match h.boundary with | some c => before c h.eff | none => false

/-- R155: the address a host write of CHAIN_HI gives. -/
def chainAddr (lo hi : Nat) : Nat := lo / 64 * 64 + hi % 256 * 2 ^ 32

/-- R182: a write of CHAIN_HI fetches the chain's first header, or is ignored and sets CHAIN_IGNORED. -/
def execChainStart (t : Nat) (b : Fin 16) (v : Word) (s : State) : Host.Outcome State Fault Refusal :=
  let s1 := s.upTo t
  let p := Pg.BRUSH b
  if ¬ s1.pageOn (Pg.BRUSH b) then .fault (.domainOff (regAddr (Pg.BRUSH b) Reg.BRUSH_CHAIN_HI.off))
  else if 256 ≤ v.toNat then .fault (.reservedWrite (regAddr (Pg.BRUSH b) Reg.BRUSH_CHAIN_HI.off))
  else doneDma s (if s1.pageOn p then
    let s2 := s1.setF p Reg.BRUSH_CHAIN_HI v.toNat
    let x := s2.brushes[b]
    if s2.isOn p ∧ ¬ x.chain ∧ (x.force.isNone ∨ s2.fb p Reg.BRUSH_STATUS_CHAIN_ENDED) then
      let a := chainAddr (s2.word (regAddr p Reg.BRUSH_CHAIN_LO.off)).toNat v.toNat
      (s2.dramRead 0 (Pg.BRUSH b) a 832).setBrush b fun x => { x with chain := true, hdrFetch := some a, stretch := 0 }
    else s2.sticky! p Sticky.BRUSH_CHAIN_IGNORED
  else s1)

/-- The timed records of the sheet in force that have begun, newest first. -/
def Brush.begun (x : Brush) : List Up :=
  match x.force with
  | some h => x.cur.toList ++ (x.past ++ x.early).filter fun u => u.sheet == h.seq
  | none => []

/-- The pen of brush `b` where execution has come to it; none where it is unpredictable (R252). -/
def State.penNow (s : State) (b : Fin 16) : Option P3 :=
  let x := s.brushes[b]
  match x.cur with
  | some u => (s.pointOf b u (u.ts + u.dur)).map fun _ => u.r.endPt u.pen
  | none => some x.pen

/-- The sheet point of the old sheet at tick `c`, which may lie before records that have begun since, and the record in progress there (R157,
R159). -/
def State.pointAtCut (s : State) (b : Fin 16) (c : Nat) : Option P3 × Option Up :=
  let l := s.brushes[b].begun
  match l.find? fun u => reached c u.beg && before c u.stop with
  | some u => (s.pointOf b u c, some u)
  | none =>
    match (l.filter fun u => before c u.beg).getLast? with
    | some v => (some v.pen, none)
    | none => (s.penNow b, none)

/-- The old sheet ends at `c`: its record in progress then is truncated there, its seam closes, its tile closes (R157, R213), and records begun
since are discarded with it (R159). The pen then stands at its sheet point at `c`; where that point is unpredictable (R252) it is a free value. -/
def State.endOld (s : State) (b : Fin 16) (c : Nat) : State :=
  let p := Pg.BRUSH b
  let (pen, cutRec) := s.pointAtCut b c
  let s1 := (s.setRaster b fun r => { r with cur := r.cur.map fun q => { q with u := { q.u with cutoff := some c } } }).takePixels b c
  let s2 := if cutRec.any fun u => u.cutoff.isNone then s1.inc p Reg.BRUSH_TRUNCATED else s1
  let s3 := s2.setBrush b fun x => { x with
    cur := none, ended := true, pen := pen.getD (freePoint s.freeCtr), prevEnd := match cutRec with | some _ => later x.prevEnd c | none => x.prevEnd,
    past := (x.cur.toList ++ x.past).map (Up.cutAt c), early := x.early.map (Up.cutAt c) }
  let s4 := if pen.isNone then s3.takeFree.takeFree.takeFree else s3
  let s5 := ((s4.closeSeam b c).setB p Reg.BRUSH_STATUS_WAITING false).setRaster b fun r => { r with cur := none }
  if s5.rasters[b].tile.isSome then s5.setRaster b fun r => { r with closeAt := some c } else s5

/-- R159: as soon as a sheet is known to be late, the sheet in force ends at the late sheet's boundary; where its list has ended by itself, a record
that reached past the boundary is cut there all the same. -/
def State.endIfLate (s : State) (b : Fin 16) : State :=
  let x := s.brushes[b]
  match dueSheets x.queue with
  | h :: _ =>
    let c := h.boundary.getD 0
    if h.late ∧ x.force.isSome ∧ (¬ x.ended ∨ x.begun.any fun u => u.cutoff.isNone && before c u.stop) then s.endOld b c else s
  | [] => s

/-- The boundaries of waiting medium-anchored sheets, once their targets are frozen, and the ticks of the brush's targets (R197, R198). -/
def State.takeTicks (s : State) (b : Fin 16) : State :=
  let x := s.brushes[b]
  let known (h : Sheet) : Sheet :=
    if h.medium ∧ h.boundary.isNone then
      match s.reachTick (signed 48 h.anchor) with
      | some k => setBoundary s.now k h
      | none => h
    else h
  (s.setBrush b fun _ => { x with
    queue := x.queue.map known,
    reach := x.reach.map fun r => if r.tick.isNone then { r with tick := s.reachTick r.pos } else r }).endIfLate b

/-! ### Target entry (R198) -/

/-- The table is full, and a target that brush `b` needs is not in it. -/
def State.tableFull (s : State) (b : Fin 16) : State := s.setBrush b fun x => { x with entry := { x.entry with full := true } }

/-- The ANCHOR of a waiting medium-anchored sheet is entered, unless a target before it in list order is still left out. -/
def State.enterAnchor (s : State) (b : Fin 16) (h : Sheet) : State :=
  if h.medium ∧ h.boundary.isNone ∧ ¬ s.brushes[b].entry.full then
    match s.addTarget (signed 48 h.anchor) with
    | some s1 => s1
    | none => s.tableFull b
  else s

/-- Target entry goes on over the records resident in window A, in the order of execution, at most one loop branch ahead of it. A sheet's ANCHOR
comes before its records. -/
def State.enterTargets (s : State) (b : Fin 16) : Nat → State
  | 0 => s
  | n + 1 =>
    let x := s.brushes[b]
    let e := x.entry
    match s.sheetOf b e.sheet with
    | none => s
    | some h =>
      let r := s.record h e.idx
      if r.op = opEnd then
        match s.sheetOf b (e.sheet + 1) with
        | some nx =>
          let s1 := s.enterAnchor b nx
          if s1.brushes[b].entry.full then s1
          else (s1.setBrush b fun x => { x with entry := { sheet := nx.seq, am := nx.aM } }).enterTargets b n
        | none => s
      else if ¬ x.pathA.holds e.sheet e.idx e.lap then s
      else if r.op = opLoop ∧ r.branches e.pass then
        if 2 ≤ e.ahead then s
        else (s.setBrush b fun x => { x with entry := { e with
          idx := r.w1, pass := e.pass + 1, ahead := e.ahead + 1, lap := e.lap + b2n (r.refetches e.idx) } }).enterTargets b n
      else if r.byMedium then
        let pos := absPos e.am r.start
        match s.addTarget pos with
        | none => s.tableFull b
        | some s1 =>
          (s1.setBrush b fun x => { x with
            reach := x.reach ++ [⟨e.sheet, pos, s1.reachTick pos⟩],
            entry := { e with idx := e.idx + 1, am := if r.op = opWaitMedium ∧ r.reanchor then pos else e.am } }).enterTargets b n
      else
        (s.setBrush b fun x => { x with entry := { e with idx := e.idx + 1, pass := if r.op = opLoop then 0 else e.pass } }).enterTargets b n

/-- The ANCHORs of the waiting sheets up to the one target entry stands in, or of those after it. -/
def State.enterAnchors (s : State) (b : Fin 16) (after : Bool) : State :=
  s.each (s.brushes[b].queue.filter fun h => decide (s.brushes[b].entry.sheet < h.seq) == after) fun s h => s.enterAnchor b h

/-- Target entry for brush `b` in list order, as far as it can go now. While a target it needs is left out of the full table its fetch paths pause,
and each pause counts TARGET_OVERFLOWS (R198). -/
def State.targets (s : State) (b : Fin 16) : State :=
  let s0 := (s.setBrush b fun x => { x with entry := { x.entry with full := false } }).enterAnchors b false
  let s1 := (if s0.brushes[b].entry.full then s0 else s0.enterTargets b 4096).enterAnchors b true
  let s2 := if s1.brushes[b].entry.full ∧ ¬ s.brushes[b].entry.full then
      (s1.inc Pg.MEDIUM Reg.MEDIUM_TARGET_OVERFLOWS).sticky! Pg.MEDIUM Sticky.MEDIUM_TARGET_OVERFLOW
    else s1
  s2.takeTicks b

/-! ### Prefetch (R161, R162) -/

/-- Window capacity in blocks: 48 of path A, 32 of path B. -/
def pathRoom (pathB : Bool) : Nat := if pathB then 32 else 48

def Brush.path (x : Brush) (pathB : Bool) : Path := if pathB then x.pathB else x.pathA

def Brush.setPath (x : Brush) (pathB : Bool) (q : Path) : Brush := if pathB then { x with pathB := q } else { x with pathA := q }

/-- The block has been requested, or has arrived, in the lap the path is in. -/
def Path.asked (q : Path) (sheet blk : Nat) : Bool := q.blocks.any fun k => k.sheet == sheet && k.blk == blk && k.lap == q.lap

/-- The path turns to the next sheet. -/
def Path.turn (q : Path) (seq : Nat) : Path := { q with sheet := seq, idx := 0, pass := 0, lap := 0, branching := false, ended := false }

/-- The path moves on in the order of execution over blocks it has asked for, until it comes to one it has not, to the list's end, or to a
resident loop body that branches every time. -/
def State.pathOn (s : State) (b : Fin 16) : Nat → Path → Path
  | 0, q => q
  | n + 1, q =>
    match s.sheetOf b q.sheet with
    | none => q
    | some h =>
      if q.branching then q
      else
        let r := s.record h q.idx
        if q.ended ∨ h.records ≤ q.idx ∨ ¬ h.takesPart then
          match s.sheetOf b (q.sheet + 1) with
          | some nx => s.pathOn b n (q.turn nx.seq)
          | none => { q with ended := true }
        else if ¬ q.asked q.sheet (q.idx / 64) then q
        else if r.op = opEnd then s.pathOn b n { q with ended := true }
        else if r.op = opLoop ∧ r.branches q.pass then
          if r.refetches q.idx then s.pathOn b n { q with idx := r.w1, pass := q.pass + 1, lap := q.lap + 1 }
          else if r.w2 = 0xFFFFFFFF then { q with branching := true }
          else s.pathOn b n { q with idx := q.idx + 1, pass := 0 }
        else s.pathOn b n { q with idx := q.idx + 1, pass := if r.op = opLoop then 0 else q.pass }

/-- A path that stands at an infinite resident loop goes on with the next sheet once there is one (R162). -/
def State.pathNext (s : State) (b : Fin 16) (q : Path) : Path :=
  if q.branching then
    match s.sheetOf b (q.sheet + 1) with
    | some nx => q.turn nx.seq
    | none => q
  else q

/-- The lowest free place of a window. -/
def Path.freeSlot (q : Path) (room : Nat) : Option Nat := (List.range room).find? fun k => !(q.blocks.any fun x => x.slot == k)

/-- R161: a fetch path asks for its next block once its window has room and fewer than 4 requests are outstanding. -/
def execBlockFetchRequest (t : Nat) (b : Fin 16) (pathB : Bool) (s : State) : Host.Outcome State Fault Refusal :=
  let s1 := s.upTo t
  let x := s1.brushes[b]
  doneDma s (if s1.isOn (Pg.BRUSH b) ∧ ¬ x.entry.full then
    let was := x.path pathB
    let q := s1.pathOn b 8192 (s1.pathNext b was)
    let s2 := s1.setBrush b fun x => x.setPath pathB q
    if q.fetched then (if was.fetched ∧ was.sheet = q.sheet then s2 else s2.rereadNext b).tryNext b
    else if q.ended ∨ q.branching then s2
    else if (s2.sheetOf b q.sheet).isSome ∧ (q.blocks.filter fun k => k.arrived.isNone).length < 4 then
      match q.freeSlot (pathRoom pathB) with
      | some k =>
        let s3 : State := match s2.sheetOf b q.sheet with
          | some h => s2.dramRead 0 (Pg.BRUSH b) (h.list + q.idx / 64 * 2048) (32 * min 64 (h.records - q.idx / 64 * 64))
          | none => s2
        s3.setBrush b fun x => x.setPath pathB { q with
          blocks := q.blocks ++ [{ sheet := q.sheet, blk := q.idx / 64, slot := k, lap := q.lap }] }
      | none => s2
    else s2
  else s1)

/-- R161: outstanding request number `k` of a path returns; its records become resident, and path A enters their targets. A block with an
uncorrectable word counts as not fetched and is asked for again (R356). -/
def execBlockArrival (t : Nat) (b : Fin 16) (pathB : Bool) (k : Nat) (s : State) : Host.Outcome State Fault Refusal :=
  let s1 := s.upTo t
  let x := s1.brushes[b]
  let q := x.path pathB
  doneDma s (match (if s1.dramOn then (q.blocks.filter fun e => e.arrived.isNone)[k]? else none) with
  | some e =>
    match s1.sheetOf b e.sheet with
    | some h =>
      let recs := min 64 (h.records - e.blk * 64)
      if s1.dramBad (h.list + e.blk * 2048) (32 * recs) then s1.dramRead 0 (Pg.BRUSH b) (h.list + e.blk * 2048) (32 * recs)
      else
      let q' := { q with blocks := q.blocks.map fun y => if y = e then { y with arrived := some s1.now } else y }
      let s2 := s1.setBrush b fun x => x.setPath pathB q'
      let s3 := if pathB then s2.freshWords (brushBank b + 0xDB000 + e.slot * 1024) (16 * recs)
        else s2.setBytes (brushBank b + 0xC3000 + e.slot * 2048) (s2.bytes (h.list + e.blk * 2048) (32 * recs))
      let s4 := s3.setBrush b fun x => x.setPath pathB (s3.pathOn b 8192 (x.path pathB))
      let s5 := if pathB then s4 else s4.targets b
      let z := (s5.brushes[b].path pathB)
      if z.fetched then (s5.rereadNext b).tryNext b else s5
    | none => s1
  | none => s1)

/-- A loop body of at most 2,048 records that reaches into block `blk` and that execution, at record `i`, has not left (R162). -/
def State.loopHolds (s : State) (h : Sheet) (blk i : Nat) : Bool :=
  (List.range (min h.records (max (64 * blk) i + 2112) - max (64 * blk) i)).any fun k =>
    let l := max (64 * blk) i + k
    let r := s.record h l
    r.op == opLoop && decide (r.w1 < 64 * blk + 64 ∧ l + 1 - r.w1 ≤ 2048 ∧ r.w1 ≤ i)

/-- Record `i` of the sheet in force is still to be executed, or lies in the body of a resident loop that execution has not left (R161, R162). -/
def State.recHolds (s : State) (b : Fin 16) (h : Sheet) (i : Nat) : Bool :=
  let x := s.brushes[b]
  (!x.ended && decide (x.idx ≤ i)) ||
    (List.range (min h.records (max i x.idx + 2048) - max i x.idx)).any fun k =>
      let l := max i x.idx + k
      let r := s.record h l
      r.op == opLoop && decide (r.w1 ≤ i ∧ r.w1 ≤ x.idx ∧ l + 1 - r.w1 ≤ 2048)

/-- The lines of records that are done with leave the ring (R211): a line stays while its record is in progress, still to be executed in its pass,
or in the body of a resident loop. -/
def State.releaseLines (s : State) (b : Fin 16) : State :=
  match s.brushes[b].force with
  | none => s
  | some h =>
    let x := s.brushes[b]
    let now (l : RLine) : Bool := x.cur.any fun u => l.isFor u.sheet u.idx u.lap
    s.dropLines b fun l => decide (h.seq < l.sheet) ||
      (l.sheet == h.seq && (now l || decide (x.lap < l.lap) || (l.lap == x.lap && s.recHolds b h l.idx)))

/-- Blocks every record of which has been executed are released (R161): those of an earlier lap of a refetched loop, and those execution has passed
in its own lap, but for the body of a resident loop. -/
def State.releaseBlocks (s : State) (b : Fin 16) : State :=
  let x := s.brushes[b]
  match x.force with
  | none => s
  | some h =>
    let keep (k : FBlock) : Bool :=
      if k.sheet = h.seq then
        decide (x.lap < k.lap) || (k.lap == x.lap && ((!x.ended && decide (x.idx ≤ 64 * k.blk + 63)) || s.loopHolds h k.blk x.idx))
      else decide (h.seq < k.sheet)
    s.setBrush b fun x => { x with
      pathA := { x.pathA with blocks := x.pathA.blocks.filter keep }, pathB := { x.pathB with blocks := x.pathB.blocks.filter keep } }

/-! ### Execution (R150 to R154) -/

/-- The list ends (R154); with no NEXT, as last read, the chain has ended. -/
def State.listEnd (s : State) (b : Fin 16) : State :=
  let p := Pg.BRUSH b
  if s.brushes[b].ended then s
  else
    let s1 := s.setBrush b fun x => { x with ended := true }
    let took : Bool := match s1.brushes[b].force with | some h => h.takesPart | none => false
    let s2 := s1.when took fun s => s.ev! p Ev.BRUSH_LIST_END
    match s2.brushes[b].force with
    | some h => if h.next = 0 then (s2.setB p Reg.BRUSH_STATUS_CHAIN_ENDED true).ev! p Ev.BRUSH_CHAIN_END else s2
    | none => s2

/-- Records without duration are processed until a wait, a timed record or the list's end (R145, R151 to R154). -/
def State.process (s : State) (b : Fin 16) : Nat → State
  | 0 => s
  | n + 1 =>
    let p := Pg.BRUSH b
    let x := s.brushes[b]
    match x.force with
    | none => s
    | some h =>
      let r := s.record h x.idx
      if x.ended then s
      else if r.op = opNop then (s.setBrush b fun x => { x with idx := x.idx + 1 }).process b n
      else if r.op = opOut ∨ r.op = opIn then ((s.openSeam b r).setBrush b fun x => { x with idx := x.idx + 1 }).process b n
      else if r.op = opLoop then
        if r.branches (s.f p Reg.BRUSH_PASS_COUNT) then
          ((s.setF p Reg.BRUSH_PASS_COUNT (s.f p Reg.BRUSH_PASS_COUNT + 1)).setBrush b fun x => { x with
            idx := r.w1, lap := x.lap + b2n (r.refetches x.idx), entry := { x.entry with ahead := x.entry.ahead - 1 } }).process b n
        else ((s.setF p Reg.BRUSH_PASS_COUNT 0).setBrush b fun x => { x with idx := x.idx + 1 }).process b n
      else if r.op = opWaitTime ∨ r.op = opWaitMedium then s.setB p Reg.BRUSH_STATUS_WAITING true
      else if r.op = opEnd then s.listEnd b
      else s

/-- Execution goes on: records without duration, then the release of what has been executed. It comes past 65,536 of them at a time (DESIGN CHOICE,
log 94); a frame start goes on with the rest. -/
def State.proceed (s : State) (b : Fin 16) : State := ((s.process b 65536).releaseBlocks b).releaseLines b

/-- Execution stands at a record without duration, or at the list's end. -/
def State.unfinished (s : State) (b : Fin 16) : Bool :=
  let x := s.brushes[b]
  match x.force with
  | some h =>
    let r := s.record h x.idx
    x.cur.isNone && !x.ended && (r.op == opNop || r.op == opOut || r.op == opIn || r.op == opLoop || r.op == opEnd)
  | none => false

/-- Execution stands at a record whose opcode is reserved, which R44 makes a host error. -/
def State.badOp (s : State) (b : Fin 16) : Bool :=
  let x := s.brushes[b]
  match x.force with
  | some h => let r := s.record h x.idx; x.cur.isNone && !x.ended && !(decide (r.op ≤ 9) || r.op == opEnd)
  | none => false

/-- The end of a command that moves execution on: a reserved opcode met on the way is a host error. -/
def doneSeq (s s' : State) (b : Fin 16) : Host.Outcome State Fault Refusal := if s'.badOp b then .fault (.hostBreach 145) else done s s'

/-- Show the anchors (R186). -/
def State.showAnchors (s : State) (b : Fin 16) : State :=
  let p := Pg.BRUSH b
  let x := s.brushes[b]
  (s.setPair p Reg.BRUSH_ANCHOR_T_LO Reg.BRUSH_ANCHOR_T_HI (x.anchorT % 2 ^ 48)).setPair p Reg.BRUSH_ANCHOR_M_LO Reg.BRUSH_ANCHOR_M_HI
    (wrapU 48 x.anchorM)

/-- The start tick of the record execution has come to. -/
def State.startTick (s : State) (b : Fin 16) (r : Rec) : Option Nat :=
  let x := s.brushes[b]
  if r.byMedium then
    match x.reach, x.force with
    | q :: _, some h => if q.sheet = h.seq then q.tick else none
    | _, _ => none
  else some (wrapU 64 ((x.anchorT : Int) + r.start))

/-- Tick `k` comes before the boundary of the next sheet, where that is known; from it on nothing more of the old list begins (R157). -/
def State.beforeCut (s : State) (b : Fin 16) (k : Nat) : Bool :=
  match s.brushes[b].cut with
  | some c => before k c
  | none => true

/-- R152, R185: a timed record's start tick is reached. It takes its stroke index and its log entry, opens its tile, and is consumed by an open
seam. -/
def execTimedRecordStart (t : Nat) (b : Fin 16) (s : State) : Host.Outcome State Fault Refusal :=
  let s1 := s.upTo t
  let p := Pg.BRUSH b
  let x := s1.brushes[b]
  done s (match x.force with
  | some h =>
    let r := s1.record h x.idx
    if s1.isOn p ∧ x.cur.isNone ∧ ¬ x.ended ∧ r.timed then
      match s1.startTick b r with
      | some ts =>
        if s1.past (later ts x.prevEnd) ∧ s1.beforeCut b (later ts x.prevEnd) then
          let u : Up := { sheet := h.seq, ord := x.ord, idx := x.idx, ts := ts, beg := later ts x.prevEnd, dur := r.dur, eff := h.eff, pen := x.pen, lap := x.lap,
                          seam := if r.counted then x.seam else none, conf := conflicts ts x.lastStop, r := r }
          let s2 := s1.setBrush b fun x => { x with
            cur := some u, idx := x.idx + 1, ord := x.ord + 1, seam := takeSeam x.seam r, log := keepLog 1024 ((u.beg, x.ord) :: x.log),
            reach := if r.byMedium then x.reach.drop 1 else x.reach }
          let s3 := (s2.inc p Reg.BRUSH_STROKES).accAdd (0x48 + 160 * b) 4 1
          if r.op = opRaster then s3.beginLine b h.tiles h.palSet u else s3
        else s1
      | none => s1
    else s1
  | none => s1)

/-- A record has ended so long ago that no edge still to come depends on it, and it lies before the takeover window of a device B in lockstep
(R319). -/
def State.bygone (s : State) (v : Up) : Bool :=
  let k := v.stop + 1300000
  s.past k && !(s.gapWatch && reached k s.dip.windowFrom)

/-- R150, R145: a timed record reaches t_s + D. The pen takes its end point (a free value where R252 makes it unpredictable), and the records
without duration that follow are processed. -/
def execTimedRecordEnd (t : Nat) (b : Fin 16) (s : State) : Host.Outcome State Fault Refusal :=
  let s1 := s.upTo t
  match s1.brushes[b].cur with
  | some u =>
    if s1.isOn (Pg.BRUSH b) ∧ s1.past u.stop then
      let tiles := match s1.brushes[b].force with | some h => h.tiles | none => 0
      let s2 := if u.r.op = opRaster then s1.endLine b tiles u else s1
      let s3 := match s2.pointOf b u (u.ts + u.dur) with
        | some _ => s2.setBrush b fun x => { x with pen := u.r.endPt u.pen }
        | none => s2.takeFree.takeFree.takeFree.setBrush b fun x => { x with pen := freePoint s2.freeCtr }
      let s4 := s3.setBrush b fun x => { x with
        cur := none, prevEnd := u.stop, lastStop := some u.stop, past := u :: x.past.filter fun v => !s3.bygone v,
        early := (x.past.filter fun v => s3.bygone v && v.sheet == u.sheet) ++ x.early }
      let last : Bool := u.seam.isSome && s4.brushes[b].seam.isNone
      let s5 := if last then s4.closeSeam b u.er else s4
      doneSeq s (s5.proceed b) b
    else done s s1
  | none => done s s1

/-- R151: a WAIT_TIME or WAIT_MEDIUM completes and, with REANCHOR, moves the anchors to its own start. -/
def execWaitComplete (t : Nat) (b : Fin 16) (s : State) : Host.Outcome State Fault Refusal :=
  let s1 := s.upTo t
  let p := Pg.BRUSH b
  let x := s1.brushes[b]
  match x.force with
  | some h =>
    let r := s1.record h x.idx
    match s1.startTick b r with
    | some ts =>
      if s1.isOn p ∧ x.cur.isNone ∧ ¬ x.ended ∧ (r.op = opWaitTime ∨ r.op = opWaitMedium) ∧ s1.past ts ∧ s1.beforeCut b (later ts x.prevEnd) then
        let s2 := s1.setBrush b fun x => { x with
          idx := x.idx + 1, prevEnd := later ts x.prevEnd, anchorT := if r.reanchor then ts else x.anchorT,
          anchorM := if r.reanchor ∧ r.op = opWaitMedium then absPos x.anchorM r.start else x.anchorM,
          reach := if r.byMedium then x.reach.drop 1 else x.reach }
        doneSeq s (((s2.setB p Reg.BRUSH_STATUS_WAITING false).showAnchors b).proceed b) b
      else done s s1
    | none => done s s1
  | none => done s s1

/-! ### Sheet boundaries (R156, R157, R159) -/

/-- A set that fails its check: the brush does not start the sheet, and enters FAULT with cause SHEET_BAD. -/
def State.sheetBad (s : State) (b : Fin 16) (stamp : Nat) : State :=
  let p := Pg.BRUSH b
  (((s.sticky p Sticky.BRUSH_SHEET_BAD stamp).event p Ev.BRUSH_SHEET_BAD stamp).brushFault b 3 stamp).endForce b

/-- A fetch path starts with the sheet that comes into force, if it has not got there. -/
def Path.toSheet (q : Path) (seq : Nat) : Path :=
  let q := { q with blocks := q.blocks.filter fun k => decide (seq ≤ k.sheet) }
  if q.sheet < seq then q.turn seq else q

/-- The sheet that is due comes into force with boundary `c` (R157); sheets before it in the chain never do. -/
def State.beginSheet (s : State) (b : Fin 16) (c : Nat) : State :=
  let p := Pg.BRUSH b
  match dueSheets s.brushes[b].queue with
  | [] => s
  | h0 :: rest =>
    let h := s.keepSets b s.brushes[b].force h0
    let s1 := (s.endOld b c).ownerReads (if h.takesPart then [(gridSlot b h.gridSet, 4), (palSlot b h.palSet, 4), (glzSlot b h.glzSet, 4)] else [])
    if ¬ s1.idsOk b h then s1.sheetBad b c
    else
      let s2 := (if h.takesPart ∧ h.penSet then s1.setBrush b fun x => { x with pen := h.pen } else s1).dropLines b fun l => decide (h.seq ≤ l.sheet)
      let s3 := s2.setBrush b fun x => { x with
        gone := (x.force.toList ++ x.gone).filter (fun g => x.past.any fun u => u.sheet == g.seq),
        force := some h, queue := rest, chain := false, idx := 0, lap := 0, early := [], named := x.named || h.takesPart, ended := false, ord := 0, anchorT := c, anchorM := h.aM, cur := none,
        prevEnd := h.eff, lastStop := none, seam := none, reach := x.reach.filter (fun r => decide (h.seq ≤ r.sheet)),
        pathA := x.pathA.toSheet h.seq, pathB := x.pathB.toSheet h.seq,
        entry := if x.entry.sheet < h.seq then { sheet := h.seq, am := h.aM, full := x.entry.full } else x.entry,
        log := keepLog 1024 ((c, 0xFFFFFFFF) :: x.log) }
      let s4 := ((((((s3.showAnchors b).setF p Reg.BRUSH_PASS_COUNT 0).setF p Reg.BRUSH_STROKE_INDEX 0xFFFFFFFF).setF p Reg.BRUSH_SHEET_ID h.id).setB p
        Reg.BRUSH_STATUS_SHEET_VALID true).setB p Reg.BRUSH_STATUS_CHAIN_ENDED false).inc p Reg.BRUSH_SHEETS
      let s5 := if h.takesPart then ((s4.setF p Reg.BRUSH_STATUS_GRID_SET h.gridSet).setF p Reg.BRUSH_STATUS_PALETTE_SET h.palSet).setF p
          Reg.BRUSH_STATUS_GLAZE_SET h.glzSet else s4
      (s5.event p Ev.BRUSH_SHEET_START c).proceed b

/-- The release instant b′ of R367, from the cut `c` at which enforcement ended. -/
def releaseAt (c : Nat) : Nat := t0 ((c + 1024000 + 15999) / 16000) % 2 ^ 64

/-- Boundary `c` was reached while enforcement was in force, which has not ended or has not yet let go of its sheets (R367). -/
def State.heldAt (s : State) (c : Nat) : Bool :=
  !s.moving && (match s.therm.enforcedAt with | some k => reached c k | none => false) &&
    (s.fb Pg.THERM Reg.THERM_STATUS_ENFORCED || (match s.therm.release with | some e => before c e && !s.past (releaseAt e) | none => false))

/-- R367: boundary `c` of brush `b` is held: the sheet in force ends there, the edges beyond it are withdrawn, what is still high falls there, and the
sheet waits. A boundary that several brushes come to is held once. -/
def State.holdSheet (s : State) (b : Fin 16) (c : Nat) : State :=
  let p := Pg.THERM
  let s1 := if s.therm.held.contains c then s
    else (((({ s with therm := { s.therm with held := s.therm.held ++ [c] } }).setB p Reg.THERM_STATUS_STRETCHING true).inc p
      Reg.THERM_HELD_BOUNDARIES).accAdd 0xD6A 2 1).event p Ev.THERM_STRETCH c
  let keep (e : Edge) : Bool := before e.tick c || (e.tick == c && e.kind % 2 == 1)
  let cut (gate psync : Bool) (l : List Edge) : List Edge :=
    let k := l.filter keep
    k ++ (if afterEdges gate k 0 then [⟨c, 1⟩] else []) ++ (if afterEdges psync k 2 then [⟨c, 3⟩] else [])
  let s2 := (s1.endOld b c).setLaser b fun l => { l with edgesA := cut l.gA l.pA l.edgesA, edgesB := cut l.gB l.pB l.edgesB }
  s2.setBrush b fun x => match dueSheets x.queue with
    | h :: r => { x with queue := { h with boundary := none, held := some c } :: r, decs := x.decs.filter fun d => d.sheet != h.seq }
    | [] => x

/-- R157: a sheet's boundary is reached; in thermal enforcement on a standing medium it is held (R367). -/
def execSheetBoundary (t : Nat) (b : Fin 16) (s : State) : Host.Outcome State Fault Refusal :=
  let s1 := s.upTo t
  match dueSheets s1.brushes[b].queue with
  | h :: _ =>
    match h.boundary with
    | some c =>
      if s1.isOn (Pg.BRUSH b) ∧ ¬ h.late ∧ s1.past c then
        if s1.heldAt c ∧ ¬ h.medium then done s (s1.holdSheet b c) else doneSeq s (s1.beginSheet b c) b
      else done s s1
    | none => done s s1
  | [] => done s s1

/-! ### Miss decisions (R163, R177 to R179) -/

/-- Mode `m` checks a record of `d` at its cut: STRICT every emitting record, BALANCED those R179 lists, FLOW none. -/
def Dec.checked (d : Dec) (m : Nat) : Bool := d.pend && (m == 0 || (m == 1 && d.need))

/-- The misses at the end of the decided records whose outcome is known (R179, R186). -/
def missTail (l : List Dec) : Nat :=
  let known := l.takeWhile fun d => !d.pend
  let known := if known.length = l.length then l else (known.reverse.dropWhile fun d => !d.skip).reverse
  (known.reverse.takeWhile fun d => d.skip).length

/-- The unbroken run of misses around a record. -/
def missRun (l : List Dec) (sheet ord : Nat) : Nat :=
  let is (d : Dec) : Bool := d.sheet == sheet && d.ord == ord
  let before := l.takeWhile fun d => !is d
  let after := l.dropWhile fun d => !is d
  (before.reverse.takeWhile fun d => d.skip).length + (after.takeWhile fun d => d.skip).length

/-- The active exposure mode (R179). -/
def State.brushMode (s : State) (b : Fin 16) : Nat := s.a (Pg.BRUSH b) Reg.BRUSH_MODE

/-- STATUS.MISS_RUN: the outcome of a record that its mode will check is not known before its cut. -/
def State.showRun (s : State) (b : Fin 16) : State :=
  let l := s.brushes[b].decs.map fun d => { d with pend := d.checked (s.brushMode b) }
  s.setF (Pg.BRUSH b) Reg.BRUSH_STATUS_MISS_RUN (satU (missTail l) 4)

/-- The response to a miss, by mode (R179). `flow` is the tick up to which FLOW skips. -/
def State.missed (s : State) (b : Fin 16) (u : Up) (flow : Option Nat) : State :=
  let p := Pg.BRUSH b
  let s1 := (((s.inc p Reg.BRUSH_MISSES).accAdd (0x4C + 160 * b) 4 1).ev! p Ev.BRUSH_MISS).setBrush b fun x => { x with settleNext := true }
  let s2 := s1.showRun b
  match s2.brushMode b with
  | 0 => (s2.latchCause [b] causeStrict s2.now).brushFault b 1 s2.now
  | 1 => if 8 ≤ missRun s2.brushes[b].decs u.sheet u.ord then (s2.sticky! p Sticky.BRUSH_MISS_RUN).brushFault b 2 s2.now else s2
  | _ => match flow with
    | some f => s2.setBrush b fun x => { x with flowUntil := some (match x.flowUntil with | some k => later k f | none => f) }
    | none => s2

/-- Keep a decision. The latest 192 are kept, and every one of a record that execution has not come to or that is still among the past ones. -/
def State.keepDec (s : State) (b : Fin 16) (d : Dec) : State :=
  s.setBrush b fun x =>
    let l := x.decs ++ [d]
    let now := match x.force with | some h => h.seq | none => 0
    let kept (e : Dec) : Bool :=
      decide (now < e.sheet ∨ (e.sheet = now ∧ x.ord ≤ e.ord)) || x.past.any fun u => u.sheet == e.sheet && u.ord == e.ord
    { x with decs := (l.take (l.length - 192)).filter kept ++ l.drop (l.length - 192) }

/-- The record is skipped as a miss of the case that `flag` and `cnt` name. -/
def State.skipRec (s : State) (b : Fin 16) (u : Up) (case : Option (Nat × Fld)) (flow : Option Nat) : State :=
  let s1 := s.keepDec b { sheet := u.sheet, ord := u.ord, skip := true }
  let s2 := match case with
    | some (k, f) => (s1.sticky! (Pg.BRUSH b) k).inc (Pg.BRUSH b) f
    | none => s1
  s2.missed b u flow

/-- The tick at which both copies of a record were in their windows. -/
def Brush.bothAt (x : Brush) (u : Up) : Option Nat :=
  match x.pathA.arrival u.sheet u.idx u.lap, x.pathB.arrival u.sheet u.idx u.lap with
  | some i, some j => some (later i j)
  | _, _ => none

/-- FLOW skips a record of fetch deadline `dl` (R179). -/
def Brush.flowSkips (x : Brush) (dl : Int) : Bool := match x.flowUntil with | some k => before dl k | none => false

/-- The decision on one timed record at the frame start `f` (R163). -/
def State.decideOne (s : State) (b : Fin 16) (f : Nat) (u : Up) : State :=
  let p := Pg.BRUSH b
  if ¬ s.isOn p then s
  else
    let x := s.brushes[b]
    let dl : Int := (u.ts : Int) - s.fetchLead b
    let both := x.bothAt u
    let s0 : State := match both with
      | some k => let m := satU (sdiff48 dl k / 16000).toNat 16
                  if m < s.f p Reg.BRUSH_MARGIN_MIN then s.setF p Reg.BRUSH_MARGIN_MIN m else s
      | none => s
    let tiles := match s.sheetOf b u.sheet with | some h => h.tiles | none => 0
    let present : Bool := (match both with | some k => reached f k | none => false) && (u.r.op != opRaster || s.lineReady b tiles u)
    if u.conf then s0.skipRec b u (some (Sticky.BRUSH_START_CONFLICT, Reg.BRUSH_START_CONFLICTS)) (some (f + 32000))
    else if ¬ present then s0.skipRec b u (some (Sticky.BRUSH_LATE_FETCH, Reg.BRUSH_LATE_FETCHES)) (some (f + 32000))
    else if s0.brushMode b = 2 ∧ x.flowSkips dl then s0.skipRec b u none none
    else
      let need := x.settleNext || u.sheet != x.settleSheet
      let s1 := (s0.keepDec b { sheet := u.sheet, ord := u.ord, skip := false, pend := u.r.emits, need := need }).setBrush b fun x => { x with
        settleSheet := u.sheet, settleNext := if u.r.op = opJump then true else if u.r.emits then false else need }
      s1.showRun b

/-- The words of record `u` in the window of a path. -/
def Path.wordsOf (q : Path) (b : Fin 16) (pathB : Bool) (u : Up) : Option (FBlock × Nat × Nat) :=
  (q.blocks.find? fun k => k.sheet == u.sheet && k.blk == u.idx / 64 && k.lap == u.lap && k.arrived.isSome).map fun k =>
    (k, if pathB then (brushBank b + 0xDB000 + k.slot * 1024 + u.idx % 64 * 16, 16) else (brushBank b + 0xC3000 + k.slot * 2048 + u.idx % 64 * 32, 32))

/-- R339: the copies of a record that the sequencer reads are checked: a block with a word that cannot be corrected counts as not fetched, and is
asked for again. -/
def State.windowRead (s : State) (b : Fin 16) (u : Up) : State :=
  s.each [false, true] fun s pathB =>
    match (s.brushes[b].path pathB).wordsOf b pathB u with
    | none => s
    | some (k, a, n) =>
      let s1 := s.ownerRead a n
      if ¬ s.bad a n then s1
      else match s1.sheetOf b k.sheet with
        | none => s1
        | some h =>
          (s1.dramRead 0 (Pg.BRUSH b) (h.list + k.blk * 2048) (32 * min 64 (h.records - k.blk * 64))).setBrush b fun x =>
            let q := x.path pathB
            x.setPath pathB { q with blocks := q.blocks.map fun y => if y = k then { y with arrived := none } else y }

/-- R163: the miss decisions of a frame start. -/
def State.missDecisions (s : State) (b : Fin 16) (f : Nat) : State :=
  let h := s.fetchLead b
  let l := (s.upsOf b (s.timeline b)).filter fun u => reached ((f + h : Nat) : Int) u.ts && (s.decOf b u).isNone
  (if s.memErr.isEmpty then s else s.each l fun s u => s.windowRead b u).each l fun s u => s.decideOne b f u

/-- The timed records of sheet `seq`, just come into force, whose starts have been reached at its frame start `eff` (R159, R177). -/
def State.lateRecs (s : State) (b : Fin 16) (seq eff : Nat) : List Up :=
  match s.walkStart b with
  | some w => ((s.walk b eff (2 ^ 24) w).legs.reverse.filterMap fun g => g.up).filter fun u => u.sheet == seq && before u.ts eff
  | none => []

/-- R159: a late sheet takes effect; its records whose starts have been reached are misses (LATE_SHEET). Where thermal enforcement holds its
boundary it waits (R367). Of two with one effect tick each takes force in turn (DESIGN CHOICE, log 86). -/
def execLateSheetTakesEffect (t : Nat) (b : Fin 16) (s : State) : Host.Outcome State Fault Refusal :=
  let s1 := s.upTo t
  match dueSheets s1.brushes[b].queue with
  | h :: _ =>
    match h.boundary with
    | some c =>
      if s1.isOn (Pg.BRUSH b) ∧ h.late ∧ s1.past h.eff then
        if s1.heldAt c ∧ ¬ h.medium then done s (s1.holdSheet b c)
        else
        let s2 := s1.beginSheet b c
        let l := (s2.lateRecs b h.seq h.eff).filter fun u => (s2.decOf b u).isNone
        doneSeq s (s2.each l fun s u =>
          if s.isOn (Pg.BRUSH b) then s.skipRec b u (some (Sticky.BRUSH_LATE_SHEET, Reg.BRUSH_LATE_SHEETS)) (some (h.eff + 32000)) else s) b
      else done s s1
    | none => done s s1
  | [] => done s s1

/-- R156, R158: a header arrives and is checked. A failed check faults the brush at the next frame start; otherwise the sheet waits for its
boundary, and the paths go on with it. The first sheet of a chain without PEN_SET leaves the pen unpredictable: a free value (R182). -/
def execHeaderFetched (t : Nat) (b : Fin 16) (s : State) : Host.Outcome State Fault Refusal :=
  let s1 := s.upTo t
  doneDma s (match s1.brushes[b].hdrFetch with
  | some a =>
    if ¬ (s1.isOn (Pg.BRUSH b) ∧ s1.dramOn) then s1
    else if s1.dramBad a 832 ∨ ¬ headerOk (s1.bytes a 832) then s1.setBrush b fun x => { x with hdrFetch := none, badHeader := true }
    else
      let seq := s1.brushes[b].seq + 1
      let h := s1.readSheet b a seq
      let h := if h.medium then h else { h with anchor := (h.anchor + s1.brushes[b].stretch) % 2 ^ 48 }
      let h := if h.medium then h else setBoundary s1.now (near48 s1.now h.anchor) h
      let first := s1.brushes[b].newest.isNone
      let noPen := s1.brushes[b].chain && s1.brushes[b].queue.isEmpty && h.takesPart && !h.penSet
      let h := if noPen then { h with penSet := true, pen := freePoint s1.freeCtr } else h
      let s2 := (if noPen then s1.takeFree.takeFree.takeFree else s1).setBrush b fun x => { x with
        hdrFetch := none, seq := seq, queue := x.queue ++ [h], pollFrame := frameOf s1.now,
        pathA := if first then { sheet := seq } else s1.pathNext b x.pathA, pathB := if first then { sheet := seq } else s1.pathNext b x.pathB,
        entry := if first then { sheet := seq, am := h.aM } else x.entry }
      ((s2.targets b).endIfLate b).tryNext b
  | none => s1)

/-- R353: a host write of `[a, a + n)` in the CLK_CORE cycle in which a brush has read NEXT is seen by that read. -/
def State.nextSees (s : State) (a n : Nat) : State :=
  s.each allBrushes fun s b =>
    match s.brushes[b].newest, s.brushes[b].pollAt with
    | some h, some k =>
      if h.next = 0 ∧ k / 16 = s.now / 16 ∧ h.addr < a + n ∧ a < h.addr + 64 ∧ s.readNext h.addr ≠ 0 then
        ((s.setBrush b fun x => x.onSheet h.seq fun k => { k with next := s.readNext h.addr }).setB (Pg.BRUSH b) Reg.BRUSH_STATUS_CHAIN_ENDED
          false).tryNext b
      else s
    | _, _ => s

/-- R356, R398: both controllers serve again: what the fetch paths had asked for is asked for anew. -/
def State.askAgain (s : State) : State :=
  s.each allBrushes fun s b =>
    let p := Pg.BRUSH b
    let x := s.brushes[b]
    let s1 := match x.hdrFetch with | some a => s.dramRead 0 p a 832 | none => s
    s1.each ((x.pathA.blocks ++ x.pathB.blocks).filter fun k => k.arrived.isNone) fun s k =>
      match s.sheetOf b k.sheet with
      | some h => s.dramRead 0 p (h.list + k.blk * 2048) (32 * min 64 (h.records - k.blk * 64))
      | none => s

/-- R158: NEXT is read once every 64 frames while it is 0. -/
def execNextPoll (t : Nat) (b : Fin 16) (s : State) : Host.Outcome State Fault Refusal :=
  let s1 := s.upTo t
  let x := s1.brushes[b]
  doneDma s (match x.newest with
  | some h => if s1.isOn (Pg.BRUSH b) ∧ s1.dramOn ∧ h.next = 0 ∧ x.pollFrame + 64 ≤ frameOf s1.now then (s1.rereadNext b).tryNext b else s1
  | none => s1)

/-! ### Settle checks (R180) -/

/-- The result entry of axis `a` for engine frame `m` (R236). -/
def resultEntry (m a : Nat) : Nat := xchBank + 0x1000 + m % 2 * 0x800 + a * 0x20

/-- The owner reads of a settle check (R339). -/
def settleReads (b : Fin 16) (n : Nat) : List (Nat × Nat) := [0, 1].map fun k => (resultEntry n (3 * b + k), 0x20)

/-- Both mirror axes of brush `b` are within SETTLE_TOL in the results of engine frame `n` (R180, R236). -/
def State.settled (s : State) (b : Fin 16) (n : Nat) : Bool :=
  [0, 1].all fun k =>
    let e := resultEntry n (3 * b + k)
    !s.bad e 0x20 && s.rd e 4 == n % 2 ^ 32 && decide ((s.rdS (e + 0x0C) 4).natAbs ≤ s.a (Pg.BRUSH b) Reg.BRUSH_SETTLE_TOL)

/-- Change the decision taken of a record. -/
def State.onDec (s : State) (b : Fin 16) (u : Up) (g : Dec → Dec) : State :=
  s.setBrush b fun x => { x with decs := x.decs.map fun d => if d.sheet = u.sheet ∧ d.ord = u.ord then g d else d }

/-- R178: a record is withdrawn from the frame start `f` on, and skipped. In BALANCED the next emitting record is then checked too (R179): one that
has been decided, or the next to be. -/
def State.withdraw (s : State) (b : Fin 16) (u : Up) (ups : List Up) (f : Nat) : State :=
  let p := Pg.BRUSH b
  let s1 := s.onDec b u fun d => { d with skip := true, wF := some f, pend := false }
  let s2 := ((s1.sticky! p Sticky.BRUSH_UNSETTLED).inc p Reg.BRUSH_UNSETTLED).missed b u none
  if s2.isOn p ∧ s2.brushMode b = 1 then
    match ups.find? fun v => before u.ts v.ts && v.r.emits && (match s2.decOf b v with | some d => !d.skip | none => false) with
    | some v => (s2.onDec b v fun d => { d with need := true }).setBrush b fun x => { x with settleNext := s.brushes[b].settleNext }
    | none => s2
  else s2

/-- The settle checks at the exchange cut of frame `n`. -/
def State.settleChecks (s : State) (b : Fin 16) (n : Nat) : State :=
  let f := t0 (n + 1)
  let ups := s.upsOf b (s.timeline b)
  let ok := (s.xchSees 1).settled b n
  let l := ups.filter fun u => reached u.ts f && before u.ts ((f + 16000 : Nat) : Int)
  let read := l.any fun u => match s.decOf b u with | some d => d.pend && d.checked (s.brushMode b) | none => false
  ((if read then s.ownerReads (settleReads b n) else s).each l fun s u =>
    match s.decOf b u with
    | some d =>
      if d.pend ∧ s.isOn (Pg.BRUSH b) then
        if ok ∨ ¬ d.checked (s.brushMode b) then s.onDec b u fun d => { d with pend := false } else s.withdraw b u ups f
      else s
    | none => s).showRun b

/-! ### The field-correction grid (R140 to R142) -/

/-- R142: the grid of set `g` of brush `b` at a canvas point, and whether it clamps. -/
def State.gridMap (s : State) (b g : Nat) (c : P3) : P3 × Bool :=
  let a := gridSlot b g
  let zs := bits (s.rd a 4) 24 5
  let sh := bits (s.rd a 4) 16 5
  let span : Int := 128 * 2 ^ sh
  let u := c.x - s.rdS (a + 4) 4
  let v := c.y - s.rdS (a + 8) 4
  let w := c.z - s.rdS (a + 12) 4
  let outside := decide (u < 0 ∨ span < u ∨ v < 0 ∨ span < v ∨ w < 0 ∨ 2 ^ zs < w)
  let u := clampI u 0 span
  let v := clampI v 0 span
  let w := clampI w 0 (2 ^ zs)
  let i := min (u / 2 ^ sh).toNat 127
  let j := min (v / 2 ^ sh).toNat 127
  let fa := rnd ((u - i * 2 ^ sh) * 65536) sh
  let fb := rnd ((v - j * 2 ^ sh) * 65536) sh
  let fw := rnd (w * 65536) zs
  let node (i j o k : Nat) : Int := s.rdS (a + 0x40 + 20 * (j * 129 + i) + o) k * (if k = 2 then 2 ^ 10 else 1)
  let plane (o k : Nat) : Int :=
    let top := node i j o k * (65536 - fa) + node (i + 1) j o k * fa
    let bot := node i (j + 1) o k * (65536 - fa) + node (i + 1) (j + 1) o k * fa
    rnd (top * (65536 - fb) + bot * fb) 32
  let out (o0 o1 k : Nat) : Int := rnd (plane o0 k * (65536 - fw) + plane o1 k * fw) 16
  (⟨out 0 8 4, out 4 12 4, out 16 18 2⟩, outside)

/-! ### Set-points (R164, R165) -/

/-- Write the set-point entry of brush `b` for engine frame `m`. -/
def State.writeSp (s : State) (b : Fin 16) (m : Nat) (q : P3) (flags : Nat) : State :=
  let a := xchBank + m % 2 * 0x200 + b * 0x20
  let s1 := s.xchWrites 1 [(a, 4, q.x), (a + 4, 4, q.y), (a + 8, 4, q.z), (a + 12, 4, m), (a + 16, 4, flags), (a + 20, 4, 0), (a + 24, 8, 0)]
  s1.setBrush b fun x => { x with prevSp := x.lastSp, lastSp := q, spFrame := m }

/-- A set-point the spec calls unpredictable: three free values. -/
def State.freeSp (s : State) (b : Fin 16) (m flags : Nat) : State :=
  s.takeFree.takeFree.takeFree.writeSp b m (freePoint s.freeCtr) flags

/-- The limits of a parking axis. -/
def State.parkLim (s : State) (b : Fin 16) (k : Nat) : Lim := s.limSet b (s.f (Pg.BRUSH b) Reg.BRUSH_START_CFG_PARK_LIMIT_SET) (k == 2)

/-- All three axes of brush `b` are ON, or STOPPING and still computing on their set-point source (R183, R239). -/
def State.axesServe (s : State) (b : Fin 16) : Bool :=
  (List.finRange 3).all fun (k : Fin 3) =>
    let a : Fin 64 := ⟨3 * b + k, by omega⟩
    let st := s.st (Pg.AXIS a)
    st == stOn || (st == stStopping && s.axes[a].left.isNone)

/-- The next parking set-point (R253); a zero limit leaves it unpredictable. -/
def State.parkSp (s : State) (b : Fin 16) (m : Nat) : State :=
  let q := s.parkPos b
  let x := s.brushes[b]
  let g0 := parkStep (s.parkLim b 0) (q.x * 2 ^ 24) 8 (x.park[0], false)
  let g1 := parkStep (s.parkLim b 1) (q.y * 2 ^ 24) 8 (x.park[1], false)
  let g2 := parkStep (s.parkLim b 2) (q.z * 2 ^ 24) 8 (x.park[2], false)
  if (s.parkLim b 0).ok ∧ (s.parkLim b 2).ok then
    (s.setBrush b fun x => { x with park := #v[g0.1, g1.1, g2.1], parkDone := g0.2 && g1.2 && g2.2 }).writeSp b m
      ⟨rnd g0.1.pos 24, rnd g1.1.pos 24, rnd g2.1.pos 24⟩ 3
  else s.freeSp b m 3

/-- The set-point of an ON brush with a sheet in force at t_a: the sheet point through the transform and the grid (R139, R164). -/
def State.sheetSp (s : State) (b : Fin 16) (m : Nat) (g : Leg) (tA : Nat) : State :=
  let p := Pg.BRUSH b
  let pt := match g.up with
    | some u => if s.skipped b u ∧ ¬ s.brushes[b].pathA.holdsUp u then some u.pen else s.pointOf b u tA
    | none => some g.pen
  match pt.bind fun q => s.canvas (s.mediumAt 33920) g.am q with
  | none => s.freeSp b m 1
  | some (c, hit) =>
    let (q, out) := s.gridMap b g.sheet.gridSet c
    let s1 := if hit then s.sticky! Pg.MEDIUM Sticky.MEDIUM_CANVAS_SAT else s
    let s2 := if out then s1.sticky! p Sticky.BRUSH_GRID_OUTSIDE else s1
    let s3 := if out ∧ ¬ s.brushes[b].outside then s2.ev! p Ev.BRUSH_GRID_OUTSIDE else s2
    (s3.setBrush b fun x => { x with outside := out }).writeSp b m q (1 + 8 * b2n out)

/-- R164: the set-point of brush `b` computed in frame `n`, for t_a = t0 + 33,920, by the brush's state. -/
def State.setpoint (s : State) (n : Nat) (b : Fin 16) : State :=
  let p := Pg.BRUSH b
  let m := n + 1
  if s.brushes[b].spFrame = m then s
  else match s.st p with
  | 1 => (s.writeSp b m (s.parkPos b) 3).setBrush b fun x => { x with parkSet := x.started }
  | 2 =>
    match s.legFor b (s.timeline b) (t0 n + 33920) with
    | some (g, k) => s.sheetSp b m g k
    | none => (s.setBrush b fun x => { x with outside := false }).writeSp b m (s.parkPos b) 3
  | 3 => if s.axesServe b then s.parkSp b m else s.writeSp b m (s.parkPos b) 3
  | 4 => s.writeSp b m s.brushes[b].lastSp 5
  | _ => s.xchWrite 1 (xchBank + m % 2 * 0x200 + b * 0x20 + 16) 4 0

/-- The reads of the brush bank that the set-point makes outside the windows, checked (R339): the header and four node columns of the grid in
use, the limit set of parking. -/
def State.seqReads (s : State) (n : Nat) (b : Fin 16) : State :=
  match s.st (Pg.BRUSH b) with
  | 2 =>
    match s.legFor b (s.timeline b) (t0 n + 33920) with
    | none => s
    | some (g, tA) =>
      let a := gridSlot b g.sheet.gridSet
      let sh := bits (s.rd a 4) 16 5
      let pt := match g.up with
        | some u => s.pointOf b u tA
        | none => some g.pen
      let cell : Nat × Nat := match pt.bind fun q => s.canvas (s.mediumAt 33920) g.am q with
        | some (c, _) =>
          (min ((clampI (c.x - s.rdS (a + 4) 4) 0 (128 * 2 ^ sh)) / 2 ^ sh).toNat 127, min ((clampI (c.y - s.rdS (a + 8) 4) 0 (128 * 2 ^ sh)) / 2 ^ sh).toNat 127)
        | none => (0, 0)
      let node (k : Nat) : Nat := a + 0x40 + 20 * ((cell.2 + k) * 129 + cell.1)
      let jump := match g.up with
        | some u => if u.r.op = opJump then [(limitSet b (u.r.oparg % 4), 0x30)] else []
        | none => []
      s.ownerReads ([(a, 16), (node 0, 40), (node 1, 40)] ++ jump)
  | 3 => s.ownerReads [(limitSet b (s.f (Pg.BRUSH b) Reg.BRUSH_START_CFG_PARK_LIMIT_SET), 0x30)]
  | _ => s

/-- The set-points of frame `n`. -/
def State.setpoints (s : State) (n : Nat) : State :=
  if s.domOn 3 then s.each allBrushes fun s b => (if s.memErr.isEmpty then s else s.seqReads n b).setpoint n b else s

/-- The set-points of a frame wait for its estimator update, where the medium moves and the estimator runs (R160, R192). -/
def State.spWaits (s : State) : Bool := s.moving && s.st Pg.MEDIUM != stOff

/-! ### The stroke log (R185) -/

/-- The stroke index in progress at tick `t`, from the log; 2^32 - 1 where R185 gives none. -/
def Brush.strokeAt (x : Brush) (t : Nat) : Nat :=
  match x.log.find? fun e => reached t e.1 with
  | some e => e.2
  | none => 0xFFFFFFFF

/-- STROKE_INDEX at the frame start `f`: the log's answer while a sheet is in force. -/
def State.showStroke (s : State) (b : Fin 16) (f : Nat) : State :=
  let x := s.brushes[b]
  s.setF (Pg.BRUSH b) Reg.BRUSH_STROKE_INDEX (if x.force.isSome then x.strokeAt f else 0xFFFFFFFF)

/-! ### Life cycle (R181, R183) -/

/-- What each sequencer does at a frame start, before its set-point: a bad header faults, STARTING counts the frames that begin once SYS is ON and
park set-points have been written (R181), decisions are taken, STROKE_INDEX is read from the log. -/
def State.brushFrame (s : State) (n : Nat) (b : Fin 16) : State :=
  let p := Pg.BRUSH b
  let s0 := if s.brushes[b].badHeader then (s.sheetBad b s.now).setBrush b fun x => { x with badHeader := false } else s
  match s0.st p with
  | 1 =>
    if s0.brushes[b].parkSet then
      let k := s0.brushes[b].startFrames + 1
      let s1 := s0.setBrush b fun x => { x with startFrames := k }
      if s0.f p Reg.BRUSH_START_CFG_START_FRAMES < k then s1.toOn p else s1
    else s0
  | 2 => ((s0.when (s0.unfinished b) fun s => s.proceed b).missDecisions b (t0 n)).showStroke b (t0 n)
  | 3 => s0.setBrush b fun x => { x with parkFrames := x.parkFrames + 1 }
  | 4 => s0.showStroke b (t0 n)
  | _ => s0

/-- The rule that a record decided on time and not yet ended breaks, if any (R168, R205, R209). -/
def State.listBreach (s : State) (b : Fin 16) : Option Nat :=
  if s.isOn (Pg.BRUSH b) then
    ((s.upsOf b (s.timeline b)).filter fun u => !s.over u && (match s.decOf b u with | some d => !d.skip | none => false)).findSome?
      (s.recBreach b)
  else none

/-- What each sequencer does at an exchange cut: settle checks, the parking count, and the edges of the next frame. -/
def State.brushCut (s : State) (n : Nat) (b : Fin 16) : State :=
  match s.st (Pg.BRUSH b) with
  | 2 => (s.settleChecks b n).loadEdges b (t0 (n + 1))
  | 3 => (s.ownerReads (settleReads b n)).setBrush b fun x => { x with parkOk := if x.parkDone ∧ (s.xchSees 1).settled b n then x.parkOk + 1 else 0 }
  | _ => s

/-- R183: parking has arrived and settled for 4 cuts, or an axis no longer serves, and the brush's STOPPING ends. -/
def execParkEnd (t : Nat) (b : Fin 16) (s : State) : Host.Outcome State Fault Refusal :=
  let s1 := s.upTo t
  let p := Pg.BRUSH b
  done s (if s1.st p = stStopping then
    if ¬ s1.axesServe b then (s1.writeSp b (frameOf (s1.now + 960) + 1) (s1.parkPos b) 3).toOff p
    else if s1.brushes[b].parkDone ∧ 4 ≤ s1.brushes[b].parkOk then s1.toOff p
    else s1
  else s1)

/-- R183: PARK_TIMEOUT frames have passed before parking ended. -/
def execParkTimeout (t : Nat) (b : Fin 16) (s : State) : Host.Outcome State Fault Refusal :=
  let s1 := s.upTo t
  let p := Pg.BRUSH b
  done s (if s1.st p = stStopping ∧ s1.axesServe b ∧ s1.f p Reg.BRUSH_START_CFG_PARK_TIMEOUT ≤ s1.brushes[b].parkFrames then
    (s1.sticky! p Sticky.BRUSH_PARK_TIMEOUT).toOff p
  else s1)

end Sys2Proof.Machine
end

