-- ==== Sys2Proof/Machine/Glaze.lean ====
section
/-! DEFINITION. Seam and window weights and the in-flight power correction (spec/10_moving_medium.md, R199 to R201; spec/15_glaze.md, R288 to
R298). -/

namespace Sys2Proof.Machine


/-! ### Weights (R194, R199, R200) -/

/-- R200: a scheduled power under a seam at seam position `q`. -/
def seamWeight (k : Seam) (q : Int) (p : Nat) : Nat :=
  let d := sdiff48 q k.o
  let w : Nat := if d < 0 then 0 else if reached q k.c then 65536 else (tdiv (d * 65536) (sdiff48 k.c k.o)).toNat
  let f := p * w / 65536
  if k.out then p - f else f

/-- R199: `q` lies in the half-open window. -/
def inWindow (q o c : Int) : Bool := decide (0 ≤ sdiff48 q o ∧ sdiff48 q c < 0)

/-- The brush's medium window is checked and excludes the latch, or the mahlstick is not in force (R194, R199). -/
def State.windowOut (s : State) (b : Fin 16) (am q : Int) : Bool :=
  let p := Pg.MEDIUM
  s.moving && (!s.inForce ||
    (s.ab p (Reg.MEDIUM_WIN_WEN.num b) &&
      !inWindow (sdiff48 q am) (signed 48 (s.actPair p (Reg.MEDIUM_WIN_OPEN_LO.num b) (Reg.MEDIUM_WIN_OPEN_HI.num b)))
        (signed 48 (s.actPair p (Reg.MEDIUM_WIN_CLOSE_LO.num b) (Reg.MEDIUM_WIN_CLOSE_HI.num b)))))

/-- The weighted power of a latch, with WINDOW_OUT counted where the window takes it. -/
def State.weigh (s : State) (b : Fin 16) (tL : Nat) (d : Sched) : State × Nat :=
  if d.rule = 1 ∨ d.rule = 2 then
    let q := s.seamPos tL
    let am := match d.leg with | some g => g.am | none => 0
    let p := match d.up.bind fun u => u.seam with | some k => seamWeight k q d.power | none => d.power
    if s.windowOut b am q then
      (if d.power = 0 then s
       else ((s.inc Pg.MEDIUM Reg.MEDIUM_WINDOW_OUT).sticky! Pg.MEDIUM Sticky.MEDIUM_WINDOW_OUT).ev! Pg.MEDIUM Ev.MEDIUM_WINDOW_OUT, 0)
    else (s, p)
  else (s, d.power)

/-! ### Tables (R289, R290) -/

/-- The parameters of a class. -/
structure ClassPar where
  metric : Nat
  roi : Nat
  shift : Nat
  pdShift : Nat
  load : Bool
  trimEn : Bool
  mLo : Nat
  pdLo : Nat
  target : Nat
  kt : Nat
  trimLim : Nat
  trimInit : Int
  rate : Nat
  fMax : Nat
  fMin : Nat
  deriving DecidableEq, Repr

/-- A class the host must not write: a reserved METRIC or TRIM_LIM, a TRIM_INIT beyond TRIM_LIM, or F_MIN above F_MAX (R290). -/
def ClassPar.bad (q : ClassPar) : Bool :=
  decide (4 < q.metric) || decide (16383 < q.trimLim) || decide (q.trimLim < q.trimInit.natAbs) || decide (q.fMax < q.fMin)

/-- The host addresses of the block of class `c`, and of its factor for bin `k`, in glaze set `g` of brush `b` (R289). -/
def classAt (b : Fin 16) (g c : Nat) : Nat := glzSlot b g + 0x40 + 32 * c
def factorAt (b : Fin 16) (g c k : Nat) : Nat := glzSlot b g + 0x400 + 128 * c + 2 * k

/-- Class `c` of glaze set `g` of brush `b`. -/
def State.classPar (s : State) (b : Fin 16) (g c : Nat) : ClassPar :=
  let a := classAt b g c
  let w := s.rd a 4
  { metric := bits w 28 4, roi := bits w 24 3, shift := bits w 16 5, pdShift := bits w 8 5, load := bit w 1, trimEn := bit w 0,
    mLo := s.rd (a + 4) 4, pdLo := s.rd (a + 10) 2, target := s.rd (a + 12) 4, kt := s.rd (a + 18) 2, trimLim := s.rd (a + 16) 2,
    trimInit := s.rdS (a + 22) 2, rate := s.rd (a + 20) 2, fMax := s.rd (a + 26) 2, fMin := s.rd (a + 24) 2 }

/-- The factor of a class and bin. -/
def State.factor (s : State) (b : Fin 16) (g c k : Nat) : Nat := s.rd (factorAt b g c k) 2

/-- The trims shown (R293). -/
def State.setTrim (s : State) (b : Fin 16) (c : Fin 16) (v : Int) : State :=
  (s.setGlaze b fun x => { x with trims := x.trims.set c v }).setFi (Pg.GLAZE b) (Reg.GLAZE_TRIM.num c) v

/-- The LOAD classes of set `g` take TRIM_INIT; a class that R290 does not allow takes a free value. -/
def State.loadTrims (s : State) (b : Fin 16) (g : Nat) : State :=
  (s.ownerReads [(glzSlot b g + 0x40, 512)]).each (List.finRange 16) fun s (c : Fin 16) =>
    let q := s.classPar b g c
    if ¬ q.load then s
    else if q.bad then s.takeFree.setTrim b c (signed 32 (Config.freeValue s.freeCtr).toNat)
    else s.setTrim b c (q.trimInit * 2 ^ 10)

/-- R294: a set that a boundary brings into use loads its trims before the first latch of the sheet. After STARTING no set is in use until the first
boundary: the set of a sheet that was in force already loads nothing, and the next boundary loads its own, the same set or not. -/
def State.glazeSet (s : State) (b : Fin 16) (h : Sheet) : State :=
  let g := h.glzSet
  let note (use : Bool) (s : State) : State := s.setGlaze b fun x => { x with setUsed := some (h.seq, g, use) }
  match s.glazes[b].setUsed with
  | some (sh, k, use) => if sh = h.seq then s else note true (if k = g ∧ use then s else s.loadTrims b g)
  | none => if reached h.eff (s.entered (Pg.GLAZE b)) then note true (s.loadTrims b g) else note false s

/-! ### Drift trim (R293) -/

/-- One class of a record that closes. -/
def State.closeClass (s : State) (b : Fin 16) (g : Nat) (c : Fin 16) : State :=
  let p := Pg.GLAZE b
  let x := s.glazes[b]
  if x.en[c] = 0 then s
  else
    let s := s.ownerReads [(classAt b g c, 32)]
    let q := s.classPar b g c
    let lim : Int := q.trimLim * 2 ^ 10
    let v := x.trims[c] + rnd (tdiv x.esum[c] x.en[c] * q.kt) 8
    let s1 := (s.setTrim b c (clampI v (-lim) lim)).inc p Reg.GLAZE_TRIM_UPDATES
    if clampI v (-lim) lim = v then s1
    else ((s1.inc p Reg.GLAZE_TRIM_LIMITS).sticky! p Sticky.GLAZE_TRIM_SAT).ev! p Ev.GLAZE_TRIM_LIMIT

/-- The accumulators back to 0. -/
def State.clearAcc (s : State) (b : Fin 16) : State :=
  s.setGlaze b fun x => { x with esum := Vector.replicate 16 0, en := Vector.replicate 16 0, openRec := none }

/-- The set whose class parameters act: that of the sheet in force at the latch, or of the latest one. -/
def State.glazeSetOf (s : State) (b : Fin 16) : Nat := match s.glazes[b].setUsed with | some k => k.2.1 | none => 0

/-- R293: the open record closes at the first latch with u at or past its end; one cut at a boundary or withdrawn closes without an update. -/
def State.closeRecord (s : State) (b : Fin 16) (u : Int) : State :=
  let close (s : State) : State := (s.each (List.finRange 16) fun s c => s.closeClass b (s.glazeSetOf b) c).clearAcc b
  match s.glazes[b].openRec with
  | none => s
  | some (sh, o, e) =>
    match (s.upsOf b (s.timeline b)).find? fun x => x.sheet == sh && x.ord == o with
    | none => if reached u e then close s else s
    | some x =>
      if s.skipped b x then s.clearAcc b
      else if reached u x.er then (if x.er ≠ x.ts + x.dur then s.clearAcc b else close s)
      else s

/-! ### The word of a latch (R173, R291, R292) -/

/-- R173: the power word of the latch at `tL`. -/
def powerWord (tL : Nat) (emit : Bool) (p : Nat) : Nat :=
  let top := 0x80 + tL / 8000 % 4 * 16 + b2n emit * 8
  top * 2 ^ 24 + p * 2 ^ 8 + (top ^^^ (p / 256) ^^^ (p % 256))

/-- Camera fallback applies (R291). -/
def State.camFallback (s : State) (b : Fin 16) : Bool :=
  s.noCamera || s.ab (Pg.GLAZE b) Reg.GLAZE_GLAZE_CFG_FORCE_PD

/-- A held record is fresh for the latches computed in frame `n` (R291). -/
def State.metFresh (s : State) (b : Fin 16) (n : Nat) (m : MetHeld) : Bool :=
  decide (m.frame ≤ n ∧ n < m.frame + s.a (Pg.GLAZE b) Reg.GLAZE_GLAZE_CFG_CAM_AGE)

/-- The metric of a latch: none where it is missing; whether it is a fallback metric. -/
def State.metric (s : State) (b : Fin 16) (n : Nat) (half : Bool) (q : ClassPar) : Option Nat × Bool :=
  let h := s.heads[b]
  let pd := match (if half then h.pdB else h.pdA) with | some (f, v) => (if f = n then some v else none) | none => none
  if q.metric = 0 then (some 0, false)
  else if q.metric = 1 then (pd, false)
  else if s.camFallback b then (pd, true)
  else
    match s.glazes[b].held.toList.getD q.roi none with
    | some m => (if s.metFresh b n m then some (if q.metric = 2 then m.area else if q.metric = 3 then m.peak else m.integral) else none, false)
    | none => (none, false)

/-- A missing metric is counted (R292, R298). -/
def State.missMetric (s : State) (b : Fin 16) (q : ClassPar) (fb : Bool) : State :=
  let p := Pg.GLAZE b
  let s1 := if q.metric = 1 ∨ fb then (s.inc p Reg.GLAZE_PD_MISSING).sticky! p Sticky.GLAZE_PD_MISSING
    else (s.inc p Reg.GLAZE_MET_STALE).sticky! p Sticky.GLAZE_MET_STALE
  let s2 := s1.setGlaze b fun x => { x with miss := min (x.miss + 1) 7 }
  if s2.glazes[b].miss < 4 then s2.ev! p Ev.GLAZE_HOLD
  else
    let s3 := if s2.glazes[b].back then s2 else (s2.inc p Reg.GLAZE_FALLBACKS).setGlaze b fun x => { x with back := true }
    s3.ev! p Ev.GLAZE_FALLBACK

/-- The factor moves towards `ft` within its bounds (R292). -/
def State.moveFactor (s : State) (b : Fin 16) (q : ClassPar) (ft : Int) : State :=
  let p := Pg.GLAZE b
  let f : Int := s.glazes[b].f
  let d := clampI (ft - f) (-q.rate) q.rate
  let s1 := if d = ft - f then s else s.sticky! p Sticky.GLAZE_RATE_LIMIT
  let f' := min (max (f + d) q.fMin) q.fMax
  let s2 := if f' = f + d then s1 else (s1.inc p Reg.GLAZE_FACTOR_CLAMPS).sticky! p Sticky.GLAZE_FACTOR_CLAMP
  (s2.setGlaze b fun x => { x with f := f'.toNat }).setF p Reg.GLAZE_STATUS_FACTOR f'.toNat

/-- What the recorder adds up of a latch (R371). -/
def State.glazeAcc (s : State) (b : Fin 16) (bin : Option Nat) : State :=
  let o := 0x40 + 160 * b.val
  let f := s.glazes[b].f
  let s1 := ((s.accExt (o + 0x14) 2 false false f).accExt (o + 0x16) 2 false true f).accAdd (o + 0x18 + 4 * min (f / 2 ^ 11) 15) 4 1
  match bin with
  | some k => s1.accAdd (o + 0x58 + 4 * (k / 4)) 4 1
  | none => s1

/-- R293: a latch under rule 1 accumulates its error. -/
def State.accumulate (s : State) (b : Fin 16) (q : ClassPar) (c : Fin 16) (d : Sched) (p m : Nat) (fb : Bool) : State :=
  match d.up with
  | some u =>
    if d.rule = 1 ∧ 0 < p ∧ ¬ d.trimSkip ∧ 1 ≤ q.metric ∧ ¬ fb ∧ q.trimEn ∧ ¬ s.ab (Pg.GLAZE b) Reg.GLAZE_GLAZE_CFG_TRIM_FREEZE ∧
       s.glazes[b].en[c] < 65535 then
      s.setGlaze b fun x => { x with esum := x.esum.set c (x.esum[c] + q.target - m), en := x.en.set c (x.en[c] + 1), openRec := some (u.sheet, u.ord, u.ts + u.dur) }
    else s
  | none => s

/-- The factor and the power of a latch whose class R290 does not allow: free values. -/
def State.freeLatch (s : State) (b : Fin 16) : State × Nat :=
  let f := (Config.freeValue s.freeCtr).toNat % 2 ^ 16
  (((s.takeFree.setGlaze b fun x => { x with f := f }).setF (Pg.GLAZE b) Reg.GLAZE_STATUS_FACTOR f).takeFree,
    (Config.freeValue (s.freeCtr + 1)).toNat % 2 ^ 16)

/-- R292 under rule 1 or 2, for the weighted power `p`: the state after it and the word's power. -/
def State.glazeLatch (s0 : State) (b : Fin 16) (n : Nat) (half : Bool) (d : Sched) (p : Nat) : State × Nat :=
  let pg := Pg.GLAZE b
  let g := s0.glazeSetOf b
  let c : Fin 16 := ⟨d.cls % 16, Nat.mod_lt _ (by decide)⟩
  let s := s0.ownerReads [(classAt b g c, 32)]
  let q := s.classPar b g c
  let (m, fb) := s.metric b n half q
  let s1 := if q.metric = 0 then s
    else match m with
      | none => s.missMetric b q fb
      | some _ => s.setGlaze b fun x => { x with miss := 0, back := false }
  let x := s1.glazes[b]
  let (ft, bin) : Int × Nat := match m with
    | none => (if x.miss < 4 then (x.f : Int) else 16384, s1.f pg Reg.GLAZE_STATUS_BIN)
    | some v =>
      let lo : Int := if fb then q.pdLo else q.mLo
      let k := if q.metric = 0 then 0 else (clampI (((v : Int) - lo) / 2 ^ (if fb then q.pdShift else q.shift)) 0 63).toNat
      (rnd (s1.factor b g c k * (16384 + rnd x.trims[c] 10)) 14, k)
  let s2 := (if m.isSome then s1.ownerReads [(factorAt b g c bin, 2)] else s1).moveFactor b q ft
  let pw := (rnd (p * s2.glazes[b].f) 14).toNat
  let top := s2.a pg Reg.GLAZE_GLAZE_CFG_POWER_MAX
  let s3 := if top < pw then (s2.inc pg Reg.GLAZE_POWER_CLAMPS).sticky! pg Sticky.GLAZE_POWER_CLAMP else s2
  let s4 := ((((s3.inc pg Reg.GLAZE_LATCHES).setF pg Reg.GLAZE_STATUS_CLASS c).setF pg Reg.GLAZE_STATUS_BIN bin).setF pg Reg.GLAZE_STATUS_MISS
    s3.glazes[b].miss).setB pg Reg.GLAZE_STATUS_FALLBACK s3.glazes[b].back
  let s5 := (match m with | some v => s4.accumulate b q c d p v fb | none => s4).glazeAcc b (if q.metric = 0 then none else m.map fun _ => bin)
  if q.bad then s5.freeLatch b else (s5, min pw top)

/-- Fallback begins or ends (R291). -/
def State.camLost (s : State) (b : Fin 16) : State :=
  let p := Pg.GLAZE b
  let v := s.camFallback b
  let s1 := s.setGlaze b fun x => { x with fallback := v }
  if v ∧ ¬ s.glazes[b].fallback then (s1.ev! p Ev.GLAZE_CAM_LOST).sticky! p Sticky.GLAZE_CAM_LOST else s1

/-- Glaze works: the set of the sheet in force at the latch comes into use before its first latch, a record that is due closes, and the word's power
is formed (R292 to R294). -/
def State.glazeOn (s : State) (b : Fin 16) (n : Nat) (half : Bool) (u : Int) (d : Sched) (p : Nat) : State × Nat :=
  let s1 := s.camLost b
  let s2 := (match d.leg with
    | some g => if g.sheet.takesPart then s1.glazeSet b g.sheet else s1
    | none => s1).closeRecord b u
  if d.rule = 0 then (s2, 0)
  else if d.rule = 3 then (s2, s2.a (Pg.LASER b) Reg.LASER_IDLE_POWER)
  else s2.glazeLatch b n half d p

/-- A word that glaze forms while its page is not ON: the power unchanged (R295); the words of rules 1 and 2 count, with their class (R298). -/
def State.glazeOff (s : State) (b : Fin 16) (d : Sched) (p : Nat) : State × Nat :=
  let pg := Pg.GLAZE b
  if d.rule = 0 then (s, 0)
  else if d.rule = 3 then (s, s.a (Pg.LASER b) Reg.LASER_IDLE_POWER)
  else ((s.inc pg Reg.GLAZE_LATCHES).setF pg Reg.GLAZE_STATUS_CLASS (d.cls % 16), p)

/-- The latch of a half-frame: at t0 + 9,920, or at t0 + 17,920 for the second (R160). -/
def latchOf (n : Nat) (half : Bool) : Nat := t0 n + (if half then 17920 else 9920)

/-- R292: glaze of brush `b` forms the power word of the latch that frame `n` computes in its first or second half. -/
def execGlazeCompute (n : Nat) (half : Bool) (b : Fin 16) (s : State) : Host.Outcome State Fault Refusal :=
  let s1 := s.upTo (t0 n + (if half then 11840 else 3840))
  let tL := latchOf n half
  done s (if s1.domOn 3 then
    let d := s1.sched b tL
    let (s2, p) := s1.weigh b tL d
    let (s3, w) := if s2.isOn (Pg.GLAZE b) then s2.glazeOn b n half (s1.latchU b tL d.leg) d p else s2.glazeOff b d p
    let word := powerWord tL (d.rule == 1 || d.rule == 2) w
    s3.setLaser b fun l => { l with words := ((tL, word) :: l.words.filter fun e => e.1 != tL).take 4 }
  else s1)

/-- R279, R291: a metric record for an ROI of the brush is delivered at the start of frame `n`; while the page is OFF, as after a soft reset, it is
dropped (R284). -/
def State.holdRecord (s : State) (b : Fin 16) (roi : Nat) (m : MetHeld) (damaged : Bool) (trig : Nat) : State :=
  let p := Pg.GLAZE b
  if s.st p ≠ stOff then
    let s1 := s.inc p Reg.GLAZE_RECORDS
    if damaged then s1.inc p Reg.GLAZE_MET_DAMAGED
    else if h : roi < 8 then
      (s1.setGlaze b fun x => { x with held := x.held.set roi (some m) }).setF p Reg.GLAZE_MET_STATUS_TRIG_SEQ trig
    else s1
  else s

end Sys2Proof.Machine
end

