-- ==== Sys2Proof/Machine/Laser.lean ====
section
/-! DEFINITION. The laser ports: gate and PSYNC edges, the twin comparator, power words, READY and FAULT (spec/09_stroke_sequencer.md, R169 to
R176, R187). -/

namespace Sys2Proof.Machine

/-- R170: the two timers disagree; the brush's knife trips and BRUSH_n enters FAULT. -/
def State.twinMismatch (s : State) (b : Fin 16) (stamp : Nat) : State :=
  let p := Pg.LASER b
  ((((s.event p Ev.LASER_TWIN_MISMATCH stamp).sticky p Sticky.LASER_TWIN_MISMATCH stamp).latchCause [b] causeTwin stamp).brushFault b 4 stamp)

/-- The tolerance between paired edges (R170). -/
def State.twinTol (s : State) (b : Fin 16) : Nat := if s.brushMode b = 0 then 1 else 2

/-- The distance of two ticks. -/
def tickDiff (a b : Nat) : Nat := (sdiff48 a b).natAbs

/-- A timer's output takes the level of an edge kind. -/
def Laser.drive1 (l : Laser) (a : Bool) (k : Nat) : Laser :=
  match a, k with
  | true, 0 => { l with gA := true }
  | true, 1 => { l with gA := false }
  | true, 2 => { l with pA := true }
  | true, _ => { l with pA := false }
  | false, 0 => { l with gB := true }
  | false, 1 => { l with gB := false }
  | false, 2 => { l with pB := true }
  | false, _ => { l with pB := false }

/-- The whole cycles of `inc` that bring an accumulator back from `acc` to below `lim`. -/
def cyclesBack (acc lim : Int) (inc : Nat) : Nat := if acc < lim then 0 else ((acc - lim) / inc + 1).toNat

/-- The accumulator at the latest CLK_FAST edge below `lim` (R103): of the present rate, or of the one before it (R104). -/
def State.edgeBelow (s : State) (lim : Int) : Int :=
  let from_ : Int := (s.time.acc : Int) - wrapU 96 ((s.time.acc : Int) - s.time.rateAcc)
  let a : Int := s.time.acc - cyclesBack s.time.acc lim s.fastInc * s.fastInc
  if wrapS 96 ((s.time.acc : Int) - s.time.rateAcc) < 0 then
    let r : Int := (s.time.acc : Int) - wrapS 96 ((s.time.acc : Int) - s.time.rateAcc)
    r - (cyclesBack r lim s.oldInc * s.oldInc : Nat)
  else if a < from_ then from_ - (cyclesBack from_ lim s.oldInc * s.oldInc : Nat)
  else a

/-- R169: the CLK_FAST cycle, by its count t_k, and the tap that issue an edge crossing the ball at the present tick, for a port latency `lport`:
the last cycle whose count is reached at v' = v - L_port, and what is left. -/
def State.issueOf (s : State) (lport : Nat) : Nat × Nat :=
  let vp : Int := (s.now : Int) - lport
  let tk : Int := s.edgeBelow ((vp + 1) * 2 ^ 32) / 2 ^ 32
  (wrapU 64 tk, wrapU 4 (vp - tk))

/-- The place of a timer's output among the four of a port: GATE A, GATE B, PSYNC A, PSYNC B. -/
def outputOf (timerA : Bool) (kind : Fin 4) : Fin 4 := ⟨kind / 2 * 2 + b2n (!timerA), by cases timerA <;> simp [b2n] <;> omega⟩

/-- R169, R170: timer A or B of brush `b` issues a loaded edge of a kind, which crosses the ball at tick `t`; the comparator pairs it with the
other timer's. -/
def execGateEdge (t : Nat) (b : Fin 16) (timerA : Bool) (kind : Fin 4) (s : State) : Host.Outcome State Fault Refusal :=
  let s1 := s.upTo t
  let l := s1.lasers[b]
  let mine := if timerA then l.edgesA else l.edgesB
  done s (match mine.find? fun e => e.kind == kind.val && decide (tickDiff e.tick t ≤ 8) with
  | some e =>
    let rest := mine.erase e
    let by_ := s1.issueOf (Config.fuseLport (2 * b + kind / 2)).toNat
    let s2 := s1.setLaser b fun l =>
      { (if timerA then { l with edgesA := rest } else { l with edgesB := rest }).drive1 timerA kind with
        issued := l.issued.set (outputOf timerA kind) (some by_) }
    let s3 := match l.unpaired.find? fun q => q.1 != timerA && q.2.kind == kind.val && decide (tickDiff q.2.tick t ≤ 8) with
      | some q =>
        let d := tickDiff q.2.tick t
        let p := Pg.LASER b
        let s3 := s2.setLaser b fun l => { l with unpaired := l.unpaired.erase q }
        let s4 := if s3.f p Reg.LASER_TWIN_STATUS_MAX_DIFF < d then s3.setF p Reg.LASER_TWIN_STATUS_MAX_DIFF (satU d 8) else s3
        if s4.twinTol b < d then s4.twinMismatch b s4.now else s4
      | none => s2.setLaser b fun l => { l with unpaired := l.unpaired ++ [(timerA, ({ tick := t, kind := kind.val } : Edge))] }
    s3.pins b
  | none => s1)

/-- R170: an edge of one timer has had no partner within 8 tk. -/
def execTwinUnpairedTimeout (t : Nat) (b : Fin 16) (s : State) : Host.Outcome State Fault Refusal :=
  let s1 := s.upTo t
  done s (match s1.lasers[b].unpaired.find? fun q => decide (8 < sdiff48 s1.now q.2.tick) with
  | some q => (s1.setLaser b fun l => { l with unpaired := l.unpaired.erase q }).twinMismatch b (q.2.tick + 8)
  | none => s1)

/-- The word a burst carries: glaze's, or power 0 in STARTING and STOPPING (R174, R187). -/
def State.burstWord (s : State) (b : Fin 16) (tL : Nat) : Nat :=
  let st := s.st (Pg.LASER b)
  if st = stStarting ∨ st = stStopping then powerWord tL false 0
  else match s.lasers[b].words.find? fun e => e.1 == tL with
    | some e => e.2
    | none => powerWord tL false 0

/-- R174: the burst of the word for a latch starts 4,480 tk before it, unless LASER_n is OFF. -/
def execPowerBurstStart (n : Nat) (half : Bool) (b : Fin 16) (s : State) : Host.Outcome State Fault Refusal :=
  let tL := latchOf n half
  let s1 := s.upTo (tL - 4480)
  let p := Pg.LASER b
  done s (if s1.st p ≠ stOff ∧ ¬ (s1.st p = stStopping ∧ 2 ≤ s1.lasers[b].sent) then
    (s1.setLaser b fun l => { l with burst := some (tL, s1.burstWord b tL), bursts := (tL :: l.bursts).take 4 }).setB p Reg.LASER_PORT_STATUS_WORDS true
  else s1)

/-- R174, R187: the strobe at t_L latches the word just sent; it ends STARTING after four words, and with READY_REQ at the first later one with
READY high. STOPPING ends with the strobe of its second word. -/
def execPowerWordLatch (n : Nat) (half : Bool) (b : Fin 16) (s : State) : Host.Outcome State Fault Refusal :=
  let tL := latchOf n half
  let s1 := s.upTo tL
  let p := Pg.LASER b
  done s (match s1.lasers[b].burst with
  | some (k, w) =>
    if k = tL ∧ s1.st p ≠ stOff then
      let s2 := ((s1.setF p Reg.LASER_PORT_STATUS_LAST_POWER (bits w 8 16)).inc p Reg.LASER_WORDS_SENT).setLaser b
        fun l => { l with burst := none, strobe := some tL, sent := if s1.st p = stStopping ∧ w ≠ powerWord tL false 0 then l.sent else l.sent + 1 }
      let sent := s2.lasers[b].sent
      if s2.st p = stStarting then
        (if s2.fb p Reg.LASER_PORT_CFG_READY_REQ then (if 4 < sent ∧ s2.lasers[b].readyIn then s2.toOn p else s2)
         else if 4 ≤ sent then s2.toOn p else s2)
      else s2
    else s1
  | none => s1)

/-- R172, R174: the levels of LPW_CK and LPW_DA at the present tick: a burst sends its word's bits, most significant first, for 128 tk each with the
clock high in the second half; the strobe is high for 128 tk from t_L; otherwise, and in OFF, both are low. -/
def State.lpwPins (s : State) (b : Fin 16) : Bool × Bool :=
  let l := s.lasers[b]
  if s.st (Pg.LASER b) = stOff then (false, false)
  else
    let burst : Bool × Bool := match l.burst with
      | some (tL, w) =>
        let d := sdiff48 s.now ((tL : Int) - 4480)
        if 0 ≤ d ∧ d < 4096 then (decide (64 ≤ d % 128), w.testBit (31 - (d / 128).toNat)) else (false, false)
      | none => (false, false)
    let strobe : Bool := match l.strobe with | some tL => decide (0 ≤ sdiff48 s.now tL ∧ sdiff48 s.now tL < 128) | none => false
    (burst.1, burst.2 || strobe)

/-- R176: the filtered READY input changes. -/
def execLaserReadyChange (t : Nat) (b : Fin 16) (v : Bool) (s : State) : Host.Outcome State Fault Refusal :=
  let s1 := s.upTo t
  let p := Pg.LASER b
  let was := s1.lasers[b].readyIn
  let s2 := (s1.setLaser b fun l => { l with readyIn := v })
  done s (if ¬ s2.pageOn p ∨ was = v then s2
  else
    let s3 := s2.setB p Reg.LASER_PORT_STATUS_READY v
    if v then s3.ev! p Ev.LASER_READY_UP
    else if s3.isOn (Pg.BRUSH b) then
      let s4 := (s3.ev! p Ev.LASER_READY_LOST).inc p Reg.LASER_READY_LOSSES
      if s4.fb p Reg.LASER_PORT_CFG_READY_REQ then s4.brushFault b 7 s4.now else s4
    else s3)

/-- R176, R187: the filtered FAULT input changes; every rise counts. -/
def execLaserFaultChange (t : Nat) (b : Fin 16) (v : Bool) (s : State) : Host.Outcome State Fault Refusal :=
  let s1 := s.upTo t
  let p := Pg.LASER b
  let was := s1.lasers[b].faultIn
  let s2 := (s1.setLaser b fun l => { l with faultIn := v })
  done s (if ¬ s2.pageOn p ∨ was = v then s2
  else
    let s3 := s2.setB p Reg.LASER_PORT_STATUS_FAULT v
    let s3 := if v then s3.inc p Reg.LASER_LASER_FAULTS else s3
    if v ∧ s3.isOn (Pg.BRUSH b) then
      let s4 := s3.ev! p Ev.LASER_LASER_FAULT
      if s4.fb p Reg.LASER_PORT_CFG_FAULT_HALT then s4.brushFault b 6 s4.now else s4
    else s3)

end Sys2Proof.Machine
end

