-- ==== Sys2Proof/Machine/Servo.lean ====
section
/-! DEFINITION. The galvo servo engines of spec/12_servo.md: slots and their cost (R221 to R233), the control law (R228 to R230), overruns and
missing samples (R234, R235), results (R236), the axis life cycle (R238 to R241), trace and injection (R243, R244). -/

namespace Sys2Proof.Machine

/-! ### Inputs (R225 to R227) -/

/-- The sample entry of head `h` for a frame of parity `p` (R224). -/
def sampleEntry (p h : Nat) : Nat := servoBank + 0x40000 + p * 0x400 + h * 0x40

/-- The frame before `m`, as a 32-bit FRAME field holds it. -/
def prevFrame (m : Nat) : Nat := (m + 2 ^ 32 - 1) % 2 ^ 32

/-- The sample entry of head `h` for frame `m - 1`, where its sample A was accepted. -/
def State.headEntry (s : State) (h m : Nat) : Option Nat :=
  let e := sampleEntry ((m + 1) % 2) h
  if s.rd e 4 = prevFrame m ∧ ¬ s.bad e 0x40 then some e else none

/-- AUX_IN of head `i`, or the count of M(m - 1) of ENC_i; none where the sample is missing. -/
def State.rawInput (s : State) (enc : Bool) (i m : Nat) : Option Int :=
  if enc then
    if h : i < 4 then
      let q := s.medium
      (if q.samplesOf + 1 = m then q.samples[i] else if q.samplesOf = m then q.samplesPrev[i] else none).map fun x => signed 48 x.count
    else none
  else (s.headEntry i m).map fun e => s.rdS (e + 0x12) 2

/-- R225: the feedback y of axis `a` in engine frame `m`, and whether it was clamped. -/
def State.feedback (s : State) (a : Fin 64) (m : Nat) : Option (Int × Bool) :=
  let p := Pg.AXIS a
  if a.val < 48 then (s.headEntry (a / 3) m).map fun e => (s.rdS (e + 4 + 4 * (a % 3)) 4, false)
  else (s.rawInput (s.f p Reg.AXIS_AXIS_CFG_FB_SRC == 1) (s.f p Reg.AXIS_AXIS_CFG_FB_INST) m).map fun raw =>
    let v := s.fi p Reg.AXIS_FB_OFFSET + rnd (raw * s.fi p Reg.AXIS_FB_SCALE) 8
    (sat v 32, satHit v 32)

/-- What a set-point source delivers. -/
inductive Source where
  /-- A present value, and whether it was clamped. -/
  | value (r : Int) (hit : Bool)
  /-- A stale sequencer entry (R227). -/
  | stale
  /-- A follow input whose sample is missing (R227). -/
  | missing
  deriving DecidableEq, Repr

/-- R226, R227: the set-point source of axis `a` in engine frame `m`. -/
def State.source (s : State) (a : Fin 64) (m : Nat) : Source :=
  let p := Pg.AXIS a
  let k := s.a p Reg.AXIS_SOURCE_SP_SRC
  if k = 0 then
    let e := xchBank + m % 2 * 0x200 + a / 3 * 0x20
    let x := s.xchSees 0
    if (x.rd (e + 16) 4).testBit 0 ∧ x.rd (e + 12) 4 = m % 2 ^ 32 ∧ ¬ s.bad e 0x20 then .value (x.rdS (e + 4 * (a % 3)) 4) false else .stale
  else if k = 1 then .value (s.ai p Reg.AXIS_SP_HOST) false
  else match s.rawInput (k == 2) (s.a p Reg.AXIS_SOURCE_SP_INST) m with
    | some raw =>
      let v := s.ai p Reg.AXIS_FOLLOW_OFFSET + rnd (raw * s.ai p Reg.AXIS_FOLLOW_SCALE) 8
      .value (sat v 32) (satHit v 32)
    | none => .missing

/-- The auxiliary axes whose outer loop feeds galvo axis `a` (R231). -/
def State.feeders (s : State) (a : Fin 64) : List (Fin 64) :=
  (List.finRange 64).filter fun j => decide (48 ≤ j.val) && s.fb (Pg.AXIS j) Reg.AXIS_OUT_CFG_OUT_EN && s.f (Pg.AXIS j) Reg.AXIS_OUT_CFG_TARGET == a.val
    && decide (a.val < 48)

/-- The unclamped term of one auxiliary axis. -/
def State.feed (s : State) (j : Fin 64) : Int := rnd (s.axes[j].aux * s.fi (Pg.AXIS j) Reg.AXIS_OUT_GAIN) 15

/-- R231: the add term of axis `a`; each term clamps by itself and sets its own axis's ADD_SAT. -/
def State.addTerm (s : State) (a : Fin 64) : State × Int :=
  let l := s.feeders a
  (s.each (l.filter fun j => satHit (s.feed j) 32) fun s j => s.sticky! (Pg.AXIS j) Sticky.AXIS_ADD_SAT, (l.map fun j => sat (s.feed j) 32).sum)

/-! ### The control law (R228 to R230) -/

/-- R230: interpolate a table of BANK_SERVO at the measured position. -/
def State.servoTab (s : State) (base : Nat) (y : Int) : Int :=
  let u : Nat := (clampI (y + 2 ^ 24) 0 (1023 * 2 ^ 15)).toNat
  let k : Nat := min (u / 2 ^ 15) 1022
  let f : Int := (u : Int) - (k : Int) * 2 ^ 15
  rnd (s.rdS (base + 2 * k) 2 * (32768 - f) + s.rdS (base + 2 * k + 2) 2 * f) 15

/-- R230: the table of axis `a` (friction, or cogging). -/
def servoTable (a : Nat) (cogging : Bool) : Nat := servoBank + a * 0x1000 + (if cogging then 0x800 else 0)

/-- R229: one biquad section; coefficients b0, b1, b2, a1, a2. -/
def biquad (b0 b1 b2 a1 a2 : Int) (q : Bq) (x : Int) : Bq × Int × Bool :=
  let acc := rnd (b0 * x + b1 * q.x1 + b2 * q.x2 - a1 * q.w1 - a2 * q.w2) 30
  ({ x1 := x, x2 := q.x1, w1 := sat acc 40, w2 := q.w1 }, sat acc 40, satHit acc 40)

/-- One section of axis `a` applied to the running value; the flag collects BQ_SAT. -/
def State.section (s : State) (a : Fin 64) (v : Vector Bq 8 × Int × Bool) (k : Fin 8) : Vector Bq 8 × Int × Bool :=
  let p := Pg.AXIS a
  let c (f : Fld) : Int := s.fi p (f.num k)
  let r := biquad (c Reg.AXIS_BQ_B0) (c Reg.AXIS_BQ_B1) (c Reg.AXIS_BQ_B2) (c Reg.AXIS_BQ_A1) (c Reg.AXIS_BQ_A2) v.1[k] v.2.1
  (v.1.set k r.1, r.2.1, v.2.2 || r.2.2)

/-- R228: sgn with a deadband. -/
def sgnDb (v db : Int) : Int := if db < v then 1 else if v < -db then -1 else 0

/-- Set a sticky flag of an axis when a point clamps (R10). -/
def State.satFlag (s : State) (a : Fin 64) (hit : Bool) (k : Nat) : State := s.when hit fun s => s.sticky! (Pg.AXIS a) k

/-- What the control law gives: the new loop state, r, e, whether the command was clamped, and its saturation flags by ERROR_STICKY bit. -/
structure LawOut where
  x : Axis
  r : Int
  e : Int
  clamped : Bool
  flags : List (Nat × Bool)
  deriving DecidableEq, Repr

/-- R228: the control law of axis `a` at feedback `y`, source value `rs`, add term and injections. -/
def State.law (s : State) (a : Fin 64) (y rs add injSp injCmd : Int) : LawOut :=
  let p := Pg.AXIS a
  let q := s.axes[a]
  let r := sat (rs + add + injSp) 32
  let e := sat (r - y) 32
  let ep0 := rnd (r * s.fi p Reg.AXIS_WEIGHTS_B) 14 - y
  let ed0 := rnd (r * s.fi p Reg.AXIS_WEIGHTS_C) 14 - y
  let ep := sat ep0 32
  let ed := sat ed0 32
  let df0 := q.df + rnd (((ed - q.ed1) - q.df) * s.f p Reg.AXIS_KN) 16
  let df := sat df0 32
  let vr0 := r - q.r1
  let vr := sat vr0 32
  let ar0 := vr - q.vr1
  let ar := sat ar0 32
  let frozen := (q.hi && decide (0 < e)) || (q.lo && decide (e < 0))
  let i0 := if frozen then q.i else q.i + e * s.fi p Reg.AXIS_KI
  let i := if frozen then q.i else sat i0 48
  let ff := s.fb p Reg.AXIS_AXIS_CFG_FF_EN
  let x0 := rnd (ep * s.fi p Reg.AXIS_KP) 16 + rnd i 16 + rnd (df * s.fi p Reg.AXIS_KD) 16
    + (if ff then rnd (vr * s.fi p Reg.AXIS_KVF) 16 + rnd (ar * s.fi p Reg.AXIS_KAF) 16 else 0)
  let x := sat x0 40
  let bq := ((List.finRange 8).take (s.f p Reg.AXIS_AXIS_CFG_NBQ)).foldl (s.section a) (q.bq, x, false)
  let fric := if s.fb p Reg.AXIS_AXIS_CFG_FRIC_EN then sgnDb vr (s.f p Reg.AXIS_FRIC_DB) * s.servoTab (servoTable a false) y * 2 ^ 9 else 0
  let cog := if s.fb p Reg.AXIS_AXIS_CFG_COG_EN then s.servoTab (servoTable a true) y * 2 ^ 9 else 0
  let u0 := bq.2.1 + (fric + cog) + injCmd
  let o := rnd (sat u0 40) 9
  let lim : Int := s.f p Reg.AXIS_CMD_LIMIT
  let cmd := min (max o (-lim)) lim
  { x := { q with rs := rs, r1 := r, vr1 := vr, ed1 := ed, df := df, y2 := q.y1, y1 := y, i := i, hi := decide (lim < o), lo := decide (o < -lim),
                  bq := bq.1, x := x, inj := injSp + injCmd, cmd := cmd }
    r := r, e := e, clamped := decide (cmd ≠ o)
    flags := [(Sticky.AXIS_ADD_SAT, satHit (rs + add + injSp) 32), (Sticky.AXIS_ERR_SAT, satHit (r - y) 32),
      (Sticky.AXIS_SPW_SAT, satHit ep0 32 || satHit ed0 32), (Sticky.AXIS_DF_SAT, satHit df0 32),
      (Sticky.AXIS_FF_SAT, satHit vr0 32 || satHit ar0 32), (Sticky.AXIS_INT_SAT, satHit i0 48), (Sticky.AXIS_SUM_SAT, satHit x0 40),
      (Sticky.AXIS_BQ_SAT, bq.2.2), (Sticky.AXIS_COMP_SAT, satHit u0 40), (Sticky.AXIS_OUT_SAT, decide (cmd ≠ o))] }

/-! ### Results (R236) -/

/-- R236: write the result entry of axis `a` for engine frame `m` from its live group. -/
def State.putResult (s : State) (a : Fin 64) (m : Nat) : State :=
  let p := Pg.AXIS a
  let e := resultEntry m a
  s.xchWrites 0 [(e, 4, m), (e + 4, 4, s.f p Reg.AXIS_LIVE_SP), (e + 8, 4, s.f p Reg.AXIS_LIVE_POS), (e + 12, 4, s.f p Reg.AXIS_LIVE_ERR),
    (e + 16, 2, s.f p Reg.AXIS_LIVE_CMD), (e + 18, 2, s.f p Reg.AXIS_LIVE_FLAGS), (e + 20, 4, 0), (e + 24, 8, 0)]

/-- Show the integrator of axis `a`. -/
def State.showInteg (s : State) (a : Fin 64) : State :=
  (s.setF (Pg.AXIS a) Reg.AXIS_LIVE_INTEG_LO (wrapU 32 s.axes[a].i)).setF (Pg.AXIS a) Reg.AXIS_LIVE_INTEG_HI (wrapU 48 s.axes[a].i / 2 ^ 32)

/-- An axis not computed in engine frame `m` has its previous result copied, with COMPUTED = 0. -/
def State.copyResult (s : State) (a : Fin 64) (m : Nat) : State :=
  let p := Pg.AXIS a
  ((((s.setF p Reg.AXIS_LIVE_FLAGS (putBit (s.f p Reg.AXIS_LIVE_FLAGS) 0 false)).setF p Reg.AXIS_LIVE_FRAME m).setFi p Reg.AXIS_LIVE_CMD
    s.axes[a].cmd).setB p Reg.AXIS_STATUS_COMPUTED false).putResult a m

/-! ### One slot (R222, R232, R235, R238, R239, R241) -/

/-- R222: engine frame `m` computes axis `a`. -/
def State.computes (s : State) (a : Fin 64) (m : Nat) : Bool :=
  m % 2 ^ s.f (Pg.AXIS a) Reg.AXIS_AXIS_CFG_RATE == s.f (Pg.AXIS a) Reg.AXIS_AXIS_CFG_PHASE

/-- R232: the cost of axis `a` in engine frame `m`, in CLK_FAST cycles. -/
def State.slotCost (s : State) (a : Fin 64) (m : Nat) : Nat :=
  let p := Pg.AXIS a
  let st := s.st p
  if st = stOff ∨ st = stFault then 0
  else if st = stStarting ∨ ¬ s.computes a m then 2
  else 54 + 8 * b2n (s.fb p Reg.AXIS_AXIS_CFG_FF_EN) + 14 * b2n (s.fb p Reg.AXIS_AXIS_CFG_FRIC_EN) + 14 * b2n (s.fb p Reg.AXIS_AXIS_CFG_COG_EN)
    + 6 * s.f p Reg.AXIS_AXIS_CFG_NBQ

/-- FE_LIMIT in effect (R241). -/
def State.feLimit (s : State) (a : Fin 64) : Nat := max (2 ^ 10) (min (s.f (Pg.AXIS a) Reg.AXIS_FE_LIMIT) (2 ^ 25))

/-- R238: what an axis in an enabled slot of engine `e` waits for in STARTING, beside its feedback sample. -/
def State.axisMayStart (s : State) (e : Fin 4) (a : Fin 64) : Bool :=
  let p := Pg.AXIS a
  s.isOn (Pg.ENGINE e) &&
  (if a.val < 48 then
    s.laneUp (4 + a / 3) && s.fb (Pg.HEAD (a / 3)) Reg.HEAD_HEAD_DELAY_MEASURED
  else if s.f p Reg.AXIS_AXIS_CFG_FB_SRC = 0 then s.isOn (Pg.HEAD (s.f p Reg.AXIS_AXIS_CFG_FB_INST))
  else decide (s.f p Reg.AXIS_AXIS_CFG_FB_INST < 4) && s.isOn (Pg.ENC (s.f p Reg.AXIS_AXIS_CFG_FB_INST)))

/-- R238: initialise the loop of a starting axis with the feedback sample `y0`. -/
def State.axisInit (s : State) (a : Fin 64) (m : Nat) (y0 : Int) : State :=
  let p := Pg.AXIS a
  let (s1, add) := s.addTerm a
  let (s2, rs) : State × Int := match s1.source a m with
    | .value r hit => (s1.satFlag a hit Sticky.AXIS_FB_SAT, r)
    | .stale => (s1.sticky! p Sticky.AXIS_SP_STALE, y0)
    | .missing => (s1, y0)
  let r := sat (rs + add) 32
  (((s2.satFlag a (satHit (rs + add) 32) Sticky.AXIS_ADD_SAT).setAxis a fun _ =>
    { rs := rs, r1 := y0, y1 := y0, y2 := y0, ed1 := wrapS 32 (rnd (r * s.fi p Reg.AXIS_WEIGHTS_C) 14 - y0), ready := true }).showInteg a)

/-- A starting axis in a frame in which its slot finishes. -/
def State.axisStarting (s : State) (e : Fin 4) (a : Fin 64) (m : Nat) : State :=
  let s1 := s.copyResult a m
  if s1.axisMayStart e a then
    match s1.feedback a m with
    | some (y0, hit) => (s1.satFlag a hit Sticky.AXIS_FB_SAT).axisInit a m y0
    | none => s1
  else s1

/-- R244: step the generator of engine `e`, and give its sign: +1 or -1. -/
def State.prbsStep (s : State) (e : Fin 4) : State × Int :=
  let g := s.engines[e].prbs
  let b := (bits g 14 1 + bits g 13 1) % 2
  (s.setEngine e fun x => { x with prbs := (2 * g + b) % 2 ^ 15 }, if b = 1 then 1 else -1)

/-- R235: the feedback of a computed frame, predicted where its sample is missing; the flag tells a prediction. -/
def State.feedbackOr (s : State) (a : Fin 64) (m : Nat) : State × Int × Bool :=
  let p := Pg.AXIS a
  match s.feedback a m with
  | some (y, hit) => ((s.satFlag a hit Sticky.AXIS_FB_SAT).setF p Reg.AXIS_STATUS_MISS_RUN 0, y, false)
  | none =>
    let v := 2 * s.axes[a].y1 - s.axes[a].y2
    let s1 := (((s.satFlag a (satHit v 32) Sticky.AXIS_FB_SAT).sticky! p Sticky.AXIS_SAMPLE_PRED).ev! p Ev.AXIS_SAMPLE_PRED).inc p Reg.AXIS_PREDICTED
    let s2 := (s1.inc p Reg.AXIS_STATUS_MISS_RUN).accAdd (0xA40 + 8 * a + 6) 2 1
    (if s.f p Reg.AXIS_AXIS_CFG_MISS_FAULT ≤ s2.f p Reg.AXIS_STATUS_MISS_RUN then s2.setAxis a fun x => { x with pend := 3 } else s2, sat v 32, true)

/-- R226, R227, R235, R239: the source value of a computed frame; a missing feedback sample also holds a follow input. -/
def State.sourceOr (s : State) (a : Fin 64) (m : Nat) (pred : Bool) : State × Int × Bool :=
  let hold := s.axes[a].rs
  if s.axes[a].left.isSome ∨ (pred ∧ 2 ≤ s.a (Pg.AXIS a) Reg.AXIS_SOURCE_SP_SRC) then (s, hold, false)
  else match s.source a m with
    | .value r hit => (s.satFlag a hit Sticky.AXIS_FB_SAT, r, false)
    | .stale => (s.sticky! (Pg.AXIS a) Sticky.AXIS_SP_STALE, hold, true)
    | .missing => (s, hold, false)

/-- R228, R235, R236, R241: one computed frame of axis `a` in slot `k` of engine `e`. -/
def State.axisCompute (s : State) (e : Fin 4) (k : Nat) (a : Fin 64) (m : Nat) : State :=
  let p := Pg.AXIS a
  let (s1, y, pred) := s.feedbackOr a m
  let (s2, rs, stale) := s1.sourceOr a m pred
  let (s3, add) := s2.addTerm a
  let mode := if s3.f (Pg.ENGINE e) Reg.ENGINE_INJECT_SLOT = k then s3.f (Pg.ENGINE e) Reg.ENGINE_INJECT_MODE else 0
  let (s4, sgn) := if mode = 1 ∨ mode = 2 then s3.prbsStep e else (s3, 0)
  let inj : Int := sgn * (s4.f (Pg.ENGINE e) Reg.ENGINE_INJECT_AMP * 2 ^ 8)
  let o := s4.law a y rs add (if mode = 1 then inj else 0) (if mode = 2 then inj else 0)
  let ovr := decide (s4.feLimit a < o.e.natAbs)
  let pend := (s4.axes[a]).pend
  let s5 := (s4.each o.flags fun s f => s.satFlag a f.2 f.1).setAxis a fun _ =>
    { o.x with fe := if ovr then s4.brushOfAxis a else none, pend := if pend = 0 ∧ ovr then 2 else pend,
               left := o.x.left.map fun n => n - 1 }
  let flags := 1 + 2 * b2n pred + 4 * b2n o.clamped + 8 * b2n ovr + 16 * b2n stale
  let s6 := ((((s5.setFi p Reg.AXIS_LIVE_SP o.r).setFi p Reg.AXIS_LIVE_POS y).setFi p Reg.AXIS_LIVE_ERR o.e).setF p Reg.AXIS_LIVE_FLAGS flags).setFi p
    Reg.AXIS_LIVE_CMD o.x.cmd
  let s7 := (((s6.setF p Reg.AXIS_LIVE_FRAME m).setB p Reg.AXIS_STATUS_COMPUTED true).setB p Reg.AXIS_STATUS_OUT_SAT o.clamped).setB p
    Reg.AXIS_STATUS_PRED pred
  let s8 := (s7.setF p Reg.AXIS_STATUS_OVR_RUN 0).setF p Reg.AXIS_FE_PEAK (max (s7.f p Reg.AXIS_FE_PEAK) o.e.natAbs)
  let s9 := ((s8.accExt (0xA40 + 8 * a) 4 false true o.e.natAbs).showInteg a).putResult a m
  if ovr then (s9.sticky! p Sticky.AXIS_FE_TRIP).ev! p Ev.AXIS_FE_TRIP else s9

/-- R239: the brush of a galvo axis that parks under servo control. -/
def State.brushServes (s : State) (a : Fin 64) : Bool :=
  decide (a.val < 48) && (let st := s.st (Pg.BRUSH (a / 3)); st == stStarting || st == stOn || st == stStopping)

/-- One slot that finishes in time: a starting axis, a computed frame, or a copied result. The four computed frames of STOPPING span
4 × 2^RATE engine frames, so the frame with command 0 is the one that would compute the axis next (R239). -/
def State.axisRun (s : State) (e : Fin 4) (k : Nat) (a : Fin 64) (m : Nat) : State :=
  let p := Pg.AXIS a
  if s.st p = stStarting then s.axisStarting e a m
  else
    let s1 := if s.st p = stStopping ∧ s.axes[a].left.isNone ∧ ¬ s.brushServes a then s.setAxis a fun x => { x with left := some 4 } else s
    if ¬ s1.computes a m then s1.copyResult a m
    else if s1.axes[a].left = some 0 then
      (if s1.axes[a].lastFrame.isNone then s1.setAxis a fun x => { x with lastFrame := some m } else s1).copyResult a m
    else s1.axisCompute e k a m

/-! ### The trace ring (R243) -/

def traceRing (e : Nat) : Nat := servoBank + 0x80000 + e * 0x20000

/-- Recording ends after the trigger. -/
def State.traceDone (s : State) (e : Fin 4) : State :=
  let p := Pg.ENGINE e
  ((s.setB p Reg.ENGINE_TRACE_STATUS_ARMED false).setB p Reg.ENGINE_TRACE_STATUS_DONE true).ev! p Ev.ENGINE_TRACE_DONE

/-- Write one trace record. -/
def State.tracePut (s : State) (e : Fin 4) (k : Nat) (a : Fin 64) (m : Nat) : State :=
  let p := Pg.ENGINE e
  let q := Pg.AXIS a
  let n := s.engines[e].count
  let t := traceRing e + n % 4096 * 32
  let flags := if s.axes[a].overran then putBit (s.f q Reg.AXIS_LIVE_FLAGS) 0 false else s.f q Reg.AXIS_LIVE_FLAGS
  let s1 := (((s.wrMem t 4 m).wrMem (t + 4) 4 (s.f q Reg.AXIS_LIVE_SP)).wrMem (t + 8) 4 (s.f q Reg.AXIS_LIVE_POS)).wrMem (t + 12) 4
    (s.f q Reg.AXIS_LIVE_ERR)
  let s2 := ((((s1.wrMem (t + 16) 4 (wrapU 40 s.axes[a].x / 2 ^ 8)).wrMemI (t + 20) 2 s.axes[a].cmd).wrMem (t + 22) 2 flags).wrMemI (t + 24) 4
    s.axes[a].inj).wrMem (t + 28) 4 k
  let s3 := (s2.setEngine e fun x => { x with count := n + 1 }).setF p Reg.ENGINE_TRACE_STATUS_NEXT ((n + 1) % 4096)
  if 4096 ≤ n then s3.setB p Reg.ENGINE_TRACE_STATUS_WRAPPED true else s3

/-- The trigger condition, on the first traced slot's axis. -/
def State.traceFires (s : State) (e : Fin 4) (a : Fin 64) : Bool :=
  let p := Pg.ENGINE e
  match s.f p Reg.ENGINE_TRACE_CTRL_TRIG with
  | 0 => true
  | 1 => decide (s.f p Reg.ENGINE_TRACE_LEVEL < (s.fi (Pg.AXIS a) Reg.AXIS_LIVE_ERR).natAbs)
  | 2 => decide (s.f p Reg.ENGINE_TRACE_LEVEL < s.axes[a].vr1.natAbs)
  | _ => (s.slotsOf e).any fun q => s.axes[q.2].overran

/-- One slot of the trace list: its record, and the trigger or the count towards POST. -/
def State.traceSlot (s : State) (e : Fin 4) (m : Nat) (first : Bool) (k : Nat) : State :=
  let p := Pg.ENGINE e
  match s.slotAxis e k with
  | none => s
  | some a =>
    let st := s.st (Pg.AXIS a)
    if s.fb p Reg.ENGINE_TRACE_STATUS_ARMED ∧ (st = stOn ∨ st = stStopping) then
      let idx := s.engines[e].count % 4096
      let s1 := s.tracePut e k a m
      if s.fb p Reg.ENGINE_TRACE_STATUS_TRIGGERED then
        let s2 := s1.setEngine e fun x => { x with post := x.post - 1 }
        if s2.engines[e].post = 0 then s2.traceDone e else s2
      else if first ∧ s.traceFires e a then
        let n := s.f p Reg.ENGINE_TRACE_POST
        let s2 := ((s1.setB p Reg.ENGINE_TRACE_STATUS_TRIGGERED true).setF p Reg.ENGINE_TRACE_STATUS_TRIG_INDEX idx).setEngine e fun x =>
          { x with post := n }
        if n = 0 then s2.traceDone e else s2
      else s1
    else s

/-- Engine frame `m` is one that the armed trace of engine `e` records. -/
def State.traced (s : State) (e : Fin 4) (m : Nat) : Bool :=
  s.fb (Pg.ENGINE e) Reg.ENGINE_TRACE_STATUS_ARMED && m % 2 ^ s.f (Pg.ENGINE e) Reg.ENGINE_TRACE_CTRL_DECIM == 0

/-- The trace of one engine frame. -/
def State.trace (s : State) (e : Fin 4) (m : Nat) : State :=
  let p := Pg.ENGINE e
  if s.traced e m then
    let slots := [Reg.ENGINE_TRACE_CTRL_SLOT_0, Reg.ENGINE_TRACE_CTRL_SLOT_1, Reg.ENGINE_TRACE_CTRL_SLOT_2, Reg.ENGINE_TRACE_CTRL_SLOT_3]
    let l := (slots.zip (List.range 4)).filterMap fun q => if (s.f p Reg.ENGINE_TRACE_CTRL_SLOT_EN).testBit q.2 then some (s.f p q.1, q.2) else none
    s.each l fun s q => s.traceSlot e m (l.head?.any fun f => f.2 == q.2) q.1
  else s

/-- R243: TRACE_CMD.ARM. -/
def execTraceArm (t : Nat) (e : Fin 4) (s : State) : Host.Outcome State Fault Refusal :=
  let s1 := s.upTo t
  let p := Pg.ENGINE e
  if ¬ s1.pageOn p then .fault (.domainOff (regAddr p 0x064))
  else
    let s2 := ((s1.setWord (regAddr p 0x068) 0#32).setB p Reg.ENGINE_TRACE_STATUS_ARMED true).setEngine e fun x =>
      { x with count := 0, post := 0, traceDue := none }
    done s (if s2.f p Reg.ENGINE_TRACE_CTRL_TRIG = 0 then
      let n := s2.f p Reg.ENGINE_TRACE_POST
      let s3 := (s2.setB p Reg.ENGINE_TRACE_STATUS_TRIGGERED true).setEngine e fun x => { x with post := n }
      if n = 0 then s3.traceDone e else s3
    else s2)

/-- R243: TRACE_CMD.STOP. Recording that ends after the trigger has fired sets DONE and asserts TRACE_DONE
(DEDUCED, log 72). -/
def execTraceStop (t : Nat) (e : Fin 4) (s : State) : Host.Outcome State Fault Refusal :=
  let s1 := s.upTo t
  let p := Pg.ENGINE e
  if ¬ s1.pageOn p then .fault (.domainOff (regAddr p 0x064))
  else done s (if s1.fb p Reg.ENGINE_TRACE_STATUS_ARMED then
    if s1.fb p Reg.ENGINE_TRACE_STATUS_TRIGGERED then s1.traceDone e else s1.setB p Reg.ENGINE_TRACE_STATUS_ARMED false
  else s1)

/-- R244: INJECT is written with `v`; the generator is seeded again. -/
def execInjectWrite (t : Nat) (e : Fin 4) (v : Word) (s : State) : Host.Outcome State Fault Refusal :=
  let s1 := s.upTo t
  let p := Pg.ENGINE e
  let a := regAddr p 0x06C
  if ¬ s1.pageOn p then .fault (.domainOff a)
  else if bits v.toNat 6 10 ≠ 0 then .fault (.reservedWrite a)
  else if bits v.toNat 4 2 = 3 then .fault (.reservedEncoding a)
  else done s ((s1.setWord a v).setEngine e fun x => { x with prbs := 0x7FFF })

/-! ### The engine frame (R223, R233, R234) -/

/-- R104, R233: the number N of CLK_FAST cycles in the engine frame that ends at the present tick. The rate that took effect at the frame start
inside it holds from `rateAcc` on, the rate before it up to there. -/
def State.frameCycles (s : State) : Nat :=
  let w := 16000 * 2 ^ 32
  let back := wrapU 96 (((s.now * 2 ^ 32 : Nat) : Int) - s.time.acc)
  let since := wrapU 96 (((s.now * 2 ^ 32 : Nat) : Int) - s.time.rateAcc)
  let new := fun (d : Nat) => (d - back) / s.fastInc + b2n (decide (back ≠ 0))
  if since < w then new since + (w - since) / s.oldInc else new w

/-- An engine computes in ON and STOPPING (R245). -/
def State.engineRuns (s : State) (e : Fin 4) : Bool := let st := s.st (Pg.ENGINE e); st == stOn || st == stStopping

/-- The instant engine frame `m` begins (R223). -/
def engineTick (m : Nat) : Nat := t0 m - 960

/-- The reads of BANK_SERVO and BANK_XCH that computing axis `a` in engine frame `m` makes, checked (R339). -/
def State.engineReads (s : State) (a : Fin 64) (m : Nat) : State :=
  let p := Pg.AXIS a
  let head (h : Nat) (c : Bool) (s : State) : State := s.when c fun s => s.ownerRead (sampleEntry ((m + 1) % 2) h) 0x40
  let aux := decide (48 ≤ a.val) && s.f p Reg.AXIS_AXIS_CFG_FB_SRC == 0
  let fb := if a.val < 48 then a.val / 3 else s.f p Reg.AXIS_AXIS_CFG_FB_INST
  let sp := s.a p Reg.AXIS_SOURCE_SP_INST
  let s1 := head sp (s.a p Reg.AXIS_SOURCE_SP_SRC == 3 && !((decide (a.val < 48) || aux) && sp == fb)) (head fb (decide (a.val < 48) || aux) s)
  let s2 := if s.a p Reg.AXIS_SOURCE_SP_SRC = 0 then s1.ownerRead (xchBank + m % 2 * 0x200 + a / 3 * 0x20) 0x20 else s1
  match s.feedback a m with
  | some y =>
    let k : Nat := min ((clampI (y.1 + 2 ^ 24) 0 (1023 * 2 ^ 15)).toNat / 2 ^ 15) 1022
    let s3 := if s.fb p Reg.AXIS_AXIS_CFG_FRIC_EN then s2.ownerRead (servoTable a false + 2 * k) 4 else s2
    if s.fb p Reg.AXIS_AXIS_CFG_COG_EN then s3.ownerRead (servoTable a true + 2 * k) 4 else s3
  | none => s2

/-- One slot: its cost is added, and it runs if it finishes in time. N is 1,999 to 2,001 (R104), so where F_k lies between those the cut tells. -/
def State.slotRun (e : Fin 4) (m : Nat) (q : State × Nat) (ka : Nat × Fin 64) : State × Nat :=
  let (s, f) := q
  let a := ka.2
  let c := s.slotCost a m
  let f1 := f + c
  let late := decide (c ≠ 0 ∧ 2001 < f1)
  let open_ := decide (c ≠ 0 ∧ 1999 < f1 ∧ f1 ≤ 2001)
  let s1 := s.setAxis a fun x => { x with overran := late, fe := none, pend := 0, atCut := if open_ then some (m, f1) else none }
  if open_ then (s1, f1)
  else if c = 0 ∨ late then (s1.setB (Pg.AXIS a) Reg.AXIS_STATUS_COMPUTED false, f1)
  else ((s1.engineReads a m).axisRun e ka.1 a m, f1)

/-- Engine frame `m` of engine `e`: initialised axes reach ON, AXIS shadows commit, and the slots run in ascending order. The trace is taken once
every slot is known to have finished or not. -/
def State.engineFrame (s : State) (m : Nat) (e : Fin 4) : State :=
  if s.engineRuns e then
    let l := s.slotsOf e
    let s1 := s.each l fun s q => if s.st (Pg.AXIS q.2) = stStarting ∧ s.axes[q.2].ready then s.toOn (Pg.AXIS q.2) else s
    let s2 := s1.each l fun s q =>
      let st := s.st (Pg.AXIS q.2)
      if (st = stOn ∨ st = stStopping) ∧ s.computes q.2 m then s.takeShadow (Pg.AXIS q.2) (engineTick m) else s
    let r := l.foldl (State.slotRun e m) (s2, 48)
    let s3 := (r.1.setF (Pg.ENGINE e) Reg.ENGINE_LOAD_LAST (satU r.2 16)).setF (Pg.ENGINE e) Reg.ENGINE_LOAD_PEAK
      (max (r.1.f (Pg.ENGINE e) Reg.ENGINE_LOAD_PEAK) (satU r.2 16))
    if l.any fun q => s3.axes[q.2].atCut.isSome then s3.when (s3.traced e m) fun s => s.setEngine e fun x => { x with traceDue := some m }
    else s3.trace e m
  else s

/-- R223: engine frame `m` begins. -/
def execEngineFrameStart (m : Nat) (s : State) : Host.Outcome State Fault Refusal :=
  let s1 := s.upTo (engineTick m)
  done s (if s1.domOn 4 then s1.each (List.finRange 4) (fun s e => s.engineFrame m e) else s1)

/-! ### The cut that ends an engine frame (R18, R223, R234, R241) -/

/-- R234: an axis is overrun. -/
def State.overrun (s : State) (e : Fin 4) (k : Nat) (a : Fin 64) : State :=
  let p := Pg.AXIS a
  let s1 := ((s.sticky! p Sticky.AXIS_OVERRUN).ev! p Ev.AXIS_OVERRUN).inc p Reg.AXIS_OVERRUNS
  let s2 := ((s1.sticky! (Pg.ENGINE e) Sticky.ENGINE_OVERRUN).ev! (Pg.ENGINE e) Ev.ENGINE_OVERRUN).setF (Pg.ENGINE e) Reg.ENGINE_OVERRUN_SLOTS
    (putBit (s1.f (Pg.ENGINE e) Reg.ENGINE_OVERRUN_SLOTS) k true)
  let s3 := (s2.inc p Reg.AXIS_STATUS_OVR_RUN).accAdd (0xA40 + 8 * a + 4) 2 1
  if s3.f p Reg.AXIS_AXIS_CFG_OVR_LIMIT ≤ s3.f p Reg.AXIS_STATUS_OVR_RUN then s3.axisFault a 1 s3.now else s3

/-- A slot that the cut decides: with F_k ≤ N it runs, its result landing at the cut; else it has overrun (R233). -/
def State.slotDecide (s : State) (e : Fin 4) (q : Nat × Fin 64) : State :=
  let a := q.2
  match s.axes[a].atCut with
  | none => s
  | some mf =>
    let s1 := s.setAxis a fun x => { x with atCut := none, overran := decide (s.frameCycles < mf.2) }
    if s.st (Pg.AXIS a) = stOff ∨ s.st (Pg.AXIS a) = stFault then s.setAxis a fun x => { x with atCut := none }
    else if s.frameCycles < mf.2 then s1.setB (Pg.AXIS a) Reg.AXIS_STATUS_COMPUTED false
    else (s1.engineReads a mf.1).axisRun e q.1 a mf.1

/-- The slots of engine `e` that the cut decides, and the trace that waited for them. -/
def State.engineDecide (s : State) (e : Fin 4) : State :=
  let s1 := s.each (s.slotsOf e) fun s q => s.slotDecide e q
  match s1.engines[e].traceDue with
  | some m => (s1.setEngine e fun x => { x with traceDue := none }).trace e m
  | none => s1

/-- The cut withdraws the following-error condition of R241 from the knife, whatever has become of the axis since (R21). -/
def State.feCut (s : State) (a : Fin 64) : State :=
  match s.axes[a].fe with
  | some b => (s.latchCause [b] causeFe s.now).setAxis a fun x => { x with fe := none }
  | none => s

/-- What the cut does with one slot: an overrun, and the fault found in the computed frame. -/
def State.slotCut (s : State) (e : Fin 4) (q : Nat × Fin 64) : State :=
  let a := q.2
  let s1 := if s.axes[a].overran then s.overrun e q.1 a else s
  let s2 := if s.axes[a].pend = 0 then s1 else s1.axisFault a s.axes[a].pend s1.now
  s2.setAxis a fun x => { x with overran := false, pend := 0 }

/-- The end of an engine frame: the last slots finish, commands become final, each slot is judged, and the auxiliary axes that are ON after that
feed the next frame (R231). -/
def State.servoCut (s : State) : State :=
  let s0 := if s.domOn 4 then s.each (List.finRange 4) State.engineDecide else s
  let s1 := s0.each (List.finRange 64) State.feCut
  if s1.domOn 4 then
    let s2 := s1.each (List.finRange 64) fun s a => s.setAxis a fun x => { x with final := x.cmd }
    let s3 := s2.each (List.finRange 4) fun s e => s.each (s.slotsOf e) fun s q => s.slotCut e q
    s3.each (List.finRange 64) fun s a => s.setAxis a fun x => { x with aux := if s.isOn (Pg.AXIS a) then x.final else 0 }
  else s1

/-! ### The ends of sequences (R239, R245) -/

/-- Every axis in an enabled slot of engine `e` is OFF or in FAULT. -/
def State.engineIdle (s : State) (e : Fin 4) : Bool :=
  (s.slotsOf e).all fun q => let st := s.st (Pg.AXIS q.2); st == stOff || st == stFault

/-- The engine of an axis's slot serves it (R239). -/
def State.axisServed (s : State) (a : Fin 64) : Bool := (List.finRange 4).any fun e => s.engineRuns e && (s.slotsOf e).any fun q => q.2 == a

/-- R239, R240: engine `e` stops serving its slots: axes in STARTING or ON fault, axes in STOPPING complete at once and assert CROSS_RESET. -/
def State.engineGone (s : State) (e : Fin 4) : State :=
  if s.st (Pg.ENGINE e) = stOff then s
  else s.each (s.slotsOf e) fun s q =>
    let p := Pg.AXIS q.2
    if s.st p = stStopping then (s.toOff p).ev! p Ev.CROSS_RESET
    else if s.st p = stOff then s
    else (s.axisFault q.2 6 s.now).ev! p Ev.CROSS_RESET

end Sys2Proof.Machine
end

