-- ==== Sys2Proof/Machine/Heads.lean ====
section
/-! DEFINITION. The head-frame cycle of spec/05_link_frames.md (R92 to R99, R102): HEAD_DN, the samples, the link's delay and the mailbox. -/

namespace Sys2Proof.Machine

def headLane (h : Fin 16) : Fin 20 := ⟨4 + h, by omega⟩

/-- A measured or written DELAY (R94). -/
def State.setDelay (s : State) (h : Fin 16) (d : Nat) : State :=
  let p := Pg.HEAD h
  let s1 := (s.setF p Reg.HEAD_HEAD_DELAY_DELAY d).setB p Reg.HEAD_HEAD_DELAY_MEASURED true
  (if 640 < d % 2 ^ 16 then s1.sticky! p Sticky.HEAD_DELAY_RANGE else s1).headHealth h

/-- R237: the command and AMP_EN of a galvo axis in the HEAD_DN of frame `n`. -/
def State.axisOut (s : State) (a : Fin 64) (n : Nat) : Int × Bool :=
  let st := s.st (Pg.AXIS a)
  if (st = stOn ∨ st = stStopping) ∧ s.axes[a].lastFrame ≠ some n then (s.axes[a].final, true) else (0, false)

/-- R75, R76, R92: from T_s - 12,800 tk a lane in a rate step, its own or one it has acknowledged, launches no HEAD_DN and carries no transaction. -/
def State.stepHolds (s : State) (l : Fin 20) : Bool :=
  match s.lanes[l].step, s.lanes[l].pstep with
  | some st, _ => s.past (st.tick - 12800)
  | none, some st => st.acked && s.past (st.tick - 12800)
  | none, none => false

/-- ACTIVE of a HEAD_DN (R92): 1 on a single device, and on the active device of a diptych. -/
def State.headActive (s : State) : Bool := s.st Pg.DIPTYCH == stOff || s.isActive

/-- The payload of the HEAD_DN of frame `n` on HEAD_h (R92, R94, R99, R237). -/
def State.headDn (s : State) (h : Fin 16) (n : Nat) : List Byte :=
  let p := Pg.HEAD h
  let out (k : Fin 3) : Int × Bool := s.axisOut ⟨3 * h + k, by omega⟩ n
  let delay := if s.fb p Reg.HEAD_HEAD_DELAY_MEASURED then s.f p Reg.HEAD_HEAD_DELAY_DELAY else 0
  let amp := b2n (out 0).2 + 2 * b2n (out 1).2 + 4 * b2n (out 2).2
  let mbx := if s.heads[h].mbxSend then s.heads[h].mbxMsg else 0
  leBytes 4 n ++ leBytes 2 (wrapU 16 (out 0).1) ++ leBytes 2 (wrapU 16 (out 1).1) ++ leBytes 2 (wrapU 16 (out 2).1) ++ leBytes 2 delay ++
    leBytes 4 (16 * b2n s.roleB + 8 * b2n s.headActive + amp) ++ leBytes 4 0 ++ leBytes 8 mbx ++ leBytes 4 0

/-- AXIS.STATUS.AMP_EN follows the HEAD_DN of frame `n` that head `h` is sent (R246). -/
def State.showAmp (s : State) (h : Fin 16) (n : Nat) : State :=
  if s.domOn 4 then s.each [0, 1, 2] fun s (k : Fin 3) =>
    s.setB (Pg.AXIS (3 * h + k)) Reg.AXIS_STATUS_AMP_EN (s.axisOut ⟨3 * h + k, by omega⟩ n).2
  else s

/-- One head lane at the HEAD_DN instant of frame `n`; a lane that is not free makes the frame late and it is discarded (R119). -/
def State.launchDn (s : State) (n : Nat) (h : Fin 16) : State :=
  let l := headLane h
  let p := Pg.HEAD h
  if s.laneUp l ∧ ¬ s.stepHolds l then
    if s.lineFree l s.now then
      let s1 := (s.sendFrame l 8 0 (s.headDn h n) s.now).inc p Reg.HEAD_DN_SENT
      (s1.setHead h fun x => { x with
        dnTick := s1.now, judgeFrom := (match x.judgeFrom with | some k => some k | none => some (n + 1)), mbxSend := false,
        mbxAt := if x.mbxSend then s1.now else x.mbxAt }).showAmp h n
    else s.countLate
  else s

/-- The end of a stopping axis after its final frame (R237, R239). -/
def State.axisAfterDn (s : State) (n : Nat) (a : Fin 64) : State :=
  let p := Pg.AXIS a
  if s.st p = stStopping ∧ s.axes[a].lastFrame = some n then s.toOff p else s

/-- R92: HEAD_DN of frame `n` is launched on every head lane that is UP. -/
def execHeadDnLaunch (n : Nat) (s : State) : Host.Outcome State Fault Refusal :=
  let s1 := s.upTo (t0 n + 15360)
  let s2 := s1.each (List.finRange 16) fun s h => s.launchDn n h
  done s (if s2.domOn 4 then s2.each (List.finRange 64) fun s a => s.axisAfterDn n a else s2)

/-- An accepted sample A that shows an amplifier fault of axis `a`, or HEAD_FAULT: it shows on the axis's page in every state (R240). -/
def State.ampFault (s : State) (a : Nat) : State :=
  let p := Pg.AXIS a
  if s.pageOn p then (((s.ev! p Ev.AXIS_AMP_FAULT).sticky! p Sticky.AXIS_AMP_FAULT).inc p Reg.AXIS_AMP_FAULTS).axisFault a 4 s.now else s

/-- The delay measurement takes an accepted sample A: the mean over the first 256 since UP (R94). -/
def State.delaySample (s : State) (h : Fin 16) (f rx turn : Nat) : State :=
  let p := Pg.HEAD h
  let x := s.heads[h]
  if s.fb p Reg.HEAD_HEAD_DELAY_MEASURED ∨ frameOf x.dnTick + 1 ≠ f then s
  else
    let l := headLane h
    let sum := x.sumRt + ((s.stampTick l true rx : Int) - s.stampTick l false x.dnTick - turn)
    let s1 := s.setHead h fun x => { x with sumRt := sum, nRt := x.nRt + 1 }
    if x.nRt + 1 = 256 then s1.setDelay h (wrapU 16 (rnd sum 9)) else s1

/-- An accepted sample A of frame `f` (R94, R98, R224, R240). -/
def State.takeA (s : State) (h : Fin 16) (f rx : Nat) (w : Vector Word 8) : State :=
  let p := Pg.HEAD h
  let st := w[5].toNat
  let was := (s.f p Reg.HEAD_HEAD_STATUS_STATUS).testBit 7
  let s1 := (s.setF p Reg.HEAD_HEAD_STATUS_TURN (bits st 16 16)).setF p Reg.HEAD_HEAD_STATUS_STATUS (bits st 0 16)
  let s2 := s1.setHead h fun x => { x with gotA := some f, missRun := 0, pdA := some (f, bits w[4].toNat 0 16) }
  let e := sampleEntry (f % 2) h
  let s3 := if s2.domOn 4 then
      ((((((s2.wrMem e 4 w[0].toNat).wrMem (e + 4) 4 w[1].toNat).wrMem (e + 8) 4 w[2].toNat).wrMem (e + 12) 4 w[3].toNat).wrMem (e + 16) 4
        w[4].toNat).wrMem (e + 20) 4 st)
    else s2
  let s4 := if st.testBit 7 ∧ ¬ was then s3.ev! p Ev.HEAD_HEAD_FAULT else s3
  let s5 := s4.each [0, 1, 2] fun s k => if st.testBit (4 + k) ∨ st.testBit 7 then s.ampFault (3 * h + k) else s
  (s5.delaySample h f rx (bits st 16 16)).headHealth h

/-- A mailbox response in a HEAD_UP (R99). -/
def State.takeMbx (s : State) (h : Fin 16) (lo hi : Nat) : State :=
  let p := Pg.HEAD h
  if s.fb p Reg.HEAD_MBX_STATUS_BUSY ∧ bits hi 24 8 = 3 ∧ bits hi 16 8 = s.heads[h].mbxTag then
    ((((s.setF p Reg.HEAD_MBX_IN_LO lo).setF p Reg.HEAD_MBX_IN_HI hi).setB p Reg.HEAD_MBX_STATUS_BUSY false).setB p Reg.HEAD_MBX_STATUS_DONE
      true).ev! p Ev.HEAD_MBX_DONE
  else s

/-- R86, R98: a HEAD_UP arrives, its last bit at `t` and its delimiter stamped `rx`. Sample A or B is accepted where its FRAME matches, its deadline
is met and samples are judged; of a sample B only its photodiode value is used. A mailbox response is taken from any sample A, accepted or not (DESIGN
CHOICE, log 95). -/
def execHeadUpReceive (t : Nat) (h : Fin 16) (rx : Nat) (w : Vector Word 8) (s : State) : Host.Outcome State Fault Refusal :=
  let s1 := s.upTo t
  let p := Pg.HEAD h
  done s (if s1.laneUp (headLane h) then
    let f := frameOf s1.now
    let off := s1.now - t0 f
    let kindB := w[5].toNat.testBit 0
    let judged : Bool := match s1.heads[h].judgeFrom with | some k => decide (k ≤ f) | none => false
    let fits := judged && decide (w[0].toNat = f % 2 ^ 32)
    if kindB then
      if fits ∧ off ≤ 11840 then s1.setHead h fun x => { x with gotB := some f, pdB := some (f, bits w[4].toNat 0 16) } else s1
    else
      let s3 := (s1.takeMbx h w[6].toNat w[7].toNat).setF p Reg.HEAD_LATEST_A (max (s1.f p Reg.HEAD_LATEST_A) (satU off 16))
      if fits ∧ off ≤ 3840 then s3.takeA h f rx w else s3
  else s1)

/-- R98: one head at the deadline of sample A of frame `n`. The samples of a frame in which the lane is not UP, as in a rate step, are not counted
(DESIGN CHOICE, log 95). -/
def State.missA (s : State) (n : Nat) (h : Fin 16) : State :=
  let p := Pg.HEAD h
  let x := s.heads[h]
  let judged : Bool := match x.judgeFrom with | some k => decide (k ≤ n) | none => false
  if s.laneUp (headLane h) ∧ judged ∧ x.gotA ≠ some n then
    (((s.inc p Reg.HEAD_UP_MISSING_A).sticky! p Sticky.HEAD_SAMPLE_MISSING).ev! p Ev.HEAD_SAMPLE_MISSING).setHead h (fun x =>
      { x with missRun := x.missRun + 1 }) |>.headHealth h
  else s

/-- R98: the sample A deadline of frame `n`. -/
def execSampleADeadline (n : Nat) (s : State) : Host.Outcome State Fault Refusal :=
  done s ((s.upTo (t0 n + 3840)).each (List.finRange 16) fun s h => s.missA n h)

/-- R98: the sample B deadline of frame `n`; a missing sample B is counted only. -/
def execSampleBDeadline (n : Nat) (s : State) : Host.Outcome State Fault Refusal :=
  done s ((s.upTo (t0 n + 11840)).each (List.finRange 16) fun s h =>
    let x := s.heads[h]
    let judged : Bool := match x.judgeFrom with | some k => decide (k ≤ n) | none => false
    if s.laneUp (headLane h) ∧ judged ∧ x.gotB ≠ some n then s.inc (Pg.HEAD h) Reg.HEAD_UP_MISSING_B else s)

/-- R99: MBX_CTRL.SEND; ignored while BUSY. -/
def execMbxSend (t : Nat) (h : Fin 16) (s : State) : Host.Outcome State Fault Refusal :=
  let s1 := s.upTo t
  let p := Pg.HEAD h
  if ¬ s1.pageOn p then .fault (.domainOff (regAddr p Reg.HEAD_MBX_CTRL.off))
  else done s (if s1.fb p Reg.HEAD_MBX_STATUS_BUSY then s1
    else ((s1.setB p Reg.HEAD_MBX_STATUS_BUSY true).setB p Reg.HEAD_MBX_STATUS_DONE false).setHead h fun x =>
      { x with mbxSend := true, mbxMsg := s1.actPair p Reg.HEAD_MBX_OUT_LO Reg.HEAD_MBX_OUT_HI, mbxTag := bits (s1.a p Reg.HEAD_MBX_OUT_HI) 16 8,
               mbxAt := s1.now })

/-- R99: 64 frames have passed without an answer. -/
def execMbxTimeout (t : Nat) (h : Fin 16) (s : State) : Host.Outcome State Fault Refusal :=
  let s1 := s.upTo t
  let p := Pg.HEAD h
  done s (if s1.fb p Reg.HEAD_MBX_STATUS_BUSY ∧ s1.past (s1.heads[h].mbxAt + 64 * 16000) then
    ((s1.setB p Reg.HEAD_MBX_STATUS_BUSY false).sticky! p Sticky.HEAD_MBX_TIMEOUT).setHead h fun x => { x with mbxSend := false }
  else s1)

end Sys2Proof.Machine
end

