-- ==== Sys2Proof/Machine/Stepper.lean ====
section
/-! DEFINITION. Stepper axes and their bridge modules (R254 to R264 of spec/13_profiles_steppers.md). -/

namespace Sys2Proof.Machine

/-! ### Phase currents (R260) -/

/-- Part 0 of the first quarter of cos_tab. -/
def cosQuarter0 : List Int :=
  [32767, 32766, 32765, 32761, 32757, 32752, 32745, 32737, 32728, 32717, 32705, 32692, 32678, 32663, 32646, 32628, 32609, 32589, 32567,
   32545, 32521, 32495, 32469, 32441, 32412, 32382, 32351, 32318, 32285, 32250, 32213, 32176, 32137, 32098, 32057, 32014, 31971, 31926,
   31880, 31833, 31785, 31736, 31685, 31633, 31580, 31526, 31470, 31414, 31356, 31297, 31237, 31176, 31113, 31050, 30985, 30919, 30852,
   30783, 30714, 30643, 30571, 30498, 30424, 30349]

/-- Part 1 of the first quarter of cos_tab. -/
def cosQuarter1 : List Int :=
  [30273, 30195, 30117, 30037, 29956, 29874, 29791, 29706, 29621, 29534, 29447, 29358, 29268, 29177, 29085, 28992, 28898, 28803, 28706,
   28609, 28510, 28411, 28310, 28208, 28105, 28001, 27896, 27790, 27683, 27575, 27466, 27356, 27245, 27133, 27019, 26905, 26790, 26674,
   26556, 26438, 26319, 26198, 26077, 25955, 25832, 25708, 25582, 25456, 25329, 25201, 25072, 24942, 24811, 24680, 24547, 24413, 24279,
   24143, 24007, 23870, 23731, 23592, 23452, 23311]

/-- Part 2 of the first quarter of cos_tab. -/
def cosQuarter2 : List Int :=
  [23170, 23027, 22884, 22739, 22594, 22448, 22301, 22154, 22005, 21856, 21705, 21554, 21403, 21250, 21096, 20942, 20787, 20631, 20475,
   20317, 20159, 20000, 19841, 19680, 19519, 19357, 19195, 19032, 18868, 18703, 18537, 18371, 18204, 18037, 17869, 17700, 17530, 17360,
   17189, 17018, 16846, 16673, 16499, 16325, 16151, 15976, 15800, 15623, 15446, 15269, 15090, 14912, 14732, 14553, 14372, 14191, 14010,
   13828, 13645, 13462, 13279, 13094, 12910, 12725]

/-- Part 3 of the first quarter of cos_tab. -/
def cosQuarter3 : List Int :=
  [12539, 12353, 12167, 11980, 11793, 11605, 11417, 11228, 11039, 10849, 10659, 10469, 10278, 10087, 9896, 9704, 9512, 9319, 9126, 8933,
   8739, 8545, 8351, 8157, 7962, 7767, 7571, 7375, 7179, 6983, 6786, 6590, 6393, 6195, 5998, 5800, 5602, 5404, 5205, 5007, 4808, 4609,
   4410, 4210, 4011, 3811, 3612, 3412, 3212, 3012, 2811, 2611, 2410, 2210, 2009, 1809, 1608, 1407, 1206, 1005, 804, 603, 402, 201]

/-- Part 4 of the first quarter of cos_tab. -/
def cosQuarter4 : List Int :=
  [0]

/-- The integer nearest to 32,767 cos(2 pi k / 1,024), for k = 0 to 256. -/
def cosQuarter : List Int := cosQuarter0 ++ cosQuarter1 ++ cosQuarter2 ++ cosQuarter3 ++ cosQuarter4

/-- cos_tab over a whole cycle. -/
def cosTab (k : Nat) : Int :=
  let i := k % 1024
  if i ≤ 256 then cosQuarter.getD i 0
  else if i ≤ 512 then -cosQuarter.getD (512 - i) 0
  else if i ≤ 768 then -cosQuarter.getD (i - 512) 0
  else cosQuarter.getD (1024 - i) 0

/-- The currents of phases A and B at position `p`. -/
def phaseCurrents (amp : Nat) (p : Int) : Int × Int :=
  let k := wrapU 10 (rnd p 24)
  (rnd (amp * cosTab k) 15, rnd (amp * cosTab (k + 768)) 15)

/-! ### Frames of the axis port (R255, R257) -/

/-- The CRC of words 0 to 2 in transmission order. -/
def frameCrc (w0 w1 w2 : Nat) : Nat := crc32 (beBytes w0 ++ beBytes w1 ++ beBytes w2)

/-- The down frame of plan tick `q`. -/
def downFrame (q : Nat) (drive : Bool) (ia ib p : Int) : List Nat :=
  let w0 := 0xA5000000 + q % 256 * 2 ^ 16 + b2n drive * 2 ^ 15
  let w1 := wrapU 16 ia * 2 ^ 16 + wrapU 16 ib
  let w2 := wrapU 32 (rnd p 24)
  [w0, w1, w2, frameCrc w0 w1 w2]

def planTick (q : Nat) : Nat := q * 64000

/-- The 128 bits of a frame as they cross the port (R255). -/
def frameBits (l : List Nat) : List Bool := l.flatMap fun w => (List.range 32).map fun k => w.testBit (31 - k)

/-- The levels of STP_CK and STP_DO at `o` tk after T_q, while frame `down` is sent: bit b of STP_DO stands from the falling edge before rising edge
b, which is at 640 + 128b; between bursts, and while none is sent, both are low (R255). -/
def stepPins (down : List Nat) (o : Nat) : Bool × Bool :=
  if down = [] ∨ o < 576 ∨ 576 + 128 * 128 ≤ o then (false, false)
  else (decide (64 ≤ (o - 576) % 128), (frameBits down).getD ((o - 576) / 128) false)

/-- The levels of stepper `n`'s outputs now (R255). -/
def State.stepOut (s : State) (n : Fin 8) : Bool × Bool := stepPins s.steppers[n].down (ahead (planTick s.steppers[n].tick) s.now)

/-- Where the Rhapen samples bit `b` of STP_DI, in tk after T_q (R255). -/
def diSample (delay b : Nat) : Nat := 640 + 128 * (b + 1) + 16 * delay

/-- The level of a pin, from its changes, at `o`. -/
def pinLevel (changes : List (Nat × Bool)) (o : Nat) : Bool := ((changes.filter fun e => decide (e.1 ≤ o)).getLast?.map (·.2)).getD false

/-- Word `k` of the up frame as it is sampled (R255). -/
def upWord (changes : List (Nat × Bool)) (delay k : Nat) : Nat :=
  (List.range 32).foldl (fun w b => 2 * w + b2n (pinLevel changes (diSample delay (32 * k + b)))) 0

/-! ### The plan tick (R254, R263) -/

/-- A 48-bit limit in force. -/
def State.stepLimit (s : State) (n : Fin 8) (lo hi : Fld) : Nat := s.actPair (Pg.STEP n) lo hi

/-- The limits in force of stepper `n`. -/
def State.stepLim (s : State) (n : Fin 8) : Lim :=
  ⟨s.stepLimit n Reg.STEP_V_LO Reg.STEP_V_HI, s.stepLimit n Reg.STEP_A_LO Reg.STEP_A_HI, s.stepLimit n Reg.STEP_J_LO Reg.STEP_J_HI⟩

/-- The target in force from tick `t` on: the latest write before it (R254). -/
def Stepper.retarget (x : Stepper) (t : Nat) : Stepper :=
  let due := x.writes.filter fun e => decide (0 < sdiff48 t e.1)
  { x with target := (due.getLast?.map (·.2)).getD x.target, writes := x.writes.filter fun e => decide (sdiff48 t e.1 ≤ 0) }

/-- One call of gen_step. A limit of 0 is a host error whose motion R248 does not define: the position is then a free value. -/
def State.stepGen (s : State) (n : Fin 8) (stop : Bool) : State × Bool :=
  let x := s.steppers[n]
  let m := s.stepLim n
  if m.ok then
    let r := genStep m (x.target * 2 ^ 24) stop x.g
    (s.setStepper n fun x => { x with g := r.1 }, r.2)
  else
    let c := s.freeCtr
    (s.takeFree.takeFree.takeFree.setStepper n fun x => { x with
      g := ⟨(Config.freeValue c).toInt, (Config.freeValue (c + 1)).toInt, (Config.freeValue (c + 2)).toInt⟩ }, false)

/-- Currents follow the position. -/
def State.stepCurrents (s : State) (n : Fin 8) : State :=
  s.setStepper n fun x =>
    let i := phaseCurrents (s.a (Pg.STEP n) Reg.STEP_CURRENT) x.g.pos
    { x with ia := i.1, ib := i.2 }

/-- The burst of plan tick `q` carries its down frame; a measurement of the port's receive clock takes its edges (R60). -/
def State.burst (s : State) (n : Fin 8) (q : Nat) (drive : Bool) : State :=
  (s.setStepper n fun x => { x with down := downFrame q drive x.ia x.ib x.g.pos, checked := false }).fmeasStep n q

/-- R260, R262: an ON stepper's motion in one tick. -/
def State.stepOn (s : State) (n : Fin 8) (q : Nat) : State :=
  let p := Pg.STEP n
  let holding := s.fb p Reg.STEP_STATUS_HOLDING
  let was := s.fb p Reg.STEP_STATUS_AT_TARGET
  let (s1, r) := s.stepGen n holding
  let at_ := r && !holding
  let s2 := s1.setB p Reg.STEP_STATUS_AT_TARGET at_
  let s3 := if at_ ∧ ¬ was then s2.ev! p Ev.STEP_AT_TARGET else s2
  (if holding ∧ r then s3 else s3.stepCurrents n).burst n q true

/-- R263: a stopping stepper's motion in one tick: to rest, 100 ticks at full current, then 4 bursts with DRIVE_EN = 0. -/
def State.stepStop (s : State) (n : Fin 8) (q : Nat) : State :=
  let x := s.steppers[n]
  if ¬ x.rest then
    let (s1, r) := s.stepGen n true
    ((s1.setB (Pg.STEP n) Reg.STEP_STATUS_AT_TARGET false).stepCurrents n |>.setStepper n fun x => { x with rest := r }).burst n q true
  else if x.hold < 100 then ((s.setStepper n fun x => { x with hold := x.hold + 1 }).stepCurrents n).burst n q true
  else if x.off < 4 then (s.setStepper n fun x => { x with off := x.off + 1 }).burst n q false
  else s

/-- Show the generator's state of plan tick `q`. -/
def State.showStep (s : State) (n : Fin 8) (q : Nat) : State :=
  let p := Pg.STEP n
  let g := s.steppers[n].g
  let s1 := (s.setPair p Reg.STEP_POS_LO Reg.STEP_POS_HI (wrapU 64 g.pos)).setPair p Reg.STEP_VEL_LO Reg.STEP_VEL_HI (wrapU 64 g.vel)
  ((s1.setFi p Reg.STEP_ACC (sat g.acc 32)).setF p Reg.STEP_TICK q).setB p Reg.STEP_STATUS_MOVING (decide (g.vel ≠ 0 ∨ g.acc ≠ 0))

/-- One stepper at plan tick `q`. -/
def State.planOne (s : State) (q : Nat) (n : Fin 8) : State :=
  let p := Pg.STEP n
  let s1 := (s.takeShadow p (planTick q)).setStepper n fun x => { x.retarget (planTick q) with tick := q }
  let s2 := match s1.st p with
    | 1 => s1.burst n q false
    | 2 => s1.stepOn n q
    | 3 => s1.stepStop n q
    | 4 => s1.burst n q false
    | _ => s1
  (s2.showStep n q).setStepper n fun x => { x with vWas := x.vNow, vNow := x.g.vel }

/-- R188: an encoder port in mode 2 takes the position of its stepper at the plan tick. Until the first one in ON, COUNT keeps its 0 (DESIGN CHOICE,
log 86). -/
def State.encFollow (s : State) (k : Fin 4) : State :=
  let p := Pg.ENC k
  if s.isOn p ∧ s.f p Reg.ENC_ENC_CFG_MODE = 2 then
    let n : Fin 8 := ⟨s.f p Reg.ENC_ENC_CFG_STEP_SRC % 8, Nat.mod_lt _ (by decide)⟩
    s.setPair p Reg.ENC_COUNT_LO Reg.ENC_COUNT_HI (wrapU 48 (s.encSign k * rnd s.steppers[n].g.pos 24))
  else s

/-- A transfer of stepper `n`'s shadows at tick `b` would put a limit of 0 in force, a host error (R248). -/
def State.zeroLimits (s : State) (n : Fin 8) (b : Nat) : Bool :=
  let p := Pg.STEP n
  s.fb p Reg.COMMIT_PENDING && decide (0 < sdiff48 b (s.commitTick p)) &&
    (s.shadowPair p Reg.STEP_V_LO Reg.STEP_V_HI b == 0 || s.shadowPair p Reg.STEP_A_LO Reg.STEP_A_HI b == 0 ||
      s.shadowPair p Reg.STEP_J_LO Reg.STEP_J_HI b == 0)

/-- R254: plan tick `q`. -/
def execPlanTick (q : Nat) (s : State) : Host.Outcome State Fault Refusal :=
  let s1 := s.upTo (planTick q)
  if s1.domOn 5 ∧ (List.finRange 8).any (fun n => s1.zeroLimits n (planTick q)) then .fault (.hostBreach 248)
  else done s (if s1.domOn 5 then (s1.each (List.finRange 8) (fun s n => s.planOne q n)).each (List.finRange 4) fun s k => s.encFollow k else s1)

/-- R254: TARGET_HI is written with `v`; the target takes effect at the first plan tick after the write. -/
def execStepTargetWrite (t : Nat) (n : Fin 8) (v : Word) (s : State) : Host.Outcome State Fault Refusal :=
  let s1 := s.upTo t
  let p := Pg.STEP n
  let a := regAddr p Reg.STEP_TARGET_HI.off
  if ¬ s1.pageOn p then .fault (.domainOff a)
  else if 2 ^ 8 ≤ v.toNat then .fault (.reservedWrite a)
  else
    let s2 := s1.setWord a v
    done s (s2.setStepper n fun x => { x with writes := x.writes ++ [(s2.now, signed 40 (s2.pair p Reg.STEP_TARGET_LO Reg.STEP_TARGET_HI))] })

/-! ### The up frame (R259, R261, R262) -/

/-- STEP_n enters FAULT; POS_LOST is set (R263). -/
def State.stepFault (s : State) (n : Fin 8) (cause : Nat) : State :=
  let p := Pg.STEP n
  if s.st p = stStarting ∨ s.st p = stOn then
    (((s.setF p Reg.STEP_STATUS_FAULT_CAUSE cause).blockFault p s.now).setB p Reg.STEP_STATUS_POS_LOST true).sticky! p Sticky.STEP_POS_LOST
  else s

/-- `angle` of R261: one CORDIC vectoring step after another. -/
def vectoring : List Int → Nat → Int × Int × Int → Int
  | [], _, q => q.2.2
  | a :: r, i, (x, y, z) =>
    if 0 ≤ y then vectoring r (i + 1) (x + y / 2 ^ i, y - x / 2 ^ i, z + a) else vectoring r (i + 1) (x - y / 2 ^ i, y + x / 2 ^ i, z - a)

/-- atan2(y, x) in turns × 2^16, as an int16. -/
def angle (x y : Int) : Int :=
  let z := if x < 0 then vectoring atanTab 0 (-x, -y, 2 ^ 31) else vectoring atanTab 0 (x, y, 0)
  signed 16 (wrapU 16 (rnd (wrapU 32 z) 16))

/-- R262: a stall is declared. -/
def State.stall (s : State) (n : Fin 8) : State :=
  let p := Pg.STEP n
  let s1 := ((s.inc p Reg.STEP_STALLS).sticky! p Sticky.STEP_STALL).ev! p Ev.STEP_STALL
  match s1.a p Reg.STEP_STALL_CFG_ACTION with
  | 1 => ((s1.setB p Reg.STEP_STATUS_HOLDING true).setB p Reg.STEP_STATUS_POS_LOST true).sticky! p Sticky.STEP_POS_LOST
  | 2 => s1.stepFault n 1
  | _ => s1

/-- R261, R262: the load angle from an accepted up frame, and the stall count. -/
def State.loadAngle (s : State) (n : Fin 8) (w1 w2 : Nat) : State :=
  let p := Pg.STEP n
  let x := s.steppers[n]
  let ia := signed 16 (w1 / 2 ^ 16)
  let ib := signed 16 w1
  let rs : Int := s.f p Reg.STEP_MOTOR_RS
  let ls : Int := s.f p Reg.STEP_MOTOR_LS
  let ea := signed 16 (w2 / 2 ^ 16) - rnd (rs * ia) 12 - rnd (ls * (ia - x.ia1)) 12
  let eb := signed 16 w2 - rnd (rs * ib) 12 - rnd (ls * (ib - x.ib1)) 12
  let s1 := s.setStepper n fun x => { x with ia1 := ia, ib1 := ib }
  if x.vWas.natAbs < s.a p Reg.STEP_MIN_SPEED * 2 ^ 8 then s1.setB p Reg.STEP_STATUS_EST_VALID false
  else
    let fa := if 0 < x.vWas then eb else -eb
    let fb := if 0 < x.vWas then -ea else ea
    let delta := angle (ia * fa + ib * fb) (fa * ib - fb * ia)
    let df := wrapS 16 (x.df + rnd ((delta - x.df) * s.a p Reg.STEP_STALL_CFG_KF) 8)
    let s2 := ((s1.setB p Reg.STEP_STATUS_EST_VALID true).setStepper n fun x => { x with df := df }).setFi p Reg.STEP_DELTA df
    if s2.a p Reg.STEP_STALL_CFG_ANGLE < df.natAbs then
      let k := s2.f p Reg.STEP_STATUS_STALL_RUN + 1
      let s3 := s2.setF p Reg.STEP_STATUS_STALL_RUN (satU k 4)
      if s3.a p Reg.STEP_STALL_CFG_TICKS ≤ k ∧ ¬ x.stalled then (s3.setStepper n fun x => { x with stalled := true }).stall n else s3
    else (s2.setF p Reg.STEP_STATUS_STALL_RUN 0).setStepper n fun x => { x with stalled := false }

/-- R263: STARTING ends: the position set, the estimator and the marks cleared, ON. The group of the position registers stays that of the latest plan
tick (R264). -/
def State.stepStarted (s : State) (n : Fin 8) : State :=
  let p := Pg.STEP n
  let v := signed 40 (s.actPair p Reg.STEP_POS_SET_LO Reg.STEP_POS_SET_HI)
  let s1 := s.setStepper n fun x => { x with g := { pos := v * 2 ^ 24 }, target := v, vNow := 0, vWas := 0, ia1 := 0, ib1 := 0, df := 0, stalled := false }
  let s2 := (((s1.setB p Reg.STEP_STATUS_POS_LOST false).setB p Reg.STEP_STATUS_HOLDING false).setF p Reg.STEP_STATUS_STALL_RUN 0).setB p
    Reg.STEP_STATUS_EST_VALID false
  let s3 := s2.setF p Reg.ERROR_STICKY (putBit (s2.f p Reg.ERROR_STICKY) Sticky.STEP_POS_LOST false)
  (s3.setF p Reg.STEP_DELTA 0).endSequence p

/-- R255, R259: the up frame of the latest burst has been sampled at DI_DELAY, and is checked. -/
def execUpFrameCheck (t : Nat) (n : Fin 8) (di0 di1 di2 di3 : List (Nat × Bool)) (s : State) : Host.Outcome State Fault Refusal :=
  let s1 := s.upTo t
  let p := Pg.STEP n
  let x := s1.steppers[n]
  let w (k : Nat) : Nat := upWord (di0 ++ di1 ++ di2 ++ di3) (s1.f p Reg.STEP_PORT_CFG_DI_DELAY) k
  done s (if x.checked ∨ s1.st p = stOff ∨ ¬ s1.past (planTick x.tick + diSample (s1.f p Reg.STEP_PORT_CFG_DI_DELAY) 127) then s1
  else
    let s2 := s1.setStepper n fun x => { x with checked := true }
    let ok := bits (w 0) 24 8 == 0x5A && w 3 == frameCrc (w 0) (w 1) (w 2) && bits (w 0) 16 8 == (x.tick + 255) % 256
    if ok then
      let s3 := (((s2.setF p Reg.STEP_BRIDGE_STATUS (w 0)).setF p Reg.STEP_MEAS_I (w 1)).setF p Reg.STEP_MEAS_V (w 2)).setF p
        Reg.STEP_STATUS_LINK_MISS 0
      let s4 := s3.loadAngle n (w 1) (w 2)
      let s5 := if (w 0).testBit 15 then
          (((s4.inc p Reg.STEP_BRIDGE_FAULTS).sticky! p Sticky.STEP_BRIDGE_FAULT).ev! p Ev.STEP_BRIDGE_FAULT).stepFault n 3
        else s4
      if s5.st p = stStarting then
        let s6 := s5.setStepper n fun x => { x with run := x.run + 1 }
        if 16 ≤ s6.steppers[n].run then s6.stepStarted n else s6
      else s5
    else
      let s3 := ((s2.inc p Reg.STEP_LINK_ERRORS).sticky! p Sticky.STEP_LINK_ERR).ev! p Ev.STEP_LINK_ERR
      let s4 := (s3.inc p Reg.STEP_STATUS_LINK_MISS).setStepper n fun x => { x with run := 0 }
      if s4.f p Reg.STEP_PORT_CFG_LINK_LIMIT ≤ s4.f p Reg.STEP_STATUS_LINK_MISS then s4.stepFault n 2 else s4)

/-- R263: the stopped axis has kept its current for 100 plan ticks and sent 4 bursts with DRIVE_EN = 0: OFF. -/
def execStepperHoldEnd (t : Nat) (n : Fin 8) (s : State) : Host.Outcome State Fault Refusal :=
  let s1 := s.upTo t
  let p := Pg.STEP n
  done s (if s1.st p = stStopping ∧ s1.steppers[n].off = 4 ∧ s1.past (planTick s1.steppers[n].tick + 16960) then s1.toOff p else s1)

end Sys2Proof.Machine
end

