-- ==== Sys2Proof/Machine/Vision.lean ====
section
/-! DEFINITION. The melt-pool vision pipeline (spec/14_vision.md): camera packets, frames and their trigger numbers, the pixel stages and the
region metrics, records and their release, batches and MET, triggers, stored images and STREAM. -/

namespace Sys2Proof.Machine

/-! ### Contexts (R266, R268) -/

def streamPort (k : Fin 32) : Fin 4 := ⟨k.val / 8, by omega⟩

/-- The contexts of camera port `p` that are ON and match a virtual channel. -/
def State.vcContexts (s : State) (p : Fin 4) (vc : Nat) : List (Fin 32) :=
  (portCtxs p).filter fun k => s.isOn (Pg.STREAM k) && s.f (Pg.STREAM k) Reg.STREAM_CTX_CFG_VC == vc

/-- A header the ECC corrected (R265). -/
def State.hdrCorrected (s : State) (p : Fin 4) (corrected : Bool) : State :=
  if corrected then s.inc (Pg.CAM p) Reg.CAM_HDR_CORRECTED else s

/-- R266: a packet that no context takes. -/
def State.unmatched (s : State) (p : Fin 4) : State :=
  let q := Pg.CAM p
  ((s.inc q Reg.CAM_UNMATCHED).sticky! q Sticky.CAM_UNMATCHED).ev! q Ev.CAM_UNMATCHED

/-- The sample width of a RAW data type (R265). -/
def rawWidth (dt : Nat) : Option Nat :=
  match dt with
  | 0x2A => some 8
  | 0x2B => some 10
  | 0x2C => some 12
  | 0x2D => some 14
  | 0x2E => some 16
  | 0x2F => some 20
  | _ => none

/-- A data type of the supported subset (R265). Any other matches no context. -/
def takesType (dt : Nat) : Bool := (rawWidth dt).isSome || dt == 0x12 || decide (0x30 ≤ dt ∧ dt ≤ 0x37)

/-- A packet passes on the lanes of CAM_p, which leave stop state for it (R285). -/
def State.lanesBusy (s : State) (p : Fin 4) : State := { s with camPorts := s.camPorts.set p { s.camPorts[p] with packetAt := some s.now } }

/-- What lies in `[pos, pos + n)` of a ring of `size` bytes at `base`. -/
def ringSpan (base size pos n : Nat) : List (Nat × Nat) :=
  if pos + n ≤ size then [(base + pos, n)] else [(base + pos, size - pos), (base, pos + n - size)]

/-- The input buffer of CAM_p (R269). -/
def camBuf (p : Nat) : Nat := visionBank + 0x200000 + p * 0x10000

/-! ### Trigger sequence numbers (R275) -/

/-- The sequence number of the next frame: `s`, whether it was corrected by d > 1 and whether the frame number was in error. -/
def nextSeqNo (x : Stream) (b fn : Nat) : Nat × Bool × Bool :=
  match x.prevSeq with
  | none => (x.seq0, false, false)
  | some q =>
    if b = 0 ∨ fn = 0 ∨ x.fnPrev = 0 ∨ fn = 1 then ((q + 1) % 65536, false, false)
    else
      let d := (fn + 2 ^ b - x.fnPrev % 2 ^ b) % 2 ^ b
      if d = 1 then ((q + 1) % 65536, false, false)
      else if 2 ≤ d ∧ d ≤ 2 ^ (b - 1) then ((q + d) % 65536, true, false)
      else ((q + 1) % 65536, false, true)

/-- BLACK and MERGE as they act on frame `q` (R274): the newest set whose trigger is not later. -/
def Stream.setFor (x : Stream) (q : Nat) : Option PipeSet :=
  x.sets.find? fun e => decide ((q + 65536 - e.seq) % 65536 < 32768)

/-! ### Storage (R282) -/

/-- The bytes of a stored line: FORM 1 and processed contexts two bytes a pixel, RAW data packed, other data one byte a column. -/
def State.lineBytes (s : State) (k : Fin 32) : Nat :=
  let p := Pg.STREAM k
  let w := s.f p Reg.STREAM_GEOM_WIDTH
  if s.f p Reg.STREAM_STORE_CFG_FORM = 1 ∧ s.f p Reg.STREAM_CTX_CFG_KIND ≠ 1 then 2 * w
  else match rawWidth (s.f p Reg.STREAM_CTX_CFG_DT) with
    | some b => (w * b + 7) / 8
    | none => w

/-- The stored line stride: the line's bytes rounded up to a multiple of 64. -/
def State.stride (s : State) (k : Fin 32) : Nat := (s.lineBytes k + 63) / 64 * 64

def State.slotAddr (s : State) (k : Fin 32) (slot : Nat) : Nat :=
  let p := Pg.STREAM k
  s.a p Reg.STREAM_STORE_BASE_LO * 64 + s.a p Reg.STREAM_STORE_BASE_HI * 2 ^ 32 + slot * s.f p Reg.STREAM_SLOT_BYTES

/-- A frame that is not stored. -/
def State.storeSkip (s : State) (k : Fin 32) : State :=
  let p := Pg.STREAM k
  ((s.inc p Reg.STREAM_STORE_SKIPS).sticky! p Sticky.STREAM_STORE_SKIP).ev! p Ev.STREAM_STORE_SKIP

/-- A queued image that is dropped (KEEP = 0). -/
def State.streamSkip (s : State) (k : Fin 32) : State :=
  let p := Pg.STREAM k
  (((s.inc p Reg.STREAM_STREAM_SKIPS).sticky! p Sticky.STREAM_STREAM_SKIP).ev! p Ev.STREAM_STREAM_SKIP).accAdd 0xD6E 2 1

/-- R282: choose the slot of a new frame, in turn; none when its slot is being sent, or is queued and kept. The image of a frame that has ended
is queued for the host from then on, also while its last lines are still on their way. -/
def State.takeSlot (s : State) (k : Fin 32) : State × Option Nat :=
  let p := Pg.STREAM k
  let x := s.streams[k]
  let i := x.nextSlot
  let next := (i + 1) % max 1 (s.f p Reg.STREAM_STORE_CFG_SLOTS)
  let busy : Bool := match x.sending with | some q => q.1.slot == i | none => false
  let ends (f : VFrame) : Bool := f.ended && f.slot == some i && s.f p Reg.STREAM_STORE_CFG_HOST != 0
  if busy then (s.storeSkip k, none)
  else if (x.imgs.any fun m => m.slot == i) || x.frames.any ends then
    if s.fb p Reg.STREAM_STORE_CFG_KEEP then (s.storeSkip k, none)
    else ((s.setStream k fun y => { y with
      imgs := y.imgs.filter fun m => m.slot != i, frames := y.frames.map fun f => if ends f then { f with slot := none } else f,
      nextSlot := next }).streamSkip k, some i)
  else (s.setStream k fun y => { y with nextSlot := next }, some i)

/-! ### FS and FE (R268, R274 to R276, R283) -/

/-- R268: an FS opens a frame of context `k`, stamped with the present tick. -/
def State.openFrame (s : State) (k : Fin 32) (fn : Nat) : State :=
  let p := Pg.STREAM k
  let use := s.fb p Reg.STREAM_CTX_CFG_TRIG_USE
  let s0 := s.truncateOpen k
  let s1 := if use then s0 else s0.takeShadow p s0.now
  let x := s1.streams[k]
  let (q, resync, bad) := nextSeqNo x (s1.f p Reg.STREAM_PIPE_CFG_FN_BITS) fn
  let entry := if use then s1.trigs[s1.trigOf k].log.find? fun e => e.seq == q else none
  let noTrig := use && entry.isNone
  let setId := if use then (match entry with | some e => e.setId | none => 0) else s1.a p Reg.STREAM_SET_ID
  let mid : Nat := match entry with | some e => ((e.tick : Int) + e.delay + ((e.width / 2 : Nat) : Int)).toNat | none => s1.now
  let thr := s1.fb Pg.THERM Reg.THERM_STATUS_ENFORCED && decide (q % 2 = 1)
  let set : PipeSet := match (if use then x.setFor q else none) with
    | some e => e
    | none => ⟨q, s1.a p Reg.STREAM_BLACK, s1.a p Reg.STREAM_MERGE_RATIO, s1.a p Reg.STREAM_MERGE_KNEE⟩
  let store := s1.f p Reg.STREAM_STORE_CFG_STORE
  let stores : Bool := !thr && (store == 1 || (store == 2 && q % 2 ^ s1.f p Reg.STREAM_STORE_CFG_DIV == 0))
  let (s2, slot) := if stores then s1.takeSlot k else (s1, none)
  let f : VFrame := {
    id := x.nextId, fsTime := s1.now, fn := fn, seq := q, setId := setId, mid := mid, noTrig := noTrig, resynced := resync, throttled := thr,
    black := set.black, ratio := set.ratio, knee := set.knee, slot := slot,
    rois := List.replicate (s1.f p Reg.STREAM_PIPE_CFG_NROI) {} }
  let s3 := s2.setStream k fun y => { y with
    nextId := y.nextId + 1, prevSeq := some q, fnPrev := if fn = 0 then y.fnPrev else fn, frames := y.frames ++ [f] }
  let s4 := ((s3.setF p Reg.STREAM_STATUS_LAST_SEQ q).setB p Reg.STREAM_STATUS_THROTTLED thr).setB p Reg.STREAM_STATUS_OPEN true
  let s5 := if resync then (s4.inc p Reg.STREAM_RESYNCS).ev! p Ev.STREAM_RESYNC else s4
  let s6 := if bad then ((s5.inc p Reg.STREAM_FN_ERRORS).sticky! p Sticky.STREAM_FN_ERR).ev! p Ev.STREAM_FN_ERR else s5
  let s7 := if noTrig then s6.sticky! p Sticky.STREAM_NO_TRIG else s6
  if thr then s7.inc p Reg.STREAM_THROTTLED else s7

/-- R268: an FS packet of virtual channel `vc` with frame number `fn` is decoded on CAM_p. -/
def execCsiFrameStart (t : Nat) (p : Fin 4) (vc : Fin 16) (fn : BitVec 16) (corrected : Bool) (s : State) : Host.Outcome State Fault Refusal :=
  let s1 := (s.upTo t).lanesBusy p
  done s (if s1.isOn (Pg.CAM p) then
    let s2 := s1.hdrCorrected p corrected
    match s2.vcContexts p vc with
    | [] => s2.unmatched p
    | l => (s2.inc (Pg.CAM p) Reg.CAM_PACKETS).each l fun s k => s.openFrame k fn.toNat
  else s1)

/-- An FE closes the open frame of context `k`; with none open it is ignored. -/
def State.closeFrame (s : State) (k : Fin 32) : State :=
  let p := Pg.STREAM k
  if s.streams[k].open?.isSome then
    ((s.setStream k fun x => x.onLast fun f => { f with ended := true }).setB p Reg.STREAM_STATUS_OPEN false).inc p Reg.STREAM_FRAMES
  else s

/-- R268: an FE packet of virtual channel `vc` is decoded on CAM_p. -/
def execCsiFrameEnd (t : Nat) (p : Fin 4) (vc : Fin 16) (corrected : Bool) (s : State) : Host.Outcome State Fault Refusal :=
  let s1 := (s.upTo t).lanesBusy p
  done s (if s1.isOn (Pg.CAM p) then
    let s2 := s1.hdrCorrected p corrected
    match s2.vcContexts p vc with
    | [] => s2.unmatched p
    | l => (s2.inc (Pg.CAM p) Reg.CAM_PACKETS).each l State.closeFrame
  else s1)

/-- A line of context `k` that a header error loses: it is counted, and takes no line number (R265, R286). -/
def State.headerLost (s : State) (k : Fin 32) : State := if s.isOn (Pg.STREAM k) then s.inc (Pg.STREAM k) Reg.STREAM_LINES_LOST else s

/-- R265, R286: a packet that is discarded, or a short packet other than FS or FE: counted by what it was. -/
def execCsiUnmatchedPacket (t : Nat) (p : Fin 4) (kind : CsiDiscard) (s : State) : Host.Outcome State Fault Refusal :=
  let s1 := (s.upTo t).lanesBusy p
  let q := Pg.CAM p
  done s (if s1.isOn q then
    match kind with
    | .short corrected => (s1.hdrCorrected p corrected).unmatched p
    | .sot => ((s1.inc q Reg.CAM_PHY_ERRORS).sticky! q Sticky.CAM_PHY_ERR).ev! q Ev.CAM_PHY_ERR
    | .header slot =>
      let s2 := ((s1.inc q Reg.CAM_HDR_UNCORR).sticky! q Sticky.CAM_HDR_UNCORR).ev! q Ev.CAM_HDR_ERR
      match slot with
      | some j => s2.headerLost ⟨8 * p.val + j.val, by omega⟩
      | none => s2
  else s1)

/-- R268: FRAME_LIMIT tk have passed since FS_TIME. -/
def execFrameLimitExpiry (t : Nat) (k : Fin 32) (s : State) : Host.Outcome State Fault Refusal :=
  let s1 := s.upTo t
  done s (match s1.streams[k].open? with
  | some f => if s1.past (f.fsTime + s1.f (Pg.STREAM k) Reg.STREAM_FRAME_LIMIT) then s1.truncateOpen k else s1
  | none => s1)

/-! ### Long packets (R265 to R268) -/

/-- A line of context `k` is lost or discarded; `crc` says which. -/
def State.lineLost (s : State) (k : Fin 32) (crc : Bool) : State :=
  let p := Pg.STREAM k
  let s1 := s.inc p Reg.STREAM_LINES_LOST
  if crc then (s1.setStream k fun x => x.onLast fun f => { f with crcErr := true }).sticky! p Sticky.STREAM_CRC_ERR
  else ((s1.setStream k fun x => x.onLast fun f => { f with lineLost := true }).sticky! p Sticky.STREAM_LINE_LOST).ev! p Ev.STREAM_LINE_LOST

/-- A long packet whose CRC-16 does not match (R265). -/
def State.crcFails (s : State) (p : Fin 4) : State :=
  let q := Pg.CAM p
  ((s.inc q Reg.CAM_CRC_ERRORS).sticky! q Sticky.CAM_CRC_ERR).ev! q Ev.CAM_CRC_ERR

/-- A line packet of context `k`, whose frame `f` is open. What finds no room is dropped at its header, before its CRC-16 is known. -/
def State.linePacket (s : State) (p : Fin 4) (k : Fin 32) (f : VFrame) (l : List Byte) (crcOk : Bool) : State :=
  let q := Pg.CAM p
  let pk := Pg.STREAM k
  let s1 := s.setStream k fun x => x.onLast fun f => { f with seen := f.seen + 1 }
  if s.f pk Reg.STREAM_GEOM_HEIGHT ≤ f.seen then
    (s1.setStream k fun x => x.onLast fun f => { f with extraLine := true }).sticky! pk Sticky.STREAM_EXTRA_LINE
  else if 65536 < bufUsed s.cams[p] + l.length then
    (((s1.inc q Reg.CAM_OVERFLOWS).sticky! q Sticky.CAM_OVERFLOW).ev! q Ev.CAM_OVERFLOW).lineLost k false
  else if ¬ crcOk then s1.lineLost k true
  else
    let s2 := (s1.inc q Reg.CAM_PACKETS).incPair q Reg.CAM_BYTES_LO Reg.CAM_BYTES_HI l.length
    let s3 := s2.setStream k fun x => x.onLast fun f => { f with lines := f.lines + 1 }
    let c := s3.camPorts[p]
    let s4 := s3.each (ringSpan (camBuf p) 65536 c.pos l.length) fun s e => s.freshWords e.1 e.2
    ({ s4 with
      cams := s4.cams.set p (s4.cams[p] ++ [(⟨k, f.id, f.seen, c.pos, l⟩ : Packet)]),
      camPorts := s4.camPorts.set p { c with pos := (c.pos + l.length) % 65536 } }).bufShow p

/-- R267: a long packet of virtual channel `vc` and data type `dt` is decoded on CAM_p. -/
def execCsiLongPacket (t : Nat) (p : Fin 4) (vc : Fin 16) (dt : Fin 64) (l : List Byte) (crcOk corrected : Bool) (s : State) :
    Host.Outcome State Fault Refusal :=
  let s1 := (s.upTo t).lanesBusy p
  if s1.isOn (Pg.CAM p) then
    let s0 := s1.hdrCorrected p corrected
    let s2 := if crcOk then s0 else s0.crcFails p
    match (s2.vcContexts p vc).filter fun (k : Fin 32) => takesType dt && s2.f (Pg.STREAM k) Reg.STREAM_CTX_CFG_DT == dt.val with
    | [] => done s (s2.unmatched p)
    | [k] => done s (match s2.streams[k].open? with
      | some f => s2.linePacket p k f l crcOk
      | none => s2)
    | _ => .fault (.hostBreach 266)
  else done s s1

/-! ### Pixels (R270 to R272) -/

/-- The samples of a RAW10 line: four in five bytes. -/
def unpack10 : List Byte → List Nat
  | a :: b :: c :: d :: e :: r =>
    let n := e.toNat
    (a.toNat * 4 + bits n 0 2) :: (b.toNat * 4 + bits n 2 2) :: (c.toNat * 4 + bits n 4 2) :: (d.toNat * 4 + bits n 6 2) :: unpack10 r
  | _ => []

/-- The samples of a RAW12 line: two in three bytes. -/
def unpack12 : List Byte → List Nat
  | a :: b :: c :: r => (a.toNat * 16 + bits c.toNat 0 4) :: (b.toNat * 16 + bits c.toNat 4 4) :: unpack12 r
  | _ => []

/-- The samples of a RAW14 line: four in seven bytes. -/
def unpack14 : List Byte → List Nat
  | a :: b :: c :: d :: e :: f :: g :: r =>
    let n := leNat [e, f, g]
    (a.toNat * 64 + bits n 0 6) :: (b.toNat * 64 + bits n 6 6) :: (c.toNat * 64 + bits n 12 6) :: (d.toNat * 64 + bits n 18 6) :: unpack14 r
  | _ => []

/-- The samples of a RAW16 line: one in two bytes, in a packing the spec does not give. -/
def unpack16 : List Byte → List Nat
  | a :: b :: r => (Config.rawSample 16 [a, b] 0).toNat % 2 ^ 16 :: unpack16 r
  | _ => []

/-- The samples of a RAW20 line: two in five bytes, in a packing the spec does not give. -/
def unpack20 : List Byte → List Nat
  | a :: b :: c :: d :: e :: r =>
    (Config.rawSample 20 [a, b, c, d, e] 0).toNat :: (Config.rawSample 20 [a, b, c, d, e] 1).toNat :: unpack20 r
  | _ => []

/-- The samples of a line by its sample width. -/
def unpack (w : Nat) (l : List Byte) : List Nat :=
  match w with
  | 8 => l.map fun b => b.toNat
  | 10 => unpack10 l
  | 12 => unpack12 l
  | 14 => unpack14 l
  | 16 => unpack16 l
  | _ => unpack20 l

/-- The table bank of context `k` (R269). -/
def streamBank (k : Nat) : Nat := visionBank + k * 0x10000

/-- R270: linearisation of one sample of width `w`. -/
def State.linearise (s : State) (k : Fin 32) (w x : Nat) : Nat :=
  if s.fb (Pg.STREAM k) Reg.STREAM_PIPE_CFG_LIN_EN then
    let t := x * 2 ^ (20 - w)
    let i := t / 4096
    let f := t % 4096
    (rnd ((s.rd (streamBank k + 2 * i) 2 * (4096 - f) + s.rd (streamBank k + 2 * (i + 1)) 2 * f : Nat) : Int) 12).toNat
  else if w ≤ 16 then x * 2 ^ (16 - w) else x / 16

/-- R271: the merge of a long value `l` and a short value `sv`, with whether the clamp acted. -/
def mergePixel (ratio knee l sv : Nat) : Nat × Bool :=
  if l < knee then (l, false)
  else
    let g := (rnd ((sv * ratio : Nat) : Int) 8).toNat
    (min g 65535, decide (65535 < g))

/-- The columns listed as defects on a line (R269). -/
def State.defects (s : State) (k : Fin 32) (line : Nat) : List Nat :=
  let entries := ((List.range 256).map fun i => s.rd (streamBank k + 0x500 + 4 * i) 4).takeWhile fun v => v != 0xFFFFFFFF
  entries.filterMap fun v => if v / 65536 = line then some (v % 65536) else none

/-- R270: a line's pixels with the listed ones replaced from their neighbours before replacement. On a line one pixel wide there is no
neighbour, and the value is the free one. -/
def replaceDefects (w free : Nat) (cols : List Nat) (l : List Nat) : List Nat :=
  l.mapIdx fun c g =>
    if cols.contains c then
      if w ≤ 1 then free % 65536
      else if c = 0 then l.getD 1 0
      else if c = w - 1 then l.getD (w - 2) 0
      else (l.getD (c - 1) 0 + l.getD (c + 1) 0) / 2
    else g

/-- The corners and threshold of ROI `j` of context `k` (R269). -/
structure RoiBox where
  x0 : Nat
  x1 : Nat
  y0 : Nat
  y1 : Nat
  thresh : Nat

def State.roiBox (s : State) (k : Fin 32) (j : Nat) : RoiBox :=
  let a := streamBank k + 0x400 + 16 * j
  ⟨s.rd a 2, s.rd (a + 2) 2, s.rd (a + 4) 2, s.rd (a + 6) 2, s.rd (a + 8) 2⟩

/-- R272: one pixel of a region into its accumulators. -/
def Roi.add (x : Roi) (box : RoiBox) (shift c line g : Nat) : Roi :=
  let bin := min (g / 2 ^ shift) 63
  let x1 := { x with hist := x.hist.set bin (x.hist.getD bin 0 + 1), peak := max x.peak g, sat := x.sat || g == 65535 }
  if box.thresh ≤ g then
    let u := c - box.x0
    let v := line - box.y0
    { x1 with area := x1.area + 1, integ := x1.integ + g, sw := x1.sw + g, su := x1.su + g * u, sv := x1.sv + g * v,
              suu := x1.suu + g * u * u, svv := x1.svv + g * v * v, suv := x1.suv + g * u * v }
  else x1

/-- R272: the pixels of a line into a region. -/
def Roi.addLine (x : Roi) (box : RoiBox) (shift line : Nat) (l : List Nat) : Roi :=
  if box.y0 ≤ line ∧ line < box.y1 then
    (((l.take box.x1).drop box.x0).foldl (fun (q : Roi × Nat) g => (q.1.add box shift q.2 line g, q.2 + 1)) (x, box.x0)).1
  else x

/-- The bytes of the merge ring of lead context `m` that hold its line `e` (R269). -/
def State.leadSpan (s : State) (m : Nat) (e : MergeLine) : Nat × Nat :=
  let n := 2 * s.f (Pg.STREAM m) Reg.STREAM_GEOM_WIDTH
  (visionBank + 0x240000 + m * 0x8000 + e.slot * n, n)

/-- The lead line that pairs with line `line` of a frame with sequence number `q`: the latest written (R271). -/
def State.leadEntry (s : State) (k : Fin 32) (q line : Nat) : Option (Nat × MergeLine) :=
  let m := s.f (Pg.STREAM k) Reg.STREAM_PIPE_CFG_MERGE_CTX
  if h : m < 32 then (s.streams[m].ring.reverse.find? fun e => e.seq == q && e.line == line).map fun e => (m, e) else none

/-- Its values. A line with a word that cannot be corrected is discarded (R339), and counts as absent. -/
def State.leadLine (s : State) (k : Fin 32) (q line : Nat) : Option (List Nat) :=
  (s.leadEntry k q line).bind fun (e : Nat × MergeLine) =>
    let a := s.leadSpan e.1 e.2
    if s.bad a.1 a.2 then none else some e.2.vals

/-- Change the frame with identity `id` of context `k`. -/
def State.onFrame (s : State) (k : Fin 32) (id : Nat) (g : VFrame → VFrame) : State :=
  s.setStream k fun x => { x with frames := x.frames.map fun f => if f.id = id then g f else f }

/-- A line into the slot of its frame. -/
def State.storeLine (s : State) (k : Fin 32) (f : VFrame) (line : Nat) (l : List Byte) : State :=
  match f.slot with
  | some i => s.dramWrite 2 (Pg.STREAM k) (s.slotAddr k i + line * s.stride k) (l.take (s.stride k))
  | none => s

/-- R270 to R272: one line of a processed context, its samples already padded and linearised in `g0`. -/
def State.processLine (s : State) (k : Fin 32) (f : VFrame) (line : Nat) (g0 : List Nat) : State × List Nat :=
  let p := Pg.STREAM k
  let w := s.f p Reg.STREAM_GEOM_WIDTH
  let en := s.fb p Reg.STREAM_PIPE_CFG_MERGE_EN
  let lead := if en then s.leadLine k f.seq line else none
  let merged : List (Nat × Bool) := match lead with
    | some ll => g0.mapIdx fun c g =>
        let o := ll.getD c 0
        if s.fb p Reg.STREAM_PIPE_CFG_MERGE_SEL then mergePixel f.ratio f.knee g o else mergePixel f.ratio f.knee o g
    | none => g0.map fun g => (g, false)
  let s1 := if en ∧ lead.isNone then
      ((s.onFrame k f.id fun f => { f with lineLost := true }).sticky! p Sticky.STREAM_LINE_LOST).ev! p Ev.STREAM_LINE_LOST else s
  let black := merged.map fun q => (q.1 - f.black, q.2 || decide (q.1 < f.black))
  let vals := black.map (·.1)
  let dEn := s.fb p Reg.STREAM_PIPE_CFG_DEFECT_EN
  let cols := if dEn then s.defects k line else []
  let free := (Config.freeValue s.freeCtr).toNat
  let s2 := if w ≤ 1 ∧ cols.contains 0 then s1.takeFree else s1
  let fixed := replaceDefects w free cols vals
  let sh := s.f p Reg.STREAM_PIPE_CFG_FF_SHIFT
  let tiles := (w + 2 ^ sh - 1) / 2 ^ sh
  let flat : List (Nat × Bool) := if s.fb p Reg.STREAM_PIPE_CFG_FF_EN then
      fixed.mapIdx fun c g =>
        let v := (rnd ((g * s.rd (streamBank k + 0x1000 + 2 * (line / 2 ^ sh * tiles + c / 2 ^ sh)) 2 : Nat) : Int) 14).toNat
        (min v 65535, decide (65535 < v))
    else fixed.map fun g => (g, false)
  let out := flat.map (·.1)
  let s3 := if black.any (·.2) ∨ flat.any (·.2) then s2.sticky! p Sticky.STREAM_PIX_SAT else s2
  let s4 := s3.onFrame k f.id fun f => { f with
    rois := f.rois.mapIdx fun j x => x.addLine (s.roiBox k j) (s.f p Reg.STREAM_PIPE_CFG_HIST_SHIFT) line out }
  (s4, out)

/-- R267: one whole packet in its context. -/
def State.pipePacket (s : State) (k : Fin 32) (f : VFrame) (w : Option Nat) (q : Packet) : State :=
  let p := Pg.STREAM k
  let width := s.f p Reg.STREAM_GEOM_WIDTH
  let kind := s.f p Reg.STREAM_CTX_CFG_KIND
  let x := s.streams[k]
  let raw : List Nat := match w with | some b => unpack b q.bytes | none => []
  let short : Bool := w.isSome && decide (raw.length < width)
  let s1 := if short then (s.onFrame k f.id fun f => { f with lineShort := true }).sticky! p Sticky.STREAM_LINE_SHORT else s
  let padded := raw.take width ++ List.replicate (width - raw.length) 0
  let lin := padded.map fun x => s.linearise k (w.getD 8) x
  let (s2, out) : State × List Nat :=
    if kind = 0 then s1.processLine k f q.line lin
    else if kind = 2 then
      let cap := 32768 / (2 * max 1 width)
      let slot := (match x.ring.getLast? with | some e => e.slot + 1 | none => 0) % max 1 cap
      let e : MergeLine := ⟨f.seq, q.line, slot, lin⟩
      let a := s.leadSpan k e
      ((s1.setStream k fun x => { x with ring := (x.ring ++ [e]).drop (x.ring.length + 1 - cap) }).freshWords a.1 a.2, lin)
    else (s1, [])
  if s.f p Reg.STREAM_STORE_CFG_FORM = 1 ∧ kind ≠ 1 then s2.storeLine k f q.line (out.flatMap fun g => leBytes 2 g)
  else s2.storeLine k f q.line q.bytes

/-- R269: every ROI below NROI lies in the frame. One whose entry cannot be corrected is used as 0 and is empty (R339), which is no host's doing. -/
def State.roisOk (s : State) (k : Fin 32) : Bool :=
  let p := Pg.STREAM k
  (List.range (s.f p Reg.STREAM_PIPE_CFG_NROI)).all fun j =>
    let x := s.roiBox k j
    s.bad (streamBank k + 0x400 + 16 * j) 16 || decide (x.x0 < x.x1 ∧ x.x1 ≤ s.f p Reg.STREAM_GEOM_WIDTH ∧ x.y0 < x.y1 ∧ x.y1 ≤ s.f p Reg.STREAM_GEOM_HEIGHT)

/-- R282: the slot of a stored frame holds it. -/
def State.slotOk (s : State) (k : Fin 32) (f : VFrame) : Bool :=
  let p := Pg.STREAM k
  f.slot.isNone || decide (s.f p Reg.STREAM_GEOM_HEIGHT * s.stride k ≤ s.f p Reg.STREAM_SLOT_BYTES)

/-- The entries of the defect list up to the one that ends it. -/
def State.defectCount (s : State) (k : Fin 32) : Nat :=
  ((List.range 256).takeWhile fun i => s.rd (streamBank k + 0x500 + 4 * i) 4 != 0xFFFFFFFF).length

/-- R339: what the pipeline reads of BANK_VISION for a line of a processed or a lead context, beside the line itself: the nodes its samples name,
the regions, the defect list, the gains of its row and the lead line. -/
def State.lineTables (s : State) (k : Fin 32) (f : VFrame) (w : Nat) (q : Packet) : List (Nat × Nat) :=
  let p := Pg.STREAM k
  let a := streamBank k
  let width := s.f p Reg.STREAM_GEOM_WIDTH
  let lin := if s.fb p Reg.STREAM_PIPE_CFG_LIN_EN then
      (((unpack w q.bytes).take width ++ [0]).map fun x => x * 2 ^ (20 - w) / 4096).eraseDups.map fun i => (a + 2 * i, 4) else []
  if s.f p Reg.STREAM_CTX_CFG_KIND ≠ 0 then lin
  else
    let sh := s.f p Reg.STREAM_PIPE_CFG_FF_SHIFT
    let tiles := (width + 2 ^ sh - 1) / 2 ^ sh
    let lead : List (Nat × Nat) := if s.fb p Reg.STREAM_PIPE_CFG_MERGE_EN then
        (match s.leadEntry k f.seq q.line with | some e => [s.leadSpan e.1 e.2] | none => []) else []
    lin ++ lead ++ (List.range (s.f p Reg.STREAM_PIPE_CFG_NROI)).map (fun j => (a + 0x400 + 16 * j, 12))
      ++ (if s.fb p Reg.STREAM_PIPE_CFG_DEFECT_EN then [(a + 0x500, 4 * min 256 (s.defectCount k + 1))] else [])
      ++ (if s.fb p Reg.STREAM_PIPE_CFG_FF_EN then [(a + 0x1000 + 2 * (q.line / 2 ^ sh * tiles), 2 * tiles)] else [])

/-- R339: a line of the input buffer with a word that cannot be corrected is discarded, and its frame is marked LINE_LOST. -/
def State.discardLine (s : State) (k : Fin 32) (f : VFrame) : State :=
  let p := Pg.STREAM k
  ((s.onFrame k f.id fun f => { f with lineLost := true, lines := f.lines - 1 }).sticky! p Sticky.STREAM_LINE_LOST).ev! p Ev.STREAM_LINE_LOST

/-- R267, R270: the pipeline takes the oldest packet of CAM_p's buffer and processes it whole in its context. -/
def execPipelinePacket (t : Nat) (p : Fin 4) (s : State) : Host.Outcome State Fault Refusal :=
  let s1 := s.upTo t
  match s1.cams[p] with
  | [] => done s s1
  | q :: r =>
    let span := ringSpan (camBuf p) 65536 q.pos q.bytes.length
    let s2 := (({ s1 with cams := s1.cams.set p r }).bufShow p).ownerReads span
    let k : Fin 32 := ⟨q.ctx % 32, Nat.mod_lt _ (by decide)⟩
    match s2.streams[k].frames.find? fun f => f.id == q.frame with
    | none => done s s2
    | some f =>
      let w := rawWidth (s2.f (Pg.STREAM k) Reg.STREAM_CTX_CFG_DT)
      if f.throttled then done s s2
      else if w.isNone ∧ s2.f (Pg.STREAM k) Reg.STREAM_CTX_CFG_KIND ≠ 1 then .fault (.hostBreach 265)
      else if s2.f (Pg.STREAM k) Reg.STREAM_CTX_CFG_KIND = 0 ∧ ¬ s2.roisOk k then .fault (.hostBreach 269)
      else if ¬ s2.slotOk k f then .fault (.hostBreach 282)
      else if span.any fun e => s1.bad e.1 e.2 then done s (s2.discardLine k f)
      else doneDma s ((s2.ownerReads (match w with | some b => s2.lineTables k f b q | none => [])).pipePacket k f w q)

/-! ### Records (R272, R277 to R279) -/

/-- A division of R272 that is clamped to 32 bits; whether the clamp acted. -/
def moment (num : Int) (sw : Nat) : Nat × Bool :=
  let v := tdiv (num * 256) (sw * sw : Nat)
  (v.toNat % 2 ^ 64 |> fun n => min n (2 ^ 32 - 1), decide ((2 ^ 32 - 1 : Int) < v))

/-- R277: the full record of ROI `j` of frame `f`, and whether a moment saturated. -/
def State.fullRecord (s : State) (k : Fin 32) (f : VFrame) (j : Nat) (x : Roi) : List Byte × Bool :=
  let p := Pg.STREAM k
  let brush := s.f p Reg.STREAM_CTX_CFG_BRUSH
  let stroke : Nat := if h : brush < 16 then (if f.noTrig then 0xFFFFFFFF else s.brushes[brush].strokeAt f.mid) else 0xFFFFFFFF
  let empty := x.sw == 0
  let cx := if empty then 0 else (x.su * 256 + x.sw / 2) / x.sw
  let cy := if empty then 0 else (x.sv * 256 + x.sw / 2) / x.sw
  let mxx := if empty then (0, false) else moment ((x.suu * x.sw : Nat) - (x.su * x.su : Nat) : Int) x.sw
  let myy := if empty then (0, false) else moment ((x.svv * x.sw : Nat) - (x.sv * x.sv : Nat) : Int) x.sw
  let mxyv : Int := if empty then 0 else tdiv (((x.suv * x.sw : Nat) - (x.su * x.sv : Nat) : Int) * 256) (x.sw * x.sw : Nat)
  let flags := b2n empty + 2 * b2n f.truncated + 4 * b2n f.lineLost + 8 * b2n f.crcErr + 16 * b2n f.lineShort + 32 * b2n f.extraLine
    + 64 * b2n f.noTrig
  let w1 := flags + 2 ^ 7 * b2n f.resynced + 2 ^ 8 * b2n x.sat + 2 ^ 9 * b2n (brush == 31) + 2 ^ 15 * b2n (decide (2 ≤ flags))
  let bytes := leBytes 4 (f.seq * 65536 + k * 256 + j * 16 + (if brush < 16 then brush else 15)) ++ leBytes 4 (f.setId * 65536 + w1)
    ++ leBytes 8 f.fsTime ++ leBytes 4 stroke ++ leBytes 4 (f.fn * 65536 + f.lines) ++ leBytes 4 x.area
    ++ leBytes 4 (x.peak * 65536 + (s.roiBox k j).thresh) ++ leBytes 8 (x.integ % 2 ^ 48) ++ leBytes 4 cx ++ leBytes 4 cy ++ leBytes 4 mxx.1
    ++ leBytes 4 myy.1 ++ leBytes 4 (wrapU 32 (sat mxyv 32)) ++ leBytes 4 (match f.slot with | some i => i | none => 0xFFFF)
    ++ x.hist.flatMap (leBytes 4)
  (bytes, mxx.2 || myy.2 || satHit mxyv 32)

/-- R278: the short record of a full one. -/
def shortRecord (l : List Byte) : List Byte :=
  l.take 12 ++ (l.drop 0x10).take 4 ++ (l.drop 0x18).take 4 ++ leBytes 4 (fieldAt l 0x1E 2 * 65536) ++ leBytes 4 (fieldAt l 0x20 6 / 1024)
    ++ leBytes 4 (fieldAt l 0x2C 4 / 32 % 65536 * 65536 + fieldAt l 0x28 4 / 32 % 65536)

/-- The class of a context's records (R279): 0 glaze, 1 inspection. -/
def State.classOf (s : State) (k : Fin 32) : Nat := if s.f (Pg.STREAM k) Reg.STREAM_CTX_CFG_BRUSH < 16 then 0 else 1

/-- R272: the records of context `k`'s oldest frame are complete once it has ended and none of its packets is left; where it is stored, its
image is complete and is queued for the host (R282). A throttled frame yields nothing (R283). -/
def execFrameRecordsComplete (t : Nat) (k : Fin 32) (s : State) : Host.Outcome State Fault Refusal :=
  let s1 := s.upTo t
  let p := Pg.STREAM k
  done s (match s1.streams[k].frames with
  | f :: r =>
    if f.ended ∧ ¬ (s1.cams[streamPort k].any fun q => q.ctx == k.val && q.frame == f.id) then
      let s2 := s1.setStream k fun x => { x with frames := r }
      let s3 := match f.slot with
        | some i =>
          let s3 := s2.setF p Reg.STREAM_STATUS_LAST_SLOT i
          if s.f p Reg.STREAM_STORE_CFG_HOST = 0 then s3
          else s3.setStream k fun x => { x with
            imgs := x.imgs ++ [⟨i, f.seq, min f.seen (s.f p Reg.STREAM_GEOM_HEIGHT) * s.stride k⟩] }
        | none => s2
      if f.throttled ∨ s3.f p Reg.STREAM_CTX_CFG_KIND ≠ 0 ∨ f.rois = [] then s3
      else
        let rs := f.rois.mapIdx fun j x => s3.fullRecord k f j x
        let s3 := s3.ownerReads (f.rois.mapIdx fun j _ => (streamBank k + 0x408 + 16 * j, 2))
        let s4 := if rs.any (·.2) then s3.sticky! p Sticky.STREAM_MOM_SAT else s3
        if s4.isOn Pg.VISION then
          { s4 with vision := { s4.vision with complete := s4.vision.complete ++ [⟨s4.classOf k, f.fsTime, k, rs.map (·.1)⟩] } }
        else s4
    else s1
  | [] => s1)

/-- The key (FS_TIME, CTX) of R279 orders `a` before `b`. -/
def frameBefore (a b : Nat × Nat) : Bool := decide (sdiff48 a.1 b.1 < 0) || (a.1 == b.1 && decide (a.2 < b.2))

/-- A frame of class `cls` with a smaller key is still open or still being processed (R279). -/
def State.earlierOpen (s : State) (cls : Nat) (key : Nat × Nat) : Bool :=
  (List.finRange 32).any fun k =>
    s.classOf k == cls && s.f (Pg.STREAM k) Reg.STREAM_CTX_CFG_KIND == 0
      && s.streams[k].frames.any fun f => !f.throttled && frameBefore (f.fsTime, k.val) key

/-- STATUS.QUEUE follows the release queue. -/
def State.queueShow (s : State) : State := s.setF Pg.VISION Reg.VISION_STATUS_QUEUE s.vision.queue.length

/-- R281: a ready record into the ring of its class, if the ring has room. -/
def State.ringWrite (s : State) (cls : Nat) (l : List Byte) : State :=
  let p := Pg.VISION
  let wr := s.f p (Reg.VISION_MRING_WR.num cls)
  let n := 2 ^ s.f p (Reg.VISION_MRING_SIZE.num cls)
  if (wr + 2 ^ 32 - s.f p (Reg.VISION_MRING_RD.num cls)) % 2 ^ 32 = n then
    ((s.inc p (if cls = 0 then Reg.VISION_RING_FULL_0 else Reg.VISION_RING_FULL_1)).sticky! p Sticky.VISION_RING_FULL).ev! p Ev.VISION_RING_FULL
  else
    let base := s.a p (Reg.VISION_MRING_BASE_LO.num cls) * 64 + s.a p (Reg.VISION_MRING_BASE_HI.num cls) * 2 ^ 32
    (s.dramWrite 2 Pg.VISION (base + wr % n * 320) l).setF p (Reg.VISION_MRING_WR.num cls) ((wr + 1) % 2 ^ 32)

/-- R279: a ready class 0 record into the release queue, which holds 256. -/
def State.release (s : State) (l : List Byte) : State :=
  let p := Pg.VISION
  if s.vision.queue.length < 256 then
    ({ s with vision := { s.vision with queue := s.vision.queue ++ [(s.now, shortRecord l)] } }).queueShow
  else ((s.inc p Reg.VISION_GLAZE_DROPS).sticky! p Sticky.VISION_RECORD_DROP).ev! p Ev.VISION_RECORD_DROP

/-- The complete frame of a class with the least key. -/
def State.firstDone (s : State) (cls : Nat) : Option DoneFrame :=
  (s.vision.complete.filter fun d => d.cls == cls).foldl (fun (a : Option DoneFrame) d =>
    match a with
    | some x => if frameBefore (d.fsTime, d.ctx) (x.fsTime, x.ctx) then some d else some x
    | none => some d) none

/-- VISION works: it is ON, or STOPPING until it has emptied (R284). -/
def State.visionRuns (s : State) : Bool := s.isOn Pg.VISION || s.st Pg.VISION == stStopping

/-- R279: the next record of class `cls` becomes ready. -/
def execRecordReady (t : Nat) (cls : Fin 2) (s : State) : Host.Outcome State Fault Refusal :=
  let s1 := s.upTo t
  doneDma s (if s1.visionRuns then
    match s1.firstDone cls with
    | some d =>
      if s1.earlierOpen cls (d.fsTime, d.ctx) then s1
      else match d.recs with
        | l :: r =>
          let rest := s1.vision.complete.filterMap fun e =>
            if e = d then (if r = [] then none else some { d with recs := r }) else some e
          let s2 := { s1 with vision := { s1.vision with complete := rest } }
          let s3 := s2.ringWrite cls l
          if cls.val = 0 then s3.release l else s3
        | [] => s1
    | none => s1
  else s1)

/-! ### Batches and MET (R279, R280) -/

/-- B of a pair takes its batches from MET frames (R280). -/
def State.peerMet (s : State) : Bool :=
  s.roleB && s.isOn Pg.DIPTYCH && !s.noCamera

/-- R279: at t0(n) up to four records that became ready before it form batch n. -/
def State.formBatch (s : State) (n : Nat) : State :=
  let peer := s.peerMet
  let s1 := if s.pageOn Pg.VISION then s.setB Pg.VISION Reg.VISION_STATUS_PEER_MET peer else s
  if s1.visionRuns ∧ ¬ peer ∧ ¬ s1.noCamera then
    let take : List (Nat × List Byte) := (List.take 4 s1.vision.queue).takeWhile fun (e : Nat × List Byte) => decide (0 < sdiff48 (t0 n) e.1)
    ({ s1 with vision := { s1.vision with
        queue := s1.vision.queue.drop take.length,
        batches := (s1.vision.batches ++ [(n, take.map Prod.snd)]).drop (s1.vision.batches.length + 1 - 4) } }).queueShow
  else s1

/-- A short record reaches the GLAZE page of its brush at frame `n`. -/
def State.deliverRecord (s : State) (n : Nat) (l : List Byte) : State :=
  let b : Fin 16 := ⟨fieldAt l 0 1 % 16, Nat.mod_lt _ (by decide)⟩
  let w0 := fieldAt l 0 4
  let m : MetHeld := ⟨fieldAt l 0x10 4, fieldAt l 0x16 2, fieldAt l 0x18 4, n⟩
  (s.inc Pg.VISION Reg.VISION_RELEASED).holdRecord b (bits w0 4 3) m ((fieldAt l 4 4).testBit 15) (bits w0 16 16)

/-- R279, R280: batch `n` reaches glaze at t0(n + 1). -/
def execBatchDeliver (n : Nat) (s : State) : Host.Outcome State Fault Refusal :=
  let s1 := s.upTo (t0 (n + 1))
  let p := Pg.VISION
  done s (if s1.visionRuns then
    if s1.peerMet then
      match s1.vision.met with
      | some (fr, recs) =>
        if fr = n % 2 ^ 32 then ({ s1 with vision := { s1.vision with met := none } }).each recs fun s l => s.deliverRecord (n + 1) l
        else ((s1.inc p Reg.VISION_MET_MISSING).sticky! p Sticky.VISION_MET_MISSING).ev! p Ev.VISION_MET_MISSING
      | none => ((s1.inc p Reg.VISION_MET_MISSING).sticky! p Sticky.VISION_MET_MISSING).ev! p Ev.VISION_MET_MISSING
    else
      match s1.vision.batches.find? fun e => e.1 == n with
      | some e =>
        ({ s1 with vision := { s1.vision with batches := s1.vision.batches.filter fun x => x.1 != n } }).each e.2 fun s l => s.deliverRecord (n + 1) l
      | none => s1
  else s1)

/-- The payload of a MET frame (R86). -/
def metPayload (n : Nat) (recs : List (List Byte)) : List Byte :=
  leBytes 4 (32 * 65536 + recs.length) ++ leBytes 4 (n % 2 ^ 32) ++ recs.flatten

/-- R280: device A launches a MET frame on each peer port that is UP. -/
def execMetLaunch (n : Nat) (s : State) : Host.Outcome State Fault Refusal :=
  let s1 := s.upTo (t0 n + 4800)
  done s (if s1.visionRuns ∧ s1.isOn Pg.DIPTYCH ∧ ¬ s1.roleB then
    let recs : List (List Byte) := match s1.vision.batches.find? fun e => e.1 == n with | some e => e.2 | none => []
    s1.each [(2 : Fin 20), 3] fun s l => s.queueFrame l 0x0B (metPayload n recs)
  else s1)

/-- A byte list cut into records of 32 bytes. -/
def chunk32 (n : Nat) (l : List Byte) : List (List Byte) := (List.range n).map fun i => (l.drop (32 * i)).take 32

/-- R280: device B accepts a MET frame; the first of the present frame is batch n. -/
def execMetReceive (t : Nat) (frame : Word) (count : Fin 5) (l : List Byte) (s : State) : Host.Outcome State Fault Refusal :=
  let s1 := s.upTo t
  let have' : Bool := match s1.vision.met with | some e => e.1 == frame.toNat | none => false
  done s (if s1.visionRuns ∧ s1.peerMet ∧ ¬ have' ∧ frame.toNat = frameOf s1.now % 2 ^ 32 then
    { s1 with vision := { s1.vision with met := some (frame.toNat, chunk32 count l) } }
  else s1)

/-! ### Triggers (R273, R274) -/

/-- The contexts configured to own trigger output `o`. -/
def State.owners (s : State) (o : Fin 8) : List (Fin 32) := (List.finRange 32).filter fun k => s.ownsTrig k && s.trigOf k == o

/-- The level at CAM_TRIG_o (R273). -/
def State.trigPin (s : State) (o : Fin 8) : Bool :=
  match s.owners o with
  | k :: _ => s.domOn 6 && (s.fb (Pg.STREAM k) Reg.STREAM_TRIG_CFG_POL != s.trigs[o].endAt.isSome)
  | [] => false

/-- The launch tick that is due on output `o`, whose owner is `k`. -/
def State.launchTick (s : State) (k : Fin 32) (o : Fin 8) : Option Nat :=
  if s.f (Pg.STREAM k) Reg.STREAM_TRIG_CFG_MODE = 0 then s.trigs[o].next else s.trigs[o].oneshot

/-- The settings that a stream still tells apart once trigger `q` is launched: those of more than 32,767 launches ago count as the settings of that
one. -/
def agedSets (q : Nat) (l : List PipeSet) : List PipeSet :=
  let old (e : PipeSet) : Bool := decide (32767 ≤ (q + 65536 - e.seq) % 65536)
  l.takeWhile (fun e => !old e) ++ ((l.find? old).map fun e => { e with seq := (q + 32769) % 65536 }).toList

/-- The pipeline settings of context `k` from trigger `q` on, where they differ from those before (R274). -/
def State.pushSet (s : State) (k : Fin 32) (q : Nat) : State :=
  let p := Pg.STREAM k
  let e : PipeSet := ⟨q, s.a p Reg.STREAM_BLACK, s.a p Reg.STREAM_MERGE_RATIO, s.a p Reg.STREAM_MERGE_KNEE⟩
  s.setStream k fun x =>
    let l := agedSets q x.sets
    { x with sets := if x.setFor q = some { e with seq := (l.head?.getD e).seq } ∧ l ≠ [] then l else e :: l }

/-- A launch at `v` by owner `k`: the commits of every context of the trigger, the log entry and the pulse. -/
def State.launchTrigger (s : State) (k : Fin 32) (o : Fin 8) (v : Nat) : State :=
  let q := s.trigs[o].seq
  let users := (List.finRange 32).filter fun (j : Fin 32) => s.pageOn (Pg.STREAM j) && s.trigOf j == o && s.fb (Pg.STREAM j) Reg.STREAM_CTX_CFG_TRIG_USE
  let s1 := s.each users fun s j => (s.takeShadow (Pg.STREAM j) v).pushSet j q
  let p := Pg.STREAM k
  let w := s1.a p Reg.STREAM_EXPOSURE
  let e : TrigLog := ⟨q, v, w, s1.a p Reg.STREAM_SET_ID, s1.ai p Reg.STREAM_TRIG_DELAY⟩
  (s1.setTrig o fun x => { x with
    seq := (q + 1) % 65536, next := x.next.map fun _ => v + s1.a p Reg.STREAM_TRIG_PERIOD, oneshot := none, endAt := some (v + w),
    log := (e :: x.log).take 64 }).inc p Reg.STREAM_TRIGGERS

/-- R273: the limits on WIDTH and, in MODE 0, on TRIG_PERIOD. -/
def State.pulseOk (s : State) (k : Fin 32) : Bool :=
  let p := Pg.STREAM k
  let w := s.a p Reg.STREAM_EXPOSURE
  decide (64 ≤ w ∧ (s.f p Reg.STREAM_TRIG_CFG_MODE = 0 → w + 640 ≤ s.a p Reg.STREAM_TRIG_PERIOD))

/-- R273: the launch tick of output `o` arrives. Two owners of one output are a host error, and so is a launch outside the limits. -/
def execTriggerLaunch (t : Nat) (o : Fin 8) (s : State) : Host.Outcome State Fault Refusal :=
  let s1 := s.upTo t
  match (s1.owners o).filter fun (k : Fin 32) => s1.isOn (Pg.STREAM k) with
  | [k] =>
    match s1.launchTick k o with
    | some v =>
      let s2 := s1.launchTrigger k o v
      if ¬ s1.past v then done s s1 else if s2.pulseOk k then done s s2 else .fault (.hostBreach 273)
    | none => done s s1
  | [] => done s s1
  | _ => .fault (.hostBreach 273)

/-- R273: at v + WIDTH the output returns to its inactive level. -/
def execTriggerEnd (t : Nat) (o : Fin 8) (s : State) : Host.Outcome State Fault Refusal :=
  let s1 := s.upTo t
  done s (match s1.trigs[o].endAt with
  | some v => if s1.past v then s1.setTrig o fun x => { x with endAt := none } else s1
  | none => s1)

/-- R273: ONESHOT_HI is written with `v`: the tick applies whole (R40) and queues one launch, or is late. -/
def State.oneshotWrite (s : State) (k : Fin 32) (v : Word) : State :=
  let p := Pg.STREAM k
  let s1 := (s.setF p Reg.STREAM_ONESHOT_HI v.toNat).setActWord (regAddr p Reg.STREAM_ONESHOT_HI.off) v
  let s2 := s1.setActWord (regAddr p Reg.STREAM_ONESHOT_LO.off) (s1.word (regAddr p Reg.STREAM_ONESHOT_LO.off))
  if s2.f p Reg.STREAM_TRIG_CFG_MODE = 1 ∧ s2.ownsTrig k ∧ s2.isOn p then
    let tick := near48 s2.now (s2.pair p Reg.STREAM_ONESHOT_LO Reg.STREAM_ONESHOT_HI)
    if sdiff48 tick s2.now < 640 then ((s2.inc p Reg.STREAM_TRIG_LATE).sticky! p Sticky.STREAM_TRIG_LATE).ev! p Ev.STREAM_TRIG_LATE
    else s2.setTrig (s2.trigOf k) fun x => { x with oneshot := some tick }
  else s2

/-- R273: a write of ONESHOT_HI of STREAM_k. -/
def execOneshotWrite (t : Nat) (k : Fin 32) (v : Word) (s : State) : Host.Outcome State Fault Refusal :=
  let s1 := s.upTo t
  let p := Pg.STREAM k
  if ¬ s1.pageOn p then .fault (.domainOff (regAddr p Reg.STREAM_ONESHOT_HI.off))
  else if 65536 ≤ v.toNat then .fault (.reservedWrite (regAddr p Reg.STREAM_ONESHOT_HI.off))
  else done s (s1.oneshotWrite k v)

/-! ### STREAM (R100, R282) -/

/-- The image context `k` sends next, with its OFFSET: the one begun, or the oldest queued. -/
def Stream.nextImage (x : Stream) : Option (Img × Nat) :=
  match x.sending with
  | some e => some e
  | none => x.imgs.head?.map fun m => (m, 0)

/-- R100: a STREAM frame of context `k` leaves its host port, when nothing that goes first is ready. -/
def execStreamFrameSend (t : Nat) (k : Fin 32) (s : State) : Host.Outcome State Fault Refusal :=
  let s1 := s.upTo t
  let p := Pg.STREAM k
  let host := s1.f p Reg.STREAM_STORE_CFG_HOST
  doneDma s (if h : 1 ≤ host ∧ host ≤ 2 then
    let l : Fin 20 := ⟨host - 1, by omega⟩
    match s1.streams[k].nextImage with
    | some (m, off) =>
      if s1.pageOn p ∧ s1.laneUp l ∧ 0 < m.len ∧ s1.dramOn then
        let n := min (m.len - off) (256 * 2 ^ s1.laneRate l)
        let last := decide (m.len ≤ off + n)
        let payload := leBytes 4 (m.seq * 65536 + k * 256 + 2 * b2n last + b2n (off == 0)) ++ leBytes 4 off ++ s1.bytes (s1.slotAddr k m.slot + off) n
        s1.trySend l 0x0C 0 payload fun s0 =>
          let s := s0.dramRead 2 (Pg.STREAM k) (s1.slotAddr k m.slot + off) n
          ((s.setStream k fun x => { x with
            imgs := if x.sending.isNone then x.imgs.drop 1 else x.imgs,
            sending := if last then none else some (m, off + n) }).setB p Reg.STREAM_STATUS_SENDING (!last)).incPair (lanePage l)
              Reg.FRAME_STREAM_BYTES_LO Reg.FRAME_STREAM_BYTES_HI n
      else if m.len = 0 ∧ s1.streams[k].sending.isNone then s1.setStream k fun x => { x with imgs := x.imgs.drop 1 }
      else s1
    | none => s1
  else s1)

end Sys2Proof.Machine
end

