-- ==== Sys2Proof/Machine/Light.lean ====
section
/-! DEFINITION. Inspection lighting (spec/18_light.md): the frames of the light ports, timed syncs, the command FIFO, compensation, polls, and the
check of what returns on the ring. A burst is one command, taken at its start, with the words that return. -/

namespace Sys2Proof.Machine

/-! ### Bursts (R323) -/

/-- The last rising edge of a burst of `n` drivers that starts at `v`. -/
def burstEnd (n v : Nat) : Nat := v + 256 * (95 + n)

/-- The gap rule of R323 lets a burst start at `v`. -/
def LtPort.gapOk (x : LtPort) (v : Nat) : Bool :=
  match x.lastEnd with
  | some e => decide (1280 ≤ signed 64 (wrapU 64 ((v : Int) - e)))
  | none => true

/-- The start of the sync burst for tick `v` (R327). -/
def State.syncStart (s : State) (n : Fin 4) (v : Nat) : Int :=
  (v : Int) - s.fi (Pg.LTPORT n) Reg.LTPORT_SYNC_LEAD - (94 + s.drivers n : Nat) * 256

/-- A burst starting at `v` ends, with its gap, before the next queued sync (R328). -/
def State.burstFits (s : State) (n : Fin 4) (v : Nat) : Bool :=
  match s.lights[n].syncs with
  | q :: _ => reached (s.syncStart n q) ((burstEnd (s.drivers n) v + 1280 : Nat) : Int)
  | [] => true

/-- A burst with words `w0` and `w1` has its rising edge 0 at `v`; `back` says what its return brings, and the words that return. -/
def State.burstSent (s : State) (n : Fin 4) (v w0 w1 : Nat) (kind : LtKind) (r : Nat × Nat × Nat) : State :=
  let e := burstEnd (s.drivers n) v
  ((s.setLight n fun x => { x with
    lastEnd := some e, line := some (v, w0, w1), nopDue := false, back := some ⟨kind, e, w0, w1, r.1, r.2.1, r.2.2⟩ }).inc
    (Pg.LTPORT n) Reg.LTPORT_FRAMES).fmeasLight n v

/-- Bit `i` of the frame of words `w0` and `w1` in transmission order: 96 bits, most significant first, and 0 after them (R323, R324). -/
def ltBit (w0 w1 i : Nat) : Bool := ((w0 * 2 ^ 32 + w1) * 2 ^ 32 + ltCrc w0 w1).testBit (95 - i) && decide (i < 96)

/-- R322, R323: the levels of LT_CK and LT_DO at the present tick: rising edge `i` of a burst falls 256 tk × i after its start and each is high for
128 tk; LT_DO changes at the falling edges, bit 0 half a period before rising edge 0. Between bursts, and in OFF, both are low. -/
def State.ltPins (s : State) (n : Fin 4) : Bool × Bool :=
  match s.lights[n].line with
  | some (v, w0, w1) =>
    let d := signed 64 (wrapU 64 ((s.now : Int) - v + 128))
    if s.st (Pg.LTPORT n) = stOff ∨ d < 0 ∨ (256 * (96 + s.drivers n) : Nat) + 128 ≤ d then (false, false)
    else (decide (128 ≤ d % 256), ltBit w0 w1 (d.toNat / 256))
  | none => (false, false)

/-! ### Syncs (R327) -/

/-- A sync that is discarded is counted. -/
def State.syncLate (s : State) (n : Fin 4) : State :=
  let p := Pg.LTPORT n
  (s.inc p Reg.LTPORT_SYNC_LATE).ev! p Ev.LTPORT_SYNC_LATE

/-- R327: SYNC_AT_HI of LTPORT_n is written with `v`: the tick is queued, discarded as late, or lost to a full queue. -/
def execSyncAtWrite (t : Nat) (n : Fin 4) (v : Word) (s : State) : Host.Outcome State Fault Refusal :=
  let s1 := (s.upTo t).lightReturn n
  let p := Pg.LTPORT n
  let hi := Reg.LTPORT_SYNC_AT_HI
  if ¬ s1.pageOn p then .fault (.domainOff (regAddr p hi.off))
  else if 65536 ≤ v.toNat then .fault (.reservedWrite (regAddr p hi.off))
  else
    let s2 := ((s1.setF p hi v.toNat).setActWord (regAddr p hi.off) v).setActWord (regAddr p Reg.LTPORT_SYNC_AT_LO.off)
      (s1.word (regAddr p Reg.LTPORT_SYNC_AT_LO.off))
    let tick := near48 s2.now (s2.pair p Reg.LTPORT_SYNC_AT_LO hi)
    let q := s2.lights[n].syncs
    if 4 ≤ q.length then done s ((s2.sticky! p Sticky.LTPORT_SYNC_OVF).syncLate n)
    else if (match q.getLast? with | some w => decide (sdiff48 tick w ≤ 0) | none => false) then .fault (.hostBreach 327)
    else if 0 < sdiff48 s2.now (s2.syncStart n tick - 1280) then done s ((s2.sticky! p Sticky.LTPORT_SYNC_LATE).syncLate n)
    else done s ((s2.setLight n fun x => { x with syncs := x.syncs ++ [tick] }).lightShow n)

/-- The sync at the head of the queue is sent, its edge 94 + N at v − SYNC_LEAD: a split where entries pushed before it without AFTER_SYNC wait,
and the entries that waited for it go on (R327, R328). -/
def State.syncSent (s : State) (n : Fin 4) (start : Nat) (r : Nat × Nat × Nat) : State :=
  let p := Pg.LTPORT n
  let split := s.lights[n].cmds.any fun c => !c.after
  let s1 := (s.burstSent n start (ltWord true 0 3 0) (s.drivers n - 1) .sync r).inc p Reg.LTPORT_SYNCS_SENT
  let s2 := if split then (s1.inc p Reg.LTPORT_SPLITS).ev! p Ev.LTPORT_SYNC_SPLIT else s1
  (s2.setLight n fun x => { x with syncs := x.syncs.drop 1, cmds := x.cmds.map fun c => { c with wait := false } }).lightShow n

/-- R327: bit 0 of the next queued sync's burst goes out, half a period before its start: the burst is sent, or the sync is late: the gap rule has
no room for it, or its start lies before the port came to ON (log 45). -/
def execLightSyncBurst (t : Nat) (n : Fin 4) (r0 r1 r2 : Word) (s : State) : Host.Outcome State Fault Refusal :=
  let s1 := (s.upTo t).lightReturn n
  let p := Pg.LTPORT n
  done s (match s1.lights[n].syncs with
  | v :: r =>
    let start := s1.syncStart n v
    if s1.isOn p ∧ s1.past (start - 128) then
      if s1.lights[n].gapOk (wrapU 64 start) ∧ 0 ≤ sdiff48 start (s1.entered p) then s1.syncSent n (wrapU 64 start) (r0.toNat, r1.toNat, r2.toNat)
      else (((s1.setLight n fun x => { x with syncs := r }).lightShow n).sticky! p Sticky.LTPORT_SYNC_LATE).syncLate n
    else s1
  | [] => s1)

/-! ### The command FIFO (R328) -/

/-- R328: CMD_HDR of LTPORT_n is written with `v`: an entry is pushed, or lost to a full FIFO. -/
def execCmdHdrWrite (t : Nat) (n : Fin 4) (v : Word) (s : State) : Host.Outcome State Fault Refusal :=
  let s1 := (s.upTo t).lightReturn n
  let p := Pg.LTPORT n
  let w := v.toNat
  let a := regAddr p 0x050
  if ¬ s1.pageOn p then .fault (.domainOff a)
  else if bits w 30 1 ≠ 0 ∨ bits w 8 12 ≠ 0 then .fault (.reservedWrite a)
  else if 3 ≤ bits w 20 4 then .fault (.reservedEncoding a)
  else if 64 ≤ s1.lights[n].cmds.length then done s (s1.sticky! p Sticky.LTPORT_FIFO_OVF)
  else
    let after := w.testBit 31
    done s ((s1.setLight n fun x => { x with
      cmds := x.cmds ++ [⟨s1.f p Reg.LTPORT_CMD_DATA, w % 2 ^ 30, after, after⟩] }).lightShow n)

/-! ### Compensation (R329) -/

/-- The board temperature of driver `k` of port `n`, as polled. -/
def State.driverTemp (s : State) (n : Fin 4) (k : Nat) : Int :=
  let p := Pg.LTPORT n
  if k % 2 = 0 then s.fi p { Reg.LTPORT_TEMP_TEMP_EVEN with off := Reg.LTPORT_TEMP_TEMP_EVEN.off + k / 2 * 4 }
  else s.fi p { Reg.LTPORT_TEMP_TEMP_ODD with off := Reg.LTPORT_TEMP_TEMP_ODD.off + k / 2 * 4 }

/-- The gain G(col, k) of the LIGHT page. -/
def State.lightGain (s : State) (col k : Nat) : Nat :=
  bits (s.word (regAddr Pg.LIGHT (0x40 + 0x40 * col + k / 2 * 4))).toNat (k % 2 * 16) 16

/-- The gain at temperature `tmp` for a colour. -/
def State.gainAt (s : State) (col : Nat) (tmp : Int) : Int :=
  let t := (min (max (tmp + 1280) 0) 8192).toNat
  let k := min (t / 512) 15
  let f := t - k * 512
  rnd ((s.lightGain col k * (512 - f) + s.lightGain col (k + 1) * f : Nat) : Int) 9

/-- R329: DATA of a WRITE to a CURRENT register of driver `k`, and whether it was clamped. -/
def State.compensate (s : State) (n : Fin 4) (k index data : Nat) : Nat × Bool :=
  let col := bits (s.f (Pg.LTPORT n) Reg.LTPORT_CH_COLOUR) (2 * (index % 16)) 2
  let g : Int := if s.lights[n].polled.testBit k then s.gainAt col (s.driverTemp n k) else 16384
  let v := rnd (((data % 65536 : Nat) : Int) * g) 14
  (data / 65536 * 65536 + (min v 65535).toNat, decide (65535 < v))

/-! ### Bursts of the second and third kind (R328 to R332) -/

/-- The FIFO's head leaves: a broadcast WRITE of a CURRENT register under compensation goes as one WRITE to each driver in turn. -/
def State.sendCmd (s : State) (n : Fin 4) (c : LtCmd) (v : Nat) (r : Nat × Nat × Nat) : State :=
  let p := Pg.LTPORT n
  let index := bits c.head 0 8
  let cmd := bits c.head 20 4
  let comp := s.fb p Reg.LTPORT_PORT_CFG_COMP_EN && cmd == 1 && decide (index < 0x80)
  let bcast := c.head.testBit 29
  let k := if comp ∧ bcast then s.lights[n].sub else bits c.head 24 5
  let (data, hit) := if comp then s.compensate n k index c.data else (c.data, false)
  let w0 := if comp ∧ bcast then ltWord false k 1 index else 2 ^ 31 + c.head
  let last := !(comp && bcast) || decide (s.drivers n ≤ k + 1)
  let s1 := if hit then s.sticky! p Sticky.LTPORT_GAIN_SAT else s
  ((s1.burstSent n v w0 data (if cmd = 2 then .host else .plain) r).setLight n fun x => { x with
    cmds := if last then x.cmds.drop 1 else x.cmds, sub := if last then 0 else k + 1 }).lightShow n

/-- R330: a READ of STATUS of the next driver. -/
def State.sendPoll (s : State) (n : Fin 4) (v : Nat) (r : Nat × Nat × Nat) : State :=
  let k := s.lights[n].next
  (s.burstSent n v (ltWord false k 2 0xF1) 0 (.poll k) r).setLight n fun x => { x with pollDue := false, next := (k + 1) % max 1 (s.drivers n) }

/-- R330: a broadcast NOP. -/
def State.sendNop (s : State) (n : Fin 4) (v : Nat) (r : Nat × Nat × Nat) : State := s.burstSent n v (ltWord true 0 0 0) 0 .plain r

/-- R332: a READ of ID in STARTING. -/
def State.sendId (s : State) (n : Fin 4) (v : Nat) (r : Nat × Nat × Nat) : State :=
  let k := s.lights[n].idNext
  s.burstSent n v (ltWord false k 2 0xF0) 0 (.id k) r

/-- R332: the two bursts that turn the drivers off: a broadcast WRITE of CH_EN = 0, then a SYNC. -/
def State.sendOff (s : State) (n : Fin 4) (v : Nat) (r : Nat × Nat × Nat) : State :=
  let first := decide (s.lights[n].off = 2)
  let w0 := if first then ltWord true 0 1 0x81 else ltWord true 0 3 0
  let w1 := if first then 0 else s.drivers n - 1
  (s.burstSent n v w0 w1 .plain r).setLight n fun x => { x with off := x.off - 1 }

/-- R328: the port begins its next burst that is no sync with its bit 0, half a period before its start `v`: in STARTING an ID read, in STOPPING or
FAULT the bursts that turn the drivers off, in ON a poll, a keep-alive NOP or the FIFO's head, in that order. `r0` to `r2` return on the ring. -/
def execLightBurst (t : Nat) (n : Fin 4) (r0 r1 r2 : Word) (s : State) : Host.Outcome State Fault Refusal :=
  let s1 := (s.upTo t).lightReturn n
  let p := Pg.LTPORT n
  let x := s1.lights[n]
  let v := wrapU 64 ((s1.now : Int) + 128)
  let r := (r0.toNat, r1.toNat, r2.toNat)
  done s (if ¬ x.gapOk v then s1
    else if s1.st p = stStarting then (if s1.isOn Pg.LIGHT ∧ ¬ x.idDone then s1.sendId n v r else s1)
    else if s1.st p = stStopping ∨ s1.st p = stFault then (if 0 < x.off then s1.sendOff n v r else s1)
    else if s1.isOn p ∧ s1.burstFits n v then
      if x.pollDue then s1.sendPoll n v r
      else if x.nopDue then s1.sendNop n v r
      else match x.cmds with
        | e :: _ => if e.wait then s1 else s1.sendCmd n e v r
        | [] => s1
    else s1)

/-- R330: POLL milliseconds have passed since the latest poll: a READ of STATUS of the next driver is due. -/
def execTempPoll (t : Nat) (n : Fin 4) (s : State) : Host.Outcome State Fault Refusal :=
  let s1 := s.upTo t
  let p := Pg.LTPORT n
  done s (if s1.isOn p ∧ s1.past (s1.lights[n].pollAt + s1.f p Reg.LTPORT_PORT_CFG_POLL * 6400000) then
    s1.setLight n fun x => { x with pollDue := true, pollAt := s1.now }
  else s1)

/-- R330: no burst has been sent for 2 ms: a broadcast NOP is due. -/
def execKeepAlive (t : Nat) (n : Fin 4) (s : State) : Host.Outcome State Fault Refusal :=
  let s1 := s.upTo t
  let since := match s1.lights[n].lastEnd with | some e => e | none => s1.entered (Pg.LTPORT n)
  done s (if s1.isOn (Pg.LTPORT n) ∧ s1.past (since + 12800000) then s1.setLight n fun x => { x with nopDue := true } else s1)

/-- The head of the response FIFO is removed (R334). -/
def State.popResp (s : State) (n : Fin 4) : State := (s.setLight n fun x => { x with resps := x.resps.drop 1 }).lightShow n

/-- R334: RESP_INFO of LTPORT_n is read: its head is removed. -/
def execRespPop (t : Nat) (n : Fin 4) (s : State) : Host.Outcome State Fault Refusal :=
  let s1 := (s.upTo t).lightReturn n
  if ¬ s1.pageOn (Pg.LTPORT n) then .fault (.domainOff (regAddr (Pg.LTPORT n) 0x064)) else done s (s1.popResp n)

end Sys2Proof.Machine
end

