-- ==== Sys2Proof/Machine/Banks.lean ====
section
/-! DEFINITION. The background test of the memory banks and the write-back of corrected words (spec/19_banks.md). -/

namespace Sys2Proof.Machine

def State.setBankTest (s : State) (g : BankTest → BankTest) : State := { s with bankTest := g s.bankTest }

/-- Bank `b` is to be tested: enabled, its domain on, and its spare buffer free (R340, R341). -/
def State.bankTested (s : State) (b : Nat) : Bool :=
  (s.f Pg.BANKS Reg.BANKS_BG_CFG_BANK_EN).testBit b && s.domOn (bankDomain b) && !(s.f Pg.BANKS Reg.BANKS_SPARE_IN_USE).testBit b

/-- The bank tested next, from bank `b` on, in ascending order and round to the first. -/
def State.nextBank (s : State) (b : Nat) : Option Nat :=
  ((List.range 20).map fun k => (b + k) % 20).find? fun k => s.bankTested k

/-- Thermal enforcement pauses the test (R342). -/
def State.testPaused (s : State) : Bool := s.fb Pg.THERM Reg.THERM_STATUS_ENFORCED

/-- The period of a bank's clock in tk (R335). -/
def bankPeriod (b : Nat) : Nat := if b = 17 then 16 else if b = 18 then 64 else 8

/-- The test reads the 64 words of a row, in SAVE from the bank and in RESTORE from the spare buffer: every error is seen, and a corrected word is
stored anew (R339, R340). -/
def State.rowRead (s : State) (b row : Nat) : State :=
  let a := bankBase b + row * 512
  let here (e : Nat × Nat) : Bool := decide (a ≤ e.1 ∧ e.1 < a + 512)
  let s1 := s.each (s.memErr.filter here) fun s (e : Nat × Nat) => s.bankError b e.1 e.2
  { s1 with memErr := s1.memErr.filter fun e => !(here e && e.2 == 1) }

/-- The phase of the row in progress (R340). -/
def State.testPhase (s : State) : Nat :=
  let x := s.bankTest
  if s.past x.restoreAt then 2 else if s.past x.marchAt then 1 else 0

/-- R340: INTERVAL × 16 µs have passed: the test starts the next row with SAVE. While thermal enforcement is in force, no row starts (R342). SAVE
takes at least 64 free cycles and MARCH at least 640, and how many more is left open. The words of the row stand in `mem` at the row's addresses in
every phase, since each phase serves its accesses so that they see the row's data. -/
def execBgRowStart (t : Nat) (s : State) : Host.Outcome State Fault Refusal :=
  let s1 := s.upTo t
  let p := Pg.BANKS
  let x := s1.bankTest
  let due : Bool := match x.lastStart with
    | some v => s1.past (v + s1.f p Reg.BANKS_BG_CFG_INTERVAL * 102400)
    | none => true
  done s (if s1.isOn p ∧ ¬ x.active ∧ due then
    if s1.testPaused then s1.setB p Reg.BANKS_BG_STATUS_PAUSED true
    else
      let s2 := s1.setB p Reg.BANKS_BG_STATUS_PAUSED false
      match s2.nextBank x.bank with
      | some b =>
        let row := if b = x.bank then x.row % bankRows b else 0
        let march := s2.now + 64 * bankPeriod b + (Config.freeValue s2.freeCtr).toNat % 2 ^ 32
        let restore := march + 640 * bankPeriod b + (Config.freeValue (s2.freeCtr + 1)).toNat % 2 ^ 32
        ((((s2.takeFree.takeFree.setB p Reg.BANKS_BG_STATUS_ACTIVE true).setF p Reg.BANKS_BG_STATUS_BANK b).setF p
          Reg.BANKS_BG_STATUS_ROW row).setBankTest fun _ => ⟨b, row, true, some s1.now, march, restore⟩).rowRead b row
      | none => s2
  else s1)

/-- The failure log takes a failed row in its first free entry; a full log sets LOG_FULL (R344). -/
def State.logFail (s : State) (b row : Nat) : State :=
  let p := Pg.BANKS
  let fld (f : Fld) (k : Nat) : Fld := { f with off := f.off + 8 * k }
  match (List.range 8).find? fun k => !s.fb p (fld Reg.BANKS_FAIL_VALID k) with
  | some k => (((s.setB p (fld Reg.BANKS_FAIL_VALID k) true).setF p (fld Reg.BANKS_FAIL_BANK k) b).setF p (fld Reg.BANKS_FAIL_ROW k) row).setF p
      (fld Reg.BANKS_FAIL_TIME k) (s.now % 2 ^ 32)
  | none => s.sticky! p Sticky.BANKS_LOG_FULL

/-- R341: the row fails: its spare buffer stands in for it, and the bank is tested no further. -/
def State.rowFail (s : State) (b row : Nat) : State :=
  let p := Pg.BANKS
  ((((s.setF p Reg.BANKS_SPARE_IN_USE (putBit (s.f p Reg.BANKS_SPARE_IN_USE) b true)).logFail b row).inc p Reg.BANKS_ROW_FAILS).ev! p
    Ev.BANKS_ROW_FAIL).sticky! p Sticky.BANKS_ROW_FAIL

/-- R340, R341: the row in progress has completed its phases, RESTORE taking at least 64 free cycles, or MARCH has `failed`, which skips RESTORE. -/
def execBgRowDone (t : Nat) (failed : Bool) (s : State) : Host.Outcome State Fault Refusal :=
  let s1 := s.upTo t
  let p := Pg.BANKS
  let x := s1.bankTest
  let ended := s1.past ((if failed then x.marchAt else x.restoreAt + 64 * bankPeriod x.bank) % 2 ^ 64)
  done s (if x.active ∧ ended then
    let lastRow := decide (bankRows x.bank ≤ x.row + 1)
    let nextB := if failed || lastRow then (x.bank + 1) % 20 else x.bank
    let s2 := ((s1.setB p Reg.BANKS_BG_STATUS_ACTIVE false).setF p Reg.BANKS_BG_STATUS_PHASE (if failed then 1 else 2)).setBankTest fun y => { y with
      active := false, bank := nextB, row := if failed || lastRow then 0 else y.row + 1 }
    if failed then s2.rowFail x.bank x.row
    else
      let s3 := (s2.rowRead x.bank x.row).inc p Reg.BANKS_ROWS_TESTED
      if lastRow then s3.ev! p Ev.BANKS_BG_PASS else s3
  else s1)

/-- R339: the corrected word at `off` in bank `b` is written back, unless it has been written since. -/
def execBankEccWriteback (t : Nat) (b : Fin 20) (off : Nat) (s : State) : Host.Outcome State Fault Refusal :=
  let s1 := s.upTo t
  let a := (bankBase b + off) / 8 * 8
  done s (if bankAt a = some b.val ∧ s1.errAt a = 1 then { s1 with memErr := tabDel a s1.memErr } else s1)

/-- The failure log emptied. -/
def State.failClear (s : State) : State := s.each (List.range 16) fun s k => s.setWord (regAddr Pg.BANKS (0x80 + 4 * k)) 0#32

/-- R344: FAIL_CLEAR.GO is written. -/
def execFailClear (t : Nat) (s : State) : Host.Outcome State Fault Refusal :=
  let s1 := s.upTo t
  if ¬ s1.pageOn Pg.BANKS then .fault (.domainOff (regAddr Pg.BANKS 0x060)) else done s s1.failClear

end Sys2Proof.Machine
end

