-- ==== Sys2Proof/Machine/Dram.lean ====
section
/-! DEFINITION. The DRAM controllers (spec/20_dram.md): which command goes next, age, pages, refresh, inline ECC, training. -/

namespace Sys2Proof.Machine

/-- A read of the controller's queue is served: checked, counted, its time taken into LAT_PEAK. -/
def State.serveRead (s : State) (i : Fin 2) (r : DramReq) : State :=
  let s1 := ((s.activate i r.gran).checkUse i r.gran false).setDram i fun x => { x with reads := x.reads.erase r }
  ((s1.dramCheck r.addr).inc (Pg.DRAM i) Reg.DRAM_READ_GRANULES).latPeak i r.cls r.at_

/-- The writes that may leave the queue (R350): all of them when it holds 48 or when no read waits, else those a read has drawn on in part. -/
def DramSt.leaving (x : DramSt) : List WqEntry := if 48 ≤ x.wq.length ∨ x.reads = [] then x.wq else x.wq.filter fun w => w.flush

/-- The command a controller chooses next (R350). -/
def DramSt.next (x : DramSt) : Option DramCmd := x.best (x.reads.map .read ++ x.leaving.map .write)

/-- Controller `i` issues commands: it is ON or drains in STOPPING, and a retraining does not hold its devices in self-refresh (R357, R359; that they
stay there from GO to its end is log 47's choice). -/
def State.dramRuns (s : State) (i : Fin 2) : Bool := (s.st (Pg.DRAM i) == stOn || s.st (Pg.DRAM i) == stStopping) && !s.retrain.testBit i

/-- R350: controller `i` issues its next command. -/
def execDramCommandIssue (t : Nat) (i : Fin 2) (s : State) : Host.Outcome State Fault Refusal :=
  let s1 := s.upTo t
  done s (if s1.dramRuns i then
    (match s1.drams[i].next with
    | some (.read r) => s1.serveRead i r
    | some (.write w) => s1.serveWrite i w
    | none => s1).dramShow i
  else s1)

/-- A read ranks in C0: it came there, or has been promoted (R350). -/
def DramReq.inC0 (r : DramReq) : Bool := r.cls == 0 || r.promoted

/-- R350: every request of controller `i` that has waited its class's age limit joins C0. C0 itself has none. -/
def execAgePromotion (t : Nat) (i : Fin 2) (s : State) : Host.Outcome State Fault Refusal :=
  let s1 := s.upTo t
  let due (r : DramReq) : Bool := !r.inC0 && s1.past (r.at_ + r.limit)
  let dueW (w : WqEntry) : Bool := !w.promoted && w.cls != 0 && s1.past (w.at_ + w.limit)
  let x := s1.drams[i]
  done s ((s1.setDram i fun x => { x with
    reads := x.reads.map fun r => if due r then { r with promoted := true } else r
    wq := x.wq.map fun w => if dueW w then { w with promoted := true } else w }).inc (Pg.DRAM i) Reg.DRAM_PROMOTIONS
      ((x.reads.filter due).length + (x.wq.filter dueW).length))

/-- R352: the page of bank `b` has been unused for PAGE_IDLE × 256 tk and is closed. -/
def execPageIdleClose (t : Nat) (i : Fin 2) (b : Fin 16) (s : State) : Host.Outcome State Fault Refusal :=
  let s1 := s.upTo t
  done s (match s1.drams[i].pages[b] with
  | some g =>
    if s1.past (g.used + s1.f (Pg.DRAM i) Reg.DRAM_SCHED_PAGE_IDLE * 256) then
      (s1.setDram i fun x => { x with pages := x.pages.set b none }).dramShow i
    else s1
  | none => s1)

/-- R355: the refresh interval of bank `b` expires: the refresh is postponed while C0 waits for the bank, up to 8 times, else it is issued, with
every postponed one, and closes the bank. -/
def execRefreshDue (t : Nat) (i : Fin 2) (b : Fin 16) (s : State) : Host.Outcome State Fault Refusal :=
  let s1 := s.upTo t
  let x := s1.drams[i]
  let waits := x.reads.any (fun r => r.inC0 && granBank r.gran == b) || x.wq.any fun w => w.promoted && granBank w.gran == b
  done s (if s1.dramRuns i then
    if waits ∧ x.postponed[b] < 8 then
      (s1.setDram i fun x => { x with postponed := x.postponed.set b (x.postponed[b] + 1) }).inc (Pg.DRAM i) Reg.DRAM_REF_POSTPONED
    else (s1.setDram i fun x => { x with postponed := x.postponed.set b 0, pages := x.pages.set b none }).dramShow i
  else s1)

/-- R355, R360: MR4 of both devices is read: their refresh-rate fields, the higher of which shows, and whether one lies above its derating range. -/
def execMr4Poll (t : Nat) (i : Fin 2) (rate : Vector (Fin 32) 2) (hot : Bool) (s : State) : Host.Outcome State Fault Refusal :=
  let s1 := s.upTo t
  let p := Pg.DRAM i
  done s (if s1.dramRuns i then
    let s2 := (s1.setF p Reg.DRAM_STATUS_REF_RATE (max rate[0].val rate[1].val)).setB p Reg.DRAM_STATUS_HOT hot
    if hot then (s2.sticky! p Sticky.DRAM_DRAM_HOT).ev! p Ev.DRAM_DRAM_HOT else s2
  else s1)

/-- R356: the corrected granule at DRAM address `addr`, which a read has found in error, is written back, unless it has been written since. -/
def execDramEccWriteback (t : Nat) (addr : Nat) (s : State) : Host.Outcome State Fault Refusal :=
  let s1 := s.upTo t
  let i := (s1.dramLoc addr).1
  let g := (s1.dramLoc addr).2 / 64
  done s (if dramBase ≤ addr ∧ s1.eccOn addr ∧ s1.drams[i].fixes.contains g ∧ s1.dramRuns i then
    { s1.setDram i fun x => { x with fixes := x.fixes.filter (· != g) } with memErr := s1.memErr.filter fun e => !decide (e.2 = 1 ∧ addr / 64 * 64 ≤ e.1 ∧ e.1 < addr / 64 * 64 + 64) }
  else s1)

/-! ### Training (R358, R359) -/

/-- The phase of the training in progress (R361). -/
def State.trainPhase (s : State) : Nat := if s.past s.sweeps.2 then 2 else if s.past s.sweeps.1 then 1 else 0


/-- The longest run of set bits of a sweep of 128 steps: its first step and width; the lower of two runs of one length. -/
def longestRun (v : BitVec 128) : Nat × Nat :=
  let step (q : (Nat × Nat) × (Nat × Nat)) (d : Nat) : (Nat × Nat) × (Nat × Nat) :=
    let cur := if v.getLsbD d then (if q.2.2 = 0 then (d, 1) else (q.2.1, q.2.2 + 1)) else (0, 0)
    (if q.1.2 < cur.2 then cur else q.1, cur)
  ((List.range 128).foldl step ((0, 0), (0, 0))).1

/-- The centre of a run. -/
def runCentre (q : Nat × Nat) : Nat := q.1 + (q.2 - 1) / 2

/-- One byte lane's sweeps: its LANE register, and its FAILED bit by EYE_MIN. -/
def State.laneTrained (s : State) (k : Nat) (rd wr : BitVec 128) : State :=
  let p := Pg.DTRAIN
  let (r, w) := (longestRun rd, longestRun wr)
  let v := w.2 * 2 ^ 24 + runCentre w * 2 ^ 16 + r.2 * 2 ^ 8 + runCentre r
  let fails := decide (min r.2 w.2 < s.f p Reg.DTRAIN_TRAIN_CFG)
  (s.setWord (regAddr p (0x50 + 4 * k)) (BitVec.ofNat 32 v)).setF p Reg.DTRAIN_STATUS_FAILED (putBit (s.f p Reg.DTRAIN_STATUS_FAILED) k fails)

/-- Controller `i` has been trained: it is ready, or it faults, with its devices held in reset. Only STARTING brings devices up from power-up
(R357). -/
def State.trained (s : State) (i : Fin 2) (rd wr : Vector (BitVec 128) 8) (initOk : Bool) : State :=
  let p := Pg.DTRAIN
  let s1 := s.each ((List.finRange 8).filter fun k => k.val / 4 == i.val) fun s (k : Fin 8) => s.laneTrained k rd[k] wr[k]
  let bad := bits (s1.f p Reg.DTRAIN_STATUS_FAILED) (4 * i.val) 4 != 0
  if bad || !initOk then
    let s2 := if bad then (s1.sticky! p Sticky.DTRAIN_TRAIN_FAIL).ev! p Ev.DTRAIN_TRAIN_FAIL else s1
    (s2.blockFault (Pg.DRAM i) s2.now).setDram i fun x => { x with ready := false, powerUp := true }
  else
    let starts := s1.st (Pg.DRAM i) == stStarting
    let s2 := if starts ∧ s1.drams[i].powerUp ∧ s1.fb (Pg.DRAM i) Reg.DRAM_CFG_ECC_EN then
        { s1 with
          mem := s1.mem.filter fun e => !(decide (dramBase ≤ e.1) && (s1.dramLoc e.1).1 == i),
          memErr := s1.memErr.filter fun e => !(decide (dramBase ≤ e.1) && (s1.dramLoc e.1).1 == i) }
      else s1
    s2.setDram i fun x => { x with ready := true, powerUp := x.powerUp && !starts }

/-- R358: the training in progress ends. `rd` and `wr` are the passing steps of each byte lane's read and write sweep; `initOk` says whether the
devices were initialised. -/
def execTrainingDone (t : Nat) (rd wr : Vector (BitVec 128) 8) (initOk : Vector Bool 2) (s : State) : Host.Outcome State Fault Refusal :=
  let s1 := s.upTo t
  done s (if s1.training ≠ 0 ∧ s1.isOn Pg.DTRAIN then
    let s2 := s1.each ((List.finRange 2).filter fun i => s1.training.testBit i.val) fun s (i : Fin 2) => s.trained i rd wr initOk[i]
    (({ s2 with training := 0, retrain := 0 }).trainShow 3).ev! Pg.DTRAIN Ev.DTRAIN_TRAIN_DONE
  else s1)

/-- R359: RETRAIN.GO is written with MASK = `mask`: accepted while every user of DRAM is OFF and no retraining is in progress, else refused. -/
def execRetrain (t : Nat) (mask : Fin 4) (s : State) : Host.Outcome State Fault Refusal :=
  let s1 := s.upTo t
  let p := Pg.DTRAIN
  if ¬ s1.pageOn p then .fault (.domainOff (regAddr p 0x048))
  else
    let users := blkPages .brush ++ blkPages .raster ++ blkPages .stream ++ [Pg.VISION]
    done s (if users.all (fun q => s1.st q == stOff) ∧ s1.retrain = 0 then
      (if mask.val = 0 then s1
       else (s1.trainBegin mask.val true).each ((List.finRange 2).filter fun i => mask.val.testBit i.val) fun s i =>
        (s.setDram i fun x => { x with pages := Vector.replicate 16 none }).dramShow i)
    else s1.sticky! p Sticky.DTRAIN_RETRAIN_REFUSED)

end Sys2Proof.Machine
end

