-- ==== Sys2Proof/Machine/Thermal.lean ====
section
/-! DEFINITION. Thermal management (spec/21_thermal.md): sensor rounds, the warning, grace and enforcement, held sheets, the shutdown. -/

namespace Sys2Proof.Machine

def State.setTherm (s : State) (g : ThermSt → ThermSt) : State := { s with therm := g s.therm }

/-- Sensor `i` is one of the twelve on the die. -/
def onDie (i : Nat) : Bool := decide (i < 12)

/-- Sensor `i` is read: on the die, or a remote one that is enabled (R362). -/
def State.sensorRead (s : State) (i : Nat) : Bool := onDie i || (s.f Pg.THERM Reg.THERM_REMOTE_CFG).testBit (i - 12)

/-- The reading of sensor `i` from its raw value: with its trim, or with REMOTE_OFFSET (R362). -/
def State.sensorValue (s : State) (i : Nat) (raw : Int) : Int :=
  let p := Pg.THERM
  let off : Int := if onDie i then signed 16 (s.trim 1 i) else if i = 12 then s.fi p Reg.THERM_REMOTE_OFFSET_OFFSET_0
    else s.fi p Reg.THERM_REMOTE_OFFSET_OFFSET_1
  wrapS 16 (raw + off)

/-- TEMP of sensor `i`. -/
def tempFld (i : Nat) : Fld :=
  let f := if i % 2 = 0 then Reg.THERM_TEMP_TEMP_EVEN else Reg.THERM_TEMP_TEMP_ODD
  { f with off := f.off + i / 2 * 4 }

/-- The mean of the readings of a list of sensors, truncated towards zero; none of an empty list. -/
def meanOf (v : Nat → Int) (l : List Nat) : Option Int :=
  if l = [] then none else some (tdiv (l.foldl (fun a i => a + v i) 0) l.length)

/-- R363: a reading outside −60 to +175 °C. -/
def outOfRange (v : Int) : Bool := decide (v < -3840 ∨ 11200 < v)

/-- A sensor becomes invalid. -/
def State.sensorBad (s : State) (i : Nat) : State :=
  let p := Pg.THERM
  ((((s.setTherm fun x => { x with dead := i :: x.dead }).inc p Reg.THERM_BAD_SENSORS).accAdd 0xD6C 2 1).sticky! p Sticky.THERM_SENSOR_BAD).ev! p
    Ev.THERM_SENSOR_BAD

/-- The mean of the readings of `l`, itself not truncated, lies more than 2 °C from `m` (R363). -/
def meanMoved (v : Nat → Int) (l : List Nat) (m : Int) : Bool := decide (128 * l.length < (l.foldl (fun a i => a + v i) 0 - m * l.length).natAbs)

/-- R363 for an on-die sensor in range: q and m of its latest change, and whether it is stuck. -/
def State.stuck (s : State) (v : Nat → Int) (others : List Nat) (i : Nat) : Bool × Int × Int :=
  let mean := (meanOf v others).getD 0
  match s.therm.qm.find? fun e => e.1 == i with
  | some (_, q, m) => if v i = q then (meanMoved v others m, q, m) else (false, v i, mean)
  | none => (false, v i, mean)

/-- R363: the sensors that become invalid at the end of a round, and the next q and m. -/
def State.validate (s : State) (v : Nat → Int) : State :=
  let live := (List.range 14).filter fun i => s.sensorRead i && !s.therm.dead.contains i
  let out := live.filter fun i => outOfRange (v i)
  let fit := live.filter fun i => onDie i && !outOfRange (v i)
  let judged := fit.map fun i => (i, s.stuck v (fit.filter (· != i)) i)
  let s1 := s.setTherm fun x => { x with qm := judged.map fun e => (e.1, e.2.2.1, e.2.2.2) }
  s1.each (out ++ (judged.filter fun e => e.2.1).map fun e => e.1) State.sensorBad

/-- The sensors valid now. -/
def State.validSensors (s : State) : List Nat := (List.range 14).filter fun i => s.sensorRead i && !s.therm.dead.contains i

/-- The highest reading of a list of sensors. -/
def maxOf (v : Nat → Int) : List Nat → Option Int
  | [] => none
  | i :: r => match maxOf v r with | some m => some (max (v i) m) | none => some (v i)

/-- VALID: it shows each sensor that is valid now, and 0 for a remote input that is not enabled (R369). -/
def State.validWord (s : State) : Nat := s.validSensors.foldl (fun m i => m + 2 ^ i) 0

/-- VALID and the on-die count follow the sensors. -/
def State.showValid (s : State) : State :=
  (s.setF Pg.THERM Reg.THERM_VALID s.validWord).setF Pg.THERM Reg.THERM_STATUS_ON_DIE_VALID (s.validSensors.filter onDie).length

/-- TMAX, PEAK and the own warning at the end of a round (R364); its rise is a fault device A may declare (R318). -/
def State.ownWarning (s : State) (tmax : Int) : State :=
  let p := Pg.THERM
  let s1 := s.setFi p Reg.THERM_STATUS_TMAX tmax
  let s2 := if s1.therm.peakSeen then
      (s1.setFi p Reg.THERM_PEAK_HIGH (max (s1.fi p Reg.THERM_PEAK_HIGH) tmax)).setFi p Reg.THERM_PEAK_LOW (min (s1.fi p Reg.THERM_PEAK_LOW) tmax)
    else ((s1.setFi p Reg.THERM_PEAK_HIGH tmax).setFi p Reg.THERM_PEAK_LOW tmax).setTherm fun x => { x with peakSeen := true }
  let warn := s2.fi p Reg.THERM_WARN_CFG_WARN
  let was : Bool := s2.fb p Reg.THERM_STATUS_OWN_WARN
  let low : Int := warn - 16 * ((s2.f p Reg.THERM_WARN_CFG_HYST : Nat) : Int)
  if warn ≤ tmax then
    let s3 := s2.setB p Reg.THERM_STATUS_OWN_WARN true
    if was = true then s3 else s3.declare 11
  else if tmax < low then s2.setB p Reg.THERM_STATUS_OWN_WARN false
  else s2

/-- R368: the shutdown: the latch and its force, the event, the flush, and the switch-offs that follow. -/
def State.shutdown (s : State) : State :=
  if s.pwr.dev = .shutdown then s
  else
    let s1 := (s.setPwr fun x => { x with dev := .shutdown, shutdownLatch := true }).setTherm fun x => { x with shutAt := some s.now }
    ((((s1.ev! Pg.THERM Ev.THERM_SHUTDOWN).allPins).trigger 3).setPwr fun x => { x with refused := [] }).switchNext

/-- A SENSOR run takes the raw readings of a round (R387). -/
def State.calSample (s : State) (raw : Nat → Int) : State :=
  match s.cal.run with
  | some r => if r.op = 2 ∧ r.rounds < 16 then
      { s with cal := { s.cal with run := some { r with rounds := r.rounds + 1, sums := (List.range 12).map fun i => r.sums.getD i 0 + raw i } } }
    else s
  | none => s

/-- The readings of a round are taken over, and the recorder's extremes (R362, R371). -/
def State.takeReadings (s : State) (v : Nat → Int) : State :=
  s.each ((List.range 14).filter s.sensorRead) fun s i =>
    ((s.setFi Pg.THERM (tempFld i) (v i)).accExt (0xC40 + 4 * i) 2 true false (v i)).accExt (0xC42 + 4 * i) 2 true true (v i)

/-- The hottest valid on-die reading is at least 125 °C. -/
def tooHot (v : Nat → Int) (l : List Nat) : Bool :=
  match maxOf v l with
  | some m => decide (8000 ≤ m)
  | none => false

/-- TMAX where a sensor is valid. -/
def State.warnOf (s : State) (v : Nat → Int) : State :=
  match maxOf v s.validSensors with
  | some m => s.ownWarning m
  | none => s

/-- R368: three hot rounds in a row, or fewer than 4 valid on-die sensors. -/
def State.decideShutdown (s : State) (v : Nat → Int) : State :=
  let l := s.validSensors.filter onDie
  let run : Nat := if tooHot v l then s.therm.hot + 1 else 0
  let s1 := s.setTherm fun x => { x with hot := run }
  if 3 ≤ run ∨ l.length < 4 then s1.shutdown else s1

/-- The raw reading of sensor `i`. -/
def rawReading (raw : Vector (BitVec 16) 14) (i : Nat) : Int := if h : i < 14 then (raw[i]).toInt else 0

/-- What the end of a round does. -/
def State.sensorRound (s : State) (raw : Nat → Int) : State :=
  let v : Nat → Int := fun i => s.sensorValue i (raw i)
  (((((s.takeReadings v).calSample raw).validate v).showValid).warnOf v).decideShutdown v

/-- R362: round `r` ends at a multiple of 640,000 tk with 14 new raw readings. -/
def execSensorRoundEnd (r : Nat) (raw : Vector (BitVec 16) 14) (s : State) : Host.Outcome State Fault Refusal :=
  let s1 := s.upTo (r * 640000)
  done s (if s1.isOn Pg.THERM then s1.sensorRound (rawReading raw) else s1)

/-! ### Warning, grace and enforcement (R365, R366) -/

/-- R283, R287, R342: VISION and the background test show enforcement, and VISION asserts each change. -/
def State.throttleShow (s : State) : State :=
  let s1 := s.showEnforced
  if s.pageOn Pg.VISION ∧ s.fb Pg.VISION Reg.VISION_STATUS_THROTTLE ≠ s.fb Pg.THERM Reg.THERM_STATUS_ENFORCED then
    s1.ev! Pg.VISION Ev.VISION_THROTTLE
  else s1

/-- The combined warning of frame `n` (R365): in lockstep with the partner's WARN of that frame, or where none came with its latest (R315). -/
def State.combinedWarn (s : State) (n : Nat) : Bool :=
  let own := s.fb Pg.THERM Reg.THERM_STATUS_OWN_WARN
  if s.pairState = pairLockstep then
    own || (match s.dip.beats.find? fun b => b.frame == n % 2 ^ 32 with
      | some b => b.warn
      | none => match s.dip.latest with | some b => b.warn | none => false)
  else own

/-- R365 at the exchange cut of frame `n`: a rise starts the grace time, a fall ends enforcement. A shutdown takes precedence. -/
def State.thermalCut (s : State) (n : Nat) : State :=
  let p := Pg.THERM
  if s.pwr.dev = .shutdown ∨ ¬ s.isOn p then s
  else
    let was := s.fb p Reg.THERM_STATUS_WARN
    let w := s.combinedWarn n
    let s1 := s.setB p Reg.THERM_STATUS_WARN w
    if w ∧ ¬ was then
      (((s1.inc p Reg.THERM_WARNINGS).setB p Reg.THERM_STATUS_GRACE true).setTherm fun x => { x with graceFrom := some n }).event p
        Ev.THERM_THROTTLE_REQ (cutOf n)
    else if was ∧ ¬ w then
      let forced := s.fb p Reg.THERM_STATUS_ENFORCED
      ((((s1.setB p Reg.THERM_STATUS_GRACE false).setB p Reg.THERM_STATUS_ENFORCED false).setTherm fun x => { x with
        graceFrom := none, release := if forced then some (cutOf n) else x.release }).event p Ev.THERM_RELEASE (cutOf n)).throttleShow
    else s1

/-- R365: at the cut of frame `n`, GRACE × 400 frames after the warning rose, enforcement begins if the warning is still 1. -/
def execGraceExpiry (n : Nat) (s : State) : Host.Outcome State Fault Refusal :=
  let s1 := s.upTo (cutOf n)
  let p := Pg.THERM
  done s (match s1.therm.graceFrom with
  | some g =>
    if g + s1.f p Reg.THERM_GRACE * 400 ≤ n ∧ s1.fb p Reg.THERM_STATUS_WARN ∧ s1.isOn p ∧ s1.pwr.dev ≠ .shutdown then
      ((((((s1.setB p Reg.THERM_STATUS_GRACE false).setB p Reg.THERM_STATUS_ENFORCED true).setTherm fun x =>
        { x with graceFrom := none, enforcedAt := some (cutOf n) }).inc p
        Reg.THERM_ENFORCEMENTS).accAdd 0xD68 2 1).event p Ev.THERM_ENFORCE (cutOf n)).throttleShow
    else s1
  | none => s1)

/-- The held boundary of brush `b`. -/
def State.heldOf (s : State) (b : Fin 16) : Option Nat := s.brushes[b].queue.head?.bind fun h => h.held

/-- Brushes `b` and `c` run the same chain: one sheet is in force on both, or one waits on both. -/
def State.sameChain (s : State) (b c : Fin 16) : Bool :=
  let on := fun (x : Fin 16) => (s.brushes[x].force.toList ++ s.brushes[x].queue).map fun h => h.addr
  (on b).any fun a => (on c).contains a

/-- The held boundary from which brush `b` counts the stretch of a release: its own, or that of a brush of its chain (R367). -/
def State.stretchFrom (s : State) (b : Fin 16) : Option Nat :=
  (s.heldOf b).orElse fun _ => allBrushes.findSome? fun c => if s.sameChain b c then s.heldOf c else none

/-- The later sheets of a brush's chain move by the stretch (R367). -/
def State.stretchBrush (s : State) (b : Fin 16) (d : Nat) : State :=
  let move (h : Sheet) : Sheet :=
    if h.medium then h
    else
      let c := match h.held with | some k => some ((k + d) % 2 ^ 64) | none => h.boundary.map fun k => (k + d) % 2 ^ 64
      { h with anchor := (h.anchor + d) % 2 ^ 48, boundary := c, held := none, eff := c.getD h.eff }
  s.setBrush b fun x => { x with queue := x.queue.map move, stretch := x.stretch + d }

/-- The stretch b′ − b of a boundary `b` that was held. -/
def stretchOf (b' b : Nat) : Nat := (sdiff48 b' b).toNat

/-- R367 at the release instant `b'`: each stretch is added, the chains move, and the held sheets come into force with anchor b′. -/
def State.releaseSheets (s : State) (b' : Nat) : State :=
  let p := Pg.THERM
  let from_ := Vector.ofFn fun (b : Fin 16) => s.stretchFrom b
  let s1 := s.each s.therm.held fun s b => s.incPair p Reg.THERM_STRETCH_LO Reg.THERM_STRETCH_HI (stretchOf b' b)
  let s2 := (s1.setTherm fun x => { x with held := [] }).setB p Reg.THERM_STATUS_STRETCHING false
  let s3 := s2.each allBrushes fun s n => match from_[n] with | some b => s.stretchBrush n (stretchOf b' b) | none => s
  s3.each allBrushes fun u n => if (s.heldOf n).isSome ∧ u.isOn (Pg.BRUSH n) ∧ u.brushes[n].cut = some b' then u.beginSheet n b' else u

/-- R367: the release instant b′ has come: the held sheets take effect, and every later anchor moves by S. -/
def execHeldSheetRelease (t : Nat) (s : State) : Host.Outcome State Fault Refusal :=
  let s1 := s.upTo t
  match s1.therm.release with
  | some c =>
    if s1.therm.held ≠ [] ∧ ¬ s1.fb Pg.THERM Reg.THERM_STATUS_ENFORCED ∧ s1.past (releaseAt c) then
      let s2 := s1.releaseSheets (releaseAt c)
      if allBrushes.any s2.badOp then .fault (.hostBreach 145) else done s s2
    else done s s1
  | none => done s s1

end Sys2Proof.Machine
end

