-- ==== Sys2Proof/Machine/Calib.lean ====
section
/-! DEFINITION. Calibration runs and the built-in self-test (spec/23_calibration_bist.md, R386 to R394). What a run measures comes with the command that
ends it. -/

namespace Sys2Proof.Machine

def State.setCal (s : State) (g : CalSt → CalSt) : State := { s with cal := g s.cal }

/-! ### Selection (R386, R387) -/

/-- The delay of a good cell, in 1/256 tk. -/
abbrev Cells := List (Option Nat)

/-- The ascending pass of R386: the mask and the total. -/
def cellPass : Nat → Cells → Nat × Nat → Nat × Nat
  | _, [], r => r
  | c, some d :: l, (m, t) => cellPass (c + 1) l (if t + d ≤ 256 then (m + 2 ^ c, t + d) else (m, t))
  | c, none :: l, r => cellPass (c + 1) l r

/-- The second pass of R386: the cell that brings the total nearest to 256, with its delay; a tie keeps the earlier choice. -/
def cellBest (mask total : Nat) : Nat → Cells → Option (Nat × Nat) → Option (Nat × Nat)
  | _, [], b => b
  | c, some d :: l, b =>
    let off (x : Nat) : Nat := Int.natAbs ((total : Int) + x - 256)
    let now : Nat := match b with | some q => q.2 | none => 0
    cellBest mask total (c + 1) l (if ¬ mask.testBit c ∧ off d < off now then some (c, d) else b)
  | c, none :: l, b => cellBest mask total (c + 1) l b

/-- R386: the mask a step takes, none where the step fails. -/
def selectCells (l : Cells) : Option Nat :=
  let (m, t) := cellPass 0 l (0, 0)
  let (m2, t2) : Nat × Nat := match cellBest m t 0 l none with
    | some q => (m + 2 ^ q.1, t + q.2)
    | none => (m, t)
  if 8 < Int.natAbs ((t2 : Int) - 256) then none else some m2

/-- The good segments of a leg, in order, with their resistances in mΩ. -/
def goodSegs (l : List (Option Nat)) : List (Nat × Nat) :=
  ((List.range l.length).zip l).filterMap fun e => e.2.map fun r => (e.1, r)

/-- Whether `x / y` lies nearer 50,000 mΩ than `u / v`. -/
def nearer (x y u v : Nat) : Bool :=
  decide (Int.natAbs ((x : Int) - 50000 * y) * v < Int.natAbs ((u : Int) - 50000 * v) * y)

/-- R387: the lowest-numbered good segments, as many as bring their parallel resistance nearest to 50 Ω. `b / a` is the resistance of the segments
of `m`; `best` the mask chosen so far with its resistance. -/
def segScan : List (Nat × Nat) → Nat → Nat → Nat → Option (Nat × Nat × Nat) → Option (Nat × Nat × Nat)
  | [], _, _, _, best => best
  | (g, r) :: l, m, a, b, best =>
    let a2 := a * r + b
    let b2 := b * r
    let m2 := m + 2 ^ g
    let take : Bool := match best with
      | some q => nearer b2 a2 q.2.1 q.2.2
      | none => true
    segScan l m2 a2 b2 (if take then some (m2, b2, a2) else best)

def selectSegs (l : List (Option Nat)) : Option Nat := (segScan (goodSegs l) 0 0 1 none).map (·.1)

/-! ### Runs (R387 to R389) -/

/-- CALIB.CMD is written: refused, or the run begins. An OP other than 1 to 4 is out of range (R388). -/
def State.calStart (s : State) (op target : Nat) : State :=
  let p := Pg.CALIB
  let refLane : Bool := op == 3 && decide (target < 4) && s.f Pg.CLK Reg.CLK_REF_STATUS_SELECTED == target
  if op = 0 ∨ 4 < op ∨ s.fb p Reg.CALIB_STATUS_BUSY ∨ ¬ s.en p ∨ ¬ s.calHolds op target ∨ refLane then
    (s.setF p Reg.CALIB_STATUS_RESULT 2).sticky! p Sticky.CALIB_REFUSED
  else (((s.setCal fun x => { x with run := some { op := op, target := target, start := s.now } }).setB p Reg.CALIB_STATUS_BUSY true).setF p
    Reg.CALIB_STATUS_RESULT 0)

/-- A write of CALIB.CMD, as a command. -/
def calCommand (t op target : Nat) (s : State) : Host.Outcome State Fault Refusal :=
  let s1 := s.upTo t
  if ¬ s1.pageOn Pg.CALIB then .fault (.domainOff (regAddr Pg.CALIB Reg.CALIB_CMD_OP.off)) else done s (s1.calStart op target)

/-- R387: CALIB.CMD OP 1. -/
def execCalDelay (t : Nat) (target : Fin 32) (s : State) : Host.Outcome State Fault Refusal := calCommand t 1 target s

/-- R387: CALIB.CMD OP 2. -/
def execCalSensor (t : Nat) (s : State) : Host.Outcome State Fault Refusal := calCommand t 2 0 s

/-- R387: CALIB.CMD OP 3. -/
def execCalLane (t : Nat) (target : Fin 32) (s : State) : Host.Outcome State Fault Refusal := calCommand t 3 target s

/-- R389: CALIB.CMD OP 4. -/
def execCalSave (t : Nat) (s : State) : Host.Outcome State Fault Refusal := calCommand t 4 0 s

/-- The values in force as a calibration record (R384, R389). -/
def State.calRecord (s : State) : List Byte :=
  let body := leBytes 4 0x71604341 ++ leBytes 4 0x0100 ++ leBytes 4 (s.cal.count + 1) ++
    leBytes 4 (s.f Pg.RECORD Reg.RECORD_HOURS) ++ leBytes 4 s.cal.brushValid ++ leBytes 4 s.cal.laneValid ++
    leBytes 4 (b2n s.cal.sensorValid) ++ List.replicate 36 0#8 ++
    (List.range 512).flatMap (fun i => leBytes 4 (s.trim 0 i)) ++ (List.range 12).flatMap (fun i => leBytes 2 (s.trim 1 i)) ++
    List.replicate 8 0#8 ++ (List.range 20).flatMap (fun k => leBytes 4 (s.trim 2 k)) ++ List.replicate 76 0#8
  body ++ leBytes 4 (crc32 body)

/-- A run ends with RESULT 1, or 3 where a step, a sensor or a leg failed. -/
def State.calEnd (s : State) (failed : Bool) : State :=
  let p := Pg.CALIB
  let s1 := (((s.setCal fun x => { x with run := none }).setB p Reg.CALIB_STATUS_BUSY false).setF p Reg.CALIB_STATUS_RESULT
    (if failed then 3 else 1)).ev! p Ev.CALIB_CAL_DONE
  if failed then (s1.ev! p Ev.CALIB_CAL_FAIL).sticky! p Sticky.CALIB_CAL_FAIL else s1

/-- R386: a DELAY run takes the new selection of every step that passes. -/
def State.calDelayEnd (s : State) (n : Nat) (cells : List Cells) : State :=
  let sel := (List.range 32).map fun i => (32 * n + i, selectCells (cells.getD i []))
  let failed := sel.any fun e => e.2.isNone
  let fresh := sel.filterMap fun e => e.2.map fun m => (e.1, m)
  let kept := sel.filterMap fun e => if e.2.isNone then some (e.1, s.trim 0 e.1) else none
  let s1 := s.setCal fun x => { x with
    cells := fresh ++ kept ++ x.cells.filter (fun e => e.1 / 32 != n), brushValid := putBit x.brushValid n (x.brushValid.testBit n || !fresh.isEmpty) }
  (s1.setF Pg.CALIB Reg.CALIB_DELAY_FAIL (putBit (s.f Pg.CALIB Reg.CALIB_DELAY_FAIL) n failed)).calEnd failed

/-- R387: a SENSOR run takes the new offset of every valid sensor whose offset lies within 640. -/
def State.calSensorEnd (s : State) (sums : List Int) : State :=
  let new (i : Nat) : Option Int :=
    let o := s.fi Pg.CALIB Reg.CALIB_REF_TEMP - tdiv (sums.getD i 0) 16
    if s.validSensors.contains i ∧ o.natAbs ≤ 640 then some o else none
  let l := (List.range 12).map fun i => (i, (new i).getD (signed 16 (s.trim 1 i)))
  (s.setCal fun x => { x with offsets := l, sensorValid := x.sensorValid || (List.range 12).any fun i => (new i).isSome }).calEnd ((List.range 12).any fun i => (new i).isNone)

/-- R387: a LANE run takes the new selection of each leg that has a good segment. -/
def State.calLaneEnd (s : State) (k : Nat) (segP segN : List (Option Nat)) : State :=
  let old := s.trim 2 k
  let pn := selectSegs segP
  let nn := selectSegs segN
  let v := nn.getD (old / 2 ^ 16) * 2 ^ 16 + pn.getD (old % 2 ^ 16)
  (s.setCal fun x => { x with segs := (k, v) :: x.segs.filter (fun e => e.1 != k), laneValid := putBit x.laneValid k (x.laneValid.testBit k || pn.isSome || nn.isSome) }).calEnd
    (pn.isNone || nn.isNone)

/-- R389: a save is written to the copy not in use, or fails. -/
def State.calSaveEnd (s : State) (ok : Bool) : State :=
  let p := Pg.CALIB
  if ok then
    let n := (s.cal.count + 1) % 2 ^ 32
    let c := 1 - s.cal.copy
    let s1 := ((s.when s.nor fun s => s.nvErase s.spareCopy 4096).nvWrite s.spareCopy s.calRecord).setCal fun x => { x with count := n, copy := c }
    ((((s1.setF p Reg.CALIB_COUNT n).setF p Reg.CALIB_LAST_HOURS (s.f Pg.RECORD Reg.RECORD_HOURS)).setF p Reg.CALIB_STATUS_CAL_COPY c).ev! p
      Ev.CALIB_SAVED).calEnd false
  else s.calAbandon 4

/-- R387 to R389: the run in progress ends. `cells` are the delays measured on the 32 steps of a brush, `segP` and `segN` the segment resistances
of a lane's legs, a bad cell or segment having none; `ok` says that the NV device took a save. -/
def execCalDone (t : Nat) (cells : Vector (Vector (Option (BitVec 16)) 24) 32) (segP segN : Vector (Option Word) 16) (ok : Bool) (s : State) :
    Host.Outcome State Fault Refusal :=
  let s1 := s.upTo t
  let ohms (v : Vector (Option Word) 16) : List (Option Nat) := v.toList.map fun x => x.map BitVec.toNat
  done s (match s1.cal.run with
  | some r =>
    if ¬ s1.calHolds r.op r.target then s1.calAbandon r.op
    else match r.op with
      | 1 => s1.calDelayEnd r.target (cells.toList.map fun v => v.toList.map fun x => x.map BitVec.toNat)
      | 2 => if r.rounds < 16 then s1 else s1.calSensorEnd r.sums
      | 3 => s1.calLaneEnd r.target (ohms segP) (ohms segN)
      | _ => s1.calSaveEnd ok
  | none => s1)

/-! ### Built-in self-test (R390 to R392) -/

/-- The partitions of a domain for logic (kind 1) and memory (kind 2) BIST. -/
def partitions (d kind : Nat) : Nat :=
  let q : Nat × Nat := match d with
    | 2 => (16, 16)
    | 3 => (20, 17)
    | 4 => (4, 1)
    | 5 => (2, 1)
    | 6 => (8, 5)
    | 7 => (1, 1)
    | 8 => (2, 2)
    | _ => (0, 0)
  if kind = 1 then q.1 else q.2

/-- The cause a BIST command is refused with (R390); 0: none. -/
def State.bistRefuse (s : State) (d : Nat) : Nat :=
  if s.fb Pg.THERM Reg.THERM_STATUS_ENFORCED then 1
  else if s.pwr.dirty.contains d then 6
  else if d < 2 ∨ 8 < d ∨ ¬ s.domOn d then 2
  else if (domainPages d).any fun p => s.st p != stOff then 3
  else if s.bist.isSome then 4
  else if s.fuseBad then 5
  else 0

/-- R390, R391: BIST.CMD is written. With the key, a KIND of 1 or 2 starts a run: the domain is isolated, its state lost, and DIRTY. -/
def State.bistStart (s : State) (key kind d : Nat) : State :=
  let p := Pg.BIST
  if key ≠ 0xB5 then s.sticky! p Sticky.BIST_BAD_KEY
  else if kind ≠ 1 ∧ kind ≠ 2 then s
  else
    let c := s.bistRefuse d
    if c ≠ 0 then
      (((s.setF p Reg.BIST_STATUS_RESULT 3).setF p Reg.BIST_STATUS_REFUSE_CAUSE c).sticky! p Sticky.BIST_REFUSED).ev! p Ev.BIST_BIST_FAIL
    else
      let s1 := s.domainClear d
      let s2 := { s1 with bist := some ⟨kind, d, s.now⟩, pwr := { s1.pwr with dirty := d :: s1.pwr.dirty } }
      (((((s2.setB p Reg.BIST_STATUS_BUSY true).setF p Reg.BIST_STATUS_DOMAIN d).setF p Reg.BIST_STATUS_KIND kind).setF p
        Reg.BIST_STATUS_RESULT 0).calWatch).allPins

/-- A write of BIST.CMD, as a command. -/
def bistCommand (t : Nat) (key : BitVec 8) (kind : Nat) (dom : Fin 16) (s : State) : Host.Outcome State Fault Refusal :=
  let s1 := s.upTo t
  if ¬ s1.pageOn Pg.BIST then .fault (.domainOff (regAddr Pg.BIST Reg.BIST_CMD_KEY.off)) else done s (s1.bistStart key.toNat kind dom)

/-- R390: BIST.CMD KIND 1. -/
def execBistLogic (t : Nat) (key : BitVec 8) (dom : Fin 16) (s : State) : Host.Outcome State Fault Refusal := bistCommand t key 1 dom s

/-- R390: BIST.CMD KIND 2. -/
def execBistMemory (t : Nat) (key : BitVec 8) (dom : Fin 16) (s : State) : Host.Outcome State Fault Refusal := bistCommand t key 2 dom s

/-- R392: the run in progress ends: its signatures are compared with the fused ones, and the rows a memory run found are entered in the log. -/
def State.bistEnd (s : State) (r : BistRun) (sigs : Nat → Nat) (rows : List (Nat × Nat)) : State :=
  let p := Pg.BIST
  let want (k : Nat) : Nat := (Config.fuseSig r.dom r.kind k).toNat
  let bad := (List.range (partitions r.dom r.kind)).filter fun k => sigs k != want k
  let s0 := if r.kind = 2 then s.each (rows.filter fun q => bankDomain q.1 == r.dom && decide (q.2 < bankRows q.1)) fun s q => s.logFail q.1 q.2 else s
  let s1 := ((({ s0 with bist := none }.setB p Reg.BIST_STATUS_BUSY false).setF p Reg.BIST_FAIL_MASK
    (bad.foldl (fun m k => m + 2 ^ k) 0)).setF p Reg.BIST_ELAPSED (wrapU 64 ((s.now : Int) - r.start) / 6400)).ev! p Ev.BIST_BIST_DONE
  match bad with
  | [] => (s1.setF p Reg.BIST_STATUS_RESULT 1).inc p Reg.BIST_RUNS_PASSES
  | k :: _ =>
    (((((s1.setF p Reg.BIST_STATUS_RESULT 2).setF p Reg.BIST_SIG (sigs k)).setF p Reg.BIST_EXPECTED (want k)).inc p Reg.BIST_RUNS_FAILS).ev! p
      Ev.BIST_BIST_FAIL).sticky! p Sticky.BIST_FAIL

/-- R392: a BIST run ends, with the MISR of each partition and the failing rows found, each with its bank. ELAPSED is whole µs (R394). -/
def execBistDone (t : Nat) (sigs : Vector Word 20) (banks : List (Fin 20)) (rows : List (Fin 8192)) (s : State) :
    Host.Outcome State Fault Refusal :=
  let s1 := s.upTo t
  done s (match s1.bist with
  | some r => s1.bistEnd r (fun k => (sigs.toList.getD k 0#32).toNat) ((banks.map (·.val)).zip (rows.map (·.val)))
  | none => s1)

end Sys2Proof.Machine
end

