-- ==== Sys2Proof/Machine/Diptych.lean ====
section
/-! DEFINITION. The redundant pair: forming it, its digests and heartbeats, mirrored transactions and samples, takeover and hand-over
(spec/17_diptych.md, R309 to R321; R195). -/

namespace Sys2Proof.Machine

def State.setDip (s : State) (g : DipSt → DipSt) : State := { s with dip := g s.dip }

/-- A MIRROR frame is ready on both peer ports, where they are UP (R85). -/
def State.sendMirror (s : State) (payload : List Byte) : State :=
  s.each [(2 : Fin 20), 3] fun s l => s.queueFrame l 0x0A payload

/-- The full number of a frame near the present one whose low 32 bits are `v`. -/
def State.nearFrame (s : State) (v : Nat) : Nat := ((frameOf s.now : Int) + signed 32 (wrapU 32 ((v : Int) - frameOf s.now))).toNat

/-! ### The digest (R315) -/

/-- Put an edge in its place by tick, then by kind. -/
def edgeIns (e : Edge) : List Edge → List Edge
  | [] => [e]
  | x :: r => if before e.tick x.tick ∨ (e.tick = x.tick ∧ e.kind ≤ x.kind) then e :: x :: r else x :: edgeIns e r

/-- The bytes of one brush in D(n). -/
def State.digestBytes (s : State) (n : Nat) (b : Fin 16) : List Byte :=
  let x := s.brushes[b]
  let sp := if s.st (Pg.BRUSH b) = stOff then (⟨0, 0, 0⟩ : P3) else x.lastSp
  let word (tL : Nat) : Nat := match s.lasers[b].words.find? fun w => w.1 == tL && s.lasers[b].bursts.contains tL with
    | some w => w.2
    | none => 0
  let l := s.lasers[b]
  let edges := if s.isOn (Pg.BRUSH b) then s.frameEdges b (t0 (n + 1)) (afterEdges l.gA l.edgesA 0) (afterEdges l.pA l.edgesA 2) else []
  let sorted := edges.foldl (fun m e => edgeIns e m) []
  leBytes 4 (wrapU 32 sp.x) ++ leBytes 4 (wrapU 32 sp.y) ++ leBytes 4 (wrapU 32 sp.z) ++ leBytes 4 (word (t0 n + 9920)) ++
    leBytes 4 (word (t0 n + 17920)) ++ leBytes 4 sorted.length ++
    sorted.flatMap fun e => leBytes 8 (e.tick % 2 ^ 48 + e.kind * 2 ^ 56)

/-- D(n). -/
def State.digest (s : State) (n : Nat) : Nat := crc32 (allBrushes.flatMap fun b => s.digestBytes n b)

/-- The payload of a KIND 2. -/
def kind2 (n w2 digest : Nat) : List Byte := leBytes 4 (2 * 2 ^ 28) ++ leBytes 4 n ++ leBytes 4 w2 ++ leBytes 4 digest

/-- The word at 0x8 of a KIND 2. -/
def State.kind2Word (s : State) (declare ready form : Bool) : Nat :=
  s.f Pg.DIPTYCH Reg.DIPTYCH_MCOUNT % 2 ^ 16 * 2 ^ 16 + b2n (s.fb Pg.THERM Reg.THERM_STATUS_OWN_WARN) * 16 + b2n declare * 4 + b2n ready * 2 + b2n form

/-! ### Forming the pair (R312) -/

/-- The preconditions of a device. -/
def State.pairReady (s : State) : Bool :=
  s.st Pg.SYS == stOff && s.f Pg.PWR Reg.PWR_DOMAIN_STATUS_ON == 3 && s.f Pg.TIME Reg.TIME_STATUS_TSTATE == 2 && (s.laneUp 2 || s.laneUp 3)

/-- R312 steps 3 and 4: a FORM heartbeat leaves in frame `n`; A chooses F once both are ready. -/
def execPairFormFrame (n : Nat) (s : State) : Host.Outcome State Fault Refusal :=
  let s1 := s.upTo (t0 n + 13760)
  let p := Pg.DIPTYCH
  done s (if s1.st p = stStarting then
    let pre := s1.pairReady
    let bReady : Bool := match s1.dip.latest with | some b => b.form && b.ready | none => false
    let s2 := if pre ∧ bReady ∧ ¬ s1.roleB ∧ s1.dip.formF.isNone then
        (s1.setDip fun x => { x with formF := some (n + 64), echoed := false }).setF p Reg.DIPTYCH_FORM_FRAME ((n + 64) % 2 ^ 32)
      else s1
    let f : Nat := match s2.dip.formF with | some f => f % 2 ^ 32 | none => 0
    (s2.setB p Reg.DIPTYCH_STATUS_READY pre).sendMirror (kind2 n (s2.kind2Word false pre true) f)
  else s1)

/-- R312 step 5: A has not accepted B's echo by t0(F − 16) and drops F; it chooses a new one by step 4. -/
def execFormEchoDeadline (t : Nat) (s : State) : Host.Outcome State Fault Refusal :=
  let s1 := s.upTo t
  done s (match s1.dip.formF with
  | some f =>
    if s1.st Pg.DIPTYCH = stStarting ∧ ¬ s1.roleB ∧ ¬ s1.dip.echoed ∧ s1.past (t0 (f - 16)) then s1.setDip fun x => { x with formF := none }
    else s1
  | none => s1)

/-- R312 step 6: at t0(F) the device reaches ON in LOCKSTEP; A is active. -/
def execPairLock (n : Nat) (s : State) : Host.Outcome State Fault Refusal :=
  let s1 := s.upTo (t0 n)
  let p := Pg.DIPTYCH
  done s (if s1.st p = stStarting ∧ s1.dip.formF = some n ∧ (s1.roleB ∨ s1.dip.echoed) then
    (((((s1.toOn p).setF p Reg.DIPTYCH_STATUS_PAIR pairLockstep).setF p Reg.DIPTYCH_STATUS_HB_MISS 0).setF p Reg.DIPTYCH_MCOUNT 0).setB p Reg.DIPTYCH_STATUS_ACTIVE
      (!s1.roleB)).setDip (fun x => { x with windowFrom := s1.now, beats := [], digests := [] }) |>.ev! p Ev.DIPTYCH_PAIRED
  else s1)

/-! ### Digests and heartbeats (R315, R316) -/

/-- A releases ACTIVE_L as it launches DECLARE (R318). -/
def State.declareOut (s : State) : State :=
  let p := Pg.DIPTYCH
  ((((((s.setDip fun x => { x with declareDue := false, declared := true }).setF p Reg.DIPTYCH_STATUS_PAIR pairTakenOver).setB p
    Reg.DIPTYCH_STATUS_ACTIVE false).ev! p Ev.DIPTYCH_DECLARED).inc p Reg.DIPTYCH_TAKEOVERS).accAdd 0xD60 2 1).trigger 4

/-- R315: the heartbeat of frame `n` leaves with its digest. -/
def execDigestLaunch (n : Nat) (s : State) : Host.Outcome State Fault Refusal :=
  let s1 := s.upTo (t0 n + 13760)
  let p := Pg.DIPTYCH
  done s (if s1.isOn p then
    let d := s1.digest n
    let ready := decide (s1.pairState = pairLockstep) && !s1.dip.barred && !s1.dip.late
    let declare := s1.dip.declareDue && !s1.roleB
    let s2 := ((s1.setB p Reg.DIPTYCH_STATUS_READY ready).setDip fun x => { x with
      digests := ((n, d, s1.f p Reg.DIPTYCH_MCOUNT) :: x.digests).take 4 }).sendMirror (kind2 n (s1.kind2Word declare ready false) d)
    if declare then s2.declareOut else s2
  else s1)

/-- R312, R315, R316: a KIND 2 of the partner is accepted: FRAME, the word at 0x8 and DIGEST. The first copy of a frame counts. -/
def execDigestReceive (t : Nat) (frame w2 digest : Word) (s : State) : Host.Outcome State Fault Refusal :=
  let s1 := s.upTo t
  let p := Pg.DIPTYCH
  let w := w2.toNat
  let b : Beat := ⟨frame.toNat, w / 2 ^ 16, w.testBit 4, w.testBit 2, w.testBit 1, w.testBit 0, digest.toNat⟩
  done s (if s1.st p = stStarting ∨ s1.isOn p then
    let s2 := (s1.setDip fun x => { x with
      latest := some b, beats := if x.beats.any fun y => y.frame == b.frame then x.beats else x.beats ++ [b] }).setB p
        Reg.DIPTYCH_STATUS_PARTNER_READY b.ready
    if s2.st p = stStarting ∧ b.form ∧ b.digest ≠ 0 then
      if s2.roleB then
        (s2.setDip fun x => { x with formF := some (s2.nearFrame b.digest) }).setF p Reg.DIPTYCH_FORM_FRAME b.digest
      else s2.setDip fun x => { x with
        echoed := x.echoed || (match x.formF with | some f => f % 2 ^ 32 == b.digest | none => false) }
    else s2
  else s1)

/-- The mirror was lost: PAIR = A_ONLY on both devices, and B can no longer continue (R316). -/
def State.mirrorLost (s : State) : State :=
  let p := Pg.DIPTYCH
  let s1 := (s.ev! p Ev.DIPTYCH_MIRROR_LOST).setF p Reg.DIPTYCH_STATUS_PAIR pairAOnly
  if s.roleB then (s1.setDip fun x => { x with barred := true }).sticky! p Sticky.DIPTYCH_MIRROR_LOST else s1

/-- The pair has diverged in frame `n` (R316). -/
def State.diverge (s : State) (n own peer : Nat) : State :=
  let p := Pg.DIPTYCH
  let s1 := ((((((s.sticky! p Sticky.DIPTYCH_DIVERGED).ev! p Ev.DIPTYCH_DIVERGED).setF p Reg.DIPTYCH_DIV_FRAME (n % 2 ^ 32)).setF p
    Reg.DIPTYCH_DIGEST_OWN own).setF p Reg.DIPTYCH_DIGEST_PEER peer).accAdd 0xD62 2 1).trigger 5
  if s.fb p Reg.DIPTYCH_PAIR_CFG_DIV_RESP then
    (s1.setF p Reg.DIPTYCH_STATUS_PAIR pairAOnly).setDip fun x => { x with barred := x.barred || s.roleB }
  else (s1.setF p Reg.DIPTYCH_STATUS_PAIR pairDiverged).latchCause allBrushes causeDiverged s.now

/-- The partner's heartbeat of frame `n` is present (R316): in lockstep it is compared, unless A declares or its FORM
says that it carries no digest (DEDUCED, log 52). -/
def State.beatSeen (s : State) (n : Nat) (b : Beat) : State :=
  let p := Pg.DIPTYCH
  let s1 := (s.setF p Reg.DIPTYCH_STATUS_HB_MISS 0).setDip fun x => { x with windowFrom := s.now }
  if b.declare ∨ b.form ∨ s.pairState ≠ pairLockstep then s1
  else match s.dip.digests.find? fun d => d.1 == n with
  | some d =>
    if d.2.2 % 2 ^ 16 ≠ b.mcount then s1.mirrorLost
    else if d.2.1 ≠ b.digest then s1.diverge n d.2.1 b.digest
    else s1.inc p Reg.DIPTYCH_COMPARED
  | none => s1

/-- The partner's heartbeat is missing (R316); in lockstep the second in a row ends the pair on A. -/
def State.beatMissed (s : State) : State :=
  let p := Pg.DIPTYCH
  let s1 := (s.inc p Reg.DIPTYCH_STATUS_HB_MISS).inc p Reg.DIPTYCH_HB_MISSES
  if s.pairState = pairLockstep ∧ 2 ≤ s1.f p Reg.DIPTYCH_STATUS_HB_MISS ∧ ¬ s1.roleB then
    (s1.ev! p Ev.DIPTYCH_PARTNER_LOST).setF p Reg.DIPTYCH_STATUS_PAIR pairAOnly
  else s1

/-- R316 at the exchange cut of frame `n`. -/
def State.dipCut (s : State) (n : Nat) : State :=
  if s.isOn Pg.DIPTYCH then
    let s1 := match s.dip.beats.find? fun b => b.frame == n % 2 ^ 32 with
      | some b => s.beatSeen n b
      | none => s.beatMissed
    s1.setDip fun x => { x with beats := x.beats.filter fun b => decide (0 < signed 32 (wrapU 32 ((b.frame : Int) - n))) }
  else s

/-! ### Takeover (R317, R319) -/

/-- Whether a record's gate interval meets `[lo, hi]`. -/
def State.inWindow (s : State) (b : Fin 16) (u : Up) (lo hi : Nat) : Bool :=
  (List.range (ahead lo hi / 16000 + 2)).any fun k =>
    (s.gateIvals b u (s.ownGate b u).1 (s.ownGate b u).2 (wrapU 64 ((t0 (frameOf lo + k) : Nat) : Int))).any fun i =>
      before i.lo i.hi && reached hi i.lo && before lo i.hi

/-- The emitting records of B in the takeover window, counted (R319). -/
def State.gapStrokes (s : State) (lo hi : Nat) : Nat :=
  allBrushes.foldl (fun (n : Nat) (b : Fin 16) =>
    n + ((s.upsOf b (s.timeline b)).filter fun u => u.r.emits && s.inWindow b u lo hi).length) 0

/-- Every head that is consulted and UP shows MISSING_0, and there is one (R317). -/
def State.headsMissing (s : State) : Bool :=
  let l := allBrushes.filter fun (h : Fin 16) => (s.f Pg.DIPTYCH Reg.DIPTYCH_PAIR_CFG_HEADS).testBit h && s.laneUp (4 + h)
  !l.isEmpty && l.all fun h => (s.f (Pg.HEAD h) Reg.HEAD_HEAD_STATUS_STATUS).testBit 8

/-- B takes over if it is to (R317). -/
def State.takeoverDue (s : State) : Bool :=
  let p := Pg.DIPTYCH
  let declared : Bool := match s.dip.latest with | some b => b.declare | none => false
  s.isOn p && s.roleB && decide (s.pairState = pairLockstep) && !s.dip.barred && !s.dip.late && s.fb p Reg.DIPTYCH_STATUS_READY &&
    (declared || (decide (2 ≤ s.f p Reg.DIPTYCH_STATUS_HB_MISS) && s.headsMissing))

/-- What B does within 128 tk of the decision (R317, R195, R319). -/
def State.takeOver (s : State) : State :=
  let p := Pg.DIPTYCH
  let gap := s.gapStrokes s.dip.windowFrom s.now
  let s1 := (((s.setB p Reg.DIPTYCH_STATUS_ACTIVE true).setF p Reg.DIPTYCH_STATUS_PAIR pairTakenOver).setPair p Reg.DIPTYCH_TAKEOVER_LO
    Reg.DIPTYCH_TAKEOVER_HI (s.now % 2 ^ 48)).inc p Reg.DIPTYCH_TAKEOVERS
  let s2 := (((s1.inc p Reg.DIPTYCH_GAP_STROKES gap).ev! p Ev.DIPTYCH_TAKEOVER).accAdd 0xD60 2 1).trigger 4
  let s3 := if s2.pageOn Pg.MEDIUM then (s2.setB Pg.MEDIUM Reg.MEDIUM_STATUS_LOCAL true).ev! Pg.MEDIUM Ev.MEDIUM_LOCAL_SAMPLES else s2
  if s3.pageOn Pg.VISION then
    (s3.setB Pg.VISION Reg.VISION_STATUS_NO_CAMERA true).each allBrushes fun s b => if s.pageOn (Pg.GLAZE b) then s.camLost b else s
  else s3

/-- R317: B evaluates takeover at the exchange cut of frame `n`, or at its t0 + 3,840. -/
def execTakeoverEval (n : Nat) (atCut : Bool) (s : State) : Host.Outcome State Fault Refusal :=
  let s1 := s.upTo (if atCut then cutOf n else t0 n + 3840)
  done s (if s1.takeoverDue then s1.takeOver else s1)

/-- HANDOVER is written with GO = 1 (R318, R321): on A it declares, or is refused where B is not ready to go on alone. -/
def State.handover (s : State) (key : Nat) : State :=
  if key ≠ 0x5A then s.sticky! Pg.DIPTYCH Sticky.DIPTYCH_BAD_KEY
  else if s.roleB ∨ s.dip.declareDue then s else s.declareNow

/-- R318: a write of HANDOVER with GO = 1. -/
def execHandover (t : Nat) (key : BitVec 8) (s : State) : Host.Outcome State Fault Refusal :=
  let s1 := s.upTo t
  if ¬ s1.pageOn Pg.DIPTYCH then .fault (.domainOff (regAddr Pg.DIPTYCH Reg.DIPTYCH_HANDOVER_GO.off)) else done s (s1.handover key.toNat)

/-! ### Mirrored transactions and samples (R313, R195) -/

/-- R313: B accepts a MIRROR KIND 0: the arrival tick and port on A, and the TXN. The second copy is ignored; one that comes after its application
tick makes B late. -/
def execMirrorTxnReceive (t : Nat) (arr : BitVec 48) (port : Fin 2) (op : Fin 4) (tag : BitVec 16) (addr : BitVec 40) (count : Fin 256)
    (cross : Bool) (data : List Byte) (s : State) : Host.Outcome State Fault Refusal :=
  let s1 := s.upTo t
  let p := Pg.DIPTYCH
  done s (if s1.isOn p ∧ s1.roleB ∧ s1.pairState = pairLockstep then
    let a := near48 s1.now arr.toNat
    if s1.dip.seen.contains (a, port.val) then s1
    else
      let s2 := s1.setDip fun x => { x with seen := (a, port.val) :: x.seen }
      if 0 < sdiff48 s1.now (a + s1.f p Reg.DIPTYCH_MIRROR_LAT) then
        ((s2.setDip fun x => { x with late := true }).inc p Reg.DIPTYCH_MIRROR_LATE).sticky! p Sticky.DIPTYCH_MIRROR_LATE |>.mirrorLost
      else
        let q : Txn := ⟨port, a, op, tag.toNat, addr.toNat, count, cross, data⟩
        s2.setDip fun x => { x with queue := x.queue ++ [q] }
  else s1)

/-- One sample word; a missing one has AGE and COUNT all ones (R195). -/
def sampleWord (m : Option MSample) : List Byte :=
  match m with
  | some w => leBytes 6 w.count ++ leBytes 2 w.age
  | none => List.replicate 8 0xFF#8

/-- R195: A sends the medium samples of frame `n`. -/
def execMirrorMediumLaunch (n : Nat) (s : State) : Host.Outcome State Fault Refusal :=
  let s1 := s.upTo (t0 n + 640)
  done s (if s1.isOn Pg.DIPTYCH ∧ ¬ s1.roleB then
    let words := s1.medium.samples.toList.flatMap fun m => sampleWord (if s1.medium.samplesOf = n then m else none)
    s1.sendMirror (leBytes 4 (1 * 2 ^ 28) ++ leBytes 4 n ++ leBytes 4 0 ++ words)
  else s1)

/-- R195: B accepts a KIND 1; the first of the present frame by its use instant is taken. A word is missing by its AGE alone. -/
def execMirrorMediumReceive (t : Nat) (frame : Word) (words : Vector (BitVec 64) 4) (s : State) : Host.Outcome State Fault Refusal :=
  let s1 := s.upTo t
  let n := frameOf s1.now
  let have' : Bool := match s1.medium.mirror with | some m => m.1 == n | none => false
  done s (if s1.isOn Pg.DIPTYCH ∧ s1.roleB ∧ frame.toNat = n % 2 ^ 32 ∧ ¬ have' ∧ sdiff48 s1.now (t0 n + 3200) ≤ 0 then
    let l := words.toList.map fun w =>
      let v := w.toNat
      if v / 2 ^ 48 = 0xFFFF then none else some (⟨v % 2 ^ 48, v / 2 ^ 48⟩ : MSample)
    { s1 with medium := { s1.medium with mirror := some (n, l) } }
  else s1)

end Sys2Proof.Machine
end

