-- ==== Sys2Proof/Machine/Tap.lean ====
section
/-! DEFINITION. The test access port (spec/25_pins_electrical.md, R423, R424): the controller of IEEE 1149.1, its instruction register and its data
registers. -/

namespace Sys2Proof.Machine

/-- The controller's next state for a level of TMS (IEEE 1149.1). -/
def tapNext (x : TapState) (tms : Bool) : TapState :=
  match x, tms with
  | .reset, true => .reset
  | .reset, false => .idle
  | .idle, true => .selectDr
  | .idle, false => .idle
  | .selectDr, true => .selectIr
  | .selectDr, false => .captureDr
  | .captureDr, true => .exit1Dr
  | .captureDr, false => .shiftDr
  | .shiftDr, true => .exit1Dr
  | .shiftDr, false => .shiftDr
  | .exit1Dr, true => .updateDr
  | .exit1Dr, false => .pauseDr
  | .pauseDr, true => .exit2Dr
  | .pauseDr, false => .pauseDr
  | .exit2Dr, true => .updateDr
  | .exit2Dr, false => .shiftDr
  | .updateDr, true => .selectDr
  | .updateDr, false => .idle
  | .selectIr, true => .reset
  | .selectIr, false => .captureIr
  | .captureIr, true => .exit1Ir
  | .captureIr, false => .shiftIr
  | .shiftIr, true => .exit1Ir
  | .shiftIr, false => .shiftIr
  | .exit1Ir, true => .updateIr
  | .exit1Ir, false => .pauseIr
  | .pauseIr, true => .exit2Ir
  | .pauseIr, false => .pauseIr
  | .exit2Ir, true => .updateIr
  | .exit2Ir, false => .shiftIr
  | .updateIr, true => .selectDr
  | .updateIr, false => .idle

/-- The low `k` bits of a number, lowest first. -/
def lowBits (k n : Nat) : List Bool := (List.range k).map fun i => n.testBit i

/-- The number whose bits are given, lowest first. -/
def ofBits : List Bool → Nat
  | [] => 0
  | b :: r => b2n b + 2 * ofBits r

/-- The identification code (R423). -/
def idCode : Nat := 0x37160001

/-- The instruction in force selects the boundary register. -/
def selectsBoundary (ir : Nat) : Bool := ir == 0 || ir == 1

def State.setTap (s : State) (g : TapSt → TapSt) : State := { s with tap := g s.tap }

/-- What the rising edge of TCK does in the controller's present state: capture, or shift. -/
def State.tapEdge (s : State) (tdi : Bool) : State :=
  match s.tap.state with
  | .captureDr =>
    if selectsBoundary s.tap.ir then
      s.takeFree.setTap fun x => { x with sr := (List.range Config.scanLength).map fun k => Config.scanCell s.freeCtr k }
    else s.setTap fun x => { x with sr := if x.ir = 2 then lowBits 32 idCode else [false] }
  | .captureIr =>
    s.takeFree.setTap fun x => { x with sr := true :: false :: lowBits 4 (Config.freeValue s.freeCtr).toNat }
  | .shiftDr | .shiftIr => s.setTap fun x => { x with sr := (x.sr ++ [tdi]).drop 1 }
  | _ => s

/-- The controller enters a state: an instruction or the boundary cells' outputs are updated, and TDO follows. -/
def State.tapEnter (s : State) (n : TapState) : State :=
  s.setTap fun x => { x with
    state := n
    ir := if n = .reset then 2 else if n = .updateIr then ofBits x.sr else x.ir
    upd := if n = .reset then [] else if n = .updateDr ∧ selectsBoundary x.ir then x.sr else x.upd
    tdo := if n = .shiftDr ∨ n = .shiftIr then x.sr.head? else none }

/-- A rising edge of TCK with TRST_L high, as the controller and its registers take it. -/
def State.tapStep (s : State) (tms tdi : Bool) : State := (s.tapEdge tdi).tapEnter (tapNext s.tap.state tms)

/-- R423, R424: a rising edge of TCK with TRST_L high. The port works while PD_SYS is on. -/
def execTapClock (t : Nat) (tms tdi : Bool) (s : State) : Host.Outcome State Fault Refusal :=
  let s1 := s.upTo t
  if ¬ s1.pwr.sysOn then done s s1
  else
    let s2 := s1.tapStep tms tdi
    let s3 := s2.setPwr fun x => { x with limitHeld := s2.tap.state != .reset }
    if s2.scanBreach then .fault (.hostBreach 423)
    else done s (if s1.scanLow = s2.scanLow then s3 else s3.allPins)

/-- R423: TRST_L is driven low. -/
def execTapReset (t : Nat) (s : State) : Host.Outcome State Fault Refusal :=
  let s1 := s.upTo t
  done s (if s1.pwr.sysOn then
    let s2 := s1.tapEnter .reset
    let s3 := s2.setPwr fun x => { x with limitHeld := false }
    if s1.scanLow then s3.allPins else s3
  else s1)

end Sys2Proof.Machine
end

