-- ==== Sys2Proof/Machine/Frame.lean ====
section
/-! DEFINITION. The instants of every frame: its start, the medium's use instant, and the exchange cut (spec/01_architecture.md, R16 to R20). -/

namespace Sys2Proof.Machine

/-- STOPPING of MEDIUM ends at a frame start (R193). -/
def State.mediumStops (s : State) : State := if s.st Pg.MEDIUM = stStopping then s.endSequence Pg.MEDIUM else s

/-- As `done`, but for a host error that the list of an ON brush holds, by its rule. -/
def doneList (s s' : State) (breach : State → Fin 16 → Option Nat) : Host.Outcome State Fault Refusal :=
  match allBrushes.findSome? (breach s') with
  | some r => .fault (.hostBreach r)
  | none => done s s'

/-- R16, R104, R160, R163 to R165, R189, R279: frame `n` begins. Rates and steps that wait take effect, the medium samples latch, miss decisions
and set-points follow, and the vision batch is formed. A record decided on time that breaks R168, R205 or R209 is a host error, and so is a reserved
opcode where a list goes on (R145). -/
def execFrameStart (n : Nat) (s : State) : Host.Outcome State Fault Refusal :=
  let s1 := s.upTo (t0 n)
  doneList s (if s1.time.running then
    let s2 := ((s1.timeFrameStart.encSamples n).mediumStops).throttleShow
    let s3 := if s2.domOn 3 then s2.each allBrushes fun s b => s.brushFrame n b else s2
    let s4 := if s3.spWaits then s3 else s3.setpoints n
    s4.formBatch n
  else s1) fun s b => if s.isOn (Pg.BRUSH b) ∧ s.badOp b then some 145 else s.listBreach b

/-- R191 to R193, R197, R198: the use instant of frame `n`: targets are entered, the estimator takes the frame's sample or coasts, targets are
frozen, and the set-points that waited for it are formed. -/
def execEstimatorUpdate (n : Nat) (s : State) : Host.Outcome State Fault Refusal :=
  let s1 := s.upTo (t0 n + 3200)
  done s (if s1.time.running ∧ s1.domOn 3 then
    let on := allBrushes.filter fun (b : Fin 16) => s1.isOn (Pg.BRUSH b)
    let s2 := if s1.moving then s1.each on fun s b => s.targets b else s1
    let s3 := (s2.estimator n).freezeTargets n
    let s4 := s3.each on fun s b => s.takeTicks b
    if s4.spWaits then s4.setpoints n else s4
  else s1)

/-- R18, R170, R180, R234, R316, R365: the exchange cut of frame `n`. The combined warning is sampled, the pair is compared, the engine frame's
commands become final, settle checks run and the gate timers load the next frame's edges. A list beyond the timers' capacity, which only a host
error makes, stops (R171). -/
def execExchangeCut (n : Nat) (s : State) : Host.Outcome State Fault Refusal :=
  let s1 := s.upTo (cutOf n)
  doneList s (if s1.time.running then
    let s2 := ((s1.thermalCut n).dipCut n).servoCut
    if s2.domOn 3 then s2.each allBrushes fun s b => s.brushCut n b else s2
  else s1) fun s b => if s.isOn (Pg.BRUSH b) ∧ s.overCapacity b (t0 (n + 1)) then some 171 else none

/-- One cycle of CLK_FAST passes, while the root PLL coasts as at any other time (R58, R103): the accumulator takes its increment, and the present tick follows it. -/
def State.fastCycle (s : State) : State :=
  let acc := wrapU 96 (s.time.acc + s.fastInc)
  let t := acc / 2 ^ 32
  { s with time := { s.time with acc := acc, cycles := s.time.cycles + 1, now := if ahead s.time.now t < 2 ^ 63 then t else s.time.now } }

end Sys2Proof.Machine
end

