-- ==== Sys2Proof/Machine/Header.lean ====
section
/-! DEFINITION. The common page header (spec/02_register_pages.md, R32 to R43) and what a write to any register does (R5, R6, R40, R44), whether it
comes as a command of its own or inside a host transaction. -/

namespace Sys2Proof.Machine

/-- Go on from the next state of a first effect. -/
def thenDo (o : Host.Outcome State Fault Refusal) (g : State → Host.Outcome State Fault Refusal) : Host.Outcome State Fault Refusal :=
  match o with
  | .next s => g s
  | .fault f => .fault f
  | .refused r => .refused r

/-- What has become due on page `p` before a command that concerns it: the return of a light port, and the pixels a RASTER line has exposed. -/
def State.pageDue (s : State) (p : Nat) : State :=
  match pageBlk p with
  | some .ltport => s.lightReturn (lightOf p)
  | some .raster => s.rasterDue (rasterOf p)
  | _ => s

/-! ### Registers whose value follows from other state -/

/-- The two bits of ILK_STATUS.STATE for one interlock (R307). -/
def ilkCode (k : Ilk) : Nat := if k.a && !k.b then 1 else if !k.a && k.b then 0 else if !k.a then 2 else 3

/-- Bits of a list, bit 0 first. -/
def maskOf (l : List Bool) : Nat := l.reverse.foldl (fun m b => 2 * m + b2n b) 0

/-- STATUS, ILK_STATUS and CAUSE_n of the KNIFE page (R307). -/
def State.knifeWord (s : State) (o : Nat) (w : Word) : Word :=
  if o = Reg.KNIFE_STATUS_PERMIT.off then
    BitVec.ofNat 32 (maskOf (allBrushes.map fun n => s.permit n) + b2n s.ilkOk * 2 ^ 16 + b2n (!s.causePresent 0 causeClock) * 2 ^ 17 +
      b2n s.knifeOut * 2 ^ 18 + b2n s.forced * 2 ^ 19)
  else if o = Reg.KNIFE_ILK_STATUS_STATE.off then
    putFld w Reg.KNIFE_ILK_STATUS_STATE (s.knife.ilk.toList.reverse.foldl (fun m k => 4 * m + ilkCode k) 0)
  else if 0x080 ≤ o ∧ o < 0x0C0 then
    putFld w Reg.KNIFE_CAUSE_PRESENT (s.presentMask ⟨(o - 0x080) / 4 % 16, Nat.mod_lt _ (by decide)⟩)
  else w

/-- TIME_LO, TIME_HI, TIME_FRAC and STATUS.COASTING (R121). -/
def State.timeWord (s : State) (o : Nat) (w : Word) : Word :=
  if o = Reg.TIME_TIME_LO.off then BitVec.ofNat 32 (s.edgeAcc / 2 ^ 32)
  else if o = Reg.TIME_TIME_HI.off then BitVec.ofNat 32 (s.edgeAcc / 2 ^ 64)
  else if o = Reg.TIME_TIME_FRAC.off then BitVec.ofNat 32 s.edgeAcc
  else if o = Reg.TIME_STATUS_COASTING.off then putFld w Reg.TIME_STATUS_COASTING (b2n s.coasting)
  else w

/-- Record `i` of block `k` is one of its list's: none before it in the block ends the list (R154). -/
def State.inList (s : State) (h : Sheet) (k i : Nat) : Bool :=
  decide (i < h.records) && (List.range (i - 64 * k)).all fun j => (s.record h (64 * k + j)).op != opEnd

/-- Record `i` lies with record `cur` in the body of a resident loop that will branch again (R152, R162). -/
def State.inLoop (s : State) (h : Sheet) (pass cur i : Nat) : Bool :=
  (List.range 2048).any fun j =>
    let r := s.record h (cur + j)
    r.op == opLoop && r.branches pass && !r.refetches (cur + j) && decide (r.w1 ≤ cur ∧ r.w1 ≤ i ∧ i ≤ cur + j)

/-- The records resident in a window that execution has not yet reached: those after the one in execution, and each of a resident loop body once
(R186). -/
def State.aheadIn (s : State) (b : Fin 16) (pathB : Bool) : Nat :=
  let x := s.brushes[b]
  let p := Pg.BRUSH b
  let from_ := x.idx + b2n (x.cur.isNone && (x.ended || s.fb p Reg.BRUSH_STATUS_WAITING))
  let cur := match x.cur with | some u => u.idx | none => x.idx
  let one (k : FBlock) : Nat :=
    match k.arrived, (x.force.toList ++ x.queue).find? fun h => h.seq == k.sheet with
    | some _, some h =>
      let here : Bool := match x.force with | some f => f.seq == h.seq | none => false
      ((List.range 64).filter fun j =>
        let i := 64 * k.blk + j
        s.inList h k.blk i && (!here || decide (x.lap < k.lap) ||
          (k.lap == x.lap && !x.ended && (decide (from_ ≤ i) || s.inLoop h (s.f p Reg.BRUSH_PASS_COUNT) cur i)))).length
    | _, _ => 0
  (x.path pathB).blocks.foldl (fun n k => n + one k) 0

/-- MODE_ACTIVE and the window counts of a BRUSH page (R186). -/
def State.brushWord (s : State) (b : Fin 16) (o : Nat) (w : Word) : Word :=
  if o = Reg.BRUSH_STATUS_MODE_ACTIVE.off then putFld w Reg.BRUSH_STATUS_MODE_ACTIVE (s.brushMode b)
  else if o = Reg.BRUSH_WINDOW_A_AHEAD.off then
    putFld (putFld w Reg.BRUSH_WINDOW_A_AHEAD (min 4095 (s.aheadIn b false))) Reg.BRUSH_WINDOW_B_AHEAD (min 4095 (s.aheadIn b true))
  else w

/-- Inputs and tolerance of a LASER page (R187). -/
def State.laserWord (s : State) (b : Fin 16) (o : Nat) (w : Word) : Word :=
  if o = Reg.LASER_PORT_STATUS_READY.off then
    putFld (putFld w Reg.LASER_PORT_STATUS_READY (b2n s.lasers[b].readyIn)) Reg.LASER_PORT_STATUS_FAULT (b2n s.lasers[b].faultIn)
  else if o = Reg.LASER_TWIN_STATUS_TOL_1.off then putFld w Reg.LASER_TWIN_STATUS_TOL_1 (b2n (s.twinTol b == 1))
  else w

/-- PINS of an ENC page (R202). -/
def State.encWord (s : State) (n : Fin 4) (o : Nat) (w : Word) : Word :=
  if o = Reg.ENC_PINS_A.off then
    putFld (putFld (putFld w Reg.ENC_PINS_A (b2n s.encs[n].a)) Reg.ENC_PINS_B (b2n s.encs[n].b)) Reg.ENC_PINS_Z (b2n s.encs[n].z)
  else w

/-- ROLE_B and ACTIVE_L of the DIPTYCH page: the pin is low while the device is active (R310, R321). -/
def State.dipWord (s : State) (o : Nat) (w : Word) : Word :=
  if o = Reg.DIPTYCH_STATUS_ROLE_B.off then
    putFld (putFld w Reg.DIPTYCH_STATUS_ROLE_B (b2n s.roleB)) Reg.DIPTYCH_STATUS_ACTIVE_L (b2n !s.isActive)
  else w

/-- VIEW_DATA (R393): the value in force or the factory value that VIEW_SEL names. -/
def State.viewData (s : State) : Nat :=
  let p := Pg.CALIB
  let k := s.f p Reg.CALIB_VIEW_SEL_KIND
  let i := s.f p Reg.CALIB_VIEW_SEL_INDEX
  if s.f p Reg.CALIB_VIEW_SEL_SRC = 0 then s.trim k i else s.factory k i

/-- What a register of page `p` at offset `o` shows now. -/
def State.liveWord (s : State) (p o : Nat) : Word :=
  let w := s.word (regAddr p o)
  match pageBlk p with
  | some .knife => s.knifeWord o w
  | some .time => s.timeWord o w
  | some .brush => s.brushWord (brushOf p) o w
  | some .laser => s.laserWord (laserOf p) o w
  | some .diptych => s.dipWord o w
  | some .enc => s.encWord (encOf p) o w
  | some .calib => if o = Reg.CALIB_VIEW_DATA.off then BitVec.ofNat 32 s.viewData else w
  | some .bist =>
    if o = Reg.BIST_STATUS_DIRTY.off then putFld w Reg.BIST_STATUS_DIRTY (s.pwr.dirty.eraseDups.foldl (fun m d => m + 2 ^ d) 0) else w
  | some .medium =>
    if o = Reg.MEDIUM_STATUS_IN_FORCE.off then
      putFld (putFld w Reg.MEDIUM_STATUS_IN_FORCE (b2n (s.moving && s.isOn Pg.MEDIUM))) Reg.MEDIUM_STATUS_PEER (b2n s.peerSamples)
    else w
  | some .glaze =>
    if o = Reg.GLAZE_STATUS_CAM_LOST.off then putFld w Reg.GLAZE_STATUS_CAM_LOST (b2n (s.camFallback (glazeOf p)))
    else if o = Reg.GLAZE_MET_STATUS_FRESH.off then
      putFld w Reg.GLAZE_MET_STATUS_FRESH (maskOf (s.glazes[glazeOf p].held.toList.map fun m =>
        match m with | some m => s.metFresh (glazeOf p) (frameOf s.now) m | none => false))
    else w
  | some .vision => if o = Reg.VISION_STATUS_NO_CAMERA.off then putFld w Reg.VISION_STATUS_NO_CAMERA (b2n s.noCamera) else w
  | some .cam =>
    let l := (Config.camLanes (camOf p).val s.now).toNat ||| (Config.camStopped (camOf p).val s.now).toNat % 16
    if o = Reg.CAM_CAM_STATUS_STOP.off ∧ s.st p ≠ stOff then
      putFld (putFld (putFld w Reg.CAM_CAM_STATUS_STOP (l % 16)) Reg.CAM_CAM_STATUS_HS (l / 16 % 2)) Reg.CAM_CAM_STATUS_ULPS (l / 32)
    else w
  | some .banks => if o = Reg.BANKS_BG_STATUS_PHASE.off ∧ s.bankTest.active then putFld w Reg.BANKS_BG_STATUS_PHASE s.testPhase else w
  | some .ltport | some .raster => (s.pageDue p).word (regAddr p o)
  | some .dtrain => if o = Reg.DTRAIN_STATUS_PHASE.off ∧ s.training ≠ 0 then putFld w Reg.DTRAIN_STATUS_PHASE s.trainPhase else w
  | some .therm => if o = Reg.THERM_VALID.off then BitVec.ofNat 32 s.validWord else w
  | some .link => if o = 0x068 ∨ o = 0x06C then (s.prbsCount (laneOf p)).word (regAddr p o) else w
  | some .head => if o = 0x068 ∨ o = 0x06C then (s.prbsCount (laneOf p)).word (regAddr p o) else w
  | _ => w

/-! ### CTRL (R34 to R37) -/

/-- The page's lane is the selected clock reference (R73). -/
def State.isReference (s : State) (p : Nat) : Bool :=
  decide (pageBlk p = some .link) && decide (s.selected = p - 0x14) && !s.coasting && s.candValid (p - 0x14)

/-- What follows a change of a page's state: candidates, time mode, head health, what shows enforcement and the pins see it at once. -/
def State.settle (s : State) (p : Nat) : State :=
  let s1 := match pageBlk p with
    | some .link => s.candAll
    | some .time => s.timeModeCheck
    | some .head => s.headHealth (inst 0x20 16 p (by decide))
    | some .vision | some .banks => s.showEnforced
    | _ => s
  s1.allPins

/-- R34, R130, R57, R73, R306: the latest value written to CTRL.EN acts, or is ignored as the page's own rule says. -/
def State.ctrlWrite (s : State) (p : Nat) (en : Bool) : State :=
  let hold := s.fb Pg.CLK Reg.CLK_STATUS_SAFE_HOLD
  if p = Pg.SYS ∧ en ∧ (s.fuseBad ∨ hold) then s.sticky! p Sticky.SYS_EN_IGNORED
  else if p = Pg.PWR ∧ ¬ en then s
  else if p = Pg.KNIFE ∧ ¬ en then s.sticky! p Sticky.KNIFE_IGNORED_WRITE
  else if p = Pg.THERM ∧ ¬ en then s.sticky! p Sticky.THERM_IGNORED_WRITE
  else if s.isReference p ∧ ¬ en then s.sticky! p Sticky.LANE_REF_PROTECT
  else if en ∧ hold ∧ 2 ≤ pageDomain p then s
  else (s.ctrlEn p en).settle p

/-- The block of page `p` uses DRAM: it fetches, stores images or writes a ring there (R346). -/
def State.usesDram (s : State) (p : Nat) : Bool :=
  match pageBlk p with
  | some .brush => true
  | some .raster => true
  | some .stream => s.f p Reg.STREAM_STORE_CFG_STORE != 0
  | some .vision => s.f p (Reg.VISION_MRING_SIZE.num 0) != 0 || s.f p (Reg.VISION_MRING_SIZE.num 1) != 0
  | _ => false

/-- An axis has two enabled slots among engine `e` and the engines that run (R221). -/
def State.doubleSlot (s : State) (e : Fin 4) : Bool :=
  let l := ((List.finRange 4).filter fun k => k == e || s.st (Pg.ENGINE k) != stOff).flatMap fun k => (s.slotsOf k).map (·.2)
  l.eraseDups.length != l.length

/-- The host rule that enabling the block of page `p` now would breach (R93, R221, R346, R423). -/
def State.enableBreach (s : State) (p : Nat) : Option Nat :=
  match pageBlk p with
  | some .axis =>
    let l : Fin 20 := ⟨4 + (p - 0x80) / 3 % 16, by omega⟩
    if s.scanLow then some 423 else if p < 0x80 + 48 ∧ s.laneUp l ∧ s.laneRate l = 0 then some 93 else none
  | some .engine => if s.scanLow then some 423 else if s.doubleSlot (engineOf p) then some 221 else none
  | _ => if s.scanLow ∧ 2 ≤ pageDomain p then some 423 else if s.usesDram p ∧ ¬ s.dramOn then some 346 else none

/-- A CTRL write, where the host may make it (R61, R93, R221, R346, R423); in SAFE-HOLD a write of EN = 1 that is ignored breaches nothing (R57). -/
def ctrlOut (s : State) (p : Nat) (en : Bool) : Host.Outcome State Fault Refusal :=
  if p = Pg.CLK ∧ ¬ en then .fault (.hostBreach 61)
  else if en ∧ ¬ (s.fb Pg.CLK Reg.CLK_STATUS_SAFE_HOLD ∧ 2 ≤ pageDomain p) then
    match s.enableBreach p with
    | some r => .fault (.hostBreach r)
    | none => done s (s.ctrlWrite p en)
  else done s (s.ctrlWrite p en)

/-- Counters that only a cycle of PD_SYS clears (R321, R344, R380, R394), and the rows of a bank that spare rows and buffers stand in for, until its
domain is next switched on (R341, R343). -/
def keptCounter (p o : Nat) : Bool :=
  match pageBlk p with
  | some .diptych => o == 0x06C || o == 0x070 || o == 0x074
  | some .banks => o == 0x04C || o == 0x050 || o == 0x064 || o == 0x068 || decide (0x100 ≤ o ∧ o < 0x150)
  | some .record => o == 0x064 || o == 0x068
  | some .bist => o == 0x058
  | _ => false

/-- What AXIS.STATUS shows of the engine's slot map and of the latest HEAD_DN a reset of the axis does not change (R221, R246): `u` has page `p`
as `s` shows it there. -/
def State.liveStatus (u s : State) (p : Nat) : State :=
  if pageBlk p = some .axis then
    (((u.setF p Reg.AXIS_STATUS_ASSIGNED (s.f p Reg.AXIS_STATUS_ASSIGNED)).setF p Reg.AXIS_STATUS_ENGINE (s.f p Reg.AXIS_STATUS_ENGINE)).setF p
      Reg.AXIS_STATUS_SLOT (s.f p Reg.AXIS_STATUS_SLOT)).setF p Reg.AXIS_STATUS_AMP_EN (s.f p Reg.AXIS_STATUS_AMP_EN)
  else u

/-- R37: the block of page `p` is reset. No event of the page itself is asserted, and nothing is offered for it. -/
def State.softReset (s : State) (p : Nat) : State :=
  let s0 := match pageBlk p with
    | some .engine => s.engineGone (engineOf p)
    | _ => s
  let kept := s0.regs.filter fun e => decide (e.1 / 0x1000 = p) && keptCounter p (e.1 % 0x1000)
  let s1 := (((s0.crossReset p).setF p Reg.EVENT_MASK 0).clearInternal p).clearPage p
  (({ s1 with regs := kept ++ s1.regs }.liveStatus s p).exposeAt p).settle p

/-- The page's rule says that SOFT_RESET is ignored (R73, R136, R137, R306, R369). -/
def State.resetIgnored (s : State) (p : Nat) : Bool := [Pg.SYS, Pg.PWR, Pg.KNIFE, Pg.THERM].contains p || s.isReference p

/-- R37, with the pages that ignore it (R73, R136, R137, R306, R369). -/
def softResetOut (s : State) (p : Nat) : Host.Outcome State Fault Refusal :=
  if p = Pg.CLK then .fault (.hostBreach 61)
  else done s (
    if p = Pg.SYS then s.sticky! p Sticky.SYS_EN_IGNORED
    else if p = Pg.PWR then s
    else if p = Pg.KNIFE then s.sticky! p Sticky.KNIFE_IGNORED_WRITE
    else if p = Pg.THERM then s.sticky! p Sticky.THERM_IGNORED_WRITE
    else if s.isReference p then s.sticky! p Sticky.LANE_REF_PROTECT
    else s.softReset p)

/-! ### COMMIT and SNAPSHOT (R33, R38, R39, R41) -/

/-- R33, R38, R39: COMMIT is written with 1. -/
def State.commit (s : State) (p : Nat) : State :=
  if (pageCaps p).testBit 8 ∧ ¬ s.fb p Reg.COMMIT_PENDING then (s.setB p Reg.COMMIT_PENDING true).setCommitTick p s.now else s

/-- The offsets of page `p` that are read through SNAPSHOT. -/
def snapOffs (p : Nat) : List Nat :=
  match pageBlk p with
  | some b => ((blkInfo b).rows.filter (·.snap)).flatMap (fun r => (List.range r.cnt).map fun k => r.fld.off + k * r.fld.stride) |>.eraseDups
  | none => []

/-- R304: TAKE moves the live trip record into the last trip group and clears it. -/
def State.takeTrip (s : State) : State :=
  let v : Nat × Nat := match s.knife.live with
    | some t => (t.tick % 2 ^ 48, 2 ^ 31 + t.brush % 16 * 256 + t.cause % 16)
    | none => (0, 0)
  (((s.setSnapWord (regAddr Pg.KNIFE 0x064) (BitVec.ofNat 32 v.1)).setSnapWord (regAddr Pg.KNIFE 0x068) (BitVec.ofNat 32 (v.1 / 2 ^ 32))).setSnapWord
    (regAddr Pg.KNIFE 0x06C) (BitVec.ofNat 32 v.2)) |> fun s => { s with knife := { s.knife with live := none } }

/-- R33, R41: every snapshot counter and group of the page is latched. -/
def State.takeSnapshot (s : State) (p : Nat) : State :=
  if (pageCaps p).testBit 9 then
    let s1 := s.each (snapOffs p) fun s o => s.setSnapWord (regAddr p o) (s.liveWord p o)
    if p = Pg.KNIFE then s1.takeTrip else s1
  else s

/-! ### What a write may hold (R6, R44) -/

/-- Some 4-bit field of the low half of a word holds a code that is reserved for a candidate slot (R62, R121). -/
def badSlots (v : Nat) : Bool := (List.range 4).any fun k => decide (4 ≤ bits v (4 * k) 4 ∧ bits v (4 * k) 4 ≤ 14)

/-- A signed word outside the range of the latencies and leads (R187, R203). -/
def badLead (v : Nat) : Bool := let i := signed 32 v; decide (i < -640000 ∨ 640000 < i)

def outside (lo hi v : Nat) : Bool := decide (v < lo ∨ hi < v)

/-- Reserved encodings of the pages in PD_SYS and PD_LINK, by offset (R62, R80, R101, R117, R121, R136, R137, R307, R321, R344, R369, R404). -/
def badSysEncoding (b : Blk) (o : Nat) (w : Word) : Bool :=
  let v := w.toNat
  match b with
  | .clk =>
    (o == 0x040 && badSlots v) || (o == 0x044 && (fldOf w Reg.CLK_REF_CTRL_BW == 3 || outside 1 100 (fldOf w Reg.CLK_REF_CTRL_REF_TOL))) ||
      (o == 0x070 && (outside 10 26 (fldOf w Reg.CLK_FMEAS_CTRL_GATE) || decide (24 ≤ fldOf w Reg.CLK_FMEAS_CTRL_SRC) ||
        (fldOf w Reg.CLK_FMEAS_CTRL_SRC == 18 && decide (8 ≤ fldOf w Reg.CLK_FMEAS_CTRL_INST)) ||
        (fldOf w Reg.CLK_FMEAS_CTRL_SRC == 19 && decide (4 ≤ fldOf w Reg.CLK_FMEAS_CTRL_INST))))
  | .time =>
    (o == 0x040 && (fldOf w Reg.TIME_MODE_CTRL_MODE == 3 || fldOf w Reg.TIME_MODE_CTRL_QUAL == 0 || decide (fldOf w Reg.TIME_MODE_CTRL_LOSS < 2))) ||
      (o == 0x044 && badSlots v) ||
      (o == 0x050 && (decide (8 < fldOf w Reg.TIME_DLY_CTRL_FILT) || decide (12 < fldOf w Reg.TIME_DLY_CTRL_INTERVAL))) ||
      (o == 0x058 && (let i := signed 8 (fldOf w Reg.TIME_MASTER_CTRL_INTERVAL); decide (i < -3 ∨ 7 < i)))
  | .sys => o == 0x048 && fldOf w Reg.SYS_RESET_CMD_KIND == 3
  | .pwr => o == 0x048 && (fldOf w Reg.PWR_WAKE_CFG_LINK_WAIT == 0 || fldOf w Reg.PWR_WAKE_CFG_PG_TIMEOUT == 0)
  | .therm =>
    (o == 0x040 && (decide (fldOf w Reg.THERM_WARN_CFG_HYST < 4) || outside 3840 7680 (fldOf w Reg.THERM_WARN_CFG_WARN))) ||
      (o == 0x044 && outside 1 60000 v)
  | .knife => o == 0x05C && v == 0
  | .calib =>
    o == Reg.CALIB_VIEW_SEL_SRC.off && (decide (2 ≤ fldOf w Reg.CALIB_VIEW_SEL_SRC) ||
      decide ([512, 12, 20, 32].getD (fldOf w Reg.CALIB_VIEW_SEL_KIND) 0 ≤ fldOf w Reg.CALIB_VIEW_SEL_INDEX))
  | .diptych => o == 0x044 && outside 3200 12800 v
  | .banks => o == 0x044 && fldOf w Reg.BANKS_BG_CFG_INTERVAL == 0
  | .nv => o == 0x04C && outside 1 4096 v
  | .evcol => o == 0x040 && v == 3
  | .head => (o == 0x044 && fldOf w Reg.LANE_LANE_CTRL_MAX_RATE == 3) || (o == 0x100 && v == 0)
  | _ => false

/-- Reserved encodings of the pages that expose and move (R186, R187, R202, R203, R222, R226, R246, R264, R298). -/
def badBrushEncoding (b : Blk) (p o : Nat) (w : Word) : Bool :=
  let v := w.toNat
  match b with
  | .brush =>
    (o == 0x040 && v == 3) ||
      (o == 0x048 && (fldOf w Reg.BRUSH_START_CFG_PARK_TIMEOUT == 0 || fldOf w Reg.BRUSH_START_CFG_START_FRAMES == 0))
  | .laser => decide (0x040 ≤ o ∧ o ≤ 0x04C) && badLead v
  | .enc => o == 0x040 && fldOf w Reg.ENC_ENC_CFG_MODE == 3
  | .medium =>
    (o == 0x040 && fldOf w Reg.MEDIUM_MODE_CTRL_MISS_LIMIT == 0) || (o == 0x04C && outside 32 1023 v) || (o == 0x050 && badLead v)
  | .glaze => o == 0x040 && fldOf w Reg.GLAZE_GLAZE_CFG_CAM_AGE == 0
  | .axis =>
    (o == 0x040 && (decide (0x80 + 48 ≤ p ∧ (2 ≤ fldOf w Reg.AXIS_AXIS_CFG_FB_SRC ∨
        fldOf w Reg.AXIS_AXIS_CFG_FB_SRC = 1 ∧ 4 ≤ fldOf w Reg.AXIS_AXIS_CFG_FB_INST)) || fldOf w Reg.AXIS_AXIS_CFG_MISS_FAULT == 0 ||
      fldOf w Reg.AXIS_AXIS_CFG_OVR_LIMIT == 0 || decide (9 ≤ fldOf w Reg.AXIS_AXIS_CFG_NBQ) ||
      decide (2 ^ fldOf w Reg.AXIS_AXIS_CFG_RATE ≤ fldOf w Reg.AXIS_AXIS_CFG_PHASE))) ||
      (o == 0x044 && (decide (4 ≤ fldOf w Reg.AXIS_SOURCE_SP_SRC) ||
        (fldOf w Reg.AXIS_SOURCE_SP_SRC == 2 && decide (4 ≤ fldOf w Reg.AXIS_SOURCE_SP_INST)) || (decide (0x80 + 48 ≤ p) && fldOf w Reg.AXIS_SOURCE_SP_SRC == 0))) ||
      (o == 0x084 && decide (32767 < fldOf w Reg.AXIS_CMD_LIMIT)) ||
      (o == 0x05C && (decide (48 ≤ fldOf w Reg.AXIS_OUT_CFG_TARGET) || (decide (p < 0x80 + 48) && fldOf w Reg.AXIS_OUT_CFG_OUT_EN == 1)))
  | .step =>
    (o == 0x040 && fldOf w Reg.STEP_PORT_CFG_LINK_LIMIT == 0) ||
      (o == 0x04C && (fldOf w Reg.STEP_STALL_CFG_ACTION == 3 || fldOf w Reg.STEP_STALL_CFG_TICKS == 0))
  | _ => false

/-- Reserved encodings of the pages of vision, lighting and DRAM (R286, R287, R334, R354, R361). -/
def badEyeEncoding (b : Blk) (o : Nat) (w : Word) : Bool :=
  let v := w.toNat
  match b with
  | .stream =>
    (o == 0x040 && ((decide (16 ≤ fldOf w Reg.STREAM_CTX_CFG_BRUSH) && fldOf w Reg.STREAM_CTX_CFG_BRUSH != 31) ||
      fldOf w Reg.STREAM_CTX_CFG_KIND == 3)) ||
      (o == 0x044 && (outside 1 8192 (v / 2 ^ 16) || outside 1 8192 (v % 2 ^ 14))) || (o == 0x048 && v == 0) ||
      (o == 0x04C && (decide (9 ≤ fldOf w Reg.STREAM_PIPE_CFG_NROI) || outside 4 10 (fldOf w Reg.STREAM_PIPE_CFG_HIST_SHIFT) ||
        outside 4 7 (fldOf w Reg.STREAM_PIPE_CFG_FF_SHIFT))) ||
      (o == 0x070 && decide (2 ≤ fldOf w Reg.STREAM_TRIG_CFG_MODE)) || (o == 0x080 && v % 64 != 0) ||
      (o == 0x07C && (fldOf w Reg.STREAM_STORE_CFG_HOST == 3 || fldOf w Reg.STREAM_STORE_CFG_STORE == 3 ||
        (fldOf w Reg.STREAM_STORE_CFG_STORE != 0 && fldOf w Reg.STREAM_STORE_CFG_SLOTS == 0)))
  | .vision => (o == 0x048 || o == 0x05C) && outside 4 20 v
  | .ltport =>
    o == 0x040 && (fldOf w Reg.LTPORT_PORT_CFG_RING_LIMIT == 0 || fldOf w Reg.LTPORT_PORT_CFG_POLL == 0 ||
      outside 1 32 (fldOf w Reg.LTPORT_PORT_CFG_DRIVERS))
  | .dram => (o == 0x044 && fldOf w Reg.DRAM_SCHED_PAGE_IDLE == 0) || (o == 0x048 && decide (fldOf w Reg.DRAM_NREF_K < 4))
  | .dtrain => (o == 0x040 && v == 3) || (o == 0x044 && outside 1 128 v)
  | _ => false

/-- The bits a write to page `p`, offset `o` may set: those some field defines. BLOCK_CTRL is reserved, since no block uses it, and so is the
high half of GAIN_c_8 (R32, R333); bit 6 of a SLOT_MAP byte is reserved (R245). A write to PAGE_ID or to the fields of PAGE_CAPS is ignored (R5, R30). -/
def writableMask (p o : Nat) : Nat :=
  if o = 0x000 then 0xFFFFFFFF
  else if o = 0x004 then 0xFFFFF33F
  else if o = 0x008 then 3
  else if pageBlk p = some .engine ∧ 0x040 ≤ o ∧ o < 0x050 then 0xBFBFBFBF
  else if pageBlk p = some .light ∧ 0x040 ≤ o ∧ o < 0x140 ∧ o % 0x40 = 0x20 then 0xFFFF
  else definedMask p o

/-- The axis registers that only an open loop lets be written (R242, R246). -/
def loopOpenReg (o : Nat) : Bool :=
  [0x040, 0x054, 0x058, 0x05C, 0x060, 0x064, 0x068, 0x06C, 0x070, 0x074, 0x078, 0x07C, 0x080, 0x084, 0x088].contains o || decide (0x100 ≤ o ∧ o < 0x200)

/-- Every BRUSH page is OFF. -/
def State.brushesOff (s : State) : Bool := (blkPages .brush).all fun q => s.st q == stOff

/-- A write that the page ignores in its present state (R116, R202, R219, R264, R286, R287, R321, R334, R347, R360). -/
def State.writeIgnored (s : State) (p o : Nat) : Bool :=
  let on := s.st p != stOff
  match pageBlk p with
  | some .enc => on && [0x040, 0x044, 0x048].contains o
  | some .diptych => on && [0x040, 0x044].contains o
  | some .engine => on && [0x040, 0x044, 0x048, 0x04C].contains o
  | some .step => on && [0x040, 0x044, 0x074, 0x078].contains o
  | some .cam => on && o == 0x040
  | some .stream => on && [0x040, 0x044, 0x048, 0x04C, 0x070, 0x07C, 0x080, 0x084, 0x088].contains o
  | some .vision => on && [0x040, 0x044, 0x048, 0x054, 0x058, 0x05C].contains o
  | some .ltport => on && [0x040, 0x044].contains o
  | some .dram => on && o == 0x040
  | some .dtrain => o == 0x040 && !(s.st (Pg.DRAM 0) == stOff && s.st (Pg.DRAM 1) == stOff)
  | some .time => o == 0x074 && s.timeMode != 0
  | _ => false

/-- The host error a register write is, if any (R6, R31, R44, R203, R242, R421): a SETTLE that fits no rate of 80 Mb/s to 2.5 Gb/s breaches R421 at
every rate. A write the page ignores has no effect for its encoding to disturb. -/
def State.writeStop (s : State) (p o : Nat) (v : Word) : Option Fault :=
  let a := regAddr p o
  match pageBlk p with
  | none => if v = 0#32 then none else some (.reservedWrite a)
  | some b =>
    if ¬ s.pageOn p then some (.domainOff a)
    else if v &&& ~~~(BitVec.ofNat 32 (writableMask p o)) ≠ 0#32 then some (.reservedWrite a)
    else if s.writeIgnored p o then none
    else if badSysEncoding b o v || badBrushEncoding b p o v || badEyeEncoding b o v then some (.reservedEncoding a)
    else if b = .cam ∧ o = 0x040 ∧ outside 18 54 (fldOf v Reg.CAM_CAM_CFG_SETTLE) then some (.hostBreach 421)
    else if b = .axis ∧ loopOpenReg o ∧ s.st p ≠ stOff then some (.loopClosed a)
    else if b = .medium ∧ o = 0x040 ∧ ¬ (s.st p = stOff ∧ s.brushesOff) then some (.hostBreach 194)
    else if b = .medium ∧ (o = 0x070 ∨ o = 0x074) ∧ v ≠ s.word a ∧ ¬ s.brushesOff then some (.hostBreach 203)
    else none

/-- The low word of a field of two words that the high word at offset `o` applies (R40). -/
def pairLow (p o : Nat) : Option Nat :=
  match pageBlk p with
  | some .link => if o = 0x050 then some 0x04C else none
  | some .head => if o = 0x050 then some 0x04C else if o = 0x11C then some 0x118 else none
  | some .enc => if o = 0x048 then some 0x044 else none
  | some .step => if o = 0x078 then some 0x074 else none
  | some .stream => if o = 0x06C then some 0x068 else if o = 0x088 then some 0x084 else none
  | some .vision => if o = 0x044 then some 0x040 else if o = 0x058 then some 0x054 else none
  | _ => none

/-- The W1C bits that a write clears: POS_LOST of a STEP page is cleared by STARTING alone (R262). -/
def clearMask (p o : Nat) : Nat :=
  if pageBlk p = some .step ∧ o = Reg.ERROR_STICKY.off then putBit (accMask p o .w1c) Sticky.STEP_POS_LOST false else accMask p o .w1c

/-- R5: a write stores its RW and RWS fields, clears the W1C bits it holds as 1, and leaves the rest. The high word of a field of two words
applies the whole field (R40). -/
def State.store (s : State) (p o : Nat) (v : Word) : State :=
  let a := regAddr p o
  let rw := BitVec.ofNat 32 (accMask p o .rw ||| accMask p o .rws)
  let w1c := BitVec.ofNat 32 (clearMask p o)
  let s1 := (s.noteShadow p o).setWord a ((s.word a &&& ~~~rw &&& ~~~(v &&& w1c)) ||| (v &&& rw))
  match pairLow p o with
  | some l => (s1.setActWord a (s1.word a)).setActWord (regAddr p l) (s1.word (regAddr p l))
  | none => s1

/-! ### Registers that act when they are written -/

/-- The registers of the SYS, CLK, PWR, TIME and KNIFE pages that act. -/
def sysWrite (s : State) (p o : Nat) (v : Word) : Host.Outcome State Fault Refusal :=
  let t := s.now
  let key := bits v.toNat 24 8
  let mask := BitVec.ofNat 16 v.toNat
  let go := v.toNat.testBit 0
  match pageBlk p with
  | some .sys =>
    if o = 0x048 then
      if bits v.toNat 0 2 = 1 then execDeviceCommand t key s else if bits v.toNat 0 2 = 2 then execDormantCommand t key s else done s s
    else done s (s.store p o v)
  | some .clk =>
    if o = 0x050 then (if go then execSafeHoldClear t s else done s s)
    else if o = 0x074 then (if go then execFmeasStart t s else done s s)
    else done s (s.store p o v).candAll
  | some .pwr => if o = 0x040 then execDomainCtrlWrite t v s else done s (s.store p o v)
  | some .time =>
    if o = 0x070 then execAdjHiWrite t v s
    else if o = 0x074 then done s (s.setTime fun x => { x with nextRate := some (signed 24 v.toNat) })
    else done s (if o = 0x040 then (s.store p o v).timeModeCheck.portsJudge else if o = 0x044 then (s.store p o v).portsJudge else s.store p o v)
  | some .knife =>
    if o = 0x040 then execKnifeArmSet t key mask s
    else if o = 0x044 then execKnifeDisarm t mask s
    else if o = 0x048 then execKnifeClear t key mask s
    else if o = 0x04C then execKnifeTest t mask s
    else done s (s.store p o v)
  | some .diptych => if o = 0x048 then (if go ∨ key ≠ 0x5A then execHandover t (BitVec.ofNat 8 key) s else done s s) else done s (s.store p o v)
  | _ => done s (s.store p o v)

/-- The registers of the lane and HEAD pages that act. -/
def laneWrite (s : State) (p o : Nat) (v : Word) : Host.Outcome State Fault Refusal :=
  let t := s.now
  let l := laneOf p
  let h := inst 0x20 16 p (by decide)
  if o = 0x048 then
    if v.toNat.testBit 8 then execStepCtrlGo t l ⟨v.toNat % 4, Nat.mod_lt _ (by decide)⟩ s else done s s
  else if o = 0x058 then execLoopCtrlWrite t l v s
  else if o = 0x05C then
    thenDo (if v.toNat.testBit 1 then execLoopClear t l s else done s s) fun s1 => if v.toNat.testBit 0 then execLoopInject t l s1 else done s1 s1
  else if 0x20 ≤ p ∧ o = 0x100 then done s ((s.store p o v).headHealth h)
  else if 0x20 ≤ p ∧ o = 0x104 then done s (s.setDelay h (v.toNat % 2 ^ 16))
  else if 0x20 ≤ p ∧ o = 0x120 then (if v.toNat.testBit 0 then execMbxSend t h s else done s s)
  else done s (s.store p o v)

/-- The registers of the service pages of PD_SYS that act: RECORD, NV, CALIB, BIST, BANKS. -/
def serviceWrite (s : State) (p o : Nat) (v : Word) : Host.Outcome State Fault Refusal :=
  let t := s.now
  let w := v.toNat
  match pageBlk p with
  | some .record =>
    if o = 0x044 then
      thenDo (if w.testBit 0 then execRecordFlush t s else done s s) fun s1 => if w.testBit 1 then execClearAcc t s1 else done s1 s1
    else done s (s.store p o v)
  | some .nv =>
    if o = 0x050 then
      (if w = 1 then execNvRead t s else if w = 2 then execNvProgram t s else if w = 3 then execNvErase t s else done s s)
    else if o = 0x040 ∧ s.fb p Reg.NV_NV_STATUS_BUSY then
      done s (s.store p o (putFld v Reg.NV_NV_CFG_SCK (s.f p Reg.NV_NV_CFG_SCK)))
    else done s (s.store p o v)
  | some .calib =>
    if o = 0x040 then
      done s (s.calStart (bits w 0 3) (bits w 8 5))
    else done s (s.store p o v)
  | some .bist =>
    if o = 0x040 then
      done s (s.bistStart (bits w 24 8) (bits w 0 2) (bits w 8 4))
    else done s (s.store p o v)
  | some .banks => if o = 0x060 then done s (if w.testBit 0 then s.failClear else s) else done s (s.store p o v)
  | _ => done s (s.store p o v)

/-- The registers of the switched domains that act. -/
def domainWrite (s : State) (p o : Nat) (v : Word) : Host.Outcome State Fault Refusal :=
  let t := s.now
  let w := v.toNat
  match pageBlk p with
  | some .brush => if o = 0x05C then execChainStart t (brushOf p) v s else done s (s.store p o v)
  | some .enc => if o = 0x04C then (if w.testBit 0 then execIndexArm t (encOf p) s else done s s) else done s (s.store p o v)
  | some .engine =>
    if o = 0x064 then
      thenDo (if w.testBit 1 then execTraceStop t (engineOf p) s else done s s) fun s1 =>
        if w.testBit 0 then execTraceArm t (engineOf p) s1 else done s1 s1
    else if o = 0x06C then execInjectWrite t (engineOf p) v s
    else done s (s.store p o v)
  | some .step => if o = 0x070 then execStepTargetWrite t (stepOf p) v s else done s (s.store p o v)
  | some .stream => if o = 0x078 then execOneshotWrite t (streamOf p) v s else done s (s.store p o v)
  | some .ltport =>
    if o = 0x050 then execCmdHdrWrite t (lightOf p) v s
    else if o = 0x058 then execSyncAtWrite t (lightOf p) v s
    else done s (s.store p o v)
  | some .dtrain =>
    if o = 0x048 then (if w.testBit 8 then execRetrain t ⟨w % 4, Nat.mod_lt _ (by decide)⟩ s else done s s) else done s (s.store p o v)
  | _ => done s (s.store p o v)

/-- The registers of the header. SOFT_RESET discards the EN of its write, unless the page ignores it (R37). -/
def headerWrite (s : State) (p o : Nat) (v : Word) : Host.Outcome State Fault Refusal :=
  if o = 0x008 then
    if v.toNat.testBit 1 then thenDo (softResetOut s p) fun s1 => if s.resetIgnored p then ctrlOut s1 p (v.toNat.testBit 0) else done s1 s1
    else ctrlOut s p (v.toNat.testBit 0)
  else done s (
    if o = 0x010 then s.eventClear p v.toNat
    else if o = 0x018 then s.each ((List.range (eventCount p)).filter fun k => v.toNat.testBit k) fun s k => s.ev! p k
    else if o = 0x01C then (if v.toNat.testBit 0 then s.commit p else s)
    else if o = 0x024 then (if v.toNat.testBit 0 then s.takeSnapshot p else s)
    else s.store p o v)

/-- A write of `v` to the register at page `p`, offset `o`, at the present tick. -/
def regWrite (s0 : State) (p o : Nat) (v : Word) : Host.Outcome State Fault Refusal :=
  let s := s0.pageDue p
  match s.writeStop p o v with
  | some f => .fault f
  | none =>
    if (pageBlk p).isNone ∨ s.writeIgnored p o then done s s
    else if o < 0x028 then headerWrite s p o v
    else match pageBlk p with
      | some .sys | some .clk | some .pwr | some .time | some .knife | some .diptych => sysWrite s p o v
      | some .link | some .head => laneWrite s p o v
      | some .record | some .nv | some .calib | some .bist | some .banks => serviceWrite s p o v
      | _ => domainWrite s p o v

/-! ### The commands of the header -/

/-- R43: EVENT is written with `bits`. -/
def execEventClear (t : Nat) (p : Fin 256) (bits : Word) (s : State) : Host.Outcome State Fault Refusal :=
  let s1 := (s.upTo t).pageDue p
  if (pageBlk p).isNone ∧ bits ≠ 0#32 then .fault (.reservedWrite (regAddr p Reg.EVENT.off))
  else if ¬ s1.pageOn p then .fault (.domainOff (regAddr p Reg.EVENT.off))
  else done s (s1.eventClear p bits.toNat)

/-- R43: EVENT_FORCE is written with `bits`: each implemented source is asserted once, stamped with the write's arrival. -/
def execEventForce (t : Nat) (p : Fin 256) (bits : Word) (s : State) : Host.Outcome State Fault Refusal :=
  let s1 := (s.upTo t).pageDue p
  if (pageBlk p).isNone ∧ bits ≠ 0#32 then .fault (.reservedWrite (regAddr p 0x018))
  else if ¬ s1.pageOn p then .fault (.domainOff (regAddr p 0x018))
  else done s (s1.each ((List.range (eventCount p)).filter fun k => bits.toNat.testBit k) fun s k => s.ev! p k)

/-- R5, R6, R40: the host writes a register. -/
def execRegisterWrite (t addr : Nat) (v : Word) (s : State) : Host.Outcome State Fault Refusal :=
  let s1 := s.upTo t
  if 0x100000 ≤ addr then .fault (.badAddress addr)
  else if addr % 4 ≠ 0 then .fault (.misaligned addr)
  else if ¬ s1.pwr.sysOn then .fault (.domainOff addr)
  else thenDo (regWrite s1 (addr / 0x1000) (addr % 0x1000) v) fun s2 => done s s2

/-- A header command acts on a page that is not reserved and whose domain is on; a reserved page takes no non-zero write (R6, R31). -/
def onPage (s1 : State) (p o : Nat) (zero : Bool) (g : Host.Outcome State Fault Refusal) : Host.Outcome State Fault Refusal :=
  if ¬ s1.pageOn p then .fault (.domainOff (regAddr p o))
  else if (pageBlk p).isNone ∧ ¬ zero then .fault (.reservedWrite (regAddr p o))
  else g

/-- R34, R35: CTRL.EN is written. -/
def execCtrlEnWrite (t : Nat) (p : Fin 256) (en : Bool) (s : State) : Host.Outcome State Fault Refusal :=
  let s1 := (s.upTo t).pageDue p
  onPage s1 p 0x008 (!en) (if (pageBlk p).isNone then done s s1 else thenDo (ctrlOut s1 p en) fun s2 => done s s2)

/-- R37: CTRL.SOFT_RESET is written with 1. -/
def execSoftReset (t : Nat) (p : Fin 256) (s : State) : Host.Outcome State Fault Refusal :=
  let s1 := (s.upTo t).pageDue p
  onPage s1 p 0x008 false (thenDo (softResetOut s1 p) fun s2 => done s s2)

/-- R38: COMMIT is written with 1. -/
def execCommit (t : Nat) (p : Fin 256) (s : State) : Host.Outcome State Fault Refusal :=
  let s1 := (s.upTo t).pageDue p
  onPage s1 p 0x01C false (done s (s1.commit p))

/-- R41: SNAPSHOT.TAKE is written with 1. -/
def execSnapshotTake (t : Nat) (p : Fin 256) (s : State) : Host.Outcome State Fault Refusal :=
  let s1 := (s.upTo t).pageDue p
  onPage s1 p 0x024 false (done s (s1.takeSnapshot p))

/-! ### Block boundaries (R38, R39) -/

/-- The present tick is a sheet boundary of brush `b`, or a frame start while no sheet is in force (R186). -/
def State.brushBoundary (s : State) (b : Fin 16) : Bool :=
  let x := s.brushes[b]
  let here (h : Sheet) : Bool := h.boundary.isSome && sdiff48 h.eff s.now == 0
  (match x.force with | some h => here h | none => s.now % 16000 == 0) || (match (dueSheets x.queue).head? with | some h => here h | none => false)

/-- R214: the present tick is an exchange cut at which no tile is open and no RASTER_LINE meets the next 16,960 tk. -/
def State.rasterBoundary (s : State) (b : Fin 16) : Bool :=
  s.now % 16000 == 15040 && s.rasters[b].tile.isNone &&
    (s.upsOf b (s.timeline b)).all fun u => u.r.op != opRaster || decide (16960 ≤ sdiff48 u.ts s.now) || s.past (u.ts + u.dur)

/-- The present tick is a commit boundary of page `p`. -/
def State.atBoundary (s : State) (p : Nat) : Bool :=
  match pageBlk p with
  | some .medium => s.now % 16000 == 0
  | some .brush => s.brushBoundary (brushOf p)
  | some .laser => s.brushBoundary ⟨laserOf p, by omega⟩
  | some .glaze => s.brushBoundary (glazeOf p)
  | some .raster => s.rasterBoundary (rasterOf p)
  | some .axis =>
    let m := (s.now + 960) / 16000
    engineTick m == s.now && s.computes (axisOf p) m && (s.st p == stOn || s.st p == stStopping)
  | some .step => s.now % 64000 == 0
  | _ => false

/-- R38, R39: a boundary of page `p`. The settings it would put in force must be ones the spec allows (R203, R248). -/
def execShadowTransfer (t : Nat) (p : Fin 256) (s : State) : Host.Outcome State Fault Refusal :=
  let s1 := s.upTo t
  if ¬ (s1.pageOn p ∧ s1.atBoundary p) then done s s1
  else if pageBlk p = some .step ∧ s1.zeroLimits (stepOf p) s1.now then .fault (.hostBreach 248)
  else
    let s2 := s1.takeShadow p s1.now
    if pageBlk p = some .medium ∧ s2.fb p Reg.MEDIUM_MODE_CTRL_GEOM ∧ s1.fb p Reg.COMMIT_PENDING ∧ ¬ s2.fb p Reg.COMMIT_PENDING ∧
        s2.actPair p Reg.MEDIUM_TURN_LO Reg.MEDIUM_TURN_HI < 2 ^ 16 then .fault (.reservedEncoding (regAddr p Reg.MEDIUM_TURN_LO.off))
    else done s (if pageBlk p = some .glaze then s2.camLost (glazeOf p) else s2)

/-! ### The ends of sequences (R34) -/

/-- A camera port or context has emptied (R284). -/
def Stream.empty (x : Stream) : Bool := x.frames.isEmpty && x.imgs.isEmpty && x.sending.isNone

/-- VISION has emptied. The release queue of a device B whose batches come by MET frames, or that has none (R280), is drained by nothing. -/
def State.visionEmpty (s : State) : Bool :=
  s.vision.complete.isEmpty && s.vision.batches.isEmpty && (s.vision.queue.isEmpty || s.peerMet || s.noCamera)

/-- R285: the clock lane and the configured data lanes of camera port `c` have shown stop state for 1 us. The lanes are pins no command moves: a free
value, log 97. -/
def State.lanesRest (s : State) (c : Fin 4) : Bool :=
  let l := Config.camStopped c.val s.now
  l.getLsbD 4 && (List.range (s.f (Pg.CAM c) Reg.CAM_CAM_CFG_LANES + 1)).all fun k => l.getLsbD k

/-- The STARTING sequence of page `p` is complete. Blocks whose chapter ends the sequence inside a command of its own have none here. -/
def State.startDone (s : State) (p : Nat) : Bool :=
  let d (k : Nat) : Bool := s.elapsed (s.entered p) k
  match pageBlk p with
  | some .sys => d 256
  | some .evcol => d 256
  | some .vision => s.visionEmpty
  | some .cam => d 6400 && s.lanesRest (camOf p) && s.cams[camOf p].isEmpty &&
      (match s.camPorts[camOf p].packetAt with | some u => s.elapsed u 6400 | none => true)
  | some .stream =>
    let k := streamOf p
    let owner : Bool := (List.finRange 32).any fun j => s.ownsTrig j && s.trigOf j == s.trigOf k && (s.isOn (Pg.STREAM j) || j == k)
    s.isOn Pg.VISION && s.isOn (Pg.CAM (k / 8)) && s.streams[k].empty && (!s.fb p Reg.STREAM_CTX_CFG_TRIG_USE || owner)
  | some .enc => d 128
  | some .raster => d 16000
  | some .glaze => d 16000
  | some .engine => d 16000
  | some .ltport => s.lights[lightOf p].idDone
  | some .dram => s.isOn Pg.DTRAIN && s.drams[dramOf p].ready
  | some .clk => false
  | some .diptych => false
  | some .medium => false
  | some .link => false
  | some .head => false
  | some .brush => false
  | some .laser => false
  | some .axis => false
  | some .step => false
  | some _ => d (pagePeriod p)
  | none => false

/-- The STOPPING sequence of page `p` is complete. -/
def State.stopDone (s : State) (p : Nat) : Bool :=
  let d (k : Nat) : Bool := s.elapsed (s.entered p) k
  let lineIdle : Bool := halfLe s.lanes[laneOf p].endAt (2 * s.now)
  match pageBlk p with
  | some .sys => s.brushesOff
  | some .record => s.rcd.flush.isNone
  | some .diptych => d 16000
  | some .banks => !s.bankTest.active
  | some .vision => s.visionEmpty
  | some .cam => s.cams[camOf p].isEmpty
  | some .stream => s.streams[streamOf p].empty
  | some .link => lineIdle
  | some .head => lineIdle
  | some .raster => d 16000
  | some .glaze => d 16000
  | some .engine => s.engineIdle (engineOf p)
  | some .ltport => s.lights[lightOf p].off == 0 && (match s.lights[lightOf p].lastEnd with | some e => s.past (e + 128) | none => true)
  | some .dram => s.drams[dramOf p].wq.isEmpty && s.drams[dramOf p].reads.isEmpty
  | some .axis => !s.axisServed (axisOf p)
  | some .laser =>
    let x := s.lasers[laserOf p]
    decide (2 ≤ x.sent) && (match x.strobe with | some k => s.past (k + 128) | none => true)
  | some .medium => false
  | some .brush => false
  | some .step => false
  | some _ => d (pagePeriod p)
  | none => false

/-- R34: the STARTING or STOPPING sequence of page `p` ends, if it is complete. -/
def execBlockSequenceEnd (t : Nat) (p : Fin 256) (s : State) : Host.Outcome State Fault Refusal :=
  let s1 := (s.upTo t).pageDue p
  let ends := (decide (s1.st p = stStarting) && s1.startDone p) || (decide (s1.st p = stStopping) && s1.stopDone p)
  done s (if ends then ((s1.endSequence p).when (pageBlk p == some .dram && (s1.endSequence p).dramOn) State.askAgain).settle p else s1)

/-- R34, R36: after one cycle of OFF, ON or FAULT a request that waits acts. -/
def execBlockTransitCycleEnd (t : Nat) (p : Fin 256) (s : State) : Host.Outcome State Fault Refusal :=
  let s1 := (s.upTo t).pageDue p
  let st := s1.st p
  let waits := (decide (st = stOff) && s1.en p) || ((decide (st = stOn) || decide (st = stFault)) && !s1.en p)
  done s (if s1.pageOn p ∧ waits ∧ s1.elapsed (s1.entered p) (pagePeriod p) then (s1.ctrlEn p (s1.en p)).settle p else s1)

end Sys2Proof.Machine
end

