-- ==== Sys2Proof/Machine/Host.lean ====
section
/-! DEFINITION. Host transactions (spec/05_link_frames.md, R87 to R89), the accesses to registers, banks and DRAM they make (R28, R29, R31, R336,
R339, R346), and mirrored transactions (spec/17_diptych.md, R313, R314). -/

namespace Sys2Proof.Machine

/-! ### Registers -/

/-- What a read of page `p`, offset `o` returns (R31, R32, R41). A reserved page and a write-only field read as 0. -/
def State.readWord (s : State) (p o : Nat) : Word :=
  if (pageBlk p).isNone then 0#32
  else if o = 0x00C ∧ ¬ s.pageOn p then 0#32
  else if isSnap p o then s.snapWord (regAddr p o)
  else s.liveWord p o

/-- PAGE_ID, PAGE_CAPS and STATE are served whatever the page's domain (R31). -/
def servedOff (o : Nat) : Bool := o == 0x000 || o == 0x004 || o == 0x00C

/-- The side effect of a read: RC fields go back to their reset value, and reading RESP_INFO removes the head of the response FIFO (R5, R331). -/
def State.readEffect (s : State) (p o : Nat) : State :=
  let m := accMask p o .rc
  if m = 0 then s
  else if pageBlk p = some .ltport ∧ o = Reg.LTPORT_RESP_INFO_ANS.off then (s.lightReturn (lightOf p)).popResp (lightOf p)
  else
    let a := regAddr p o
    let rc := BitVec.ofNat 32 m
    let s1 := s.setWord a ((s.word a &&& ~~~rc) ||| (resetWord a &&& rc))
    if pageBlk p = some .therm then { s1 with therm := { s1.therm with peakSeen := false } } else s1

/-- The host error a register read is, if any (R28, R29, R31). -/
def State.readStop (s : State) (addr : Nat) : Option Fault :=
  if 0x100000 ≤ addr then some (.badAddress addr)
  else if addr % 4 ≠ 0 then some (.misaligned addr)
  else if ¬ s.pwr.sysOn then some (.domainOff addr)
  else if ¬ s.pageOn (addr / 0x1000) ∧ ¬ servedOff (addr % 0x1000) then some (.domainOff addr)
  else none

/-- R5: the host reads a register; RC fields are cleared in the same access. -/
def execRegisterReadClear (t addr : Nat) (s : State) : Host.Outcome State Fault Refusal :=
  let s1 := s.upTo t
  match s1.readStop addr with
  | some f => .fault f
  | none => done s (s1.readEffect (addr / 0x1000) (addr % 0x1000))

/-- `n` consecutive registers from `addr`, one word at a time in ascending order, with the side effects of each (R87). -/
def readRegs (s : State) (addr : Nat) : Nat → State × List Byte
  | 0 => (s, [])
  | n + 1 =>
    let p := addr / 0x1000
    let o := addr % 0x1000
    let r := readRegs (s.readEffect p o) (addr + 4) n
    (r.1, leBytes 4 (s.readWord p o).toNat ++ r.2)

/-- Consecutive registers are written, one word at a time in ascending order (R87). -/
def writeRegs (s : State) (addr : Nat) : List Byte → Host.Outcome State Fault Refusal
  | b0 :: b1 :: b2 :: b3 :: r =>
    thenDo (regWrite s (addr / 0x1000) (addr % 0x1000) (BitVec.ofNat 32 (leNat [b0, b1, b2, b3]))) fun s1 => writeRegs s1 (addr + 4) r
  | _ => done s s

/-! ### Banks -/

/-- A byte of a bank whose contents the spec leaves open to the host: an area whose layout it does not give, or one that nothing has written
(R336, R269, R370). -/
def State.openByte (s : State) (a : Nat) : Bool :=
  match bankAt a with
  | some b =>
    let o := a - bankBase b
    if b < 16 then decide (0xDB000 ≤ o ∧ o < 0xE3000) || decide (0xEF000 ≤ o ∧ o < 0xF3800)
    else if b = 17 then decide (0x200000 ≤ o)
    else if b = 18 then
      (decide (0x40000 ≤ o ∧ o < 0x41000) && !s.rcd.imageKnown) || (decide (0x41000 ≤ o ∧ o < 0x42000) && !s.rcd.bufKnown.contains ((o - 0x41000) / 4))
    else false
  | none => false

/-- What the host reads from a bank: the words as stored, open bytes free; every stored word in error is counted (R339). -/
def State.readBank (s : State) (b a n : Nat) : State × List Byte :=
  let seen := if b = 19 then s.xchSees 0 else s
  let data := (List.range n).map fun k => if s.openByte (a + k) then freeByte (s.freeCtr + k) else seen.byte (a + k)
  let s1 := s.each (s.memErr.filter fun e => decide (a < e.1 + 8 ∧ e.1 < a + n)) fun s (e : Nat × Nat) => s.bankError b e.1 e.2
  ({ s1 with freeCtr := s1.freeCtr + n }, data)

/-- Set `g` of a kind is in use: it is the one the latest sheet to name sets for brush `b` has named, as BRUSH.STATUS shows it (R143). -/
def State.setInUse (s : State) (b : Fin 16) (fl : Fld) (g : Nat) : Bool := s.brushes[b].named && s.f (Pg.BRUSH b) fl == g

/-- The rule a host write of the byte at `a` breaches, if any (R143, R224, R250, R269, R336, R370). -/
def State.byteBreach (s : State) (a : Nat) : Option Nat :=
  match bankAt a with
  | none => none
  | some b =>
    let o := a - bankBase b
    if h : b < 16 then
      let n : Fin 16 := ⟨b, h⟩
      let used (fl : Fld) (g : Nat) : Option Nat := if s.setInUse n fl g then some 143 else none
      if o < 0xC3000 then used Reg.BRUSH_STATUS_GRID_SET (o / 0x61800)
      else if 0xE3000 ≤ o ∧ o < 0xE5000 then used Reg.BRUSH_STATUS_PALETTE_SET ((o - 0xE3000) / 0x1000)
      else if 0xED000 ≤ o ∧ o < 0xEF000 then used Reg.BRUSH_STATUS_GLAZE_SET ((o - 0xED000) / 0x1000)
      else if 0xFF800 ≤ o ∧ o < 0xFF900 then (if s.st (Pg.BRUSH n) = stOff then none else some 250)
      else some 336
    else if b = 16 then (if o < 0x40000 ∧ s.st (Pg.AXIS (o / 0x1000)) = stOff then none else some 224)
    else if b = 17 then (if o < 0x200000 ∧ s.st (Pg.STREAM (o / 0x10000)) = stOff then none else some 269)
    else if b = 18 then (if 0x41000 ≤ o ∧ o < 0x42000 then none else some 370)
    else some 336

/-- The reserved bits of the byte at offset `o` of brush bank (R141, R206, R207, R250, R289, R290). -/
def brushReserved (o : Nat) : Nat :=
  if o < 0xC3000 then
    let q := o % 0x61800
    if q = 2 ∨ q = 3 then 0xE0 else if 0x10 ≤ q ∧ q < 0x40 ∨ 0x51454 ≤ q then 0xFF else 0
  else if 0xE3000 ≤ o ∧ o < 0xE5000 then
    let q := o % 0x1000
    if 4 ≤ q ∧ q < 0x100 ∨ 0x900 ≤ q ∨ 0x100 ≤ q ∧ q % 8 = 7 then 0xFF
    else if 0x100 ≤ q ∧ q % 8 = 4 then 0xFC
    else if 0x100 ≤ q ∧ q % 8 = 5 then 0x0F else 0
  else if 0xED000 ≤ o ∧ o < 0xEF000 then
    let q := o % 0x1000
    if 2 ≤ q ∧ q < 0x40 ∨ 0x240 ≤ q ∧ q < 0x400 ∨ 0xC00 ≤ q then 0xFF
    else if q < 0x40 ∨ 0x400 ≤ q then 0
    else match q % 32 with
      | 0 => 0xFC
      | 1 => 0xE0
      | 2 => 0xE0
      | 3 => 0x08
      | 8 => 0xFF
      | 9 => 0xFF
      | k => if 0x1C ≤ k then 0xFF else 0
  else if 0xFF800 ≤ o ∧ o < 0xFF900 ∧ 0x30 ≤ o % 0x40 then 0xFF
  else 0

/-- The reserved bits of the byte at host address `a` of a bank, where the host may write (R6). -/
def bankReserved (a : Nat) : Nat :=
  match bankAt a with
  | some b =>
    let o := a - bankBase b
    if b < 16 then brushReserved o
    else if b = 17 then
      let q := o % 0x10000
      if 0x202 ≤ q ∧ q < 0x400 ∨ 0x400 ≤ q ∧ q < 0x480 ∧ 12 ≤ q % 16 then 0xFF else 0
    else 0
  | none => 0

/-- The host error a host write of the byte `v` at `a` is, if any: a breach of a write rule, or 1s in reserved bits (R6, R44). -/
def State.byteStop (s : State) (a : Nat) (v : Byte) : Option Fault :=
  match s.byteBreach a with
  | some r => some (.hostBreach r)
  | none => if v.toNat &&& bankReserved a ≠ 0 then some (.reservedWrite a) else none

/-- The host writes a bank; a word it writes in part is read first, and an error of that word is counted (R337, R339). -/
def State.writeBank (s : State) (b a : Nat) (l : List Byte) : State :=
  let n := l.length
  let part := s.memErr.filter fun e => decide (a < e.1 + 8 ∧ e.1 < a + n) && !decide (a ≤ e.1 ∧ e.1 + 8 ≤ a + n)
  ((s.each part fun s (e : Nat × Nat) => s.bankError b e.1 e.2).when (b == 18) fun s => s.fillBuf a n).setBytes a l

/-! ### The effect of a transaction (R87) -/

/-- The host error transaction `q` is, if any, at the instant it takes effect. -/
def State.txnStop (s : State) (q : Txn) : Option Fault :=
  let a := q.addr
  let n := q.count + 1
  let bytes := (List.range n).map fun k => a + k
  if q.op = 3 then none
  else if a / 0x1000 ≠ (a + n - 1) / 0x1000 then some (.misaligned a)
  else if a < 0x100000 then
    if a % 4 ≠ 0 ∨ n % 4 ≠ 0 then some (.misaligned a)
    else if q.op = 0 then ((List.range (n / 4)).map fun k => a + 4 * k).findSome? s.readStop
    else if ¬ s.pwr.sysOn then some (.domainOff a) else none
  else match bankAt a with
    | some b =>
      if ¬ s.domOn (bankDomain b) then some (.domainOff a)
      else if q.op = 0 then none
      else (List.range n).findSome? fun k => s.byteStop (a + k) (q.data.getD k 0#8)
    | none =>
      if dramBase ≤ a ∧ a < 0x800000000 then
        if ¬ s.dramOn ∨ s.retrain ≠ 0 then some (.hostBreach 346)
        else if bytes.all s.dramUsable then none else some (.badAddress a)
      else some (.badAddress a)

/-! Of two accesses to one register or one bank word in a cycle HOST_A's takes effect first, whichever command comes first (R89). DRAM has the order
of R353. -/

/-- The period of the clock at which an access to `a` takes effect: the page's, or the bank's. -/
def accessPeriod (a : Nat) : Nat := if a < 0x100000 then pagePeriod (a / 0x1000) else match bankAt a with | some b => bankPeriod b | none => 16

/-- The writes of port `port` in the present cycle that cover the byte at `a`, newest first. -/
def State.sameCycle (s : State) (port a : Nat) : List HostWrite :=
  s.hostCycle.filter fun e => e.port == port && e.tick / accessPeriod a == s.now / accessPeriod a && decide (e.addr ≤ a ∧ a < e.addr + e.data.length)

/-- What a READ of `q` outside DRAM returns where HOST_B has written in its cycle: HOST_A reads what stood there before. -/
def State.readFirst (s : State) (q : Txn) (data : List Byte) : List Byte :=
  if q.port % 2 = 0 ∧ q.addr < dramBase ∧ s.hostCycle ≠ [] then
    (List.range data.length).map fun k =>
      let a := q.addr + k
      match s.sameCycle 0 a, (s.sameCycle 1 a).getLast? with
      | e :: _, some _ => e.data.getD (a - e.addr) 0#8
      | [], some e => e.old.getD (a - e.addr) 0#8
      | _, none => data.getD k 0#8
  else data

/-- The bytes a bank write of `q` leaves: HOST_B's of the same cycle stay over HOST_A's. -/
def State.writeUnder (s : State) (q : Txn) : List Byte :=
  if q.port % 2 = 0 ∧ s.hostCycle ≠ [] then
    (List.range q.data.length).map fun k => if s.sameCycle 1 (q.addr + k) = [] then q.data.getD k 0#8 else s.byte (q.addr + k)
  else q.data

/-- A register that HOST_B has written in the cycle keeps the RW fields it wrote there. -/
def State.regsUnder (s s1 : State) (q : Txn) : State :=
  s1.each ((List.range (q.data.length / 4)).map fun k => q.addr + 4 * k) fun u a =>
    if s.sameCycle 1 a = [] then u
    else
      let rw := BitVec.ofNat 32 (accMask (a / 0x1000) (a % 0x1000) .rw ||| accMask (a / 0x1000) (a % 0x1000) .rws)
      u.setWord a ((u.word a &&& ~~~rw) ||| (s.word a &&& rw))

/-- HOST_B's READs of the cycle see the bytes that HOST_A has written in it, but for those HOST_B wrote itself. -/
def State.laterReads (s s1 : State) (q : Txn) : State :=
  let a := q.addr
  let n := q.data.length
  let now := if a < 0x100000 then (readRegs s1 a (n / 4)).2 else s1.rawBytes a n
  let sees (c : Cpl) : Bool := c.op == 0 && c.taken / accessPeriod a == s.now / accessPeriod a && decide (a < c.addr + c.data.length ∧ c.addr < a + n)
  let byte (c : Cpl) (k : Nat) : Byte :=
    let b := c.addr + k
    if a ≤ b ∧ b < a + n ∧ s.sameCycle 1 b = [] then now.getD (b - a) 0#8 else c.data.getD k 0#8
  let patched (c : Cpl) : Cpl := if sees c then { c with data := (List.range c.data.length).map (byte c) } else c
  if s1.lanes[(1 : Fin 20)].cpls.any sees then s1.setLane 1 fun x => { x with cpls := x.cpls.map patched }
  else s1

/-- The write of `q`, which has led from `s` to `s1`, takes its place in the order of its cycle. -/
def State.portOrder (s s1 : State) (q : Txn) : State :=
  let reg := decide (q.addr < 0x100000)
  let old := if reg then (readRegs s q.addr (q.data.length / 4)).2 else s.rawBytes q.addr q.data.length
  let s2 := if q.port % 2 = 0 then (let u := if reg then s.regsUnder s1 q else s1; s.laterReads u q) else s1
  { s2 with hostCycle := ⟨q.port % 2, q.addr, q.data, old, s.now⟩ :: s.hostCycle.filter fun e => e.tick / 64 == s.now / 64 }

/-- R87: transaction `q` takes effect with DRAM class `cls`; a READ gives its data to `k`. -/
def applyTxn (s : State) (q : Txn) (cls : Nat) (k : State → List Byte → Host.Outcome State Fault Refusal) : Host.Outcome State Fault Refusal :=
  match s.txnStop q with
  | some f => .fault f
  | none =>
    let n := q.count + 1
    if q.op = 3 then k s []
    else if q.op = 0 then
      let r := if q.addr < 0x100000 then readRegs s q.addr (n / 4)
        else match bankAt q.addr with
          | some b => (if b = 18 then s.gateTimes else s).readBank b q.addr n
          | none => (s.dramRead cls (Pg.LINK (q.port % 2)) q.addr n, s.rawBytes q.addr n)
      k r.1 (s.readFirst q r.2)
    else if q.addr < 0x100000 then thenDo (writeRegs s q.addr q.data) fun s1 => k (s.portOrder s1 q) []
    else match bankAt q.addr with
      | some b => k (s.portOrder (s.writeBank b q.addr (s.writeUnder q)) q) []
      | none => k ((s.dramWrite cls (Pg.LINK (q.port % 2)) q.addr q.data).nextSees q.addr q.data.length) []

/-! ### Receipt (R88, R89, R313, R314) -/

/-- The lane of a host port. -/
def hostLane (port : Nat) : Fin 20 := ⟨port % 2, by omega⟩

/-- A transaction has taken effect: its completion is ready with a WRITE's effect, and for a READ with its data, after a latency that the spec
leaves open but for the limit of R46; a posted write is counted (R87, R89). -/
def State.complete (s : State) (q : Txn) (data : List Byte) : State :=
  let l := hostLane q.port
  if ¬ s.laneUp l then s
  else if q.op = 2 then
    s.setF (lanePage l) Reg.FRAME_FRAME_STATUS_POSTED_DONE (s.f (lanePage l) Reg.FRAME_FRAME_STATUS_POSTED_DONE + 1)
  else if q.op = 3 then s.setLane l fun x => { x with fences := x.fences ++ [q] }
  else
    let late := if q.op = 0 then (Config.freeValue s.freeCtr).toNat % 25600 else 0
    (s.setLane l fun x => { x with cpls := x.cpls ++ [⟨q.tag, q.op, q.count, data, q.arr, wrapU 64 ((s.now : Int) + late), q.addr, s.now⟩] }).when (q.op == 0)
      State.takeFree

/-- The TXN payload (R86). -/
def Txn.payload (q : Txn) : List Byte :=
  leBytes 4 (q.tag * 2 ^ 16 + q.op * 2 ^ 12 + q.count) ++ leBytes 4 q.addr ++ leBytes 4 (q.addr / 2 ^ 32) ++
    (if q.op = 1 ∨ q.op = 2 then q.data ++ List.replicate ((4 - q.data.length % 4) % 4) 0#8 else [])

/-- The transactions of a port that still wait to take effect. -/
def State.waiting (s : State) (port : Nat) : List Txn := if s.roleB then [] else s.dip.queue.filter fun q => q.port == port

/-- R88: one more transaction would breach a limit of the port. -/
def State.overLimit (s : State) (q : Txn) : Bool :=
  let l := hostLane q.port
  let p := lanePage l
  let w := s.waiting q.port
  let x := s.lanes[l]
  let tags := (x.cpls.map (·.tag)) ++ (x.fences.map (·.tag)) ++ (w.filter fun q => q.op != 2).map (·.tag)
  let reading := (x.cpls.foldl (fun n c => n + c.data.length) 0) + (w.filter fun q => q.op == 0).foldl (fun n q => n + q.count + 1) 0
  decide (32 ≤ s.f p Reg.FRAME_FRAME_STATUS_OUTSTANDING + (w.filter fun q => q.op == 2).length) || (q.op != 2 && tags.contains q.tag) ||
    (q.op == 0 && decide (512 * 2 ^ s.laneRate l < reading + q.count + 1))

/-- R314: what B accepts on its own host ports in lockstep. -/
def bAccepts (q : Txn) : Bool :=
  let words := (List.range ((q.count + 1) / 4)).map fun k => q.addr + 4 * k
  if q.op = 0 then decide (0x100000 ≤ q.addr) || words.all fun a => accMask (a / 0x1000) (a % 0x1000) .rc == 0
  else if q.op = 3 then false
  else decide (words ≠ []) && words.all fun a => a == regAddr Pg.KNIFE Reg.KNIFE_DISARM_MASK.off || a == regAddr Pg.KNIFE Reg.KNIFE_TEST_MASK.off

/-- A TXN arrives on a host port that is UP: it takes effect at once, or waits for its application tick while A is in lockstep, and behind those
that wait there (R89, R313). From 12,800 tk before a rate step of the port until its end the host may start none (R76). -/
def receiveTxn (t port op tag addr count : Nat) (cross : Bool) (data : List Byte) (s : State) : Host.Outcome State Fault Refusal :=
  let s1 := s.upTo t
  let l := hostLane port
  let p := lanePage l
  let q : Txn := ⟨port, s1.now, op, tag, addr, count, cross, (data ++ List.replicate (count + 1) 0#8).take (count + 1)⟩
  let lock := decide (s1.pairState = pairLockstep)
  if ¬ s1.laneUp l then done s s1
  else if s1.stepHolds l then .fault (.hostBreach 76)
  else if s1.overLimit q then .fault (.hostBreach 88)
  else if lock ∧ s1.roleB ∧ ¬ bAccepts q then .fault (.hostBreach 314)
  else
    let s2 := s1.inc p Reg.FRAME_TXN_RECEIVED
    let s3 := if op = 2 then s2 else s2.inc p Reg.FRAME_FRAME_STATUS_OUTSTANDING
    if ¬ s3.roleB ∧ (lock ∨ s3.waiting port ≠ []) then
      let s4 := s3.setDip fun x => { x with queue := x.queue ++ [q] }
      done s (if lock then
        s4.sendMirror (leBytes 4 0 ++ leBytes 4 q.arr ++ leBytes 4 (port * 2 ^ 16 + q.arr / 2 ^ 32 % 2 ^ 16) ++ q.payload)
      else s4)
    else applyTxn s3 q 3 fun s5 data => done s (s5.complete q data)

/-- R87: a READ arrives. -/
def execTxnRead (t : Nat) (port : Fin 2) (tag : BitVec 16) (addr : BitVec 40) (count : Fin 256) (s : State) : Host.Outcome State Fault Refusal :=
  receiveTxn t port 0 tag.toNat addr.toNat count false [] s

/-- R87: a WRITE arrives. -/
def execTxnWrite (t : Nat) (port : Fin 2) (tag : BitVec 16) (addr : BitVec 40) (count : Fin 256) (data : List Byte) (s : State) :
    Host.Outcome State Fault Refusal :=
  receiveTxn t port 1 tag.toNat addr.toNat count false data s

/-- R87: a WRITE_POSTED arrives. -/
def execTxnWritePosted (t : Nat) (port : Fin 2) (tag : BitVec 16) (addr : BitVec 40) (count : Fin 256) (data : List Byte) (s : State) :
    Host.Outcome State Fault Refusal :=
  receiveTxn t port 2 tag.toNat addr.toNat count false data s

/-- R89: a FENCE arrives. -/
def execTxnFence (t : Nat) (port : Fin 2) (tag : BitVec 16) (cross : Bool) (s : State) : Host.Outcome State Fault Refusal :=
  receiveTxn t port 3 tag.toNat 0 0 cross [] s

/-- Everything fence `q` waits for has taken effect (R89). -/
def State.fenceReady (s : State) (q : Txn) : Bool :=
  (s.waiting q.port).all (fun w => decide (0 < sdiff48 w.arr q.arr)) && (!q.cross || (s.waiting (1 - q.port)).all fun w => decide (0 ≤ sdiff48 w.arr q.arr))

/-- R89: the oldest fence of the port completes, if nothing it waits for is left. -/
def execFenceComplete (t : Nat) (port : Fin 2) (s : State) : Host.Outcome State Fault Refusal :=
  let s1 := s.upTo t
  let l := hostLane port
  done s (match s1.lanes[l].fences with
  | q :: r =>
    if s1.fenceReady q then s1.setLane l fun x => { x with fences := r, cpls := x.cpls ++ [⟨q.tag, 3, 0, [], q.arr, s1.now, 0, 0⟩] } else s1
  | [] => s1)

/-- The payload of a CPL (R86). -/
def Cpl.payload (c : Cpl) (posted : Nat) : List Byte :=
  leBytes 4 (c.tag * 2 ^ 16 + c.op * 2 ^ 12 + c.count) ++ leBytes 4 posted ++ c.data ++ List.replicate ((4 - c.data.length % 4) % 4) 0#8

/-- The first of two completions to leave: the one ready in the earlier CLK_CORE cycle, then the one whose TXN came first (R89). -/
def earlierCpl (a b : Cpl) : Cpl :=
  let d := sdiff48 (b.ready / 16 * 16 : Nat) (a.ready / 16 * 16 : Nat)
  if d < 0 ∨ (d = 0 ∧ sdiff48 b.arr a.arr < 0) then b else a

/-- The completion that leaves next on a lane: the first of those whose CLK_CORE cycle has come, once it is ready; one that becomes ready earlier in
the same cycle, and whose TXN came later, waits for it (R89). -/
def State.nextCpl (s : State) (l : Fin 20) : Option Cpl :=
  match s.lanes[l].cpls.filter fun c => s.past ((c.ready / 16 * 16 : Nat) : Int) with
  | [] => none
  | c :: r => let d := r.foldl earlierCpl c; if s.past d.ready then some d else none

/-- R89: the first of the ready completions leaves on its port when the line is free. -/
def execCplSend (t : Nat) (port : Fin 2) (s : State) : Host.Outcome State Fault Refusal :=
  let s1 := s.upTo t
  let l := hostLane port
  let p := lanePage l
  done s (match s1.nextCpl l with
  | some c =>
    if s1.laneUp l then
      s1.trySend l 3 0 (c.payload (s1.f p Reg.FRAME_FRAME_STATUS_POSTED_DONE)) fun s =>
        ((s.setLane l fun x => { x with cpls := x.cpls.erase c }).inc p Reg.FRAME_CPL_SENT).setF p Reg.FRAME_FRAME_STATUS_OUTSTANDING
          (s.f p Reg.FRAME_FRAME_STATUS_OUTSTANDING - 1)
    else s1
  | none => s1)

/-! ### Mirrored transactions (R313) -/

/-- The first of two transactions in application order: the earlier arrival, then HOST_A. -/
def earlierTxn (a b : Txn) : Txn := if sdiff48 b.arr a.arr < 0 ∨ (sdiff48 b.arr a.arr = 0 ∧ b.port < a.port) then b else a

/-- The transaction that is applied next. -/
def State.nextTxn (s : State) : Option Txn :=
  match s.dip.queue with
  | [] => none
  | q :: r => some (r.foldl earlierTxn q)

/-- R313: the transaction whose application tick comes first is applied, once that tick is reached; a device strapped B sends no CPL for it. -/
def execMirrorApply (t : Nat) (s : State) : Host.Outcome State Fault Refusal :=
  let s1 := s.upTo t
  let p := Pg.DIPTYCH
  match s1.nextTxn with
  | some q =>
    if s1.past (q.arr + s1.f p Reg.DIPTYCH_MIRROR_LAT) then
      let s2 := (s1.setDip fun x => { x with queue := x.queue.erase q }).setF p Reg.DIPTYCH_MCOUNT (s1.f p Reg.DIPTYCH_MCOUNT + 1)
      applyTxn s2 q 1 fun s3 data => done s (if s3.roleB then s3 else s3.complete q data)
    else done s s1
  | none => done s s1

end Sys2Proof.Machine
end

