-- ==== Sys2Proof/Machine/Dispatch.lean ====
section
/-! DEFINITION. The dispatch from a command to its meaning. -/

namespace Sys2Proof.Machine

def exec (i : Instr) (s : State) : Host.Outcome State Fault Refusal :=
  match i with
  | .registerWrite t addr v => Sys2Proof.Machine.execRegisterWrite t addr v s
  | .registerReadClear t addr => Sys2Proof.Machine.execRegisterReadClear t addr s
  | .ctrlEnWrite t p en => Sys2Proof.Machine.execCtrlEnWrite t p en s
  | .softReset t p => Sys2Proof.Machine.execSoftReset t p s
  | .eventClear t p bits => Sys2Proof.Machine.execEventClear t p bits s
  | .eventForce t p bits => Sys2Proof.Machine.execEventForce t p bits s
  | .commit t p => Sys2Proof.Machine.execCommit t p s
  | .shadowTransfer t p => Sys2Proof.Machine.execShadowTransfer t p s
  | .snapshotTake t p => Sys2Proof.Machine.execSnapshotTake t p s
  | .blockSequenceEnd t p => Sys2Proof.Machine.execBlockSequenceEnd t p s
  | .blockTransitCycleEnd t p => Sys2Proof.Machine.execBlockTransitCycleEnd t p s
  | .txnRead t port tag addr count => Sys2Proof.Machine.execTxnRead t port tag addr count s
  | .txnWrite t port tag addr count data => Sys2Proof.Machine.execTxnWrite t port tag addr count data s
  | .txnWritePosted t port tag addr count data => Sys2Proof.Machine.execTxnWritePosted t port tag addr count data s
  | .txnFence t port tag cross => Sys2Proof.Machine.execTxnFence t port tag cross s
  | .fenceComplete t port => Sys2Proof.Machine.execFenceComplete t port s
  | .cplSend t port => Sys2Proof.Machine.execCplSend t port s
  | .frameReceive t l fill delim hdr hcrc payload pcrc => Sys2Proof.Machine.execFrameReceive t l fill delim hdr hcrc payload pcrc s
  | .idleSend t l => Sys2Proof.Machine.execIdleSend t l s
  | .laneActivity t q => Sys2Proof.Machine.execLaneActivity t q s
  | .cdrLock t l => Sys2Proof.Machine.execCdrLock t l s
  | .frameLock t l => Sys2Proof.Machine.execFrameLock t l s
  | .capSend t l => Sys2Proof.Machine.execCapSend t l s
  | .capReceive t l w0 w1 w2 w3 => Sys2Proof.Machine.execCapReceive t l w0 w1 w2 w3 s
  | .bringupPhaseTimeout t l => Sys2Proof.Machine.execBringupPhaseTimeout t l s
  | .frameLockLoss t l cause activity => Sys2Proof.Machine.execFrameLockLoss t l cause activity s
  | .txTimingSwitch t l => Sys2Proof.Machine.execTxTimingSwitch t l s
  | .stepCtrlGo t l rate => Sys2Proof.Machine.execStepCtrlGo t l rate s
  | .stepAckDeadline t l => Sys2Proof.Machine.execStepAckDeadline t l s
  | .stepQuiesce t l => Sys2Proof.Machine.execStepQuiesce t l s
  | .stepLaunch t l => Sys2Proof.Machine.execStepLaunch t l s
  | .stepRelockTimeout t l => Sys2Proof.Machine.execStepRelockTimeout t l s
  | .loopInject t l => Sys2Proof.Machine.execLoopInject t l s
  | .loopClear t l => Sys2Proof.Machine.execLoopClear t l s
  | .loopCtrlWrite t l v => Sys2Proof.Machine.execLoopCtrlWrite t l v s
  | .missingEdge t c => Sys2Proof.Machine.execMissingEdge t c s
  | .freqWindowEnd t o0 o1 o2 o3 => Sys2Proof.Machine.execFreqWindowEnd t o0 o1 o2 o3 s
  | .candidateQualified t c => Sys2Proof.Machine.execCandidateQualified t c s
  | .holdLock t => Sys2Proof.Machine.execHoldLock t s
  | .holdExpired t => Sys2Proof.Machine.execHoldExpired t s
  | .coastExitLock t ok => Sys2Proof.Machine.execCoastExitLock t ok s
  | .safeHoldClear t => Sys2Proof.Machine.execSafeHoldClear t s
  | .fmeasStart t => Sys2Proof.Machine.execFmeasStart t s
  | .fmeasDone t n => Sys2Proof.Machine.execFmeasDone t n s
  | .fmeasTimeout t => Sys2Proof.Machine.execFmeasTimeout t s
  | .frameStart n => Sys2Proof.Machine.execFrameStart n s
  | .exchangeCut n => Sys2Proof.Machine.execExchangeCut n s
  | .headDnLaunch n => Sys2Proof.Machine.execHeadDnLaunch n s
  | .headUpReceive t h rx w => Sys2Proof.Machine.execHeadUpReceive t h rx w s
  | .sampleADeadline n => Sys2Proof.Machine.execSampleADeadline n s
  | .sampleBDeadline n => Sys2Proof.Machine.execSampleBDeadline n s
  | .mbxSend t h => Sys2Proof.Machine.execMbxSend t h s
  | .mbxTimeout t h => Sys2Proof.Machine.execMbxTimeout t h s
  | .syncReceive t port origin corr seqId masterId interval => Sys2Proof.Machine.execSyncReceive t port origin corr seqId masterId interval s
  | .dlyReqLaunch n => Sys2Proof.Machine.execDlyReqLaunch n s
  | .dlyReqReceive t port txTime seqId senderId => Sys2Proof.Machine.execDlyReqReceive t port txTime seqId senderId s
  | .dlyRspReceive t port reqRx reqCorr seqId responder => Sys2Proof.Machine.execDlyRspReceive t port reqRx reqCorr seqId responder s
  | .dlyTimeout t port => Sys2Proof.Machine.execDlyTimeout t port s
  | .timeFrameForward t port => Sys2Proof.Machine.execTimeFrameForward t port s
  | .syncLaunch t => Sys2Proof.Machine.execSyncLaunch t s
  | .syncLoss t => Sys2Proof.Machine.execSyncLoss t s
  | .launch t l => Sys2Proof.Machine.execLaunch t l s
  | .adjHiWrite t v => Sys2Proof.Machine.execAdjHiWrite t v s
  | .vddAonPor t => Sys2Proof.Machine.execVddAonPor t s
  | .vddAonLoss t => Sys2Proof.Machine.execVddAonLoss t s
  | .wakeEvent t c => Sys2Proof.Machine.execWakeEvent t c s
  | .wakeBlankEnd t => Sys2Proof.Machine.execWakeBlankEnd t s
  | .pgInHigh t roleB => Sys2Proof.Machine.execPgInHigh t roleB s
  | .pgTimeout t => Sys2Proof.Machine.execPgTimeout t s
  | .pgInLow t => Sys2Proof.Machine.execPgInLow t s
  | .primerLinkReady t c => Sys2Proof.Machine.execPrimerLinkReady t c s
  | .linkWaitTimeout t => Sys2Proof.Machine.execLinkWaitTimeout t s
  | .primerDone t fuseOk nvId markerOk us => Sys2Proof.Machine.execPrimerDone t fuseOk nvId markerOk us s
  | .resetLAssert t => Sys2Proof.Machine.execResetLAssert t s
  | .resetLRelease t => Sys2Proof.Machine.execResetLRelease t s
  | .deviceCommand t key => Sys2Proof.Machine.execDeviceCommand t key s
  | .deviceCommandRestart t => Sys2Proof.Machine.execDeviceCommandRestart t s
  | .dormantCommand t key => Sys2Proof.Machine.execDormantCommand t key s
  | .domainCtrlWrite t v => Sys2Proof.Machine.execDomainCtrlWrite t v s
  | .domainSwitchOnDone t => Sys2Proof.Machine.execDomainSwitchOnDone t s
  | .domainSwitchOffDone t => Sys2Proof.Machine.execDomainSwitchOffDone t s
  | .pfail t => Sys2Proof.Machine.execPfail t s
  | .sysStart t => Sys2Proof.Machine.execSysStart t s
  | .chainStart t b v => Sys2Proof.Machine.execChainStart t b v s
  | .headerFetched t b => Sys2Proof.Machine.execHeaderFetched t b s
  | .nextPoll t b => Sys2Proof.Machine.execNextPoll t b s
  | .sheetBoundary t b => Sys2Proof.Machine.execSheetBoundary t b s
  | .lateSheetTakesEffect t b => Sys2Proof.Machine.execLateSheetTakesEffect t b s
  | .blockFetchRequest t b pathB => Sys2Proof.Machine.execBlockFetchRequest t b pathB s
  | .blockArrival t b pathB k => Sys2Proof.Machine.execBlockArrival t b pathB k s
  | .timedRecordEnd t b => Sys2Proof.Machine.execTimedRecordEnd t b s
  | .waitComplete t b => Sys2Proof.Machine.execWaitComplete t b s
  | .gateEdge t b timerA kind => Sys2Proof.Machine.execGateEdge t b timerA kind s
  | .twinUnpairedTimeout t b => Sys2Proof.Machine.execTwinUnpairedTimeout t b s
  | .glazeCompute n half b => Sys2Proof.Machine.execGlazeCompute n half b s
  | .powerBurstStart n half b => Sys2Proof.Machine.execPowerBurstStart n half b s
  | .powerWordLatch n half b => Sys2Proof.Machine.execPowerWordLatch n half b s
  | .laserReadyChange t b v => Sys2Proof.Machine.execLaserReadyChange t b v s
  | .laserFaultChange t b v => Sys2Proof.Machine.execLaserFaultChange t b v s
  | .parkEnd t b => Sys2Proof.Machine.execParkEnd t b s
  | .parkTimeout t b => Sys2Proof.Machine.execParkTimeout t b s
  | .encoderEdge t n a b z => Sys2Proof.Machine.execEncoderEdge t n a b z s
  | .indexArm t n => Sys2Proof.Machine.execIndexArm t n s
  | .indexCapture t n => Sys2Proof.Machine.execIndexCapture t n s
  | .estimatorUpdate n => Sys2Proof.Machine.execEstimatorUpdate n s
  | .targetRemove t => Sys2Proof.Machine.execTargetRemove t s
  | .tileClose t b => Sys2Proof.Machine.execTileClose t b s
  | .rasterFetchDone t b k idx line => Sys2Proof.Machine.execRasterFetchDone t b k idx line s
  | .swatchCompare t b => Sys2Proof.Machine.execSwatchCompare t b s
  | .engineFrameStart m => Sys2Proof.Machine.execEngineFrameStart m s
  | .traceArm t e => Sys2Proof.Machine.execTraceArm t e s
  | .traceStop t e => Sys2Proof.Machine.execTraceStop t e s
  | .injectWrite t e v => Sys2Proof.Machine.execInjectWrite t e v s
  | .planTick q => Sys2Proof.Machine.execPlanTick q s
  | .stepTargetWrite t n v => Sys2Proof.Machine.execStepTargetWrite t n v s
  | .upFrameCheck t n di0 di1 di2 di3 => Sys2Proof.Machine.execUpFrameCheck t n di0 di1 di2 di3 s
  | .stepperHoldEnd t n => Sys2Proof.Machine.execStepperHoldEnd t n s
  | .csiFrameStart t p vc fn corrected => Sys2Proof.Machine.execCsiFrameStart t p vc fn corrected s
  | .csiFrameEnd t p vc corrected => Sys2Proof.Machine.execCsiFrameEnd t p vc corrected s
  | .csiLongPacket t p vc dt l crcOk corrected => Sys2Proof.Machine.execCsiLongPacket t p vc dt l crcOk corrected s
  | .pipelinePacket t p => Sys2Proof.Machine.execPipelinePacket t p s
  | .frameLimitExpiry t k => Sys2Proof.Machine.execFrameLimitExpiry t k s
  | .frameRecordsComplete t k => Sys2Proof.Machine.execFrameRecordsComplete t k s
  | .recordReady t cls => Sys2Proof.Machine.execRecordReady t cls s
  | .batchDeliver n => Sys2Proof.Machine.execBatchDeliver n s
  | .triggerLaunch t o => Sys2Proof.Machine.execTriggerLaunch t o s
  | .triggerEnd t o => Sys2Proof.Machine.execTriggerEnd t o s
  | .oneshotWrite t k v => Sys2Proof.Machine.execOneshotWrite t k v s
  | .streamFrameSend t k => Sys2Proof.Machine.execStreamFrameSend t k s
  | .metLaunch n => Sys2Proof.Machine.execMetLaunch n s
  | .metReceive t frame count l => Sys2Proof.Machine.execMetReceive t frame count l s
  | .eventIntake t => Sys2Proof.Machine.execEventIntake t s
  | .eventDeliverable t => Sys2Proof.Machine.execEventDeliverable t s
  | .evtSend t => Sys2Proof.Machine.execEvtSend t s
  | .ilkDepart t x a b => Sys2Proof.Machine.execIlkDepart t x a b s
  | .ilkReturn t x => Sys2Proof.Machine.execIlkReturn t x s
  | .discTimeout t x => Sys2Proof.Machine.execDiscTimeout t x s
  | .knifeArmSet t key mask => Sys2Proof.Machine.execKnifeArmSet t key mask s
  | .knifeDisarm t mask => Sys2Proof.Machine.execKnifeDisarm t mask s
  | .knifeClear t key mask => Sys2Proof.Machine.execKnifeClear t key mask s
  | .knifeTest t mask => Sys2Proof.Machine.execKnifeTest t mask s
  | .permitStart n => Sys2Proof.Machine.execPermitStart n s
  | .pairFormFrame n => Sys2Proof.Machine.execPairFormFrame n s
  | .formEchoDeadline t => Sys2Proof.Machine.execFormEchoDeadline t s
  | .pairLock n => Sys2Proof.Machine.execPairLock n s
  | .mirrorTxnReceive t arr port op tag addr count cross data => Sys2Proof.Machine.execMirrorTxnReceive t arr port op tag addr count cross data s
  | .mirrorApply t => Sys2Proof.Machine.execMirrorApply t s
  | .mirrorMediumLaunch n => Sys2Proof.Machine.execMirrorMediumLaunch n s
  | .mirrorMediumReceive t frame words => Sys2Proof.Machine.execMirrorMediumReceive t frame words s
  | .digestLaunch n => Sys2Proof.Machine.execDigestLaunch n s
  | .digestReceive t frame w2 digest => Sys2Proof.Machine.execDigestReceive t frame w2 digest s
  | .takeoverEval n atCut => Sys2Proof.Machine.execTakeoverEval n atCut s
  | .handover t key => Sys2Proof.Machine.execHandover t key s
  | .syncAtWrite t n v => Sys2Proof.Machine.execSyncAtWrite t n v s
  | .lightSyncBurst t n r0 r1 r2 => Sys2Proof.Machine.execLightSyncBurst t n r0 r1 r2 s
  | .cmdHdrWrite t n v => Sys2Proof.Machine.execCmdHdrWrite t n v s
  | .lightBurst t n r0 r1 r2 => Sys2Proof.Machine.execLightBurst t n r0 r1 r2 s
  | .tempPoll t n => Sys2Proof.Machine.execTempPoll t n s
  | .keepAlive t n => Sys2Proof.Machine.execKeepAlive t n s
  | .respPop t n => Sys2Proof.Machine.execRespPop t n s
  | .bgRowStart t => Sys2Proof.Machine.execBgRowStart t s
  | .bgRowDone t failed => Sys2Proof.Machine.execBgRowDone t failed s
  | .bankEccWriteback t b off => Sys2Proof.Machine.execBankEccWriteback t b off s
  | .failClear t => Sys2Proof.Machine.execFailClear t s
  | .dramCommandIssue t x => Sys2Proof.Machine.execDramCommandIssue t x s
  | .agePromotion t x => Sys2Proof.Machine.execAgePromotion t x s
  | .pageIdleClose t x b => Sys2Proof.Machine.execPageIdleClose t x b s
  | .refreshDue t x b => Sys2Proof.Machine.execRefreshDue t x b s
  | .mr4Poll t x rate hot => Sys2Proof.Machine.execMr4Poll t x rate hot s
  | .dramEccWriteback t addr => Sys2Proof.Machine.execDramEccWriteback t addr s
  | .trainingDone t rd wr initOk => Sys2Proof.Machine.execTrainingDone t rd wr initOk s
  | .retrain t mask => Sys2Proof.Machine.execRetrain t mask s
  | .sensorRoundEnd r raw => Sys2Proof.Machine.execSensorRoundEnd r raw s
  | .graceExpiry n => Sys2Proof.Machine.execGraceExpiry n s
  | .heldSheetRelease t => Sys2Proof.Machine.execHeldSheetRelease t s
  | .shutdownPowerOff t => Sys2Proof.Machine.execShutdownPowerOff t s
  | .flushTrigger t bit => Sys2Proof.Machine.execFlushTrigger t bit s
  | .minGapExpiry t => Sys2Proof.Machine.execMinGapExpiry t s
  | .flushStart t => Sys2Proof.Machine.execFlushStart t s
  | .flushDone t => Sys2Proof.Machine.execFlushDone t s
  | .nvTimeout t who => Sys2Proof.Machine.execNvTimeout t who s
  | .eraseAhead t => Sys2Proof.Machine.execEraseAhead t s
  | .hoursTick t => Sys2Proof.Machine.execHoursTick t s
  | .recordFlush t => Sys2Proof.Machine.execRecordFlush t s
  | .clearAcc t => Sys2Proof.Machine.execClearAcc t s
  | .nvRead t => Sys2Proof.Machine.execNvRead t s
  | .nvProgram t => Sys2Proof.Machine.execNvProgram t s
  | .nvErase t => Sys2Proof.Machine.execNvErase t s
  | .nvCmdDone t => Sys2Proof.Machine.execNvCmdDone t s
  | .calDelay t target => Sys2Proof.Machine.execCalDelay t target s
  | .calSensor t => Sys2Proof.Machine.execCalSensor t s
  | .calLane t target => Sys2Proof.Machine.execCalLane t target s
  | .calSave t => Sys2Proof.Machine.execCalSave t s
  | .calDone t cells segP segN ok => Sys2Proof.Machine.execCalDone t cells segP segN ok s
  | .bistLogic t key dom => Sys2Proof.Machine.execBistLogic t key dom s
  | .bistMemory t key dom => Sys2Proof.Machine.execBistMemory t key dom s
  | .bistDone t sigs banks rows => Sys2Proof.Machine.execBistDone t sigs banks rows s
  | .timedRecordStart t b => Sys2Proof.Machine.execTimedRecordStart t b s
  | .clockPatternEnd t l => Sys2Proof.Machine.execClockPatternEnd t l s
  | .csiUnmatchedPacket t p kind => Sys2Proof.Machine.execCsiUnmatchedPacket t p kind s
  | .prbsSyncGain t r => Sys2Proof.Machine.execPrbsSyncGain t r s
  | .prbsSyncLoss t l => Sys2Proof.Machine.execPrbsSyncLoss t l s
  | .prbsBitError t r => Sys2Proof.Machine.execPrbsBitError t r s
  | .tapClock t tms tdi => Sys2Proof.Machine.execTapClock t tms tdi s
  | .tapReset t => Sys2Proof.Machine.execTapReset t s
  | .eraseDone t => Sys2Proof.Machine.execEraseDone t s

end Sys2Proof.Machine
end

