-- ==== Sys2Proof/Machine/Step.lean ====
section
/-! DEFINITION. One step of the block: the command at the front of the queue has its effect; on an empty queue one cycle of CLK_FAST passes. -/

namespace Sys2Proof.Machine

/-- One step: the front command runs on the state that holds the queue's rest; with nothing waiting the timebase, if it runs, advances by one
cycle of CLK_FAST (R103), and else the block idles. -/
def step (s : State) : Host.Outcome State Fault Refusal :=
  match s.pending with
  | c :: rest => exec c { s with pending := rest }
  | [] => if s.time.running then done s s.fastCycle else .next s

/-- The state with the command that a word spells put at the front of its queue; the same state where the word spells none. -/
def State.withFetchWord (s : State) (nbits w : Nat) : State :=
  match decodeTableWord nbits w with
  | some c => { s with pending := c :: s.pending }
  | none => s

end Sys2Proof.Machine
end

