-- ==== Sys2Proof/Safety.lean ====
section
/-! DEFINITION. The terms claims are made in: when a command completes, what its next state is sure to have, the canonical form of the tables, and
the emission outputs at rest. -/

namespace Sys2Proof

/-- A command that the host gives, or a boundary or an access of an engine that takes in what the host has set up, which can meet a host error
(R44). -/
def Instr.mayStop : Instr → Bool
  | .registerWrite .. | .registerReadClear .. | .ctrlEnWrite .. | .softReset .. | .eventClear .. | .eventForce .. | .commit ..
  | .shadowTransfer .. | .snapshotTake .. | .txnRead .. | .txnWrite .. | .txnWritePosted .. | .txnFence .. | .stepCtrlGo ..
  | .loopInject .. | .loopClear .. | .loopCtrlWrite .. | .safeHoldClear .. | .fmeasStart .. | .mbxSend .. | .adjHiWrite ..
  | .deviceCommand .. | .dormantCommand .. | .domainCtrlWrite .. | .chainStart .. | .sheetBoundary .. | .lateSheetTakesEffect ..
  | .timedRecordEnd .. | .waitComplete .. | .indexArm .. | .traceArm .. | .traceStop .. | .injectWrite .. | .planTick ..
  | .stepTargetWrite .. | .csiLongPacket .. | .pipelinePacket .. | .triggerLaunch .. | .oneshotWrite .. | .knifeArmSet ..
  | .knifeDisarm .. | .knifeClear .. | .knifeTest .. | .mirrorApply .. | .handover .. | .syncAtWrite .. | .cmdHdrWrite .. | .respPop ..
  | .failClear .. | .retrain .. | .heldSheetRelease .. | .recordFlush .. | .clearAcc .. | .nvRead .. | .nvProgram .. | .nvErase ..
  | .calDelay .. | .calSensor .. | .calLane .. | .calSave .. | .bistLogic .. | .bistMemory .. | .frameStart .. | .exchangeCut ..
  | .headerFetched .. | .nextPoll .. | .blockFetchRequest .. | .blockArrival .. | .rasterFetchDone .. | .recordReady ..
  | .streamFrameSend .. | .tapClock .. => true
  | .blockSequenceEnd .. | .blockTransitCycleEnd .. | .fenceComplete .. | .cplSend .. | .frameReceive .. | .idleSend ..
  | .laneActivity .. | .cdrLock .. | .frameLock .. | .capSend .. | .capReceive .. | .bringupPhaseTimeout .. | .frameLockLoss ..
  | .txTimingSwitch .. | .stepAckDeadline .. | .stepQuiesce .. | .stepLaunch .. | .stepRelockTimeout .. | .missingEdge ..
  | .freqWindowEnd .. | .candidateQualified .. | .holdLock .. | .holdExpired .. | .coastExitLock .. | .fmeasDone .. | .fmeasTimeout ..
  | .headDnLaunch .. | .headUpReceive .. | .sampleADeadline .. | .sampleBDeadline .. | .mbxTimeout ..
  | .syncReceive .. | .dlyReqLaunch .. | .dlyReqReceive .. | .dlyRspReceive .. | .dlyTimeout .. | .timeFrameForward .. | .syncLaunch ..
  | .syncLoss .. | .launch .. | .vddAonPor .. | .vddAonLoss .. | .wakeEvent .. | .wakeBlankEnd .. | .pgInHigh .. | .pgTimeout ..
  | .pgInLow .. | .primerLinkReady .. | .linkWaitTimeout .. | .primerDone .. | .resetLAssert .. | .resetLRelease ..
  | .deviceCommandRestart .. | .domainSwitchOnDone .. | .domainSwitchOffDone .. | .pfail .. | .sysStart ..
  | .gateEdge .. | .twinUnpairedTimeout .. | .glazeCompute ..
  | .powerBurstStart .. | .powerWordLatch .. | .laserReadyChange .. | .laserFaultChange .. | .parkEnd .. | .parkTimeout ..
  | .encoderEdge .. | .indexCapture .. | .estimatorUpdate .. | .targetRemove .. | .tileClose .. | .swatchCompare ..
  | .engineFrameStart .. | .upFrameCheck .. | .stepperHoldEnd .. | .csiFrameStart .. | .csiFrameEnd .. | .frameLimitExpiry ..
  | .frameRecordsComplete .. | .batchDeliver .. | .triggerEnd .. | .metLaunch .. | .metReceive ..
  | .eventIntake .. | .eventDeliverable .. | .evtSend .. | .ilkDepart .. | .ilkReturn .. | .discTimeout .. | .permitStart ..
  | .pairFormFrame .. | .formEchoDeadline .. | .pairLock .. | .mirrorTxnReceive .. | .mirrorMediumLaunch .. | .mirrorMediumReceive ..
  | .digestLaunch .. | .digestReceive .. | .takeoverEval .. | .lightSyncBurst .. | .lightBurst .. | .tempPoll .. | .keepAlive ..
  | .bgRowStart .. | .bgRowDone .. | .bankEccWriteback .. | .dramCommandIssue .. | .agePromotion .. | .pageIdleClose .. | .refreshDue ..
  | .mr4Poll .. | .dramEccWriteback .. | .trainingDone .. | .sensorRoundEnd .. | .graceExpiry .. | .shutdownPowerOff ..
  | .flushTrigger .. | .minGapExpiry .. | .flushStart .. | .flushDone .. | .nvTimeout .. | .eraseAhead .. | .hoursTick .. | .nvCmdDone ..
  | .calDone .. | .bistDone .. | .timedRecordStart .. | .clockPatternEnd .. | .csiUnmatchedPacket .. | .prbsSyncGain ..
  | .prbsSyncLoss .. | .prbsBitError .. | .tapReset .. | .eraseDone .. => false

/-- A command that stores to no bank and to no DRAM, in no accumulator of the recorder either, and that switches no domain off. -/
def Instr.storesNothing : Instr → Bool
  | .registerReadClear .. | .eventClear .. | .eventForce .. | .commit .. | .shadowTransfer .. | .snapshotTake .. | .fenceComplete ..
  | .cplSend .. | .idleSend .. | .laneActivity .. | .txTimingSwitch .. | .stepCtrlGo .. | .stepAckDeadline ..
  | .stepQuiesce .. | .loopInject .. | .loopClear .. | .loopCtrlWrite .. | .candidateQualified .. | .holdLock .. | .coastExitLock ..
  | .fmeasStart .. | .fmeasDone .. | .fmeasTimeout .. | .sampleBDeadline .. | .mbxSend .. | .mbxTimeout .. | .dlyReqLaunch ..
  | .dlyReqReceive .. | .dlyRspReceive .. | .dlyTimeout .. | .timeFrameForward .. | .syncLaunch .. | .launch .. | .adjHiWrite ..
  | .wakeEvent .. | .wakeBlankEnd .. | .pgTimeout .. | .pfail .. | .chainStart .. | .headerFetched ..
  | .nextPoll .. | .blockFetchRequest .. | .timedRecordEnd .. | .waitComplete .. | .powerBurstStart .. | .encoderEdge .. | .indexArm ..
  | .indexCapture .. | .targetRemove .. | .tileClose .. | .traceArm .. | .traceStop .. | .injectWrite .. | .planTick ..
  | .stepTargetWrite .. | .csiFrameEnd .. | .csiLongPacket .. | .frameLimitExpiry .. | .batchDeliver ..
  | .triggerLaunch .. | .triggerEnd .. | .oneshotWrite .. | .streamFrameSend .. | .metLaunch .. | .metReceive .. | .eventIntake ..
  | .eventDeliverable .. | .evtSend .. | .knifeArmSet .. | .knifeClear .. | .pairFormFrame .. | .formEchoDeadline ..
  | .mirrorTxnReceive .. | .mirrorMediumLaunch .. | .mirrorMediumReceive .. | .digestReceive .. | .handover .. | .syncAtWrite ..
  | .lightSyncBurst .. | .cmdHdrWrite .. | .lightBurst .. | .tempPoll .. | .keepAlive .. | .respPop ..
  | .bankEccWriteback .. | .failClear .. | .agePromotion .. | .pageIdleClose .. | .refreshDue .. | .mr4Poll .. | .dramEccWriteback ..
  | .retrain .. | .flushTrigger .. | .eraseAhead .. | .hoursTick .. | .recordFlush .. | .nvRead .. | .nvProgram ..
  | .nvErase .. | .calDelay .. | .calSensor .. | .calLane .. | .calSave .. | .calDone .. | .bistDone .. | .clockPatternEnd ..
  | .csiUnmatchedPacket .. | .prbsSyncGain .. | .prbsSyncLoss .. | .prbsBitError .. => true
  | .registerWrite .. | .ctrlEnWrite .. | .softReset .. | .blockSequenceEnd .. | .blockTransitCycleEnd .. | .txnRead .. | .txnWrite ..
  | .domainCtrlWrite .. | .nvTimeout ..
  | .txnWritePosted .. | .txnFence .. | .frameReceive .. | .cdrLock .. | .frameLock .. | .capReceive .. | .bringupPhaseTimeout ..
  | .frameLockLoss .. | .stepLaunch .. | .stepRelockTimeout .. | .missingEdge .. | .freqWindowEnd .. | .holdExpired ..
  | .safeHoldClear .. | .frameStart .. | .exchangeCut .. | .headDnLaunch .. | .headUpReceive .. | .sampleADeadline .. | .syncReceive ..
  | .syncLoss .. | .vddAonPor .. | .vddAonLoss .. | .pgInHigh .. | .pgInLow .. | .primerLinkReady .. | .linkWaitTimeout ..
  | .primerDone .. | .resetLAssert .. | .resetLRelease .. | .deviceCommand .. | .deviceCommandRestart .. | .dormantCommand ..
  | .domainSwitchOnDone .. | .domainSwitchOffDone .. | .sysStart .. | .sheetBoundary .. | .lateSheetTakesEffect .. | .blockArrival ..
  | .gateEdge .. | .twinUnpairedTimeout .. | .glazeCompute .. | .powerWordLatch .. | .laserReadyChange .. | .laserFaultChange ..
  | .parkEnd .. | .parkTimeout .. | .estimatorUpdate .. | .rasterFetchDone .. | .swatchCompare .. | .engineFrameStart ..
  | .upFrameCheck .. | .stepperHoldEnd .. | .csiFrameStart .. | .pipelinePacket .. | .recordReady .. | .ilkDepart .. | .ilkReturn ..
  | .discTimeout .. | .knifeDisarm .. | .knifeTest .. | .permitStart .. | .pairLock .. | .mirrorApply .. | .digestLaunch ..
  | .takeoverEval .. | .dramCommandIssue .. | .trainingDone .. | .sensorRoundEnd .. | .graceExpiry .. | .heldSheetRelease ..
  | .shutdownPowerOff .. | .minGapExpiry .. | .flushStart .. | .flushDone .. | .clearAcc .. | .nvCmdDone .. | .bistLogic ..
  | .bistMemory .. | .capSend .. | .frameRecordsComplete .. | .bgRowStart .. | .bgRowDone ..
  | .timedRecordStart .. | .tapClock .. | .tapReset .. | .eraseDone .. => false

namespace Machine

/-- The timebase runs and has not passed tick `t`, which lies within half of the count's range (R13) and does not run past its end: a command of
that tick takes place there. -/
abbrev State.live (s : State) (t : Nat) : Prop := s.time.running = true ∧ s.now ≤ t ∧ t < s.now + 2 ^ 63 ∧ t < 2 ^ 64

/-- Command `i` completes in state `s`: exec answers a next state, and `P` holds of it. -/
def Completes (i : Instr) (s : State) (P : State → Prop) : Prop := ∃ s' : State, exec i s = .next s' ∧ P s'

/-- Whenever command `i` completes in state `s`, `P` holds of the next state. -/
def Ensures (i : Instr) (s : State) (P : State → Prop) : Prop := ∀ s' : State, exec i s = .next s' → P s'

/-- Command `i` stops in state `s` with fault `r`. -/
def Stops (i : Instr) (s : State) (r : Fault) : Prop := exec i s = .fault r

/-- An outcome is a next state. -/
def took (o : Host.Outcome State Fault Refusal) : Bool :=
  match o with
  | .next _ => true
  | .fault _ => false
  | .refused _ => false

/-- The list of every sheet a brush holds stands in DRAM and holds no reserved opcode, which R44 makes a host error. -/
abbrev State.listsOk (s : State) : Prop := ∀ b : Fin 16, ∀ h ∈ s.brushes[b].force.toList ++ s.brushes[b].queue,
  dramBase ≤ h.list ∧ ∀ i : Nat, i < h.records → ((s.record h i).op ≤ 9 ∨ (s.record h i).op = opEnd)

/-- A record that no host error concerns: its opcode is defined, it is no line of pixels, and its PSYNC keeps R168's limits. -/
def Rec.plain (r : Rec) : Bool :=
  decide ((r.op ≤ 9 ∨ r.op = opEnd) ∧ r.op ≠ opRaster ∧
    (r.op = opMark ∨ r.op = opDwell → r.w7 % 2 ^ 16 = 0 ∨ 16 ≤ r.w7 % 2 ^ 16 ∧ 4 ≤ r.w7 / 2 ^ 16 ∧ r.w7 / 2 ^ 16 < r.w7 % 2 ^ 16))

/-- Every sheet a brush holds has its list in DRAM, of plain records, and so are the records a brush has executed or is executing. -/
abbrev State.plainLists (s : State) : Prop :=
  (∀ b : Fin 16, ∀ h ∈ s.brushes[b].force.toList ++ s.brushes[b].queue,
    dramBase ≤ h.list ∧ ∀ i : Nat, i < h.records → (s.record h i).plain = true) ∧
    ∀ b : Fin 16, ∀ u ∈ s.brushes[b].past ++ s.brushes[b].cur.toList, u.r.plain = true

/-- The vector records that brush `b` holds or will come to and of which it has taken a decision. -/
def State.decided (s : State) (b : Fin 16) : List Up :=
  (s.upsOf b (s.timeline b)).filter fun u => u.r.op != opRaster && (s.decOf b u).isSome

/-- A read of `n` bytes at `a` stays within DRAM that is populated, on and enabled (R346). -/
abbrev State.askable (s : State) (a n : Nat) : Prop :=
  s.dmaBreach = false ∧ (s.dramOn = true → ∀ q ∈ granules a n, s.dramUsable q.1 = true)

/-- What the next look of brush `b` at NEXT may read stays there too: the header that holds NEXT, and the one NEXT names (R158). -/
abbrev State.nextAskable (s : State) (b : Fin 16) : Prop := ∀ h ∈ s.brushes[b].newest, s.askable h.addr 64 ∧
  (h.next ≠ 0 → s.askable h.next 832) ∧ (s.readNext h.addr ≠ 0 → s.askable (s.readNext h.addr) 832)

/-- Every table of the state is in its canonical form. -/
abbrev State.Tidy (s : State) : Prop :=
  TabWf resetWord s.regs ∧ TabWf resetWord s.active ∧ TabWf zeroWord s.snap ∧ Memory.wf s.mem ∧ TabWf zeroNat s.memErr ∧
    TabWf zeroNat s.commitAt ∧ TabWf noShadow s.shadowWas ∧ TabWf zeroNat s.enteredAt ∧ TabWf zeroNat s.lastEv ∧ TabWf nvDefault s.rcd.nv

/-- No emission output is high: GATE and PSYNC of every laser port, and every ARM pin (R299). -/
abbrev State.dark (s : State) : Prop := ∀ n : Fin 16, s.lasers[n].gatePin = false ∧ s.lasers[n].psyncPin = false ∧ s.armPin n = false

/-- Every register of every page reads as before but those at the addresses listed. -/
def RegsBut (l : List Nat) (s s' : State) : Prop := ∀ a : Nat, a ∉ l → s'.word a = s.word a

/-- The registers an event or a sticky flag of page `p` may write: its EVENT and ERROR_STICKY, and the collector's count of merged offers. -/
def noted (p : Nat) : List Nat := [regAddr p Reg.EVENT.off, regAddr p Reg.ERROR_STICKY.off, regAddr Pg.EVCOL Reg.EVCOL_MERGED.off]

/-- The registers that follow the pins of the laser ports (R187, R303). -/
def pinRegs : List Nat := (List.range 16).flatMap fun n =>
  [regAddr (Pg.LASER n) Reg.LASER_PORT_STATUS_GATE.off, regAddr (Pg.LASER n) Reg.LASER_GATE_PULSES.off]

/-- The registers of the knife that a latched cause writes (R304). -/
def tripRegs : List Nat :=
  [regAddr Pg.KNIFE Reg.KNIFE_ARM_STATE.off, regAddr Pg.KNIFE Reg.KNIFE_TRIPPED.off, regAddr Pg.KNIFE Reg.KNIFE_TRIPS.off] ++
    (List.range 16).map fun n => regAddr Pg.KNIFE (Reg.KNIFE_CAUSE_LATCHED.num n).off

/-- The registers of the recorder that a trigger writes (R373). -/
def triggerRegs : List Nat :=
  [regAddr Pg.RECORD Reg.RECORD_STATUS_PENDING.off, regAddr Pg.RECORD Reg.RECORD_MERGED.off, regAddr Pg.RECORD Reg.RECORD_DEFERRED.off] ++
    noted Pg.RECORD

/-- The registers that a stored word in error writes as it is read (R318, R339). -/
def errorRegs : List Nat :=
  (List.range 20).map (fun b => regAddr Pg.BANKS (Reg.BANKS_BANKCNT_CORRECTED.num b).off) ++
    [regAddr Pg.BANKS Reg.BANKS_LAST_ERR_VALID.off, regAddr Pg.BANKS Reg.BANKS_LAST_ERR_TIME_LO.off,
      regAddr Pg.BANKS Reg.BANKS_LAST_ERR_TIME_HI.off] ++ noted Pg.BANKS ++ noted Pg.DIPTYCH

/-- Every register of every page reads as before. -/
abbrev SameRegs (s s' : State) : Prop := RegsBut [] s s'

/-- No queue holds more than it has entries for: launches (R118), syncs, light commands and responses (R327, R328, R331), host events (R401),
DRAM writes (R353) and trigger logs (R273). -/
abbrev State.depths (s : State) : Prop :=
  (∀ l : Fin 20, s.lanes[l].launches.length ≤ 8) ∧
    (∀ n : Fin 4, s.lights[n].syncs.length ≤ 4 ∧ s.lights[n].cmds.length ≤ 64 ∧ s.lights[n].resps.length ≤ 16) ∧
    s.ev.queue.length ≤ 1024 ∧ (∀ i : Fin 2, s.drams[i].wq.length ≤ 64) ∧ ∀ o : Fin 8, s.trigs[o].log.length ≤ 64

/-- Every byte of memory reads as before but the recorder's accumulators (R370). -/
def OnlyRecords (s s' : State) : Prop := ∀ a : Nat, a < recordBank ∨ recordBank + 0x1000 ≤ a → s'.byte a = s.byte a

/-- Every byte of memory reads as before. -/
def SameMem (s s' : State) : Prop := ∀ a : Nat, s'.byte a = s.byte a

/-- The transaction a TXN makes that is received now on host port `port` (R86, R87). -/
def State.arriving (s : State) (port : Fin 2) (op : Nat) (tag : BitVec 16) (addr count : Nat) (cross : Bool) (data : List Byte) : Txn :=
  ⟨port, s.now, op, tag.toNat, addr, count, cross, (data ++ List.replicate (count + 1) 0#8).take (count + 1)⟩

/-- The state once transaction `q` stands in the counters of its port (R88). -/
def State.counted (s : State) (q : Txn) : State :=
  let p := lanePage (hostLane q.port)
  let s1 := s.inc p Reg.FRAME_TXN_RECEIVED
  if q.op = 2 then s1 else s1.inc p Reg.FRAME_FRAME_STATUS_OUTSTANDING

/-- The port of `q` is UP, is in no rate step and has room for it (R76, R88). -/
abbrev State.takes (s : State) (q : Txn) : Prop :=
  s.laneUp (hostLane q.port).val = true ∧ s.stepHolds (hostLane q.port) = false ∧ s.overLimit q = false

/-- Transaction `q` takes effect on arrival: outside lockstep behind nothing that waits, or on B (R89, R313, R314), and it is no host error. -/
abbrev State.applies (s : State) (q : Txn) : Prop :=
  s.takes q ∧ (if s.roleB then s.pairState = pairLockstep → bAccepts q = true else s.pairState ≠ pairLockstep ∧ s.waiting q.port = []) ∧
    (s.counted q).txnStop q = none

/-- Transaction `q` waits for its application tick, on A in lockstep or behind those that wait already (R313). -/
abbrev State.defers (s : State) (q : Txn) : Prop :=
  s.takes q ∧ s.roleB = false ∧ (s.pairState = pairLockstep ∨ s.waiting q.port ≠ [])

/-- What completion `c` tells the host (R86, R87). -/
def Cpl.answer (c : Cpl) : Nat × Nat × Nat × List Byte := (c.tag, c.op, c.count, c.data)

/-- A page whose registers act only by their values, and the word at `addr` after `v` is written to one of its plain registers (R5). -/
def plainPage (p : Nat) : Bool :=
  decide (pageBlk p ∈ ([some .laser, some .glaze, some .raster, some .axis, some .cam, some .vision, some .light, some .dram, some .therm,
    some .evcol] : List (Option Blk)))

def State.written (s : State) (addr : Nat) (v : Word) : Word :=
  let m := BitVec.ofNat 32 (accMask (addr / 0x1000) (addr % 0x1000) .rw ||| accMask (addr / 0x1000) (addr % 0x1000) .rws)
  (s.word addr &&& ~~~m &&& ~~~(v &&& BitVec.ofNat 32 (accMask (addr / 0x1000) (addr % 0x1000) .w1c))) ||| (v &&& m)

/-- A write of `v` to the plain register at `addr` is neither a host error nor ignored (R6, R44). -/
abbrev State.storable (s : State) (addr : Nat) (v : Word) : Prop :=
  s.pwr.sysOn = true ∧ addr < 0x100000 ∧ addr % 4 = 0 ∧ 0x028 ≤ addr % 0x1000 ∧ plainPage (addr / 0x1000) = true ∧
    s.writeStop (addr / 0x1000) (addr % 0x1000) v = none ∧ s.writeIgnored (addr / 0x1000) (addr % 0x1000) = false

end Machine

end Sys2Proof
end

