-- ==== Sys2Proof/Certificates/Slice0/Obligations.lean ====
section
/-! DEFINITION. The statements for the provers. A completion statement has one clause for each form of a command: under conditions on the state and
the operands alone exec answers a next state, and of that state what the rules give. A frame statement says what a command leaves unchanged. -/

set_option linter.unusedVariables false

open Sys2Proof Sys2Proof.Machine

/-- The queue is first in, first out: a step takes the front command off the queue and runs it on the state that holds the rest. That commands wait
in a queue that is first in, first out is the model's own choice (log entry 1); R87 and R89 order transactions and do not speak of such a queue. -/
def Obligations.StepRunsTheFrontCommand : Prop :=
  ∀ (c : Instr) (s : State), step { s with pending := c :: s.pending } = exec c s

/-- A command that completes leaves the queue of waiting commands as it was. No command is refused. On an empty queue the step answers the state
itself while the timebase does not run, and one CLK_FAST cycle of it while it runs (R103): the accumulator of 96 bits advances by the increment, the
present tick follows it unless it already lies ahead, no register and no byte changes. The queue and its empty step are the model's own choice (log
entry 1). -/
def Obligations.QueueAndIdle : Prop :=
  (∀ (c : Instr) (s s' : State), exec c s = .next s' → s'.pending = s.pending) ∧
  (∀ (c : Instr) (s : State) (r : Refusal), exec c s ≠ .refused r) ∧
  (∀ s : State, s.pending = [] → s.time.running = false → step s = .next s) ∧
  (∀ s : State, s.pending = [] → s.time.running = true → ∃ s' : State, step s = .next s' ∧ s'.pending = [] ∧
    s'.time.acc = (s.time.acc + s.fastInc) % 2 ^ 96 ∧
    s'.now = (if ahead s.now (s'.time.acc / 2 ^ 32) < 2 ^ 63 then s'.time.acc / 2 ^ 32 else s.now) ∧ SameRegs s s' ∧ SameMem s s')

/-- R44 lists the host errors, whose result is unpredictable. A command outside Instr.mayStop answers no fault in any state, whatever its operands.
That a host error is a fault is the model's own choice (log entry 5). -/
def Obligations.OnlyHostErrorsStop : Prop :=
  ∀ (c : Instr) (s : State) (f : Fault), exec c s = .fault f → c.mayStop = true

/-- Registers, memory, stored errors, commit ticks, entry ticks, assertion ticks and the NV device each have one representation: keys strictly
rising and no entry equal to what an unlisted key reads as. Every step that answers a next state keeps that form, so that equal memories are equal
data. -/
def Obligations.StepKeepsTablesCanonical : Prop :=
  ∀ s s' : State, s.Tidy → step s = .next s' → s'.Tidy

/-- R118: 8 launches a lane. R327, R328, R331: 4 syncs, 64 commands and 16 responses a light port. R401: 1,024 messages to the host. R353: 64 writes
a DRAM controller. R273: 64 launches a trigger log. Every step that answers a next state keeps all of these bounds. -/
def Obligations.StepKeepsQueueDepths : Prop :=
  ∀ s s' : State, s.depths → step s = .next s' → s'.depths

/-- R127 step 1: the device is DORMANT with both fixed domains off, every register reads its reset value (LANE_CTRL of a host and of a head page and
SOURCE of a galvo and of an auxiliary axis are written out), no emission output is high, every byte of a bank reads 0, no command waits, and both
invariants of the model hold. That every byte of a bank and of DRAM reads 0 at the power-on reset is the model's choice (log entry 3): R132 zeroes
the banks of a domain as it is switched on, and gives BANK_RECORD no zero. -/
def Obligations.ResetState : Prop :=
  State.reset.Tidy ∧ State.reset.depths ∧ State.reset.dark ∧ State.reset.pending = [] ∧
  State.reset.pwr.dev = .dormant ∧ State.reset.pwr.sysOn = false ∧ State.reset.pwr.linkOn = false ∧ State.reset.time.running = false ∧
  (∀ a : Nat, State.reset.word a = resetWord a) ∧ (∀ a : Nat, State.reset.byte a = 0#8) ∧
  resetWord (regAddr (Pg.LINK 0) 0x044) = 0x00400803#32 ∧ resetWord (regAddr (Pg.HEAD 3) 0x044) = 0x00400802#32 ∧
  resetWord (regAddr (Pg.AXIS 5) 0x044) = 0#32 ∧ resetWord (regAddr (Pg.AXIS 50) 0x044) = 1#32

/-- R12: sdiff48 gives the signed 48-bit difference and uses only the low 48 bits of each argument. R13: a time has reached a value when their
sdiff48 is not negative. R11: rnd divides by 2^shift to nearest, a tie towards plus infinity, with the three examples of the rule. -/
def Obligations.TimeDifferencesAndRounding : Prop :=
  (∀ a b : Int, -(2 ^ 47) ≤ sdiff48 a b ∧ sdiff48 a b < 2 ^ 47 ∧ (sdiff48 a b - (a - b)) % 2 ^ 48 = 0 ∧
    sdiff48 (a % 2 ^ 48) (b % 2 ^ 48) = sdiff48 a b) ∧
  (∀ t v : Int, reached t v = true ↔ 0 ≤ sdiff48 t v) ∧
  (∀ (x : Int) (k : Nat), 2 ^ k * (2 * rnd x k - 1) ≤ 2 * x ∧ 2 * x < 2 ^ k * (2 * rnd x k + 1)) ∧
  rnd 5 1 = 3 ∧ rnd (-5) 1 = -2 ∧ rnd (-7) 2 = -2

/-- R190: a write of INDEX_ARM arms the Z input; the first rising edge of Z after it latches the count and the stamp, sets INDEX_VALID, asserts
INDEX and disarms; an edge that finds the input not armed latches nothing. -/
def Obligations.IndexInput : Prop :=
  (∀ (t : Nat) (n : Fin 4) (s : State), s.pageOn (Pg.ENC n.val) = true →
    Completes (.indexArm t n) s fun u => u.encs[n].armed = true) ∧
  (∀ (t : Nat) (n : Fin 4) (s : State), s.pageOn (Pg.ENC n.val) = true → s.encs[n].armed = true →
    Completes (.indexCapture t n) s fun u =>
      u.pair (Pg.ENC n.val) Reg.ENC_INDEX_COUNT_LO Reg.ENC_INDEX_COUNT_HI = s.pair (Pg.ENC n.val) Reg.ENC_COUNT_LO Reg.ENC_COUNT_HI ∧
      u.pair (Pg.ENC n.val) Reg.ENC_INDEX_TIME_LO Reg.ENC_INDEX_TIME_HI = (s.upTo t).fastStamp % 2 ^ 48 ∧
      u.fb (Pg.ENC n.val) Reg.ENC_INDEX_VALID = true ∧ (u.f (Pg.ENC n.val) Reg.EVENT).testBit Ev.ENC_INDEX = true ∧ u.encs[n].armed = false) ∧
  (∀ (t : Nat) (n : Fin 4) (s : State), s.pageOn (Pg.ENC n.val) = true → s.encs[n].armed = false →
    Completes (.indexCapture t n) s fun u =>
      u.pair (Pg.ENC n.val) Reg.ENC_INDEX_COUNT_LO Reg.ENC_INDEX_COUNT_HI = s.pair (Pg.ENC n.val) Reg.ENC_INDEX_COUNT_LO Reg.ENC_INDEX_COUNT_HI ∧
      u.pair (Pg.ENC n.val) Reg.ENC_INDEX_TIME_LO Reg.ENC_INDEX_TIME_HI = s.pair (Pg.ENC n.val) Reg.ENC_INDEX_TIME_LO Reg.ENC_INDEX_TIME_HI ∧
      u.fb (Pg.ENC n.val) Reg.ENC_INDEX_VALID = s.fb (Pg.ENC n.val) Reg.ENC_INDEX_VALID ∧
        u.f (Pg.ENC n.val) Reg.EVENT = s.f (Pg.ENC n.val) Reg.EVENT ∧
      u.encs[n].armed = false)

/-- R314: in lockstep a READ, a WRITE, a WRITE_POSTED or a FENCE on a port of B that the rule does not list is a host error and stops; what the rule
lists is a READ of registers without RC fields, a READ of banks or DRAM, and a write to KNIFE.DISARM or KNIFE.TEST. Outside lockstep a MIRROR KIND 0
is ignored. That a host error STOPS is the model's own choice (log entry 5): R44 calls its result unpredictable and names no stop. -/
def Obligations.TransactionsOfB : Prop :=
  (∀ (t : Nat) (port : Fin 2) (tag : BitVec 16) (addr : BitVec 40) (count : Fin 256) (s : State),
    s.pairState = pairLockstep → s.roleB = true → s.laneUp (hostLane port.val).val = true →
    (s.upTo t).stepHolds (hostLane port.val) = false →
    (s.upTo t).overLimit ⟨port.val, (s.upTo t).now, 0, tag.toNat, addr.toNat, count.val, false, List.replicate (count.val + 1) 0#8⟩ = false →
    addr.toNat < 0x100000 → (∃ k : Nat, k < (count.val + 1) / 4 ∧ accMask ((addr.toNat + 4 * k) / 0x1000) ((addr.toNat + 4 * k) % 0x1000) .rc ≠ 0) →
    Stops (.txnRead t port tag addr count) s (.hostBreach 314)) ∧
  (∀ (t : Nat) (port : Fin 2) (tag : BitVec 16) (addr : BitVec 40) (count : Fin 256) (data : List Byte) (s : State),
    s.pairState = pairLockstep → s.roleB = true → s.laneUp (hostLane port.val).val = true → data.length = count.val + 1 →
    (s.upTo t).stepHolds (hostLane port.val) = false →
    (s.upTo t).overLimit ⟨port.val, (s.upTo t).now, 1, tag.toNat, addr.toNat, count.val, false, data⟩ = false →
    (∃ k : Nat, k < (count.val + 1) / 4 ∧ addr.toNat + 4 * k ≠ regAddr Pg.KNIFE Reg.KNIFE_DISARM_MASK.off ∧
      addr.toNat + 4 * k ≠ regAddr Pg.KNIFE Reg.KNIFE_TEST_MASK.off) →
    Stops (.txnWrite t port tag addr count data) s (.hostBreach 314)) ∧
  (∀ (t : Nat) (port : Fin 2) (tag : BitVec 16) (addr : BitVec 40) (count : Fin 256) (data : List Byte) (s : State),
    s.pairState = pairLockstep → s.roleB = true → s.laneUp (hostLane port.val).val = true → data.length = count.val + 1 →
    (s.upTo t).stepHolds (hostLane port.val) = false →
    (s.upTo t).overLimit ⟨port.val, (s.upTo t).now, 2, tag.toNat, addr.toNat, count.val, false, data⟩ = false →
    (∃ k : Nat, k < (count.val + 1) / 4 ∧ addr.toNat + 4 * k ≠ regAddr Pg.KNIFE Reg.KNIFE_DISARM_MASK.off ∧
      addr.toNat + 4 * k ≠ regAddr Pg.KNIFE Reg.KNIFE_TEST_MASK.off) →
    Stops (.txnWritePosted t port tag addr count data) s (.hostBreach 314)) ∧
  (∀ (t : Nat) (port : Fin 2) (tag : BitVec 16) (cross : Bool) (s : State),
    s.pairState = pairLockstep → s.roleB = true → s.laneUp (hostLane port.val).val = true → (s.upTo t).stepHolds (hostLane port.val) = false →
    (s.upTo t).overLimit ⟨port.val, (s.upTo t).now, 3, tag.toNat, 0, 0, cross, [0#8]⟩ = false →
      Stops (.txnFence t port tag cross) s (.hostBreach 314)) ∧
  (∀ q : Txn, q.op ≤ 3 → (bAccepts q = true ↔
    (q.op = 0 ∧ (0x100000 ≤ q.addr ∨ ∀ k : Nat, k < (q.count + 1) / 4 → accMask ((q.addr + 4 * k) / 0x1000) ((q.addr + 4 * k) % 0x1000) .rc = 0)) ∨
    ((q.op = 1 ∨ q.op = 2) ∧ ∀ k : Nat, k < (q.count + 1) / 4 → q.addr + 4 * k = regAddr Pg.KNIFE Reg.KNIFE_DISARM_MASK.off ∨
      q.addr + 4 * k = regAddr Pg.KNIFE Reg.KNIFE_TEST_MASK.off))) ∧
  (∀ (t : Nat) (arr : BitVec 48) (port : Fin 2) (op : Fin 4) (tag : BitVec 16) (addr : BitVec 40) (count : Fin 256) (cross : Bool)
    (data : List Byte) (s : State), s.pairState ≠ pairLockstep →
    Completes (.mirrorTxnReceive t arr port op tag addr count cross data) s fun u => u.dip = s.dip ∧ SameRegs s u ∧ SameMem s u)

/-- R28, R29, R31, R44, R87: a register read outside the register space, one that is not aligned, one while PD_SYS is off and one of a page whose
domain is off (but for PAGE_ID, PAGE_CAPS and STATE) each stop, each under its own fault; so do a transaction that crosses a 4 KiB boundary and a
write of a reserved bit to DOMAIN_CTRL, and a keyed write to the knife while PD_SYS is off. That each of these host errors STOPS, and under which
fault, is the model's own choice (log entry 5): R44 calls the result of a host error unpredictable and names no stop. -/
def Obligations.HostErrorStops : Prop :=
  (∀ (t addr : Nat) (s : State), 0x100000 ≤ addr → Stops (.registerReadClear t addr) s (.badAddress addr)) ∧
  (∀ (t addr : Nat) (s : State), addr < 0x100000 → addr % 4 ≠ 0 → Stops (.registerReadClear t addr) s (.misaligned addr)) ∧
  (∀ (t addr : Nat) (s : State), addr < 0x100000 → addr % 4 = 0 → s.pwr.sysOn = false → Stops (.registerReadClear t addr) s (.domainOff addr)) ∧
  (∀ (t addr : Nat) (s : State), addr < 0x100000 → addr % 4 = 0 → s.pwr.sysOn = true → s.pageOn (addr / 0x1000) = false →
    addr % 0x1000 ≠ 0x000 → addr % 0x1000 ≠ 0x004 → addr % 0x1000 ≠ 0x00C → Stops (.registerReadClear t addr) s (.domainOff addr)) ∧
  (∀ (t : Nat) (port : Fin 2) (tag : BitVec 16) (addr : BitVec 40) (count : Fin 256) (s : State), s.laneUp (hostLane port.val).val = true →
    s.pairState ≠ pairLockstep → s.waiting port.val = [] →
    (s.upTo t).stepHolds (hostLane port.val) = false →
    (s.upTo t).overLimit ⟨port.val, (s.upTo t).now, 0, tag.toNat, addr.toNat, count.val, false, List.replicate (count.val + 1) 0#8⟩ = false →
    addr.toNat / 0x1000 ≠ (addr.toNat + count.val) / 0x1000 → Stops (.txnRead t port tag addr count) s (.misaligned addr.toNat)) ∧
  (∀ (t : Nat) (v : Word) (s : State), s.pwr.sysOn = true → 2 ^ 9 ≤ v.toNat →
    Stops (.domainCtrlWrite t v) s (.reservedWrite (regAddr Pg.PWR 0x040))) ∧
  (∀ (t key : Nat) (mask : BitVec 16) (s : State), s.pwr.sysOn = false → Stops (.knifeArmSet t key mask) s (.domainOff (regAddr Pg.KNIFE 0x040)))

/-- For every command of Instr.storesNothing, whatever its operands and the state: if it completes, every byte of the banks and of DRAM reads as
before. -/
def Obligations.NothingStored : Prop :=
  ∀ (c : Instr) (s : State), c.storesNothing = true → Ensures c s (SameMem s)

/-- R228: for every axis, feedback, source value, add term and injection, the new r1, vr1, ed1 and df fit int32, x fits int40, the integrator fits
int48 where it did before, and the command lies between -CMD_LIMIT and CMD_LIMIT. While the command is held at its upper limit a positive error does
not move the integrator, and at its lower limit a negative error does not. -/
def Obligations.LawKeepsWidths : Prop :=
  ∀ (s : State) (a : Fin 64) (y rs add injSp injCmd : Int),
    (-(2 ^ 31) ≤ (s.law a y rs add injSp injCmd).x.r1 ∧ (s.law a y rs add injSp injCmd).x.r1 < 2 ^ 31) ∧
    (-(2 ^ 31) ≤ (s.law a y rs add injSp injCmd).x.vr1 ∧ (s.law a y rs add injSp injCmd).x.vr1 < 2 ^ 31) ∧
    (-(2 ^ 31) ≤ (s.law a y rs add injSp injCmd).x.ed1 ∧ (s.law a y rs add injSp injCmd).x.ed1 < 2 ^ 31) ∧
    (-(2 ^ 31) ≤ (s.law a y rs add injSp injCmd).x.df ∧ (s.law a y rs add injSp injCmd).x.df < 2 ^ 31) ∧
    (-(2 ^ 39) ≤ (s.law a y rs add injSp injCmd).x.x ∧ (s.law a y rs add injSp injCmd).x.x < 2 ^ 39) ∧
    (-(2 ^ 47) ≤ s.axes[a].i → s.axes[a].i < 2 ^ 47 →
      -(2 ^ 47) ≤ (s.law a y rs add injSp injCmd).x.i ∧ (s.law a y rs add injSp injCmd).x.i < 2 ^ 47) ∧
    (-(s.f (Pg.AXIS a.val) Reg.AXIS_CMD_LIMIT : Int) ≤ (s.law a y rs add injSp injCmd).x.cmd ∧
      (s.law a y rs add injSp injCmd).x.cmd ≤ (s.f (Pg.AXIS a.val) Reg.AXIS_CMD_LIMIT : Int)) ∧
    (s.axes[a].hi = true → 0 < (s.law a y rs add injSp injCmd).e → (s.law a y rs add injSp injCmd).x.i = s.axes[a].i) ∧
    (s.axes[a].lo = true → (s.law a y rs add injSp injCmd).e < 0 → (s.law a y rs add injSp injCmd).x.i = s.axes[a].i)

/-- R70 to R73: what each stage of bring-up does to a lane whose page is STARTING or ON. A lane being brought up is not a valid candidate (R50), and
a head lane being brought up is not healthy (R98). -/
def Obligations.LaneBringUp : Prop :=
  (∀ (t : Nat) (q : Squelch) (s : State), s.pageOn (lanePage q.lane.val) = true → q.on = false → Completes (.laneActivity t q) s fun u =>
      u.fb (lanePage q.lane.val) Reg.LANE_LANE_STATUS_ACTIVITY = false ∧ u.phase q.lane.val = s.phase q.lane.val) ∧
  (∀ (t : Nat) (q : Squelch) (s : State), q.on = true → s.laneRuns q.lane = true → s.pageOn (lanePage q.lane.val) = true →
    s.phase q.lane.val = phIdle → Completes (.laneActivity t q) s fun u =>
      u.phase q.lane.val = phAcquire ∧ u.fb (lanePage q.lane.val) Reg.LANE_LANE_STATUS_ACTIVITY = true ∧ u.lanes[q.lane].attemptAt = (s.upTo t).now) ∧
  (∀ (t : Nat) (l : Fin 20) (s : State), s.laneRuns l = true → s.phase l = phAcquire → (l.val < 4 → s.candValid l.val = false) →
    Completes (.cdrLock t l) s fun u =>
      u.phase l = phAlign ∧ u.fb (lanePage l) Reg.LANE_LANE_STATUS_CDR_LOCK = true) ∧
  (∀ (t : Nat) (l : Fin 20) (a : Nat) (s : State), s.laneRuns l = true → (1 ≤ s.phase l ∧ s.phase l ≤ 3) → s.lanes[l].patternAt = some a →
    (s.upTo t).elapsed a 256000 = true → Completes (.clockPatternEnd t l) s fun u =>
      u.lanes[l].patternDone = true) ∧
  (∀ (t : Nat) (l : Fin 20) (s : State), s.laneRuns l = true → 8 ≤ s.lanes[l].good → s.fb (lanePage l) Reg.LANE_LANE_STATUS_FRAME_LOCK = false →
    s.phase l = phAlign → (l.val < 4 → s.candValid l.val = false) → (4 ≤ l.val → (s.heads[l.val - 4]).healthy = false) →
    Completes (.frameLock t l) s fun u =>
      u.phase l = phCapx ∧ u.fb (lanePage l) Reg.LANE_LANE_STATUS_FRAME_LOCK = true) ∧
  (∀ (t : Nat) (l : Fin 20) (w0 : Nat) (w1 : Nat) (w2 : Nat) (w3 : Nat) (s : State), s.laneRuns l = true → capValid w0 = true → s.phase l = phCapx →
    w0.testBit 0 = true → s.lanes[l].capAt.isSome = true → (l.val < 4 → s.candValid l.val = false) → (4 ≤ l.val →
    (s.heads[l.val - 4]).healthy = false) → Completes (.capReceive t l w0 w1 w2 w3) s fun u =>
      u.phase l = phUp ∧ u.st (lanePage l) = stOn ∧ u.f (lanePage l) Reg.LANE_LANE_STATUS_PARTNER_RATES = bits w0 16 4 ∧ u.lanes[l].retries = 0) ∧
  (∀ (t : Nat) (l : Fin 20) (s : State), s.laneRuns l = true → (1 ≤ s.phase l ∧ s.phase l ≤ 3) →
    (s.upTo t).elapsed s.lanes[l].phaseAt (phaseLimit (s.phase l)) = true → (s.f (lanePage l) Reg.LANE_LANE_CTRL_BRINGUP_RETRIES = 0 ∨
    s.lanes[l].retries + 1 < s.f (lanePage l) Reg.LANE_LANE_CTRL_BRINGUP_RETRIES) → s.fb (lanePage l) Reg.LANE_STEP_STATUS_BUSY = false → (l.val < 4 →
    s.candValid l.val = false) → (4 ≤ l.val → (s.heads[l.val - 4]).healthy = false) → Completes (.bringupPhaseTimeout t l) s fun u =>
      u.lanes[l].retries = s.lanes[l].retries + 1 ∧ u.phase l = (if s.fb (lanePage l) Reg.LANE_LANE_STATUS_ACTIVITY then phAcquire else phIdle) ∧
        u.f (lanePage l) Reg.LANE_LANE_STATUS_RATE = 0 ∧
        u.f (lanePage l) Reg.LANE_BRINGUP_FAILS = satU (s.f (lanePage l) Reg.LANE_BRINGUP_FAILS + 1) Reg.LANE_BRINGUP_FAILS.width) ∧
  (∀ (t : Nat) (l : Fin 20) (cause : Fin 3) (activity : Bool) (s : State), s.laneRuns l = true →
    s.fb (lanePage l) Reg.LANE_LANE_STATUS_FRAME_LOCK = true → (s.upTo t).lockLost l cause = true → s.phase l ≠ phUp →
    Completes (.frameLockLoss t l cause activity) s fun u =>
      u.fb (lanePage l) Reg.LANE_LANE_STATUS_FRAME_LOCK = false ∧ u.fb (lanePage l) Reg.LANE_LANE_STATUS_ACTIVITY = activity ∧ u.lanes[l].good = 0) ∧
  (∀ (t : Nat) (l : Fin 20) (cause : Fin 3) (activity : Bool) (s : State), s.laneRuns l = true →
    s.fb (lanePage l) Reg.LANE_LANE_STATUS_CDR_LOCK = true → cause.val = 2 → (s.upTo t).lockLost l cause = true → s.phase l ≠ phUp →
    Completes (.frameLockLoss t l cause activity) s fun u =>
      u.fb (lanePage l) Reg.LANE_LANE_STATUS_CDR_LOCK = false ∧ u.fb (lanePage l) Reg.LANE_LANE_STATUS_FRAME_LOCK = false ∧
        u.fb (lanePage l) Reg.LANE_LANE_STATUS_ACTIVITY = activity) ∧
  (∀ (t : Nat) (l : Fin 4) (s : State), s.pwr.linkOn = true → s.clk.locked = true → halfLe s.lanes[l].endAt (2 * (s.upTo t).now) = true →
    s.loopTimed (Pg.LINK l) = false → Completes (.txTimingSwitch t l) s fun u =>
      u.fb (Pg.LINK l) Reg.LANE_LANE_STATUS_TX_LOOP_TIMED = false) ∧
  (∀ (t : Nat) (l : Fin 20) (cause : Fin 3) (activity : Bool) (s : State), s.laneRuns l = true →
    s.fb (lanePage l) Reg.LANE_LANE_STATUS_FRAME_LOCK = true → (s.upTo t).lockLost l cause = true → s.phase l = phUp → (l.val < 4 →
    s.candValid l.val = false) → Completes (.frameLockLoss t l cause activity) s fun u =>
      u.phase l = (if activity then phAcquire else phIdle) ∧ u.f (lanePage l) Reg.LANE_LANE_STATUS_RATE = 0 ∧
        u.f (lanePage l) Reg.LANE_LOCK_LOSSES = satU (s.f (lanePage l) Reg.LANE_LOCK_LOSSES + 1) 16)

/-- R70, R71, R82, R83, R118: a frame leaves when the line is free for it, and an accepted frame counts towards frame lock. The clause of a frame
whose HCRC fails, which searches the gap with its first bit expected 1 and counts GAP_ERRORS so, is the model's choice (log entry 18). -/
def Obligations.LaneFrames : Prop :=
  (∀ (t : Nat) (l : Fin 20) (s : State), s.laneRuns l = true → s.phase l = phCapx → s.lanes[l].patternDone = true → s.lanes[l].capAt = none →
    (s.upTo t).mayStart l ⟨1, (s.upTo t).nextSeq l 1, 0, (s.upTo t).capPayload l 0 0 0⟩ = true → Completes (.capSend t l) s fun u =>
      u.lanes[l].capAt = some (s.upTo t).now ∧ u.lanes[l].tx.map (·.2.ty) = some 1 ∧ u.lanes[l].txSeq = s.lanes[l].txSeq) ∧
  (∀ (t : Nat) (l : Fin 20) (s : State), s.laneRuns l = true → (1 ≤ s.phase l ∧ s.phase l ≤ 5) → (4 ≤ s.phase l ∨ s.lanes[l].patternDone = true) →
    (s.phase l = phUp → (s.upTo t).lineQuiet l = true) →
    (s.upTo t).mayStart l ⟨0, (s.upTo t).nextSeq l 0, 0, if l.val < 2 then leBytes 4 (s.f (lanePage l) Reg.FRAME_FRAME_STATUS_POSTED_DONE) else []⟩ = true →
    Completes (.idleSend t l) s fun u =>
      u.lanes[l].tx.map (·.2.ty) = some 0 ∧ u.lanes[l].txSeq = s.lanes[l].txSeq) ∧
  (∀ (t : Nat) (l : Fin 20) (fill : List Bool) (delim : List Bool) (hdr : List Bool) (hcrc : List Bool) (payload : List Bool) (pcrc : List Bool) (errs more : Nat) (rest : List Bool) (f : RxFrame) (s : State), s.laneRuns l = true →
    (2 ≤ s.phase l ∧ s.phase l ≤ 5) →
    gapSearch s.lanes[l].gapPrev (if s.fb (lanePage l) Reg.LANE_LANE_CTRL_RX_INVERT then (fill ++ delim ++ hdr ++ hcrc ++ payload ++ pcrc).map (!·) else (fill ++ delim ++ hdr ++ hcrc ++ payload ++ pcrc)) = (errs, some rest) →
    f = readFrame rest → gapSearch false (f.left rest) = (more, none) → f.hcrc = crc32 (leBytes 4 f.hdr) → s.typeAllowed l (bits f.hdr 0 8) = true →
    lenAllowed l (bits f.hdr 0 8) (bits f.hdr 12 12) = true → (bits f.hdr 12 12 = 0 ∨ f.pcrc = crc32 f.payload) → f.stuffErrs = 0 →
    Completes (.frameReceive t l fill delim hdr hcrc payload pcrc) s fun u =>
      u.lanes[l].good = s.lanes[l].good + 1 ∧ u.lanes[l].bad = 0 ∧ (2 ≤ bits f.hdr 0 8 → u.lanes[l].rxSeq = bits f.hdr 24 8) ∧ (l.val < 4 →
        u.f (lanePage l) Reg.FRAME_FRAME_STATUS_RX_SEQ = bits f.hdr 24 8) ∧
        u.f (lanePage l) Reg.LANE_GAP_ERRORS = satU (s.f (lanePage l) Reg.LANE_GAP_ERRORS + errs + more) Reg.LANE_GAP_ERRORS.width) ∧
  (∀ (t : Nat) (l : Fin 20) (fill : List Bool) (delim : List Bool) (hdr : List Bool) (hcrc : List Bool) (payload : List Bool) (pcrc : List Bool) (errs more : Nat) (rest : List Bool) (s : State), s.laneRuns l = true →
    (2 ≤ s.phase l ∧ s.phase l ≤ 5) →
    gapSearch s.lanes[l].gapPrev (if s.fb (lanePage l) Reg.LANE_LANE_CTRL_RX_INVERT then (fill ++ delim ++ hdr ++ hcrc ++ payload ++ pcrc).map (!·) else (fill ++ delim ++ hdr ++ hcrc ++ payload ++ pcrc)) = (errs, some rest) →
    (readFrame rest).hcrc ≠ crc32 (leBytes 4 (readFrame rest).hdr) → gapSearch false ((readFrame rest).left rest) = (more, none) →
    Completes (.frameReceive t l fill delim hdr hcrc payload pcrc) s fun u =>
      u.lanes[l].good = 0 ∧ u.lanes[l].bad = s.lanes[l].bad + 1 ∧
        u.f (lanePage l) Reg.LANE_GAP_ERRORS = satU (s.f (lanePage l) Reg.LANE_GAP_ERRORS + errs + more) Reg.LANE_GAP_ERRORS.width) ∧
  (∀ (t : Nat) (l : Fin 20) (e : LaunchEntry) (rest : List LaunchEntry) (s : State), s.live t → s.laneUp l = true →
    (s.lanes[l].launches = e :: rest) → e.tick = t → e.late = false → t % 4 = 0 → (s.upTo t).lineFree l t = true →
    (s.upTo t).stepClear l ⟨e.ty, (s.upTo t).nextSeq l e.ty, 0, stampPayload e.ty t e.payload⟩ t = true → Completes (.launch t l) s fun u =>
      u.lanes[l].launches = rest ∧ u.lanes[l].tx.map (·.1) = some t ∧ u.lanes[l].tx.map (·.2.payload) = some (stampPayload e.ty t e.payload)) ∧
  (∀ (t : Nat) (port : Fin 2) (c : Cpl) (s : State), s.laneUp (hostLane port.val).val = true → (s.upTo t).nextCpl (hostLane port.val) = some c →
    (s.upTo t).mayStart (hostLane port.val) ⟨3, (s.upTo t).nextSeq (hostLane port.val) 3, 0, c.payload (s.f (lanePage (hostLane port.val)) Reg.FRAME_FRAME_STATUS_POSTED_DONE)⟩ = true →
    Completes (.cplSend t port) s fun u =>
      u.lanes[(hostLane port.val)].cpls = s.lanes[(hostLane port.val)].cpls.erase c ∧
        (u.lanes[(hostLane port.val)].tx.map fun q => (q.2.ty, q.2.payload)) = some (3, c.payload (s.f (lanePage (hostLane port.val)) Reg.FRAME_FRAME_STATUS_POSTED_DONE)) ∧
        u.f (lanePage (hostLane port.val)) Reg.FRAME_CPL_SENT = satU (s.f (lanePage (hostLane port.val)) Reg.FRAME_CPL_SENT + 1) Reg.FRAME_CPL_SENT.width ∧
        (s.f (lanePage (hostLane port.val)) Reg.FRAME_FRAME_STATUS_OUTSTANDING ≠ 0 →
        u.f (lanePage (hostLane port.val)) Reg.FRAME_FRAME_STATUS_OUTSTANDING + 1 = s.f (lanePage (hostLane port.val)) Reg.FRAME_FRAME_STATUS_OUTSTANDING))

/-- R74, R75: an accepted request waits for its tick, a missing acknowledgement cancels it, the lane falls quiet, changes rate at T_s, and falls
back where it does not relock. That RESULT becomes 0 as a request is accepted is the model's choice (log entry 74). -/
def Obligations.RateSteps : Prop :=
  (∀ (t : Nat) (l : Fin 20) (rate : Fin 4) (s : State), s.laneUp l = true →
    (if s.laneRate l ≤ rate.val then rate.val - s.laneRate l else s.laneRate l - rate.val) ≤ 1 →
    (if l.val < 4 then 0xF else 0x7 : Nat).testBit rate = true → (s.f (lanePage l) Reg.LANE_LANE_STATUS_PARTNER_RATES).testBit rate = true →
    rate.val ≤ s.f (lanePage l) Reg.LANE_LANE_CTRL_MAX_RATE →
    640000 ≤ sdiff48 (near48 (s.upTo t).now (s.actPair (lanePage l) Reg.LANE_STEP_AT_LO Reg.LANE_STEP_AT_HI) : Nat) ((s.upTo t).now : Nat) →
    s.fb (lanePage l) Reg.LANE_STEP_STATUS_BUSY = false → s.f (lanePage l) Reg.LANE_LOOP_CTRL_MODE = 0 → s.headAxesOff l = true →
    Completes (.stepCtrlGo t l rate) s fun u =>
      u.fb (lanePage l) Reg.LANE_STEP_STATUS_BUSY = true ∧ u.f (lanePage l) Reg.LANE_STEP_STATUS_RESULT = 0 ∧
        u.lanes[l].step = some { rate := rate, tick := near48 (s.upTo t).now (s.actPair (lanePage l) Reg.LANE_STEP_AT_LO Reg.LANE_STEP_AT_HI) }) ∧
  (∀ (t : Nat) (l : Fin 20) (st : RateStep) (s : State), s.lanes[l].step = some st → st.acked = false →
    (s.upTo t).past ((st.tick : Int) - 64000) = true → Completes (.stepAckDeadline t l) s fun u =>
      u.lanes[l].step = none ∧ u.f (lanePage l) Reg.LANE_STEP_STATUS_RESULT = 5 ∧ u.fb (lanePage l) Reg.LANE_STEP_STATUS_BUSY = false) ∧
  (∀ (t : Nat) (l : Fin 20) (st : RateStep) (s : State), s.lanes[l].step = some st → st.acked = true →
    (s.upTo t).past ((st.tick : Int) - 12800) = true → Completes (.stepQuiesce t l) s fun u =>
      u.lanes[l].step = some { st with quiet := true }) ∧
  (∀ (t : Nat) (l : Fin 20) (st : RateStep) (s : State), s.lanes[l].step = some st → st.acked = true → st.launched = false →
    (s.upTo t).past st.tick = true → s.laneUp l = true → Completes (.stepLaunch t l) s fun u =>
      u.phase l = phStep ∧ u.f (lanePage l) Reg.LANE_LANE_STATUS_RATE = st.rate % 4 ∧ u.fb (lanePage l) Reg.LANE_LANE_STATUS_FRAME_LOCK = false ∧
        u.lanes[l].step = some { st with launched := true }) ∧
  (∀ (t : Nat) (l : Fin 20) (st : RateStep) (s : State), s.lanes[l].step = some st → s.pageOn (lanePage l) = true → s.phase l = phStep →
    (s.upTo t).past (st.tick + 102400) = true → (l.val < 4 → s.candValid l.val = false) → Completes (.stepRelockTimeout t l) s fun u =>
      u.phase l = (if s.fb (lanePage l) Reg.LANE_LANE_STATUS_ACTIVITY then phAcquire else phIdle) ∧ u.f (lanePage l) Reg.LANE_LANE_STATUS_RATE = 0 ∧
        u.lanes[l].step = none)

/-- R77, R78: LOOP_CTRL and LOOP_CMD, and what the checker counts. That a write of LOOP_CTRL outside OFF leaves MODE and takes the other fields,
which bit INJECT inverts, and when SYNC of PRBS_STATUS goes to 0 are the model's choices (log entry 74). -/
def Obligations.LaneLoops : Prop :=
  (∀ (t : Nat) (l : Fin 20) (v : Word) (s : State), s.pageOn (lanePage l) = true → v.toNat / 2 ^ 11 = 0 → v.toNat.testBit 3 = false →
    fldOf v Reg.LANE_LOOP_CTRL_MODE < 5 → fldOf v Reg.LANE_LOOP_CTRL_PATTERN ≠ 3 → Completes (.loopCtrlWrite t l v) s fun u =>
      u.f (lanePage l) Reg.LANE_LOOP_CTRL_GEN_EN = fldOf v Reg.LANE_LOOP_CTRL_GEN_EN ∧
        u.f (lanePage l) Reg.LANE_LOOP_CTRL_CHK_EN = fldOf v Reg.LANE_LOOP_CTRL_CHK_EN ∧
        u.lanes[l].gen.isSome = decide (fldOf v Reg.LANE_LOOP_CTRL_GEN_EN ≠ 0) ∧
        u.f (lanePage l) Reg.LANE_LOOP_CTRL_MODE = (if s.st (lanePage l) = stOff then fldOf v Reg.LANE_LOOP_CTRL_MODE else s.f (lanePage l) Reg.LANE_LOOP_CTRL_MODE)) ∧
  (∀ (t : Nat) (l : Fin 20) (g : PatternGen) (s : State), s.pageOn (lanePage l) = true → s.lanes[l].gen = some g →
    Completes (.loopInject t l) s fun u =>
      u.lanes[l].gen.map (fun h => h.bit (s.f (lanePage l) Reg.LANE_LOOP_CTRL_PATTERN) ((s.upTo t).genSent l g)) = some (!g.bit (s.f (lanePage l) Reg.LANE_LOOP_CTRL_PATTERN) ((s.upTo t).genSent l g)) ∧
        (s.loopedBack l = false → u.f (lanePage l) Reg.LANE_PRBS_ERRORS = s.f (lanePage l) Reg.LANE_PRBS_ERRORS)) ∧
  (∀ (t : Nat) (l : Fin 20) (g : PatternGen) (s : State), s.pageOn (lanePage l) = true → s.lanes[l].gen = some g → s.loopedBack l = true →
    s.prbsLocked l = true → Completes (.loopInject t l) s fun u =>
      u.f (lanePage l) Reg.LANE_PRBS_ERRORS = satU (s.f (lanePage l) Reg.LANE_PRBS_ERRORS + 1) 32) ∧
  (∀ (t : Nat) (l : Fin 20) (s : State), s.pageOn (lanePage l) = true → Completes (.loopClear t l) s fun u =>
      u.f (lanePage l) Reg.LANE_PRBS_ERRORS = 0 ∧ u.pair (lanePage l) Reg.LANE_PRBS_BITS_LO Reg.LANE_PRBS_BITS_HI = 0 ∧
        u.f (lanePage l) Reg.LANE_FRAME_DISCARDS = 0 ∧ u.f (lanePage l) Reg.LANE_LOCK_LOSSES = 0 ∧ (4 ≤ l.val →
        u.f (lanePage l) Reg.HEAD_DN_SENT = 0) ∧ (l.val < 4 → u.f (lanePage l) Reg.FRAME_SEQ_GAPS = 0)) ∧
  (∀ (t : Nat) (r : LaneBits) (s : State), s.pageOn (lanePage r.lane.val) = true → s.fb (lanePage r.lane.val) Reg.LANE_LOOP_CTRL_CHK_EN = true →
    s.fb (lanePage r.lane.val) Reg.LANE_PRBS_STATUS = false →
    prbsInSync (s.f (lanePage r.lane.val) Reg.LANE_LOOP_CTRL_PATTERN) ((s.upTo t).checkBits r.lane r.line) = true →
    Completes (.prbsSyncGain t r) s fun u =>
      u.fb (lanePage r.lane.val) Reg.LANE_PRBS_STATUS = true ∧ u.lanes[r.lane].prbsAt = (s.upTo t).now) ∧
  (∀ (t : Nat) (l : Fin 20) (s : State), s.prbsLocked l = true → s.prbsSwamped l = true → Completes (.prbsSyncLoss t l) s fun u =>
      u.fb (lanePage l) Reg.LANE_PRBS_STATUS = false ∧
        u.pair (lanePage l) Reg.LANE_PRBS_BITS_LO Reg.LANE_PRBS_BITS_HI = satU (s.pair (lanePage l) Reg.LANE_PRBS_BITS_LO Reg.LANE_PRBS_BITS_HI + ahead s.lanes[l].prbsAt (s.upTo t).now * 2 ^ s.laneRate l / 4) 64) ∧
  (∀ (t : Nat) (r : LaneBit) (s : State), s.prbsLocked r.lane = true → s.loopedBack r.lane = false →
    s.rxBits r.lane [r.bit] ≠ [((s.upTo t).prbsCount r.lane).expectedBit r.lane] → Completes (.prbsBitError t r) s fun u =>
      u.f (lanePage r.lane.val) Reg.LANE_PRBS_ERRORS = satU (s.f (lanePage r.lane.val) Reg.LANE_PRBS_ERRORS + 1) 32 ∧
        u.lanes[r.lane].prbsFirst = false ∧
        u.pair (lanePage r.lane.val) Reg.LANE_PRBS_BITS_LO Reg.LANE_PRBS_BITS_HI = satU (s.pair (lanePage r.lane.val) Reg.LANE_PRBS_BITS_LO Reg.LANE_PRBS_BITS_HI + ahead s.lanes[r.lane].prbsAt (s.upTo t).now * 2 ^ s.laneRate r.lane / 4) 64) ∧
  (∀ (t : Nat) (r : LaneBit) (s : State), s.prbsLocked r.lane = true → s.loopedBack r.lane = true →
    (s.upTo t).latestBit r.lane r.bit ≠ ((s.upTo t).prbsCount r.lane).expectedBit r.lane → Completes (.prbsBitError t r) s fun u =>
      u.f (lanePage r.lane.val) Reg.LANE_PRBS_ERRORS = satU (s.f (lanePage r.lane.val) Reg.LANE_PRBS_ERRORS + 1) 32 ∧
        u.lanes[r.lane].prbsFirst = false ∧
        u.pair (lanePage r.lane.val) Reg.LANE_PRBS_BITS_LO Reg.LANE_PRBS_BITS_HI = satU (s.pair (lanePage r.lane.val) Reg.LANE_PRBS_BITS_LO Reg.LANE_PRBS_BITS_HI + ahead s.lanes[r.lane].prbsAt (s.upTo t).now * 2 ^ s.laneRate r.lane / 4) 64)

/-- R50 to R53, R55, R59: how candidates come and go, what a hold does, and how coasting and SAFE-HOLD end. -/
def Obligations.References : Prop :=
  (∀ (t : Nat) (c : Fin 4) (s : State), s.pwr.linkOn = true → s.candEdges c.val = true → s.candValid c.val = false →
    Completes (.missingEdge t c) s fun u =>
      u.candEdges c.val = false ∧ u.f Pg.CLK (Reg.CLK_REF_OFFSET.num c.val) = 0x8000) ∧
  (∀ (t : Nat) (c : Fin 4) (d : Nat) (s : State), s.pwr.linkOn = true → s.clk.locked = true → s.candEdges c.val = true → s.candValid c.val = true →
    s.coasting = false → s.selected = c.val → s.fb Pg.CLK Reg.CLK_STATUS_HOLD = false → (s.setValid c.val false).firstValid = some d →
    Completes (.missingEdge t c) s fun u =>
      u.fb Pg.CLK Reg.CLK_STATUS_HOLD = true ∧ u.f Pg.CLK Reg.CLK_STATUS_HOLD_CAUSE = 2 ∧ u.selected = d ∧ u.candValid c.val = false ∧
        u.clk.holdStart = (s.upTo t).now) ∧
  (∀ (t : Nat) (o0 : Int) (o1 : Int) (o2 : Int) (o3 : Int) (s : State), s.clk.locked = true → (∀ c : Fin 4, s.candValid c.val = false) →
    Completes (.freqWindowEnd t o0 o1 o2 o3) s fun u =>
      (s.isOn (Pg.LINK 0) = true → s.candEdges 0 = true → u.fi Pg.CLK (Reg.CLK_REF_OFFSET.num 0) = clampI o0 (-32767) 32767) ∧
        (s.isOn (Pg.LINK 1) = true → s.candEdges 1 = true → u.fi Pg.CLK (Reg.CLK_REF_OFFSET.num 1) = clampI o1 (-32767) 32767) ∧
        (s.isOn (Pg.LINK 2) = true → s.candEdges 2 = true → u.fi Pg.CLK (Reg.CLK_REF_OFFSET.num 2) = clampI o2 (-32767) 32767) ∧
        (s.isOn (Pg.LINK 3) = true → s.candEdges 3 = true → u.fi Pg.CLK (Reg.CLK_REF_OFFSET.num 3) = clampI o3 (-32767) 32767)) ∧
  (∀ (t : Nat) (c : Fin 4) (since : Nat) (s : State), s.clk.qualSince[c] = some since → (s.upTo t).candFit c = true → s.candValid c.val = false →
    (s.upTo t).elapsed since (2 ^ s.f Pg.CLK Reg.CLK_REF_CTRL_QUAL * 102400) = true → s.coasting = false →
    s.fb Pg.CLK Reg.CLK_REF_CTRL_REVERT = false → Completes (.candidateQualified t c) s fun u =>
      u.candValid c.val = true ∧ u.selected = s.selected) ∧
  (∀ (t : Nat) (s : State), s.fb Pg.CLK Reg.CLK_STATUS_HOLD = true → (s.upTo t).elapsed s.clk.holdStart 16384 = true →
    (s.upTo t).within s.clk.holdStart 128000 = true → Completes (.holdLock t) s fun u =>
      u.fb Pg.CLK Reg.CLK_STATUS_HOLD = false ∧ u.fb Pg.CLK Reg.CLK_STATUS_LOCKED = true ∧ u.f Pg.CLK Reg.CLK_STATUS_HOLD_CAUSE = 0 ∧
        u.f Pg.CLK Reg.CLK_COUNTS_SWITCH_COUNT = (if s.selected = s.clk.prevSel then s.f Pg.CLK Reg.CLK_COUNTS_SWITCH_COUNT else satU (s.f Pg.CLK Reg.CLK_COUNTS_SWITCH_COUNT + 1) Reg.CLK_COUNTS_SWITCH_COUNT.width)) ∧
  (∀ (t : Nat) (c : Fin 4) (d : Nat) (s : State), s.fb Pg.CLK Reg.CLK_STATUS_HOLD = true → (s.upTo t).elapsed s.clk.holdStart 128000 = true →
    s.selected = c.val → (s.setValid c.val false).firstValid = some d → Completes (.holdExpired t) s fun u =>
      u.selected = d ∧ u.candValid c.val = false ∧ u.fb Pg.CLK Reg.CLK_STATUS_HOLD = true ∧ u.clk.holdStart = (s.upTo t).now) ∧
  (∀ (t : Nat) (ok : Bool) (d : Nat) (s : State), s.coasting = true → s.clk.exiting = true → s.firstValid = some d → ok = true →
    Completes (.coastExitLock t ok) s fun u =>
      u.coasting = false ∧ u.fb Pg.CLK Reg.CLK_STATUS_LOCKED = true ∧ u.selected = d ∧ u.clk.exiting = false) ∧
  (∀ (t : Nat) (s : State), s.pwr.sysOn = true → s.fb Pg.CLK Reg.CLK_STATUS_SAFE_HOLD = true → s.coasting = false →
    Completes (.safeHoldClear t) s fun u =>
      u.fb Pg.CLK Reg.CLK_STATUS_SAFE_HOLD = false ∧ u.fb Pg.CLK Reg.CLK_STATUS_FORCED = false ∧ u.pwr.clockForce = false ∧
        u.pwr.dev = (if s.pwr.dev = .safeHold then .linked else s.pwr.dev))

/-- R60, R62: a measurement starts with the selection in force, and ends with a count or with TIMEOUT. -/
def Obligations.FrequencyMeter : Prop :=
  (∀ (t : Nat) (s : State), s.pwr.sysOn = true → Completes (.fmeasStart t) s fun u =>
      u.fb Pg.CLK Reg.CLK_FMEAS_STATUS_BUSY = true ∧ u.fb Pg.CLK Reg.CLK_FMEAS_STATUS_DONE = false ∧
        u.clk.fmeas.map (fun m => (m.src, m.inst, m.dir, m.gate, m.start, m.gone)) = some (s.f Pg.CLK Reg.CLK_FMEAS_CTRL_SRC, s.f Pg.CLK Reg.CLK_FMEAS_CTRL_INST, s.f Pg.CLK Reg.CLK_FMEAS_CTRL_DIR, s.f Pg.CLK Reg.CLK_FMEAS_CTRL_GATE, (s.upTo t).now, false) ∧
        (s.f Pg.CLK Reg.CLK_FMEAS_CTRL_SRC ≠ 18 → s.f Pg.CLK Reg.CLK_FMEAS_CTRL_SRC ≠ 19 → u.clk.fmeas.map (·.edges) = some 0)) ∧
  (∀ (t : Nat) (n : Nat) (m : Fmeas) (k : Nat) (s : State), s.clk.fmeas = some m → m.reading (s.f Pg.NV Reg.NV_NV_CFG_SCK) n = some k →
    s.fmeasRuns m = true → (if m.dir = 0 then 2 ^ m.gate else k) ≤ 2 ^ 32 → (s.upTo t).fmeasPast m (if m.dir = 0 then 2 ^ m.gate else k) = true →
    Completes (.fmeasDone t n) s fun u =>
      u.fb Pg.CLK Reg.CLK_FMEAS_STATUS_BUSY = false ∧ u.fb Pg.CLK Reg.CLK_FMEAS_STATUS_DONE = true ∧ u.f Pg.CLK Reg.CLK_FMEAS_COUNT = satU k 32 ∧
        u.clk.fmeas = none) ∧
  (∀ (t : Nat) (m : Fmeas) (s : State), s.clk.fmeas = some m → (s.upTo t).fmeasPast m (2 ^ 32) = true → Completes (.fmeasTimeout t) s fun u =>
      u.fb Pg.CLK Reg.CLK_FMEAS_STATUS_BUSY = false ∧ u.fb Pg.CLK Reg.CLK_FMEAS_STATUS_TIMEOUT = true ∧ u.clk.fmeas = none)

/-- R107, R108, R110, R112, R115, R117: what each time frame and each limit of the protocol changes. That the first SYNC sets the master is the
model's choice (log entry 21), and so is that a DLY_REQ leaves in the frames whose number is a multiple of 2^INTERVAL (log entry 84); of a SYNC R117
says so itself. -/
def Obligations.NetworkTime : Prop :=
  (∀ (t : Nat) (port : Fin 4) (origin : Nat) (corr : Int) (seqId : Nat) (masterId : Nat) (interval : Int) (s : State), s.timeEn = true →
    s.portUp port.val = true → (s.time.master = none ∨ s.time.master = some masterId) →
    Completes (.syncReceive t port origin corr seqId masterId interval) s fun u =>
      u.time.ports[port].sync = some ⟨origin, corr, t, masterId, interval⟩ ∧ u.time.master = some masterId) ∧
  (∀ (t : Nat) (port : Fin 4) (origin : Nat) (corr : Int) (seqId : Nat) (masterId : Nat) (interval : Int) (m : Nat) (s : State), s.timeEn = true →
    s.portUp port.val = true → s.time.master = some m → m ≠ masterId →
    (if s.time.ports[port].newId = masterId then s.time.ports[port].newRun + 1 else 1) < s.f Pg.TIME Reg.TIME_MODE_CTRL_QUAL →
    Completes (.syncReceive t port origin corr seqId masterId interval) s fun u =>
      u.time.master = some m ∧ u.f Pg.TIME Reg.TIME_SYNC_DISCARDED = satU (s.f Pg.TIME Reg.TIME_SYNC_DISCARDED + 1) Reg.TIME_SYNC_DISCARDED.width ∧
        u.time.ports[port].newId = masterId ∧ u.time.ports[port].sync = s.time.ports[port].sync) ∧
  (∀ (t : Nat) (s : State), s.timeEn = true → (∀ p ∈ s.portPrio, (s.upTo t).portFresh p = false) → (s.tstate = 1 ∨ s.tstate = 2) →
    s.time.master.isSome = true → Completes (.syncLoss t) s fun u =>
      u.timePort = 7 ∧ u.tstate = 3 ∧ u.time.integ = s.fi Pg.TIME Reg.TIME_RATE ∧
        u.f Pg.TIME Reg.TIME_HOLDOVERS = satU (s.f Pg.TIME Reg.TIME_HOLDOVERS + 1) Reg.TIME_HOLDOVERS.width) ∧
  (∀ (n : Nat) (port : Fin 4) (r : SyncRec) (s : State), s.live (t0 n + 4000) → s.timeEn = true → n % 2 ^ s.f Pg.TIME Reg.TIME_DLY_CTRL_INTERVAL = 0 →
    s.portPrio.eraseDups = [port] → s.portUp port.val = true → s.time.ports[port].sync = some r → s.time.master = some r.master →
    s.lanes[port.val].launches = [] → s.lanes[port.val].step = none → s.lineFree (port.castLE (by decide)) (t0 n + 4000) = true →
    Completes (.dlyReqLaunch n) s fun u =>
      u.time.reqCount = (s.time.reqCount + 1) % 4096 ∧
        u.time.ports[port].reqs = s.time.ports[port].reqs ++ [⟨s.shortId * 4096 + s.time.reqCount % 4096, t0 n + 4000, r⟩]) ∧
  (∀ (t : Nat) (port : Fin 4) (txTime : Nat) (seqId : Nat) (senderId : Nat) (k : Fin 16) (s : State), s.timeEn = true → s.portUp port.val = true →
    k.val = seqId / 4096 % 16 → s.fwdPorts.contains port = true → s.timePort < 4 → s.timePort ≠ port.val →
    Completes (.dlyReqReceive t port txTime seqId senderId) s fun u =>
      u.time.routes[k] = some port.val ∧
        u.time.forwards = s.time.forwards ++ [⟨s.timePort, 6, t, leBytes 8 txTime ++ leBytes 2 senderId ++ leBytes 2 seqId⟩]) ∧
  (∀ (t : Nat) (port : Fin 4) (txTime : Nat) (seqId : Nat) (senderId : Nat) (s : State), s.timeEn = true → s.portUp port.val = true →
    s.fwdPorts.contains port = false → s.timeMode = 2 → (s.f Pg.TIME Reg.TIME_MASTER_CTRL_TX_MASK).testBit port.val = true →
    Completes (.dlyReqReceive t port txTime seqId senderId) s fun u =>
      u.time.forwards = s.time.forwards ++ [⟨port.val, 7, t, leBytes 8 t ++ leBytes 8 txTime ++ leBytes 2 (s.f Pg.TIME Reg.TIME_IDENTITY) ++ leBytes 2 seqId⟩]) ∧
  (∀ (t : Nat) (port : Fin 4) (reqRx : Nat) (reqCorr : Nat) (seqId : Nat) (responder : Nat) (q : DlyReq) (s : State), s.timeEn = true →
    s.portUp port.val = true → seqId / 4096 % 16 = s.shortId → (s.time.ports[port].reqs.find? fun q => q.seqId == seqId) = some q →
    Completes (.dlyRspReceive t port reqRx reqCorr seqId responder) s fun u =>
      u.time.ports[port].delayValid = true ∧
        u.time.ports[port].delay = (if s.time.ports[port].delayValid then wrapS 64 (s.time.ports[port].delay + rnd (wrapS 64 (rnd (wrapS 64 (sdiff48 (q.paired.rx : Nat) (q.paired.origin : Nat) * 2 ^ 16 - q.paired.corr) + wrapS 64 (sdiff48 (reqRx : Nat) (reqCorr : Nat) * 2 ^ 16)) 1) - s.time.ports[port].delay) (s.f Pg.TIME Reg.TIME_DLY_CTRL_FILT)) else wrapS 64 (rnd (wrapS 64 (sdiff48 (q.paired.rx : Nat) (q.paired.origin : Nat) * 2 ^ 16 - q.paired.corr) + wrapS 64 (sdiff48 (reqRx : Nat) (reqCorr : Nat) * 2 ^ 16)) 1)) ∧
        u.time.ports[port].reqs = s.time.ports[port].reqs.filter fun y => y.seqId != seqId) ∧
  (∀ (t : Nat) (port : Fin 4) (q : DlyReq) (r : List DlyReq) (s : State), s.time.ports[port].reqs = q :: r →
    (s.upTo t).past (q.tick + 6400000) = true → Completes (.dlyTimeout t port) s fun u =>
      u.time.ports[port].reqs = r ∧ u.f Pg.TIME Reg.TIME_DLY_TIMEOUTS = satU (s.f Pg.TIME Reg.TIME_DLY_TIMEOUTS + 1) Reg.TIME_DLY_TIMEOUTS.width) ∧
  (∀ (t : Nat) (port : Fin 4) (f : Forward) (s : State), (s.time.forwards.find? fun f => f.out == port.val) = some f → s.portUp port.val = true →
    (s.upTo t).lineFree (port.castLE (by decide) : Fin 20) (uiGrid (s.laneRate (port.castLE (by decide) : Fin 20)) (s.upTo t).now) = true →
    (s.upTo t).stepClear (port.castLE (by decide) : Fin 20) ⟨f.ty, (s.upTo t).nextSeq (port.castLE (by decide) : Fin 20) f.ty, 0, f.out_ ((s.upTo t).stampTick (port.castLE (by decide) : Fin 20) false (uiGrid (s.laneRate (port.castLE (by decide) : Fin 20)) (s.upTo t).now))⟩ (uiGrid (s.laneRate (port.castLE (by decide) : Fin 20)) (s.upTo t).now) = true →
    Completes (.timeFrameForward t port) s fun u =>
      u.time.forwards = s.time.forwards.erase f ∧
        u.lanes[port.val].tx.map (·.2.payload) = some (f.out_ ((s.upTo t).stampTick (port.castLE (by decide) : Fin 20) false (uiGrid (s.laneRate (port.castLE (by decide) : Fin 20)) (s.upTo t).now)))) ∧
  (∀ (t : Nat) (port : Fin 4) (s : State), s.live t → s.timeEn = true → s.timeMode = 2 →
    syncInstant (s.fi Pg.TIME Reg.TIME_MASTER_CTRL_INTERVAL) t = true → t % 4 = 0 → s.f Pg.TIME Reg.TIME_MASTER_CTRL_TX_MASK = 2 ^ port.val →
    s.portUp port.val = true → s.lanes[port.val].launches = [] → s.lanes[port.val].step = none →
    s.lineFree (port.castLE (by decide) : Fin 20) t = true → Completes (.syncLaunch t) s fun u =>
      u.time.syncCount = (s.time.syncCount + 1) % 2 ^ 16 ∧ u.lanes[port.val].tx.map (fun x => (x.1, x.2.ty)) = some (t, 5)) ∧
  (∀ (t : Nat) (v : Word) (s : State), s.pwr.sysOn = true → s.stepAllowed = true → Completes (.adjHiWrite t v) s fun u =>
      u.time.nextAdj = some (signed 64 (s.f Pg.TIME Reg.TIME_ADJ_LO + v.toNat * 2 ^ 32)) ∧ u.time.now = (s.upTo t).time.now)

/-- R111: the offset a SYNC shows on the time port, and its count, while the protocol runs as a slave with a measured delay. -/
def Obligations.TimeServo : Prop :=
  (∀ (t : Nat) (port : Fin 4) (origin : Nat) (corr : Int) (seqId : Nat) (masterId : Nat) (interval : Int) (s : State), s.timeEn = true →
    s.portUp port.val = true → s.time.master = some masterId → (s.tstate = 1 ∨ s.tstate = 2) → s.timeMode = 1 → s.time.ports[port].delayValid = true →
    s.coasting = false → (((s.upTo t).setTPort port fun x => { x with sync := some ⟨origin, corr, t, masterId, interval⟩, stepped := 0, newRun := 0 }).retimePort).timePort = port.val →
    Completes (.syncReceive t port origin corr seqId masterId interval) s fun u =>
      u.fi Pg.TIME Reg.TIME_OFFSET = sat (rnd (wrapS 64 (sdiff48 (origin : Nat) (t : Nat) * 2 ^ 16 + corr + wrapS 64 (s.time.ports[port].delay + s.fi Pg.TIME (Reg.TIME_ASYM.num port.val) * 2 ^ 12))) 12) 32 ∧
        u.f Pg.TIME Reg.TIME_SYNC_ACCEPTED = satU (s.f Pg.TIME Reg.TIME_SYNC_ACCEPTED + 1) Reg.TIME_SYNC_ACCEPTED.width)

/-- R370, R372 to R375: a trigger joins the pending request, a request starts a flush, a flush or an erase that takes too long counts as failed, the
recorder erases ahead and counts hours. -/
def Obligations.Recorder : Prop :=
  (∀ (t : Nat) (bit : Fin 7) (s : State), s.recorderTakes = true → trigEnabled (s.f Pg.RECORD Reg.RECORD_CFG_FAULT_EN) bit.val = true →
    s.rcd.flush = none → Completes (.flushTrigger t bit) s fun u =>
      u.rcd.pending = s.rcd.pending ||| 2 ^ bit.val ∧ u.fb Pg.RECORD Reg.RECORD_STATUS_PENDING = true ∧ u.rcd.flush = none) ∧
  (∀ (t : Nat) (s : State), s.recorderTakes = true → Completes (.recordFlush t) s fun u =>
      u.rcd.pending = s.rcd.pending ||| 1 ∧ u.fb Pg.RECORD Reg.RECORD_STATUS_PENDING = true) ∧
  (∀ (t : Nat) (s : State), (s.upTo t).mayFlush = true → (s.nor = false ∨ s.erasedAhead ≠ 0) → Completes (.flushStart t) s fun u =>
      u.rcd.flush = some ⟨s.rcd.pending, s.rcd.merged, s.f Pg.RECORD Reg.RECORD_STATUS_NEXT_SLOT, (s.f Pg.RECORD Reg.RECORD_SEQ + 1) % 2 ^ 32, (s.upTo t).now, (s.upTo t).now⟩ ∧
        u.rcd.pending = 0 ∧ u.rcd.lastStart = some (s.upTo t).now ∧ u.fb Pg.RECORD Reg.RECORD_STATUS_PENDING = false ∧
        u.fb Pg.RECORD Reg.RECORD_STATUS_FLUSHING = true) ∧
  (∀ (t : Nat) (s : State), (s.upTo t).mayFlush = true → (s.upTo t).gapOver = true → (s.nor = false ∨ s.erasedAhead ≠ 0) →
    Completes (.minGapExpiry t) s fun u =>
      u.rcd.flush = some ⟨s.rcd.pending, s.rcd.merged, s.f Pg.RECORD Reg.RECORD_STATUS_NEXT_SLOT, (s.f Pg.RECORD Reg.RECORD_SEQ + 1) % 2 ^ 32, (s.upTo t).now, (s.upTo t).now⟩ ∧
        u.rcd.pending = 0 ∧ u.rcd.lastStart = some (s.upTo t).now ∧ u.fb Pg.RECORD Reg.RECORD_STATUS_PENDING = false ∧
        u.fb Pg.RECORD Reg.RECORD_STATUS_FLUSHING = true) ∧
  (∀ (t : Nat) (who : NvUser) (fl : Flush) (s : State), who = .flush → s.rcd.flush = some fl → (s.upTo t).past (fl.start + 32768 + 32000000) = true →
    s.pwr.dormantWait = false → Completes (.nvTimeout t who) s fun u =>
      u.rcd.flush = none ∧ u.f Pg.RECORD Reg.RECORD_FLUSH_FAILS = satU (s.f Pg.RECORD Reg.RECORD_FLUSH_FAILS + 1) Reg.RECORD_FLUSH_FAILS.width ∧
        u.fb Pg.RECORD Reg.RECORD_STATUS_FLUSHING = false) ∧
  (∀ (t : Nat) (who : NvUser) (e : Nat × Nat) (s : State), who = .erase → s.rcd.erasing = some e → (s.upTo t).past (e.2 + 6400000000) = true →
    Completes (.nvTimeout t who) s fun u =>
      u.rcd.erasing = none) ∧
  (∀ (t : Nat) (who : NvUser) (h : NvCmd) (s : State), who = .host → s.rcd.host = some h → (h.op = .program ∨ h.op = .erase) →
    (s.upTo t).past ((h.start + (if h.op = .program then 32000000 else 6400000000) : Nat)) = true → Completes (.nvTimeout t who) s fun u =>
      u.rcd.host = none ∧ u.fb Pg.NV Reg.NV_NV_STATUS_BUSY = s.rcd.flush.isSome) ∧
  (∀ (t : Nat) (s : State), s.recorderTakes = true → s.fb Pg.RECORD Reg.RECORD_STATUS_READY = true → s.nor = true → s.rcd.erasing = none →
    s.rcd.ringSlots ≠ 0 → s.rcd.markErase = none → s.erasedAhead + b2n s.rcd.flush.isSome < 2 → Completes (.eraseAhead t) s fun u =>
      u.rcd.erasing = some (s.rcd.ringBase + (s.f Pg.RECORD Reg.RECORD_STATUS_NEXT_SLOT + (s.erasedAhead + b2n s.rcd.flush.isSome)) % s.rcd.ringSlots * 4096, (s.upTo t).now)) ∧
  (∀ (t : Nat) (e : Nat × Nat) (s : State), s.rcd.erasing = some e → s.rcd.suspended = false → s.rcd.ringBase ≤ e.1 →
    e.1 < s.rcd.ringBase + s.rcd.ringSlots * 4096 → Completes (.eraseDone t) s fun u =>
      u.rcd.erasing = none ∧ u.erasedAhead = min 2 (s.erasedAhead + 1) ∧ (∀ k : Nat, k < 4096 → u.nvByte (e.1 + k) = 0xFF#8)) ∧
  (∀ (t : Nat) (s : State), s.pwr.sysOn = true → s.time.running = true → (s.upTo t).past (s.rcd.hoursAt + 1440000000000) = true →
    Completes (.hoursTick t) s fun u =>
      u.f Pg.RECORD Reg.RECORD_HOURS = (s.f Pg.RECORD Reg.RECORD_HOURS + 1) % 2 ^ 32 ∧ u.rcd.hoursAt = s.rcd.hoursAt + 1440000000000) ∧
  (∀ (t : Nat) (s : State), s.pwr.sysOn = true → Completes (.clearAcc t) s fun u =>
      u.rcd.accHours = s.f Pg.RECORD Reg.RECORD_HOURS ∧ u.rcd.seen = [] ∧ (∀ k : Nat, k < 0x1000 → u.byte (recordBank + k) = 0#8))

/-- R378: a read, a program or an erase that is not refused begins, and moves its data when it completes. -/
def Obligations.NvPort : Prop :=
  (∀ (t : Nat) (s : State), s.pwr.sysOn = true → (0 < s.f Pg.NV Reg.NV_NV_LEN ∧ s.f Pg.NV Reg.NV_NV_LEN ≤ 4096) →
    s.fb Pg.NV Reg.NV_NV_STATUS_BUSY = false → Completes (.nvRead t) s fun u =>
      u.rcd.host = some ⟨.read, s.f Pg.NV Reg.NV_NV_ADDR, s.f Pg.NV Reg.NV_NV_LEN, (s.upTo t).now⟩ ∧ u.fb Pg.NV Reg.NV_NV_STATUS_BUSY = true ∧
        u.fb Pg.NV Reg.NV_NV_STATUS_REFUSED = false) ∧
  (∀ (t : Nat) (s : State), s.pwr.sysOn = true → (0 < s.f Pg.NV Reg.NV_NV_LEN ∧ s.f Pg.NV Reg.NV_NV_LEN ≤ 4096) →
    s.fb Pg.NV Reg.NV_NV_STATUS_BUSY = false → s.nvProtected (s.f Pg.NV Reg.NV_NV_ADDR) (s.f Pg.NV Reg.NV_NV_LEN) = false →
    Completes (.nvProgram t) s fun u =>
      u.rcd.host = some ⟨.program, s.f Pg.NV Reg.NV_NV_ADDR, s.f Pg.NV Reg.NV_NV_LEN, (s.upTo t).now⟩ ∧ u.fb Pg.NV Reg.NV_NV_STATUS_BUSY = true ∧
        u.fb Pg.NV Reg.NV_NV_STATUS_REFUSED = false) ∧
  (∀ (t : Nat) (s : State), s.pwr.sysOn = true → s.fb Pg.NV Reg.NV_NV_STATUS_BUSY = false →
    s.nvProtected (s.f Pg.NV Reg.NV_NV_ADDR / 4096 * 4096) 4096 = false → Completes (.nvErase t) s fun u =>
      u.rcd.host = some ⟨.erase, s.f Pg.NV Reg.NV_NV_ADDR, s.f Pg.NV Reg.NV_NV_LEN, (s.upTo t).now⟩ ∧ u.fb Pg.NV Reg.NV_NV_STATUS_BUSY = true ∧
        u.fb Pg.NV Reg.NV_NV_STATUS_REFUSED = false) ∧
  (∀ (t : Nat) (h : NvCmd) (s : State), s.rcd.host = some h → h.op = .read → Completes (.nvCmdDone t) s fun u =>
      u.rcd.host = none ∧ (∀ k : Nat, k < h.len → u.byte (recordBank + 0x41000 + k) = s.nvByte (h.addr + k))) ∧
  (∀ (t : Nat) (h : NvCmd) (s : State), s.rcd.host = some h → h.op = .program → (∀ k : Nat, k < h.len → s.rcd.bufKnown.contains (k / 4) = true) →
    Completes (.nvCmdDone t) s fun u =>
      u.rcd.host = none ∧ (∀ k : Nat, k < h.len → u.nvByte (h.addr + k) = s.ownByte (recordBank + 0x41000 + k))) ∧
  (∀ (t : Nat) (h : NvCmd) (s : State), s.rcd.host = some h → h.op = .erase → s.rcd.suspended = false → Completes (.nvCmdDone t) s fun u =>
      u.rcd.host = none ∧ (∀ k : Nat, k < 4096 → u.nvByte (h.addr / 4096 * 4096 + k) = 0xFF#8))

/-- R125 to R129, R412: what VDD_AON, wake events, PG_IN and the link do to the device state, and what their limits do. That memory reads 0 after
the power-on reset rests on log entry 3 for DRAM and the recorder's bank, that a round of the wake arbiter begins on its first source on log entry
77, and that the primer's candidate is valid at once on log entry 14: the model's choices. -/
def Obligations.PrimerSequence : Prop :=
  (∀ (t : Nat) (s : State), Completes (.vddAonPor t) s fun u =>
      u.pwr.dev = .dormant ∧ u.pwr.sysOn = false ∧ u.pwr.linkOn = false ∧ u.time.running = false ∧ u.regs = [] ∧ u.pwr.shutdownLatch = false ∧
        u.mem = [] ∧ (∀ a : Nat, u.nvByte a = s.nvByte a)) ∧
  (∀ (t : Nat) (s : State), Completes (.vddAonLoss t) s fun u =>
      u.pwr.dev = .off ∧ u.pwr.sysOn = false ∧ u.pwr.linkOn = false ∧ u.time.running = false ∧ u.regs = [] ∧ u.pwr.shutdownLatch = false ∧
        u.mem = [] ∧ (∀ a : Nat, u.nvByte a = s.nvByte a)) ∧
  (∀ (t : Nat) (c : Fin 5) (s : State), s.pwr.dev = .dormant → s.pwr.shutdownLatch = false → s.pwr.resetL = false → s.wakeEnabled (c.val + 1) = true →
    s.pwr.blanking = false → Completes (.wakeEvent t c) s fun u =>
      u.pwr.dev = .waking ∧ u.pwr.pwrReq = true ∧ u.pwr.primer = .waitPg ∧ u.f Pg.PWR Reg.PWR_WAKE_STATUS_CAUSE = c.val + 1 ∧
        u.f Pg.PWR Reg.PWR_AON_COUNTS_WAKES = satU (s.f Pg.PWR Reg.PWR_AON_COUNTS_WAKES + 1) Reg.PWR_AON_COUNTS_WAKES.width) ∧
  (∀ (t : Nat) (c : Fin 5) (s : State), s.pwr.dev = .dormant → s.pwr.shutdownLatch = false → s.pwr.resetL = false → s.wakeEnabled (c.val + 1) = true →
    s.pwr.blanking = true → s.pwr.wakeHeld = none → Completes (.wakeEvent t c) s fun u =>
      u.pwr.dev = .dormant ∧ u.pwr.wakeHeld = some (c.val + 1) ∧ u.pwr.wakeAt = t) ∧
  (∀ (t : Nat) (c : Fin 5) (d : Nat) (s : State), s.pwr.dev = .dormant → s.pwr.shutdownLatch = false → s.pwr.resetL = false →
    s.wakeEnabled (c.val + 1) = true → s.pwr.blanking = true → s.pwr.wakeHeld = some d → Completes (.wakeEvent t c) s fun u =>
      u.pwr.dev = .dormant ∧ u.pwr.wakeHeld = some (if ahead s.pwr.wakeAt t ≤ 320 ∧ c.val + 1 < d then c.val + 1 else d)) ∧
  (∀ (t : Nat) (c : Nat) (s : State), s.pwr.wakeHeld = some c → s.pwr.dev = .dormant → s.pwr.shutdownLatch = false →
    Completes (.wakeBlankEnd t) s fun u =>
      u.pwr.dev = .waking ∧ u.pwr.pwrReq = true ∧ u.pwr.blanking = false ∧ u.f Pg.PWR Reg.PWR_WAKE_STATUS_CAUSE = c % 8) ∧
  (∀ (t : Nat) (roleB : Bool) (s : State), s.pwr.dev = .waking → s.pwr.primer = .waitPg → s.pwr.resetL = false →
    Completes (.pgInHigh t roleB) s fun u =>
      u.pwr.sysOn = true ∧ u.pwr.linkOn = true ∧ u.pwr.primer = .waitLink ∧ u.pwr.dev = .waking ∧ u.roleB = roleB ∧ u.pwr.pgIn = true) ∧
  (∀ (t : Nat) (s : State), s.pwr.dev = .waking → s.pwr.primer = .waitPg → s.pwr.pgIn = false → Completes (.pgTimeout t) s fun u =>
      u.pwr.dev = .dormant ∧ u.pwr.pwrReq = false ∧ u.pwr.primer = .idle ∧ u.fb Pg.PWR Reg.PWR_WAKE_STATUS_PG_TIMEOUT = true ∧
        u.f Pg.PWR Reg.PWR_WAKE_STATUS_LAST_EXIT = 5) ∧
  (∀ (t : Nat) (c : Fin 4) (s : State), s.pwr.primer = .waitLink → s.clk.primer = some c.val → t < 2 ^ 63 → s.laneUp c.val = true →
    s.fb (Pg.LINK c.val) Reg.LANE_LANE_STATUS_FRAME_LOCK = true → (c.val < 2 ∨ s.roleB = true) → s.clk.freqOk[c] = true →
    (∀ k : Fin 4, s.candValid k.val = false) → s.coasting = false → Completes (.primerLinkReady t c) s fun u =>
      u.time.running = true ∧ u.time.now = t ∧ u.pwr.primer = .load ∧ u.clk.locked = true ∧ u.selected = c.val ∧ u.candValid c.val = true ∧
        (s.st Pg.CLK = stStarting → u.st Pg.CLK = stOn)) ∧
  (∀ (t : Nat) (s : State), s.pwr.primer = .waitLink → s.pwr.dev = .waking → s.pwr.limitHeld = false → Completes (.linkWaitTimeout t) s fun u =>
      u.pwr.dev = .dormant ∧ u.pwr.sysOn = false ∧ u.pwr.pwrReq = false ∧ u.fb Pg.PWR Reg.PWR_WAKE_STATUS_LINK_TIMEOUT = true ∧
        u.f Pg.PWR Reg.PWR_WAKE_STATUS_LAST_EXIT = 6) ∧
  (∀ (t : Nat) (fuseOk : Bool) (nvId : Option Nat) (markerOk : Bool) (us : Nat) (s : State), s.pwr.primer = .load → s.pwr.dev = .waking →
    s.pwr.sysOn = true → s.pwr.clockForce = true → Completes (.primerDone t fuseOk nvId markerOk us) s fun u =>
      u.pwr.dev = .safeHold ∧ u.pwr.primer = .idle) ∧
  (∀ (t : Nat) (fuseOk : Bool) (nvId : Option Nat) (markerOk : Bool) (us : Nat) (s : State), s.pwr.primer = .load → s.pwr.dev = .waking →
    s.pwr.sysOn = true → s.pwr.clockForce = false → Completes (.primerDone t fuseOk nvId markerOk us) s fun u =>
      u.pwr.dev = .linked ∧ u.pwr.primer = .idle ∧ (∀ n : Fin 16, (u.latched n.val).testBit causeReset = true) ∧
        u.fb Pg.SYS Reg.SYS_BOOT_STATUS_FUSE_BAD = !fuseOk) ∧
  (∀ (t : Nat) (s : State), s.st Pg.SYS = stStarting → (s.upTo t).elapsed (s.entered Pg.SYS) 256 = true → s.pwr.dev = .linked →
    Completes (.sysStart t) s fun u =>
      u.st Pg.SYS = stOn ∧ u.pwr.dev = .active)

/-- R133, R134, R368: what each kind of reset clears and keeps, and which state the device is in afterwards. The device state between a reset and
its restart is the model's choice (log entry 85), and so are a DRAM byte that reads 0 (log entry 3) and the ROLE pin as it is latched anew (log
entry 12). -/
def Obligations.Resets : Prop :=
  (∀ (t : Nat) (s : State), s.pwr.pgIn = true → (s.pwr.dev = .waking ∨ s.pwr.dev = .linked ∨ s.pwr.dev = .active ∨ s.pwr.dev = .safeHold) →
    Completes (.pgInLow t) s fun u =>
      u.pwr.dev = .dormant ∧ u.pwr.sysOn = false ∧ u.pwr.pwrReq = false ∧ u.pwr.pgIn = false ∧ u.f Pg.PWR Reg.PWR_WAKE_STATUS_LAST_EXIT = 1 ∧
        u.f Pg.PWR Reg.PWR_AON_COUNTS_PG_DROPS = satU (s.f Pg.PWR Reg.PWR_AON_COUNTS_PG_DROPS + 1) Reg.PWR_AON_COUNTS_PG_DROPS.width ∧
        (∀ a : Nat, u.nvByte a = s.nvByte a)) ∧
  (∀ (t : Nat) (s : State), s.pwr.dev ≠ .off → s.pwr.dev ≠ .shutdown → Completes (.resetLAssert t) s fun u =>
      u.pwr.resetL = true ∧ u.pwr.resetForce = true ∧ u.pwr.sysOn = false ∧ u.f Pg.PWR Reg.PWR_WAKE_STATUS_LAST_EXIT = 2 ∧
        u.pwr.dev = (if s.pwr.dev = .dormant then .dormant else .waking) ∧ (∀ a : Nat, u.nvByte a = s.nvByte a)) ∧
  (∀ (t : Nat) (s : State), s.pwr.resetL = true → s.pwr.pgIn = true → Completes (.resetLRelease t) s fun u =>
      u.pwr.sysOn = true ∧ u.pwr.linkOn = true ∧ u.pwr.primer = .waitLink ∧ u.pwr.dev = .waking ∧ u.pwr.resetL = false ∧ u.pwr.resetForce = false ∧
        u.f Pg.PWR Reg.PWR_WAKE_STATUS_CAUSE = 6) ∧
  (∀ (t : Nat) (s : State), s.pwr.resetL = true → s.pwr.pgIn = false → Completes (.resetLRelease t) s fun u =>
      u.pwr.dev = .dormant ∧ u.pwr.resetL = false ∧ u.pwr.pwrReq = false) ∧
  (∀ (t : Nat) (key : Nat) (s : State), s.pwr.sysOn = true → key = 0xA5 → s.pwr.dev ≠ .shutdown → Completes (.deviceCommand t key) s fun u =>
      u.pwr.dev = .waking ∧ u.pwr.sysOn = false ∧ u.pwr.restartDue = true ∧ u.pwr.resetForce = true ∧ u.f Pg.PWR Reg.PWR_WAKE_STATUS_LAST_EXIT = 3 ∧
        u.mem = [] ∧ (∀ a : Nat, u.nvByte a = s.nvByte a)) ∧
  (∀ (t : Nat) (s : State), s.pwr.restartDue = true → s.pwr.pgIn = true → s.pwr.dev ≠ .shutdown → Completes (.deviceCommandRestart t) s fun u =>
      u.pwr.sysOn = true ∧ u.pwr.linkOn = true ∧ u.pwr.primer = .waitLink ∧ u.pwr.dev = .waking ∧ u.pwr.restartDue = false ∧
        u.f Pg.PWR Reg.PWR_WAKE_STATUS_CAUSE = 6) ∧
  (∀ (t : Nat) (key : Nat) (s : State), s.pwr.sysOn = true → key = 0xA5 → s.pwr.dev ≠ .shutdown → s.allOff = true → s.recorderTakes = true →
    Completes (.dormantCommand t key) s fun u =>
      u.pwr.dormantWait = true ∧ u.rcd.pending.testBit 0 = true) ∧
  (∀ (t : Nat) (key : Nat) (s : State), s.pwr.sysOn = true → key = 0xA5 → s.pwr.dev ≠ .shutdown → s.allOff = true → s.recorderTakes = false →
    s.rcd.flush = none → Completes (.dormantCommand t key) s fun u =>
      u.pwr.dev = .dormant ∧ u.pwr.sysOn = false ∧ u.pwr.pwrReq = false ∧ u.f Pg.PWR Reg.PWR_WAKE_STATUS_LAST_EXIT = 4) ∧
  (∀ (t : Nat) (fl : Flush) (s : State), s.rcd.flush = some fl → (s.upTo t).past (fl.start + 32768) = true → s.pwr.dormantWait = false →
    Completes (.flushDone t) s fun u =>
      u.rcd.flush = none ∧ u.f Pg.RECORD Reg.RECORD_SEQ = fl.seq % 2 ^ 32 ∧
        u.pair Pg.RECORD Reg.RECORD_LAST_LO Reg.RECORD_LAST_HI = fl.taken % 2 ^ 48 ∧
        u.f Pg.RECORD Reg.RECORD_FLUSHES = satU (s.f Pg.RECORD Reg.RECORD_FLUSHES + 1) Reg.RECORD_FLUSHES.width ∧ (∀ k : Nat, k < 4096 →
        u.nvByte (s.rcd.ringBase + fl.slot * 4096 + k) = s.ownByte (recordBank + 0x40000 + k))) ∧
  (∀ (t : Nat) (d : Nat) (s : State), s.therm.shutAt = some d → s.pwr.dev = .shutdown → s.pwr.sysOn = true → (s.upTo t).past (d + 128000000) = true →
    Completes (.shutdownPowerOff t) s fun u =>
      u.pwr.dev = .shutdown ∧ u.pwr.sysOn = false ∧ u.pwr.linkOn = false ∧ u.pwr.pwrReq = false)

/-- R131, R132, R137: DOMAIN_CTRL, the ends of a switch-on and of a switch-off, and PFAIL_L. -/
def Obligations.Domains : Prop :=
  (∀ (t : Nat) (v : Word) (s : State), s.pwr.sysOn = true → v.toNat < 2 ^ 9 → Completes (.domainCtrlWrite t v) s fun u =>
      u.f Pg.PWR Reg.PWR_DOMAIN_CTRL_REQ = fldOf v Reg.PWR_DOMAIN_CTRL_REQ ∧ (s.pwr.switching.isSome = true → u.pwr.switching = s.pwr.switching)) ∧
  (∀ (t : Nat) (d : Nat) (s : State), s.pwr.switching = some (d, true) → d < 9 → Completes (.domainSwitchOnDone t) s fun u =>
      u.supplied d = true) ∧
  (∀ (t : Nat) (d : Nat) (s : State), s.pwr.switching = some (d, false) → 2 ≤ d → d < 9 → Completes (.domainSwitchOffDone t) s fun u =>
      u.supplied d = false ∧ u.pwr.dirty.contains d = false) ∧
  (∀ (t : Nat) (s : State), s.pwr.sysOn = true → Completes (.pfail t) s fun u =>
      (u.f Pg.PWR Reg.EVENT).testBit Ev.PWR_PFAIL = true ∧ (s.recorderTakes = true → u.rcd.pending.testBit 1 = true))

/-- R43: a write of 1 clears an EVENT bit unless the source was asserted in the same cycle of the block clock, and EVENT_FORCE asserts a source. A
command that looks at a light port or a raster page finds there what was due: the clauses speak of the state with a burst's due return taken (the
model's choice, log entry 45) and the exposed pixels counted. What counts as the same cycle of the block clock, the tick divided by the clock's
period, is the model's choice (log entry 24). -/
def Obligations.EventRegisters : Prop :=
  (∀ (t : Nat) (p : Fin 256) (bits : Word) (s : State), (pageBlk p.val).isSome = true → s.pageOn p.val = true →
    Completes (.eventClear t p bits) s fun u =>
      (∀ k : Fin 32, (u.f p.val Reg.EVENT).testBit k.val = ((((s.upTo t).pageDue p.val).f p.val Reg.EVENT).testBit k.val && !(decide (k.val < eventCount p.val) && bits.toNat.testBit k.val && !(tabGet zeroNat ((s.upTo t).pageDue p.val).lastEv (p.val * 32 + k.val) != 0 && decide ((tabGet zeroNat ((s.upTo t).pageDue p.val).lastEv (p.val * 32 + k.val) - 1) / pagePeriod p.val = (s.upTo t).now / pagePeriod p.val)))))) ∧
  (∀ (t : Nat) (p : Fin 256) (bits : Word) (s : State), (pageBlk p.val).isSome = true → s.pageOn p.val = true →
    Completes (.eventForce t p bits) s fun u =>
      (∀ k : Fin 32, k.val < eventCount p.val → bits.toNat.testBit k.val = true → (u.f p.val Reg.EVENT).testBit k.val = true) ∧
        (∀ k : Fin 32, bits.toNat.testBit k.val = false →
        (u.f p.val Reg.EVENT).testBit k.val = (((s.upTo t).pageDue p.val).f p.val Reg.EVENT).testBit k.val))

/-- R91, R399 to R403: the intake, the order of delivery and the frame that carries messages. What counts as one cycle of CLK_CORE, the tick divided
by 16, is the model's choice (log entry 24). -/
def Obligations.EventCollector : Prop :=
  (∀ (t : Nat) (e : EvEntry) (s : State), s.isOn Pg.EVCOL = true → s.ev.offers = [e] → (∀ x ∈ s.ev.sort, x.source ≠ e.source) →
    (∀ n : Fin 4, s.lights[n].back = none) → s.ev.taken.of ((s.upTo t).now / 16) < 8 → sdiff48 ((s.upTo t).now : Nat) (e.stamp : Nat) < 12800 →
    Completes (.eventIntake t) s fun u =>
      u.ev.offers = [] ∧ u.ev.sort = s.ev.sort ++ [{ e with late := false }] ∧ u.ev.scan = (e.source + 1) % 8192 ∧
        u.ev.taken.of ((s.upTo t).now / 16) = s.ev.taken.of ((s.upTo t).now / 16) + 1) ∧
  (∀ (t : Nat) (e : EvEntry) (s : State), s.isOn Pg.EVCOL = true → s.ev.sort = [e] → 12800 ≤ sdiff48 ((s.upTo t).now : Nat) (e.stamp : Nat) →
    s.ev.queue.length < 1024 → s.ev.moved.of ((s.upTo t).now / 16) < 8 → Completes (.eventDeliverable t) s fun u =>
      u.ev.sort = [] ∧ u.ev.queue = s.ev.queue ++ [⟨s.f Pg.EVCOL Reg.EVCOL_QSEQ_NEXT, e.source, e.stamp, min e.count 0xFFFF, e.late⟩] ∧
        u.f Pg.EVCOL Reg.EVCOL_QSEQ_NEXT = (s.f Pg.EVCOL Reg.EVCOL_QSEQ_NEXT + 1) % 2 ^ Reg.EVCOL_QSEQ_NEXT.width ∧
        u.f Pg.EVCOL Reg.EVCOL_MESSAGES = satU (s.f Pg.EVCOL Reg.EVCOL_MESSAGES + 1) Reg.EVCOL_MESSAGES.width ∧
        u.ev.moved.of ((s.upTo t).now / 16) = s.ev.moved.of ((s.upTo t).now / 16) + 1) ∧
  (∀ (t : Nat) (l : Fin 20) (s : State), s.isOn Pg.EVCOL = true → l.val < 2 → s.f Pg.EVCOL Reg.EVCOL_EVCOL_CFG = l.val + 1 → s.laneUp l.val = true →
    s.ev.queue ≠ [] → s.lanes[l].cpls = [] → (s.upTo t).mayStart l ⟨4, (s.upTo t).nextSeq l 4, 0, evtPayload (s.ev.queue.take 8)⟩ = true →
    Completes (.evtSend t) s fun u =>
      u.ev.queue = s.ev.queue.drop 8 ∧ u.lanes[l].tx.map (·.2.payload) = some (evtPayload (s.ev.queue.take 8)) ∧
        u.f (lanePage l.val) Reg.FRAME_EVT_MESSAGES = satU (s.f (lanePage l.val) Reg.FRAME_EVT_MESSAGES + (s.ev.queue.take 8).length) 32)

/-- R299 to R302: a channel away from its OK level puts every emission output at rest and, where the interlock was OK, latches INTERLOCK on every
brush; a discrepancy latches DISCREPANCY. -/
def Obligations.Interlocks : Prop :=
  (∀ (t : Nat) (i : Fin 4) (a : Bool) (b : Bool) (s : State), (a && !b) = false → Completes (.ilkDepart t i a b) s fun u =>
      u.dark ∧ (s.knife.ilk[i].ok = true → s.pwr.sysOn = true → ∀ n : Fin 16, (u.latched n.val).testBit causeInterlock = true)) ∧
  (∀ (t : Nat) (i : Fin 4) (s : State), Completes (.ilkReturn t i) s fun u =>
      u.knife.ilk[i].ok = true ∧ u.knife.ilk[i].stopOk = false ∧ (s.pwr.sysOn = true → s.knife.ilk[i].stopOk = true →
        (u.f Pg.KNIFE Reg.KNIFE_ILK_STATUS_DISC_LATCHED).testBit i.val = false)) ∧
  (∀ (t : Nat) (i : Fin 4) (since : Nat) (s : State), s.knife.ilk[i].discSince = some since → s.pwr.sysOn = true → s.knife.ilk[i].discDone = false →
    (s.upTo t).elapsed since (s.f Pg.KNIFE Reg.KNIFE_ILK_CFG * 6400000) = true → Completes (.discTimeout t i) s fun u =>
      (u.f Pg.KNIFE Reg.KNIFE_ILK_STATUS_DISC_LATCHED).testBit i.val = true ∧ u.knife.ilk[i].discDone = true ∧
        (∀ n : Fin 16, (u.latched n.val).testBit causeDiscrepancy = true))

/-- R304, R305: which ARM bits and which latched causes each command of the knife changes, for every brush. -/
def Obligations.KnifeCommands : Prop :=
  (∀ (t : Nat) (key : Nat) (mask : BitVec 16) (s : State), s.pwr.sysOn = true → key = 0xC3 → Completes (.knifeArmSet t key mask) s fun u =>
      (∀ n : Fin 16, (u.f Pg.KNIFE Reg.KNIFE_ARM_STATE).testBit n.val = ((s.f Pg.KNIFE Reg.KNIFE_ARM_STATE).testBit n.val || (mask.toNat.testBit n.val && decide (s.latched n.val = 0) && !(s.upTo t).causeNow n)))) ∧
  (∀ (t : Nat) (mask : BitVec 16) (s : State), s.pwr.sysOn = true → Completes (.knifeDisarm t mask) s fun u =>
      (∀ n : Fin 16, (u.f Pg.KNIFE Reg.KNIFE_ARM_STATE).testBit n.val = ((s.f Pg.KNIFE Reg.KNIFE_ARM_STATE).testBit n.val && !mask.toNat.testBit n.val)) ∧
        (∀ n : Fin 16, mask.toNat.testBit n.val = true → u.lasers[n].gatePin = false ∧ u.knife.permitted[n] = false)) ∧
  (∀ (t : Nat) (key : Nat) (mask : BitVec 16) (s : State), s.pwr.sysOn = true → key = 0x3C → Completes (.knifeClear t key mask) s fun u =>
      (∀ n : Fin 16, u.latched n.val = (if mask.toNat.testBit n.val && !(s.upTo t).causeNow n then s.latched n.val &&& s.presentMask n else s.latched n.val))) ∧
  (∀ (t : Nat) (mask : BitVec 16) (s : State), s.pwr.sysOn = true → mask ≠ 0#16 → Completes (.knifeTest t mask) s fun u =>
      (∀ n : Fin 16, mask.toNat.testBit n.val = true → (u.latched n.val).testBit causeTest = true ∧ u.lasers[n].gatePin = false ∧
        (u.f Pg.KNIFE Reg.KNIFE_ARM_STATE).testBit n.val = false) ∧ (∀ n : Fin 16, mask.toNat.testBit n.val = false →
        u.latched n.val = s.latched n.val)) ∧
  (∀ (n : Nat) (b : Fin 16) (w : Nat) (s : State), s.pwr.sysOn = true → s.knife.armAt[b] = some w → 640 ≤ sdiff48 (t0 n : Nat) (w : Nat) →
    Completes (.permitStart n) s fun u =>
      u.knife.permitted[b] = true ∧ u.knife.armAt[b] = none)

/-- R188, R190, R198: what an edge counts, what a quadrature error counts, what the index latches, and when targets leave the table. In mode 0 the
direction of the count is Config.quadUp, the model's choice (log entry 55), since R188 does not give it. -/
def Obligations.Encoders : Prop :=
  (∀ (t : Nat) (n : Fin 4) (a : Bool) (b : Bool) (z : Bool) (s : State), s.isOn (Pg.ENC n.val) = true → s.f (Pg.ENC n.val) Reg.ENC_ENC_CFG_MODE = 1 →
    a = true → s.encs[n].a = false → Completes (.encoderEdge t n a b z) s fun u =>
      u.pair (Pg.ENC n.val) Reg.ENC_COUNT_LO Reg.ENC_COUNT_HI = wrapU 48 (s.pair (Pg.ENC n.val) Reg.ENC_COUNT_LO Reg.ENC_COUNT_HI + s.encSign n * (if b then 1 else -1)) ∧
        u.encs[n].a = true ∧ u.encs[n].lastEdge = some (s.upTo t).fastStamp) ∧
  (∀ (t : Nat) (n : Fin 4) (a : Bool) (b : Bool) (z : Bool) (s : State), s.isOn (Pg.ENC n.val) = true → s.f (Pg.ENC n.val) Reg.ENC_ENC_CFG_MODE = 0 →
    (a != s.encs[n].a) ≠ (b != s.encs[n].b) → Completes (.encoderEdge t n a b z) s fun u =>
      u.pair (Pg.ENC n.val) Reg.ENC_COUNT_LO Reg.ENC_COUNT_HI = wrapU 48 (s.pair (Pg.ENC n.val) Reg.ENC_COUNT_LO Reg.ENC_COUNT_HI + s.encSign n * (if Config.quadUp then 1 else -1) * quadStep (s.encs[n].a) (s.encs[n].b) a b)) ∧
  (∀ (t : Nat) (n : Fin 4) (a : Bool) (b : Bool) (z : Bool) (s : State), s.isOn (Pg.ENC n.val) = true → s.f (Pg.ENC n.val) Reg.ENC_ENC_CFG_MODE = 0 →
    a ≠ s.encs[n].a → b ≠ s.encs[n].b → Completes (.encoderEdge t n a b z) s fun u =>
      u.pair (Pg.ENC n.val) Reg.ENC_COUNT_LO Reg.ENC_COUNT_HI = s.pair (Pg.ENC n.val) Reg.ENC_COUNT_LO Reg.ENC_COUNT_HI ∧
        u.f (Pg.ENC n.val) Reg.ENC_QUAD_ERRORS = satU (s.f (Pg.ENC n.val) Reg.ENC_QUAD_ERRORS + 1) Reg.ENC_QUAD_ERRORS.width) ∧
  (∀ (t : Nat) (n : Fin 4) (s : State), s.pageOn (Pg.ENC n.val) = true → Completes (.indexArm t n) s fun u =>
      u.encs[n].armed = true ∧ u.fb (Pg.ENC n.val) Reg.ENC_INDEX_VALID = false) ∧
  (∀ (t : Nat) (n : Fin 4) (s : State), s.pageOn (Pg.ENC n.val) = true → s.encs[n].armed = true → Completes (.indexCapture t n) s fun u =>
      u.encs[n].armed = false ∧ u.fb (Pg.ENC n.val) Reg.ENC_INDEX_VALID = true ∧
        u.pair (Pg.ENC n.val) Reg.ENC_INDEX_COUNT_LO Reg.ENC_INDEX_COUNT_HI = s.pair (Pg.ENC n.val) Reg.ENC_COUNT_LO Reg.ENC_COUNT_HI ∧
        u.pair (Pg.ENC n.val) Reg.ENC_INDEX_TIME_LO Reg.ENC_INDEX_TIME_HI = (s.upTo t).fastStamp % 2 ^ 48) ∧
  (∀ (t : Nat) (s : State), Completes (.targetRemove t) s fun u =>
      (∀ x : Target, x ∈ u.medium.targets ↔ (x ∈ s.medium.targets ∧ ∀ k : Nat, x.tick = some k → (s.upTo t).past (k + 256000) = false)))

/-- R155 to R162, R182: a chain starts with a write of CHAIN_HI, its headers and blocks are fetched, and NEXT is read again while it is 0. -/
def Obligations.Chains : Prop :=
  (∀ (t : Nat) (b : Fin 16) (v : Word) (s : State), v.toNat < 256 → s.isOn (Pg.BRUSH b) = true → s.brushes[b].chain = false →
    (s.brushes[b].force = none ∨ s.fb (Pg.BRUSH b) Reg.BRUSH_STATUS_CHAIN_ENDED = true) →
    s.askable (chainAddr (s.word (regAddr (Pg.BRUSH b) Reg.BRUSH_CHAIN_LO.off)).toNat v.toNat) 832 → Completes (.chainStart t b v) s fun u =>
      u.brushes[b].chain = true ∧ u.brushes[b].hdrFetch = some (chainAddr (s.word (regAddr (Pg.BRUSH b) Reg.BRUSH_CHAIN_LO.off)).toNat v.toNat) ∧
        u.f (Pg.BRUSH b) Reg.BRUSH_CHAIN_HI = v.toNat) ∧
  (∀ (t : Nat) (b : Fin 16) (a : Nat) (s : State), s.isOn (Pg.BRUSH b) = true → s.brushes[b].hdrFetch = some a → s.dramOn = true →
    s.dmaBreach = false → (s.readNext a ≠ 0 → s.askable (s.readNext a) 832) → s.dramBad a 832 = false → headerOk (s.bytes a 832) = true →
    Completes (.headerFetched t b) s fun u =>
      u.brushes[b].seq = s.brushes[b].seq + 1 ∧ u.brushes[b].queue.length = s.brushes[b].queue.length + 1 ∧
        u.brushes[b].badHeader = s.brushes[b].badHeader) ∧
  (∀ (t : Nat) (b : Fin 16) (h : Sheet) (s : State), s.live t → s.isOn (Pg.BRUSH b) = true → s.brushes[b].newest = some h → h.next = 0 →
    s.brushes[b].pollFrame + 64 ≤ frameOf t → s.dramOn = true → s.nextAskable b → s.dramBad h.addr 64 = false → Completes (.nextPoll t b) s fun u =>
      u.brushes[b].pollFrame = frameOf t ∧ u.brushes[b].newest.map Sheet.next = some (s.readNext h.addr)) ∧
  (∀ (t : Nat) (b : Fin 16) (pathB : Bool) (q : Path) (k : Nat) (h : Sheet) (s : State), s.isOn (Pg.BRUSH b) = true →
    s.brushes[b].entry.full = false → (s.upTo t).pathOn b 8192 ((s.upTo t).pathNext b (s.brushes[b].path pathB)) = q → q.ended = false →
    q.branching = false → s.sheetOf b q.sheet = some h → s.askable (h.list + q.idx / 64 * 2048) (32 * min 64 (h.records - q.idx / 64 * 64)) →
    (q.blocks.filter fun k => k.arrived.isNone).length < 4 → q.freeSlot (pathRoom pathB) = some k →
    Completes (.blockFetchRequest t b pathB) s fun u =>
      u.brushes[b].path pathB = { q with blocks := q.blocks ++ [{ sheet := q.sheet, blk := q.idx / 64, slot := k, lap := q.lap }] }) ∧
  (∀ (t : Nat) (b : Fin 16) (pathB : Bool) (k : Nat) (e : FBlock) (h : Sheet) (s : State), s.live t → s.dramOn = true → s.dmaBreach = false →
    s.nextAskable b → ((s.brushes[b].path pathB).blocks.filter fun e => e.arrived.isNone)[k]? = some e → s.sheetOf b e.sheet = some h →
    s.dramBad (h.list + e.blk * 2048) (32 * min 64 (h.records - e.blk * 64)) = false → Completes (.blockArrival t b pathB k) s fun u =>
      ((u.brushes[b].path pathB).blocks.any fun y => y.sheet == e.sheet && y.blk == e.blk && y.arrived == some t) = true)

/-- R145, R150 to R152, R157, R159, R183: what reaching a boundary, a start tick, an end, a wait and the end of parking do to a brush. A list is
taken to hold no reserved opcode, which R44 makes a host error. -/
def Obligations.Execution : Prop :=
  (∀ (t : Nat) (b : Fin 16) (h : Sheet) (rest : List Sheet) (c : Nat) (s : State), s.live t → s.isOn (Pg.BRUSH b) = true →
    dueSheets s.brushes[b].queue = h :: rest → h.boundary = some c → h.late = false → (s.upTo t).past c = true → (s.holdsSheets = false ∨
    h.medium = true) → s.idsOk b (s.keepSets b s.brushes[b].force h) = true → dramBase ≤ h.list → (∀ i : Nat, i < h.records → ((s.record h i).op ≤ 9 ∨
    (s.record h i).op = opEnd)) → Completes (.sheetBoundary t b) s fun u =>
      u.brushes[b].force.map Sheet.seq = some h.seq ∧ u.brushes[b].queue.map Sheet.seq = rest.map Sheet.seq ∧ u.brushes[b].anchorT = c ∧
        u.f (Pg.BRUSH b) Reg.BRUSH_SHEET_ID = h.id % 2 ^ 32 ∧ u.fb (Pg.BRUSH b) Reg.BRUSH_STATUS_SHEET_VALID = true ∧
        u.f (Pg.BRUSH b) Reg.BRUSH_SHEETS = satU (s.f (Pg.BRUSH b) Reg.BRUSH_SHEETS + 1) Reg.BRUSH_SHEETS.width) ∧
  (∀ (t : Nat) (b : Fin 16) (h : Sheet) (rest : List Sheet) (c : Nat) (s : State), s.live t → s.isOn (Pg.BRUSH b) = true →
    dueSheets s.brushes[b].queue = h :: rest → h.boundary = some c → h.late = true → (s.upTo t).past h.eff = true → (s.heldAt c = false ∨
    h.medium = true) → s.idsOk b (s.keepSets b s.brushes[b].force h) = true → dramBase ≤ h.list → (∀ i : Nat, i < h.records → ((s.record h i).op ≤ 9 ∨
    (s.record h i).op = opEnd)) → Completes (.lateSheetTakesEffect t b) s fun u =>
      u.f (Pg.BRUSH b) Reg.BRUSH_SHEETS = satU (s.f (Pg.BRUSH b) Reg.BRUSH_SHEETS + 1) Reg.BRUSH_SHEETS.width ∧
        u.f (Pg.BRUSH b) Reg.BRUSH_SHEET_ID = h.id % 2 ^ 32) ∧
  (∀ (t : Nat) (b : Fin 16) (h : Sheet) (r : Rec) (ts : Nat) (s : State), s.live t → s.isOn (Pg.BRUSH b) = true → s.brushes[b].force = some h →
    s.brushes[b].ended = false → s.brushes[b].cur = none → s.record h s.brushes[b].idx = r → s.startTick b r = some ts → r.timed = true →
    (s.upTo t).past (later ts s.brushes[b].prevEnd) = true → s.beforeCut b (later ts s.brushes[b].prevEnd) = true →
    Completes (.timedRecordStart t b) s fun u =>
      u.brushes[b].cur.map Up.ts = some ts ∧ u.brushes[b].idx = s.brushes[b].idx + 1 ∧ u.brushes[b].ord = s.brushes[b].ord + 1 ∧
        u.brushes[b].log.head? = some (later ts s.brushes[b].prevEnd, s.brushes[b].ord) ∧
        u.f (Pg.BRUSH b) Reg.BRUSH_STROKES = satU (s.f (Pg.BRUSH b) Reg.BRUSH_STROKES + 1) Reg.BRUSH_STROKES.width) ∧
  (∀ (t : Nat) (b : Fin 16) (h : Sheet) (v : Up) (s : State), s.live t → s.isOn (Pg.BRUSH b) = true → s.brushes[b].cur = some v →
    (s.upTo t).past v.stop = true → s.brushes[b].force = some h → dramBase ≤ h.list → (∀ i : Nat, i < h.records → ((s.record h i).op ≤ 9 ∨
    (s.record h i).op = opEnd)) → Completes (.timedRecordEnd t b) s fun u =>
      u.brushes[b].cur = none ∧ u.brushes[b].prevEnd = v.stop ∧ u.brushes[b].lastStop = some v.stop) ∧
  (∀ (t : Nat) (b : Fin 16) (h : Sheet) (r : Rec) (ts : Nat) (s : State), s.live t → s.isOn (Pg.BRUSH b) = true → s.brushes[b].force = some h →
    s.brushes[b].ended = false → s.brushes[b].cur = none → s.record h s.brushes[b].idx = r → s.startTick b r = some ts → (r.op = opWaitTime ∨
    r.op = opWaitMedium) → (s.upTo t).past ts = true → s.beforeCut b (later ts s.brushes[b].prevEnd) = true → dramBase ≤ h.list →
    (∀ i : Nat, i < h.records → ((s.record h i).op ≤ 9 ∨ (s.record h i).op = opEnd)) → Completes (.waitComplete t b) s fun u =>
      u.brushes[b].prevEnd = later ts s.brushes[b].prevEnd ∧ u.brushes[b].anchorT = (if r.reanchor then ts else s.brushes[b].anchorT) ∧
        u.pair (Pg.BRUSH b) Reg.BRUSH_ANCHOR_T_LO Reg.BRUSH_ANCHOR_T_HI = (if r.reanchor then ts else s.brushes[b].anchorT) % 2 ^ 48) ∧
  (∀ (t : Nat) (b : Fin 16) (s : State), s.st (Pg.BRUSH b) = stStopping → s.axesServe b = true → s.brushes[b].parkDone = true →
    4 ≤ s.brushes[b].parkOk → Completes (.parkEnd t b) s fun u =>
      u.st (Pg.BRUSH b) = stOff) ∧
  (∀ (t : Nat) (b : Fin 16) (s : State), s.st (Pg.BRUSH b) = stStopping → s.axesServe b = true →
    s.f (Pg.BRUSH b) Reg.BRUSH_START_CFG_PARK_TIMEOUT ≤ s.brushes[b].parkFrames → Completes (.parkTimeout t b) s fun u =>
      u.st (Pg.BRUSH b) = stOff ∧ (u.f (Pg.BRUSH b) Reg.ERROR_STICKY).testBit Sticky.BRUSH_PARK_TIMEOUT = true)

/-- R169, R170, R173, R174, R176, R187: timer edges and the comparator, the burst and the strobe of a power word, and the filtered READY and FAULT
inputs. -/
def Obligations.LaserPorts : Prop :=
  (∀ (t : Nat) (b : Fin 16) (timerA : Bool) (kind : Fin 4) (e : Edge) (s : State), ((if timerA then s.lasers[b].edgesA else s.lasers[b].edgesB).find? fun e => e.kind == kind.val && decide (tickDiff e.tick t ≤ 8)) = some e →
    (s.lasers[b].unpaired.find? fun q => q.1 != timerA && q.2.kind == kind.val && decide (tickDiff q.2.tick t ≤ 8)) = none →
    Completes (.gateEdge t b timerA kind) s fun u =>
      (fun l : Laser => (if timerA then (if kind = 0 ∨ kind = 1 then l.gA else l.pA) else (if kind = 0 ∨ kind = 1 then l.gB else l.pB))) u.lasers[b] = decide (kind.val % 2 = 0) ∧
        (if timerA then u.lasers[b].edgesA else u.lasers[b].edgesB) = (if timerA then s.lasers[b].edgesA else s.lasers[b].edgesB).erase e ∧
        u.lasers[b].unpaired = s.lasers[b].unpaired ++ [(timerA, ({ tick := t, kind := kind.val } : Edge))]) ∧
  (∀ (t : Nat) (b : Fin 16) (timerA : Bool) (kind : Fin 4) (e : Edge) (q : Bool × Edge) (s : State), ((if timerA then s.lasers[b].edgesA else s.lasers[b].edgesB).find? fun e => e.kind == kind.val && decide (tickDiff e.tick t ≤ 8)) = some e →
    (s.lasers[b].unpaired.find? fun q => q.1 != timerA && q.2.kind == kind.val && decide (tickDiff q.2.tick t ≤ 8)) = some q →
    tickDiff q.2.tick t ≤ s.twinTol b → Completes (.gateEdge t b timerA kind) s fun u =>
      u.lasers[b].unpaired = s.lasers[b].unpaired.erase q ∧
        (fun l : Laser => (if timerA then (if kind = 0 ∨ kind = 1 then l.gA else l.pA) else (if kind = 0 ∨ kind = 1 then l.gB else l.pB))) u.lasers[b] = decide (kind.val % 2 = 0) ∧
        u.f (Pg.LASER b) Reg.LASER_TWIN_STATUS_MAX_DIFF = max (s.f (Pg.LASER b) Reg.LASER_TWIN_STATUS_MAX_DIFF) (tickDiff q.2.tick t)) ∧
  (∀ (t : Nat) (b : Fin 16) (q : Bool × Edge) (s : State), (s.lasers[b].unpaired.find? fun q => decide (8 < sdiff48 ((s.upTo t).now : Nat) (q.2.tick : Nat))) = some q →
    s.pageOn (Pg.LASER b) = true → s.pwr.sysOn = true → Completes (.twinUnpairedTimeout t b) s fun u =>
      (u.latched b.val).testBit causeTwin = true ∧ u.f Pg.KNIFE Reg.KNIFE_ARM_STATE = putBit (s.f Pg.KNIFE Reg.KNIFE_ARM_STATE) b false ∧
        (u.f (Pg.LASER b) Reg.ERROR_STICKY).testBit Sticky.LASER_TWIN_MISMATCH = true ∧ u.lasers[b].gatePin = false) ∧
  (∀ (n : Nat) (half : Bool) (b : Fin 16) (s : State), s.st (Pg.LASER b) ≠ stOff → (s.st (Pg.LASER b) ≠ stStopping ∨ s.lasers[b].sent < 2) →
    Completes (.powerBurstStart n half b) s fun u =>
      u.lasers[b].burst = some (latchOf n half, s.burstWord b (latchOf n half)) ∧ u.fb (Pg.LASER b) Reg.LASER_PORT_STATUS_WORDS = true) ∧
  (∀ (n : Nat) (half : Bool) (b : Fin 16) (w : Nat) (s : State), s.lasers[b].burst = some (latchOf n half, w) → s.st (Pg.LASER b) = stOn →
    Completes (.powerWordLatch n half b) s fun u =>
      u.f (Pg.LASER b) Reg.LASER_PORT_STATUS_LAST_POWER = bits w 8 16 ∧
        u.f (Pg.LASER b) Reg.LASER_WORDS_SENT = satU (s.f (Pg.LASER b) Reg.LASER_WORDS_SENT + 1) Reg.LASER_WORDS_SENT.width ∧
        u.lasers[b].burst = none) ∧
  (∀ (n : Nat) (half : Bool) (b : Fin 16) (w : Nat) (s : State), s.lasers[b].burst = some (latchOf n half, w) → s.st (Pg.LASER b) = stStarting →
    s.fb (Pg.LASER b) Reg.LASER_PORT_CFG_READY_REQ = false → Completes (.powerWordLatch n half b) s fun u =>
      u.st (Pg.LASER b) = (if 4 ≤ s.lasers[b].sent + 1 then stOn else stStarting) ∧
        u.f (Pg.LASER b) Reg.LASER_WORDS_SENT = satU (s.f (Pg.LASER b) Reg.LASER_WORDS_SENT + 1) Reg.LASER_WORDS_SENT.width) ∧
  (∀ (t : Nat) (b : Fin 16) (v : Bool) (s : State), s.pageOn (Pg.LASER b) = true → v ≠ s.lasers[b].readyIn →
    Completes (.laserReadyChange t b v) s fun u =>
      u.lasers[b].readyIn = v ∧ u.fb (Pg.LASER b) Reg.LASER_PORT_STATUS_READY = v ∧ u.f (Pg.LASER b) Reg.LASER_READY_LOSSES = (if v = false ∧
        s.isOn (Pg.BRUSH b) = true then satU (s.f (Pg.LASER b) Reg.LASER_READY_LOSSES + 1) Reg.LASER_READY_LOSSES.width else s.f (Pg.LASER b) Reg.LASER_READY_LOSSES)) ∧
  (∀ (t : Nat) (b : Fin 16) (v : Bool) (s : State), s.pageOn (Pg.LASER b) = true → v ≠ s.lasers[b].faultIn →
    Completes (.laserFaultChange t b v) s fun u =>
      u.lasers[b].faultIn = v ∧ u.fb (Pg.LASER b) Reg.LASER_PORT_STATUS_FAULT = v ∧
        u.f (Pg.LASER b) Reg.LASER_LASER_FAULTS = (if v = true then satU (s.f (Pg.LASER b) Reg.LASER_LASER_FAULTS + 1) Reg.LASER_LASER_FAULTS.width else s.f (Pg.LASER b) Reg.LASER_LASER_FAULTS)) ∧
  (∀ (t : Nat) (b : Fin 16) (v : Bool) (s : State), s.pageOn (Pg.LASER b) = true → s.lasers[b].readyIn = true → v = false →
    s.fb (Pg.LASER b) Reg.LASER_PORT_CFG_READY_REQ = true → s.isOn (Pg.BRUSH b) = true → Completes (.laserReadyChange t b v) s fun u =>
      u.st (Pg.BRUSH b) = stFault ∧ u.lasers[b].readyIn = false) ∧
  (∀ (t : Nat) (b : Fin 16) (v : Bool) (s : State), s.pageOn (Pg.LASER b) = true → s.lasers[b].faultIn = false → v = true →
    s.fb (Pg.LASER b) Reg.LASER_PORT_CFG_FAULT_HALT = true → s.isOn (Pg.BRUSH b) = true → Completes (.laserFaultChange t b v) s fun u =>
      u.st (Pg.BRUSH b) = stFault ∧ u.lasers[b].faultIn = true)

/-- R173, R291, R292: the word of a latch stands ready with its tick. With GLAZE_n not ON it carries the weighted power, with GLAZE_n ON the factor
is applied and the latch is counted. -/
def Obligations.PowerWords : Prop :=
  (∀ (n : Nat) (half : Bool) (b : Fin 16) (d : Sched) (s : State), s.domOn 3 = true → s.isOn (Pg.GLAZE b) = false →
    ((s.upTo (t0 n + (if half then 11840 else 3840))).sched b (latchOf n half)) = d → Completes (.glazeCompute n half b) s fun u =>
      u.lasers[b].words.head? = some (latchOf n half, powerWord (latchOf n half) (d.rule == 1 || d.rule == 2) (if d.rule = 0 then 0 else if d.rule = 3 then s.a (Pg.LASER b) Reg.LASER_IDLE_POWER else ((s.upTo (t0 n + (if half then 11840 else 3840))).weigh b (latchOf n half) d).2))) ∧
  (∀ (n : Nat) (half : Bool) (b : Fin 16) (s : State), s.domOn 3 = true → s.isOn (Pg.GLAZE b) = true → s.memErr = [] →
    (((s.upTo (t0 n + (if half then 11840 else 3840))).sched b (latchOf n half)).rule = 1 ∨
    ((s.upTo (t0 n + (if half then 11840 else 3840))).sched b (latchOf n half)).rule = 2) → Completes (.glazeCompute n half b) s fun u =>
      u.f (Pg.GLAZE b) Reg.GLAZE_LATCHES = satU (s.f (Pg.GLAZE b) Reg.GLAZE_LATCHES + 1) Reg.GLAZE_LATCHES.width ∧
        u.f (Pg.GLAZE b) Reg.GLAZE_STATUS_CLASS = ((s.upTo (t0 n + (if half then 11840 else 3840))).sched b (latchOf n half)).cls % 16 ∧
        u.f (Pg.GLAZE b) Reg.GLAZE_STATUS_FACTOR = u.glazes[b].f % 2 ^ 16 ∧ u.lasers[b].words.head?.map Prod.fst = some (latchOf n half))

/-- R223, R232, R243, R244: an engine frame costs 48 CLK_FAST cycles and what its slots take, TRACE_CMD and INJECT act at once. That STOP after the
trigger sets DONE is the model's choice (log entry 72), and so is that LOAD stands from the frame start on (log entry 36). -/
def Obligations.ServoEngines : Prop :=
  (∀ (m : Nat) (e : Fin 4) (s : State), s.domOn 4 = true → s.engineRuns e = true → s.memErr = [] → (∀ a : Fin 64, s.st (Pg.AXIS a) ≠ stStarting) →
    (∀ a : Fin 64, s.fb (Pg.AXIS a) Reg.COMMIT_PENDING = false) → Completes (.engineFrameStart m) s fun u =>
      u.f (Pg.ENGINE e) Reg.ENGINE_LOAD_LAST = satU (48 + ((s.slotsOf e).map fun q => s.slotCost q.2 m).sum) 16 ∧
        u.f (Pg.ENGINE e) Reg.ENGINE_LOAD_PEAK = max (s.f (Pg.ENGINE e) Reg.ENGINE_LOAD_PEAK) (satU (48 + ((s.slotsOf e).map fun q => s.slotCost q.2 m).sum) 16)) ∧
  (∀ (t : Nat) (e : Fin 4) (s : State), s.pageOn (Pg.ENGINE e) = true → s.f (Pg.ENGINE e) Reg.ENGINE_TRACE_CTRL_TRIG ≠ 0 →
    Completes (.traceArm t e) s fun u =>
      u.fb (Pg.ENGINE e) Reg.ENGINE_TRACE_STATUS_ARMED = true ∧ u.fb (Pg.ENGINE e) Reg.ENGINE_TRACE_STATUS_TRIGGERED = false ∧
        u.fb (Pg.ENGINE e) Reg.ENGINE_TRACE_STATUS_DONE = false ∧ u.engines[e].count = 0) ∧
  (∀ (t : Nat) (e : Fin 4) (s : State), s.pageOn (Pg.ENGINE e) = true → s.f (Pg.ENGINE e) Reg.ENGINE_TRACE_CTRL_TRIG = 0 →
    s.f (Pg.ENGINE e) Reg.ENGINE_TRACE_POST ≠ 0 → Completes (.traceArm t e) s fun u =>
      u.fb (Pg.ENGINE e) Reg.ENGINE_TRACE_STATUS_ARMED = true ∧ u.fb (Pg.ENGINE e) Reg.ENGINE_TRACE_STATUS_TRIGGERED = true ∧
        u.engines[e].post = s.f (Pg.ENGINE e) Reg.ENGINE_TRACE_POST) ∧
  (∀ (t : Nat) (e : Fin 4) (s : State), s.pageOn (Pg.ENGINE e) = true → s.fb (Pg.ENGINE e) Reg.ENGINE_TRACE_STATUS_ARMED = true →
    Completes (.traceStop t e) s fun u =>
      u.fb (Pg.ENGINE e) Reg.ENGINE_TRACE_STATUS_ARMED = false ∧
        u.fb (Pg.ENGINE e) Reg.ENGINE_TRACE_STATUS_DONE = (s.fb (Pg.ENGINE e) Reg.ENGINE_TRACE_STATUS_DONE || s.fb (Pg.ENGINE e) Reg.ENGINE_TRACE_STATUS_TRIGGERED)) ∧
  (∀ (t : Nat) (e : Fin 4) (v : Word) (s : State), s.pageOn (Pg.ENGINE e) = true → bits v.toNat 6 10 = 0 → bits v.toNat 4 2 ≠ 3 →
    Completes (.injectWrite t e v) s fun u =>
      u.word (regAddr (Pg.ENGINE e) 0x06C) = v ∧ u.engines[e].prbs = 0x7FFF)

/-- R92, R98, R99: HEAD_DN at its instant, the acceptance of the samples, their deadlines, and the mailbox. -/
def Obligations.HeadLinks : Prop :=
  (∀ (n : Nat) (h : Fin 16) (s : State), s.live (t0 n + 15360) → s.laneUp (headLane h) = true →
    (s.upTo (t0 n + 15360)).stepHolds (headLane h) = false → (s.upTo (t0 n + 15360)).lineFree (headLane h) (t0 n + 15360) = true →
    Completes (.headDnLaunch n) s fun u =>
      u.f (Pg.HEAD h) Reg.HEAD_DN_SENT = satU (s.f (Pg.HEAD h) Reg.HEAD_DN_SENT + 1) Reg.HEAD_DN_SENT.width ∧ u.heads[h].dnTick = t0 n + 15360 ∧
        u.heads[h].judgeFrom = some (s.heads[h].judgeFrom.getD (n + 1)) ∧ u.heads[h].mbxSend = false) ∧
  (∀ (t : Nat) (h : Fin 16) (rx : Nat) (w : Vector Word 8) (k : Nat) (s : State), s.live t → s.laneUp (headLane h) = true →
    w[0].toNat = frameOf t % 2 ^ 32 → s.heads[h].judgeFrom = some k → k ≤ frameOf t → w[5].toNat.testBit 0 = false → t ≤ t0 (frameOf t) + 3840 →
    Completes (.headUpReceive t h rx w) s fun u =>
      u.heads[h].gotA = some (frameOf t) ∧ u.heads[h].missRun = 0 ∧ u.heads[h].pdA = some (frameOf t, bits w[4].toNat 0 16) ∧
        u.f (Pg.HEAD h) Reg.HEAD_HEAD_STATUS_TURN = bits w[5].toNat 16 16) ∧
  (∀ (t : Nat) (h : Fin 16) (rx : Nat) (w : Vector Word 8) (k : Nat) (s : State), s.live t → s.laneUp (headLane h) = true →
    w[0].toNat = frameOf t % 2 ^ 32 → s.heads[h].judgeFrom = some k → k ≤ frameOf t → w[5].toNat.testBit 0 = true → t ≤ t0 (frameOf t) + 11840 →
    Completes (.headUpReceive t h rx w) s fun u =>
      u.heads[h].gotB = some (frameOf t) ∧ u.heads[h].pdB = some (frameOf t, bits w[4].toNat 0 16)) ∧
  (∀ (n : Nat) (h : Fin 16) (k : Nat) (s : State), s.laneUp (headLane h) = true → s.heads[h].judgeFrom = some k → k ≤ n → s.heads[h].gotA ≠ some n →
    Completes (.sampleADeadline n) s fun u =>
      u.f (Pg.HEAD h) Reg.HEAD_UP_MISSING_A = satU (s.f (Pg.HEAD h) Reg.HEAD_UP_MISSING_A + 1) Reg.HEAD_UP_MISSING_A.width ∧
        u.heads[h].missRun = s.heads[h].missRun + 1) ∧
  (∀ (n : Nat) (h : Fin 16) (k : Nat) (s : State), s.laneUp (headLane h) = true → s.heads[h].judgeFrom = some k → k ≤ n → s.heads[h].gotB ≠ some n →
    Completes (.sampleBDeadline n) s fun u =>
      u.f (Pg.HEAD h) Reg.HEAD_UP_MISSING_B = satU (s.f (Pg.HEAD h) Reg.HEAD_UP_MISSING_B + 1) Reg.HEAD_UP_MISSING_B.width ∧
        u.heads[h].missRun = s.heads[h].missRun) ∧
  (∀ (t : Nat) (h : Fin 16) (s : State), s.pageOn (Pg.HEAD h) = true → s.fb (Pg.HEAD h) Reg.HEAD_MBX_STATUS_BUSY = false →
    Completes (.mbxSend t h) s fun u =>
      u.fb (Pg.HEAD h) Reg.HEAD_MBX_STATUS_BUSY = true ∧ u.fb (Pg.HEAD h) Reg.HEAD_MBX_STATUS_DONE = false ∧ u.heads[h].mbxSend = true ∧
        u.heads[h].mbxTag = bits (s.a (Pg.HEAD h) Reg.HEAD_MBX_OUT_HI) 16 8 ∧
        u.heads[h].mbxMsg = s.actPair (Pg.HEAD h) Reg.HEAD_MBX_OUT_LO Reg.HEAD_MBX_OUT_HI) ∧
  (∀ (t : Nat) (h : Fin 16) (s : State), s.fb (Pg.HEAD h) Reg.HEAD_MBX_STATUS_BUSY = true → (s.upTo t).past (s.heads[h].mbxAt + 64 * 16000) = true →
    Completes (.mbxTimeout t h) s fun u =>
      u.fb (Pg.HEAD h) Reg.HEAD_MBX_STATUS_BUSY = false ∧ u.heads[h].mbxSend = false)

/-- R247, R254, R259, R263: a plan tick moves every stepper by one step of the generator, a target written takes effect at the next one, and an up
frame is checked once. -/
def Obligations.Steppers : Prop :=
  (∀ (q : Nat) (n : Fin 8) (s : State), s.domOn 5 = true → (∀ k : Fin 8, s.zeroLimits k (planTick q) = false) → Completes (.planTick q) s fun u =>
      u.steppers[n].tick = q ∧ u.f (Pg.STEP n) Reg.STEP_TICK = q % 2 ^ 32 ∧
        u.pair (Pg.STEP n) Reg.STEP_POS_LO Reg.STEP_POS_HI = wrapU 64 u.steppers[n].g.pos ∧
        u.steppers[n].target = (s.steppers[n].retarget (planTick q)).target) ∧
  (∀ (q : Nat) (n : Fin 8) (s : State), s.domOn 5 = true → (∀ k : Fin 8, s.zeroLimits k (planTick q) = false) → s.st (Pg.STEP n) = stOn →
    s.fb (Pg.STEP n) Reg.COMMIT_PENDING = false → (s.stepLim n).ok = true → Completes (.planTick q) s fun u =>
      u.steppers[n].g = (genStep (s.stepLim n) ((s.steppers[n].retarget (planTick q)).target * 2 ^ 24) (s.fb (Pg.STEP n) Reg.STEP_STATUS_HOLDING) s.steppers[n].g).1) ∧
  (∀ (t : Nat) (n : Fin 8) (v : Word) (s : State), s.pageOn (Pg.STEP n) = true → v.toNat < 2 ^ 8 → Completes (.stepTargetWrite t n v) s fun u =>
      u.steppers[n].writes = s.steppers[n].writes ++ [((s.upTo t).now, signed 40 ((s.word (regAddr (Pg.STEP n) Reg.STEP_TARGET_LO.off)).toNat + v.toNat * 2 ^ 32))]) ∧
  (∀ (t : Nat) (n : Fin 8) (di0 : List (Nat × Bool)) (di1 : List (Nat × Bool)) (di2 : List (Nat × Bool)) (di3 : List (Nat × Bool)) (s : State), s.steppers[n].checked = false →
    s.st (Pg.STEP n) ≠ stOff → (s.upTo t).past (planTick s.steppers[n].tick + diSample (s.f (Pg.STEP n) Reg.STEP_PORT_CFG_DI_DELAY) 127) = true →
    (bits (upWord (di0 ++ di1 ++ di2 ++ di3) (s.f (Pg.STEP n) Reg.STEP_PORT_CFG_DI_DELAY) 0) 24 8 = 0x5A ∧
    (upWord (di0 ++ di1 ++ di2 ++ di3) (s.f (Pg.STEP n) Reg.STEP_PORT_CFG_DI_DELAY) 3) = frameCrc (upWord (di0 ++ di1 ++ di2 ++ di3) (s.f (Pg.STEP n) Reg.STEP_PORT_CFG_DI_DELAY) 0) (upWord (di0 ++ di1 ++ di2 ++ di3) (s.f (Pg.STEP n) Reg.STEP_PORT_CFG_DI_DELAY) 1) (upWord (di0 ++ di1 ++ di2 ++ di3) (s.f (Pg.STEP n) Reg.STEP_PORT_CFG_DI_DELAY) 2) ∧
    bits (upWord (di0 ++ di1 ++ di2 ++ di3) (s.f (Pg.STEP n) Reg.STEP_PORT_CFG_DI_DELAY) 0) 16 8 = (s.steppers[n].tick + 255) % 256) →
    Completes (.upFrameCheck t n di0 di1 di2 di3) s fun u =>
      u.f (Pg.STEP n) Reg.STEP_MEAS_I = (upWord (di0 ++ di1 ++ di2 ++ di3) (s.f (Pg.STEP n) Reg.STEP_PORT_CFG_DI_DELAY) 1) % 2 ^ Reg.STEP_MEAS_I.width ∧
        u.f (Pg.STEP n) Reg.STEP_MEAS_V = (upWord (di0 ++ di1 ++ di2 ++ di3) (s.f (Pg.STEP n) Reg.STEP_PORT_CFG_DI_DELAY) 2) % 2 ^ Reg.STEP_MEAS_V.width ∧
        u.f (Pg.STEP n) Reg.STEP_STATUS_LINK_MISS = 0 ∧ u.steppers[n].checked = true) ∧
  (∀ (t : Nat) (n : Fin 8) (di0 : List (Nat × Bool)) (di1 : List (Nat × Bool)) (di2 : List (Nat × Bool)) (di3 : List (Nat × Bool)) (s : State), s.steppers[n].checked = false →
    s.st (Pg.STEP n) ≠ stOff → (s.upTo t).past (planTick s.steppers[n].tick + diSample (s.f (Pg.STEP n) Reg.STEP_PORT_CFG_DI_DELAY) 127) = true →
    ¬ (bits (upWord (di0 ++ di1 ++ di2 ++ di3) (s.f (Pg.STEP n) Reg.STEP_PORT_CFG_DI_DELAY) 0) 24 8 = 0x5A ∧
    (upWord (di0 ++ di1 ++ di2 ++ di3) (s.f (Pg.STEP n) Reg.STEP_PORT_CFG_DI_DELAY) 3) = frameCrc (upWord (di0 ++ di1 ++ di2 ++ di3) (s.f (Pg.STEP n) Reg.STEP_PORT_CFG_DI_DELAY) 0) (upWord (di0 ++ di1 ++ di2 ++ di3) (s.f (Pg.STEP n) Reg.STEP_PORT_CFG_DI_DELAY) 1) (upWord (di0 ++ di1 ++ di2 ++ di3) (s.f (Pg.STEP n) Reg.STEP_PORT_CFG_DI_DELAY) 2) ∧
    bits (upWord (di0 ++ di1 ++ di2 ++ di3) (s.f (Pg.STEP n) Reg.STEP_PORT_CFG_DI_DELAY) 0) 16 8 = (s.steppers[n].tick + 255) % 256) →
    Completes (.upFrameCheck t n di0 di1 di2 di3) s fun u =>
      u.f (Pg.STEP n) Reg.STEP_LINK_ERRORS = satU (s.f (Pg.STEP n) Reg.STEP_LINK_ERRORS + 1) Reg.STEP_LINK_ERRORS.width ∧
        u.steppers[n].checked = true ∧ u.steppers[n].run = 0) ∧
  (∀ (t : Nat) (n : Fin 8) (s : State), s.st (Pg.STEP n) = stStopping → s.steppers[n].off = 4 →
    (s.upTo t).past (planTick s.steppers[n].tick + 16960) = true → Completes (.stepperHoldEnd t n) s fun u =>
      u.st (Pg.STEP n) = stOff ∧ u.steppers[n].down = [])

/-- R323, R327 to R331, R334: what is queued, what a burst takes from the queues, and what is read back. That bit 0 starts a burst, that a burst's
return is taken by the next command that looks at the port, and that a poll marks a return as due are the model's choices (log entry 45). -/
def Obligations.LightPorts : Prop :=
  (∀ (t : Nat) (n : Fin 4) (v : Word) (s : State), s.pageOn (Pg.LTPORT n) = true → v.toNat < 65536 →
    ((s.upTo t).lightReturn n).lights[n].syncs.length < 4 →
    (((s.upTo t).lightReturn n).lights[n].syncs.getLast?.all fun w => decide (0 < sdiff48 (near48 (s.upTo t).now ((s.word (regAddr (Pg.LTPORT n) Reg.LTPORT_SYNC_AT_LO.off)).toNat + v.toNat * 2 ^ 32) : Nat) (w : Nat))) = true →
    sdiff48 ((s.upTo t).now : Nat) (s.syncStart n (near48 (s.upTo t).now ((s.word (regAddr (Pg.LTPORT n) Reg.LTPORT_SYNC_AT_LO.off)).toNat + v.toNat * 2 ^ 32)) - 1280) ≤ 0 →
    Completes (.syncAtWrite t n v) s fun u =>
      u.lights[n].syncs = ((s.upTo t).lightReturn n).lights[n].syncs ++ [near48 (s.upTo t).now ((s.word (regAddr (Pg.LTPORT n) Reg.LTPORT_SYNC_AT_LO.off)).toNat + v.toNat * 2 ^ 32)]) ∧
  (∀ (t : Nat) (n : Fin 4) (r0 : Word) (r1 : Word) (r2 : Word) (v : Nat) (r : List Nat) (s : State), ((s.upTo t).lightReturn n).isOn (Pg.LTPORT n) = true →
    ((s.upTo t).lightReturn n).lights[n].syncs = v :: r → (s.upTo t).past (s.syncStart n v - 128) = true →
    ((s.upTo t).lightReturn n).lights[n].gapOk (wrapU 64 (s.syncStart n v)) = true →
    0 ≤ sdiff48 (s.syncStart n v) (((s.upTo t).lightReturn n).entered (Pg.LTPORT n) : Nat) → Completes (.lightSyncBurst t n r0 r1 r2) s fun u =>
      u.lights[n].syncs = r ∧
        u.f (Pg.LTPORT n) Reg.LTPORT_SYNCS_SENT = satU (s.f (Pg.LTPORT n) Reg.LTPORT_SYNCS_SENT + 1) Reg.LTPORT_SYNCS_SENT.width ∧
        u.f (Pg.LTPORT n) Reg.LTPORT_FRAMES = satU (s.f (Pg.LTPORT n) Reg.LTPORT_FRAMES + 1) Reg.LTPORT_FRAMES.width ∧
        u.lights[n].lastEnd = some (burstEnd (s.drivers n) (wrapU 64 (s.syncStart n v))) ∧
        u.lights[n].line = some ((wrapU 64 (s.syncStart n v)), ltWord true 0 3 0, s.drivers n - 1)) ∧
  (∀ (t : Nat) (n : Fin 4) (v : Word) (s : State), s.pageOn (Pg.LTPORT n) = true → bits v.toNat 30 1 = 0 → bits v.toNat 8 12 = 0 →
    bits v.toNat 20 4 < 3 → ((s.upTo t).lightReturn n).lights[n].cmds.length < 64 → Completes (.cmdHdrWrite t n v) s fun u =>
      u.lights[n].cmds = ((s.upTo t).lightReturn n).lights[n].cmds ++ [⟨s.f (Pg.LTPORT n) Reg.LTPORT_CMD_DATA, v.toNat % 2 ^ 30, v.toNat.testBit 31, v.toNat.testBit 31⟩]) ∧
  (∀ (t : Nat) (n : Fin 4) (r0 : Word) (r1 : Word) (r2 : Word) (e : LtCmd) (r : List LtCmd) (s : State), ((s.upTo t).lightReturn n).isOn (Pg.LTPORT n) = true →
    ((s.upTo t).lightReturn n).lights[n].gapOk (wrapU 64 (((s.upTo t).now : Int) + 128)) = true →
    ((s.upTo t).lightReturn n).burstFits n (wrapU 64 (((s.upTo t).now : Int) + 128)) = true → ((s.upTo t).lightReturn n).lights[n].pollDue = false →
    ((s.upTo t).lightReturn n).lights[n].nopDue = false → ((s.upTo t).lightReturn n).lights[n].cmds = e :: r → e.wait = false →
    s.fb (Pg.LTPORT n) Reg.LTPORT_PORT_CFG_COMP_EN = false → Completes (.lightBurst t n r0 r1 r2) s fun u =>
      u.lights[n].cmds = r ∧ u.f (Pg.LTPORT n) Reg.LTPORT_FRAMES = satU (s.f (Pg.LTPORT n) Reg.LTPORT_FRAMES + 1) Reg.LTPORT_FRAMES.width ∧
        u.lights[n].lastEnd = some (burstEnd (s.drivers n) (wrapU 64 (((s.upTo t).now : Int) + 128))) ∧
        u.lights[n].line = some ((wrapU 64 (((s.upTo t).now : Int) + 128)), 2 ^ 31 + e.head, e.data)) ∧
  (∀ (t : Nat) (n : Fin 4) (r0 : Word) (r1 : Word) (r2 : Word) (s : State), ((s.upTo t).lightReturn n).isOn (Pg.LTPORT n) = true →
    ((s.upTo t).lightReturn n).lights[n].gapOk (wrapU 64 (((s.upTo t).now : Int) + 128)) = true →
    ((s.upTo t).lightReturn n).burstFits n (wrapU 64 (((s.upTo t).now : Int) + 128)) = true → ((s.upTo t).lightReturn n).lights[n].pollDue = true →
    Completes (.lightBurst t n r0 r1 r2) s fun u =>
      u.lights[n].pollDue = false ∧ u.lights[n].next = (((s.upTo t).lightReturn n).lights[n].next + 1) % max 1 (s.drivers n) ∧
        u.f (Pg.LTPORT n) Reg.LTPORT_FRAMES = satU (s.f (Pg.LTPORT n) Reg.LTPORT_FRAMES + 1) Reg.LTPORT_FRAMES.width ∧
        u.lights[n].back.map LtBack.kind = some (.poll ((s.upTo t).lightReturn n).lights[n].next)) ∧
  (∀ (t : Nat) (n : Fin 4) (s : State), s.isOn (Pg.LTPORT n) = true →
    (s.upTo t).past (s.lights[n].pollAt + s.f (Pg.LTPORT n) Reg.LTPORT_PORT_CFG_POLL * 6400000) = true → Completes (.tempPoll t n) s fun u =>
      u.lights[n].pollDue = true ∧ u.lights[n].pollAt = (s.upTo t).now) ∧
  (∀ (t : Nat) (n : Fin 4) (s : State), s.isOn (Pg.LTPORT n) = true →
    (s.upTo t).past (s.lights[n].lastEnd.getD (s.entered (Pg.LTPORT n)) + 12800000) = true → Completes (.keepAlive t n) s fun u =>
      u.lights[n].nopDue = true) ∧
  (∀ (t : Nat) (n : Fin 4) (s : State), s.pageOn (Pg.LTPORT n) = true → s.lights[n].back = none → Completes (.respPop t n) s fun u =>
      u.lights[n].resps = s.lights[n].resps.drop 1 ∧ u.lights[n].cmds = s.lights[n].cmds) ∧
  (∀ (t : Nat) (n : Fin 4) (b : LtBack) (s : State), s.pageOn (Pg.LTPORT n) = true → s.lights[n].back = some b → b.kind = .host →
    (s.upTo t).past b.lastEdge = true → returnOk b.w0 b.w1 b.r0 b.r1 b.r2 = true → s.lights[n].resps.length < 16 → Completes (.respPop t n) s fun u =>
      u.lights[n].resps = (s.lights[n].resps ++ [(⟨b.r1, b.r0.testBit 19, bits b.r0 24 5, bits b.r0 0 8⟩ : LtResp)]).drop 1 ∧ u.lights[n].fails = 0)

/-- R265 to R268: an FS opens a frame of every context it matches, an FE closes it, a line waits in the input buffer for the pipeline, and what
matches nothing is counted. That a header error counts LINES_LOST of the context the operand names is the model's choice (log entry 42). -/
def Obligations.CameraPackets : Prop :=
  (∀ (t : Nat) (p : Fin 4) (vc : Fin 16) (fn : BitVec 16) (corrected : Bool) (k : Fin 32) (s : State), s.isOn (Pg.CAM p) = true →
    k ∈ s.vcContexts p vc.val → Completes (.csiFrameStart t p vc fn corrected) s fun u =>
      u.streams[k].frames.length = s.streams[k].frames.length + 1 ∧ u.streams[k].nextId = s.streams[k].nextId + 1 ∧
        u.streams[k].frames.getLast?.map VFrame.fsTime = some (s.upTo t).now ∧ u.fb (Pg.STREAM k) Reg.STREAM_STATUS_OPEN = true ∧
        u.f (Pg.CAM p) Reg.CAM_PACKETS = satU (s.f (Pg.CAM p) Reg.CAM_PACKETS + 1) Reg.CAM_PACKETS.width) ∧
  (∀ (t : Nat) (p : Fin 4) (vc : Fin 16) (corrected : Bool) (k : Fin 32) (s : State), s.isOn (Pg.CAM p) = true → k ∈ s.vcContexts p vc.val →
    s.streams[k].open?.isSome = true → Completes (.csiFrameEnd t p vc corrected) s fun u =>
      u.streams[k].open? = none ∧ u.fb (Pg.STREAM k) Reg.STREAM_STATUS_OPEN = false ∧
        u.f (Pg.STREAM k) Reg.STREAM_FRAMES = satU (s.f (Pg.STREAM k) Reg.STREAM_FRAMES + 1) Reg.STREAM_FRAMES.width) ∧
  (∀ (t : Nat) (p : Fin 4) (vc : Fin 16) (dt : Fin 64) (l : List Byte) (crcOk : Bool) (corrected : Bool) (k : Fin 32) (g : VFrame) (s : State), s.isOn (Pg.CAM p) = true →
    ((s.vcContexts p vc.val).filter fun (k : Fin 32) => takesType dt.val && s.f (Pg.STREAM k.val) Reg.STREAM_CTX_CFG_DT == dt.val) = [k] →
    s.streams[k].open? = some g → g.seen < s.f (Pg.STREAM k) Reg.STREAM_GEOM_HEIGHT → bufUsed s.cams[p] + l.length ≤ 65536 → crcOk = true →
    Completes (.csiLongPacket t p vc dt l crcOk corrected) s fun u =>
      u.cams[p] = s.cams[p] ++ [(⟨k, g.id, g.seen, s.camPorts[p].pos, l⟩ : Packet)] ∧
        u.f (Pg.CAM p) Reg.CAM_PACKETS = satU (s.f (Pg.CAM p) Reg.CAM_PACKETS + 1) Reg.CAM_PACKETS.width ∧
        u.streams[k].open? = some { g with seen := g.seen + 1, lines := g.lines + 1 }) ∧
  (∀ (t : Nat) (p : Fin 4) (kind : CsiDiscard) (s : State), s.isOn (Pg.CAM p) = true → Completes (.csiUnmatchedPacket t p kind) s fun u =>
      u.f (Pg.CAM p) Reg.CAM_UNMATCHED = (if (kind matches .short _) then satU (s.f (Pg.CAM p) Reg.CAM_UNMATCHED + 1) Reg.CAM_UNMATCHED.width else s.f (Pg.CAM p) Reg.CAM_UNMATCHED) ∧
        u.f (Pg.CAM p) Reg.CAM_PHY_ERRORS = (if (kind matches .sot) then satU (s.f (Pg.CAM p) Reg.CAM_PHY_ERRORS + 1) Reg.CAM_PHY_ERRORS.width else s.f (Pg.CAM p) Reg.CAM_PHY_ERRORS) ∧
        u.f (Pg.CAM p) Reg.CAM_HDR_UNCORR = (if (kind matches .header _) then satU (s.f (Pg.CAM p) Reg.CAM_HDR_UNCORR + 1) Reg.CAM_HDR_UNCORR.width else s.f (Pg.CAM p) Reg.CAM_HDR_UNCORR) ∧
        (∀ j : Fin 8, kind = .header (some j) → s.isOn (Pg.STREAM (8 * p.val + j.val)) = true →
        u.f (Pg.STREAM (8 * p.val + j.val)) Reg.STREAM_LINES_LOST = satU (s.f (Pg.STREAM (8 * p.val + j.val)) Reg.STREAM_LINES_LOST + 1) Reg.STREAM_LINES_LOST.width)) ∧
  (∀ (t : Nat) (k : Fin 32) (g : VFrame) (s : State), s.streams[k].open? = some g →
    (s.upTo t).past (g.fsTime + s.f (Pg.STREAM k) Reg.STREAM_FRAME_LIMIT) = true → Completes (.frameLimitExpiry t k) s fun u =>
      u.streams[k].open? = none ∧
        u.f (Pg.STREAM k) Reg.STREAM_TRUNCATED = satU (s.f (Pg.STREAM k) Reg.STREAM_TRUNCATED + 1) Reg.STREAM_TRUNCATED.width ∧
        u.f (Pg.STREAM k) Reg.STREAM_FRAMES = satU (s.f (Pg.STREAM k) Reg.STREAM_FRAMES + 1) Reg.STREAM_FRAMES.width)

/-- R267, R270 to R272, R277 to R282: the pipeline takes packets in order, a frame that has ended gives its records, they are released in order,
delivered in batches, and images leave on the host port. That a MET frame waits in a queue while its peer lane is busy is the model's choice (log
entry 54). -/
def Obligations.VisionPipeline : Prop :=
  (∀ (t : Nat) (p : Fin 4) (q : Packet) (r : List Packet) (g : VFrame) (s : State), s.cams[p] = q :: r →
    (s.streams[q.ctx % 32]).frames.find? (fun f => f.id == q.frame) = some g → (g.throttled = true ∨
    (rawWidth (s.f (Pg.STREAM (q.ctx % 32)) Reg.STREAM_CTX_CFG_DT)).isSome = true ∨ s.f (Pg.STREAM (q.ctx % 32)) Reg.STREAM_CTX_CFG_KIND = 1) →
    (s.f (Pg.STREAM (q.ctx % 32)) Reg.STREAM_CTX_CFG_KIND ≠ 0 ∨ s.roisOk ⟨q.ctx % 32, Nat.mod_lt _ (by decide)⟩ = true) →
    s.slotOk ⟨q.ctx % 32, Nat.mod_lt _ (by decide)⟩ g = true → s.dmaBreach = false →
    (∀ j ∈ g.slot, s.askable (s.slotAddr ⟨q.ctx % 32, Nat.mod_lt _ (by decide)⟩ j + q.line * s.stride ⟨q.ctx % 32, Nat.mod_lt _ (by decide)⟩) (s.stride ⟨q.ctx % 32, Nat.mod_lt _ (by decide)⟩)) →
    Completes (.pipelinePacket t p) s fun u =>
      u.cams[p] = r ∧ u.f (Pg.CAM p) Reg.CAM_CAM_STATUS_BUF_USED = (bufUsed r + 63) / 64 % 2 ^ Reg.CAM_CAM_STATUS_BUF_USED.width) ∧
  (∀ (t : Nat) (k : Fin 32) (g : VFrame) (r : List VFrame) (s : State), s.streams[k].frames = g :: r → g.ended = true →
    (s.cams[streamPort k].any fun q => q.ctx == k.val && q.frame == g.id) = false → g.throttled = false →
    s.f (Pg.STREAM k) Reg.STREAM_CTX_CFG_KIND = 0 → g.rois ≠ [] → s.isOn Pg.VISION = true → Completes (.frameRecordsComplete t k) s fun u =>
      u.streams[k].frames = r ∧
        u.vision.complete = s.vision.complete ++ [⟨s.classOf k, g.fsTime, k, (g.rois.mapIdx fun j x => s.fullRecord k g j x).map Prod.fst⟩]) ∧
  (∀ (t : Nat) (cls : Fin 2) (d : DoneFrame) (l : List Byte) (r : List (List Byte)) (s : State), s.isOn Pg.VISION = true → s.firstDone cls = some d →
    s.earlierOpen cls (d.fsTime, d.ctx) = false → d.recs = l :: r →
    (s.f Pg.VISION (Reg.VISION_MRING_WR.num cls) + 2 ^ 32 - s.f Pg.VISION (Reg.VISION_MRING_RD.num cls)) % 2 ^ 32 ≠ 2 ^ s.f Pg.VISION (Reg.VISION_MRING_SIZE.num cls) →
    s.vision.queue.length < 256 →
    s.askable (s.a Pg.VISION (Reg.VISION_MRING_BASE_LO.num cls) * 64 + s.a Pg.VISION (Reg.VISION_MRING_BASE_HI.num cls) * 2 ^ 32 + s.f Pg.VISION (Reg.VISION_MRING_WR.num cls) % 2 ^ s.f Pg.VISION (Reg.VISION_MRING_SIZE.num cls) * 320) l.length →
    Completes (.recordReady t cls) s fun u =>
      u.f Pg.VISION (Reg.VISION_MRING_WR.num cls) = (s.f Pg.VISION (Reg.VISION_MRING_WR.num cls) + 1) % 2 ^ 32 ∧
        u.vision.queue = s.vision.queue ++ (if cls = 0 then [((s.upTo t).now, shortRecord l)] else []) ∧
        u.vision.complete = s.vision.complete.filterMap fun e => if e = d then (if r = [] then none else some { d with recs := r }) else some e) ∧
  (∀ (n : Nat) (e : Nat × List (List Byte)) (s : State), s.isOn Pg.VISION = true → s.peerMet = false →
    s.vision.batches.find? (fun e => e.1 == n) = some e → Completes (.batchDeliver n) s fun u =>
      u.vision.batches = s.vision.batches.filter fun x => x.1 != n ∧
        u.f Pg.VISION Reg.VISION_RELEASED = satU (s.f Pg.VISION Reg.VISION_RELEASED + e.2.length) Reg.VISION_RELEASED.width) ∧
  (∀ (t : Nat) (k : Fin 32) (m : Img) (off x : Nat) (h : Fin 20) (pl : List Byte) (s : State), s.streams[k].nextImage = some (m, off) → 0 < m.len →
    h.val < 2 → s.f (Pg.STREAM k) Reg.STREAM_STORE_CFG_HOST = h.val + 1 → s.pageOn (Pg.STREAM k) = true → s.laneUp h.val = true →
    x = min (m.len - off) (256 * 2 ^ s.laneRate h) →
    pl = leBytes 4 (m.seq * 65536 + k * 256 + 2 * b2n (decide (m.len ≤ off + x)) + b2n (off == 0)) ++ leBytes 4 off ++ s.bytes (s.slotAddr k m.slot + off) x →
    (s.upTo t).mayStart h ⟨0x0C, (s.upTo t).nextSeq h 0x0C, 0, pl⟩ = true → s.dramOn = true → s.askable (s.slotAddr k m.slot + off) x →
    Completes (.streamFrameSend t k) s fun u =>
      u.streams[k].sending = (if m.len ≤ off + x then none else some (m, off + x)) ∧
        u.lanes[h].tx.map (fun q => (q.2.ty, q.2.payload)) = some (0x0C, pl) ∧
        u.fb (Pg.STREAM k) Reg.STREAM_STATUS_SENDING = decide (off + x < m.len)) ∧
  (∀ (n : Nat) (l : Fin 20) (pl : List Byte) (s : State), s.isOn Pg.VISION = true → s.isOn Pg.DIPTYCH = true → s.roleB = false → (l = 2 ∨ l = 3) →
    s.laneUp l.val = true → s.lanes[l].waits = [] → pl = metPayload n ((s.vision.batches.find? fun e => e.1 == n).elim [] Prod.snd) →
    (s.upTo (t0 n + 4800)).mayStart l ⟨0x0B, (s.upTo (t0 n + 4800)).nextSeq l 0x0B, 0, pl⟩ = true → Completes (.metLaunch n) s fun u =>
      u.lanes[l].tx.map (fun q => (q.2.ty, q.2.payload)) = some (0x0B, pl) ∧ u.lanes[l].waits = [] ∧ (s.laneUp 2 = false ∨ s.laneUp 3 = false →
        u.f Pg.VISION Reg.VISION_MET_SENT = satU (s.f Pg.VISION Reg.VISION_MET_SENT + 1) Reg.VISION_MET_SENT.width)) ∧
  (∀ (n : Nat) (l : Fin 20) (pl : List Byte) (s : State), s.isOn Pg.VISION = true → s.isOn Pg.DIPTYCH = true → s.roleB = false → (l = 2 ∨ l = 3) →
    s.laneUp l.val = true → s.lanes[l].waits = [] → pl = metPayload n ((s.vision.batches.find? fun e => e.1 == n).elim [] Prod.snd) →
    (s.upTo (t0 n + 4800)).mayStart l ⟨0x0B, (s.upTo (t0 n + 4800)).nextSeq l 0x0B, 0, pl⟩ = false → Completes (.metLaunch n) s fun u =>
      u.lanes[l].waits = [(0x0B, pl)] ∧ u.lanes[l].tx = s.lanes[l].tx) ∧
  (∀ (t : Nat) (frame : Word) (count : Fin 5) (l : List Byte) (s : State), s.live t → s.isOn Pg.VISION = true → s.peerMet = true →
    (s.vision.met.any fun e => e.1 == frame.toNat) = false → frame.toNat = frameOf t % 2 ^ 32 → Completes (.metReceive t frame count l) s fun u =>
      u.vision.met = some (frame.toNat, chunk32 count l))

/-- R273: a launch takes a sequence number and starts a pulse, which ends at v + WIDTH; ONESHOT queues one launch. -/
def Obligations.CameraTriggers : Prop :=
  (∀ (t : Nat) (o : Fin 8) (k : Fin 32) (v : Nat) (s : State), ((s.owners o).filter fun (k : Fin 32) => s.isOn (Pg.STREAM k.val)) = [k] →
    s.launchTick k o = some v → (s.upTo t).past v = true → s.fb (Pg.STREAM k) Reg.COMMIT_PENDING = false → s.pulseOk k = true →
    Completes (.triggerLaunch t o) s fun u =>
      u.trigs[o].seq = (s.trigs[o].seq + 1) % 65536 ∧ u.trigs[o].endAt = some (v + s.a (Pg.STREAM k) Reg.STREAM_EXPOSURE) ∧
        u.trigs[o].oneshot = none ∧ u.trigs[o].next = (s.trigs[o].next.map fun _ => v + s.a (Pg.STREAM k) Reg.STREAM_TRIG_PERIOD) ∧
        u.f (Pg.STREAM k) Reg.STREAM_TRIGGERS = satU (s.f (Pg.STREAM k) Reg.STREAM_TRIGGERS + 1) Reg.STREAM_TRIGGERS.width) ∧
  (∀ (t : Nat) (o : Fin 8) (v : Nat) (s : State), s.trigs[o].endAt = some v → (s.upTo t).past v = true → Completes (.triggerEnd t o) s fun u =>
      u.trigs[o].endAt = none ∧ u.trigs[o].seq = s.trigs[o].seq) ∧
  (∀ (t : Nat) (k : Fin 32) (v : Word) (s : State), s.isOn (Pg.STREAM k) = true → v.toNat < 65536 → s.f (Pg.STREAM k) Reg.STREAM_TRIG_CFG_MODE = 1 →
    s.ownsTrig k = true →
    640 ≤ sdiff48 (near48 (s.upTo t).now ((s.word (regAddr (Pg.STREAM k) Reg.STREAM_ONESHOT_LO.off)).toNat + v.toNat * 2 ^ 32) : Nat) ((s.upTo t).now : Nat) →
    Completes (.oneshotWrite t k v) s fun u =>
      u.trigs[s.trigOf k].oneshot = some (near48 (s.upTo t).now ((s.word (regAddr (Pg.STREAM k) Reg.STREAM_ONESHOT_LO.off)).toNat + v.toNat * 2 ^ 32)))

/-- R339 to R344: a row is started, passes or fails, a corrected word is written back, and FAIL_CLEAR empties the log. -/
def Obligations.Banks : Prop :=
  (∀ (t : Nat) (b : Nat) (s : State), s.isOn Pg.BANKS = true → s.bankTest.active = false →
    (s.bankTest.lastStart.all fun v => (s.upTo t).past (v + s.f Pg.BANKS Reg.BANKS_BG_CFG_INTERVAL * 102400)) = true → s.testPaused = false →
    s.nextBank s.bankTest.bank = some b → Completes (.bgRowStart t) s fun u =>
      u.bankTest.active = true ∧ u.bankTest.bank = b ∧ u.bankTest.lastStart = some (s.upTo t).now ∧ u.fb Pg.BANKS Reg.BANKS_BG_STATUS_ACTIVE = true ∧
        u.f Pg.BANKS Reg.BANKS_BG_STATUS_BANK = b % 2 ^ 5 ∧ (b = s.bankTest.bank → u.bankTest.row = s.bankTest.row % bankRows b)) ∧
  (∀ (t : Nat) (failed : Bool) (s : State), s.bankTest.active = true → s.domOn (bankDomain s.bankTest.bank) = true →
    (s.upTo t).past ((if failed then s.bankTest.marchAt else s.bankTest.restoreAt + 64 * bankPeriod s.bankTest.bank) % 2 ^ 64) = true →
    Completes (.bgRowDone t failed) s fun u =>
      u.bankTest.active = false ∧ u.fb Pg.BANKS Reg.BANKS_BG_STATUS_ACTIVE = false ∧
        u.f Pg.BANKS Reg.BANKS_ROWS_TESTED = (if failed then s.f Pg.BANKS Reg.BANKS_ROWS_TESTED else satU (s.f Pg.BANKS Reg.BANKS_ROWS_TESTED + 1) Reg.BANKS_ROWS_TESTED.width) ∧
        u.f Pg.BANKS Reg.BANKS_ROW_FAILS = (if failed then satU (s.f Pg.BANKS Reg.BANKS_ROW_FAILS + 1) Reg.BANKS_ROW_FAILS.width else s.f Pg.BANKS Reg.BANKS_ROW_FAILS) ∧
        (failed = true → u.f Pg.BANKS Reg.BANKS_SPARE_IN_USE = putBit (s.f Pg.BANKS Reg.BANKS_SPARE_IN_USE) s.bankTest.bank true % 2 ^ Reg.BANKS_SPARE_IN_USE.width)) ∧
  (∀ (t : Nat) (b : Fin 20) (off : Nat) (s : State), bankAt ((bankBase b + off) / 8 * 8) = some b.val → s.errAt ((bankBase b + off) / 8 * 8) = 1 →
    Completes (.bankEccWriteback t b off) s fun u =>
      u.errAt ((bankBase b + off) / 8 * 8) = 0 ∧ SameMem s u) ∧
  (∀ (t : Nat) (s : State), s.pageOn Pg.BANKS = true → Completes (.failClear t) s fun u =>
      (∀ k : Fin 16, u.word (regAddr Pg.BANKS (0x80 + 4 * k)) = 0#32))

/-- R350, R352, R355, R356, R358, R359: which request is served, promotion by age, idle pages, refresh, derating, write-back and training. That
reads and writes are ranked together by class, open page and age, and that a promoted request is one of class C0, is the model's choice (log entry
47). -/
def Obligations.Dram : Prop :=
  (∀ (t : Nat) (i : Fin 2) (r : DramReq) (s : State), (s.st (Pg.DRAM i) = stOn ∨ s.st (Pg.DRAM i) = stStopping) → s.retrain.testBit i.val = false →
    s.drams[i].next = some (.read r) → Completes (.dramCommandIssue t i) s fun u =>
      u.drams[i].reads = s.drams[i].reads.erase r ∧ u.drams[i].wq = s.drams[i].wq ∧
        u.f (Pg.DRAM i) Reg.DRAM_READ_GRANULES = satU (s.f (Pg.DRAM i) Reg.DRAM_READ_GRANULES + 1) Reg.DRAM_READ_GRANULES.width) ∧
  (∀ (t : Nat) (i : Fin 2) (e : WqEntry) (s : State), (s.st (Pg.DRAM i) = stOn ∨ s.st (Pg.DRAM i) = stStopping) → s.retrain.testBit i.val = false →
    s.drams[i].next = some (.write e) → Completes (.dramCommandIssue t i) s fun u =>
      u.drams[i].wq = s.drams[i].wq.erase e ∧ u.drams[i].reads = s.drams[i].reads ∧
        u.f (Pg.DRAM i) Reg.DRAM_WRITE_GRANULES = satU (s.f (Pg.DRAM i) Reg.DRAM_WRITE_GRANULES + 1) Reg.DRAM_WRITE_GRANULES.width) ∧
  (∀ (t : Nat) (i : Fin 2) (s : State), Completes (.agePromotion t i) s fun u =>
      u.drams[i].reads = (s.drams[i].reads.map fun r => if r.cls ≠ 0 ∧
        (s.upTo t).past (r.at_ + r.limit) = true then { r with promoted := true } else r) ∧ u.drams[i].wq = (s.drams[i].wq.map fun w => if w.cls ≠ 0 ∧
        (s.upTo t).past (w.at_ + w.limit) = true then { w with promoted := true } else w) ∧
        u.f (Pg.DRAM i) Reg.DRAM_PROMOTIONS = satU (s.f (Pg.DRAM i) Reg.DRAM_PROMOTIONS + ((s.drams[i].reads.filter fun r => !r.promoted && r.cls != 0 && (s.upTo t).past (r.at_ + r.limit)).length + (s.drams[i].wq.filter fun w => !w.promoted && w.cls != 0 && (s.upTo t).past (w.at_ + w.limit)).length)) Reg.DRAM_PROMOTIONS.width) ∧
  (∀ (t : Nat) (i : Fin 2) (b : Fin 16) (g : OpenPage) (s : State), s.drams[i].pages[b] = some g →
    (s.upTo t).past (g.used + s.f (Pg.DRAM i) Reg.DRAM_SCHED_PAGE_IDLE * 256) = true → Completes (.pageIdleClose t i b) s fun u =>
      u.drams[i].pages = s.drams[i].pages.set b none) ∧
  (∀ (t : Nat) (i : Fin 2) (b : Fin 16) (s : State), (s.st (Pg.DRAM i) = stOn ∨ s.st (Pg.DRAM i) = stStopping) → s.retrain.testBit i.val = false →
    (((s.drams[i].reads.any fun r => (r.cls == 0 || r.promoted) && granBank r.gran == b) || s.drams[i].wq.any fun w => w.promoted && granBank w.gran == b) = false ∨
    8 ≤ s.drams[i].postponed[b]) → Completes (.refreshDue t i b) s fun u =>
      u.drams[i].pages = s.drams[i].pages.set b none ∧ u.drams[i].postponed = s.drams[i].postponed.set b 0) ∧
  (∀ (t : Nat) (i : Fin 2) (b : Fin 16) (s : State), (s.st (Pg.DRAM i) = stOn ∨ s.st (Pg.DRAM i) = stStopping) → s.retrain.testBit i.val = false →
    ((s.drams[i].reads.any fun r => (r.cls == 0 || r.promoted) && granBank r.gran == b) || s.drams[i].wq.any fun w => w.promoted && granBank w.gran == b) = true →
    s.drams[i].postponed[b] < 8 → Completes (.refreshDue t i b) s fun u =>
      u.drams[i].pages = s.drams[i].pages ∧ u.drams[i].postponed = s.drams[i].postponed.set b (s.drams[i].postponed[b] + 1) ∧
        u.f (Pg.DRAM i) Reg.DRAM_REF_POSTPONED = satU (s.f (Pg.DRAM i) Reg.DRAM_REF_POSTPONED + 1) Reg.DRAM_REF_POSTPONED.width) ∧
  (∀ (t : Nat) (i : Fin 2) (rate : Vector (Fin 32) 2) (hot : Bool) (s : State), (s.st (Pg.DRAM i) = stOn ∨ s.st (Pg.DRAM i) = stStopping) →
    s.retrain.testBit i.val = false → Completes (.mr4Poll t i rate hot) s fun u =>
      u.f (Pg.DRAM i) Reg.DRAM_STATUS_REF_RATE = max rate[0].val rate[1].val % 2 ^ Reg.DRAM_STATUS_REF_RATE.width ∧
        u.fb (Pg.DRAM i) Reg.DRAM_STATUS_HOT = hot ∧ (hot = true → (u.f (Pg.DRAM i) Reg.ERROR_STICKY).testBit Sticky.DRAM_DRAM_HOT = true)) ∧
  (∀ (t : Nat) (addr : Nat) (s : State), dramBase ≤ addr → s.fb (Pg.DRAM (s.dramLoc addr).1) Reg.DRAM_CFG_ECC_EN = true →
    (s.st (Pg.DRAM (s.dramLoc addr).1) = stOn ∨ s.st (Pg.DRAM (s.dramLoc addr).1) = stStopping) → s.retrain.testBit (s.dramLoc addr).1.val = false →
    s.drams[(s.dramLoc addr).1].fixes.contains ((s.dramLoc addr).2 / 64) = true → s.errAt addr = 1 → TabWf zeroNat s.memErr →
    Completes (.dramEccWriteback t addr) s fun u =>
      u.errAt addr = 0 ∧ SameMem s u ∧ u.drams[(s.dramLoc addr).1].fixes.contains ((s.dramLoc addr).2 / 64) = false) ∧
  (∀ (t : Nat) (mask : Fin 4) (s : State), s.pageOn Pg.DTRAIN = true →
    ((blkPages .brush ++ blkPages .raster ++ blkPages .stream ++ [Pg.VISION]).all fun q => s.st q == stOff) = true → s.retrain = 0 →
    Completes (.retrain t mask) s fun u =>
      u.training = (if mask.val = 0 then s.training else s.training ||| mask.val) ∧ u.retrain = mask.val) ∧
  (∀ (t : Nat) (rd : Vector (BitVec 128) 8) (wr : Vector (BitVec 128) 8) (initOk : Vector Bool 2) (s : State), s.training ≠ 0 →
    s.isOn Pg.DTRAIN = true → Completes (.trainingDone t rd wr initOk) s fun u =>
      u.training = 0 ∧ u.retrain = 0 ∧ (u.f Pg.DTRAIN Reg.EVENT).testBit Ev.DTRAIN_TRAIN_DONE = true)

/-- R362, R365, R367: a round takes every reading with its trim, the grace time ends in enforcement, and held sheets take effect at the release
instant. That each held boundary has its own stretch, and that boundaries of several brushes at one tick are held as one, is the model's choice (log
entry 49). -/
def Obligations.Thermal : Prop :=
  (∀ (r : Nat) (raw : Vector (BitVec 16) 14) (i : Fin 14) (s : State), s.isOn Pg.THERM = true → s.sensorRead i.val = true →
    Completes (.sensorRoundEnd r raw) s fun u =>
      u.fi Pg.THERM (tempFld i.val) = s.sensorValue i.val (rawReading raw i.val)) ∧
  (∀ (n : Nat) (g : Nat) (s : State), s.isOn Pg.THERM = true → s.pwr.dev ≠ .shutdown → s.fb Pg.THERM Reg.THERM_STATUS_WARN = true →
    s.therm.graceFrom = some g → g + s.f Pg.THERM Reg.THERM_GRACE * 400 ≤ n → Completes (.graceExpiry n) s fun u =>
      u.therm.graceFrom = none ∧ u.fb Pg.THERM Reg.THERM_STATUS_ENFORCED = true ∧ u.fb Pg.THERM Reg.THERM_STATUS_GRACE = false ∧
        u.f Pg.THERM Reg.THERM_ENFORCEMENTS = satU (s.f Pg.THERM Reg.THERM_ENFORCEMENTS + 1) Reg.THERM_ENFORCEMENTS.width ∧
        (s.pageOn Pg.VISION = true → u.fb Pg.VISION Reg.VISION_STATUS_THROTTLE = true)) ∧
  (∀ (t : Nat) (l : List Nat) (c : Nat) (s : State), s.therm.held = l → l ≠ [] → s.therm.release = some c →
    s.fb Pg.THERM Reg.THERM_STATUS_ENFORCED = false → (s.upTo t).past (releaseAt c) = true → s.listsOk → Completes (.heldSheetRelease t) s fun u =>
      u.therm.held = [] ∧ u.fb Pg.THERM Reg.THERM_STATUS_STRETCHING = false ∧
        u.pair Pg.THERM Reg.THERM_STRETCH_LO Reg.THERM_STRETCH_HI = satU (s.pair Pg.THERM Reg.THERM_STRETCH_LO Reg.THERM_STRETCH_HI + (l.map (stretchOf (releaseAt c))).sum) (Reg.THERM_STRETCH_LO.width + Reg.THERM_STRETCH_HI.width) ∧
        (∀ n : Fin 16, u.brushes[n].stretch = s.brushes[n].stretch + (s.stretchFrom n).elim 0 (stretchOf (releaseAt c))))

/-- R386 to R389: a run begins when its precondition holds. Its end puts the new values in force: DELAY the selection of each step that passes,
SENSOR the offset of each valid sensor within 640, LANE the segments of each leg that has a good one, and SAVE writes the record of the values in
force to the copy not in use. A run whose precondition has failed is abandoned and keeps the values. That a VALID bit is set where at least one item
of its kind came from the run, that a run is abandoned as soon as its condition fails, and that RESULT 3 asserts CAL_FAIL are the model's choices
(log entry 50). -/
def Obligations.Calibration : Prop :=
  (∀ (t : Nat) (target : Fin 32) (s : State), s.pageOn Pg.CALIB = true → s.fb Pg.CALIB Reg.CALIB_STATUS_BUSY = false → s.en Pg.CALIB = true →
    s.calHolds 1 target.val = true → Completes (.calDelay t target) s fun u =>
      u.cal.run = some { op := 1, target := target.val, start := (s.upTo t).now } ∧ u.fb Pg.CALIB Reg.CALIB_STATUS_BUSY = true ∧
        u.f Pg.CALIB Reg.CALIB_STATUS_RESULT = 0) ∧
  (∀ (t : Nat) (s : State), s.pageOn Pg.CALIB = true → s.fb Pg.CALIB Reg.CALIB_STATUS_BUSY = false → s.en Pg.CALIB = true → s.calHolds 2 0 = true →
    Completes (.calSensor t) s fun u =>
      u.cal.run = some { op := 2, target := 0, start := (s.upTo t).now } ∧ u.fb Pg.CALIB Reg.CALIB_STATUS_BUSY = true ∧
        u.f Pg.CALIB Reg.CALIB_STATUS_RESULT = 0) ∧
  (∀ (t : Nat) (target : Fin 32) (s : State), s.pageOn Pg.CALIB = true → s.fb Pg.CALIB Reg.CALIB_STATUS_BUSY = false → s.en Pg.CALIB = true →
    s.calHolds 3 target.val = true → (4 ≤ target.val ∨ s.f Pg.CLK Reg.CLK_REF_STATUS_SELECTED ≠ target.val) → Completes (.calLane t target) s fun u =>
      u.cal.run = some { op := 3, target := target.val, start := (s.upTo t).now } ∧ u.fb Pg.CALIB Reg.CALIB_STATUS_BUSY = true ∧
        u.f Pg.CALIB Reg.CALIB_STATUS_RESULT = 0) ∧
  (∀ (t : Nat) (s : State), s.pageOn Pg.CALIB = true → s.fb Pg.CALIB Reg.CALIB_STATUS_BUSY = false → s.en Pg.CALIB = true → s.calHolds 4 0 = true →
    Completes (.calSave t) s fun u =>
      u.cal.run = some { op := 4, target := 0, start := (s.upTo t).now } ∧ u.fb Pg.CALIB Reg.CALIB_STATUS_BUSY = true ∧
        u.f Pg.CALIB Reg.CALIB_STATUS_RESULT = 0) ∧
  (∀ (t : Nat) (cells : Vector (Vector (Option (BitVec 16)) 24) 32) (segP : Vector (Option Word) 16) (segN : Vector (Option Word) 16) (ok : Bool) (r : CalRun) (s : State), s.cal.run = some r →
    r.op = 1 → s.calHolds 1 r.target = true → Completes (.calDone t cells segP segN ok) s fun u =>
      u.cal.run = none ∧ u.fb Pg.CALIB Reg.CALIB_STATUS_BUSY = false ∧ (u.f Pg.CALIB Reg.EVENT).testBit Ev.CALIB_CAL_DONE = true ∧
        (∀ i : Fin 32, u.trim 0 (32 * r.target + i.val) = (selectCells (cells[i].toList.map (·.map BitVec.toNat))).getD (s.trim 0 (32 * r.target + i.val))) ∧
        (∀ j : Fin 512, j.val / 32 ≠ r.target → u.trim 0 j.val = s.trim 0 j.val) ∧
        (u.f Pg.CALIB Reg.CALIB_DELAY_FAIL).testBit r.target = decide (∃ i : Fin 32, selectCells (cells[i].toList.map (·.map BitVec.toNat)) = none) ∧
        u.f Pg.CALIB Reg.CALIB_STATUS_RESULT = (if (∃ i : Fin 32, selectCells (cells[i].toList.map (·.map BitVec.toNat)) = none) then 3 else 1) ∧
        u.cal.brushValid = putBit s.cal.brushValid r.target (s.cal.brushValid.testBit r.target || decide (∃ i : Fin 32, (selectCells (cells[i].toList.map (·.map BitVec.toNat))).isSome = true))) ∧
  (∀ (t : Nat) (cells : Vector (Vector (Option (BitVec 16)) 24) 32) (segP : Vector (Option Word) 16) (segN : Vector (Option Word) 16) (ok : Bool) (r : CalRun) (s : State), s.cal.run = some r →
    r.op = 2 → s.calHolds 2 r.target = true → 16 ≤ r.rounds → Completes (.calDone t cells segP segN ok) s fun u =>
      u.cal.run = none ∧ u.fb Pg.CALIB Reg.CALIB_STATUS_BUSY = false ∧ (u.f Pg.CALIB Reg.EVENT).testBit Ev.CALIB_CAL_DONE = true ∧
        (∀ i : Fin 12, signed 16 (u.trim 1 i.val) = (if (s.validSensors.contains i.val = true ∧
        (s.fi Pg.CALIB Reg.CALIB_REF_TEMP - tdiv (r.sums.getD i.val 0) 16).natAbs ≤ 640) then (s.fi Pg.CALIB Reg.CALIB_REF_TEMP - tdiv (r.sums.getD i.val 0) 16) else signed 16 (s.trim 1 i.val))) ∧
        u.f Pg.CALIB Reg.CALIB_STATUS_RESULT = (if (∀ i : Fin 12, (s.validSensors.contains i.val = true ∧
        (s.fi Pg.CALIB Reg.CALIB_REF_TEMP - tdiv (r.sums.getD i.val 0) 16).natAbs ≤ 640)) then 1 else 3) ∧
        u.cal.sensorValid = (s.cal.sensorValid || decide (∃ i : Fin 12, (s.validSensors.contains i.val = true ∧
        (s.fi Pg.CALIB Reg.CALIB_REF_TEMP - tdiv (r.sums.getD i.val 0) 16).natAbs ≤ 640)))) ∧
  (∀ (t : Nat) (cells : Vector (Vector (Option (BitVec 16)) 24) 32) (segP : Vector (Option Word) 16) (segN : Vector (Option Word) 16) (ok : Bool) (r : CalRun) (s : State), s.cal.run = some r →
    r.op = 3 → s.calHolds 3 r.target = true → Completes (.calDone t cells segP segN ok) s fun u =>
      u.cal.run = none ∧ u.fb Pg.CALIB Reg.CALIB_STATUS_BUSY = false ∧ (u.f Pg.CALIB Reg.EVENT).testBit Ev.CALIB_CAL_DONE = true ∧
        u.trim 2 r.target = (selectSegs (segN.toList.map (·.map BitVec.toNat))).getD (s.trim 2 r.target / 2 ^ 16) * 2 ^ 16 + (selectSegs (segP.toList.map (·.map BitVec.toNat))).getD (s.trim 2 r.target % 2 ^ 16) ∧
        (∀ k : Fin 20, k.val ≠ r.target → u.trim 2 k.val = s.trim 2 k.val) ∧
        u.f Pg.CALIB Reg.CALIB_STATUS_RESULT = (if (selectSegs (segP.toList.map (·.map BitVec.toNat))).isSome = true ∧
        (selectSegs (segN.toList.map (·.map BitVec.toNat))).isSome = true then 1 else 3) ∧
        u.cal.laneValid = putBit s.cal.laneValid r.target (s.cal.laneValid.testBit r.target || (selectSegs (segP.toList.map (·.map BitVec.toNat))).isSome || (selectSegs (segN.toList.map (·.map BitVec.toNat))).isSome)) ∧
  (∀ (t : Nat) (cells : Vector (Vector (Option (BitVec 16)) 24) 32) (segP : Vector (Option Word) 16) (segN : Vector (Option Word) 16) (ok : Bool) (r : CalRun) (s : State), s.cal.run = some r →
    r.op = 4 → s.calHolds 4 r.target = true → ok = true → Completes (.calDone t cells segP segN ok) s fun u =>
      u.cal.run = none ∧ u.fb Pg.CALIB Reg.CALIB_STATUS_BUSY = false ∧ (u.f Pg.CALIB Reg.EVENT).testBit Ev.CALIB_CAL_DONE = true ∧
        u.f Pg.CALIB Reg.CALIB_STATUS_RESULT = 1 ∧ u.cal.count = (s.cal.count + 1) % 2 ^ 32 ∧
        u.f Pg.CALIB Reg.CALIB_COUNT = (s.cal.count + 1) % 2 ^ 32 ∧ u.cal.copy = 1 - s.cal.copy ∧
        u.f Pg.CALIB Reg.CALIB_LAST_HOURS = s.f Pg.RECORD Reg.RECORD_HOURS ∧ (u.f Pg.CALIB Reg.EVENT).testBit Ev.CALIB_SAVED = true ∧
        (∀ k : Nat, k < 0x900 → u.nvByte (s.spareCopy + k) = (s.upTo t).calRecord.getD k 0#8)) ∧
  (∀ (t : Nat) (cells : Vector (Vector (Option (BitVec 16)) 24) 32) (segP : Vector (Option Word) 16) (segN : Vector (Option Word) 16) (ok : Bool) (r : CalRun) (s : State), s.cal.run = some r →
    r.op = 4 → s.calHolds 4 r.target = true → ok = false → Completes (.calDone t cells segP segN ok) s fun u =>
      u.cal.run = none ∧ u.fb Pg.CALIB Reg.CALIB_STATUS_BUSY = false ∧ u.f Pg.CALIB Reg.CALIB_STATUS_RESULT = 2 ∧
        (u.f Pg.CALIB Reg.ERROR_STICKY).testBit Sticky.CALIB_SAVE_FAIL = true ∧ u.cal.count = s.cal.count ∧ u.cal.copy = s.cal.copy ∧
        (∀ j : Fin 12, u.trim 1 j.val = s.trim 1 j.val) ∧ (∀ k : Fin 20, u.trim 2 k.val = s.trim 2 k.val) ∧
        (∀ j : Fin 512, u.trim 0 j.val = s.trim 0 j.val)) ∧
  (∀ (t : Nat) (cells : Vector (Vector (Option (BitVec 16)) 24) 32) (segP : Vector (Option Word) 16) (segN : Vector (Option Word) 16) (ok : Bool) (r : CalRun) (s : State), s.cal.run = some r →
    s.calHolds r.op r.target = false → Completes (.calDone t cells segP segN ok) s fun u =>
      u.cal.run = none ∧ u.fb Pg.CALIB Reg.CALIB_STATUS_BUSY = false ∧ u.f Pg.CALIB Reg.CALIB_STATUS_RESULT = 2 ∧
        (∀ j : Fin 12, u.trim 1 j.val = s.trim 1 j.val) ∧ (∀ k : Fin 20, u.trim 2 k.val = s.trim 2 k.val) ∧
        (∀ j : Fin 512, u.trim 0 j.val = s.trim 0 j.val))

/-- R390 to R392: an accepted run makes its domain DIRTY and busy, and its end compares every signature. That ELAPSED is cut to whole microseconds
is the model's choice (log entry 50). -/
def Obligations.SelfTest : Prop :=
  (∀ (t : Nat) (key : BitVec 8) (dom : Fin 16) (s : State), s.pageOn Pg.BIST = true → key = 0xB5#8 → s.bistRefuse dom.val = 0 →
    Completes (.bistLogic t key dom) s fun u =>
      u.bist = some ⟨1, dom.val, (s.upTo t).now⟩ ∧ u.pwr.dirty.contains dom.val = true ∧ u.domOn dom.val = false ∧
        u.fb Pg.BIST Reg.BIST_STATUS_BUSY = true ∧ u.f Pg.BIST Reg.BIST_STATUS_KIND = 1) ∧
  (∀ (t : Nat) (key : BitVec 8) (dom : Fin 16) (s : State), s.pageOn Pg.BIST = true → key = 0xB5#8 → s.bistRefuse dom.val = 0 →
    Completes (.bistMemory t key dom) s fun u =>
      u.bist = some ⟨2, dom.val, (s.upTo t).now⟩ ∧ u.pwr.dirty.contains dom.val = true ∧ u.domOn dom.val = false ∧
        u.fb Pg.BIST Reg.BIST_STATUS_BUSY = true ∧ u.f Pg.BIST Reg.BIST_STATUS_KIND = 2) ∧
  (∀ (t : Nat) (sigs : Vector Word 20) (banks : List (Fin 20)) (rows : List (Fin 8192)) (r : BistRun) (s : State), s.bist = some r →
    Completes (.bistDone t sigs banks rows) s fun u =>
      u.bist = none ∧ u.fb Pg.BIST Reg.BIST_STATUS_BUSY = false ∧
        u.f Pg.BIST Reg.BIST_ELAPSED = wrapU 64 (((s.upTo t).now : Int) - r.start) / 6400 % 2 ^ Reg.BIST_ELAPSED.width ∧
        u.f Pg.BIST Reg.BIST_STATUS_RESULT = (if (∀ k : Nat, k < partitions r.dom r.kind →
        sigs.toList.getD k 0#32 = Config.fuseSig r.dom r.kind k) then 1 else 2))

/-- R423: the controller follows IEEE 1149.1, an instruction acts as the controller updates it, and TRST_L resets the port. The state diagram, the
instruction that stands in Test-Logic-Reset and the edge at which one is updated are IEEE 1149.1's, taken from outside the spec (PRESUMED, log entry
64), what the boundary register holds is log entry 63, and that a host error stops is log entry 5: the model's choices. -/
def Obligations.TestPort : Prop :=
  (∀ (t : Nat) (tms : Bool) (tdi : Bool) (s : State), s.pwr.sysOn = true → ((s.upTo t).tapStep tms tdi).scanBreach = false →
    Completes (.tapClock t tms tdi) s fun u =>
      u.tap.state = tapNext s.tap.state tms ∧ u.pwr.limitHeld = decide (tapNext s.tap.state tms ≠ .reset) ∧ (tapNext s.tap.state tms = .reset →
        u.tap.ir = 2) ∧ (s.tap.state = .captureDr → s.tap.ir = 2 → u.tap.sr = lowBits 32 idCode) ∧ (s.tap.state = .shiftDr ∨ s.tap.state = .shiftIr →
        u.tap.sr = (s.tap.sr ++ [tdi]).drop 1) ∧ (s.tap.state = .exit1Ir → tms = true → u.tap.ir = ofBits s.tap.sr)) ∧
  (∀ (t : Nat) (tms : Bool) (tdi : Bool) (s : State), s.pwr.sysOn = true → ((s.upTo t).tapStep tms tdi).scanBreach = true →
    Stops (.tapClock t tms tdi) s (.hostBreach 423)) ∧
  (∀ (t : Nat) (s : State), s.pwr.sysOn = true → Completes (.tapReset t) s fun u =>
      u.tap.state = .reset ∧ u.tap.ir = 2 ∧ u.tap.upd = [] ∧ u.pwr.limitHeld = false)

/-- R312: A chooses F, drops it without an echo, and both devices lock at t0(F). -/
def Obligations.PairForming : Prop :=
  (∀ (n : Nat) (b : Beat) (s : State), s.st Pg.DIPTYCH = stStarting → s.pairReady = true → s.dip.latest = some b → b.form = true → b.ready = true →
    s.roleB = false → s.dip.formF = none → Completes (.pairFormFrame n) s fun u =>
      u.dip.formF = some (n + 64) ∧ u.f Pg.DIPTYCH Reg.DIPTYCH_FORM_FRAME = (n + 64) % 2 ^ 32 ∧ u.fb Pg.DIPTYCH Reg.DIPTYCH_STATUS_READY = true) ∧
  (∀ (t : Nat) (k : Nat) (s : State), s.st Pg.DIPTYCH = stStarting → s.roleB = false → s.dip.echoed = false → s.dip.formF = some k →
    (s.upTo t).past (t0 (k - 16)) = true → Completes (.formEchoDeadline t) s fun u =>
      u.dip.formF = none) ∧
  (∀ (n : Nat) (s : State), s.st Pg.DIPTYCH = stStarting → s.dip.formF = some n → (s.roleB = true ∨ s.dip.echoed = true) →
    Completes (.pairLock n) s fun u =>
      u.st Pg.DIPTYCH = stOn ∧ u.pairState = pairLockstep ∧ u.f Pg.DIPTYCH Reg.DIPTYCH_MCOUNT = 0 ∧
        u.fb Pg.DIPTYCH Reg.DIPTYCH_STATUS_ACTIVE = !s.roleB)

/-- R195, R313, R315, R317, R318: what a device of a pair sends, what it takes from its partner, and how control passes. That a MIRROR frame waits
while its peer lane is busy is the model's choice (log entry 54), and so is that the latest KIND 2 is kept whatever its frame (log entry 52). -/
def Obligations.PairRunning : Prop :=
  (∀ (n : Nat) (s : State), s.isOn Pg.DIPTYCH = true → Completes (.digestLaunch n) s fun u =>
      u.dip.digests.head? = some (n, (s.upTo (t0 n + 13760)).digest n, s.f Pg.DIPTYCH Reg.DIPTYCH_MCOUNT) ∧ (s.dip.declareDue = false →
        u.fb Pg.DIPTYCH Reg.DIPTYCH_STATUS_READY = (decide (s.pairState = pairLockstep) && !s.dip.barred && !s.dip.late))) ∧
  (∀ (t : Nat) (frame : Word) (w2 : Word) (digest : Word) (s : State), s.isOn Pg.DIPTYCH = true →
    Completes (.digestReceive t frame w2 digest) s fun u =>
      u.dip.latest = some ⟨frame.toNat, w2.toNat / 2 ^ 16, w2.toNat.testBit 4, w2.toNat.testBit 2, w2.toNat.testBit 1, w2.toNat.testBit 0, digest.toNat⟩ ∧
        u.fb Pg.DIPTYCH Reg.DIPTYCH_STATUS_PARTNER_READY = w2.toNat.testBit 1) ∧
  (∀ (n : Nat) (atCut : Bool) (s : State), (s.upTo (if atCut then cutOf n else t0 n + 3840)).takeoverDue = true →
    Completes (.takeoverEval n atCut) s fun u =>
      u.pairState = pairTakenOver ∧ u.fb Pg.DIPTYCH Reg.DIPTYCH_STATUS_ACTIVE = true ∧ u.isActive = true ∧
        u.f Pg.DIPTYCH Reg.DIPTYCH_TAKEOVERS = satU (s.f Pg.DIPTYCH Reg.DIPTYCH_TAKEOVERS + 1) Reg.DIPTYCH_TAKEOVERS.width ∧ u.noCamera = true) ∧
  (∀ (t : Nat) (key : BitVec 8) (b : Beat) (s : State), s.pageOn Pg.DIPTYCH = true → key = 0x5A#8 → s.roleB = false → s.pairState = pairLockstep →
    s.dip.declareDue = false → s.dip.latest = some b → b.ready = true → Completes (.handover t key) s fun u =>
      u.dip.declareDue = true) ∧
  (∀ (t : Nat) (arr : BitVec 48) (port : Fin 2) (op : Fin 4) (tag : BitVec 16) (addr : BitVec 40) (count : Fin 256) (cross : Bool) (data : List Byte) (s : State), s.isOn Pg.DIPTYCH = true →
    s.roleB = true → s.pairState = pairLockstep → s.dip.seen.contains (near48 (s.upTo t).now arr.toNat, port.val) = false →
    sdiff48 ((s.upTo t).now : Nat) (near48 (s.upTo t).now arr.toNat + s.f Pg.DIPTYCH Reg.DIPTYCH_MIRROR_LAT : Nat) ≤ 0 →
    Completes (.mirrorTxnReceive t arr port op tag addr count cross data) s fun u =>
      u.dip.queue = s.dip.queue ++ [⟨port, near48 (s.upTo t).now arr.toNat, op, tag.toNat, addr.toNat, count, cross, data⟩] ∧
        u.dip.late = s.dip.late) ∧
  (∀ (t : Nat) (q : Txn) (s : State), s.nextTxn = some q → (s.upTo t).past (q.arr + s.f Pg.DIPTYCH Reg.DIPTYCH_MIRROR_LAT) = true →
    (((s.upTo t).setDip fun x => { x with queue := x.queue.erase q }).setF Pg.DIPTYCH Reg.DIPTYCH_MCOUNT (s.f Pg.DIPTYCH Reg.DIPTYCH_MCOUNT + 1)).txnStop q = none →
    (q.op = 0 ∨ q.op = 3 ∨ 0x100000 ≤ q.addr) → Completes (.mirrorApply t) s fun u =>
      u.dip.queue = s.dip.queue.erase q ∧ u.f Pg.DIPTYCH Reg.DIPTYCH_MCOUNT = (s.f Pg.DIPTYCH Reg.DIPTYCH_MCOUNT + 1) % 2 ^ 32) ∧
  (∀ (t : Nat) (q : Txn) (v : Word) (s : State), s.nextTxn = some q → (s.upTo t).past (q.arr + s.f Pg.DIPTYCH Reg.DIPTYCH_MIRROR_LAT) = true →
    (((s.upTo t).setDip fun x => { x with queue := x.queue.erase q }).setF Pg.DIPTYCH Reg.DIPTYCH_MCOUNT (s.f Pg.DIPTYCH Reg.DIPTYCH_MCOUNT + 1)).txnStop q = none →
    (q.op = 1 ∨ q.op = 2) → q.addr < 0x100000 → q.data = leBytes 4 v.toNat → 0x028 ≤ (q.addr % 0x1000) →
    (pageBlk (q.addr / 0x1000) ∈ ([some .laser, some .glaze, some .raster, some .axis, some .cam, some .vision, some .light, some .dram, some .therm, some .evcol] : List (Option Blk))) →
    ((s.upTo t).pageDue (q.addr / 0x1000)).writeStop (q.addr / 0x1000) (q.addr % 0x1000) v = none →
    ((s.upTo t).pageDue (q.addr / 0x1000)).writeIgnored (q.addr / 0x1000) (q.addr % 0x1000) = false → Completes (.mirrorApply t) s fun u =>
      u.dip.queue = s.dip.queue.erase q ∧ u.word q.addr = (if q.port % 2 = 0 ∧
        (s.upTo t).sameCycle 1 q.addr ≠ [] then (((((s.upTo t).pageDue (q.addr / 0x1000)).word q.addr &&& ~~~(BitVec.ofNat 32 (accMask (q.addr / 0x1000) (q.addr % 0x1000) .rw ||| accMask (q.addr / 0x1000) (q.addr % 0x1000) .rws)) &&& ~~~(v &&& BitVec.ofNat 32 (accMask (q.addr / 0x1000) (q.addr % 0x1000) .w1c))) ||| (v &&& BitVec.ofNat 32 (accMask (q.addr / 0x1000) (q.addr % 0x1000) .rw ||| accMask (q.addr / 0x1000) (q.addr % 0x1000) .rws))) &&& ~~~(BitVec.ofNat 32 (accMask (q.addr / 0x1000) (q.addr % 0x1000) .rw ||| accMask (q.addr / 0x1000) (q.addr % 0x1000) .rws))) ||| (s.word q.addr &&& (BitVec.ofNat 32 (accMask (q.addr / 0x1000) (q.addr % 0x1000) .rw ||| accMask (q.addr / 0x1000) (q.addr % 0x1000) .rws))) else ((((s.upTo t).pageDue (q.addr / 0x1000)).word q.addr &&& ~~~(BitVec.ofNat 32 (accMask (q.addr / 0x1000) (q.addr % 0x1000) .rw ||| accMask (q.addr / 0x1000) (q.addr % 0x1000) .rws)) &&& ~~~(v &&& BitVec.ofNat 32 (accMask (q.addr / 0x1000) (q.addr % 0x1000) .w1c))) ||| (v &&& BitVec.ofNat 32 (accMask (q.addr / 0x1000) (q.addr % 0x1000) .rw ||| accMask (q.addr / 0x1000) (q.addr % 0x1000) .rws))))) ∧
  (∀ (n : Nat) (l : Fin 20) (pl : List Byte) (s : State), s.isOn Pg.DIPTYCH = true → s.roleB = false → (l = 2 ∨ l = 3) → s.laneUp l.val = true →
    s.lanes[l].waits = [] →
    pl = leBytes 4 (1 * 2 ^ 28) ++ leBytes 4 n ++ leBytes 4 0 ++ (s.medium.samples.toList.flatMap fun m => sampleWord (if s.medium.samplesOf = n then m else none)) →
    (s.upTo (t0 n + 640)).mayStart l ⟨0x0A, (s.upTo (t0 n + 640)).nextSeq l 0x0A, 0, pl⟩ = true → Completes (.mirrorMediumLaunch n) s fun u =>
      u.lanes[l].tx.map (fun q => (q.2.ty, q.2.payload)) = some (0x0A, pl) ∧ u.lanes[l].waits = []) ∧
  (∀ (n : Nat) (l : Fin 20) (pl : List Byte) (s : State), s.isOn Pg.DIPTYCH = true → s.roleB = false → (l = 2 ∨ l = 3) → s.laneUp l.val = true →
    s.lanes[l].waits = [] →
    pl = leBytes 4 (1 * 2 ^ 28) ++ leBytes 4 n ++ leBytes 4 0 ++ (s.medium.samples.toList.flatMap fun m => sampleWord (if s.medium.samplesOf = n then m else none)) →
    (s.upTo (t0 n + 640)).mayStart l ⟨0x0A, (s.upTo (t0 n + 640)).nextSeq l 0x0A, 0, pl⟩ = false → Completes (.mirrorMediumLaunch n) s fun u =>
      u.lanes[l].waits = [(0x0A, pl)] ∧ u.lanes[l].tx = s.lanes[l].tx) ∧
  (∀ (t : Nat) (frame : Word) (words : Vector (BitVec 64) 4) (s : State), s.live t → s.isOn Pg.DIPTYCH = true → s.roleB = true →
    frame.toNat = frameOf t % 2 ^ 32 → (s.medium.mirror.any fun m => m.1 == frameOf t) = false → sdiff48 (t : Nat) (t0 (frameOf t) + 3200 : Nat) ≤ 0 →
    Completes (.mirrorMediumReceive t frame words) s fun u =>
      u.medium.mirror = some (frameOf t, words.toList.map fun w => if w.toNat / 2 ^ 48 = 0xFFFF then none else some ⟨w.toNat % 2 ^ 48, w.toNat / 2 ^ 48⟩))

/-- R16, R18, R104, R160, R163, R170, R185, R191, R223, R279: what a frame start, a use instant and an exchange cut do, with and without a sheet in
force. The lists of the clauses with sheets hold vector records that break no limit. That TIME.RATE shows a waiting rate from the frame start on is
the model's choice (log entry 73), and so is that the auxiliary axes are latched at the cut, after its faults (log entry 37). -/
def Obligations.FrameInstants : Prop :=
  (∀ (n : Nat) (s : State), s.live (t0 n) → (∀ b : Fin 16, (s.isOn (Pg.BRUSH b) = true ∨ s.st (Pg.BRUSH b) = stStarting) → s.brushes[b].force = none ∧
    s.brushes[b].queue = [] ∧ s.brushes[b].past = []) → Completes (.frameStart n) s fun u =>
      u.medium.samplesOf = n ∧ u.time.nextRate = none ∧ u.time.nextStep = none ∧ u.time.nextAdj = none ∧
        (∀ r ∈ s.time.nextRate, u.fi Pg.TIME Reg.TIME_RATE = signed 24 (wrapU 24 r))) ∧
  (∀ (n : Nat) (s : State), s.live (t0 n) → (∀ b : Fin 16, (s.isOn (Pg.BRUSH b) = true ∨ s.st (Pg.BRUSH b) = stStarting) → s.brushes[b].force = none ∧
    s.brushes[b].queue = [] ∧ s.brushes[b].past = []) → s.isOn Pg.VISION = true → s.peerMet = false → s.noCamera = false →
    Completes (.frameStart n) s fun u =>
      u.vision.batches.getLast?.map Prod.fst = some n) ∧
  (∀ (n : Nat) (s : State), s.live (t0 n) → s.plainLists → Completes (.frameStart n) s fun u =>
      u.medium.samplesOf = n ∧ u.time.nextRate = none ∧ u.time.nextStep = none ∧ u.time.nextAdj = none ∧
        (∀ r ∈ s.time.nextRate, u.fi Pg.TIME Reg.TIME_RATE = signed 24 (wrapU 24 r)) ∧ (∀ b : Fin 16, s.domOn 3 = true → s.isOn (Pg.BRUSH b) = true →
        u.isOn (Pg.BRUSH b) = true →
        u.f (Pg.BRUSH b) Reg.BRUSH_STROKE_INDEX = (if u.brushes[b].force.isSome then u.brushes[b].strokeAt (t0 n) else 0xFFFFFFFF) % 2 ^ 32) ∧
        (∀ b : Fin 16, s.domOn 3 = true → s.spWaits = false → u.isOn (Pg.BRUSH b) = true → u.brushes[b].spFrame = n + 1)) ∧
  (∀ (n : Nat) (s : State), s.live (t0 n + 3200) → s.domOn 3 = true → s.isOn Pg.MEDIUM = true → s.moving = true →
    ((s.upTo (t0 n + 3200)).ownStream n).mediumSample n = none → Completes (.estimatorUpdate n) s fun u =>
      u.medium.frame = n ∧ u.medium.p = wrapS 64 (s.medium.p + rnd (s.medium.v * 16000) 16) ∧ u.medium.v = s.medium.v ∧ u.medium.c64 = s.medium.c64 ∧
        u.medium.c48 = s.medium.c48) ∧
  (∀ (n : Nat) (w : MSample) (pp c q x ext r : Int) (s : State), s.live (t0 n + 3200) → s.domOn 3 = true → s.isOn Pg.MEDIUM = true → s.moving = true →
    ((s.upTo (t0 n + 3200)).ownStream n).mediumSample n = some w → pp = wrapS 64 (s.medium.p + rnd (s.medium.v * 16000) 16) →
    c = wrapS 64 (s.medium.c64 + sdiff48 w.count s.medium.c48) → q = (rnd (s.encScale s.mediumSrc) 16).natAbs →
    x = wrapS 64 (rnd (s.medium.v * w.age * 8) 16) →
    ext = (if s.f (Pg.ENC s.mediumSrc) Reg.ENC_ENC_CFG_MODE = 2 then x else min (max x (1 - q)) (q - 1)) →
    r = wrapS 64 (wrapS 64 (rnd (c * (s.encScale s.mediumSrc)) 16 + signed 48 (s.actPair Pg.MEDIUM Reg.MEDIUM_ORIGIN_LO Reg.MEDIUM_ORIGIN_HI) * 2 ^ 16 + ext) - pp) →
    Completes (.estimatorUpdate n) s fun u =>
      u.medium.frame = n ∧ u.medium.c64 = c ∧ u.medium.c48 = w.count ∧ u.medium.p = wrapS 64 (pp + rnd (r * s.a Pg.MEDIUM Reg.MEDIUM_GAINS_KA) 16) ∧
        u.medium.v = sat (s.medium.v + rnd (r * s.a Pg.MEDIUM Reg.MEDIUM_GAINS_KB) 16) 40) ∧
  (∀ (n : Nat) (s : State), s.live (cutOf n) → (∀ b : Fin 16, (s.isOn (Pg.BRUSH b) = true ∨ s.st (Pg.BRUSH b) = stStarting) →
    s.brushes[b].force = none ∧ s.brushes[b].queue = [] ∧ s.brushes[b].past = []) → s.domOn 4 = true → (∀ a : Fin 64, s.axes[a].overran = false ∧
    s.axes[a].fe = none ∧ s.axes[a].pend = 0) → Completes (.exchangeCut n) s fun u =>
      (∀ a : Fin 64, u.axes[a].final = s.axes[a].cmd ∧ u.axes[a].aux = (if s.isOn (Pg.AXIS a) then s.axes[a].cmd else 0))) ∧
  (∀ (n : Nat) (s : State), s.live (cutOf n) → (∀ b : Fin 16, s.isOn (Pg.BRUSH b) = true → ((s.upTo (cutOf n)).decided b).length ≤ 2) →
    Completes (.exchangeCut n) s fun u =>
      (∀ b : Fin 16, s.domOn 3 = true → u.isOn (Pg.BRUSH b) = true →
        u.lasers[b].edgesA.take (s.upTo (cutOf n)).lasers[b].edgesA.length = (s.upTo (cutOf n)).lasers[b].edgesA ∧
        u.lasers[b].edgesB.take (s.upTo (cutOf n)).lasers[b].edgesB.length = (s.upTo (cutOf n)).lasers[b].edgesB) ∧ (∀ b : Fin 16, s.domOn 3 = true →
        u.isOn (Pg.BRUSH b) = true →
        u.lasers[b].edgesA.drop (s.upTo (cutOf n)).lasers[b].edgesA.length = u.lasers[b].edgesB.drop (s.upTo (cutOf n)).lasers[b].edgesB.length) ∧
        (∀ b : Fin 16, s.domOn 3 = true → u.isOn (Pg.BRUSH b) = true →
        (u.lasers[b].edgesA.drop (s.upTo (cutOf n)).lasers[b].edgesA.length).all (fun d => inFrame (t0 (n + 1)) d.tick) = true) ∧ (s.domOn 4 = true →
        (∀ a : Fin 64, s.axes[a].overran = false ∧ s.axes[a].fe = none ∧ s.axes[a].pend = 0) → (∀ a : Fin 64, u.axes[a].final = s.axes[a].cmd ∧
        u.axes[a].aux = (if s.isOn (Pg.AXIS a) then s.axes[a].cmd else 0))))

/-- R34, R37, R38, R41: CTRL, COMMIT, SNAPSHOT, the boundary that takes a commit, and the ends of the sequences. A command that looks at a light
port or a raster page finds there what was due: where it matters the clauses speak of the state with a burst's due return taken (the model's choice,
log entry 45) and the exposed pixels counted. -/
def Obligations.PageHeaders : Prop :=
  (∀ (t : Nat) (p : Fin 256) (en : Bool) (s : State), s.pageOn p.val = true → (pageBlk p.val).isSome = true → (en = true →
    s.enableBreach p.val = none) → (en = true → s.fb Pg.CLK Reg.CLK_STATUS_SAFE_HOLD = false ∧ (p.val ≠ Pg.SYS ∨ s.fuseBad = false)) → (en = false →
    p.val ≠ Pg.CLK ∧ p.val ≠ Pg.PWR ∧ p.val ≠ Pg.KNIFE ∧ p.val ≠ Pg.THERM ∧ s.isReference p.val = false) → Completes (.ctrlEnWrite t p en) s fun u =>
      u.fb p.val Reg.CTRL_EN = en ∧ (s.f p.val Reg.STATE_STATE = stOff → en = true → u.f p.val Reg.STATE_STATE = stStarting)) ∧
  (∀ (t : Nat) (p : Fin 256) (s : State), s.pageOn p.val = true → (pageBlk p.val).isSome = true → (p.val ≠ Pg.SYS ∧ p.val ≠ Pg.CLK ∧ p.val ≠ Pg.PWR ∧
    p.val ≠ Pg.KNIFE ∧ p.val ≠ Pg.THERM) → s.isReference p.val = false → Completes (.softReset t p) s fun u =>
      u.word (regAddr p.val 0x008) = resetWord (regAddr p.val 0x008) ∧ u.word (regAddr p.val 0x00C) = resetWord (regAddr p.val 0x00C) ∧
        u.word (regAddr p.val 0x014) = resetWord (regAddr p.val 0x014)) ∧
  (∀ (t : Nat) (p : Fin 256) (s : State), s.pageOn p.val = true → (pageBlk p.val).isSome = true → (pageCaps p.val).testBit 8 = true →
    s.fb p.val Reg.COMMIT_PENDING = false → Completes (.commit t p) s fun u =>
      u.fb p.val Reg.COMMIT_PENDING = true ∧ u.commitTick p.val = (s.upTo t).now) ∧
  (∀ (t : Nat) (p : Fin 256) (s : State), s.pageOn p.val = true → (s.upTo t).atBoundary p.val = true → s.fb p.val Reg.COMMIT_PENDING = true →
    0 < sdiff48 (s.upTo t).now (s.commitTick p.val) → (pageBlk p.val ≠ some .step ∨ (s.upTo t).zeroLimits (stepOf p.val) (s.upTo t).now = false) →
    (pageBlk p.val ≠ some .medium ∨ s.fb p.val Reg.MEDIUM_MODE_CTRL_GEOM = false ∨
    2 ^ 16 ≤ s.shadowPair p.val Reg.MEDIUM_TURN_LO Reg.MEDIUM_TURN_HI (s.upTo t).now) → Completes (.shadowTransfer t p) s fun u =>
      u.fb p.val Reg.COMMIT_PENDING = false ∧ (∀ k ∈ rwsWords p.val, u.actWord (regAddr p.val k) = s.shadowAt p.val k (s.upTo t).now)) ∧
  (∀ (t : Nat) (p : Fin 256) (s : State), s.pageOn p.val = true → (pageBlk p.val).isSome = true → (pageCaps p.val).testBit 9 = true →
    p.val ≠ Pg.KNIFE → Completes (.snapshotTake t p) s fun u =>
      (∀ k ∈ snapOffs p.val, u.snapWord (regAddr p.val k) = ((s.upTo t).pageDue p.val).liveWord p.val k)) ∧
  (∀ (t : Nat) (p : Fin 256) (s : State), ((s.upTo t).pageDue p.val).st p.val = stStarting → ((s.upTo t).pageDue p.val).startDone p.val = true →
    Completes (.blockSequenceEnd t p) s fun u =>
      u.st p.val = stOn) ∧
  (∀ (t : Nat) (p : Fin 256) (s : State), ((s.upTo t).pageDue p.val).st p.val = stStopping → ((s.upTo t).pageDue p.val).stopDone p.val = true →
    Completes (.blockSequenceEnd t p) s fun u =>
      u.st p.val = stOff) ∧
  (∀ (t : Nat) (p : Fin 256) (s : State), ((s.upTo t).pageDue p.val).pageOn p.val = true → ((s.upTo t).pageDue p.val).st p.val = stOff →
    ((s.upTo t).pageDue p.val).en p.val = true →
    ((s.upTo t).pageDue p.val).elapsed (((s.upTo t).pageDue p.val).entered p.val) (pagePeriod p.val) = true →
    Completes (.blockTransitCycleEnd t p) s fun u =>
      u.f p.val Reg.STATE_STATE = stStarting) ∧
  (∀ (t : Nat) (p : Fin 256) (s : State), ((s.upTo t).pageDue p.val).pageOn p.val = true → (((s.upTo t).pageDue p.val).st p.val = stOn ∨
    ((s.upTo t).pageDue p.val).st p.val = stFault) → ((s.upTo t).pageDue p.val).en p.val = false →
    ((s.upTo t).pageDue p.val).elapsed (((s.upTo t).pageDue p.val).entered p.val) (pagePeriod p.val) = true →
    Completes (.blockTransitCycleEnd t p) s fun u =>
      u.f p.val Reg.STATE_STATE = stStopping)

/-- R5, R6, R89: a write stores the writable fields and clears the W1C bits it holds as 1, on the pages whose registers act only by their values; a
read clears RC fields. Of two host accesses to a register in one cycle HOST_A's comes first, in whichever order their commands stand: that the model
undoes the order of the commands where HOST_B's stood first is its own way to keep R89 (log entry 69). On a raster page a write finds the exposed
pixels counted. -/
def Obligations.RegisterAccess : Prop :=
  (∀ (t : Nat) (addr : Nat) (v : Word) (s : State), addr < 0x100000 → addr % 4 = 0 → s.pwr.sysOn = true → (addr % 0x1000) ≥ 0x028 →
    (pageBlk (addr / 0x1000) ∈ ([some .laser, some .glaze, some .raster, some .axis, some .cam, some .vision, some .light, some .dram, some .therm, some .evcol] : List (Option Blk))) →
    ((s.upTo t).pageDue (addr / 0x1000)).writeStop (addr / 0x1000) (addr % 0x1000) v = none →
    ((s.upTo t).pageDue (addr / 0x1000)).writeIgnored (addr / 0x1000) (addr % 0x1000) = false → Completes (.registerWrite t addr v) s fun u =>
      u.word addr = ((((s.upTo t).pageDue (addr / 0x1000)).word addr &&& ~~~(BitVec.ofNat 32 (accMask (addr / 0x1000) (addr % 0x1000) .rw ||| accMask (addr / 0x1000) (addr % 0x1000) .rws)) &&& ~~~(v &&& BitVec.ofNat 32 (accMask (addr / 0x1000) (addr % 0x1000) .w1c))) ||| (v &&& BitVec.ofNat 32 (accMask (addr / 0x1000) (addr % 0x1000) .rw ||| accMask (addr / 0x1000) (addr % 0x1000) .rws))) ∧
        (∀ a : Nat, a ≠ addr → u.word a = ((s.upTo t).pageDue (addr / 0x1000)).word a)) ∧
  (∀ (t : Nat) (addr : Nat) (s : State), addr < 0x100000 → addr % 4 = 0 → s.pwr.sysOn = true → s.readStop addr = none →
    ¬ (pageBlk (addr / 0x1000) = some .ltport ∧ (addr % 0x1000) = Reg.LTPORT_RESP_INFO_ANS.off) → Completes (.registerReadClear t addr) s fun u =>
      u.word addr = (if accMask (addr / 0x1000) (addr % 0x1000) .rc = 0 then s.word addr else (s.word addr &&& ~~~(BitVec.ofNat 32 (accMask (addr / 0x1000) (addr % 0x1000) .rc))) ||| (resetWord addr &&& BitVec.ofNat 32 (accMask (addr / 0x1000) (addr % 0x1000) .rc))) ∧
        (∀ a : Nat, a ≠ addr → u.word a = s.word a)) ∧
  (∀ (t : Nat) (port : Fin 2) (tag : BitVec 16) (addr : BitVec 40) (count : Fin 256) (data : List Byte) (v : Word) (s : State), (s.upTo t).applies ((s.upTo t).arriving port 1 tag addr.toNat count false data) →
    count.val = 3 → data = leBytes 4 v.toNat → ((s.upTo t).pageDue (addr.toNat / 0x1000)).storable addr.toNat v →
    Completes (.txnWrite t port tag addr count data) s fun u =>
      u.word addr.toNat = (if port.val = 0 ∧
        (s.upTo t).sameCycle 1 addr.toNat ≠ [] then (((s.upTo t).pageDue (addr.toNat / 0x1000)).written addr.toNat v &&& ~~~(BitVec.ofNat 32 (accMask (addr.toNat / 0x1000) (addr.toNat % 0x1000) .rw ||| accMask (addr.toNat / 0x1000) (addr.toNat % 0x1000) .rws))) ||| (s.word addr.toNat &&& (BitVec.ofNat 32 (accMask (addr.toNat / 0x1000) (addr.toNat % 0x1000) .rw ||| accMask (addr.toNat / 0x1000) (addr.toNat % 0x1000) .rws))) else ((s.upTo t).pageDue (addr.toNat / 0x1000)).written addr.toNat v) ∧
        u.lanes[(hostLane port.val)].cpls.map Cpl.answer = s.lanes[(hostLane port.val)].cpls.map Cpl.answer ++ [(tag.toNat, 1, count.val, [])]) ∧
  (∀ (t : Nat) (port : Fin 2) (tag : BitVec 16) (addr : BitVec 40) (count : Fin 256) (data : List Byte) (v : Word) (s : State), (s.upTo t).applies ((s.upTo t).arriving port 2 tag addr.toNat count false data) →
    count.val = 3 → data = leBytes 4 v.toNat → ((s.upTo t).pageDue (addr.toNat / 0x1000)).storable addr.toNat v →
    Completes (.txnWritePosted t port tag addr count data) s fun u =>
      u.word addr.toNat = (if port.val = 0 ∧
        (s.upTo t).sameCycle 1 addr.toNat ≠ [] then (((s.upTo t).pageDue (addr.toNat / 0x1000)).written addr.toNat v &&& ~~~(BitVec.ofNat 32 (accMask (addr.toNat / 0x1000) (addr.toNat % 0x1000) .rw ||| accMask (addr.toNat / 0x1000) (addr.toNat % 0x1000) .rws))) ||| (s.word addr.toNat &&& (BitVec.ofNat 32 (accMask (addr.toNat / 0x1000) (addr.toNat % 0x1000) .rw ||| accMask (addr.toNat / 0x1000) (addr.toNat % 0x1000) .rws))) else ((s.upTo t).pageDue (addr.toNat / 0x1000)).written addr.toNat v) ∧
        u.f (lanePage (hostLane port.val)) Reg.FRAME_FRAME_STATUS_POSTED_DONE = (s.f (lanePage (hostLane port.val)) Reg.FRAME_FRAME_STATUS_POSTED_DONE + 1) % 2 ^ Reg.FRAME_FRAME_STATUS_POSTED_DONE.width) ∧
  (∀ (t : Nat) (port : Fin 2) (tag : BitVec 16) (addr : BitVec 40) (count : Fin 256) (s : State), (s.upTo t).applies ((s.upTo t).arriving port 0 tag addr.toNat count false []) →
    addr.toNat < 0x100000 → count.val = 3 → (port.val = 1 ∨ (s.upTo t).hostCycle = []) → Completes (.txnRead t port tag addr count) s fun u =>
      u.lanes[(hostLane port.val)].cpls.map Cpl.answer = s.lanes[(hostLane port.val)].cpls.map Cpl.answer ++ [(tag.toNat, 0, 3, leBytes 4 (((s.upTo t).counted ((s.upTo t).arriving port 0 tag addr.toNat count false [])).readWord (addr.toNat / 0x1000) (addr.toNat % 0x1000)).toNat)]) ∧
  (∀ (t : Nat) (port : Fin 2) (tag : BitVec 16) (addr : BitVec 40) (count : Fin 256) (e : HostWrite) (s : State), (s.upTo t).applies ((s.upTo t).arriving port 0 tag addr.toNat count false []) →
    addr.toNat < 0x100000 → count.val = 3 → port.val = 0 → (∀ k : Fin 4, (s.upTo t).sameCycle 0 (addr.toNat + k.val) = [] ∧
    ((s.upTo t).sameCycle 1 (addr.toNat + k.val)).getLast? = some e) → Completes (.txnRead t port tag addr count) s fun u =>
      u.lanes[(hostLane port.val)].cpls.map Cpl.answer = s.lanes[(hostLane port.val)].cpls.map Cpl.answer ++ [(tag.toNat, 0, 3, (List.range 4).map fun k => e.old.getD (addr.toNat + k - e.addr) 0#8)])

/-- R87, R88, R89, R313: each of the four transactions takes effect on arrival and its completion is ready, or waits on A in lockstep; a fence
completes when nothing it waits for is left; a ready completion leaves when the line is free. -/
def Obligations.HostTransactions : Prop :=
  (∀ (t : Nat) (port : Fin 2) (tag : BitVec 16) (addr : BitVec 40) (count : Fin 256) (s : State), (s.upTo t).applies ((s.upTo t).arriving port 0 tag addr.toNat count false []) →
    dramBase ≤ addr.toNat → Completes (.txnRead t port tag addr count) s fun u =>
      u.lanes[(hostLane port.val)].cpls.map Cpl.answer = s.lanes[(hostLane port.val)].cpls.map Cpl.answer ++ [(tag.toNat, 0, count.val, s.rawBytes addr.toNat (count + 1))]) ∧
  (∀ (t : Nat) (port : Fin 2) (tag : BitVec 16) (addr : BitVec 40) (count : Fin 256) (s : State), (s.upTo t).applies ((s.upTo t).arriving port 0 tag addr.toNat count false []) →
    addr.toNat < dramBase → Completes (.txnRead t port tag addr count) s fun u =>
      (u.lanes[(hostLane port.val)].cpls.map fun c => (c.tag, c.op, c.count)) = (s.lanes[(hostLane port.val)].cpls.map fun c => (c.tag, c.op, c.count)) ++ [(tag.toNat, 0, count.val)]) ∧
  (∀ (t : Nat) (port : Fin 2) (tag : BitVec 16) (addr : BitVec 40) (count : Fin 256) (data : List Byte) (s : State), (s.upTo t).applies ((s.upTo t).arriving port 1 tag addr.toNat count false data) →
    dramBase ≤ addr.toNat → Completes (.txnWrite t port tag addr count data) s fun u =>
      (∀ k : Nat, k < count.val + 1 → ((s.upTo t).dramCycle.cycle = (s.upTo t).now / 16 →
        ∀ w ∈ (s.upTo t).dramCycle.writes, mergeOrder 3 (Pg.LINK port.val) < w.1 → ¬ (w.2.1 ≤ addr.toNat + k ∧ addr.toNat + k < w.2.1 + w.2.2)) →
        u.byte (addr.toNat + k) = data.getD k 0#8) ∧
        u.lanes[(hostLane port.val)].cpls.map Cpl.answer = s.lanes[(hostLane port.val)].cpls.map Cpl.answer ++ [(tag.toNat, 1, count.val, [])]) ∧
  (∀ (t : Nat) (port : Fin 2) (tag : BitVec 16) (addr : BitVec 40) (count : Fin 256) (data : List Byte) (s : State), (s.upTo t).applies ((s.upTo t).arriving port 1 tag addr.toNat count false data) →
    0x100000 ≤ addr.toNat → addr.toNat < dramBase → Completes (.txnWrite t port tag addr count data) s fun u =>
      (∀ k : Nat, k < count.val + 1 → u.byte (addr.toNat + k) = (if port.val = 0 ∧
        (s.upTo t).sameCycle 1 (addr.toNat + k) ≠ [] then (s.upTo t).byte (addr.toNat + k) else data.getD k 0#8)) ∧
        u.lanes[(hostLane port.val)].cpls.map Cpl.answer = s.lanes[(hostLane port.val)].cpls.map Cpl.answer ++ [(tag.toNat, 1, count.val, [])]) ∧
  (∀ (t : Nat) (port : Fin 2) (tag : BitVec 16) (addr : BitVec 40) (count : Fin 256) (data : List Byte) (s : State), (s.upTo t).applies ((s.upTo t).arriving port 2 tag addr.toNat count false data) →
    dramBase ≤ addr.toNat → Completes (.txnWritePosted t port tag addr count data) s fun u =>
      (∀ k : Nat, k < count.val + 1 → ((s.upTo t).dramCycle.cycle = (s.upTo t).now / 16 →
        ∀ w ∈ (s.upTo t).dramCycle.writes, mergeOrder 3 (Pg.LINK port.val) < w.1 → ¬ (w.2.1 ≤ addr.toNat + k ∧ addr.toNat + k < w.2.1 + w.2.2)) →
        u.byte (addr.toNat + k) = data.getD k 0#8) ∧
        u.f (lanePage (hostLane port.val)) Reg.FRAME_FRAME_STATUS_POSTED_DONE = (s.f (lanePage (hostLane port.val)) Reg.FRAME_FRAME_STATUS_POSTED_DONE + 1) % 2 ^ Reg.FRAME_FRAME_STATUS_POSTED_DONE.width) ∧
  (∀ (t : Nat) (port : Fin 2) (tag : BitVec 16) (addr : BitVec 40) (count : Fin 256) (data : List Byte) (s : State), (s.upTo t).applies ((s.upTo t).arriving port 2 tag addr.toNat count false data) →
    0x100000 ≤ addr.toNat → addr.toNat < dramBase → Completes (.txnWritePosted t port tag addr count data) s fun u =>
      (∀ k : Nat, k < count.val + 1 → u.byte (addr.toNat + k) = (if port.val = 0 ∧
        (s.upTo t).sameCycle 1 (addr.toNat + k) ≠ [] then (s.upTo t).byte (addr.toNat + k) else data.getD k 0#8)) ∧
        u.f (lanePage (hostLane port.val)) Reg.FRAME_FRAME_STATUS_POSTED_DONE = (s.f (lanePage (hostLane port.val)) Reg.FRAME_FRAME_STATUS_POSTED_DONE + 1) % 2 ^ Reg.FRAME_FRAME_STATUS_POSTED_DONE.width) ∧
  (∀ (t : Nat) (port : Fin 2) (tag : BitVec 16) (cross : Bool) (s : State), (s.upTo t).applies ((s.upTo t).arriving port 3 tag 0 0 cross []) →
    Completes (.txnFence t port tag cross) s fun u =>
      u.lanes[(hostLane port.val)].fences = s.lanes[(hostLane port.val)].fences ++ [(s.upTo t).arriving port 3 tag 0 0 cross []]) ∧
  (∀ (t : Nat) (port : Fin 2) (tag : BitVec 16) (addr : BitVec 40) (count : Fin 256) (s : State), (s.upTo t).defers ((s.upTo t).arriving port 0 tag addr.toNat count false []) →
    Completes (.txnRead t port tag addr count) s fun u =>
      u.dip.queue = s.dip.queue ++ [(s.upTo t).arriving port 0 tag addr.toNat count false []] ∧ SameMem s u) ∧
  (∀ (t : Nat) (port : Fin 2) (tag : BitVec 16) (addr : BitVec 40) (count : Fin 256) (data : List Byte) (s : State), (s.upTo t).defers ((s.upTo t).arriving port 1 tag addr.toNat count false data) →
    Completes (.txnWrite t port tag addr count data) s fun u =>
      u.dip.queue = s.dip.queue ++ [(s.upTo t).arriving port 1 tag addr.toNat count false data] ∧ SameMem s u) ∧
  (∀ (t : Nat) (port : Fin 2) (tag : BitVec 16) (addr : BitVec 40) (count : Fin 256) (data : List Byte) (s : State), (s.upTo t).defers ((s.upTo t).arriving port 2 tag addr.toNat count false data) →
    Completes (.txnWritePosted t port tag addr count data) s fun u =>
      u.dip.queue = s.dip.queue ++ [(s.upTo t).arriving port 2 tag addr.toNat count false data] ∧ SameMem s u) ∧
  (∀ (t : Nat) (port : Fin 2) (tag : BitVec 16) (cross : Bool) (s : State), (s.upTo t).defers ((s.upTo t).arriving port 3 tag 0 0 cross []) →
    Completes (.txnFence t port tag cross) s fun u =>
      u.dip.queue = s.dip.queue ++ [(s.upTo t).arriving port 3 tag 0 0 cross []] ∧ SameMem s u) ∧
  (∀ (t : Nat) (port : Fin 2) (q : Txn) (r : List Txn) (s : State), s.lanes[(hostLane port.val)].fences = q :: r → s.fenceReady q = true →
    Completes (.fenceComplete t port) s fun u =>
      u.lanes[(hostLane port.val)].fences = r ∧
        u.lanes[(hostLane port.val)].cpls.map Cpl.answer = s.lanes[(hostLane port.val)].cpls.map Cpl.answer ++ [(q.tag, 3, 0, [])]) ∧
  (∀ (t : Nat) (port : Fin 2) (c : Cpl) (s : State), s.laneUp (hostLane port.val).val = true → (s.upTo t).nextCpl (hostLane port.val) = some c →
    (s.upTo t).mayStart (hostLane port.val) ⟨3, (s.upTo t).nextSeq (hostLane port.val) 3, 0, c.payload (s.f (lanePage (hostLane port.val)) Reg.FRAME_FRAME_STATUS_POSTED_DONE)⟩ = true →
    Completes (.cplSend t port) s fun u =>
      u.lanes[(hostLane port.val)].cpls = s.lanes[(hostLane port.val)].cpls.erase c ∧
        (u.lanes[(hostLane port.val)].tx.map fun q => (q.2.ty, q.2.payload)) = some (3, c.payload (s.f (lanePage (hostLane port.val)) Reg.FRAME_FRAME_STATUS_POSTED_DONE)) ∧
        u.f (lanePage (hostLane port.val)) Reg.FRAME_CPL_SENT = satU (s.f (lanePage (hostLane port.val)) Reg.FRAME_CPL_SENT + 1) Reg.FRAME_CPL_SENT.width ∧
        (s.f (lanePage (hostLane port.val)) Reg.FRAME_FRAME_STATUS_OUTSTANDING ≠ 0 →
        u.f (lanePage (hostLane port.val)) Reg.FRAME_FRAME_STATUS_OUTSTANDING + 1 = s.f (lanePage (hostLane port.val)) Reg.FRAME_FRAME_STATUS_OUTSTANDING))

/-- R211, R213, R217: an open tile closes, a fetch fills the descriptors or the ring, and a complete rectangle is compared. -/
def Obligations.Raster : Prop :=
  (∀ (t : Nat) (b : Fin 16) (q : Nat × Nat) (k : Nat) (s : State), s.rasters[b].tile = some q → s.rasters[b].closeAt = some k →
    (s.upTo t).past k = true → Completes (.tileClose t b) s fun u =>
      u.rasters[b].tile = none ∧ u.rasters[b].lastTile = some q ∧ u.rasters[b].closeAt = none ∧ u.rasters[b].rects = Vector.replicate 8 {} ∧
        u.fb (Pg.RASTER b) Reg.RASTER_TILE_STATUS_OPEN = false) ∧
  (∀ (t : Nat) (b : Fin 16) (k : Nat) (idx : Nat) (line : Bool) (h : Sheet) (r : Rec) (s : State), (s.brushes[b].force.toList ++ s.brushes[b].queue)[k]? = some h →
    s.record h idx = r → r.op = opRaster → s.brushes[b].lapsOf h.seq idx ≠ [] → s.pageOn (Pg.RASTER b) = true → s.dramOn = true → line = false →
    s.askable (h.tiles + 8 * r.tile) 8 → s.askable (s.tileAddr h.tiles r.tile) 128 → s.dramBad (h.tiles + 8 * r.tile) 8 = false →
    s.dramBad (s.tileAddr h.tiles r.tile) 128 = false → Completes (.rasterFetchDone t b k idx line) s fun u =>
      u.rasters[b].descs.head? = some (h.tiles, r.tile) ∧ u.rasters[b].lines = s.rasters[b].lines) ∧
  (∀ (t : Nat) (b : Fin 16) (k : Nat) (idx : Nat) (line : Bool) (h : Sheet) (r : Rec) (lap pos : Nat) (s : State), (s.brushes[b].force.toList ++ s.brushes[b].queue)[k]? = some h →
    s.record h idx = r → r.op = opRaster → s.brushes[b].lapsOf h.seq idx ≠ [] → s.pageOn (Pg.RASTER b) = true → s.dramOn = true → line = true →
    s.askable (s.tileData (s.tileAddr h.tiles r.tile) + r.line * s.tileStride (s.tileAddr h.tiles r.tile) + (s.lineSpan (s.tileAddr h.tiles r.tile) r).1) (64 * (s.lineSpan (s.tileAddr h.tiles r.tile) r).2) →
    s.dramBad (s.tileData (s.tileAddr h.tiles r.tile) + r.line * s.tileStride (s.tileAddr h.tiles r.tile) + (s.lineSpan (s.tileAddr h.tiles r.tile) r).1) (64 * (s.lineSpan (s.tileAddr h.tiles r.tile) r).2) = false →
    s.rasters[b].descs.contains (h.tiles, r.tile) = true →
    ((s.brushes[b].lapsOf h.seq idx).find? fun k => !s.rasters[b].lines.any fun l => l.isFor h.seq idx k) = some lap →
    s.rasters[b].room (s.lineSpan (s.tileAddr h.tiles r.tile) r).2 = some pos → Completes (.rasterFetchDone t b k idx line) s fun u =>
      u.rasters[b].lines = s.rasters[b].lines ++ [⟨h.seq, idx, (s.lineSpan (s.tileAddr h.tiles r.tile) r).2, pos, (s.lineSpan (s.tileAddr h.tiles r.tile) r).1, lap⟩] ∧
        u.rasters[b].ringPos = (pos + (s.lineSpan (s.tileAddr h.tiles r.tile) r).2) % 512 ∧ u.rasters[b].descs.head? = some (h.tiles, r.tile)) ∧
  (∀ (t : Nat) (b : Fin 16) (d : SwDue) (rest : List SwDue) (s : State), ((s.upTo t).takePixels b (s.upTo t).now).rasters[b].due = d :: rest →
    (s.upTo t).past d.stamp = true → Completes (.swatchCompare t b) s fun u =>
      u.f (Pg.RASTER b) Reg.RASTER_SWATCH_GOT = d.got % 2 ^ 32 ∧ u.f (Pg.RASTER b) Reg.RASTER_SWATCH_EXPECTED = d.expected % 2 ^ 32 ∧
        u.fb (Pg.RASTER b) Reg.RASTER_SWATCH_MATCH = decide (d.got = d.expected) ∧ u.fb (Pg.RASTER b) Reg.RASTER_SWATCH_VALID = true ∧
        u.f (Pg.RASTER b) Reg.RASTER_SWATCH_FAILS = (if d.got = d.expected then s.f (Pg.RASTER b) Reg.RASTER_SWATCH_FAILS else satU (s.f (Pg.RASTER b) Reg.RASTER_SWATCH_FAILS + 1) Reg.RASTER_SWATCH_FAILS.width))

/-- R70 to R78, R89, R118: What each of these commands changes, in a state whose tables are in canonical form: the fields named, the registers
listed, and the time; nothing else, no byte of memory and no other unit. -/
def Obligations.FramesOfLanes : Prop :=
  (∀ (t : Nat) (q : Squelch) (s : State), s.Tidy → Ensures (.laneActivity t q) s fun u =>
      u = { s with time := { s.time with now := u.time.now, acc := u.time.acc, cycles := u.time.cycles }, regs := u.regs, lanes := s.lanes.set q.lane u.lanes[q.lane] } ∧
        RegsBut [regAddr (lanePage q.lane.val) Reg.LANE_LANE_STATUS_ACTIVITY.off] s u) ∧
  (∀ (t : Nat) (l : Fin 20) (s : State), s.Tidy → Ensures (.clockPatternEnd t l) s fun u =>
      u = { s with time := { s.time with now := u.time.now, acc := u.time.acc, cycles := u.time.cycles }, lanes := s.lanes.set l u.lanes[l] }) ∧
  (∀ (t : Nat) (l : Fin 20) (s : State), s.Tidy → (s.lanes[l].pstep.any fun st => st.launched) = false → Ensures (.capSend t l) s fun u =>
      u = { s with time := { s.time with now := u.time.now, acc := u.time.acc, cycles := u.time.cycles }, regs := u.regs, lanes := s.lanes.set l u.lanes[l] } ∧
        RegsBut [regAddr (lanePage l.val) Reg.FRAME_FRAME_STATUS_TX_SEQ.off] s u) ∧
  (∀ (t : Nat) (l : Fin 20) (s : State), s.Tidy → Ensures (.idleSend t l) s fun u =>
      u = { s with time := { s.time with now := u.time.now, acc := u.time.acc, cycles := u.time.cycles }, regs := u.regs, lanes := s.lanes.set l u.lanes[l] } ∧
        RegsBut [regAddr (lanePage l.val) Reg.FRAME_FRAME_STATUS_TX_SEQ.off] s u) ∧
  (∀ (t : Nat) (l : Fin 4) (s : State), s.Tidy → Ensures (.txTimingSwitch t l) s fun u =>
      u = { s with time := { s.time with now := u.time.now, acc := u.time.acc, cycles := u.time.cycles }, regs := u.regs } ∧
        RegsBut [regAddr (Pg.LINK l.val) Reg.LANE_LANE_STATUS_TX_LOOP_TIMED.off] s u) ∧
  (∀ (t : Nat) (l : Fin 20) (rate : Fin 4) (s : State), s.Tidy → Ensures (.stepCtrlGo t l rate) s fun u =>
      u = { s with time := { s.time with now := u.time.now, acc := u.time.acc, cycles := u.time.cycles }, regs := u.regs, lanes := s.lanes.set l u.lanes[l], lastEv := u.lastEv, ev := { s.ev with offers := u.ev.offers } } ∧
        RegsBut ([regAddr (lanePage l.val) Reg.LANE_STEP_STATUS_BUSY.off] ++ noted (lanePage l.val)) s u) ∧
  (∀ (t : Nat) (l : Fin 20) (s : State), s.Tidy → Ensures (.stepAckDeadline t l) s fun u =>
      u = { s with time := { s.time with now := u.time.now, acc := u.time.acc, cycles := u.time.cycles }, regs := u.regs, lanes := s.lanes.set l u.lanes[l] } ∧
        RegsBut [regAddr (lanePage l.val) Reg.LANE_STEP_STATUS_BUSY.off] s u) ∧
  (∀ (t : Nat) (l : Fin 20) (s : State), s.Tidy → Ensures (.stepQuiesce t l) s fun u =>
      u = { s with time := { s.time with now := u.time.now, acc := u.time.acc, cycles := u.time.cycles }, lanes := s.lanes.set l u.lanes[l] }) ∧
  (∀ (t : Nat) (l : Fin 20) (s : State), s.Tidy → Ensures (.loopInject t l) s fun u =>
      u = { s with time := { s.time with now := u.time.now, acc := u.time.acc, cycles := u.time.cycles }, regs := u.regs, lanes := s.lanes.set l u.lanes[l], lastEv := u.lastEv, ev := { s.ev with offers := u.ev.offers } } ∧
        RegsBut ([regAddr (lanePage l.val) Reg.LANE_PRBS_ERRORS.off, regAddr (lanePage l.val) Reg.LANE_PRBS_BITS_LO.off, regAddr (lanePage l.val) Reg.LANE_PRBS_BITS_HI.off] ++ noted (lanePage l.val)) s u) ∧
  (∀ (t : Nat) (l : Fin 20) (s : State), s.Tidy → Ensures (.loopClear t l) s fun u =>
      u = { s with time := { s.time with now := u.time.now, acc := u.time.acc, cycles := u.time.cycles }, regs := u.regs, lanes := s.lanes.set l u.lanes[l] } ∧
        RegsBut ([regAddr (lanePage l.val) Reg.LANE_PRBS_ERRORS.off, regAddr (lanePage l.val) Reg.LANE_PRBS_BITS_LO.off, regAddr (lanePage l.val) Reg.LANE_PRBS_BITS_HI.off] ++ (if l.val < 4 then [0x070, 0x074, 0x078, 0x07C, 0x104, 0x108, 0x10C, 0x110, 0x114, 0x118] else [0x070, 0x074, 0x078, 0x07C, 0x10C, 0x110, 0x114]).map (regAddr (lanePage l.val))) s u) ∧
  (∀ (t : Nat) (l : Fin 20) (v : Word) (s : State), s.Tidy → Ensures (.loopCtrlWrite t l v) s fun u =>
      u = { s with time := { s.time with now := u.time.now, acc := u.time.acc, cycles := u.time.cycles }, regs := u.regs, lanes := s.lanes.set l u.lanes[l], freeCtr := u.freeCtr } ∧
        RegsBut [regAddr (lanePage l.val) Reg.LANE_LOOP_CTRL_MODE.off, regAddr (lanePage l.val) Reg.LANE_PRBS_STATUS.off, regAddr (lanePage l.val) Reg.LANE_PRBS_ERRORS.off, regAddr (lanePage l.val) Reg.LANE_PRBS_BITS_LO.off, regAddr (lanePage l.val) Reg.LANE_PRBS_BITS_HI.off, regAddr (lanePage l.val) Reg.LANE_LANE_STATUS_PHASE.off] s u) ∧
  (∀ (t : Nat) (r : LaneBits) (s : State), s.Tidy → Ensures (.prbsSyncGain t r) s fun u =>
      u = { s with time := { s.time with now := u.time.now, acc := u.time.acc, cycles := u.time.cycles }, regs := u.regs, lanes := s.lanes.set r.lane u.lanes[r.lane] } ∧
        RegsBut [regAddr (lanePage r.lane.val) Reg.LANE_PRBS_STATUS.off] s u) ∧
  (∀ (t : Nat) (l : Fin 20) (s : State), s.Tidy → Ensures (.prbsSyncLoss t l) s fun u =>
      u = { s with time := { s.time with now := u.time.now, acc := u.time.acc, cycles := u.time.cycles }, regs := u.regs, lanes := s.lanes.set l u.lanes[l] } ∧
        RegsBut [regAddr (lanePage l.val) Reg.LANE_PRBS_STATUS.off, regAddr (lanePage l.val) Reg.LANE_PRBS_BITS_LO.off, regAddr (lanePage l.val) Reg.LANE_PRBS_BITS_HI.off] s u) ∧
  (∀ (t : Nat) (r : LaneBit) (s : State), s.Tidy → Ensures (.prbsBitError t r) s fun u =>
      u = { s with time := { s.time with now := u.time.now, acc := u.time.acc, cycles := u.time.cycles }, regs := u.regs, lanes := s.lanes.set r.lane u.lanes[r.lane], lastEv := u.lastEv, ev := { s.ev with offers := u.ev.offers } } ∧
        RegsBut ([regAddr (lanePage r.lane.val) Reg.LANE_PRBS_ERRORS.off, regAddr (lanePage r.lane.val) Reg.LANE_PRBS_BITS_LO.off, regAddr (lanePage r.lane.val) Reg.LANE_PRBS_BITS_HI.off] ++ noted (lanePage r.lane.val)) s u) ∧
  (∀ (t : Nat) (port : Fin 2) (s : State), s.Tidy → Ensures (.fenceComplete t port) s fun u =>
      u = { s with time := { s.time with now := u.time.now, acc := u.time.acc, cycles := u.time.cycles }, lanes := s.lanes.set (hostLane port) u.lanes[hostLane port] }) ∧
  (∀ (t : Nat) (port : Fin 2) (s : State), s.Tidy → Ensures (.cplSend t port) s fun u =>
      u = { s with time := { s.time with now := u.time.now, acc := u.time.acc, cycles := u.time.cycles }, regs := u.regs, lanes := s.lanes.set (hostLane port) u.lanes[hostLane port] } ∧
        RegsBut [regAddr (lanePage (hostLane port.val).val) Reg.FRAME_FRAME_STATUS_TX_SEQ.off, regAddr (lanePage (hostLane port.val).val) Reg.FRAME_CPL_SENT.off] s u)

/-- R50 to R60, R107 to R118, R125, R126: What each of these commands changes, in a state whose tables are in canonical form: the fields named, the
registers listed, and the time; nothing else, no byte of memory and no other unit. -/
def Obligations.FramesOfClockAndTime : Prop :=
  (∀ (t : Nat) (s : State), s.Tidy → Ensures (.fmeasStart t) s fun u =>
      u = { s with time := { s.time with now := u.time.now, acc := u.time.acc, cycles := u.time.cycles }, regs := u.regs, clk := { s.clk with fmeas := u.clk.fmeas } } ∧
        RegsBut [regAddr Pg.CLK Reg.CLK_FMEAS_STATUS_BUSY.off] s u) ∧
  (∀ (t : Nat) (n : Nat) (s : State), s.Tidy → Ensures (.fmeasDone t n) s fun u =>
      u = { s with time := { s.time with now := u.time.now, acc := u.time.acc, cycles := u.time.cycles }, regs := u.regs, clk := { s.clk with fmeas := u.clk.fmeas }, lastEv := u.lastEv, ev := { s.ev with offers := u.ev.offers } } ∧
        RegsBut ([regAddr Pg.CLK Reg.CLK_FMEAS_STATUS_BUSY.off, regAddr Pg.CLK Reg.CLK_FMEAS_COUNT.off] ++ noted Pg.CLK) s u) ∧
  (∀ (t : Nat) (s : State), s.Tidy → Ensures (.fmeasTimeout t) s fun u =>
      u = { s with time := { s.time with now := u.time.now, acc := u.time.acc, cycles := u.time.cycles }, regs := u.regs, clk := { s.clk with fmeas := u.clk.fmeas } } ∧
        RegsBut [regAddr Pg.CLK Reg.CLK_FMEAS_STATUS_BUSY.off] s u) ∧
  (∀ (t : Nat) (s : State), s.Tidy → Ensures (.holdLock t) s fun u =>
      u = { s with time := { s.time with now := u.time.now, acc := u.time.acc, cycles := u.time.cycles }, regs := u.regs, lastEv := u.lastEv, ev := { s.ev with offers := u.ev.offers } } ∧
        RegsBut ([regAddr Pg.CLK Reg.CLK_STATUS_LOCKED.off, regAddr Pg.CLK Reg.CLK_COUNTS_SWITCH_COUNT.off] ++ noted Pg.CLK) s u) ∧
  (∀ (t : Nat) (ok : Bool) (s : State), s.Tidy → Ensures (.coastExitLock t ok) s fun u =>
      u = { s with time := { s.time with now := u.time.now, acc := u.time.acc, cycles := u.time.cycles }, regs := u.regs, clk := { s.clk with exiting := u.clk.exiting, qualSince := u.clk.qualSince, freqOk := u.clk.freqOk }, lastEv := u.lastEv, ev := { s.ev with offers := u.ev.offers } } ∧
        RegsBut ([regAddr Pg.CLK Reg.CLK_STATUS_LOCKED.off, regAddr Pg.CLK Reg.CLK_REF_STATUS_SELECTED.off] ++ noted Pg.CLK) s u) ∧
  (∀ (t : Nat) (c : Fin 4) (s : State), s.Tidy → Ensures (.candidateQualified t c) s fun u =>
      u = { s with time := { s.time with now := u.time.now, acc := u.time.acc, cycles := u.time.cycles }, regs := u.regs, clk := { s.clk with exiting := u.clk.exiting, holdStart := u.clk.holdStart, prevSel := u.clk.prevSel, chain := u.clk.chain }, lastEv := u.lastEv, ev := { s.ev with offers := u.ev.offers } } ∧
        RegsBut ([regAddr Pg.CLK Reg.CLK_STATUS_LOCKED.off, regAddr Pg.CLK Reg.CLK_REF_STATUS_SELECTED.off, regAddr Pg.CLK Reg.CLK_LAST_SWITCH_LO.off, regAddr Pg.CLK Reg.CLK_LAST_SWITCH_HI.off] ++ noted Pg.CLK) s u) ∧
  (∀ (t : Nat) (c : Fin 5) (s : State), s.Tidy → Ensures (.wakeEvent t c) s fun u =>
      u = { s with time := { s.time with now := u.time.now, acc := u.time.acc, cycles := u.time.cycles }, regs := u.regs, pwr := u.pwr } ∧
        RegsBut [regAddr Pg.PWR Reg.PWR_WAKE_STATUS_CAUSE.off, regAddr Pg.PWR Reg.PWR_AON_COUNTS_WAKES.off] s u) ∧
  (∀ (t : Nat) (s : State), s.Tidy → Ensures (.wakeBlankEnd t) s fun u =>
      u = { s with time := { s.time with now := u.time.now, acc := u.time.acc, cycles := u.time.cycles }, regs := u.regs, pwr := u.pwr } ∧
        RegsBut [regAddr Pg.PWR Reg.PWR_WAKE_STATUS_CAUSE.off, regAddr Pg.PWR Reg.PWR_AON_COUNTS_WAKES.off] s u) ∧
  (∀ (t : Nat) (s : State), s.Tidy → Ensures (.pgTimeout t) s fun u =>
      u = { s with time := { s.time with now := u.time.now, acc := u.time.acc, cycles := u.time.cycles }, regs := u.regs, pwr := u.pwr } ∧
        RegsBut [regAddr Pg.PWR Reg.PWR_WAKE_STATUS_CAUSE.off] s u) ∧
  (∀ (t : Nat) (port : Fin 4) (txTime : Nat) (seqId : Nat) (senderId : Nat) (s : State), s.Tidy →
    Ensures (.dlyReqReceive t port txTime seqId senderId) s fun u =>
      u = { s with time := { s.time with now := u.time.now, acc := u.time.acc, cycles := u.time.cycles, routes := u.time.routes, forwards := u.time.forwards }, regs := u.regs, lastEv := u.lastEv, ev := { s.ev with offers := u.ev.offers } } ∧
        RegsBut (noted Pg.TIME) s u) ∧
  (∀ (t : Nat) (port : Fin 4) (reqRx : Nat) (reqCorr : Nat) (seqId : Nat) (responder : Nat) (s : State), s.Tidy →
    Ensures (.dlyRspReceive t port reqRx reqCorr seqId responder) s fun u =>
      u = { s with time := { s.time with now := u.time.now, acc := u.time.acc, cycles := u.time.cycles, ports := s.time.ports.set port u.time.ports[port], forwards := u.time.forwards }, regs := u.regs } ∧
        RegsBut [regAddr Pg.TIME Reg.TIME_DLY_COMPLETED.off, regAddr Pg.TIME Reg.TIME_SYNC_DISCARDED.off, regAddr Pg.TIME (Reg.TIME_DELAY.num port.val).off] s u) ∧
  (∀ (t : Nat) (port : Fin 4) (s : State), s.Tidy → Ensures (.dlyTimeout t port) s fun u =>
      u = { s with time := { s.time with now := u.time.now, acc := u.time.acc, cycles := u.time.cycles, ports := s.time.ports.set port u.time.ports[port] }, regs := u.regs, lastEv := u.lastEv, ev := { s.ev with offers := u.ev.offers } } ∧
        RegsBut ([regAddr Pg.TIME Reg.TIME_DLY_TIMEOUTS.off] ++ noted Pg.TIME) s u) ∧
  (∀ (t : Nat) (port : Fin 4) (s : State), s.Tidy → Ensures (.timeFrameForward t port) s fun u =>
      u = { s with time := { s.time with now := u.time.now, acc := u.time.acc, cycles := u.time.cycles, forwards := u.time.forwards }, regs := u.regs, lanes := s.lanes.set (port.castLE (by decide) : Fin 20) u.lanes[(port.castLE (by decide) : Fin 20)] } ∧
        RegsBut [regAddr (lanePage port.val) Reg.FRAME_FRAME_STATUS_TX_SEQ.off] s u) ∧
  (∀ (t : Nat) (v : Word) (s : State), s.Tidy → Ensures (.adjHiWrite t v) s fun u =>
      u = { s with time := { s.time with now := u.time.now, acc := u.time.acc, cycles := u.time.cycles, nextAdj := u.time.nextAdj }, regs := u.regs, active := u.active, lastEv := u.lastEv, ev := { s.ev with offers := u.ev.offers } } ∧
        RegsBut ([regAddr Pg.TIME 0x070] ++ noted Pg.TIME) s u ∧ (∀ a : Nat, a ∉ [regAddr Pg.TIME 0x06C, regAddr Pg.TIME 0x070] →
        u.actWord a = s.actWord a)) ∧
  (∀ (t : Nat) (l : Fin 20) (s : State), s.Tidy → Ensures (.launch t l) s fun u =>
      u = { s with time := { s.time with now := u.time.now, acc := u.time.acc, cycles := u.time.cycles, ports := u.time.ports }, regs := u.regs, lanes := s.lanes.set l u.lanes[l], lastEv := u.lastEv, ev := { s.ev with offers := u.ev.offers } } ∧
        RegsBut ([regAddr Pg.TIME Reg.TIME_LAUNCH_LATE.off] ++ [regAddr Pg.VISION Reg.VISION_MET_SENT.off] ++ noted Pg.TIME ++ [regAddr (lanePage l.val) Reg.FRAME_FRAME_STATUS_TX_SEQ.off]) s u)

/-- R38, R41, R43, R98, R99, R195, R305, R315, R318: What each of these commands changes, in a state whose tables are in canonical form: the fields
named, the registers listed, and the time; nothing else, no byte of memory and no other unit. The clauses of EVENT_CLEAR, EVENT_FORCE, COMMIT and
SNAPSHOT compare with the state in which the page has already taken what was due on it, as a command that looks at the page makes it do: on a light
port page the return of its burst (DESIGN CHOICE, log entry 45) with all that this return changes, and on a raster page the pixels already exposed;
and with the time as it then is. That a due return is taken by the next command that looks is the model's own choice. -/
def Obligations.FramesOfKnifeAndHeads : Prop :=
  (∀ (t : Nat) (key : Nat) (mask : BitVec 16) (s : State), s.Tidy → Ensures (.knifeArmSet t key mask) s fun u =>
      u = { s with time := { s.time with now := u.time.now, acc := u.time.acc, cycles := u.time.cycles }, regs := u.regs, knife := { s.knife with armAt := u.knife.armAt, permitted := u.knife.permitted }, lastEv := u.lastEv, ev := { s.ev with offers := u.ev.offers } } ∧
        RegsBut ([regAddr Pg.KNIFE Reg.KNIFE_ARM_STATE.off] ++ noted Pg.KNIFE) s u) ∧
  (∀ (t : Nat) (key : Nat) (mask : BitVec 16) (s : State), s.Tidy → Ensures (.knifeClear t key mask) s fun u =>
      u = { s with time := { s.time with now := u.time.now, acc := u.time.acc, cycles := u.time.cycles }, regs := u.regs, knife := { s.knife with clears := u.knife.clears }, lastEv := u.lastEv, ev := { s.ev with offers := u.ev.offers } } ∧
        RegsBut ([regAddr Pg.KNIFE Reg.KNIFE_TRIPPED.off, regAddr Pg.KNIFE Reg.KNIFE_CLEARS.off] ++ noted Pg.KNIFE ++ (List.finRange 16).map fun n => regAddr Pg.KNIFE (Reg.KNIFE_CAUSE_LATCHED.num n.val).off) s u) ∧
  (∀ (t : Nat) (p : Fin 256) (bits : Word) (s s1 : State), s.Tidy → s1 = (s.upTo t).pageDue p.val → Ensures (.eventClear t p bits) s fun u =>
      u = { s1 with time := u.time, regs := u.regs } ∧ RegsBut [regAddr p.val Reg.EVENT.off] s1 u) ∧
  (∀ (t : Nat) (p : Fin 256) (bits : Word) (s s1 : State), s.Tidy → s1 = (s.upTo t).pageDue p.val → Ensures (.eventForce t p bits) s fun u =>
      u = { s1 with time := u.time, regs := u.regs, lastEv := u.lastEv, ev := { s1.ev with offers := u.ev.offers } } ∧
        RegsBut [regAddr p.val Reg.EVENT.off, regAddr Pg.EVCOL Reg.EVCOL_MERGED.off] s1 u) ∧
  (∀ (t : Nat) (p : Fin 256) (s s1 : State), s.Tidy → s1 = (s.upTo t).pageDue p.val → Ensures (.commit t p) s fun u =>
      u = { s1 with time := u.time, regs := u.regs, commitAt := u.commitAt } ∧ RegsBut [regAddr p.val Reg.COMMIT_PENDING.off] s1 u) ∧
  (∀ (t : Nat) (h : Fin 16) (s : State), s.Tidy → Ensures (.mbxSend t h) s fun u =>
      u = { s with time := { s.time with now := u.time.now, acc := u.time.acc, cycles := u.time.cycles }, regs := u.regs, heads := s.heads.set h u.heads[h] } ∧
        RegsBut [regAddr (Pg.HEAD h.val) Reg.HEAD_MBX_STATUS_BUSY.off] s u) ∧
  (∀ (t : Nat) (h : Fin 16) (s : State), s.Tidy → Ensures (.mbxTimeout t h) s fun u =>
      u = { s with time := { s.time with now := u.time.now, acc := u.time.acc, cycles := u.time.cycles }, regs := u.regs, heads := s.heads.set h u.heads[h], lastEv := u.lastEv, ev := { s.ev with offers := u.ev.offers } } ∧
        RegsBut ([regAddr (Pg.HEAD h.val) Reg.HEAD_MBX_STATUS_BUSY.off] ++ noted (Pg.HEAD h.val)) s u) ∧
  (∀ (n : Nat) (s : State), s.Tidy → Ensures (.sampleBDeadline n) s fun u =>
      u = { s with time := { s.time with now := u.time.now, acc := u.time.acc, cycles := u.time.cycles }, regs := u.regs } ∧
        RegsBut ((List.range 16).map fun h => regAddr (Pg.HEAD h) Reg.HEAD_UP_MISSING_B.off) s u) ∧
  (∀ (t : Nat) (s : State), s.Tidy → Ensures (.formEchoDeadline t) s fun u =>
      u = { s with time := { s.time with now := u.time.now, acc := u.time.acc, cycles := u.time.cycles }, dip := { s.dip with formF := u.dip.formF } }) ∧
  (∀ (t : Nat) (s : State), s.Tidy → Ensures (.evtSend t) s fun u =>
      u = { s with time := { s.time with now := u.time.now, acc := u.time.acc, cycles := u.time.cycles }, regs := u.regs, ev := { s.ev with queue := u.ev.queue }, lanes := u.lanes } ∧
        RegsBut ([regAddr Pg.EVCOL Reg.EVCOL_STATUS_QUEUE.off, regAddr Pg.EVCOL Reg.EVCOL_PEAK_QUEUE.off, regAddr Pg.EVCOL Reg.EVCOL_PEAK_PENDING.off] ++ [regAddr (Pg.LINK 0) Reg.FRAME_EVT_MESSAGES.off, regAddr (Pg.LINK 1) Reg.FRAME_EVT_MESSAGES.off, regAddr (Pg.LINK 0) Reg.FRAME_FRAME_STATUS_TX_SEQ.off, regAddr (Pg.LINK 1) Reg.FRAME_FRAME_STATUS_TX_SEQ.off]) s u) ∧
  (∀ (t : Nat) (p : Fin 256) (s s1 : State), s.Tidy → p.val ≠ Pg.KNIFE → s1 = (s.upTo t).pageDue p.val → Ensures (.snapshotTake t p) s fun u =>
      u = { s1 with time := u.time, snap := u.snap } ∧ (∀ a : Nat, a ∉ (snapOffs p.val).map (regAddr p.val) → u.snapWord a = s1.snapWord a)) ∧
  (∀ (t : Nat) (p : Fin 256) (s : State), s.Tidy → Ensures (.shadowTransfer t p) s fun u =>
      u = { s with time := { s.time with now := u.time.now, acc := u.time.acc, cycles := u.time.cycles }, regs := u.regs, active := u.active, glazes := u.glazes, lastEv := u.lastEv, ev := { s.ev with offers := u.ev.offers } } ∧
        RegsBut (regAddr p.val Reg.COMMIT_PENDING.off :: noted p.val) s u ∧ (∀ a : Nat, a ∉ (rwsWords p.val).map (regAddr p.val) →
        u.actWord a = s.actWord a) ∧ (∀ b : Fin 16, p.val ≠ Pg.GLAZE b.val → u.glazes[b] = s.glazes[b])) ∧
  (∀ (t : Nat) (frame : Word) (w2 : Word) (digest : Word) (s : State), s.Tidy → Ensures (.digestReceive t frame w2 digest) s fun u =>
      u = { s with time := { s.time with now := u.time.now, acc := u.time.acc, cycles := u.time.cycles }, regs := u.regs, dip := { s.dip with latest := u.dip.latest, beats := u.dip.beats, formF := u.dip.formF, echoed := u.dip.echoed } } ∧
        RegsBut [regAddr Pg.DIPTYCH Reg.DIPTYCH_STATUS_PARTNER_READY.off, regAddr Pg.DIPTYCH Reg.DIPTYCH_FORM_FRAME.off] s u) ∧
  (∀ (t : Nat) (key : BitVec 8) (s : State), s.Tidy → Ensures (.handover t key) s fun u =>
      u = { s with time := { s.time with now := u.time.now, acc := u.time.acc, cycles := u.time.cycles }, regs := u.regs, dip := { s.dip with declareDue := u.dip.declareDue }, lastEv := u.lastEv, ev := { s.ev with offers := u.ev.offers } } ∧
        RegsBut (noted Pg.DIPTYCH) s u) ∧
  (∀ (t : Nat) (frame : Word) (words : Vector (BitVec 64) 4) (s : State), s.Tidy → Ensures (.mirrorMediumReceive t frame words) s fun u =>
      u = { s with time := { s.time with now := u.time.now, acc := u.time.acc, cycles := u.time.cycles }, medium := { s.medium with mirror := u.medium.mirror } })

/-- R151, R161, R182, R190, R213, R243, R254, R268, R273, R329, R331: What each of these commands changes, in a state whose tables are in canonical
form: the fields named, the registers listed, and the time; nothing else, no byte of memory and no other unit. A read of DRAM adds requests to the
controllers' queues. The clauses of CMD_HDR_WRITE and RESP_POP compare with the state in which the light port has already taken a burst's return
that was due (DESIGN CHOICE, log entry 45: it is taken by the next command that looks at the port), so that what such a return changes lies outside
them. -/
def Obligations.FramesOfBrushes : Prop :=
  (∀ (t : Nat) (n : Fin 4) (s : State), s.Tidy → Ensures (.indexArm t n) s fun u =>
      u = { s with time := { s.time with now := u.time.now, acc := u.time.acc, cycles := u.time.cycles }, regs := u.regs, encs := s.encs.set n u.encs[n] } ∧
        RegsBut [regAddr (Pg.ENC n.val) Reg.ENC_INDEX_VALID.off] s u) ∧
  (∀ (t : Nat) (n : Fin 4) (s : State), s.Tidy → Ensures (.indexCapture t n) s fun u =>
      u = { s with time := { s.time with now := u.time.now, acc := u.time.acc, cycles := u.time.cycles }, regs := u.regs, encs := s.encs.set n u.encs[n], lastEv := u.lastEv, ev := { s.ev with offers := u.ev.offers } } ∧
        RegsBut ([regAddr (Pg.ENC n.val) Reg.ENC_PINS_Z.off, regAddr (Pg.ENC n.val) Reg.ENC_INDEX_COUNT_LO.off, regAddr (Pg.ENC n.val) Reg.ENC_INDEX_COUNT_HI.off, regAddr (Pg.ENC n.val) Reg.ENC_INDEX_TIME_LO.off, regAddr (Pg.ENC n.val) Reg.ENC_INDEX_TIME_HI.off, regAddr (Pg.ENC n.val) Reg.ENC_INDEX_VALID.off] ++ noted (Pg.ENC n.val)) s u) ∧
  (∀ (t : Nat) (s : State), s.Tidy → Ensures (.targetRemove t) s fun u =>
      u = { s with time := { s.time with now := u.time.now, acc := u.time.acc, cycles := u.time.cycles }, medium := { s.medium with targets := u.medium.targets } }) ∧
  (∀ (n : Nat) (half : Bool) (b : Fin 16) (s : State), s.Tidy → Ensures (.powerBurstStart n half b) s fun u =>
      u = { s with time := { s.time with now := u.time.now, acc := u.time.acc, cycles := u.time.cycles }, regs := u.regs, lasers := s.lasers.set b u.lasers[b] } ∧
        RegsBut [regAddr (Pg.LASER b.val) Reg.LASER_PORT_STATUS_WORDS.off] s u) ∧
  (∀ (t : Nat) (b : Fin 16) (v : Word) (s : State), s.Tidy → Ensures (.chainStart t b v) s fun u =>
      u = { s with time := { s.time with now := u.time.now, acc := u.time.acc, cycles := u.time.cycles }, regs := u.regs, brushes := s.brushes.set b u.brushes[b], drams := u.drams, lastEv := u.lastEv, ev := { s.ev with offers := u.ev.offers } } ∧
        RegsBut (regAddr (Pg.BRUSH b.val) Reg.BRUSH_CHAIN_HI.off :: noted (Pg.BRUSH b.val) ++ [regAddr (Pg.DRAM 0) Reg.DRAM_FORWARDS.off, regAddr (Pg.DRAM 1) Reg.DRAM_FORWARDS.off]) s u ∧
        (∀ i : Fin 2, u.drams[i] = { s.drams[i] with reads := u.drams[i].reads, wq := u.drams[i].wq })) ∧
  (∀ (t : Nat) (b : Fin 16) (pathB : Bool) (s : State), s.Tidy → Ensures (.blockFetchRequest t b pathB) s fun u =>
      u = { s with time := { s.time with now := u.time.now, acc := u.time.acc, cycles := u.time.cycles }, regs := u.regs, brushes := s.brushes.set b u.brushes[b], drams := u.drams } ∧
        RegsBut (regAddr (Pg.BRUSH b.val) Reg.BRUSH_STATUS_CHAIN_ENDED.off :: [regAddr (Pg.DRAM 0) Reg.DRAM_FORWARDS.off, regAddr (Pg.DRAM 1) Reg.DRAM_FORWARDS.off]) s u ∧
        (∀ i : Fin 2, u.drams[i] = { s.drams[i] with reads := u.drams[i].reads, wq := u.drams[i].wq })) ∧
  (∀ (t : Nat) (b : Fin 16) (s : State), s.Tidy → Ensures (.nextPoll t b) s fun u =>
      u = { s with time := { s.time with now := u.time.now, acc := u.time.acc, cycles := u.time.cycles }, regs := u.regs, brushes := s.brushes.set b u.brushes[b], drams := u.drams } ∧
        RegsBut (regAddr (Pg.BRUSH b.val) Reg.BRUSH_STATUS_CHAIN_ENDED.off :: [regAddr (Pg.DRAM 0) Reg.DRAM_FORWARDS.off, regAddr (Pg.DRAM 1) Reg.DRAM_FORWARDS.off]) s u ∧
        (∀ i : Fin 2, u.drams[i] = { s.drams[i] with reads := u.drams[i].reads, wq := u.drams[i].wq })) ∧
  (∀ (t : Nat) (b : Fin 16) (s : State), s.Tidy → Ensures (.waitComplete t b) s fun u =>
      u = { s with time := { s.time with now := u.time.now, acc := u.time.acc, cycles := u.time.cycles }, regs := u.regs, brushes := s.brushes.set b u.brushes[b], rasters := s.rasters.set b u.rasters[b], lastEv := u.lastEv, ev := { s.ev with offers := u.ev.offers } } ∧
        RegsBut ([regAddr (Pg.BRUSH b.val) Reg.BRUSH_STATUS_WAITING.off, regAddr (Pg.BRUSH b.val) Reg.BRUSH_PASS_COUNT.off, regAddr (Pg.BRUSH b.val) Reg.BRUSH_ANCHOR_T_LO.off, regAddr (Pg.BRUSH b.val) Reg.BRUSH_ANCHOR_T_HI.off, regAddr (Pg.BRUSH b.val) Reg.BRUSH_ANCHOR_M_LO.off, regAddr (Pg.BRUSH b.val) Reg.BRUSH_ANCHOR_M_HI.off] ++ noted (Pg.BRUSH b.val) ++ [regAddr Pg.MEDIUM Reg.MEDIUM_SEAMS.off] ++ noted Pg.MEDIUM ++ [regAddr (Pg.RASTER b.val) Reg.RASTER_LINE_STATUS_RING_FREE.off]) s u) ∧
  (∀ (t : Nat) (b : Fin 16) (s : State), s.Tidy → s.rasters[b].closeAt.isSome = true → Ensures (.tileClose t b) s fun u =>
      u = { s with time := { s.time with now := u.time.now, acc := u.time.acc, cycles := u.time.cycles }, regs := u.regs, rasters := s.rasters.set b u.rasters[b], lastEv := u.lastEv, ev := { s.ev with offers := u.ev.offers } } ∧
        RegsBut ([regAddr (Pg.RASTER b.val) Reg.RASTER_SWATCH_INCOMPLETE.off, regAddr (Pg.RASTER b.val) Reg.RASTER_TILE_STATUS_OPEN.off] ++ noted (Pg.RASTER b.val)) s u) ∧
  (∀ (t : Nat) (p : Fin 4) (vc : Fin 16) (corrected : Bool) (s : State), s.Tidy → Ensures (.csiFrameEnd t p vc corrected) s fun u =>
      u = { s with time := { s.time with now := u.time.now, acc := u.time.acc, cycles := u.time.cycles }, regs := u.regs, camPorts := s.camPorts.set p { s.camPorts[p] with packetAt := u.camPorts[p].packetAt }, streams := u.streams, lastEv := u.lastEv, ev := { s.ev with offers := u.ev.offers } } ∧
        RegsBut ([regAddr (Pg.CAM p.val) Reg.CAM_PACKETS.off, regAddr (Pg.CAM p.val) Reg.CAM_HDR_CORRECTED.off, regAddr (Pg.CAM p.val) Reg.CAM_UNMATCHED.off] ++ noted (Pg.CAM p.val) ++ ((s.vcContexts p vc.val).flatMap fun (k : Fin 32) => [regAddr (Pg.STREAM k.val) Reg.STREAM_STATUS_OPEN.off, regAddr (Pg.STREAM k.val) Reg.STREAM_FRAMES.off])) s u ∧
        (∀ k : Fin 32, k ∉ s.vcContexts p vc.val → u.streams[k] = s.streams[k])) ∧
  (∀ (t : Nat) (p : Fin 4) (kind : CsiDiscard) (s : State), s.Tidy → Ensures (.csiUnmatchedPacket t p kind) s fun u =>
      u = { s with time := { s.time with now := u.time.now, acc := u.time.acc, cycles := u.time.cycles }, regs := u.regs, camPorts := s.camPorts.set p { s.camPorts[p] with packetAt := u.camPorts[p].packetAt }, lastEv := u.lastEv, ev := { s.ev with offers := u.ev.offers } } ∧
        RegsBut ([regAddr (Pg.CAM p.val) Reg.CAM_HDR_CORRECTED.off, regAddr (Pg.CAM p.val) Reg.CAM_UNMATCHED.off, regAddr (Pg.CAM p.val) Reg.CAM_PHY_ERRORS.off, regAddr (Pg.CAM p.val) Reg.CAM_HDR_UNCORR.off] ++ noted (Pg.CAM p.val) ++ (List.range 8).map fun j => regAddr (Pg.STREAM (8 * p.val + j)) Reg.STREAM_LINES_LOST.off) s u) ∧
  (∀ (t : Nat) (k : Fin 32) (s : State), s.Tidy → Ensures (.frameLimitExpiry t k) s fun u =>
      u = { s with time := { s.time with now := u.time.now, acc := u.time.acc, cycles := u.time.cycles }, regs := u.regs, streams := s.streams.set k u.streams[k], lastEv := u.lastEv, ev := { s.ev with offers := u.ev.offers } } ∧
        RegsBut ([regAddr (Pg.STREAM k.val) Reg.STREAM_STATUS_OPEN.off, regAddr (Pg.STREAM k.val) Reg.STREAM_FRAMES.off, regAddr (Pg.STREAM k.val) Reg.STREAM_TRUNCATED.off] ++ noted (Pg.STREAM k.val)) s u) ∧
  (∀ (t : Nat) (k : Fin 32) (v : Word) (s : State), s.Tidy → Ensures (.oneshotWrite t k v) s fun u =>
      u = { s with time := { s.time with now := u.time.now, acc := u.time.acc, cycles := u.time.cycles }, regs := u.regs, trigs := u.trigs, active := u.active, lastEv := u.lastEv, ev := { s.ev with offers := u.ev.offers } } ∧
        RegsBut ([regAddr (Pg.STREAM k.val) Reg.STREAM_ONESHOT_HI.off, regAddr (Pg.STREAM k.val) Reg.STREAM_TRIG_LATE.off] ++ noted (Pg.STREAM k.val)) s u ∧
        (∀ a : Nat, a ∉ [regAddr (Pg.STREAM k.val) Reg.STREAM_ONESHOT_LO.off, regAddr (Pg.STREAM k.val) Reg.STREAM_ONESHOT_HI.off] →
        u.actWord a = s.actWord a) ∧ (∀ o : Fin 8, o ≠ s.trigOf k → u.trigs[o] = s.trigs[o])) ∧
  (∀ (t : Nat) (e : Fin 4) (s : State), s.Tidy → Ensures (.traceArm t e) s fun u =>
      u = { s with time := { s.time with now := u.time.now, acc := u.time.acc, cycles := u.time.cycles }, regs := u.regs, engines := s.engines.set e u.engines[e], lastEv := u.lastEv, ev := { s.ev with offers := u.ev.offers } } ∧
        RegsBut ([regAddr (Pg.ENGINE e.val) 0x068] ++ noted (Pg.ENGINE e.val)) s u) ∧
  (∀ (t : Nat) (e : Fin 4) (s : State), s.Tidy → Ensures (.traceStop t e) s fun u =>
      u = { s with time := { s.time with now := u.time.now, acc := u.time.acc, cycles := u.time.cycles }, regs := u.regs, lastEv := u.lastEv, ev := { s.ev with offers := u.ev.offers } } ∧
        RegsBut ([regAddr (Pg.ENGINE e.val) 0x068] ++ noted (Pg.ENGINE e.val)) s u) ∧
  (∀ (t : Nat) (e : Fin 4) (v : Word) (s : State), s.Tidy → Ensures (.injectWrite t e v) s fun u =>
      u = { s with time := { s.time with now := u.time.now, acc := u.time.acc, cycles := u.time.cycles }, regs := u.regs, engines := s.engines.set e u.engines[e] } ∧
        RegsBut [regAddr (Pg.ENGINE e.val) 0x06C] s u) ∧
  (∀ (t : Nat) (n : Fin 8) (v : Word) (s : State), s.Tidy → Ensures (.stepTargetWrite t n v) s fun u =>
      u = { s with time := { s.time with now := u.time.now, acc := u.time.acc, cycles := u.time.cycles }, regs := u.regs, steppers := s.steppers.set n u.steppers[n] } ∧
        RegsBut [regAddr (Pg.STEP n.val) Reg.STEP_TARGET_HI.off] s u) ∧
  (∀ (t : Nat) (o : Fin 8) (s : State), s.Tidy → Ensures (.triggerEnd t o) s fun u =>
      u = { s with time := { s.time with now := u.time.now, acc := u.time.acc, cycles := u.time.cycles }, trigs := s.trigs.set o u.trigs[o] }) ∧
  (∀ (t : Nat) (n : Fin 4) (s : State), s.Tidy → Ensures (.tempPoll t n) s fun u =>
      u = { s with time := { s.time with now := u.time.now, acc := u.time.acc, cycles := u.time.cycles }, lights := s.lights.set n u.lights[n] }) ∧
  (∀ (t : Nat) (n : Fin 4) (s : State), s.Tidy → Ensures (.keepAlive t n) s fun u =>
      u = { s with time := { s.time with now := u.time.now, acc := u.time.acc, cycles := u.time.cycles }, lights := s.lights.set n u.lights[n] }) ∧
  (∀ (t : Nat) (n : Fin 4) (v : Word) (s s1 : State), s.Tidy → s1 = (s.upTo t).lightReturn n → Ensures (.cmdHdrWrite t n v) s fun u =>
      u = { s1 with time := u.time, regs := u.regs, lights := s1.lights.set n u.lights[n], lastEv := u.lastEv, ev := { s1.ev with offers := u.ev.offers } } ∧
        RegsBut ([regAddr (Pg.LTPORT n.val) Reg.LTPORT_QUEUE_STATUS_CMDS.off, regAddr (Pg.LTPORT n.val) Reg.LTPORT_RESP.off, regAddr (Pg.LTPORT n.val) Reg.LTPORT_RESP_INFO_ANS.off] ++ noted (Pg.LTPORT n.val)) s1 u) ∧
  (∀ (t : Nat) (n : Fin 4) (s s1 : State), s.Tidy → s1 = (s.upTo t).lightReturn n → Ensures (.respPop t n) s fun u =>
      u = { s1 with time := u.time, regs := u.regs, lights := s1.lights.set n u.lights[n] } ∧
        RegsBut [regAddr (Pg.LTPORT n.val) Reg.LTPORT_QUEUE_STATUS_CMDS.off, regAddr (Pg.LTPORT n.val) Reg.LTPORT_RESP.off, regAddr (Pg.LTPORT n.val) Reg.LTPORT_RESP_INFO_ANS.off] s1 u)

/-- R339, R340, R350, R352, R356, R372, R387 to R392: what each of these commands changes, in a state whose tables are in canonical form: the fields
named, the registers listed, and the time; nothing else. No byte of memory changes but that BG_ROW_START, BG_ROW_DONE and CLEAR_ACC may change the
recorder's accumulators (R370). These three read stored words: an error they find changes the errors held, the counts and the events of BANKS, the
pair's declare-due flag (R318) and the offers to the collector. CLEAR_ACC also starts the laser ports' accumulated counts anew. -/
def Obligations.FramesOfMemoryUnits : Prop :=
  (∀ (t : Nat) (s : State), s.Tidy → Ensures (.bgRowStart t) s fun u =>
      u = { s with time := { s.time with now := u.time.now, acc := u.time.acc, cycles := u.time.cycles }, regs := u.regs, bankTest := u.bankTest, freeCtr := u.freeCtr, mem := u.mem, memErr := u.memErr, lastEv := u.lastEv, ev := { s.ev with offers := u.ev.offers }, dip := { s.dip with declareDue := u.dip.declareDue } } ∧
        RegsBut (regAddr Pg.BANKS Reg.BANKS_BG_STATUS_ACTIVE.off :: errorRegs) s u ∧ OnlyRecords s u) ∧
  (∀ (t : Nat) (failed : Bool) (s : State), s.Tidy → Ensures (.bgRowDone t failed) s fun u =>
      u = { s with time := { s.time with now := u.time.now, acc := u.time.acc, cycles := u.time.cycles }, regs := u.regs, bankTest := u.bankTest, mem := u.mem, memErr := u.memErr, lastEv := u.lastEv, ev := { s.ev with offers := u.ev.offers }, dip := { s.dip with declareDue := u.dip.declareDue } } ∧
        RegsBut ([Reg.BANKS_BG_STATUS_ACTIVE.off, Reg.BANKS_SPARE_IN_USE.off, Reg.BANKS_ROW_FAILS.off, Reg.BANKS_ROWS_TESTED.off].map (regAddr Pg.BANKS) ++ (List.range 16).map (fun k => regAddr Pg.BANKS (0x80 + 4 * k)) ++ errorRegs) s u ∧
        OnlyRecords s u) ∧
  (∀ (t : Nat) (b : Fin 20) (off : Nat) (s : State), s.Tidy → Ensures (.bankEccWriteback t b off) s fun u =>
      u = { s with time := { s.time with now := u.time.now, acc := u.time.acc, cycles := u.time.cycles }, memErr := u.memErr } ∧
        (∀ a : Nat, a / 8 ≠ (bankBase b.val + off) / 8 → u.errAt a = s.errAt a)) ∧
  (∀ (t : Nat) (addr : Nat) (s : State), s.Tidy → Ensures (.dramEccWriteback t addr) s fun u =>
      u = { s with time := { s.time with now := u.time.now, acc := u.time.acc, cycles := u.time.cycles }, memErr := u.memErr, drams := s.drams.set (s.dramLoc addr).1 { s.drams[(s.dramLoc addr).1] with fixes := u.drams[(s.dramLoc addr).1].fixes } } ∧
        (∀ a : Nat, a / 64 ≠ addr / 64 → u.errAt a = s.errAt a)) ∧
  (∀ (t : Nat) (i : Fin 2) (s : State), s.Tidy → Ensures (.agePromotion t i) s fun u =>
      u = { s with time := { s.time with now := u.time.now, acc := u.time.acc, cycles := u.time.cycles }, regs := u.regs, drams := s.drams.set i u.drams[i] } ∧
        RegsBut [regAddr (Pg.DRAM i.val) Reg.DRAM_PROMOTIONS.off] s u) ∧
  (∀ (t : Nat) (i : Fin 2) (rate : Vector (Fin 32) 2) (hot : Bool) (s : State), s.Tidy → Ensures (.mr4Poll t i rate hot) s fun u =>
      u = { s with time := { s.time with now := u.time.now, acc := u.time.acc, cycles := u.time.cycles }, regs := u.regs, lastEv := u.lastEv, ev := { s.ev with offers := u.ev.offers } } ∧
        RegsBut ([regAddr (Pg.DRAM i.val) Reg.DRAM_STATUS_HOT.off] ++ noted (Pg.DRAM i.val)) s u) ∧
  (∀ (t : Nat) (target : Fin 32) (s : State), s.Tidy → Ensures (.calDelay t target) s fun u =>
      u = { s with time := { s.time with now := u.time.now, acc := u.time.acc, cycles := u.time.cycles }, regs := u.regs, cal := { s.cal with run := u.cal.run }, lastEv := u.lastEv, ev := { s.ev with offers := u.ev.offers } } ∧
        RegsBut ([regAddr Pg.CALIB Reg.CALIB_STATUS_BUSY.off] ++ noted Pg.CALIB) s u) ∧
  (∀ (t : Nat) (s : State), s.Tidy → Ensures (.calSensor t) s fun u =>
      u = { s with time := { s.time with now := u.time.now, acc := u.time.acc, cycles := u.time.cycles }, regs := u.regs, cal := { s.cal with run := u.cal.run }, lastEv := u.lastEv, ev := { s.ev with offers := u.ev.offers } } ∧
        RegsBut ([regAddr Pg.CALIB Reg.CALIB_STATUS_BUSY.off] ++ noted Pg.CALIB) s u) ∧
  (∀ (t : Nat) (target : Fin 32) (s : State), s.Tidy → Ensures (.calLane t target) s fun u =>
      u = { s with time := { s.time with now := u.time.now, acc := u.time.acc, cycles := u.time.cycles }, regs := u.regs, cal := { s.cal with run := u.cal.run }, lastEv := u.lastEv, ev := { s.ev with offers := u.ev.offers } } ∧
        RegsBut ([regAddr Pg.CALIB Reg.CALIB_STATUS_BUSY.off] ++ noted Pg.CALIB) s u) ∧
  (∀ (t : Nat) (s : State), s.Tidy → Ensures (.calSave t) s fun u =>
      u = { s with time := { s.time with now := u.time.now, acc := u.time.acc, cycles := u.time.cycles }, regs := u.regs, cal := { s.cal with run := u.cal.run }, lastEv := u.lastEv, ev := { s.ev with offers := u.ev.offers } } ∧
        RegsBut ([regAddr Pg.CALIB Reg.CALIB_STATUS_BUSY.off] ++ noted Pg.CALIB) s u) ∧
  (∀ (t : Nat) (cells : Vector (Vector (Option (BitVec 16)) 24) 32) (segP : Vector (Option Word) 16) (segN : Vector (Option Word) 16) (ok : Bool) (s : State), s.Tidy →
    Ensures (.calDone t cells segP segN ok) s fun u =>
      u = { s with time := { s.time with now := u.time.now, acc := u.time.acc, cycles := u.time.cycles }, regs := u.regs, cal := u.cal, rcd := { s.rcd with nv := u.rcd.nv }, lastEv := u.lastEv, ev := { s.ev with offers := u.ev.offers } } ∧
        RegsBut ([regAddr Pg.CALIB Reg.CALIB_STATUS_BUSY.off, regAddr Pg.CALIB Reg.CALIB_DELAY_FAIL.off, regAddr Pg.CALIB Reg.CALIB_COUNT.off, regAddr Pg.CALIB Reg.CALIB_LAST_HOURS.off] ++ noted Pg.CALIB) s u ∧
        (∀ a : Nat, a < s.spareCopy ∨ s.spareCopy + 0x1000 ≤ a → u.nvByte a = s.nvByte a)) ∧
  (∀ (t : Nat) (sigs : Vector Word 20) (banks : List (Fin 20)) (rows : List (Fin 8192)) (s : State), s.Tidy →
    Ensures (.bistDone t sigs banks rows) s fun u =>
      u = { s with time := { s.time with now := u.time.now, acc := u.time.acc, cycles := u.time.cycles }, regs := u.regs, bist := u.bist, lastEv := u.lastEv, ev := { s.ev with offers := u.ev.offers } } ∧
        RegsBut ([regAddr Pg.BIST Reg.BIST_STATUS_BUSY.off, regAddr Pg.BIST Reg.BIST_FAIL_MASK.off, regAddr Pg.BIST Reg.BIST_ELAPSED.off, regAddr Pg.BIST Reg.BIST_RUNS_PASSES.off, regAddr Pg.BIST Reg.BIST_SIG.off, regAddr Pg.BIST Reg.BIST_EXPECTED.off, regAddr Pg.BIST Reg.BIST_RUNS_FAILS.off] ++ noted Pg.BIST ++ (List.range 16).map (fun k => regAddr Pg.BANKS (0x80 + 4 * k)) ++ noted Pg.BANKS) s u) ∧
  (∀ (t : Nat) (s : State), s.Tidy → Ensures (.hoursTick t) s fun u =>
      u = { s with time := { s.time with now := u.time.now, acc := u.time.acc, cycles := u.time.cycles }, regs := u.regs, rcd := { s.rcd with hoursAt := u.rcd.hoursAt } } ∧
        RegsBut [regAddr Pg.RECORD Reg.RECORD_HOURS.off] s u) ∧
  (∀ (t : Nat) (s : State), s.Tidy → Ensures (.eraseAhead t) s fun u =>
      u = { s with time := { s.time with now := u.time.now, acc := u.time.acc, cycles := u.time.cycles }, rcd := { s.rcd with erasing := u.rcd.erasing, markErase := u.rcd.markErase } }) ∧
  (∀ (t : Nat) (s : State), s.Tidy → Ensures (.clearAcc t) s fun u =>
      u = { s with time := { s.time with now := u.time.now, acc := u.time.acc, cycles := u.time.cycles }, regs := u.regs, mem := u.mem, memErr := u.memErr, lasers := u.lasers, lastEv := u.lastEv, ev := { s.ev with offers := u.ev.offers }, dip := { s.dip with declareDue := u.dip.declareDue }, rcd := { s.rcd with seen := u.rcd.seen, accHours := u.rcd.accHours } } ∧
        RegsBut errorRegs s u ∧ OnlyRecords s u)

/-- R90, R152, R292, R299 to R305, R365, R423: what each of these commands changes, in a state whose tables are in canonical form: the fields named,
the registers listed, and the time; nothing else. In memory it is the recorder's accumulators alone (R370, R371). An error that a stored word is
found in changes the errors held, the counts and the events of BANKS, the pair's declare-due flag (R318) and the offers to the collector. -/
def Obligations.FramesOfEmission : Prop :=
  (∀ (t : Nat) (mask : BitVec 16) (s : State), s.Tidy → Ensures (.knifeDisarm t mask) s fun u =>
      u = { s with time := { s.time with now := u.time.now, acc := u.time.acc, cycles := u.time.cycles }, regs := u.regs, knife := { s.knife with armAt := u.knife.armAt, permitted := u.knife.permitted }, lasers := u.lasers, mem := u.mem, memErr := u.memErr, lastEv := u.lastEv, ev := { s.ev with offers := u.ev.offers }, dip := { s.dip with declareDue := u.dip.declareDue } } ∧
        RegsBut (regAddr Pg.KNIFE Reg.KNIFE_ARM_STATE.off :: (errorRegs ++ pinRegs)) s u ∧ OnlyRecords s u) ∧
  (∀ (n : Nat) (s : State), s.Tidy → Ensures (.permitStart n) s fun u =>
      u = { s with time := { s.time with now := u.time.now, acc := u.time.acc, cycles := u.time.cycles }, regs := u.regs, knife := { s.knife with armAt := u.knife.armAt, permitted := u.knife.permitted }, lasers := u.lasers, mem := u.mem, memErr := u.memErr, lastEv := u.lastEv, ev := { s.ev with offers := u.ev.offers }, dip := { s.dip with declareDue := u.dip.declareDue } } ∧
        RegsBut (errorRegs ++ pinRegs) s u ∧ OnlyRecords s u) ∧
  (∀ (t : Nat) (mask : BitVec 16) (s : State), s.Tidy → Ensures (.knifeTest t mask) s fun u =>
      u = { s with time := { s.time with now := u.time.now, acc := u.time.acc, cycles := u.time.cycles }, regs := u.regs, knife := { u.knife with ilk := s.knife.ilk }, lasers := u.lasers, mem := u.mem, memErr := u.memErr, lastEv := u.lastEv, ev := { s.ev with offers := u.ev.offers }, dip := { s.dip with declareDue := u.dip.declareDue } } ∧
        RegsBut (tripRegs ++ noted Pg.KNIFE ++ errorRegs ++ pinRegs) s u ∧ OnlyRecords s u) ∧
  (∀ (t : Nat) (i : Fin 4) (a : Bool) (b : Bool) (s : State), s.Tidy → Ensures (.ilkDepart t i a b) s fun u =>
      u = { s with time := { s.time with now := u.time.now, acc := u.time.acc, cycles := u.time.cycles }, regs := u.regs, knife := { u.knife with ilk := s.knife.ilk.set i u.knife.ilk[i] }, lasers := u.lasers, mem := u.mem, memErr := u.memErr, lastEv := u.lastEv, ev := { s.ev with offers := u.ev.offers }, dip := { s.dip with declareDue := u.dip.declareDue }, rcd := { s.rcd with pending := u.rcd.pending, merged := u.rcd.merged } } ∧
        RegsBut (regAddr Pg.KNIFE Reg.KNIFE_ILK_OPENS.off :: tripRegs ++ noted Pg.KNIFE ++ triggerRegs ++ errorRegs ++ pinRegs) s u ∧
        OnlyRecords s u) ∧
  (∀ (t : Nat) (i : Fin 4) (s : State), s.Tidy → Ensures (.ilkReturn t i) s fun u =>
      u = { s with time := { s.time with now := u.time.now, acc := u.time.acc, cycles := u.time.cycles }, regs := u.regs, knife := { s.knife with ilk := s.knife.ilk.set i u.knife.ilk[i] }, lasers := u.lasers, mem := u.mem, memErr := u.memErr, lastEv := u.lastEv, ev := { s.ev with offers := u.ev.offers }, dip := { s.dip with declareDue := u.dip.declareDue } } ∧
        RegsBut (regAddr Pg.KNIFE Reg.KNIFE_ILK_STATUS_DISC_LATCHED.off :: (errorRegs ++ pinRegs)) s u ∧ OnlyRecords s u) ∧
  (∀ (t : Nat) (i : Fin 4) (s : State), s.Tidy → Ensures (.discTimeout t i) s fun u =>
      u = { s with time := { s.time with now := u.time.now, acc := u.time.acc, cycles := u.time.cycles }, regs := u.regs, knife := { u.knife with ilk := s.knife.ilk.set i u.knife.ilk[i] }, lasers := u.lasers, mem := u.mem, memErr := u.memErr, lastEv := u.lastEv, ev := { s.ev with offers := u.ev.offers }, dip := { s.dip with declareDue := u.dip.declareDue }, rcd := { s.rcd with pending := u.rcd.pending, merged := u.rcd.merged } } ∧
        RegsBut (regAddr Pg.KNIFE Reg.KNIFE_ILK_STATUS_DISC_LATCHED.off :: regAddr Pg.KNIFE Reg.KNIFE_DISCREPANCIES.off :: tripRegs ++ noted Pg.KNIFE ++ triggerRegs ++ errorRegs ++ pinRegs) s u ∧
        OnlyRecords s u) ∧
  (∀ (t : Nat) (tms : Bool) (tdi : Bool) (s : State), s.Tidy → Ensures (.tapClock t tms tdi) s fun u =>
      u = { s with time := { s.time with now := u.time.now, acc := u.time.acc, cycles := u.time.cycles }, regs := u.regs, tap := u.tap, freeCtr := u.freeCtr, pwr := { s.pwr with limitHeld := u.pwr.limitHeld }, lasers := u.lasers, mem := u.mem, memErr := u.memErr, lastEv := u.lastEv, ev := { s.ev with offers := u.ev.offers }, dip := { s.dip with declareDue := u.dip.declareDue } } ∧
        RegsBut (errorRegs ++ pinRegs) s u ∧ OnlyRecords s u) ∧
  (∀ (t : Nat) (s : State), s.Tidy → Ensures (.tapReset t) s fun u =>
      u = { s with time := { s.time with now := u.time.now, acc := u.time.acc, cycles := u.time.cycles }, regs := u.regs, tap := u.tap, pwr := { s.pwr with limitHeld := u.pwr.limitHeld }, lasers := u.lasers, mem := u.mem, memErr := u.memErr, lastEv := u.lastEv, ev := { s.ev with offers := u.ev.offers }, dip := { s.dip with declareDue := u.dip.declareDue } } ∧
        RegsBut (errorRegs ++ pinRegs) s u ∧ OnlyRecords s u) ∧
  (∀ (t : Nat) (l : Fin 20) (fill : List Bool) (delim : List Bool) (hdr : List Bool) (hcrc : List Bool) (payload : List Bool) (pcrc : List Bool) (s : State), s.Tidy →
    Ensures (.frameReceive t l fill delim hdr hcrc payload pcrc) s fun u =>
      u = { s with time := { s.time with now := u.time.now, acc := u.time.acc, cycles := u.time.cycles }, regs := u.regs, lanes := s.lanes.set l u.lanes[l], mem := u.mem, memErr := u.memErr, lastEv := u.lastEv, ev := { s.ev with offers := u.ev.offers }, dip := { s.dip with declareDue := u.dip.declareDue } } ∧
        RegsBut (noted (lanePage l.val) ++ errorRegs ++ ([Reg.LANE_STUFF_ERRORS.off, Reg.LANE_GAP_ERRORS.off, Reg.LANE_FRAME_DISCARDS.off] ++ (if l.val < 4 then [Reg.FRAME_TYPE_ERRORS.off, Reg.FRAME_SEQ_GAPS.off, Reg.FRAME_FRAME_STATUS_RX_SEQ.off] else [])).map (regAddr (lanePage l.val))) s u ∧
        OnlyRecords s u) ∧
  (∀ (t : Nat) (b : Fin 16) (s : State), s.Tidy → Ensures (.timedRecordStart t b) s fun u =>
      u = { s with time := { s.time with now := u.time.now, acc := u.time.acc, cycles := u.time.cycles }, regs := u.regs, brushes := s.brushes.set b u.brushes[b], rasters := s.rasters.set b u.rasters[b], mem := u.mem, memErr := u.memErr, lastEv := u.lastEv, ev := { s.ev with offers := u.ev.offers }, dip := { s.dip with declareDue := u.dip.declareDue } } ∧
        RegsBut ([regAddr (Pg.BRUSH b.val) Reg.BRUSH_STROKES.off] ++ [regAddr (Pg.RASTER b.val) Reg.RASTER_SWATCH_INCOMPLETE.off, regAddr (Pg.RASTER b.val) Reg.RASTER_TILE_STATUS_OPEN.off, regAddr (Pg.RASTER b.val) Reg.RASTER_LINE_STATUS_LINE.off] ++ noted (Pg.RASTER b.val) ++ errorRegs) s u ∧
        OnlyRecords s u) ∧
  (∀ (n : Nat) (half : Bool) (b : Fin 16) (s : State), s.Tidy → Ensures (.glazeCompute n half b) s fun u =>
      u = { s with time := { s.time with now := u.time.now, acc := u.time.acc, cycles := u.time.cycles }, regs := u.regs, glazes := s.glazes.set b u.glazes[b], lasers := s.lasers.set b { s.lasers[b] with words := u.lasers[b].words }, freeCtr := u.freeCtr, rcd := { s.rcd with seen := u.rcd.seen }, mem := u.mem, memErr := u.memErr, lastEv := u.lastEv, ev := { s.ev with offers := u.ev.offers }, dip := { s.dip with declareDue := u.dip.declareDue } } ∧
        RegsBut ([regAddr (Pg.GLAZE b.val) Reg.GLAZE_STATUS_CLASS.off, regAddr (Pg.GLAZE b.val) Reg.GLAZE_TRIM_UPDATES.off, regAddr (Pg.GLAZE b.val) Reg.GLAZE_TRIM_LIMITS.off, regAddr (Pg.GLAZE b.val) Reg.GLAZE_PD_MISSING.off, regAddr (Pg.GLAZE b.val) Reg.GLAZE_MET_STALE.off, regAddr (Pg.GLAZE b.val) Reg.GLAZE_FALLBACKS.off, regAddr (Pg.GLAZE b.val) Reg.GLAZE_FACTOR_CLAMPS.off, regAddr (Pg.GLAZE b.val) Reg.GLAZE_POWER_CLAMPS.off, regAddr (Pg.GLAZE b.val) Reg.GLAZE_LATCHES.off] ++ (List.range 16).map (fun c => regAddr (Pg.GLAZE b.val) (Reg.GLAZE_TRIM.num c).off) ++ noted (Pg.GLAZE b.val) ++ [regAddr Pg.MEDIUM Reg.MEDIUM_WINDOW_OUT.off] ++ noted Pg.MEDIUM ++ errorRegs) s u ∧
        OnlyRecords s u) ∧
  (∀ (n : Nat) (s : State), s.Tidy → Ensures (.graceExpiry n) s fun u =>
      u = { s with time := { s.time with now := u.time.now, acc := u.time.acc, cycles := u.time.cycles }, regs := u.regs, therm := { s.therm with graceFrom := u.therm.graceFrom, enforcedAt := u.therm.enforcedAt }, mem := u.mem, memErr := u.memErr, lastEv := u.lastEv, ev := { s.ev with offers := u.ev.offers }, dip := { s.dip with declareDue := u.dip.declareDue } } ∧
        RegsBut ([regAddr Pg.THERM Reg.THERM_STATUS_WARN.off, regAddr Pg.THERM Reg.THERM_ENFORCEMENTS.off] ++ noted Pg.THERM ++ [regAddr Pg.VISION Reg.VISION_STATUS_THROTTLE.off, regAddr Pg.BANKS Reg.BANKS_BG_STATUS_PAUSED.off] ++ noted Pg.VISION ++ errorRegs) s u ∧
        OnlyRecords s u)
end

