-- ==== Sys2Proof/Laws/Tables.lean ====
section
/-! SUPPORT. Tables in canonical form: what a table reads after each operation, and that every operation ends in the canonical form. -/

namespace Sys2Proof.Laws

open Sys2Proof.Machine

variable {α : Type} {d : Nat → α}

@[simp] theorem tabGet_nil (k : Nat) : tabGet d [] k = d k := rfl

theorem tabGet_cons (e : Nat × α) (l : List (Nat × α)) (k : Nat) :
    tabGet d (e :: l) k = if e.1 = k then e.2 else tabGet d l k := rfl

/-- Reading after an entry is put in its place. -/
theorem tabGet_tabIns (l : List (Nat × α)) (k j : Nat) (v : α) :
    tabGet d (tabIns k v l) j = if j = k then v else tabGet d l j := by
  induction l with
  | nil => simp [tabIns, tabGet, eq_comm]
  | cons e r ih =>
    unfold tabIns
    split
    · simp only [tabGet_cons, eq_comm]
    · split
      · subst k
        by_cases h : j = e.1
        · simp [tabGet_cons, h]
        · have h' : ¬ e.1 = j := fun q => h q.symm
          simp [tabGet_cons, h, h']
      · rename_i h
        by_cases hj : e.1 = j
        · have : ¬ j = k := fun q => h (by omega)
          simp [tabGet_cons, hj, this]
        · simp only [tabGet_cons, hj, if_false, ih]

/-- Reading after an entry is removed. -/
theorem tabGet_tabDel (l : List (Nat × α)) (k j : Nat) :
    tabGet d (tabDel k l) j = if j = k then d k else tabGet d l j := by
  induction l with
  | nil => by_cases h : j = k <;> simp [tabDel, h]
  | cons e r ih =>
    unfold tabDel at ih ⊢
    by_cases h : e.1 = k
    · rw [List.filter_cons_of_neg (by simp [h]), ih]
      by_cases hj : j = k
      · simp [hj]
      · have : ¬ e.1 = j := fun q => hj (by omega)
        simp [tabGet_cons, hj, this]
    · rw [List.filter_cons_of_pos (by simp [h]), tabGet_cons, ih, tabGet_cons]
      by_cases hj : j = k
      · subst j; simp [h]
      · simp [hj]

/-- A table reads what was written, and everything else as before. -/
theorem tabGet_tabSet [DecidableEq α] (l : List (Nat × α)) (k j : Nat) (v : α) :
    tabGet d (tabSet d l k v) j = if j = k then v else tabGet d l j := by
  unfold tabSet
  split
  · rename_i h
    rw [tabGet_tabDel, h]
  · rw [tabGet_tabIns, tabGet_tabDel]
    by_cases h : j = k <;> simp [h]

@[simp] theorem tabGet_tabSet_same [DecidableEq α] (l : List (Nat × α)) (k : Nat) (v : α) : tabGet d (tabSet d l k v) k = v := by
  rw [tabGet_tabSet]; simp

/-- The canonical form reads as the table it was made from. -/
@[simp] theorem tabGet_tabNorm [DecidableEq α] (l : List (Nat × α)) (k : Nat) : tabGet d (tabNorm d l) k = tabGet d l k := by
  induction l with
  | nil => rfl
  | cons e r ih =>
    show tabGet d (tabSet d (tabNorm d r) e.1 e.2) k = _
    rw [tabGet_tabSet, ih, tabGet_cons]
    by_cases h : k = e.1
    · simp [h]
    · have : ¬ e.1 = k := fun q => h q.symm
      simp [h, this]

theorem tabDel_wf {l : List (Nat × α)} (k : Nat) (h : TabWf d l) : TabWf d (tabDel k l) :=
  ⟨h.1.sublist List.filter_sublist, fun e he => h.2 e ((List.mem_filter.mp he).1)⟩

theorem mem_tabIns {l : List (Nat × α)} {k : Nat} {v : α} {e : Nat × α} (h : e ∈ tabIns k v l) : e = (k, v) ∨ e ∈ l := by
  induction l with
  | nil => simpa [tabIns] using h
  | cons x r ih =>
    unfold tabIns at h
    split at h
    · rcases List.mem_cons.mp h with h | h
      · exact .inl h
      · exact .inr h
    · split at h
      · rcases List.mem_cons.mp h with h | h
        · exact .inl h
        · exact .inr (List.mem_cons_of_mem _ h)
      · rcases List.mem_cons.mp h with h | h
        · exact .inr (h ▸ List.mem_cons_self)
        · exact (ih h).imp id (List.mem_cons_of_mem _)

theorem tabIns_wf {l : List (Nat × α)} {k : Nat} {v : α} (h : TabWf d l) (hv : v ≠ d k) : TabWf d (tabIns k v l) := by
  refine ⟨?_, fun e he => ?_⟩
  · have hp := h.1
    clear h hv
    induction l with
    | nil => simp [tabIns]
    | cons x r ih =>
      have hx := List.pairwise_cons.mp hp
      unfold tabIns
      split
      · rename_i hk
        refine List.pairwise_cons.mpr ⟨fun e he => ?_, hp⟩
        rcases List.mem_cons.mp he with he | he
        · subst he; exact hk
        · exact Nat.lt_trans hk (hx.1 e he)
      · split
        · rename_i hk
          subst hk
          exact List.pairwise_cons.mpr ⟨fun e he => hx.1 e he, hx.2⟩
        · refine List.pairwise_cons.mpr ⟨fun e he => ?_, ih hx.2⟩
          rcases mem_tabIns he with he | he
          · subst he; show x.1 < k; omega
          · exact hx.1 e he
  · rcases mem_tabIns he with he | he
    · subst he; exact hv
    · exact h.2 e he

/-- Every write of a table keeps the canonical form. -/
theorem tabSet_wf [DecidableEq α] {l : List (Nat × α)} (k : Nat) (v : α) (h : TabWf d l) : TabWf d (tabSet d l k v) := by
  unfold tabSet
  split
  · exact tabDel_wf k h
  · rename_i hv; exact tabIns_wf (tabDel_wf k h) hv

/-- What is written back entry by entry is in canonical form, whatever it was. -/
theorem tabNorm_wf [DecidableEq α] (l : List (Nat × α)) : TabWf d (tabNorm d l) := by
  induction l with
  | nil => exact ⟨List.Pairwise.nil, by simp [tabNorm]⟩
  | cons e r ih => exact tabSet_wf e.1 e.2 ih

/-- A table in canonical form is written back as it is. -/
theorem tabNorm_eq [DecidableEq α] {l : List (Nat × α)} (h : TabWf d l) : tabNorm d l = l := by
  induction l with
  | nil => rfl
  | cons e r ih =>
    obtain ⟨hp, hn⟩ := h
    obtain ⟨he, hr⟩ := List.pairwise_cons.mp hp
    have ih := ih ⟨hr, fun x hx => hn x (List.mem_cons_of_mem _ hx)⟩
    show tabSet d (tabNorm d r) e.1 e.2 = e :: r
    rw [ih, tabSet, if_neg (hn e List.mem_cons_self)]
    have hd : tabDel e.1 r = r := List.filter_eq_self.mpr fun x hx => by have := he x hx; simp; omega
    rw [hd]
    cases r with
    | nil => rfl
    | cons x q => rw [tabIns, if_pos (he x List.mem_cons_self)]

theorem tabDrop_wf {l : List (Nat × α)} (lo hi : Nat) (h : TabWf d l) : TabWf d (tabDrop lo hi l) :=
  ⟨h.1.sublist List.filter_sublist, fun e he => h.2 e ((List.mem_filter.mp he).1)⟩

/-- A stored byte keeps the memory's canonical form. -/
theorem setByte_wf {s : State} (a : Nat) (v : Byte) (h : Memory.wf s.mem) : Memory.wf (s.setByte a v).mem := tabSet_wf a v h

/-- A stored block keeps the memory's canonical form. -/
theorem setBytes_wf (l : List Byte) : ∀ {s : State} (a : Nat), Memory.wf s.mem → Memory.wf (s.setBytes a l).mem := by
  induction l with
  | nil => intro s a h; exact h
  | cons b r ih => intro s a h; exact ih (a + 1) (setByte_wf a b h)

end Sys2Proof.Laws
end

