-- ==== Sys2Proof/Laws/State.lean ====
section
/-! SUPPORT. One lemma for each field of State under each named update: what it becomes, or that it stays. -/

namespace Sys2Proof.Laws

open Sys2Proof.Machine

variable (s : State)

/-! `setWord` -/
@[simp] theorem setWord_pending (a : Nat) (v : Word) : (s.setWord a v).pending = s.pending := rfl
@[simp] theorem setWord_regs (a : Nat) (v : Word) : (s.setWord a v).regs = tabSet resetWord s.regs a v := rfl
@[simp] theorem setWord_active (a : Nat) (v : Word) : (s.setWord a v).active = s.active := rfl
@[simp] theorem setWord_snap (a : Nat) (v : Word) : (s.setWord a v).snap = s.snap := rfl
@[simp] theorem setWord_mem (a : Nat) (v : Word) : (s.setWord a v).mem = s.mem := rfl
@[simp] theorem setWord_memErr (a : Nat) (v : Word) : (s.setWord a v).memErr = s.memErr := rfl
@[simp] theorem setWord_commitAt (a : Nat) (v : Word) : (s.setWord a v).commitAt = s.commitAt := rfl
@[simp] theorem setWord_shadowWas (a : Nat) (v : Word) : (s.setWord a v).shadowWas = s.shadowWas := rfl
@[simp] theorem setWord_enteredAt (a : Nat) (v : Word) : (s.setWord a v).enteredAt = s.enteredAt := rfl
@[simp] theorem setWord_lastEv (a : Nat) (v : Word) : (s.setWord a v).lastEv = s.lastEv := rfl
@[simp] theorem setWord_freeCtr (a : Nat) (v : Word) : (s.setWord a v).freeCtr = s.freeCtr := rfl
@[simp] theorem setWord_lanes (a : Nat) (v : Word) : (s.setWord a v).lanes = s.lanes := rfl
@[simp] theorem setWord_heads (a : Nat) (v : Word) : (s.setWord a v).heads = s.heads := rfl
@[simp] theorem setWord_time (a : Nat) (v : Word) : (s.setWord a v).time = s.time := rfl
@[simp] theorem setWord_clk (a : Nat) (v : Word) : (s.setWord a v).clk = s.clk := rfl
@[simp] theorem setWord_pwr (a : Nat) (v : Word) : (s.setWord a v).pwr = s.pwr := rfl
@[simp] theorem setWord_ev (a : Nat) (v : Word) : (s.setWord a v).ev = s.ev := rfl
@[simp] theorem setWord_knife (a : Nat) (v : Word) : (s.setWord a v).knife = s.knife := rfl
@[simp] theorem setWord_dip (a : Nat) (v : Word) : (s.setWord a v).dip = s.dip := rfl
@[simp] theorem setWord_rcd (a : Nat) (v : Word) : (s.setWord a v).rcd = s.rcd := rfl
@[simp] theorem setWord_brushes (a : Nat) (v : Word) : (s.setWord a v).brushes = s.brushes := rfl
@[simp] theorem setWord_lasers (a : Nat) (v : Word) : (s.setWord a v).lasers = s.lasers := rfl
@[simp] theorem setWord_encs (a : Nat) (v : Word) : (s.setWord a v).encs = s.encs := rfl
@[simp] theorem setWord_medium (a : Nat) (v : Word) : (s.setWord a v).medium = s.medium := rfl
@[simp] theorem setWord_cal (a : Nat) (v : Word) : (s.setWord a v).cal = s.cal := rfl
@[simp] theorem setWord_bist (a : Nat) (v : Word) : (s.setWord a v).bist = s.bist := rfl
@[simp] theorem setWord_therm (a : Nat) (v : Word) : (s.setWord a v).therm = s.therm := rfl
@[simp] theorem setWord_rasters (a : Nat) (v : Word) : (s.setWord a v).rasters = s.rasters := rfl
@[simp] theorem setWord_glazes (a : Nat) (v : Word) : (s.setWord a v).glazes = s.glazes := rfl
@[simp] theorem setWord_axes (a : Nat) (v : Word) : (s.setWord a v).axes = s.axes := rfl
@[simp] theorem setWord_engines (a : Nat) (v : Word) : (s.setWord a v).engines = s.engines := rfl
@[simp] theorem setWord_steppers (a : Nat) (v : Word) : (s.setWord a v).steppers = s.steppers := rfl
@[simp] theorem setWord_cams (a : Nat) (v : Word) : (s.setWord a v).cams = s.cams := rfl
@[simp] theorem setWord_camPorts (a : Nat) (v : Word) : (s.setWord a v).camPorts = s.camPorts := rfl
@[simp] theorem setWord_streams (a : Nat) (v : Word) : (s.setWord a v).streams = s.streams := rfl
@[simp] theorem setWord_trigs (a : Nat) (v : Word) : (s.setWord a v).trigs = s.trigs := rfl
@[simp] theorem setWord_vision (a : Nat) (v : Word) : (s.setWord a v).vision = s.vision := rfl
@[simp] theorem setWord_lights (a : Nat) (v : Word) : (s.setWord a v).lights = s.lights := rfl
@[simp] theorem setWord_bankTest (a : Nat) (v : Word) : (s.setWord a v).bankTest = s.bankTest := rfl
@[simp] theorem setWord_xch (a : Nat) (v : Word) : (s.setWord a v).xch = s.xch := rfl
@[simp] theorem setWord_drams (a : Nat) (v : Word) : (s.setWord a v).drams = s.drams := rfl
@[simp] theorem setWord_training (a : Nat) (v : Word) : (s.setWord a v).training = s.training := rfl
@[simp] theorem setWord_retrain (a : Nat) (v : Word) : (s.setWord a v).retrain = s.retrain := rfl
@[simp] theorem setWord_sweeps (a : Nat) (v : Word) : (s.setWord a v).sweeps = s.sweeps := rfl
@[simp] theorem setWord_dramCycle (a : Nat) (v : Word) : (s.setWord a v).dramCycle = s.dramCycle := rfl
@[simp] theorem setWord_hostCycle (a : Nat) (v : Word) : (s.setWord a v).hostCycle = s.hostCycle := rfl
@[simp] theorem setWord_tap (a : Nat) (v : Word) : (s.setWord a v).tap = s.tap := rfl

/-! `setActWord` -/
@[simp] theorem setActWord_pending (a : Nat) (v : Word) : (s.setActWord a v).pending = s.pending := rfl
@[simp] theorem setActWord_regs (a : Nat) (v : Word) : (s.setActWord a v).regs = s.regs := rfl
@[simp] theorem setActWord_active (a : Nat) (v : Word) : (s.setActWord a v).active = tabSet resetWord s.active a v := rfl
@[simp] theorem setActWord_snap (a : Nat) (v : Word) : (s.setActWord a v).snap = s.snap := rfl
@[simp] theorem setActWord_mem (a : Nat) (v : Word) : (s.setActWord a v).mem = s.mem := rfl
@[simp] theorem setActWord_memErr (a : Nat) (v : Word) : (s.setActWord a v).memErr = s.memErr := rfl
@[simp] theorem setActWord_commitAt (a : Nat) (v : Word) : (s.setActWord a v).commitAt = s.commitAt := rfl
@[simp] theorem setActWord_shadowWas (a : Nat) (v : Word) : (s.setActWord a v).shadowWas = s.shadowWas := rfl
@[simp] theorem setActWord_enteredAt (a : Nat) (v : Word) : (s.setActWord a v).enteredAt = s.enteredAt := rfl
@[simp] theorem setActWord_lastEv (a : Nat) (v : Word) : (s.setActWord a v).lastEv = s.lastEv := rfl
@[simp] theorem setActWord_freeCtr (a : Nat) (v : Word) : (s.setActWord a v).freeCtr = s.freeCtr := rfl
@[simp] theorem setActWord_lanes (a : Nat) (v : Word) : (s.setActWord a v).lanes = s.lanes := rfl
@[simp] theorem setActWord_heads (a : Nat) (v : Word) : (s.setActWord a v).heads = s.heads := rfl
@[simp] theorem setActWord_time (a : Nat) (v : Word) : (s.setActWord a v).time = s.time := rfl
@[simp] theorem setActWord_clk (a : Nat) (v : Word) : (s.setActWord a v).clk = s.clk := rfl
@[simp] theorem setActWord_pwr (a : Nat) (v : Word) : (s.setActWord a v).pwr = s.pwr := rfl
@[simp] theorem setActWord_ev (a : Nat) (v : Word) : (s.setActWord a v).ev = s.ev := rfl
@[simp] theorem setActWord_knife (a : Nat) (v : Word) : (s.setActWord a v).knife = s.knife := rfl
@[simp] theorem setActWord_dip (a : Nat) (v : Word) : (s.setActWord a v).dip = s.dip := rfl
@[simp] theorem setActWord_rcd (a : Nat) (v : Word) : (s.setActWord a v).rcd = s.rcd := rfl
@[simp] theorem setActWord_brushes (a : Nat) (v : Word) : (s.setActWord a v).brushes = s.brushes := rfl
@[simp] theorem setActWord_lasers (a : Nat) (v : Word) : (s.setActWord a v).lasers = s.lasers := rfl
@[simp] theorem setActWord_encs (a : Nat) (v : Word) : (s.setActWord a v).encs = s.encs := rfl
@[simp] theorem setActWord_medium (a : Nat) (v : Word) : (s.setActWord a v).medium = s.medium := rfl
@[simp] theorem setActWord_cal (a : Nat) (v : Word) : (s.setActWord a v).cal = s.cal := rfl
@[simp] theorem setActWord_bist (a : Nat) (v : Word) : (s.setActWord a v).bist = s.bist := rfl
@[simp] theorem setActWord_therm (a : Nat) (v : Word) : (s.setActWord a v).therm = s.therm := rfl
@[simp] theorem setActWord_rasters (a : Nat) (v : Word) : (s.setActWord a v).rasters = s.rasters := rfl
@[simp] theorem setActWord_glazes (a : Nat) (v : Word) : (s.setActWord a v).glazes = s.glazes := rfl
@[simp] theorem setActWord_axes (a : Nat) (v : Word) : (s.setActWord a v).axes = s.axes := rfl
@[simp] theorem setActWord_engines (a : Nat) (v : Word) : (s.setActWord a v).engines = s.engines := rfl
@[simp] theorem setActWord_steppers (a : Nat) (v : Word) : (s.setActWord a v).steppers = s.steppers := rfl
@[simp] theorem setActWord_cams (a : Nat) (v : Word) : (s.setActWord a v).cams = s.cams := rfl
@[simp] theorem setActWord_camPorts (a : Nat) (v : Word) : (s.setActWord a v).camPorts = s.camPorts := rfl
@[simp] theorem setActWord_streams (a : Nat) (v : Word) : (s.setActWord a v).streams = s.streams := rfl
@[simp] theorem setActWord_trigs (a : Nat) (v : Word) : (s.setActWord a v).trigs = s.trigs := rfl
@[simp] theorem setActWord_vision (a : Nat) (v : Word) : (s.setActWord a v).vision = s.vision := rfl
@[simp] theorem setActWord_lights (a : Nat) (v : Word) : (s.setActWord a v).lights = s.lights := rfl
@[simp] theorem setActWord_bankTest (a : Nat) (v : Word) : (s.setActWord a v).bankTest = s.bankTest := rfl
@[simp] theorem setActWord_xch (a : Nat) (v : Word) : (s.setActWord a v).xch = s.xch := rfl
@[simp] theorem setActWord_drams (a : Nat) (v : Word) : (s.setActWord a v).drams = s.drams := rfl
@[simp] theorem setActWord_training (a : Nat) (v : Word) : (s.setActWord a v).training = s.training := rfl
@[simp] theorem setActWord_retrain (a : Nat) (v : Word) : (s.setActWord a v).retrain = s.retrain := rfl
@[simp] theorem setActWord_sweeps (a : Nat) (v : Word) : (s.setActWord a v).sweeps = s.sweeps := rfl
@[simp] theorem setActWord_dramCycle (a : Nat) (v : Word) : (s.setActWord a v).dramCycle = s.dramCycle := rfl
@[simp] theorem setActWord_hostCycle (a : Nat) (v : Word) : (s.setActWord a v).hostCycle = s.hostCycle := rfl
@[simp] theorem setActWord_tap (a : Nat) (v : Word) : (s.setActWord a v).tap = s.tap := rfl

/-! `setSnapWord` -/
@[simp] theorem setSnapWord_pending (a : Nat) (v : Word) : (s.setSnapWord a v).pending = s.pending := rfl
@[simp] theorem setSnapWord_regs (a : Nat) (v : Word) : (s.setSnapWord a v).regs = s.regs := rfl
@[simp] theorem setSnapWord_active (a : Nat) (v : Word) : (s.setSnapWord a v).active = s.active := rfl
@[simp] theorem setSnapWord_snap (a : Nat) (v : Word) : (s.setSnapWord a v).snap = tabSet zeroWord s.snap a v := rfl
@[simp] theorem setSnapWord_mem (a : Nat) (v : Word) : (s.setSnapWord a v).mem = s.mem := rfl
@[simp] theorem setSnapWord_memErr (a : Nat) (v : Word) : (s.setSnapWord a v).memErr = s.memErr := rfl
@[simp] theorem setSnapWord_commitAt (a : Nat) (v : Word) : (s.setSnapWord a v).commitAt = s.commitAt := rfl
@[simp] theorem setSnapWord_shadowWas (a : Nat) (v : Word) : (s.setSnapWord a v).shadowWas = s.shadowWas := rfl
@[simp] theorem setSnapWord_enteredAt (a : Nat) (v : Word) : (s.setSnapWord a v).enteredAt = s.enteredAt := rfl
@[simp] theorem setSnapWord_lastEv (a : Nat) (v : Word) : (s.setSnapWord a v).lastEv = s.lastEv := rfl
@[simp] theorem setSnapWord_freeCtr (a : Nat) (v : Word) : (s.setSnapWord a v).freeCtr = s.freeCtr := rfl
@[simp] theorem setSnapWord_lanes (a : Nat) (v : Word) : (s.setSnapWord a v).lanes = s.lanes := rfl
@[simp] theorem setSnapWord_heads (a : Nat) (v : Word) : (s.setSnapWord a v).heads = s.heads := rfl
@[simp] theorem setSnapWord_time (a : Nat) (v : Word) : (s.setSnapWord a v).time = s.time := rfl
@[simp] theorem setSnapWord_clk (a : Nat) (v : Word) : (s.setSnapWord a v).clk = s.clk := rfl
@[simp] theorem setSnapWord_pwr (a : Nat) (v : Word) : (s.setSnapWord a v).pwr = s.pwr := rfl
@[simp] theorem setSnapWord_ev (a : Nat) (v : Word) : (s.setSnapWord a v).ev = s.ev := rfl
@[simp] theorem setSnapWord_knife (a : Nat) (v : Word) : (s.setSnapWord a v).knife = s.knife := rfl
@[simp] theorem setSnapWord_dip (a : Nat) (v : Word) : (s.setSnapWord a v).dip = s.dip := rfl
@[simp] theorem setSnapWord_rcd (a : Nat) (v : Word) : (s.setSnapWord a v).rcd = s.rcd := rfl
@[simp] theorem setSnapWord_brushes (a : Nat) (v : Word) : (s.setSnapWord a v).brushes = s.brushes := rfl
@[simp] theorem setSnapWord_lasers (a : Nat) (v : Word) : (s.setSnapWord a v).lasers = s.lasers := rfl
@[simp] theorem setSnapWord_encs (a : Nat) (v : Word) : (s.setSnapWord a v).encs = s.encs := rfl
@[simp] theorem setSnapWord_medium (a : Nat) (v : Word) : (s.setSnapWord a v).medium = s.medium := rfl
@[simp] theorem setSnapWord_cal (a : Nat) (v : Word) : (s.setSnapWord a v).cal = s.cal := rfl
@[simp] theorem setSnapWord_bist (a : Nat) (v : Word) : (s.setSnapWord a v).bist = s.bist := rfl
@[simp] theorem setSnapWord_therm (a : Nat) (v : Word) : (s.setSnapWord a v).therm = s.therm := rfl
@[simp] theorem setSnapWord_rasters (a : Nat) (v : Word) : (s.setSnapWord a v).rasters = s.rasters := rfl
@[simp] theorem setSnapWord_glazes (a : Nat) (v : Word) : (s.setSnapWord a v).glazes = s.glazes := rfl
@[simp] theorem setSnapWord_axes (a : Nat) (v : Word) : (s.setSnapWord a v).axes = s.axes := rfl
@[simp] theorem setSnapWord_engines (a : Nat) (v : Word) : (s.setSnapWord a v).engines = s.engines := rfl
@[simp] theorem setSnapWord_steppers (a : Nat) (v : Word) : (s.setSnapWord a v).steppers = s.steppers := rfl
@[simp] theorem setSnapWord_cams (a : Nat) (v : Word) : (s.setSnapWord a v).cams = s.cams := rfl
@[simp] theorem setSnapWord_camPorts (a : Nat) (v : Word) : (s.setSnapWord a v).camPorts = s.camPorts := rfl
@[simp] theorem setSnapWord_streams (a : Nat) (v : Word) : (s.setSnapWord a v).streams = s.streams := rfl
@[simp] theorem setSnapWord_trigs (a : Nat) (v : Word) : (s.setSnapWord a v).trigs = s.trigs := rfl
@[simp] theorem setSnapWord_vision (a : Nat) (v : Word) : (s.setSnapWord a v).vision = s.vision := rfl
@[simp] theorem setSnapWord_lights (a : Nat) (v : Word) : (s.setSnapWord a v).lights = s.lights := rfl
@[simp] theorem setSnapWord_bankTest (a : Nat) (v : Word) : (s.setSnapWord a v).bankTest = s.bankTest := rfl
@[simp] theorem setSnapWord_xch (a : Nat) (v : Word) : (s.setSnapWord a v).xch = s.xch := rfl
@[simp] theorem setSnapWord_drams (a : Nat) (v : Word) : (s.setSnapWord a v).drams = s.drams := rfl
@[simp] theorem setSnapWord_training (a : Nat) (v : Word) : (s.setSnapWord a v).training = s.training := rfl
@[simp] theorem setSnapWord_retrain (a : Nat) (v : Word) : (s.setSnapWord a v).retrain = s.retrain := rfl
@[simp] theorem setSnapWord_sweeps (a : Nat) (v : Word) : (s.setSnapWord a v).sweeps = s.sweeps := rfl
@[simp] theorem setSnapWord_dramCycle (a : Nat) (v : Word) : (s.setSnapWord a v).dramCycle = s.dramCycle := rfl
@[simp] theorem setSnapWord_hostCycle (a : Nat) (v : Word) : (s.setSnapWord a v).hostCycle = s.hostCycle := rfl
@[simp] theorem setSnapWord_tap (a : Nat) (v : Word) : (s.setSnapWord a v).tap = s.tap := rfl

/-! `setF` -/
@[simp] theorem setF_pending (p : Nat) (fl : Fld) (v : Nat) : (s.setF p fl v).pending = s.pending := rfl
@[simp] theorem setF_active (p : Nat) (fl : Fld) (v : Nat) : (s.setF p fl v).active = s.active := rfl
@[simp] theorem setF_snap (p : Nat) (fl : Fld) (v : Nat) : (s.setF p fl v).snap = s.snap := rfl
@[simp] theorem setF_mem (p : Nat) (fl : Fld) (v : Nat) : (s.setF p fl v).mem = s.mem := rfl
@[simp] theorem setF_memErr (p : Nat) (fl : Fld) (v : Nat) : (s.setF p fl v).memErr = s.memErr := rfl
@[simp] theorem setF_commitAt (p : Nat) (fl : Fld) (v : Nat) : (s.setF p fl v).commitAt = s.commitAt := rfl
@[simp] theorem setF_shadowWas (p : Nat) (fl : Fld) (v : Nat) : (s.setF p fl v).shadowWas = s.shadowWas := rfl
@[simp] theorem setF_enteredAt (p : Nat) (fl : Fld) (v : Nat) : (s.setF p fl v).enteredAt = s.enteredAt := rfl
@[simp] theorem setF_lastEv (p : Nat) (fl : Fld) (v : Nat) : (s.setF p fl v).lastEv = s.lastEv := rfl
@[simp] theorem setF_freeCtr (p : Nat) (fl : Fld) (v : Nat) : (s.setF p fl v).freeCtr = s.freeCtr := rfl
@[simp] theorem setF_lanes (p : Nat) (fl : Fld) (v : Nat) : (s.setF p fl v).lanes = s.lanes := rfl
@[simp] theorem setF_heads (p : Nat) (fl : Fld) (v : Nat) : (s.setF p fl v).heads = s.heads := rfl
@[simp] theorem setF_time (p : Nat) (fl : Fld) (v : Nat) : (s.setF p fl v).time = s.time := rfl
@[simp] theorem setF_clk (p : Nat) (fl : Fld) (v : Nat) : (s.setF p fl v).clk = s.clk := rfl
@[simp] theorem setF_pwr (p : Nat) (fl : Fld) (v : Nat) : (s.setF p fl v).pwr = s.pwr := rfl
@[simp] theorem setF_ev (p : Nat) (fl : Fld) (v : Nat) : (s.setF p fl v).ev = s.ev := rfl
@[simp] theorem setF_knife (p : Nat) (fl : Fld) (v : Nat) : (s.setF p fl v).knife = s.knife := rfl
@[simp] theorem setF_dip (p : Nat) (fl : Fld) (v : Nat) : (s.setF p fl v).dip = s.dip := rfl
@[simp] theorem setF_rcd (p : Nat) (fl : Fld) (v : Nat) : (s.setF p fl v).rcd = s.rcd := rfl
@[simp] theorem setF_brushes (p : Nat) (fl : Fld) (v : Nat) : (s.setF p fl v).brushes = s.brushes := rfl
@[simp] theorem setF_lasers (p : Nat) (fl : Fld) (v : Nat) : (s.setF p fl v).lasers = s.lasers := rfl
@[simp] theorem setF_encs (p : Nat) (fl : Fld) (v : Nat) : (s.setF p fl v).encs = s.encs := rfl
@[simp] theorem setF_medium (p : Nat) (fl : Fld) (v : Nat) : (s.setF p fl v).medium = s.medium := rfl
@[simp] theorem setF_cal (p : Nat) (fl : Fld) (v : Nat) : (s.setF p fl v).cal = s.cal := rfl
@[simp] theorem setF_bist (p : Nat) (fl : Fld) (v : Nat) : (s.setF p fl v).bist = s.bist := rfl
@[simp] theorem setF_therm (p : Nat) (fl : Fld) (v : Nat) : (s.setF p fl v).therm = s.therm := rfl
@[simp] theorem setF_rasters (p : Nat) (fl : Fld) (v : Nat) : (s.setF p fl v).rasters = s.rasters := rfl
@[simp] theorem setF_glazes (p : Nat) (fl : Fld) (v : Nat) : (s.setF p fl v).glazes = s.glazes := rfl
@[simp] theorem setF_axes (p : Nat) (fl : Fld) (v : Nat) : (s.setF p fl v).axes = s.axes := rfl
@[simp] theorem setF_engines (p : Nat) (fl : Fld) (v : Nat) : (s.setF p fl v).engines = s.engines := rfl
@[simp] theorem setF_steppers (p : Nat) (fl : Fld) (v : Nat) : (s.setF p fl v).steppers = s.steppers := rfl
@[simp] theorem setF_cams (p : Nat) (fl : Fld) (v : Nat) : (s.setF p fl v).cams = s.cams := rfl
@[simp] theorem setF_camPorts (p : Nat) (fl : Fld) (v : Nat) : (s.setF p fl v).camPorts = s.camPorts := rfl
@[simp] theorem setF_streams (p : Nat) (fl : Fld) (v : Nat) : (s.setF p fl v).streams = s.streams := rfl
@[simp] theorem setF_trigs (p : Nat) (fl : Fld) (v : Nat) : (s.setF p fl v).trigs = s.trigs := rfl
@[simp] theorem setF_vision (p : Nat) (fl : Fld) (v : Nat) : (s.setF p fl v).vision = s.vision := rfl
@[simp] theorem setF_lights (p : Nat) (fl : Fld) (v : Nat) : (s.setF p fl v).lights = s.lights := rfl
@[simp] theorem setF_bankTest (p : Nat) (fl : Fld) (v : Nat) : (s.setF p fl v).bankTest = s.bankTest := rfl
@[simp] theorem setF_xch (p : Nat) (fl : Fld) (v : Nat) : (s.setF p fl v).xch = s.xch := rfl
@[simp] theorem setF_drams (p : Nat) (fl : Fld) (v : Nat) : (s.setF p fl v).drams = s.drams := rfl
@[simp] theorem setF_training (p : Nat) (fl : Fld) (v : Nat) : (s.setF p fl v).training = s.training := rfl
@[simp] theorem setF_retrain (p : Nat) (fl : Fld) (v : Nat) : (s.setF p fl v).retrain = s.retrain := rfl
@[simp] theorem setF_sweeps (p : Nat) (fl : Fld) (v : Nat) : (s.setF p fl v).sweeps = s.sweeps := rfl
@[simp] theorem setF_dramCycle (p : Nat) (fl : Fld) (v : Nat) : (s.setF p fl v).dramCycle = s.dramCycle := rfl
@[simp] theorem setF_hostCycle (p : Nat) (fl : Fld) (v : Nat) : (s.setF p fl v).hostCycle = s.hostCycle := rfl
@[simp] theorem setF_tap (p : Nat) (fl : Fld) (v : Nat) : (s.setF p fl v).tap = s.tap := rfl

/-! `setByte` -/
@[simp] theorem setByte_pending (a : Nat) (v : Byte) : (s.setByte a v).pending = s.pending := rfl
@[simp] theorem setByte_regs (a : Nat) (v : Byte) : (s.setByte a v).regs = s.regs := rfl
@[simp] theorem setByte_active (a : Nat) (v : Byte) : (s.setByte a v).active = s.active := rfl
@[simp] theorem setByte_snap (a : Nat) (v : Byte) : (s.setByte a v).snap = s.snap := rfl
@[simp] theorem setByte_mem (a : Nat) (v : Byte) : (s.setByte a v).mem = tabSet memDefault s.mem a v := rfl
@[simp] theorem setByte_memErr (a : Nat) (v : Byte) : (s.setByte a v).memErr = tabDel (a / 8 * 8) s.memErr := rfl
@[simp] theorem setByte_commitAt (a : Nat) (v : Byte) : (s.setByte a v).commitAt = s.commitAt := rfl
@[simp] theorem setByte_shadowWas (a : Nat) (v : Byte) : (s.setByte a v).shadowWas = s.shadowWas := rfl
@[simp] theorem setByte_enteredAt (a : Nat) (v : Byte) : (s.setByte a v).enteredAt = s.enteredAt := rfl
@[simp] theorem setByte_lastEv (a : Nat) (v : Byte) : (s.setByte a v).lastEv = s.lastEv := rfl
@[simp] theorem setByte_freeCtr (a : Nat) (v : Byte) : (s.setByte a v).freeCtr = s.freeCtr := rfl
@[simp] theorem setByte_lanes (a : Nat) (v : Byte) : (s.setByte a v).lanes = s.lanes := rfl
@[simp] theorem setByte_heads (a : Nat) (v : Byte) : (s.setByte a v).heads = s.heads := rfl
@[simp] theorem setByte_time (a : Nat) (v : Byte) : (s.setByte a v).time = s.time := rfl
@[simp] theorem setByte_clk (a : Nat) (v : Byte) : (s.setByte a v).clk = s.clk := rfl
@[simp] theorem setByte_pwr (a : Nat) (v : Byte) : (s.setByte a v).pwr = s.pwr := rfl
@[simp] theorem setByte_ev (a : Nat) (v : Byte) : (s.setByte a v).ev = s.ev := rfl
@[simp] theorem setByte_knife (a : Nat) (v : Byte) : (s.setByte a v).knife = s.knife := rfl
@[simp] theorem setByte_dip (a : Nat) (v : Byte) : (s.setByte a v).dip = s.dip := rfl
@[simp] theorem setByte_rcd (a : Nat) (v : Byte) : (s.setByte a v).rcd = s.rcd := rfl
@[simp] theorem setByte_brushes (a : Nat) (v : Byte) : (s.setByte a v).brushes = s.brushes := rfl
@[simp] theorem setByte_lasers (a : Nat) (v : Byte) : (s.setByte a v).lasers = s.lasers := rfl
@[simp] theorem setByte_encs (a : Nat) (v : Byte) : (s.setByte a v).encs = s.encs := rfl
@[simp] theorem setByte_medium (a : Nat) (v : Byte) : (s.setByte a v).medium = s.medium := rfl
@[simp] theorem setByte_cal (a : Nat) (v : Byte) : (s.setByte a v).cal = s.cal := rfl
@[simp] theorem setByte_bist (a : Nat) (v : Byte) : (s.setByte a v).bist = s.bist := rfl
@[simp] theorem setByte_therm (a : Nat) (v : Byte) : (s.setByte a v).therm = s.therm := rfl
@[simp] theorem setByte_rasters (a : Nat) (v : Byte) : (s.setByte a v).rasters = s.rasters := rfl
@[simp] theorem setByte_glazes (a : Nat) (v : Byte) : (s.setByte a v).glazes = s.glazes := rfl
@[simp] theorem setByte_axes (a : Nat) (v : Byte) : (s.setByte a v).axes = s.axes := rfl
@[simp] theorem setByte_engines (a : Nat) (v : Byte) : (s.setByte a v).engines = s.engines := rfl
@[simp] theorem setByte_steppers (a : Nat) (v : Byte) : (s.setByte a v).steppers = s.steppers := rfl
@[simp] theorem setByte_cams (a : Nat) (v : Byte) : (s.setByte a v).cams = s.cams := rfl
@[simp] theorem setByte_camPorts (a : Nat) (v : Byte) : (s.setByte a v).camPorts = s.camPorts := rfl
@[simp] theorem setByte_streams (a : Nat) (v : Byte) : (s.setByte a v).streams = s.streams := rfl
@[simp] theorem setByte_trigs (a : Nat) (v : Byte) : (s.setByte a v).trigs = s.trigs := rfl
@[simp] theorem setByte_vision (a : Nat) (v : Byte) : (s.setByte a v).vision = s.vision := rfl
@[simp] theorem setByte_lights (a : Nat) (v : Byte) : (s.setByte a v).lights = s.lights := rfl
@[simp] theorem setByte_bankTest (a : Nat) (v : Byte) : (s.setByte a v).bankTest = s.bankTest := rfl
@[simp] theorem setByte_xch (a : Nat) (v : Byte) : (s.setByte a v).xch = s.xch := rfl
@[simp] theorem setByte_drams (a : Nat) (v : Byte) : (s.setByte a v).drams = s.drams := rfl
@[simp] theorem setByte_training (a : Nat) (v : Byte) : (s.setByte a v).training = s.training := rfl
@[simp] theorem setByte_retrain (a : Nat) (v : Byte) : (s.setByte a v).retrain = s.retrain := rfl
@[simp] theorem setByte_sweeps (a : Nat) (v : Byte) : (s.setByte a v).sweeps = s.sweeps := rfl
@[simp] theorem setByte_dramCycle (a : Nat) (v : Byte) : (s.setByte a v).dramCycle = s.dramCycle := rfl
@[simp] theorem setByte_hostCycle (a : Nat) (v : Byte) : (s.setByte a v).hostCycle = s.hostCycle := rfl
@[simp] theorem setByte_tap (a : Nat) (v : Byte) : (s.setByte a v).tap = s.tap := rfl

/-! `setCommitTick` -/
@[simp] theorem setCommitTick_pending (p t : Nat) : (s.setCommitTick p t).pending = s.pending := rfl
@[simp] theorem setCommitTick_regs (p t : Nat) : (s.setCommitTick p t).regs = s.regs := rfl
@[simp] theorem setCommitTick_active (p t : Nat) : (s.setCommitTick p t).active = s.active := rfl
@[simp] theorem setCommitTick_snap (p t : Nat) : (s.setCommitTick p t).snap = s.snap := rfl
@[simp] theorem setCommitTick_mem (p t : Nat) : (s.setCommitTick p t).mem = s.mem := rfl
@[simp] theorem setCommitTick_memErr (p t : Nat) : (s.setCommitTick p t).memErr = s.memErr := rfl
@[simp] theorem setCommitTick_commitAt (p t : Nat) : (s.setCommitTick p t).commitAt = tabSet zeroNat s.commitAt p t := rfl
@[simp] theorem setCommitTick_shadowWas (p t : Nat) : (s.setCommitTick p t).shadowWas = s.shadowWas := rfl
@[simp] theorem setCommitTick_enteredAt (p t : Nat) : (s.setCommitTick p t).enteredAt = s.enteredAt := rfl
@[simp] theorem setCommitTick_lastEv (p t : Nat) : (s.setCommitTick p t).lastEv = s.lastEv := rfl
@[simp] theorem setCommitTick_freeCtr (p t : Nat) : (s.setCommitTick p t).freeCtr = s.freeCtr := rfl
@[simp] theorem setCommitTick_lanes (p t : Nat) : (s.setCommitTick p t).lanes = s.lanes := rfl
@[simp] theorem setCommitTick_heads (p t : Nat) : (s.setCommitTick p t).heads = s.heads := rfl
@[simp] theorem setCommitTick_time (p t : Nat) : (s.setCommitTick p t).time = s.time := rfl
@[simp] theorem setCommitTick_clk (p t : Nat) : (s.setCommitTick p t).clk = s.clk := rfl
@[simp] theorem setCommitTick_pwr (p t : Nat) : (s.setCommitTick p t).pwr = s.pwr := rfl
@[simp] theorem setCommitTick_ev (p t : Nat) : (s.setCommitTick p t).ev = s.ev := rfl
@[simp] theorem setCommitTick_knife (p t : Nat) : (s.setCommitTick p t).knife = s.knife := rfl
@[simp] theorem setCommitTick_dip (p t : Nat) : (s.setCommitTick p t).dip = s.dip := rfl
@[simp] theorem setCommitTick_rcd (p t : Nat) : (s.setCommitTick p t).rcd = s.rcd := rfl
@[simp] theorem setCommitTick_brushes (p t : Nat) : (s.setCommitTick p t).brushes = s.brushes := rfl
@[simp] theorem setCommitTick_lasers (p t : Nat) : (s.setCommitTick p t).lasers = s.lasers := rfl
@[simp] theorem setCommitTick_encs (p t : Nat) : (s.setCommitTick p t).encs = s.encs := rfl
@[simp] theorem setCommitTick_medium (p t : Nat) : (s.setCommitTick p t).medium = s.medium := rfl
@[simp] theorem setCommitTick_cal (p t : Nat) : (s.setCommitTick p t).cal = s.cal := rfl
@[simp] theorem setCommitTick_bist (p t : Nat) : (s.setCommitTick p t).bist = s.bist := rfl
@[simp] theorem setCommitTick_therm (p t : Nat) : (s.setCommitTick p t).therm = s.therm := rfl
@[simp] theorem setCommitTick_rasters (p t : Nat) : (s.setCommitTick p t).rasters = s.rasters := rfl
@[simp] theorem setCommitTick_glazes (p t : Nat) : (s.setCommitTick p t).glazes = s.glazes := rfl
@[simp] theorem setCommitTick_axes (p t : Nat) : (s.setCommitTick p t).axes = s.axes := rfl
@[simp] theorem setCommitTick_engines (p t : Nat) : (s.setCommitTick p t).engines = s.engines := rfl
@[simp] theorem setCommitTick_steppers (p t : Nat) : (s.setCommitTick p t).steppers = s.steppers := rfl
@[simp] theorem setCommitTick_cams (p t : Nat) : (s.setCommitTick p t).cams = s.cams := rfl
@[simp] theorem setCommitTick_camPorts (p t : Nat) : (s.setCommitTick p t).camPorts = s.camPorts := rfl
@[simp] theorem setCommitTick_streams (p t : Nat) : (s.setCommitTick p t).streams = s.streams := rfl
@[simp] theorem setCommitTick_trigs (p t : Nat) : (s.setCommitTick p t).trigs = s.trigs := rfl
@[simp] theorem setCommitTick_vision (p t : Nat) : (s.setCommitTick p t).vision = s.vision := rfl
@[simp] theorem setCommitTick_lights (p t : Nat) : (s.setCommitTick p t).lights = s.lights := rfl
@[simp] theorem setCommitTick_bankTest (p t : Nat) : (s.setCommitTick p t).bankTest = s.bankTest := rfl
@[simp] theorem setCommitTick_xch (p t : Nat) : (s.setCommitTick p t).xch = s.xch := rfl
@[simp] theorem setCommitTick_drams (p t : Nat) : (s.setCommitTick p t).drams = s.drams := rfl
@[simp] theorem setCommitTick_training (p t : Nat) : (s.setCommitTick p t).training = s.training := rfl
@[simp] theorem setCommitTick_retrain (p t : Nat) : (s.setCommitTick p t).retrain = s.retrain := rfl
@[simp] theorem setCommitTick_sweeps (p t : Nat) : (s.setCommitTick p t).sweeps = s.sweeps := rfl
@[simp] theorem setCommitTick_dramCycle (p t : Nat) : (s.setCommitTick p t).dramCycle = s.dramCycle := rfl
@[simp] theorem setCommitTick_hostCycle (p t : Nat) : (s.setCommitTick p t).hostCycle = s.hostCycle := rfl
@[simp] theorem setCommitTick_tap (p t : Nat) : (s.setCommitTick p t).tap = s.tap := rfl

/-! `setEntered` -/
@[simp] theorem setEntered_pending (p t : Nat) : (s.setEntered p t).pending = s.pending := rfl
@[simp] theorem setEntered_regs (p t : Nat) : (s.setEntered p t).regs = s.regs := rfl
@[simp] theorem setEntered_active (p t : Nat) : (s.setEntered p t).active = s.active := rfl
@[simp] theorem setEntered_snap (p t : Nat) : (s.setEntered p t).snap = s.snap := rfl
@[simp] theorem setEntered_mem (p t : Nat) : (s.setEntered p t).mem = s.mem := rfl
@[simp] theorem setEntered_memErr (p t : Nat) : (s.setEntered p t).memErr = s.memErr := rfl
@[simp] theorem setEntered_commitAt (p t : Nat) : (s.setEntered p t).commitAt = s.commitAt := rfl
@[simp] theorem setEntered_shadowWas (p t : Nat) : (s.setEntered p t).shadowWas = s.shadowWas := rfl
@[simp] theorem setEntered_enteredAt (p t : Nat) : (s.setEntered p t).enteredAt = tabSet zeroNat s.enteredAt p t := rfl
@[simp] theorem setEntered_lastEv (p t : Nat) : (s.setEntered p t).lastEv = s.lastEv := rfl
@[simp] theorem setEntered_freeCtr (p t : Nat) : (s.setEntered p t).freeCtr = s.freeCtr := rfl
@[simp] theorem setEntered_lanes (p t : Nat) : (s.setEntered p t).lanes = s.lanes := rfl
@[simp] theorem setEntered_heads (p t : Nat) : (s.setEntered p t).heads = s.heads := rfl
@[simp] theorem setEntered_time (p t : Nat) : (s.setEntered p t).time = s.time := rfl
@[simp] theorem setEntered_clk (p t : Nat) : (s.setEntered p t).clk = s.clk := rfl
@[simp] theorem setEntered_pwr (p t : Nat) : (s.setEntered p t).pwr = s.pwr := rfl
@[simp] theorem setEntered_ev (p t : Nat) : (s.setEntered p t).ev = s.ev := rfl
@[simp] theorem setEntered_knife (p t : Nat) : (s.setEntered p t).knife = s.knife := rfl
@[simp] theorem setEntered_dip (p t : Nat) : (s.setEntered p t).dip = s.dip := rfl
@[simp] theorem setEntered_rcd (p t : Nat) : (s.setEntered p t).rcd = s.rcd := rfl
@[simp] theorem setEntered_brushes (p t : Nat) : (s.setEntered p t).brushes = s.brushes := rfl
@[simp] theorem setEntered_lasers (p t : Nat) : (s.setEntered p t).lasers = s.lasers := rfl
@[simp] theorem setEntered_encs (p t : Nat) : (s.setEntered p t).encs = s.encs := rfl
@[simp] theorem setEntered_medium (p t : Nat) : (s.setEntered p t).medium = s.medium := rfl
@[simp] theorem setEntered_cal (p t : Nat) : (s.setEntered p t).cal = s.cal := rfl
@[simp] theorem setEntered_bist (p t : Nat) : (s.setEntered p t).bist = s.bist := rfl
@[simp] theorem setEntered_therm (p t : Nat) : (s.setEntered p t).therm = s.therm := rfl
@[simp] theorem setEntered_rasters (p t : Nat) : (s.setEntered p t).rasters = s.rasters := rfl
@[simp] theorem setEntered_glazes (p t : Nat) : (s.setEntered p t).glazes = s.glazes := rfl
@[simp] theorem setEntered_axes (p t : Nat) : (s.setEntered p t).axes = s.axes := rfl
@[simp] theorem setEntered_engines (p t : Nat) : (s.setEntered p t).engines = s.engines := rfl
@[simp] theorem setEntered_steppers (p t : Nat) : (s.setEntered p t).steppers = s.steppers := rfl
@[simp] theorem setEntered_cams (p t : Nat) : (s.setEntered p t).cams = s.cams := rfl
@[simp] theorem setEntered_camPorts (p t : Nat) : (s.setEntered p t).camPorts = s.camPorts := rfl
@[simp] theorem setEntered_streams (p t : Nat) : (s.setEntered p t).streams = s.streams := rfl
@[simp] theorem setEntered_trigs (p t : Nat) : (s.setEntered p t).trigs = s.trigs := rfl
@[simp] theorem setEntered_vision (p t : Nat) : (s.setEntered p t).vision = s.vision := rfl
@[simp] theorem setEntered_lights (p t : Nat) : (s.setEntered p t).lights = s.lights := rfl
@[simp] theorem setEntered_bankTest (p t : Nat) : (s.setEntered p t).bankTest = s.bankTest := rfl
@[simp] theorem setEntered_xch (p t : Nat) : (s.setEntered p t).xch = s.xch := rfl
@[simp] theorem setEntered_drams (p t : Nat) : (s.setEntered p t).drams = s.drams := rfl
@[simp] theorem setEntered_training (p t : Nat) : (s.setEntered p t).training = s.training := rfl
@[simp] theorem setEntered_retrain (p t : Nat) : (s.setEntered p t).retrain = s.retrain := rfl
@[simp] theorem setEntered_sweeps (p t : Nat) : (s.setEntered p t).sweeps = s.sweeps := rfl
@[simp] theorem setEntered_dramCycle (p t : Nat) : (s.setEntered p t).dramCycle = s.dramCycle := rfl
@[simp] theorem setEntered_hostCycle (p t : Nat) : (s.setEntered p t).hostCycle = s.hostCycle := rfl
@[simp] theorem setEntered_tap (p t : Nat) : (s.setEntered p t).tap = s.tap := rfl

/-! `setLane` -/
@[simp] theorem setLane_pending (l : Fin 20) (g : Lane → Lane) : (s.setLane l g).pending = s.pending := rfl
@[simp] theorem setLane_regs (l : Fin 20) (g : Lane → Lane) : (s.setLane l g).regs = s.regs := rfl
@[simp] theorem setLane_active (l : Fin 20) (g : Lane → Lane) : (s.setLane l g).active = s.active := rfl
@[simp] theorem setLane_snap (l : Fin 20) (g : Lane → Lane) : (s.setLane l g).snap = s.snap := rfl
@[simp] theorem setLane_mem (l : Fin 20) (g : Lane → Lane) : (s.setLane l g).mem = s.mem := rfl
@[simp] theorem setLane_memErr (l : Fin 20) (g : Lane → Lane) : (s.setLane l g).memErr = s.memErr := rfl
@[simp] theorem setLane_commitAt (l : Fin 20) (g : Lane → Lane) : (s.setLane l g).commitAt = s.commitAt := rfl
@[simp] theorem setLane_shadowWas (l : Fin 20) (g : Lane → Lane) : (s.setLane l g).shadowWas = s.shadowWas := rfl
@[simp] theorem setLane_enteredAt (l : Fin 20) (g : Lane → Lane) : (s.setLane l g).enteredAt = s.enteredAt := rfl
@[simp] theorem setLane_lastEv (l : Fin 20) (g : Lane → Lane) : (s.setLane l g).lastEv = s.lastEv := rfl
@[simp] theorem setLane_freeCtr (l : Fin 20) (g : Lane → Lane) : (s.setLane l g).freeCtr = s.freeCtr := rfl
@[simp] theorem setLane_lanes (l : Fin 20) (g : Lane → Lane) : (s.setLane l g).lanes = s.lanes.set l (g s.lanes[l]) := rfl
@[simp] theorem setLane_heads (l : Fin 20) (g : Lane → Lane) : (s.setLane l g).heads = s.heads := rfl
@[simp] theorem setLane_time (l : Fin 20) (g : Lane → Lane) : (s.setLane l g).time = s.time := rfl
@[simp] theorem setLane_clk (l : Fin 20) (g : Lane → Lane) : (s.setLane l g).clk = s.clk := rfl
@[simp] theorem setLane_pwr (l : Fin 20) (g : Lane → Lane) : (s.setLane l g).pwr = s.pwr := rfl
@[simp] theorem setLane_ev (l : Fin 20) (g : Lane → Lane) : (s.setLane l g).ev = s.ev := rfl
@[simp] theorem setLane_knife (l : Fin 20) (g : Lane → Lane) : (s.setLane l g).knife = s.knife := rfl
@[simp] theorem setLane_dip (l : Fin 20) (g : Lane → Lane) : (s.setLane l g).dip = s.dip := rfl
@[simp] theorem setLane_rcd (l : Fin 20) (g : Lane → Lane) : (s.setLane l g).rcd = s.rcd := rfl
@[simp] theorem setLane_brushes (l : Fin 20) (g : Lane → Lane) : (s.setLane l g).brushes = s.brushes := rfl
@[simp] theorem setLane_lasers (l : Fin 20) (g : Lane → Lane) : (s.setLane l g).lasers = s.lasers := rfl
@[simp] theorem setLane_encs (l : Fin 20) (g : Lane → Lane) : (s.setLane l g).encs = s.encs := rfl
@[simp] theorem setLane_medium (l : Fin 20) (g : Lane → Lane) : (s.setLane l g).medium = s.medium := rfl
@[simp] theorem setLane_cal (l : Fin 20) (g : Lane → Lane) : (s.setLane l g).cal = s.cal := rfl
@[simp] theorem setLane_bist (l : Fin 20) (g : Lane → Lane) : (s.setLane l g).bist = s.bist := rfl
@[simp] theorem setLane_therm (l : Fin 20) (g : Lane → Lane) : (s.setLane l g).therm = s.therm := rfl
@[simp] theorem setLane_rasters (l : Fin 20) (g : Lane → Lane) : (s.setLane l g).rasters = s.rasters := rfl
@[simp] theorem setLane_glazes (l : Fin 20) (g : Lane → Lane) : (s.setLane l g).glazes = s.glazes := rfl
@[simp] theorem setLane_axes (l : Fin 20) (g : Lane → Lane) : (s.setLane l g).axes = s.axes := rfl
@[simp] theorem setLane_engines (l : Fin 20) (g : Lane → Lane) : (s.setLane l g).engines = s.engines := rfl
@[simp] theorem setLane_steppers (l : Fin 20) (g : Lane → Lane) : (s.setLane l g).steppers = s.steppers := rfl
@[simp] theorem setLane_cams (l : Fin 20) (g : Lane → Lane) : (s.setLane l g).cams = s.cams := rfl
@[simp] theorem setLane_camPorts (l : Fin 20) (g : Lane → Lane) : (s.setLane l g).camPorts = s.camPorts := rfl
@[simp] theorem setLane_streams (l : Fin 20) (g : Lane → Lane) : (s.setLane l g).streams = s.streams := rfl
@[simp] theorem setLane_trigs (l : Fin 20) (g : Lane → Lane) : (s.setLane l g).trigs = s.trigs := rfl
@[simp] theorem setLane_vision (l : Fin 20) (g : Lane → Lane) : (s.setLane l g).vision = s.vision := rfl
@[simp] theorem setLane_lights (l : Fin 20) (g : Lane → Lane) : (s.setLane l g).lights = s.lights := rfl
@[simp] theorem setLane_bankTest (l : Fin 20) (g : Lane → Lane) : (s.setLane l g).bankTest = s.bankTest := rfl
@[simp] theorem setLane_xch (l : Fin 20) (g : Lane → Lane) : (s.setLane l g).xch = s.xch := rfl
@[simp] theorem setLane_drams (l : Fin 20) (g : Lane → Lane) : (s.setLane l g).drams = s.drams := rfl
@[simp] theorem setLane_training (l : Fin 20) (g : Lane → Lane) : (s.setLane l g).training = s.training := rfl
@[simp] theorem setLane_retrain (l : Fin 20) (g : Lane → Lane) : (s.setLane l g).retrain = s.retrain := rfl
@[simp] theorem setLane_sweeps (l : Fin 20) (g : Lane → Lane) : (s.setLane l g).sweeps = s.sweeps := rfl
@[simp] theorem setLane_dramCycle (l : Fin 20) (g : Lane → Lane) : (s.setLane l g).dramCycle = s.dramCycle := rfl
@[simp] theorem setLane_hostCycle (l : Fin 20) (g : Lane → Lane) : (s.setLane l g).hostCycle = s.hostCycle := rfl
@[simp] theorem setLane_tap (l : Fin 20) (g : Lane → Lane) : (s.setLane l g).tap = s.tap := rfl

/-! `setHead` -/
@[simp] theorem setHead_pending (h : Fin 16) (g : Head → Head) : (s.setHead h g).pending = s.pending := rfl
@[simp] theorem setHead_regs (h : Fin 16) (g : Head → Head) : (s.setHead h g).regs = s.regs := rfl
@[simp] theorem setHead_active (h : Fin 16) (g : Head → Head) : (s.setHead h g).active = s.active := rfl
@[simp] theorem setHead_snap (h : Fin 16) (g : Head → Head) : (s.setHead h g).snap = s.snap := rfl
@[simp] theorem setHead_mem (h : Fin 16) (g : Head → Head) : (s.setHead h g).mem = s.mem := rfl
@[simp] theorem setHead_memErr (h : Fin 16) (g : Head → Head) : (s.setHead h g).memErr = s.memErr := rfl
@[simp] theorem setHead_commitAt (h : Fin 16) (g : Head → Head) : (s.setHead h g).commitAt = s.commitAt := rfl
@[simp] theorem setHead_shadowWas (h : Fin 16) (g : Head → Head) : (s.setHead h g).shadowWas = s.shadowWas := rfl
@[simp] theorem setHead_enteredAt (h : Fin 16) (g : Head → Head) : (s.setHead h g).enteredAt = s.enteredAt := rfl
@[simp] theorem setHead_lastEv (h : Fin 16) (g : Head → Head) : (s.setHead h g).lastEv = s.lastEv := rfl
@[simp] theorem setHead_freeCtr (h : Fin 16) (g : Head → Head) : (s.setHead h g).freeCtr = s.freeCtr := rfl
@[simp] theorem setHead_lanes (h : Fin 16) (g : Head → Head) : (s.setHead h g).lanes = s.lanes := rfl
@[simp] theorem setHead_heads (h : Fin 16) (g : Head → Head) : (s.setHead h g).heads = s.heads.set h (g s.heads[h]) := rfl
@[simp] theorem setHead_time (h : Fin 16) (g : Head → Head) : (s.setHead h g).time = s.time := rfl
@[simp] theorem setHead_clk (h : Fin 16) (g : Head → Head) : (s.setHead h g).clk = s.clk := rfl
@[simp] theorem setHead_pwr (h : Fin 16) (g : Head → Head) : (s.setHead h g).pwr = s.pwr := rfl
@[simp] theorem setHead_ev (h : Fin 16) (g : Head → Head) : (s.setHead h g).ev = s.ev := rfl
@[simp] theorem setHead_knife (h : Fin 16) (g : Head → Head) : (s.setHead h g).knife = s.knife := rfl
@[simp] theorem setHead_dip (h : Fin 16) (g : Head → Head) : (s.setHead h g).dip = s.dip := rfl
@[simp] theorem setHead_rcd (h : Fin 16) (g : Head → Head) : (s.setHead h g).rcd = s.rcd := rfl
@[simp] theorem setHead_brushes (h : Fin 16) (g : Head → Head) : (s.setHead h g).brushes = s.brushes := rfl
@[simp] theorem setHead_lasers (h : Fin 16) (g : Head → Head) : (s.setHead h g).lasers = s.lasers := rfl
@[simp] theorem setHead_encs (h : Fin 16) (g : Head → Head) : (s.setHead h g).encs = s.encs := rfl
@[simp] theorem setHead_medium (h : Fin 16) (g : Head → Head) : (s.setHead h g).medium = s.medium := rfl
@[simp] theorem setHead_cal (h : Fin 16) (g : Head → Head) : (s.setHead h g).cal = s.cal := rfl
@[simp] theorem setHead_bist (h : Fin 16) (g : Head → Head) : (s.setHead h g).bist = s.bist := rfl
@[simp] theorem setHead_therm (h : Fin 16) (g : Head → Head) : (s.setHead h g).therm = s.therm := rfl
@[simp] theorem setHead_rasters (h : Fin 16) (g : Head → Head) : (s.setHead h g).rasters = s.rasters := rfl
@[simp] theorem setHead_glazes (h : Fin 16) (g : Head → Head) : (s.setHead h g).glazes = s.glazes := rfl
@[simp] theorem setHead_axes (h : Fin 16) (g : Head → Head) : (s.setHead h g).axes = s.axes := rfl
@[simp] theorem setHead_engines (h : Fin 16) (g : Head → Head) : (s.setHead h g).engines = s.engines := rfl
@[simp] theorem setHead_steppers (h : Fin 16) (g : Head → Head) : (s.setHead h g).steppers = s.steppers := rfl
@[simp] theorem setHead_cams (h : Fin 16) (g : Head → Head) : (s.setHead h g).cams = s.cams := rfl
@[simp] theorem setHead_camPorts (h : Fin 16) (g : Head → Head) : (s.setHead h g).camPorts = s.camPorts := rfl
@[simp] theorem setHead_streams (h : Fin 16) (g : Head → Head) : (s.setHead h g).streams = s.streams := rfl
@[simp] theorem setHead_trigs (h : Fin 16) (g : Head → Head) : (s.setHead h g).trigs = s.trigs := rfl
@[simp] theorem setHead_vision (h : Fin 16) (g : Head → Head) : (s.setHead h g).vision = s.vision := rfl
@[simp] theorem setHead_lights (h : Fin 16) (g : Head → Head) : (s.setHead h g).lights = s.lights := rfl
@[simp] theorem setHead_bankTest (h : Fin 16) (g : Head → Head) : (s.setHead h g).bankTest = s.bankTest := rfl
@[simp] theorem setHead_xch (h : Fin 16) (g : Head → Head) : (s.setHead h g).xch = s.xch := rfl
@[simp] theorem setHead_drams (h : Fin 16) (g : Head → Head) : (s.setHead h g).drams = s.drams := rfl
@[simp] theorem setHead_training (h : Fin 16) (g : Head → Head) : (s.setHead h g).training = s.training := rfl
@[simp] theorem setHead_retrain (h : Fin 16) (g : Head → Head) : (s.setHead h g).retrain = s.retrain := rfl
@[simp] theorem setHead_sweeps (h : Fin 16) (g : Head → Head) : (s.setHead h g).sweeps = s.sweeps := rfl
@[simp] theorem setHead_dramCycle (h : Fin 16) (g : Head → Head) : (s.setHead h g).dramCycle = s.dramCycle := rfl
@[simp] theorem setHead_hostCycle (h : Fin 16) (g : Head → Head) : (s.setHead h g).hostCycle = s.hostCycle := rfl
@[simp] theorem setHead_tap (h : Fin 16) (g : Head → Head) : (s.setHead h g).tap = s.tap := rfl

/-! `setLaser` -/
@[simp] theorem setLaser_pending (n : Fin 16) (g : Laser → Laser) : (s.setLaser n g).pending = s.pending := rfl
@[simp] theorem setLaser_regs (n : Fin 16) (g : Laser → Laser) : (s.setLaser n g).regs = s.regs := rfl
@[simp] theorem setLaser_active (n : Fin 16) (g : Laser → Laser) : (s.setLaser n g).active = s.active := rfl
@[simp] theorem setLaser_snap (n : Fin 16) (g : Laser → Laser) : (s.setLaser n g).snap = s.snap := rfl
@[simp] theorem setLaser_mem (n : Fin 16) (g : Laser → Laser) : (s.setLaser n g).mem = s.mem := rfl
@[simp] theorem setLaser_memErr (n : Fin 16) (g : Laser → Laser) : (s.setLaser n g).memErr = s.memErr := rfl
@[simp] theorem setLaser_commitAt (n : Fin 16) (g : Laser → Laser) : (s.setLaser n g).commitAt = s.commitAt := rfl
@[simp] theorem setLaser_shadowWas (n : Fin 16) (g : Laser → Laser) : (s.setLaser n g).shadowWas = s.shadowWas := rfl
@[simp] theorem setLaser_enteredAt (n : Fin 16) (g : Laser → Laser) : (s.setLaser n g).enteredAt = s.enteredAt := rfl
@[simp] theorem setLaser_lastEv (n : Fin 16) (g : Laser → Laser) : (s.setLaser n g).lastEv = s.lastEv := rfl
@[simp] theorem setLaser_freeCtr (n : Fin 16) (g : Laser → Laser) : (s.setLaser n g).freeCtr = s.freeCtr := rfl
@[simp] theorem setLaser_lanes (n : Fin 16) (g : Laser → Laser) : (s.setLaser n g).lanes = s.lanes := rfl
@[simp] theorem setLaser_heads (n : Fin 16) (g : Laser → Laser) : (s.setLaser n g).heads = s.heads := rfl
@[simp] theorem setLaser_time (n : Fin 16) (g : Laser → Laser) : (s.setLaser n g).time = s.time := rfl
@[simp] theorem setLaser_clk (n : Fin 16) (g : Laser → Laser) : (s.setLaser n g).clk = s.clk := rfl
@[simp] theorem setLaser_pwr (n : Fin 16) (g : Laser → Laser) : (s.setLaser n g).pwr = s.pwr := rfl
@[simp] theorem setLaser_ev (n : Fin 16) (g : Laser → Laser) : (s.setLaser n g).ev = s.ev := rfl
@[simp] theorem setLaser_knife (n : Fin 16) (g : Laser → Laser) : (s.setLaser n g).knife = s.knife := rfl
@[simp] theorem setLaser_dip (n : Fin 16) (g : Laser → Laser) : (s.setLaser n g).dip = s.dip := rfl
@[simp] theorem setLaser_rcd (n : Fin 16) (g : Laser → Laser) : (s.setLaser n g).rcd = s.rcd := rfl
@[simp] theorem setLaser_brushes (n : Fin 16) (g : Laser → Laser) : (s.setLaser n g).brushes = s.brushes := rfl
@[simp] theorem setLaser_lasers (n : Fin 16) (g : Laser → Laser) : (s.setLaser n g).lasers = s.lasers.set n (g s.lasers[n]) := rfl
@[simp] theorem setLaser_encs (n : Fin 16) (g : Laser → Laser) : (s.setLaser n g).encs = s.encs := rfl
@[simp] theorem setLaser_medium (n : Fin 16) (g : Laser → Laser) : (s.setLaser n g).medium = s.medium := rfl
@[simp] theorem setLaser_cal (n : Fin 16) (g : Laser → Laser) : (s.setLaser n g).cal = s.cal := rfl
@[simp] theorem setLaser_bist (n : Fin 16) (g : Laser → Laser) : (s.setLaser n g).bist = s.bist := rfl
@[simp] theorem setLaser_therm (n : Fin 16) (g : Laser → Laser) : (s.setLaser n g).therm = s.therm := rfl
@[simp] theorem setLaser_rasters (n : Fin 16) (g : Laser → Laser) : (s.setLaser n g).rasters = s.rasters := rfl
@[simp] theorem setLaser_glazes (n : Fin 16) (g : Laser → Laser) : (s.setLaser n g).glazes = s.glazes := rfl
@[simp] theorem setLaser_axes (n : Fin 16) (g : Laser → Laser) : (s.setLaser n g).axes = s.axes := rfl
@[simp] theorem setLaser_engines (n : Fin 16) (g : Laser → Laser) : (s.setLaser n g).engines = s.engines := rfl
@[simp] theorem setLaser_steppers (n : Fin 16) (g : Laser → Laser) : (s.setLaser n g).steppers = s.steppers := rfl
@[simp] theorem setLaser_cams (n : Fin 16) (g : Laser → Laser) : (s.setLaser n g).cams = s.cams := rfl
@[simp] theorem setLaser_camPorts (n : Fin 16) (g : Laser → Laser) : (s.setLaser n g).camPorts = s.camPorts := rfl
@[simp] theorem setLaser_streams (n : Fin 16) (g : Laser → Laser) : (s.setLaser n g).streams = s.streams := rfl
@[simp] theorem setLaser_trigs (n : Fin 16) (g : Laser → Laser) : (s.setLaser n g).trigs = s.trigs := rfl
@[simp] theorem setLaser_vision (n : Fin 16) (g : Laser → Laser) : (s.setLaser n g).vision = s.vision := rfl
@[simp] theorem setLaser_lights (n : Fin 16) (g : Laser → Laser) : (s.setLaser n g).lights = s.lights := rfl
@[simp] theorem setLaser_bankTest (n : Fin 16) (g : Laser → Laser) : (s.setLaser n g).bankTest = s.bankTest := rfl
@[simp] theorem setLaser_xch (n : Fin 16) (g : Laser → Laser) : (s.setLaser n g).xch = s.xch := rfl
@[simp] theorem setLaser_drams (n : Fin 16) (g : Laser → Laser) : (s.setLaser n g).drams = s.drams := rfl
@[simp] theorem setLaser_training (n : Fin 16) (g : Laser → Laser) : (s.setLaser n g).training = s.training := rfl
@[simp] theorem setLaser_retrain (n : Fin 16) (g : Laser → Laser) : (s.setLaser n g).retrain = s.retrain := rfl
@[simp] theorem setLaser_sweeps (n : Fin 16) (g : Laser → Laser) : (s.setLaser n g).sweeps = s.sweeps := rfl
@[simp] theorem setLaser_dramCycle (n : Fin 16) (g : Laser → Laser) : (s.setLaser n g).dramCycle = s.dramCycle := rfl
@[simp] theorem setLaser_hostCycle (n : Fin 16) (g : Laser → Laser) : (s.setLaser n g).hostCycle = s.hostCycle := rfl
@[simp] theorem setLaser_tap (n : Fin 16) (g : Laser → Laser) : (s.setLaser n g).tap = s.tap := rfl

/-! `setBrush` -/
@[simp] theorem setBrush_pending (b : Fin 16) (g : Brush → Brush) : (s.setBrush b g).pending = s.pending := rfl
@[simp] theorem setBrush_regs (b : Fin 16) (g : Brush → Brush) : (s.setBrush b g).regs = s.regs := rfl
@[simp] theorem setBrush_active (b : Fin 16) (g : Brush → Brush) : (s.setBrush b g).active = s.active := rfl
@[simp] theorem setBrush_snap (b : Fin 16) (g : Brush → Brush) : (s.setBrush b g).snap = s.snap := rfl
@[simp] theorem setBrush_mem (b : Fin 16) (g : Brush → Brush) : (s.setBrush b g).mem = s.mem := rfl
@[simp] theorem setBrush_memErr (b : Fin 16) (g : Brush → Brush) : (s.setBrush b g).memErr = s.memErr := rfl
@[simp] theorem setBrush_commitAt (b : Fin 16) (g : Brush → Brush) : (s.setBrush b g).commitAt = s.commitAt := rfl
@[simp] theorem setBrush_shadowWas (b : Fin 16) (g : Brush → Brush) : (s.setBrush b g).shadowWas = s.shadowWas := rfl
@[simp] theorem setBrush_enteredAt (b : Fin 16) (g : Brush → Brush) : (s.setBrush b g).enteredAt = s.enteredAt := rfl
@[simp] theorem setBrush_lastEv (b : Fin 16) (g : Brush → Brush) : (s.setBrush b g).lastEv = s.lastEv := rfl
@[simp] theorem setBrush_freeCtr (b : Fin 16) (g : Brush → Brush) : (s.setBrush b g).freeCtr = s.freeCtr := rfl
@[simp] theorem setBrush_lanes (b : Fin 16) (g : Brush → Brush) : (s.setBrush b g).lanes = s.lanes := rfl
@[simp] theorem setBrush_heads (b : Fin 16) (g : Brush → Brush) : (s.setBrush b g).heads = s.heads := rfl
@[simp] theorem setBrush_time (b : Fin 16) (g : Brush → Brush) : (s.setBrush b g).time = s.time := rfl
@[simp] theorem setBrush_clk (b : Fin 16) (g : Brush → Brush) : (s.setBrush b g).clk = s.clk := rfl
@[simp] theorem setBrush_pwr (b : Fin 16) (g : Brush → Brush) : (s.setBrush b g).pwr = s.pwr := rfl
@[simp] theorem setBrush_ev (b : Fin 16) (g : Brush → Brush) : (s.setBrush b g).ev = s.ev := rfl
@[simp] theorem setBrush_knife (b : Fin 16) (g : Brush → Brush) : (s.setBrush b g).knife = s.knife := rfl
@[simp] theorem setBrush_dip (b : Fin 16) (g : Brush → Brush) : (s.setBrush b g).dip = s.dip := rfl
@[simp] theorem setBrush_rcd (b : Fin 16) (g : Brush → Brush) : (s.setBrush b g).rcd = s.rcd := rfl
@[simp] theorem setBrush_brushes (b : Fin 16) (g : Brush → Brush) : (s.setBrush b g).brushes = s.brushes.set b (g s.brushes[b]) := rfl
@[simp] theorem setBrush_lasers (b : Fin 16) (g : Brush → Brush) : (s.setBrush b g).lasers = s.lasers := rfl
@[simp] theorem setBrush_encs (b : Fin 16) (g : Brush → Brush) : (s.setBrush b g).encs = s.encs := rfl
@[simp] theorem setBrush_medium (b : Fin 16) (g : Brush → Brush) : (s.setBrush b g).medium = s.medium := rfl
@[simp] theorem setBrush_cal (b : Fin 16) (g : Brush → Brush) : (s.setBrush b g).cal = s.cal := rfl
@[simp] theorem setBrush_bist (b : Fin 16) (g : Brush → Brush) : (s.setBrush b g).bist = s.bist := rfl
@[simp] theorem setBrush_therm (b : Fin 16) (g : Brush → Brush) : (s.setBrush b g).therm = s.therm := rfl
@[simp] theorem setBrush_rasters (b : Fin 16) (g : Brush → Brush) : (s.setBrush b g).rasters = s.rasters := rfl
@[simp] theorem setBrush_glazes (b : Fin 16) (g : Brush → Brush) : (s.setBrush b g).glazes = s.glazes := rfl
@[simp] theorem setBrush_axes (b : Fin 16) (g : Brush → Brush) : (s.setBrush b g).axes = s.axes := rfl
@[simp] theorem setBrush_engines (b : Fin 16) (g : Brush → Brush) : (s.setBrush b g).engines = s.engines := rfl
@[simp] theorem setBrush_steppers (b : Fin 16) (g : Brush → Brush) : (s.setBrush b g).steppers = s.steppers := rfl
@[simp] theorem setBrush_cams (b : Fin 16) (g : Brush → Brush) : (s.setBrush b g).cams = s.cams := rfl
@[simp] theorem setBrush_camPorts (b : Fin 16) (g : Brush → Brush) : (s.setBrush b g).camPorts = s.camPorts := rfl
@[simp] theorem setBrush_streams (b : Fin 16) (g : Brush → Brush) : (s.setBrush b g).streams = s.streams := rfl
@[simp] theorem setBrush_trigs (b : Fin 16) (g : Brush → Brush) : (s.setBrush b g).trigs = s.trigs := rfl
@[simp] theorem setBrush_vision (b : Fin 16) (g : Brush → Brush) : (s.setBrush b g).vision = s.vision := rfl
@[simp] theorem setBrush_lights (b : Fin 16) (g : Brush → Brush) : (s.setBrush b g).lights = s.lights := rfl
@[simp] theorem setBrush_bankTest (b : Fin 16) (g : Brush → Brush) : (s.setBrush b g).bankTest = s.bankTest := rfl
@[simp] theorem setBrush_xch (b : Fin 16) (g : Brush → Brush) : (s.setBrush b g).xch = s.xch := rfl
@[simp] theorem setBrush_drams (b : Fin 16) (g : Brush → Brush) : (s.setBrush b g).drams = s.drams := rfl
@[simp] theorem setBrush_training (b : Fin 16) (g : Brush → Brush) : (s.setBrush b g).training = s.training := rfl
@[simp] theorem setBrush_retrain (b : Fin 16) (g : Brush → Brush) : (s.setBrush b g).retrain = s.retrain := rfl
@[simp] theorem setBrush_sweeps (b : Fin 16) (g : Brush → Brush) : (s.setBrush b g).sweeps = s.sweeps := rfl
@[simp] theorem setBrush_dramCycle (b : Fin 16) (g : Brush → Brush) : (s.setBrush b g).dramCycle = s.dramCycle := rfl
@[simp] theorem setBrush_hostCycle (b : Fin 16) (g : Brush → Brush) : (s.setBrush b g).hostCycle = s.hostCycle := rfl
@[simp] theorem setBrush_tap (b : Fin 16) (g : Brush → Brush) : (s.setBrush b g).tap = s.tap := rfl

/-! `setEnc` -/
@[simp] theorem setEnc_pending (n : Fin 4) (g : Enc → Enc) : (s.setEnc n g).pending = s.pending := rfl
@[simp] theorem setEnc_regs (n : Fin 4) (g : Enc → Enc) : (s.setEnc n g).regs = s.regs := rfl
@[simp] theorem setEnc_active (n : Fin 4) (g : Enc → Enc) : (s.setEnc n g).active = s.active := rfl
@[simp] theorem setEnc_snap (n : Fin 4) (g : Enc → Enc) : (s.setEnc n g).snap = s.snap := rfl
@[simp] theorem setEnc_mem (n : Fin 4) (g : Enc → Enc) : (s.setEnc n g).mem = s.mem := rfl
@[simp] theorem setEnc_memErr (n : Fin 4) (g : Enc → Enc) : (s.setEnc n g).memErr = s.memErr := rfl
@[simp] theorem setEnc_commitAt (n : Fin 4) (g : Enc → Enc) : (s.setEnc n g).commitAt = s.commitAt := rfl
@[simp] theorem setEnc_shadowWas (n : Fin 4) (g : Enc → Enc) : (s.setEnc n g).shadowWas = s.shadowWas := rfl
@[simp] theorem setEnc_enteredAt (n : Fin 4) (g : Enc → Enc) : (s.setEnc n g).enteredAt = s.enteredAt := rfl
@[simp] theorem setEnc_lastEv (n : Fin 4) (g : Enc → Enc) : (s.setEnc n g).lastEv = s.lastEv := rfl
@[simp] theorem setEnc_freeCtr (n : Fin 4) (g : Enc → Enc) : (s.setEnc n g).freeCtr = s.freeCtr := rfl
@[simp] theorem setEnc_lanes (n : Fin 4) (g : Enc → Enc) : (s.setEnc n g).lanes = s.lanes := rfl
@[simp] theorem setEnc_heads (n : Fin 4) (g : Enc → Enc) : (s.setEnc n g).heads = s.heads := rfl
@[simp] theorem setEnc_time (n : Fin 4) (g : Enc → Enc) : (s.setEnc n g).time = s.time := rfl
@[simp] theorem setEnc_clk (n : Fin 4) (g : Enc → Enc) : (s.setEnc n g).clk = s.clk := rfl
@[simp] theorem setEnc_pwr (n : Fin 4) (g : Enc → Enc) : (s.setEnc n g).pwr = s.pwr := rfl
@[simp] theorem setEnc_ev (n : Fin 4) (g : Enc → Enc) : (s.setEnc n g).ev = s.ev := rfl
@[simp] theorem setEnc_knife (n : Fin 4) (g : Enc → Enc) : (s.setEnc n g).knife = s.knife := rfl
@[simp] theorem setEnc_dip (n : Fin 4) (g : Enc → Enc) : (s.setEnc n g).dip = s.dip := rfl
@[simp] theorem setEnc_rcd (n : Fin 4) (g : Enc → Enc) : (s.setEnc n g).rcd = s.rcd := rfl
@[simp] theorem setEnc_brushes (n : Fin 4) (g : Enc → Enc) : (s.setEnc n g).brushes = s.brushes := rfl
@[simp] theorem setEnc_lasers (n : Fin 4) (g : Enc → Enc) : (s.setEnc n g).lasers = s.lasers := rfl
@[simp] theorem setEnc_encs (n : Fin 4) (g : Enc → Enc) : (s.setEnc n g).encs = s.encs.set n (g s.encs[n]) := rfl
@[simp] theorem setEnc_medium (n : Fin 4) (g : Enc → Enc) : (s.setEnc n g).medium = s.medium := rfl
@[simp] theorem setEnc_cal (n : Fin 4) (g : Enc → Enc) : (s.setEnc n g).cal = s.cal := rfl
@[simp] theorem setEnc_bist (n : Fin 4) (g : Enc → Enc) : (s.setEnc n g).bist = s.bist := rfl
@[simp] theorem setEnc_therm (n : Fin 4) (g : Enc → Enc) : (s.setEnc n g).therm = s.therm := rfl
@[simp] theorem setEnc_rasters (n : Fin 4) (g : Enc → Enc) : (s.setEnc n g).rasters = s.rasters := rfl
@[simp] theorem setEnc_glazes (n : Fin 4) (g : Enc → Enc) : (s.setEnc n g).glazes = s.glazes := rfl
@[simp] theorem setEnc_axes (n : Fin 4) (g : Enc → Enc) : (s.setEnc n g).axes = s.axes := rfl
@[simp] theorem setEnc_engines (n : Fin 4) (g : Enc → Enc) : (s.setEnc n g).engines = s.engines := rfl
@[simp] theorem setEnc_steppers (n : Fin 4) (g : Enc → Enc) : (s.setEnc n g).steppers = s.steppers := rfl
@[simp] theorem setEnc_cams (n : Fin 4) (g : Enc → Enc) : (s.setEnc n g).cams = s.cams := rfl
@[simp] theorem setEnc_camPorts (n : Fin 4) (g : Enc → Enc) : (s.setEnc n g).camPorts = s.camPorts := rfl
@[simp] theorem setEnc_streams (n : Fin 4) (g : Enc → Enc) : (s.setEnc n g).streams = s.streams := rfl
@[simp] theorem setEnc_trigs (n : Fin 4) (g : Enc → Enc) : (s.setEnc n g).trigs = s.trigs := rfl
@[simp] theorem setEnc_vision (n : Fin 4) (g : Enc → Enc) : (s.setEnc n g).vision = s.vision := rfl
@[simp] theorem setEnc_lights (n : Fin 4) (g : Enc → Enc) : (s.setEnc n g).lights = s.lights := rfl
@[simp] theorem setEnc_bankTest (n : Fin 4) (g : Enc → Enc) : (s.setEnc n g).bankTest = s.bankTest := rfl
@[simp] theorem setEnc_xch (n : Fin 4) (g : Enc → Enc) : (s.setEnc n g).xch = s.xch := rfl
@[simp] theorem setEnc_drams (n : Fin 4) (g : Enc → Enc) : (s.setEnc n g).drams = s.drams := rfl
@[simp] theorem setEnc_training (n : Fin 4) (g : Enc → Enc) : (s.setEnc n g).training = s.training := rfl
@[simp] theorem setEnc_retrain (n : Fin 4) (g : Enc → Enc) : (s.setEnc n g).retrain = s.retrain := rfl
@[simp] theorem setEnc_sweeps (n : Fin 4) (g : Enc → Enc) : (s.setEnc n g).sweeps = s.sweeps := rfl
@[simp] theorem setEnc_dramCycle (n : Fin 4) (g : Enc → Enc) : (s.setEnc n g).dramCycle = s.dramCycle := rfl
@[simp] theorem setEnc_hostCycle (n : Fin 4) (g : Enc → Enc) : (s.setEnc n g).hostCycle = s.hostCycle := rfl
@[simp] theorem setEnc_tap (n : Fin 4) (g : Enc → Enc) : (s.setEnc n g).tap = s.tap := rfl

/-! `setAxis` -/
@[simp] theorem setAxis_pending (a : Fin 64) (g : Axis → Axis) : (s.setAxis a g).pending = s.pending := rfl
@[simp] theorem setAxis_regs (a : Fin 64) (g : Axis → Axis) : (s.setAxis a g).regs = s.regs := rfl
@[simp] theorem setAxis_active (a : Fin 64) (g : Axis → Axis) : (s.setAxis a g).active = s.active := rfl
@[simp] theorem setAxis_snap (a : Fin 64) (g : Axis → Axis) : (s.setAxis a g).snap = s.snap := rfl
@[simp] theorem setAxis_mem (a : Fin 64) (g : Axis → Axis) : (s.setAxis a g).mem = s.mem := rfl
@[simp] theorem setAxis_memErr (a : Fin 64) (g : Axis → Axis) : (s.setAxis a g).memErr = s.memErr := rfl
@[simp] theorem setAxis_commitAt (a : Fin 64) (g : Axis → Axis) : (s.setAxis a g).commitAt = s.commitAt := rfl
@[simp] theorem setAxis_shadowWas (a : Fin 64) (g : Axis → Axis) : (s.setAxis a g).shadowWas = s.shadowWas := rfl
@[simp] theorem setAxis_enteredAt (a : Fin 64) (g : Axis → Axis) : (s.setAxis a g).enteredAt = s.enteredAt := rfl
@[simp] theorem setAxis_lastEv (a : Fin 64) (g : Axis → Axis) : (s.setAxis a g).lastEv = s.lastEv := rfl
@[simp] theorem setAxis_freeCtr (a : Fin 64) (g : Axis → Axis) : (s.setAxis a g).freeCtr = s.freeCtr := rfl
@[simp] theorem setAxis_lanes (a : Fin 64) (g : Axis → Axis) : (s.setAxis a g).lanes = s.lanes := rfl
@[simp] theorem setAxis_heads (a : Fin 64) (g : Axis → Axis) : (s.setAxis a g).heads = s.heads := rfl
@[simp] theorem setAxis_time (a : Fin 64) (g : Axis → Axis) : (s.setAxis a g).time = s.time := rfl
@[simp] theorem setAxis_clk (a : Fin 64) (g : Axis → Axis) : (s.setAxis a g).clk = s.clk := rfl
@[simp] theorem setAxis_pwr (a : Fin 64) (g : Axis → Axis) : (s.setAxis a g).pwr = s.pwr := rfl
@[simp] theorem setAxis_ev (a : Fin 64) (g : Axis → Axis) : (s.setAxis a g).ev = s.ev := rfl
@[simp] theorem setAxis_knife (a : Fin 64) (g : Axis → Axis) : (s.setAxis a g).knife = s.knife := rfl
@[simp] theorem setAxis_dip (a : Fin 64) (g : Axis → Axis) : (s.setAxis a g).dip = s.dip := rfl
@[simp] theorem setAxis_rcd (a : Fin 64) (g : Axis → Axis) : (s.setAxis a g).rcd = s.rcd := rfl
@[simp] theorem setAxis_brushes (a : Fin 64) (g : Axis → Axis) : (s.setAxis a g).brushes = s.brushes := rfl
@[simp] theorem setAxis_lasers (a : Fin 64) (g : Axis → Axis) : (s.setAxis a g).lasers = s.lasers := rfl
@[simp] theorem setAxis_encs (a : Fin 64) (g : Axis → Axis) : (s.setAxis a g).encs = s.encs := rfl
@[simp] theorem setAxis_medium (a : Fin 64) (g : Axis → Axis) : (s.setAxis a g).medium = s.medium := rfl
@[simp] theorem setAxis_cal (a : Fin 64) (g : Axis → Axis) : (s.setAxis a g).cal = s.cal := rfl
@[simp] theorem setAxis_bist (a : Fin 64) (g : Axis → Axis) : (s.setAxis a g).bist = s.bist := rfl
@[simp] theorem setAxis_therm (a : Fin 64) (g : Axis → Axis) : (s.setAxis a g).therm = s.therm := rfl
@[simp] theorem setAxis_rasters (a : Fin 64) (g : Axis → Axis) : (s.setAxis a g).rasters = s.rasters := rfl
@[simp] theorem setAxis_glazes (a : Fin 64) (g : Axis → Axis) : (s.setAxis a g).glazes = s.glazes := rfl
@[simp] theorem setAxis_axes (a : Fin 64) (g : Axis → Axis) : (s.setAxis a g).axes = s.axes.set a (g s.axes[a]) := rfl
@[simp] theorem setAxis_engines (a : Fin 64) (g : Axis → Axis) : (s.setAxis a g).engines = s.engines := rfl
@[simp] theorem setAxis_steppers (a : Fin 64) (g : Axis → Axis) : (s.setAxis a g).steppers = s.steppers := rfl
@[simp] theorem setAxis_cams (a : Fin 64) (g : Axis → Axis) : (s.setAxis a g).cams = s.cams := rfl
@[simp] theorem setAxis_camPorts (a : Fin 64) (g : Axis → Axis) : (s.setAxis a g).camPorts = s.camPorts := rfl
@[simp] theorem setAxis_streams (a : Fin 64) (g : Axis → Axis) : (s.setAxis a g).streams = s.streams := rfl
@[simp] theorem setAxis_trigs (a : Fin 64) (g : Axis → Axis) : (s.setAxis a g).trigs = s.trigs := rfl
@[simp] theorem setAxis_vision (a : Fin 64) (g : Axis → Axis) : (s.setAxis a g).vision = s.vision := rfl
@[simp] theorem setAxis_lights (a : Fin 64) (g : Axis → Axis) : (s.setAxis a g).lights = s.lights := rfl
@[simp] theorem setAxis_bankTest (a : Fin 64) (g : Axis → Axis) : (s.setAxis a g).bankTest = s.bankTest := rfl
@[simp] theorem setAxis_xch (a : Fin 64) (g : Axis → Axis) : (s.setAxis a g).xch = s.xch := rfl
@[simp] theorem setAxis_drams (a : Fin 64) (g : Axis → Axis) : (s.setAxis a g).drams = s.drams := rfl
@[simp] theorem setAxis_training (a : Fin 64) (g : Axis → Axis) : (s.setAxis a g).training = s.training := rfl
@[simp] theorem setAxis_retrain (a : Fin 64) (g : Axis → Axis) : (s.setAxis a g).retrain = s.retrain := rfl
@[simp] theorem setAxis_sweeps (a : Fin 64) (g : Axis → Axis) : (s.setAxis a g).sweeps = s.sweeps := rfl
@[simp] theorem setAxis_dramCycle (a : Fin 64) (g : Axis → Axis) : (s.setAxis a g).dramCycle = s.dramCycle := rfl
@[simp] theorem setAxis_hostCycle (a : Fin 64) (g : Axis → Axis) : (s.setAxis a g).hostCycle = s.hostCycle := rfl
@[simp] theorem setAxis_tap (a : Fin 64) (g : Axis → Axis) : (s.setAxis a g).tap = s.tap := rfl

/-! `setEngine` -/
@[simp] theorem setEngine_pending (e : Fin 4) (g : Engine → Engine) : (s.setEngine e g).pending = s.pending := rfl
@[simp] theorem setEngine_regs (e : Fin 4) (g : Engine → Engine) : (s.setEngine e g).regs = s.regs := rfl
@[simp] theorem setEngine_active (e : Fin 4) (g : Engine → Engine) : (s.setEngine e g).active = s.active := rfl
@[simp] theorem setEngine_snap (e : Fin 4) (g : Engine → Engine) : (s.setEngine e g).snap = s.snap := rfl
@[simp] theorem setEngine_mem (e : Fin 4) (g : Engine → Engine) : (s.setEngine e g).mem = s.mem := rfl
@[simp] theorem setEngine_memErr (e : Fin 4) (g : Engine → Engine) : (s.setEngine e g).memErr = s.memErr := rfl
@[simp] theorem setEngine_commitAt (e : Fin 4) (g : Engine → Engine) : (s.setEngine e g).commitAt = s.commitAt := rfl
@[simp] theorem setEngine_shadowWas (e : Fin 4) (g : Engine → Engine) : (s.setEngine e g).shadowWas = s.shadowWas := rfl
@[simp] theorem setEngine_enteredAt (e : Fin 4) (g : Engine → Engine) : (s.setEngine e g).enteredAt = s.enteredAt := rfl
@[simp] theorem setEngine_lastEv (e : Fin 4) (g : Engine → Engine) : (s.setEngine e g).lastEv = s.lastEv := rfl
@[simp] theorem setEngine_freeCtr (e : Fin 4) (g : Engine → Engine) : (s.setEngine e g).freeCtr = s.freeCtr := rfl
@[simp] theorem setEngine_lanes (e : Fin 4) (g : Engine → Engine) : (s.setEngine e g).lanes = s.lanes := rfl
@[simp] theorem setEngine_heads (e : Fin 4) (g : Engine → Engine) : (s.setEngine e g).heads = s.heads := rfl
@[simp] theorem setEngine_time (e : Fin 4) (g : Engine → Engine) : (s.setEngine e g).time = s.time := rfl
@[simp] theorem setEngine_clk (e : Fin 4) (g : Engine → Engine) : (s.setEngine e g).clk = s.clk := rfl
@[simp] theorem setEngine_pwr (e : Fin 4) (g : Engine → Engine) : (s.setEngine e g).pwr = s.pwr := rfl
@[simp] theorem setEngine_ev (e : Fin 4) (g : Engine → Engine) : (s.setEngine e g).ev = s.ev := rfl
@[simp] theorem setEngine_knife (e : Fin 4) (g : Engine → Engine) : (s.setEngine e g).knife = s.knife := rfl
@[simp] theorem setEngine_dip (e : Fin 4) (g : Engine → Engine) : (s.setEngine e g).dip = s.dip := rfl
@[simp] theorem setEngine_rcd (e : Fin 4) (g : Engine → Engine) : (s.setEngine e g).rcd = s.rcd := rfl
@[simp] theorem setEngine_brushes (e : Fin 4) (g : Engine → Engine) : (s.setEngine e g).brushes = s.brushes := rfl
@[simp] theorem setEngine_lasers (e : Fin 4) (g : Engine → Engine) : (s.setEngine e g).lasers = s.lasers := rfl
@[simp] theorem setEngine_encs (e : Fin 4) (g : Engine → Engine) : (s.setEngine e g).encs = s.encs := rfl
@[simp] theorem setEngine_medium (e : Fin 4) (g : Engine → Engine) : (s.setEngine e g).medium = s.medium := rfl
@[simp] theorem setEngine_cal (e : Fin 4) (g : Engine → Engine) : (s.setEngine e g).cal = s.cal := rfl
@[simp] theorem setEngine_bist (e : Fin 4) (g : Engine → Engine) : (s.setEngine e g).bist = s.bist := rfl
@[simp] theorem setEngine_therm (e : Fin 4) (g : Engine → Engine) : (s.setEngine e g).therm = s.therm := rfl
@[simp] theorem setEngine_rasters (e : Fin 4) (g : Engine → Engine) : (s.setEngine e g).rasters = s.rasters := rfl
@[simp] theorem setEngine_glazes (e : Fin 4) (g : Engine → Engine) : (s.setEngine e g).glazes = s.glazes := rfl
@[simp] theorem setEngine_axes (e : Fin 4) (g : Engine → Engine) : (s.setEngine e g).axes = s.axes := rfl
@[simp] theorem setEngine_engines (e : Fin 4) (g : Engine → Engine) : (s.setEngine e g).engines = s.engines.set e (g s.engines[e]) := rfl
@[simp] theorem setEngine_steppers (e : Fin 4) (g : Engine → Engine) : (s.setEngine e g).steppers = s.steppers := rfl
@[simp] theorem setEngine_cams (e : Fin 4) (g : Engine → Engine) : (s.setEngine e g).cams = s.cams := rfl
@[simp] theorem setEngine_camPorts (e : Fin 4) (g : Engine → Engine) : (s.setEngine e g).camPorts = s.camPorts := rfl
@[simp] theorem setEngine_streams (e : Fin 4) (g : Engine → Engine) : (s.setEngine e g).streams = s.streams := rfl
@[simp] theorem setEngine_trigs (e : Fin 4) (g : Engine → Engine) : (s.setEngine e g).trigs = s.trigs := rfl
@[simp] theorem setEngine_vision (e : Fin 4) (g : Engine → Engine) : (s.setEngine e g).vision = s.vision := rfl
@[simp] theorem setEngine_lights (e : Fin 4) (g : Engine → Engine) : (s.setEngine e g).lights = s.lights := rfl
@[simp] theorem setEngine_bankTest (e : Fin 4) (g : Engine → Engine) : (s.setEngine e g).bankTest = s.bankTest := rfl
@[simp] theorem setEngine_xch (e : Fin 4) (g : Engine → Engine) : (s.setEngine e g).xch = s.xch := rfl
@[simp] theorem setEngine_drams (e : Fin 4) (g : Engine → Engine) : (s.setEngine e g).drams = s.drams := rfl
@[simp] theorem setEngine_training (e : Fin 4) (g : Engine → Engine) : (s.setEngine e g).training = s.training := rfl
@[simp] theorem setEngine_retrain (e : Fin 4) (g : Engine → Engine) : (s.setEngine e g).retrain = s.retrain := rfl
@[simp] theorem setEngine_sweeps (e : Fin 4) (g : Engine → Engine) : (s.setEngine e g).sweeps = s.sweeps := rfl
@[simp] theorem setEngine_dramCycle (e : Fin 4) (g : Engine → Engine) : (s.setEngine e g).dramCycle = s.dramCycle := rfl
@[simp] theorem setEngine_hostCycle (e : Fin 4) (g : Engine → Engine) : (s.setEngine e g).hostCycle = s.hostCycle := rfl
@[simp] theorem setEngine_tap (e : Fin 4) (g : Engine → Engine) : (s.setEngine e g).tap = s.tap := rfl

/-! `setStepper` -/
@[simp] theorem setStepper_pending (n : Fin 8) (g : Stepper → Stepper) : (s.setStepper n g).pending = s.pending := rfl
@[simp] theorem setStepper_regs (n : Fin 8) (g : Stepper → Stepper) : (s.setStepper n g).regs = s.regs := rfl
@[simp] theorem setStepper_active (n : Fin 8) (g : Stepper → Stepper) : (s.setStepper n g).active = s.active := rfl
@[simp] theorem setStepper_snap (n : Fin 8) (g : Stepper → Stepper) : (s.setStepper n g).snap = s.snap := rfl
@[simp] theorem setStepper_mem (n : Fin 8) (g : Stepper → Stepper) : (s.setStepper n g).mem = s.mem := rfl
@[simp] theorem setStepper_memErr (n : Fin 8) (g : Stepper → Stepper) : (s.setStepper n g).memErr = s.memErr := rfl
@[simp] theorem setStepper_commitAt (n : Fin 8) (g : Stepper → Stepper) : (s.setStepper n g).commitAt = s.commitAt := rfl
@[simp] theorem setStepper_shadowWas (n : Fin 8) (g : Stepper → Stepper) : (s.setStepper n g).shadowWas = s.shadowWas := rfl
@[simp] theorem setStepper_enteredAt (n : Fin 8) (g : Stepper → Stepper) : (s.setStepper n g).enteredAt = s.enteredAt := rfl
@[simp] theorem setStepper_lastEv (n : Fin 8) (g : Stepper → Stepper) : (s.setStepper n g).lastEv = s.lastEv := rfl
@[simp] theorem setStepper_freeCtr (n : Fin 8) (g : Stepper → Stepper) : (s.setStepper n g).freeCtr = s.freeCtr := rfl
@[simp] theorem setStepper_lanes (n : Fin 8) (g : Stepper → Stepper) : (s.setStepper n g).lanes = s.lanes := rfl
@[simp] theorem setStepper_heads (n : Fin 8) (g : Stepper → Stepper) : (s.setStepper n g).heads = s.heads := rfl
@[simp] theorem setStepper_time (n : Fin 8) (g : Stepper → Stepper) : (s.setStepper n g).time = s.time := rfl
@[simp] theorem setStepper_clk (n : Fin 8) (g : Stepper → Stepper) : (s.setStepper n g).clk = s.clk := rfl
@[simp] theorem setStepper_pwr (n : Fin 8) (g : Stepper → Stepper) : (s.setStepper n g).pwr = s.pwr := rfl
@[simp] theorem setStepper_ev (n : Fin 8) (g : Stepper → Stepper) : (s.setStepper n g).ev = s.ev := rfl
@[simp] theorem setStepper_knife (n : Fin 8) (g : Stepper → Stepper) : (s.setStepper n g).knife = s.knife := rfl
@[simp] theorem setStepper_dip (n : Fin 8) (g : Stepper → Stepper) : (s.setStepper n g).dip = s.dip := rfl
@[simp] theorem setStepper_rcd (n : Fin 8) (g : Stepper → Stepper) : (s.setStepper n g).rcd = s.rcd := rfl
@[simp] theorem setStepper_brushes (n : Fin 8) (g : Stepper → Stepper) : (s.setStepper n g).brushes = s.brushes := rfl
@[simp] theorem setStepper_lasers (n : Fin 8) (g : Stepper → Stepper) : (s.setStepper n g).lasers = s.lasers := rfl
@[simp] theorem setStepper_encs (n : Fin 8) (g : Stepper → Stepper) : (s.setStepper n g).encs = s.encs := rfl
@[simp] theorem setStepper_medium (n : Fin 8) (g : Stepper → Stepper) : (s.setStepper n g).medium = s.medium := rfl
@[simp] theorem setStepper_cal (n : Fin 8) (g : Stepper → Stepper) : (s.setStepper n g).cal = s.cal := rfl
@[simp] theorem setStepper_bist (n : Fin 8) (g : Stepper → Stepper) : (s.setStepper n g).bist = s.bist := rfl
@[simp] theorem setStepper_therm (n : Fin 8) (g : Stepper → Stepper) : (s.setStepper n g).therm = s.therm := rfl
@[simp] theorem setStepper_rasters (n : Fin 8) (g : Stepper → Stepper) : (s.setStepper n g).rasters = s.rasters := rfl
@[simp] theorem setStepper_glazes (n : Fin 8) (g : Stepper → Stepper) : (s.setStepper n g).glazes = s.glazes := rfl
@[simp] theorem setStepper_axes (n : Fin 8) (g : Stepper → Stepper) : (s.setStepper n g).axes = s.axes := rfl
@[simp] theorem setStepper_engines (n : Fin 8) (g : Stepper → Stepper) : (s.setStepper n g).engines = s.engines := rfl
@[simp] theorem setStepper_steppers (n : Fin 8) (g : Stepper → Stepper) : (s.setStepper n g).steppers = s.steppers.set n (g s.steppers[n]) := rfl
@[simp] theorem setStepper_cams (n : Fin 8) (g : Stepper → Stepper) : (s.setStepper n g).cams = s.cams := rfl
@[simp] theorem setStepper_camPorts (n : Fin 8) (g : Stepper → Stepper) : (s.setStepper n g).camPorts = s.camPorts := rfl
@[simp] theorem setStepper_streams (n : Fin 8) (g : Stepper → Stepper) : (s.setStepper n g).streams = s.streams := rfl
@[simp] theorem setStepper_trigs (n : Fin 8) (g : Stepper → Stepper) : (s.setStepper n g).trigs = s.trigs := rfl
@[simp] theorem setStepper_vision (n : Fin 8) (g : Stepper → Stepper) : (s.setStepper n g).vision = s.vision := rfl
@[simp] theorem setStepper_lights (n : Fin 8) (g : Stepper → Stepper) : (s.setStepper n g).lights = s.lights := rfl
@[simp] theorem setStepper_bankTest (n : Fin 8) (g : Stepper → Stepper) : (s.setStepper n g).bankTest = s.bankTest := rfl
@[simp] theorem setStepper_xch (n : Fin 8) (g : Stepper → Stepper) : (s.setStepper n g).xch = s.xch := rfl
@[simp] theorem setStepper_drams (n : Fin 8) (g : Stepper → Stepper) : (s.setStepper n g).drams = s.drams := rfl
@[simp] theorem setStepper_training (n : Fin 8) (g : Stepper → Stepper) : (s.setStepper n g).training = s.training := rfl
@[simp] theorem setStepper_retrain (n : Fin 8) (g : Stepper → Stepper) : (s.setStepper n g).retrain = s.retrain := rfl
@[simp] theorem setStepper_sweeps (n : Fin 8) (g : Stepper → Stepper) : (s.setStepper n g).sweeps = s.sweeps := rfl
@[simp] theorem setStepper_dramCycle (n : Fin 8) (g : Stepper → Stepper) : (s.setStepper n g).dramCycle = s.dramCycle := rfl
@[simp] theorem setStepper_hostCycle (n : Fin 8) (g : Stepper → Stepper) : (s.setStepper n g).hostCycle = s.hostCycle := rfl
@[simp] theorem setStepper_tap (n : Fin 8) (g : Stepper → Stepper) : (s.setStepper n g).tap = s.tap := rfl

/-! `setStream` -/
@[simp] theorem setStream_pending (k : Fin 32) (g : Stream → Stream) : (s.setStream k g).pending = s.pending := rfl
@[simp] theorem setStream_regs (k : Fin 32) (g : Stream → Stream) : (s.setStream k g).regs = s.regs := rfl
@[simp] theorem setStream_active (k : Fin 32) (g : Stream → Stream) : (s.setStream k g).active = s.active := rfl
@[simp] theorem setStream_snap (k : Fin 32) (g : Stream → Stream) : (s.setStream k g).snap = s.snap := rfl
@[simp] theorem setStream_mem (k : Fin 32) (g : Stream → Stream) : (s.setStream k g).mem = s.mem := rfl
@[simp] theorem setStream_memErr (k : Fin 32) (g : Stream → Stream) : (s.setStream k g).memErr = s.memErr := rfl
@[simp] theorem setStream_commitAt (k : Fin 32) (g : Stream → Stream) : (s.setStream k g).commitAt = s.commitAt := rfl
@[simp] theorem setStream_shadowWas (k : Fin 32) (g : Stream → Stream) : (s.setStream k g).shadowWas = s.shadowWas := rfl
@[simp] theorem setStream_enteredAt (k : Fin 32) (g : Stream → Stream) : (s.setStream k g).enteredAt = s.enteredAt := rfl
@[simp] theorem setStream_lastEv (k : Fin 32) (g : Stream → Stream) : (s.setStream k g).lastEv = s.lastEv := rfl
@[simp] theorem setStream_freeCtr (k : Fin 32) (g : Stream → Stream) : (s.setStream k g).freeCtr = s.freeCtr := rfl
@[simp] theorem setStream_lanes (k : Fin 32) (g : Stream → Stream) : (s.setStream k g).lanes = s.lanes := rfl
@[simp] theorem setStream_heads (k : Fin 32) (g : Stream → Stream) : (s.setStream k g).heads = s.heads := rfl
@[simp] theorem setStream_time (k : Fin 32) (g : Stream → Stream) : (s.setStream k g).time = s.time := rfl
@[simp] theorem setStream_clk (k : Fin 32) (g : Stream → Stream) : (s.setStream k g).clk = s.clk := rfl
@[simp] theorem setStream_pwr (k : Fin 32) (g : Stream → Stream) : (s.setStream k g).pwr = s.pwr := rfl
@[simp] theorem setStream_ev (k : Fin 32) (g : Stream → Stream) : (s.setStream k g).ev = s.ev := rfl
@[simp] theorem setStream_knife (k : Fin 32) (g : Stream → Stream) : (s.setStream k g).knife = s.knife := rfl
@[simp] theorem setStream_dip (k : Fin 32) (g : Stream → Stream) : (s.setStream k g).dip = s.dip := rfl
@[simp] theorem setStream_rcd (k : Fin 32) (g : Stream → Stream) : (s.setStream k g).rcd = s.rcd := rfl
@[simp] theorem setStream_brushes (k : Fin 32) (g : Stream → Stream) : (s.setStream k g).brushes = s.brushes := rfl
@[simp] theorem setStream_lasers (k : Fin 32) (g : Stream → Stream) : (s.setStream k g).lasers = s.lasers := rfl
@[simp] theorem setStream_encs (k : Fin 32) (g : Stream → Stream) : (s.setStream k g).encs = s.encs := rfl
@[simp] theorem setStream_medium (k : Fin 32) (g : Stream → Stream) : (s.setStream k g).medium = s.medium := rfl
@[simp] theorem setStream_cal (k : Fin 32) (g : Stream → Stream) : (s.setStream k g).cal = s.cal := rfl
@[simp] theorem setStream_bist (k : Fin 32) (g : Stream → Stream) : (s.setStream k g).bist = s.bist := rfl
@[simp] theorem setStream_therm (k : Fin 32) (g : Stream → Stream) : (s.setStream k g).therm = s.therm := rfl
@[simp] theorem setStream_rasters (k : Fin 32) (g : Stream → Stream) : (s.setStream k g).rasters = s.rasters := rfl
@[simp] theorem setStream_glazes (k : Fin 32) (g : Stream → Stream) : (s.setStream k g).glazes = s.glazes := rfl
@[simp] theorem setStream_axes (k : Fin 32) (g : Stream → Stream) : (s.setStream k g).axes = s.axes := rfl
@[simp] theorem setStream_engines (k : Fin 32) (g : Stream → Stream) : (s.setStream k g).engines = s.engines := rfl
@[simp] theorem setStream_steppers (k : Fin 32) (g : Stream → Stream) : (s.setStream k g).steppers = s.steppers := rfl
@[simp] theorem setStream_cams (k : Fin 32) (g : Stream → Stream) : (s.setStream k g).cams = s.cams := rfl
@[simp] theorem setStream_camPorts (k : Fin 32) (g : Stream → Stream) : (s.setStream k g).camPorts = s.camPorts := rfl
@[simp] theorem setStream_streams (k : Fin 32) (g : Stream → Stream) : (s.setStream k g).streams = s.streams.set k (g s.streams[k]) := rfl
@[simp] theorem setStream_trigs (k : Fin 32) (g : Stream → Stream) : (s.setStream k g).trigs = s.trigs := rfl
@[simp] theorem setStream_vision (k : Fin 32) (g : Stream → Stream) : (s.setStream k g).vision = s.vision := rfl
@[simp] theorem setStream_lights (k : Fin 32) (g : Stream → Stream) : (s.setStream k g).lights = s.lights := rfl
@[simp] theorem setStream_bankTest (k : Fin 32) (g : Stream → Stream) : (s.setStream k g).bankTest = s.bankTest := rfl
@[simp] theorem setStream_xch (k : Fin 32) (g : Stream → Stream) : (s.setStream k g).xch = s.xch := rfl
@[simp] theorem setStream_drams (k : Fin 32) (g : Stream → Stream) : (s.setStream k g).drams = s.drams := rfl
@[simp] theorem setStream_training (k : Fin 32) (g : Stream → Stream) : (s.setStream k g).training = s.training := rfl
@[simp] theorem setStream_retrain (k : Fin 32) (g : Stream → Stream) : (s.setStream k g).retrain = s.retrain := rfl
@[simp] theorem setStream_sweeps (k : Fin 32) (g : Stream → Stream) : (s.setStream k g).sweeps = s.sweeps := rfl
@[simp] theorem setStream_dramCycle (k : Fin 32) (g : Stream → Stream) : (s.setStream k g).dramCycle = s.dramCycle := rfl
@[simp] theorem setStream_hostCycle (k : Fin 32) (g : Stream → Stream) : (s.setStream k g).hostCycle = s.hostCycle := rfl
@[simp] theorem setStream_tap (k : Fin 32) (g : Stream → Stream) : (s.setStream k g).tap = s.tap := rfl

/-! `setTrig` -/
@[simp] theorem setTrig_pending (o : Fin 8) (g : Trig → Trig) : (s.setTrig o g).pending = s.pending := rfl
@[simp] theorem setTrig_regs (o : Fin 8) (g : Trig → Trig) : (s.setTrig o g).regs = s.regs := rfl
@[simp] theorem setTrig_active (o : Fin 8) (g : Trig → Trig) : (s.setTrig o g).active = s.active := rfl
@[simp] theorem setTrig_snap (o : Fin 8) (g : Trig → Trig) : (s.setTrig o g).snap = s.snap := rfl
@[simp] theorem setTrig_mem (o : Fin 8) (g : Trig → Trig) : (s.setTrig o g).mem = s.mem := rfl
@[simp] theorem setTrig_memErr (o : Fin 8) (g : Trig → Trig) : (s.setTrig o g).memErr = s.memErr := rfl
@[simp] theorem setTrig_commitAt (o : Fin 8) (g : Trig → Trig) : (s.setTrig o g).commitAt = s.commitAt := rfl
@[simp] theorem setTrig_shadowWas (o : Fin 8) (g : Trig → Trig) : (s.setTrig o g).shadowWas = s.shadowWas := rfl
@[simp] theorem setTrig_enteredAt (o : Fin 8) (g : Trig → Trig) : (s.setTrig o g).enteredAt = s.enteredAt := rfl
@[simp] theorem setTrig_lastEv (o : Fin 8) (g : Trig → Trig) : (s.setTrig o g).lastEv = s.lastEv := rfl
@[simp] theorem setTrig_freeCtr (o : Fin 8) (g : Trig → Trig) : (s.setTrig o g).freeCtr = s.freeCtr := rfl
@[simp] theorem setTrig_lanes (o : Fin 8) (g : Trig → Trig) : (s.setTrig o g).lanes = s.lanes := rfl
@[simp] theorem setTrig_heads (o : Fin 8) (g : Trig → Trig) : (s.setTrig o g).heads = s.heads := rfl
@[simp] theorem setTrig_time (o : Fin 8) (g : Trig → Trig) : (s.setTrig o g).time = s.time := rfl
@[simp] theorem setTrig_clk (o : Fin 8) (g : Trig → Trig) : (s.setTrig o g).clk = s.clk := rfl
@[simp] theorem setTrig_pwr (o : Fin 8) (g : Trig → Trig) : (s.setTrig o g).pwr = s.pwr := rfl
@[simp] theorem setTrig_ev (o : Fin 8) (g : Trig → Trig) : (s.setTrig o g).ev = s.ev := rfl
@[simp] theorem setTrig_knife (o : Fin 8) (g : Trig → Trig) : (s.setTrig o g).knife = s.knife := rfl
@[simp] theorem setTrig_dip (o : Fin 8) (g : Trig → Trig) : (s.setTrig o g).dip = s.dip := rfl
@[simp] theorem setTrig_rcd (o : Fin 8) (g : Trig → Trig) : (s.setTrig o g).rcd = s.rcd := rfl
@[simp] theorem setTrig_brushes (o : Fin 8) (g : Trig → Trig) : (s.setTrig o g).brushes = s.brushes := rfl
@[simp] theorem setTrig_lasers (o : Fin 8) (g : Trig → Trig) : (s.setTrig o g).lasers = s.lasers := rfl
@[simp] theorem setTrig_encs (o : Fin 8) (g : Trig → Trig) : (s.setTrig o g).encs = s.encs := rfl
@[simp] theorem setTrig_medium (o : Fin 8) (g : Trig → Trig) : (s.setTrig o g).medium = s.medium := rfl
@[simp] theorem setTrig_cal (o : Fin 8) (g : Trig → Trig) : (s.setTrig o g).cal = s.cal := rfl
@[simp] theorem setTrig_bist (o : Fin 8) (g : Trig → Trig) : (s.setTrig o g).bist = s.bist := rfl
@[simp] theorem setTrig_therm (o : Fin 8) (g : Trig → Trig) : (s.setTrig o g).therm = s.therm := rfl
@[simp] theorem setTrig_rasters (o : Fin 8) (g : Trig → Trig) : (s.setTrig o g).rasters = s.rasters := rfl
@[simp] theorem setTrig_glazes (o : Fin 8) (g : Trig → Trig) : (s.setTrig o g).glazes = s.glazes := rfl
@[simp] theorem setTrig_axes (o : Fin 8) (g : Trig → Trig) : (s.setTrig o g).axes = s.axes := rfl
@[simp] theorem setTrig_engines (o : Fin 8) (g : Trig → Trig) : (s.setTrig o g).engines = s.engines := rfl
@[simp] theorem setTrig_steppers (o : Fin 8) (g : Trig → Trig) : (s.setTrig o g).steppers = s.steppers := rfl
@[simp] theorem setTrig_cams (o : Fin 8) (g : Trig → Trig) : (s.setTrig o g).cams = s.cams := rfl
@[simp] theorem setTrig_camPorts (o : Fin 8) (g : Trig → Trig) : (s.setTrig o g).camPorts = s.camPorts := rfl
@[simp] theorem setTrig_streams (o : Fin 8) (g : Trig → Trig) : (s.setTrig o g).streams = s.streams := rfl
@[simp] theorem setTrig_trigs (o : Fin 8) (g : Trig → Trig) : (s.setTrig o g).trigs = s.trigs.set o (g s.trigs[o]) := rfl
@[simp] theorem setTrig_vision (o : Fin 8) (g : Trig → Trig) : (s.setTrig o g).vision = s.vision := rfl
@[simp] theorem setTrig_lights (o : Fin 8) (g : Trig → Trig) : (s.setTrig o g).lights = s.lights := rfl
@[simp] theorem setTrig_bankTest (o : Fin 8) (g : Trig → Trig) : (s.setTrig o g).bankTest = s.bankTest := rfl
@[simp] theorem setTrig_xch (o : Fin 8) (g : Trig → Trig) : (s.setTrig o g).xch = s.xch := rfl
@[simp] theorem setTrig_drams (o : Fin 8) (g : Trig → Trig) : (s.setTrig o g).drams = s.drams := rfl
@[simp] theorem setTrig_training (o : Fin 8) (g : Trig → Trig) : (s.setTrig o g).training = s.training := rfl
@[simp] theorem setTrig_retrain (o : Fin 8) (g : Trig → Trig) : (s.setTrig o g).retrain = s.retrain := rfl
@[simp] theorem setTrig_sweeps (o : Fin 8) (g : Trig → Trig) : (s.setTrig o g).sweeps = s.sweeps := rfl
@[simp] theorem setTrig_dramCycle (o : Fin 8) (g : Trig → Trig) : (s.setTrig o g).dramCycle = s.dramCycle := rfl
@[simp] theorem setTrig_hostCycle (o : Fin 8) (g : Trig → Trig) : (s.setTrig o g).hostCycle = s.hostCycle := rfl
@[simp] theorem setTrig_tap (o : Fin 8) (g : Trig → Trig) : (s.setTrig o g).tap = s.tap := rfl

/-! `setDram` -/
@[simp] theorem setDram_pending (i : Fin 2) (g : DramSt → DramSt) : (s.setDram i g).pending = s.pending := rfl
@[simp] theorem setDram_regs (i : Fin 2) (g : DramSt → DramSt) : (s.setDram i g).regs = s.regs := rfl
@[simp] theorem setDram_active (i : Fin 2) (g : DramSt → DramSt) : (s.setDram i g).active = s.active := rfl
@[simp] theorem setDram_snap (i : Fin 2) (g : DramSt → DramSt) : (s.setDram i g).snap = s.snap := rfl
@[simp] theorem setDram_mem (i : Fin 2) (g : DramSt → DramSt) : (s.setDram i g).mem = s.mem := rfl
@[simp] theorem setDram_memErr (i : Fin 2) (g : DramSt → DramSt) : (s.setDram i g).memErr = s.memErr := rfl
@[simp] theorem setDram_commitAt (i : Fin 2) (g : DramSt → DramSt) : (s.setDram i g).commitAt = s.commitAt := rfl
@[simp] theorem setDram_shadowWas (i : Fin 2) (g : DramSt → DramSt) : (s.setDram i g).shadowWas = s.shadowWas := rfl
@[simp] theorem setDram_enteredAt (i : Fin 2) (g : DramSt → DramSt) : (s.setDram i g).enteredAt = s.enteredAt := rfl
@[simp] theorem setDram_lastEv (i : Fin 2) (g : DramSt → DramSt) : (s.setDram i g).lastEv = s.lastEv := rfl
@[simp] theorem setDram_freeCtr (i : Fin 2) (g : DramSt → DramSt) : (s.setDram i g).freeCtr = s.freeCtr := rfl
@[simp] theorem setDram_lanes (i : Fin 2) (g : DramSt → DramSt) : (s.setDram i g).lanes = s.lanes := rfl
@[simp] theorem setDram_heads (i : Fin 2) (g : DramSt → DramSt) : (s.setDram i g).heads = s.heads := rfl
@[simp] theorem setDram_time (i : Fin 2) (g : DramSt → DramSt) : (s.setDram i g).time = s.time := rfl
@[simp] theorem setDram_clk (i : Fin 2) (g : DramSt → DramSt) : (s.setDram i g).clk = s.clk := rfl
@[simp] theorem setDram_pwr (i : Fin 2) (g : DramSt → DramSt) : (s.setDram i g).pwr = s.pwr := rfl
@[simp] theorem setDram_ev (i : Fin 2) (g : DramSt → DramSt) : (s.setDram i g).ev = s.ev := rfl
@[simp] theorem setDram_knife (i : Fin 2) (g : DramSt → DramSt) : (s.setDram i g).knife = s.knife := rfl
@[simp] theorem setDram_dip (i : Fin 2) (g : DramSt → DramSt) : (s.setDram i g).dip = s.dip := rfl
@[simp] theorem setDram_rcd (i : Fin 2) (g : DramSt → DramSt) : (s.setDram i g).rcd = s.rcd := rfl
@[simp] theorem setDram_brushes (i : Fin 2) (g : DramSt → DramSt) : (s.setDram i g).brushes = s.brushes := rfl
@[simp] theorem setDram_lasers (i : Fin 2) (g : DramSt → DramSt) : (s.setDram i g).lasers = s.lasers := rfl
@[simp] theorem setDram_encs (i : Fin 2) (g : DramSt → DramSt) : (s.setDram i g).encs = s.encs := rfl
@[simp] theorem setDram_medium (i : Fin 2) (g : DramSt → DramSt) : (s.setDram i g).medium = s.medium := rfl
@[simp] theorem setDram_cal (i : Fin 2) (g : DramSt → DramSt) : (s.setDram i g).cal = s.cal := rfl
@[simp] theorem setDram_bist (i : Fin 2) (g : DramSt → DramSt) : (s.setDram i g).bist = s.bist := rfl
@[simp] theorem setDram_therm (i : Fin 2) (g : DramSt → DramSt) : (s.setDram i g).therm = s.therm := rfl
@[simp] theorem setDram_rasters (i : Fin 2) (g : DramSt → DramSt) : (s.setDram i g).rasters = s.rasters := rfl
@[simp] theorem setDram_glazes (i : Fin 2) (g : DramSt → DramSt) : (s.setDram i g).glazes = s.glazes := rfl
@[simp] theorem setDram_axes (i : Fin 2) (g : DramSt → DramSt) : (s.setDram i g).axes = s.axes := rfl
@[simp] theorem setDram_engines (i : Fin 2) (g : DramSt → DramSt) : (s.setDram i g).engines = s.engines := rfl
@[simp] theorem setDram_steppers (i : Fin 2) (g : DramSt → DramSt) : (s.setDram i g).steppers = s.steppers := rfl
@[simp] theorem setDram_cams (i : Fin 2) (g : DramSt → DramSt) : (s.setDram i g).cams = s.cams := rfl
@[simp] theorem setDram_camPorts (i : Fin 2) (g : DramSt → DramSt) : (s.setDram i g).camPorts = s.camPorts := rfl
@[simp] theorem setDram_streams (i : Fin 2) (g : DramSt → DramSt) : (s.setDram i g).streams = s.streams := rfl
@[simp] theorem setDram_trigs (i : Fin 2) (g : DramSt → DramSt) : (s.setDram i g).trigs = s.trigs := rfl
@[simp] theorem setDram_vision (i : Fin 2) (g : DramSt → DramSt) : (s.setDram i g).vision = s.vision := rfl
@[simp] theorem setDram_lights (i : Fin 2) (g : DramSt → DramSt) : (s.setDram i g).lights = s.lights := rfl
@[simp] theorem setDram_bankTest (i : Fin 2) (g : DramSt → DramSt) : (s.setDram i g).bankTest = s.bankTest := rfl
@[simp] theorem setDram_xch (i : Fin 2) (g : DramSt → DramSt) : (s.setDram i g).xch = s.xch := rfl
@[simp] theorem setDram_drams (i : Fin 2) (g : DramSt → DramSt) : (s.setDram i g).drams = s.drams.set i (g s.drams[i]) := rfl
@[simp] theorem setDram_training (i : Fin 2) (g : DramSt → DramSt) : (s.setDram i g).training = s.training := rfl
@[simp] theorem setDram_retrain (i : Fin 2) (g : DramSt → DramSt) : (s.setDram i g).retrain = s.retrain := rfl
@[simp] theorem setDram_sweeps (i : Fin 2) (g : DramSt → DramSt) : (s.setDram i g).sweeps = s.sweeps := rfl
@[simp] theorem setDram_dramCycle (i : Fin 2) (g : DramSt → DramSt) : (s.setDram i g).dramCycle = s.dramCycle := rfl
@[simp] theorem setDram_hostCycle (i : Fin 2) (g : DramSt → DramSt) : (s.setDram i g).hostCycle = s.hostCycle := rfl
@[simp] theorem setDram_tap (i : Fin 2) (g : DramSt → DramSt) : (s.setDram i g).tap = s.tap := rfl

/-! `setRaster` -/
@[simp] theorem setRaster_pending (b : Fin 16) (g : Raster → Raster) : (s.setRaster b g).pending = s.pending := rfl
@[simp] theorem setRaster_regs (b : Fin 16) (g : Raster → Raster) : (s.setRaster b g).regs = s.regs := rfl
@[simp] theorem setRaster_active (b : Fin 16) (g : Raster → Raster) : (s.setRaster b g).active = s.active := rfl
@[simp] theorem setRaster_snap (b : Fin 16) (g : Raster → Raster) : (s.setRaster b g).snap = s.snap := rfl
@[simp] theorem setRaster_mem (b : Fin 16) (g : Raster → Raster) : (s.setRaster b g).mem = s.mem := rfl
@[simp] theorem setRaster_memErr (b : Fin 16) (g : Raster → Raster) : (s.setRaster b g).memErr = s.memErr := rfl
@[simp] theorem setRaster_commitAt (b : Fin 16) (g : Raster → Raster) : (s.setRaster b g).commitAt = s.commitAt := rfl
@[simp] theorem setRaster_shadowWas (b : Fin 16) (g : Raster → Raster) : (s.setRaster b g).shadowWas = s.shadowWas := rfl
@[simp] theorem setRaster_enteredAt (b : Fin 16) (g : Raster → Raster) : (s.setRaster b g).enteredAt = s.enteredAt := rfl
@[simp] theorem setRaster_lastEv (b : Fin 16) (g : Raster → Raster) : (s.setRaster b g).lastEv = s.lastEv := rfl
@[simp] theorem setRaster_freeCtr (b : Fin 16) (g : Raster → Raster) : (s.setRaster b g).freeCtr = s.freeCtr := rfl
@[simp] theorem setRaster_lanes (b : Fin 16) (g : Raster → Raster) : (s.setRaster b g).lanes = s.lanes := rfl
@[simp] theorem setRaster_heads (b : Fin 16) (g : Raster → Raster) : (s.setRaster b g).heads = s.heads := rfl
@[simp] theorem setRaster_time (b : Fin 16) (g : Raster → Raster) : (s.setRaster b g).time = s.time := rfl
@[simp] theorem setRaster_clk (b : Fin 16) (g : Raster → Raster) : (s.setRaster b g).clk = s.clk := rfl
@[simp] theorem setRaster_pwr (b : Fin 16) (g : Raster → Raster) : (s.setRaster b g).pwr = s.pwr := rfl
@[simp] theorem setRaster_ev (b : Fin 16) (g : Raster → Raster) : (s.setRaster b g).ev = s.ev := rfl
@[simp] theorem setRaster_knife (b : Fin 16) (g : Raster → Raster) : (s.setRaster b g).knife = s.knife := rfl
@[simp] theorem setRaster_dip (b : Fin 16) (g : Raster → Raster) : (s.setRaster b g).dip = s.dip := rfl
@[simp] theorem setRaster_rcd (b : Fin 16) (g : Raster → Raster) : (s.setRaster b g).rcd = s.rcd := rfl
@[simp] theorem setRaster_brushes (b : Fin 16) (g : Raster → Raster) : (s.setRaster b g).brushes = s.brushes := rfl
@[simp] theorem setRaster_lasers (b : Fin 16) (g : Raster → Raster) : (s.setRaster b g).lasers = s.lasers := rfl
@[simp] theorem setRaster_encs (b : Fin 16) (g : Raster → Raster) : (s.setRaster b g).encs = s.encs := rfl
@[simp] theorem setRaster_medium (b : Fin 16) (g : Raster → Raster) : (s.setRaster b g).medium = s.medium := rfl
@[simp] theorem setRaster_cal (b : Fin 16) (g : Raster → Raster) : (s.setRaster b g).cal = s.cal := rfl
@[simp] theorem setRaster_bist (b : Fin 16) (g : Raster → Raster) : (s.setRaster b g).bist = s.bist := rfl
@[simp] theorem setRaster_therm (b : Fin 16) (g : Raster → Raster) : (s.setRaster b g).therm = s.therm := rfl
@[simp] theorem setRaster_rasters (b : Fin 16) (g : Raster → Raster) : (s.setRaster b g).rasters = s.rasters.set b (g s.rasters[b]) := rfl
@[simp] theorem setRaster_glazes (b : Fin 16) (g : Raster → Raster) : (s.setRaster b g).glazes = s.glazes := rfl
@[simp] theorem setRaster_axes (b : Fin 16) (g : Raster → Raster) : (s.setRaster b g).axes = s.axes := rfl
@[simp] theorem setRaster_engines (b : Fin 16) (g : Raster → Raster) : (s.setRaster b g).engines = s.engines := rfl
@[simp] theorem setRaster_steppers (b : Fin 16) (g : Raster → Raster) : (s.setRaster b g).steppers = s.steppers := rfl
@[simp] theorem setRaster_cams (b : Fin 16) (g : Raster → Raster) : (s.setRaster b g).cams = s.cams := rfl
@[simp] theorem setRaster_camPorts (b : Fin 16) (g : Raster → Raster) : (s.setRaster b g).camPorts = s.camPorts := rfl
@[simp] theorem setRaster_streams (b : Fin 16) (g : Raster → Raster) : (s.setRaster b g).streams = s.streams := rfl
@[simp] theorem setRaster_trigs (b : Fin 16) (g : Raster → Raster) : (s.setRaster b g).trigs = s.trigs := rfl
@[simp] theorem setRaster_vision (b : Fin 16) (g : Raster → Raster) : (s.setRaster b g).vision = s.vision := rfl
@[simp] theorem setRaster_lights (b : Fin 16) (g : Raster → Raster) : (s.setRaster b g).lights = s.lights := rfl
@[simp] theorem setRaster_bankTest (b : Fin 16) (g : Raster → Raster) : (s.setRaster b g).bankTest = s.bankTest := rfl
@[simp] theorem setRaster_xch (b : Fin 16) (g : Raster → Raster) : (s.setRaster b g).xch = s.xch := rfl
@[simp] theorem setRaster_drams (b : Fin 16) (g : Raster → Raster) : (s.setRaster b g).drams = s.drams := rfl
@[simp] theorem setRaster_training (b : Fin 16) (g : Raster → Raster) : (s.setRaster b g).training = s.training := rfl
@[simp] theorem setRaster_retrain (b : Fin 16) (g : Raster → Raster) : (s.setRaster b g).retrain = s.retrain := rfl
@[simp] theorem setRaster_sweeps (b : Fin 16) (g : Raster → Raster) : (s.setRaster b g).sweeps = s.sweeps := rfl
@[simp] theorem setRaster_dramCycle (b : Fin 16) (g : Raster → Raster) : (s.setRaster b g).dramCycle = s.dramCycle := rfl
@[simp] theorem setRaster_hostCycle (b : Fin 16) (g : Raster → Raster) : (s.setRaster b g).hostCycle = s.hostCycle := rfl
@[simp] theorem setRaster_tap (b : Fin 16) (g : Raster → Raster) : (s.setRaster b g).tap = s.tap := rfl

/-! `setGlaze` -/
@[simp] theorem setGlaze_pending (b : Fin 16) (g : Glaze → Glaze) : (s.setGlaze b g).pending = s.pending := rfl
@[simp] theorem setGlaze_regs (b : Fin 16) (g : Glaze → Glaze) : (s.setGlaze b g).regs = s.regs := rfl
@[simp] theorem setGlaze_active (b : Fin 16) (g : Glaze → Glaze) : (s.setGlaze b g).active = s.active := rfl
@[simp] theorem setGlaze_snap (b : Fin 16) (g : Glaze → Glaze) : (s.setGlaze b g).snap = s.snap := rfl
@[simp] theorem setGlaze_mem (b : Fin 16) (g : Glaze → Glaze) : (s.setGlaze b g).mem = s.mem := rfl
@[simp] theorem setGlaze_memErr (b : Fin 16) (g : Glaze → Glaze) : (s.setGlaze b g).memErr = s.memErr := rfl
@[simp] theorem setGlaze_commitAt (b : Fin 16) (g : Glaze → Glaze) : (s.setGlaze b g).commitAt = s.commitAt := rfl
@[simp] theorem setGlaze_shadowWas (b : Fin 16) (g : Glaze → Glaze) : (s.setGlaze b g).shadowWas = s.shadowWas := rfl
@[simp] theorem setGlaze_enteredAt (b : Fin 16) (g : Glaze → Glaze) : (s.setGlaze b g).enteredAt = s.enteredAt := rfl
@[simp] theorem setGlaze_lastEv (b : Fin 16) (g : Glaze → Glaze) : (s.setGlaze b g).lastEv = s.lastEv := rfl
@[simp] theorem setGlaze_freeCtr (b : Fin 16) (g : Glaze → Glaze) : (s.setGlaze b g).freeCtr = s.freeCtr := rfl
@[simp] theorem setGlaze_lanes (b : Fin 16) (g : Glaze → Glaze) : (s.setGlaze b g).lanes = s.lanes := rfl
@[simp] theorem setGlaze_heads (b : Fin 16) (g : Glaze → Glaze) : (s.setGlaze b g).heads = s.heads := rfl
@[simp] theorem setGlaze_time (b : Fin 16) (g : Glaze → Glaze) : (s.setGlaze b g).time = s.time := rfl
@[simp] theorem setGlaze_clk (b : Fin 16) (g : Glaze → Glaze) : (s.setGlaze b g).clk = s.clk := rfl
@[simp] theorem setGlaze_pwr (b : Fin 16) (g : Glaze → Glaze) : (s.setGlaze b g).pwr = s.pwr := rfl
@[simp] theorem setGlaze_ev (b : Fin 16) (g : Glaze → Glaze) : (s.setGlaze b g).ev = s.ev := rfl
@[simp] theorem setGlaze_knife (b : Fin 16) (g : Glaze → Glaze) : (s.setGlaze b g).knife = s.knife := rfl
@[simp] theorem setGlaze_dip (b : Fin 16) (g : Glaze → Glaze) : (s.setGlaze b g).dip = s.dip := rfl
@[simp] theorem setGlaze_rcd (b : Fin 16) (g : Glaze → Glaze) : (s.setGlaze b g).rcd = s.rcd := rfl
@[simp] theorem setGlaze_brushes (b : Fin 16) (g : Glaze → Glaze) : (s.setGlaze b g).brushes = s.brushes := rfl
@[simp] theorem setGlaze_lasers (b : Fin 16) (g : Glaze → Glaze) : (s.setGlaze b g).lasers = s.lasers := rfl
@[simp] theorem setGlaze_encs (b : Fin 16) (g : Glaze → Glaze) : (s.setGlaze b g).encs = s.encs := rfl
@[simp] theorem setGlaze_medium (b : Fin 16) (g : Glaze → Glaze) : (s.setGlaze b g).medium = s.medium := rfl
@[simp] theorem setGlaze_cal (b : Fin 16) (g : Glaze → Glaze) : (s.setGlaze b g).cal = s.cal := rfl
@[simp] theorem setGlaze_bist (b : Fin 16) (g : Glaze → Glaze) : (s.setGlaze b g).bist = s.bist := rfl
@[simp] theorem setGlaze_therm (b : Fin 16) (g : Glaze → Glaze) : (s.setGlaze b g).therm = s.therm := rfl
@[simp] theorem setGlaze_rasters (b : Fin 16) (g : Glaze → Glaze) : (s.setGlaze b g).rasters = s.rasters := rfl
@[simp] theorem setGlaze_glazes (b : Fin 16) (g : Glaze → Glaze) : (s.setGlaze b g).glazes = s.glazes.set b (g s.glazes[b]) := rfl
@[simp] theorem setGlaze_axes (b : Fin 16) (g : Glaze → Glaze) : (s.setGlaze b g).axes = s.axes := rfl
@[simp] theorem setGlaze_engines (b : Fin 16) (g : Glaze → Glaze) : (s.setGlaze b g).engines = s.engines := rfl
@[simp] theorem setGlaze_steppers (b : Fin 16) (g : Glaze → Glaze) : (s.setGlaze b g).steppers = s.steppers := rfl
@[simp] theorem setGlaze_cams (b : Fin 16) (g : Glaze → Glaze) : (s.setGlaze b g).cams = s.cams := rfl
@[simp] theorem setGlaze_camPorts (b : Fin 16) (g : Glaze → Glaze) : (s.setGlaze b g).camPorts = s.camPorts := rfl
@[simp] theorem setGlaze_streams (b : Fin 16) (g : Glaze → Glaze) : (s.setGlaze b g).streams = s.streams := rfl
@[simp] theorem setGlaze_trigs (b : Fin 16) (g : Glaze → Glaze) : (s.setGlaze b g).trigs = s.trigs := rfl
@[simp] theorem setGlaze_vision (b : Fin 16) (g : Glaze → Glaze) : (s.setGlaze b g).vision = s.vision := rfl
@[simp] theorem setGlaze_lights (b : Fin 16) (g : Glaze → Glaze) : (s.setGlaze b g).lights = s.lights := rfl
@[simp] theorem setGlaze_bankTest (b : Fin 16) (g : Glaze → Glaze) : (s.setGlaze b g).bankTest = s.bankTest := rfl
@[simp] theorem setGlaze_xch (b : Fin 16) (g : Glaze → Glaze) : (s.setGlaze b g).xch = s.xch := rfl
@[simp] theorem setGlaze_drams (b : Fin 16) (g : Glaze → Glaze) : (s.setGlaze b g).drams = s.drams := rfl
@[simp] theorem setGlaze_training (b : Fin 16) (g : Glaze → Glaze) : (s.setGlaze b g).training = s.training := rfl
@[simp] theorem setGlaze_retrain (b : Fin 16) (g : Glaze → Glaze) : (s.setGlaze b g).retrain = s.retrain := rfl
@[simp] theorem setGlaze_sweeps (b : Fin 16) (g : Glaze → Glaze) : (s.setGlaze b g).sweeps = s.sweeps := rfl
@[simp] theorem setGlaze_dramCycle (b : Fin 16) (g : Glaze → Glaze) : (s.setGlaze b g).dramCycle = s.dramCycle := rfl
@[simp] theorem setGlaze_hostCycle (b : Fin 16) (g : Glaze → Glaze) : (s.setGlaze b g).hostCycle = s.hostCycle := rfl
@[simp] theorem setGlaze_tap (b : Fin 16) (g : Glaze → Glaze) : (s.setGlaze b g).tap = s.tap := rfl

/-! `setLight` -/
@[simp] theorem setLight_pending (p : Fin 4) (g : LtPort → LtPort) : (s.setLight p g).pending = s.pending := rfl
@[simp] theorem setLight_regs (p : Fin 4) (g : LtPort → LtPort) : (s.setLight p g).regs = s.regs := rfl
@[simp] theorem setLight_active (p : Fin 4) (g : LtPort → LtPort) : (s.setLight p g).active = s.active := rfl
@[simp] theorem setLight_snap (p : Fin 4) (g : LtPort → LtPort) : (s.setLight p g).snap = s.snap := rfl
@[simp] theorem setLight_mem (p : Fin 4) (g : LtPort → LtPort) : (s.setLight p g).mem = s.mem := rfl
@[simp] theorem setLight_memErr (p : Fin 4) (g : LtPort → LtPort) : (s.setLight p g).memErr = s.memErr := rfl
@[simp] theorem setLight_commitAt (p : Fin 4) (g : LtPort → LtPort) : (s.setLight p g).commitAt = s.commitAt := rfl
@[simp] theorem setLight_shadowWas (p : Fin 4) (g : LtPort → LtPort) : (s.setLight p g).shadowWas = s.shadowWas := rfl
@[simp] theorem setLight_enteredAt (p : Fin 4) (g : LtPort → LtPort) : (s.setLight p g).enteredAt = s.enteredAt := rfl
@[simp] theorem setLight_lastEv (p : Fin 4) (g : LtPort → LtPort) : (s.setLight p g).lastEv = s.lastEv := rfl
@[simp] theorem setLight_freeCtr (p : Fin 4) (g : LtPort → LtPort) : (s.setLight p g).freeCtr = s.freeCtr := rfl
@[simp] theorem setLight_lanes (p : Fin 4) (g : LtPort → LtPort) : (s.setLight p g).lanes = s.lanes := rfl
@[simp] theorem setLight_heads (p : Fin 4) (g : LtPort → LtPort) : (s.setLight p g).heads = s.heads := rfl
@[simp] theorem setLight_time (p : Fin 4) (g : LtPort → LtPort) : (s.setLight p g).time = s.time := rfl
@[simp] theorem setLight_clk (p : Fin 4) (g : LtPort → LtPort) : (s.setLight p g).clk = s.clk := rfl
@[simp] theorem setLight_pwr (p : Fin 4) (g : LtPort → LtPort) : (s.setLight p g).pwr = s.pwr := rfl
@[simp] theorem setLight_ev (p : Fin 4) (g : LtPort → LtPort) : (s.setLight p g).ev = s.ev := rfl
@[simp] theorem setLight_knife (p : Fin 4) (g : LtPort → LtPort) : (s.setLight p g).knife = s.knife := rfl
@[simp] theorem setLight_dip (p : Fin 4) (g : LtPort → LtPort) : (s.setLight p g).dip = s.dip := rfl
@[simp] theorem setLight_rcd (p : Fin 4) (g : LtPort → LtPort) : (s.setLight p g).rcd = s.rcd := rfl
@[simp] theorem setLight_brushes (p : Fin 4) (g : LtPort → LtPort) : (s.setLight p g).brushes = s.brushes := rfl
@[simp] theorem setLight_lasers (p : Fin 4) (g : LtPort → LtPort) : (s.setLight p g).lasers = s.lasers := rfl
@[simp] theorem setLight_encs (p : Fin 4) (g : LtPort → LtPort) : (s.setLight p g).encs = s.encs := rfl
@[simp] theorem setLight_medium (p : Fin 4) (g : LtPort → LtPort) : (s.setLight p g).medium = s.medium := rfl
@[simp] theorem setLight_cal (p : Fin 4) (g : LtPort → LtPort) : (s.setLight p g).cal = s.cal := rfl
@[simp] theorem setLight_bist (p : Fin 4) (g : LtPort → LtPort) : (s.setLight p g).bist = s.bist := rfl
@[simp] theorem setLight_therm (p : Fin 4) (g : LtPort → LtPort) : (s.setLight p g).therm = s.therm := rfl
@[simp] theorem setLight_rasters (p : Fin 4) (g : LtPort → LtPort) : (s.setLight p g).rasters = s.rasters := rfl
@[simp] theorem setLight_glazes (p : Fin 4) (g : LtPort → LtPort) : (s.setLight p g).glazes = s.glazes := rfl
@[simp] theorem setLight_axes (p : Fin 4) (g : LtPort → LtPort) : (s.setLight p g).axes = s.axes := rfl
@[simp] theorem setLight_engines (p : Fin 4) (g : LtPort → LtPort) : (s.setLight p g).engines = s.engines := rfl
@[simp] theorem setLight_steppers (p : Fin 4) (g : LtPort → LtPort) : (s.setLight p g).steppers = s.steppers := rfl
@[simp] theorem setLight_cams (p : Fin 4) (g : LtPort → LtPort) : (s.setLight p g).cams = s.cams := rfl
@[simp] theorem setLight_camPorts (p : Fin 4) (g : LtPort → LtPort) : (s.setLight p g).camPorts = s.camPorts := rfl
@[simp] theorem setLight_streams (p : Fin 4) (g : LtPort → LtPort) : (s.setLight p g).streams = s.streams := rfl
@[simp] theorem setLight_trigs (p : Fin 4) (g : LtPort → LtPort) : (s.setLight p g).trigs = s.trigs := rfl
@[simp] theorem setLight_vision (p : Fin 4) (g : LtPort → LtPort) : (s.setLight p g).vision = s.vision := rfl
@[simp] theorem setLight_lights (p : Fin 4) (g : LtPort → LtPort) : (s.setLight p g).lights = s.lights.set p (g s.lights[p]) := rfl
@[simp] theorem setLight_bankTest (p : Fin 4) (g : LtPort → LtPort) : (s.setLight p g).bankTest = s.bankTest := rfl
@[simp] theorem setLight_xch (p : Fin 4) (g : LtPort → LtPort) : (s.setLight p g).xch = s.xch := rfl
@[simp] theorem setLight_drams (p : Fin 4) (g : LtPort → LtPort) : (s.setLight p g).drams = s.drams := rfl
@[simp] theorem setLight_training (p : Fin 4) (g : LtPort → LtPort) : (s.setLight p g).training = s.training := rfl
@[simp] theorem setLight_retrain (p : Fin 4) (g : LtPort → LtPort) : (s.setLight p g).retrain = s.retrain := rfl
@[simp] theorem setLight_sweeps (p : Fin 4) (g : LtPort → LtPort) : (s.setLight p g).sweeps = s.sweeps := rfl
@[simp] theorem setLight_dramCycle (p : Fin 4) (g : LtPort → LtPort) : (s.setLight p g).dramCycle = s.dramCycle := rfl
@[simp] theorem setLight_hostCycle (p : Fin 4) (g : LtPort → LtPort) : (s.setLight p g).hostCycle = s.hostCycle := rfl
@[simp] theorem setLight_tap (p : Fin 4) (g : LtPort → LtPort) : (s.setLight p g).tap = s.tap := rfl

/-! `setClk` -/
@[simp] theorem setClk_pending (g : ClkSt → ClkSt) : (s.setClk g).pending = s.pending := rfl
@[simp] theorem setClk_regs (g : ClkSt → ClkSt) : (s.setClk g).regs = s.regs := rfl
@[simp] theorem setClk_active (g : ClkSt → ClkSt) : (s.setClk g).active = s.active := rfl
@[simp] theorem setClk_snap (g : ClkSt → ClkSt) : (s.setClk g).snap = s.snap := rfl
@[simp] theorem setClk_mem (g : ClkSt → ClkSt) : (s.setClk g).mem = s.mem := rfl
@[simp] theorem setClk_memErr (g : ClkSt → ClkSt) : (s.setClk g).memErr = s.memErr := rfl
@[simp] theorem setClk_commitAt (g : ClkSt → ClkSt) : (s.setClk g).commitAt = s.commitAt := rfl
@[simp] theorem setClk_shadowWas (g : ClkSt → ClkSt) : (s.setClk g).shadowWas = s.shadowWas := rfl
@[simp] theorem setClk_enteredAt (g : ClkSt → ClkSt) : (s.setClk g).enteredAt = s.enteredAt := rfl
@[simp] theorem setClk_lastEv (g : ClkSt → ClkSt) : (s.setClk g).lastEv = s.lastEv := rfl
@[simp] theorem setClk_freeCtr (g : ClkSt → ClkSt) : (s.setClk g).freeCtr = s.freeCtr := rfl
@[simp] theorem setClk_lanes (g : ClkSt → ClkSt) : (s.setClk g).lanes = s.lanes := rfl
@[simp] theorem setClk_heads (g : ClkSt → ClkSt) : (s.setClk g).heads = s.heads := rfl
@[simp] theorem setClk_time (g : ClkSt → ClkSt) : (s.setClk g).time = s.time := rfl
@[simp] theorem setClk_clk (g : ClkSt → ClkSt) : (s.setClk g).clk = g s.clk := rfl
@[simp] theorem setClk_pwr (g : ClkSt → ClkSt) : (s.setClk g).pwr = s.pwr := rfl
@[simp] theorem setClk_ev (g : ClkSt → ClkSt) : (s.setClk g).ev = s.ev := rfl
@[simp] theorem setClk_knife (g : ClkSt → ClkSt) : (s.setClk g).knife = s.knife := rfl
@[simp] theorem setClk_dip (g : ClkSt → ClkSt) : (s.setClk g).dip = s.dip := rfl
@[simp] theorem setClk_rcd (g : ClkSt → ClkSt) : (s.setClk g).rcd = s.rcd := rfl
@[simp] theorem setClk_brushes (g : ClkSt → ClkSt) : (s.setClk g).brushes = s.brushes := rfl
@[simp] theorem setClk_lasers (g : ClkSt → ClkSt) : (s.setClk g).lasers = s.lasers := rfl
@[simp] theorem setClk_encs (g : ClkSt → ClkSt) : (s.setClk g).encs = s.encs := rfl
@[simp] theorem setClk_medium (g : ClkSt → ClkSt) : (s.setClk g).medium = s.medium := rfl
@[simp] theorem setClk_cal (g : ClkSt → ClkSt) : (s.setClk g).cal = s.cal := rfl
@[simp] theorem setClk_bist (g : ClkSt → ClkSt) : (s.setClk g).bist = s.bist := rfl
@[simp] theorem setClk_therm (g : ClkSt → ClkSt) : (s.setClk g).therm = s.therm := rfl
@[simp] theorem setClk_rasters (g : ClkSt → ClkSt) : (s.setClk g).rasters = s.rasters := rfl
@[simp] theorem setClk_glazes (g : ClkSt → ClkSt) : (s.setClk g).glazes = s.glazes := rfl
@[simp] theorem setClk_axes (g : ClkSt → ClkSt) : (s.setClk g).axes = s.axes := rfl
@[simp] theorem setClk_engines (g : ClkSt → ClkSt) : (s.setClk g).engines = s.engines := rfl
@[simp] theorem setClk_steppers (g : ClkSt → ClkSt) : (s.setClk g).steppers = s.steppers := rfl
@[simp] theorem setClk_cams (g : ClkSt → ClkSt) : (s.setClk g).cams = s.cams := rfl
@[simp] theorem setClk_camPorts (g : ClkSt → ClkSt) : (s.setClk g).camPorts = s.camPorts := rfl
@[simp] theorem setClk_streams (g : ClkSt → ClkSt) : (s.setClk g).streams = s.streams := rfl
@[simp] theorem setClk_trigs (g : ClkSt → ClkSt) : (s.setClk g).trigs = s.trigs := rfl
@[simp] theorem setClk_vision (g : ClkSt → ClkSt) : (s.setClk g).vision = s.vision := rfl
@[simp] theorem setClk_lights (g : ClkSt → ClkSt) : (s.setClk g).lights = s.lights := rfl
@[simp] theorem setClk_bankTest (g : ClkSt → ClkSt) : (s.setClk g).bankTest = s.bankTest := rfl
@[simp] theorem setClk_xch (g : ClkSt → ClkSt) : (s.setClk g).xch = s.xch := rfl
@[simp] theorem setClk_drams (g : ClkSt → ClkSt) : (s.setClk g).drams = s.drams := rfl
@[simp] theorem setClk_training (g : ClkSt → ClkSt) : (s.setClk g).training = s.training := rfl
@[simp] theorem setClk_retrain (g : ClkSt → ClkSt) : (s.setClk g).retrain = s.retrain := rfl
@[simp] theorem setClk_sweeps (g : ClkSt → ClkSt) : (s.setClk g).sweeps = s.sweeps := rfl
@[simp] theorem setClk_dramCycle (g : ClkSt → ClkSt) : (s.setClk g).dramCycle = s.dramCycle := rfl
@[simp] theorem setClk_hostCycle (g : ClkSt → ClkSt) : (s.setClk g).hostCycle = s.hostCycle := rfl
@[simp] theorem setClk_tap (g : ClkSt → ClkSt) : (s.setClk g).tap = s.tap := rfl

/-! `takeFree` -/
@[simp] theorem takeFree_pending : (s.takeFree).pending = s.pending := rfl
@[simp] theorem takeFree_regs : (s.takeFree).regs = s.regs := rfl
@[simp] theorem takeFree_active : (s.takeFree).active = s.active := rfl
@[simp] theorem takeFree_snap : (s.takeFree).snap = s.snap := rfl
@[simp] theorem takeFree_mem : (s.takeFree).mem = s.mem := rfl
@[simp] theorem takeFree_memErr : (s.takeFree).memErr = s.memErr := rfl
@[simp] theorem takeFree_commitAt : (s.takeFree).commitAt = s.commitAt := rfl
@[simp] theorem takeFree_shadowWas : (s.takeFree).shadowWas = s.shadowWas := rfl
@[simp] theorem takeFree_enteredAt : (s.takeFree).enteredAt = s.enteredAt := rfl
@[simp] theorem takeFree_lastEv : (s.takeFree).lastEv = s.lastEv := rfl
@[simp] theorem takeFree_freeCtr : (s.takeFree).freeCtr = s.freeCtr + 1 := rfl
@[simp] theorem takeFree_lanes : (s.takeFree).lanes = s.lanes := rfl
@[simp] theorem takeFree_heads : (s.takeFree).heads = s.heads := rfl
@[simp] theorem takeFree_time : (s.takeFree).time = s.time := rfl
@[simp] theorem takeFree_clk : (s.takeFree).clk = s.clk := rfl
@[simp] theorem takeFree_pwr : (s.takeFree).pwr = s.pwr := rfl
@[simp] theorem takeFree_ev : (s.takeFree).ev = s.ev := rfl
@[simp] theorem takeFree_knife : (s.takeFree).knife = s.knife := rfl
@[simp] theorem takeFree_dip : (s.takeFree).dip = s.dip := rfl
@[simp] theorem takeFree_rcd : (s.takeFree).rcd = s.rcd := rfl
@[simp] theorem takeFree_brushes : (s.takeFree).brushes = s.brushes := rfl
@[simp] theorem takeFree_lasers : (s.takeFree).lasers = s.lasers := rfl
@[simp] theorem takeFree_encs : (s.takeFree).encs = s.encs := rfl
@[simp] theorem takeFree_medium : (s.takeFree).medium = s.medium := rfl
@[simp] theorem takeFree_cal : (s.takeFree).cal = s.cal := rfl
@[simp] theorem takeFree_bist : (s.takeFree).bist = s.bist := rfl
@[simp] theorem takeFree_therm : (s.takeFree).therm = s.therm := rfl
@[simp] theorem takeFree_rasters : (s.takeFree).rasters = s.rasters := rfl
@[simp] theorem takeFree_glazes : (s.takeFree).glazes = s.glazes := rfl
@[simp] theorem takeFree_axes : (s.takeFree).axes = s.axes := rfl
@[simp] theorem takeFree_engines : (s.takeFree).engines = s.engines := rfl
@[simp] theorem takeFree_steppers : (s.takeFree).steppers = s.steppers := rfl
@[simp] theorem takeFree_cams : (s.takeFree).cams = s.cams := rfl
@[simp] theorem takeFree_camPorts : (s.takeFree).camPorts = s.camPorts := rfl
@[simp] theorem takeFree_streams : (s.takeFree).streams = s.streams := rfl
@[simp] theorem takeFree_trigs : (s.takeFree).trigs = s.trigs := rfl
@[simp] theorem takeFree_vision : (s.takeFree).vision = s.vision := rfl
@[simp] theorem takeFree_lights : (s.takeFree).lights = s.lights := rfl
@[simp] theorem takeFree_bankTest : (s.takeFree).bankTest = s.bankTest := rfl
@[simp] theorem takeFree_xch : (s.takeFree).xch = s.xch := rfl
@[simp] theorem takeFree_drams : (s.takeFree).drams = s.drams := rfl
@[simp] theorem takeFree_training : (s.takeFree).training = s.training := rfl
@[simp] theorem takeFree_retrain : (s.takeFree).retrain = s.retrain := rfl
@[simp] theorem takeFree_sweeps : (s.takeFree).sweeps = s.sweeps := rfl
@[simp] theorem takeFree_dramCycle : (s.takeFree).dramCycle = s.dramCycle := rfl
@[simp] theorem takeFree_hostCycle : (s.takeFree).hostCycle = s.hostCycle := rfl
@[simp] theorem takeFree_tap : (s.takeFree).tap = s.tap := rfl

/-! `canon` -/
@[simp] theorem canon_pending : (s.canon).pending = s.pending := rfl
@[simp] theorem canon_regs : (s.canon).regs = tabNorm resetWord s.regs := rfl
@[simp] theorem canon_active : (s.canon).active = tabNorm resetWord s.active := rfl
@[simp] theorem canon_snap : (s.canon).snap = tabNorm zeroWord s.snap := rfl
@[simp] theorem canon_mem : (s.canon).mem = tabNorm memDefault s.mem := rfl
@[simp] theorem canon_memErr : (s.canon).memErr = tabNorm zeroNat s.memErr := rfl
@[simp] theorem canon_commitAt : (s.canon).commitAt = tabNorm zeroNat s.commitAt := rfl
@[simp] theorem canon_shadowWas : (s.canon).shadowWas = tabNorm noShadow s.shadowWas := rfl
@[simp] theorem canon_enteredAt : (s.canon).enteredAt = tabNorm zeroNat s.enteredAt := rfl
@[simp] theorem canon_lastEv : (s.canon).lastEv = tabNorm zeroNat s.lastEv := rfl
@[simp] theorem canon_freeCtr : (s.canon).freeCtr = s.freeCtr := rfl
@[simp] theorem canon_lanes : (s.canon).lanes = s.lanes := rfl
@[simp] theorem canon_heads : (s.canon).heads = s.heads := rfl
@[simp] theorem canon_time : (s.canon).time = s.time := rfl
@[simp] theorem canon_clk : (s.canon).clk = s.clk := rfl
@[simp] theorem canon_pwr : (s.canon).pwr = s.pwr := rfl
@[simp] theorem canon_ev : (s.canon).ev = s.ev := rfl
@[simp] theorem canon_knife : (s.canon).knife = s.knife := rfl
@[simp] theorem canon_dip : (s.canon).dip = s.dip := rfl
@[simp] theorem canon_brushes : (s.canon).brushes = s.brushes := rfl
@[simp] theorem canon_lasers : (s.canon).lasers = s.lasers := rfl
@[simp] theorem canon_encs : (s.canon).encs = s.encs := rfl
@[simp] theorem canon_medium : (s.canon).medium = s.medium := rfl
@[simp] theorem canon_cal : (s.canon).cal = s.cal := rfl
@[simp] theorem canon_bist : (s.canon).bist = s.bist := rfl
@[simp] theorem canon_therm : (s.canon).therm = s.therm := rfl
@[simp] theorem canon_rasters : (s.canon).rasters = s.rasters := rfl
@[simp] theorem canon_glazes : (s.canon).glazes = s.glazes := rfl
@[simp] theorem canon_axes : (s.canon).axes = s.axes := rfl
@[simp] theorem canon_engines : (s.canon).engines = s.engines := rfl
@[simp] theorem canon_steppers : (s.canon).steppers = s.steppers := rfl
@[simp] theorem canon_cams : (s.canon).cams = s.cams := rfl
@[simp] theorem canon_camPorts : (s.canon).camPorts = s.camPorts := rfl
@[simp] theorem canon_streams : (s.canon).streams = s.streams := rfl
@[simp] theorem canon_trigs : (s.canon).trigs = s.trigs := rfl
@[simp] theorem canon_vision : (s.canon).vision = s.vision := rfl
@[simp] theorem canon_lights : (s.canon).lights = s.lights := rfl
@[simp] theorem canon_bankTest : (s.canon).bankTest = s.bankTest := rfl
@[simp] theorem canon_xch : (s.canon).xch = s.xch := rfl
@[simp] theorem canon_drams : (s.canon).drams = s.drams := rfl
@[simp] theorem canon_training : (s.canon).training = s.training := rfl
@[simp] theorem canon_retrain : (s.canon).retrain = s.retrain := rfl
@[simp] theorem canon_sweeps : (s.canon).sweeps = s.sweeps := rfl
@[simp] theorem canon_dramCycle : (s.canon).dramCycle = s.dramCycle := rfl
@[simp] theorem canon_hostCycle : (s.canon).hostCycle = s.hostCycle := rfl
@[simp] theorem canon_tap : (s.canon).tap = s.tap := rfl

/-! `upTo` lets time run on and does nothing else. -/
@[simp] theorem upTo_pending (t : Nat) : (s.upTo t).pending = s.pending := by unfold State.upTo; split <;> rfl
@[simp] theorem upTo_regs (t : Nat) : (s.upTo t).regs = s.regs := by unfold State.upTo; split <;> rfl
@[simp] theorem upTo_active (t : Nat) : (s.upTo t).active = s.active := by unfold State.upTo; split <;> rfl
@[simp] theorem upTo_snap (t : Nat) : (s.upTo t).snap = s.snap := by unfold State.upTo; split <;> rfl
@[simp] theorem upTo_mem (t : Nat) : (s.upTo t).mem = s.mem := by unfold State.upTo; split <;> rfl
@[simp] theorem upTo_memErr (t : Nat) : (s.upTo t).memErr = s.memErr := by unfold State.upTo; split <;> rfl
@[simp] theorem upTo_commitAt (t : Nat) : (s.upTo t).commitAt = s.commitAt := by unfold State.upTo; split <;> rfl
@[simp] theorem upTo_shadowWas (t : Nat) : (s.upTo t).shadowWas = s.shadowWas := by unfold State.upTo; split <;> rfl
@[simp] theorem upTo_enteredAt (t : Nat) : (s.upTo t).enteredAt = s.enteredAt := by unfold State.upTo; split <;> rfl
@[simp] theorem upTo_lastEv (t : Nat) : (s.upTo t).lastEv = s.lastEv := by unfold State.upTo; split <;> rfl
@[simp] theorem upTo_freeCtr (t : Nat) : (s.upTo t).freeCtr = s.freeCtr := by unfold State.upTo; split <;> rfl
@[simp] theorem upTo_lanes (t : Nat) : (s.upTo t).lanes = s.lanes := by unfold State.upTo; split <;> rfl
@[simp] theorem upTo_heads (t : Nat) : (s.upTo t).heads = s.heads := by unfold State.upTo; split <;> rfl
@[simp] theorem upTo_clk (t : Nat) : (s.upTo t).clk = s.clk := by unfold State.upTo; split <;> rfl
@[simp] theorem upTo_pwr (t : Nat) : (s.upTo t).pwr = s.pwr := by unfold State.upTo; split <;> rfl
@[simp] theorem upTo_ev (t : Nat) : (s.upTo t).ev = s.ev := by unfold State.upTo; split <;> rfl
@[simp] theorem upTo_knife (t : Nat) : (s.upTo t).knife = s.knife := by unfold State.upTo; split <;> rfl
@[simp] theorem upTo_dip (t : Nat) : (s.upTo t).dip = s.dip := by unfold State.upTo; split <;> rfl
@[simp] theorem upTo_rcd (t : Nat) : (s.upTo t).rcd = s.rcd := by unfold State.upTo; split <;> rfl
@[simp] theorem upTo_brushes (t : Nat) : (s.upTo t).brushes = s.brushes := by unfold State.upTo; split <;> rfl
@[simp] theorem upTo_lasers (t : Nat) : (s.upTo t).lasers = s.lasers := by unfold State.upTo; split <;> rfl
@[simp] theorem upTo_encs (t : Nat) : (s.upTo t).encs = s.encs := by unfold State.upTo; split <;> rfl
@[simp] theorem upTo_medium (t : Nat) : (s.upTo t).medium = s.medium := by unfold State.upTo; split <;> rfl
@[simp] theorem upTo_cal (t : Nat) : (s.upTo t).cal = s.cal := by unfold State.upTo; split <;> rfl
@[simp] theorem upTo_bist (t : Nat) : (s.upTo t).bist = s.bist := by unfold State.upTo; split <;> rfl
@[simp] theorem upTo_therm (t : Nat) : (s.upTo t).therm = s.therm := by unfold State.upTo; split <;> rfl
@[simp] theorem upTo_rasters (t : Nat) : (s.upTo t).rasters = s.rasters := by unfold State.upTo; split <;> rfl
@[simp] theorem upTo_glazes (t : Nat) : (s.upTo t).glazes = s.glazes := by unfold State.upTo; split <;> rfl
@[simp] theorem upTo_axes (t : Nat) : (s.upTo t).axes = s.axes := by unfold State.upTo; split <;> rfl
@[simp] theorem upTo_engines (t : Nat) : (s.upTo t).engines = s.engines := by unfold State.upTo; split <;> rfl
@[simp] theorem upTo_steppers (t : Nat) : (s.upTo t).steppers = s.steppers := by unfold State.upTo; split <;> rfl
@[simp] theorem upTo_cams (t : Nat) : (s.upTo t).cams = s.cams := by unfold State.upTo; split <;> rfl
@[simp] theorem upTo_camPorts (t : Nat) : (s.upTo t).camPorts = s.camPorts := by unfold State.upTo; split <;> rfl
@[simp] theorem upTo_streams (t : Nat) : (s.upTo t).streams = s.streams := by unfold State.upTo; split <;> rfl
@[simp] theorem upTo_trigs (t : Nat) : (s.upTo t).trigs = s.trigs := by unfold State.upTo; split <;> rfl
@[simp] theorem upTo_vision (t : Nat) : (s.upTo t).vision = s.vision := by unfold State.upTo; split <;> rfl
@[simp] theorem upTo_lights (t : Nat) : (s.upTo t).lights = s.lights := by unfold State.upTo; split <;> rfl
@[simp] theorem upTo_bankTest (t : Nat) : (s.upTo t).bankTest = s.bankTest := by unfold State.upTo; split <;> rfl
@[simp] theorem upTo_xch (t : Nat) : (s.upTo t).xch = s.xch := by unfold State.upTo; split <;> rfl
@[simp] theorem upTo_drams (t : Nat) : (s.upTo t).drams = s.drams := by unfold State.upTo; split <;> rfl
@[simp] theorem upTo_training (t : Nat) : (s.upTo t).training = s.training := by unfold State.upTo; split <;> rfl
@[simp] theorem upTo_retrain (t : Nat) : (s.upTo t).retrain = s.retrain := by unfold State.upTo; split <;> rfl
@[simp] theorem upTo_sweeps (t : Nat) : (s.upTo t).sweeps = s.sweeps := by unfold State.upTo; split <;> rfl
@[simp] theorem upTo_dramCycle (t : Nat) : (s.upTo t).dramCycle = s.dramCycle := by unfold State.upTo; split <;> rfl
@[simp] theorem upTo_hostCycle (t : Nat) : (s.upTo t).hostCycle = s.hostCycle := by unfold State.upTo; split <;> rfl
@[simp] theorem upTo_tap (t : Nat) : (s.upTo t).tap = s.tap := by unfold State.upTo; split <;> rfl

end Sys2Proof.Laws
end

