-- ==== Sys2Proof/Laws/Ops.lean ====
section
/-! SUPPORT. What the shared operations do: fields of registers, the running of time, and the end of a command. -/

namespace Sys2Proof.Laws

open Sys2Proof.Machine

/-! ### Fields of a word -/

/-- A field lies within its word. -/
abbrev Fits (f : Fld) : Prop := f.lo ≤ f.hi ∧ f.hi < 32

/-- Two fields share no bit of a register. -/
abbrev Apart (f g : Fld) : Prop := f.off ≠ g.off ∨ f.hi < g.lo ∨ g.hi < f.lo

theorem putFld_toNat (w : Word) (f : Fld) (v : Nat) (h : Fits f) :
    (putFld w f v).toNat = w.toNat % 2 ^ f.lo + 2 ^ f.lo * (v % 2 ^ f.width + 2 ^ f.width * (w.toNat / 2 ^ f.lo / 2 ^ f.width)) := by
  have hw : w.toNat < 2 ^ 32 := w.isLt
  have hs : 2 ^ f.lo * 2 ^ f.width * 2 ^ (32 - f.lo - f.width) = 2 ^ 32 := by
    rw [← Nat.pow_add, ← Nat.pow_add]; congr 1; unfold Fld.width; omega
  unfold putFld fldOf bits
  rw [Nat.shiftRight_eq_div_pow]
  generalize 2 ^ (32 - f.lo - f.width) = c at hs
  have ha : 0 < 2 ^ f.lo := Nat.two_pow_pos _
  have hb : 0 < 2 ^ f.width := Nat.two_pow_pos _
  generalize 2 ^ f.lo = a at *
  generalize 2 ^ f.width = b at *
  generalize w.toNat = n at *
  have h1 : n = n % a + a * (n / a % b + b * (n / a / b)) := by
    rw [Nat.mod_add_div, Nat.mod_add_div]
  have hv : v % b < b := Nat.mod_lt _ hb
  have hq : n / a / b < c := by
    rw [Nat.div_div_eq_div_mul]
    exact Nat.div_lt_of_lt_mul (by rw [hs]; exact hw)
  have hr : n % a < a := Nat.mod_lt _ ha
  have h2 : n - n / a % b * a + v % b * a = n % a + a * (v % b + b * (n / a / b)) := by
    have : n / a % b * a ≤ n := le_trans (Nat.mul_le_mul_right _ (Nat.mod_le _ _)) (Nat.div_mul_le_self _ _)
    have e : n = n % a + (n / a % b * a + a * (b * (n / a / b))) := by
      conv_lhs => rw [h1]
      ring
    have : n - n / a % b * a = n % a + a * (b * (n / a / b)) := by omega
    rw [this]; ring
  rw [h2, BitVec.toNat_ofNat]
  refine Nat.mod_eq_of_lt ?_
  rw [← hs]
  have h3 : v % b + b * (n / a / b) < b * c := by
    calc v % b + b * (n / a / b) < b + b * (n / a / b) := by omega
      _ = b * (n / a / b + 1) := by ring
      _ ≤ b * c := Nat.mul_le_mul_left _ hq
  calc n % a + a * (v % b + b * (n / a / b)) < a + a * (v % b + b * (n / a / b)) := by omega
    _ = a * (v % b + b * (n / a / b) + 1) := by ring
    _ ≤ a * (b * c) := Nat.mul_le_mul_left _ h3
    _ = a * b * c := by ring

/-- A written field reads the low bits of what was written. -/
theorem fldOf_putFld_same (w : Word) (f : Fld) (v : Nat) (h : Fits f) : fldOf (putFld w f v) f = v % 2 ^ f.width := by
  unfold fldOf bits
  rw [Nat.shiftRight_eq_div_pow, putFld_toNat w f v h, Nat.add_mul_div_left _ _ (Nat.two_pow_pos _),
    Nat.div_eq_of_lt (Nat.mod_lt _ (Nat.two_pow_pos _)), Nat.zero_add, Nat.add_mul_mod_self_left, Nat.mod_mod]

theorem bits_congr_low {m n lo w k : Nat} (hk : lo + w ≤ k) (h : m % 2 ^ k = n % 2 ^ k) : bits m lo w = bits n lo w := by
  unfold bits
  apply Nat.eq_of_testBit_eq
  intro i
  rw [Nat.testBit_mod_two_pow, Nat.testBit_mod_two_pow, Nat.testBit_shiftRight, Nat.testBit_shiftRight]
  by_cases hi : i < w
  · have := congrArg (Nat.testBit · (lo + i)) h
    simp only [Nat.testBit_mod_two_pow, show lo + i < k by omega, decide_true, Bool.true_and] at this
    simp [this]
  · simp [hi]

theorem bits_congr_high {m n lo w k : Nat} (hk : k ≤ lo) (h : m / 2 ^ k = n / 2 ^ k) : bits m lo w = bits n lo w := by
  unfold bits
  rw [Nat.shiftRight_eq_div_pow, Nat.shiftRight_eq_div_pow, show lo = k + (lo - k) by omega, Nat.pow_add, ← Nat.div_div_eq_div_mul,
    ← Nat.div_div_eq_div_mul, h]

/-- Writing one field leaves the fields beside it. -/
theorem fldOf_putFld_apart (w : Word) (f g : Fld) (v : Nat) (hf : Fits f) (hg : Fits g) (h : f.hi < g.lo ∨ g.hi < f.lo) :
    fldOf (putFld w f v) g = fldOf w g := by
  unfold fldOf
  rcases h with h | h
  · apply bits_congr_high (k := f.lo + f.width) (by unfold Fld.width; omega)
    rw [putFld_toNat w f v hf, Nat.pow_add, ← Nat.div_div_eq_div_mul, Nat.add_mul_div_left _ _ (Nat.two_pow_pos _),
      Nat.div_eq_of_lt (Nat.mod_lt _ (Nat.two_pow_pos _)), Nat.zero_add, Nat.add_mul_div_left _ _ (Nat.two_pow_pos _),
      Nat.div_eq_of_lt (Nat.mod_lt _ (Nat.two_pow_pos _)), Nat.zero_add, Nat.div_div_eq_div_mul]
  · apply bits_congr_low (k := f.lo) (by unfold Fld.width; omega)
    rw [putFld_toNat w f v hf, Nat.add_mul_mod_self_left, Nat.mod_mod]

/-! ### Fields of a page -/

theorem regAddr_inj {p q o r : Nat} (ho : o < 0x1000) (hr : r < 0x1000) : regAddr p o = regAddr q r ↔ p = q ∧ o = r := by
  unfold regAddr; omega

theorem word_setWord (s : State) (a b : Nat) (v : Word) : (s.setWord a v).word b = if b = a then v else s.word b := by
  unfold State.word State.setWord; exact tabGet_tabSet s.regs a b v

theorem actWord_setActWord (s : State) (a b : Nat) (v : Word) : (s.setActWord a v).actWord b = if b = a then v else s.actWord b := by
  unfold State.actWord State.setActWord; exact tabGet_tabSet s.active a b v

theorem snapWord_setSnapWord (s : State) (a b : Nat) (v : Word) : (s.setSnapWord a v).snapWord b = if b = a then v else s.snapWord b := by
  unfold State.snapWord State.setSnapWord; exact tabGet_tabSet s.snap a b v

/-- A byte reads what was stored, and every other byte as before. -/
theorem byte_setByte (s : State) (a b : Nat) (v : Byte) : (s.setByte a v).byte b = if b = a then v else s.byte b := by
  unfold State.byte State.setByte; exact tabGet_tabSet s.mem a b v

/-- A stored block changes the bytes it covers and no other. -/
theorem byte_setBytes_outside (l : List Byte) : ∀ (s : State) (a b : Nat), (b < a ∨ a + l.length ≤ b) → (s.setBytes a l).byte b = s.byte b := by
  induction l with
  | nil => intro s a b _; rfl
  | cons x r ih =>
    intro s a b h
    have h' : b < a ∨ a + (r.length + 1) ≤ b := by simpa using h
    show ((s.setByte a x).setBytes (a + 1) r).byte b = _
    rw [ih _ (a + 1) b (by omega), byte_setByte, if_neg (by omega)]

/-- A stored block reads back. -/
theorem byte_setBytes_inside (l : List Byte) : ∀ (s : State) (a k : Nat) (hk : k < l.length), (s.setBytes a l).byte (a + k) = l[k] := by
  induction l with
  | nil => intro s a k hk; simp at hk
  | cons x r ih =>
    intro s a k hk
    show ((s.setByte a x).setBytes (a + 1) r).byte (a + k) = _
    cases k with
    | zero => rw [byte_setBytes_outside _ _ _ _ (by omega), byte_setByte]; simp
    | succ k =>
      have := ih (s.setByte a x) (a + 1) k (by simpa using hk)
      rw [show a + (k + 1) = a + 1 + k by omega, this]; rfl

/-- A written field of a page reads the low bits of what was written. -/
theorem f_setF_same (s : State) (p : Nat) (fl : Fld) (v : Nat) (h : Fits fl) : (s.setF p fl v).f p fl = v % 2 ^ fl.width := by
  unfold State.f State.setF
  rw [word_setWord, if_pos rfl, fldOf_putFld_same _ _ _ h]

/-- Writing a field leaves every field of the same page that it does not overlap. -/
theorem f_setF_apart (s : State) (p : Nat) (fl g : Fld) (v : Nat) (hf : Fits fl) (hg : Fits g) (h : Apart fl g) :
    (s.setF p fl v).f p g = s.f p g := by
  unfold State.f State.setF
  rw [word_setWord]
  by_cases ho : fl.off = g.off
  · rw [if_pos (by rw [ho]), fldOf_putFld_apart _ _ _ _ hf hg (h.resolve_left (absurd ho)), ho]
  · rw [if_neg (by unfold regAddr; omega)]

/-- Writing a field of one page leaves every field of another. -/
theorem f_setF_page (s : State) (p q : Nat) (fl g : Fld) (v : Nat) (hf : fl.off < 0x1000) (hg : g.off < 0x1000) (h : q ≠ p) :
    (s.setF p fl v).f q g = s.f q g := by
  unfold State.f State.setF
  rw [word_setWord, if_neg (by rw [regAddr_inj hg hf]; exact fun x => h x.1)]

/-- Writing a field changes its own register only. -/
theorem word_setF_other (s : State) (p : Nat) (fl : Fld) (v a : Nat) (h : a ≠ regAddr p fl.off) : (s.setF p fl v).word a = s.word a := by
  unfold State.setF; rw [word_setWord, if_neg h]

@[simp] theorem byte_setF (s : State) (p : Nat) (fl : Fld) (v a : Nat) : (s.setF p fl v).byte a = s.byte a := rfl
@[simp] theorem actWord_setF (s : State) (p : Nat) (fl : Fld) (v a : Nat) : (s.setF p fl v).actWord a = s.actWord a := rfl
@[simp] theorem snapWord_setF (s : State) (p : Nat) (fl : Fld) (v a : Nat) : (s.setF p fl v).snapWord a = s.snapWord a := rfl

/-! ### Time -/

/-- The present tick after time has run on. -/
theorem upTo_now (s : State) (t : Nat) :
    (s.upTo t).now = if s.time.running ∧ 0 < ahead s.time.now t ∧ ahead s.time.now t < 2 ^ 63 then t % 2 ^ 64 else s.time.now := by
  unfold State.upTo State.now; split <;> rfl

/-- How far a later tick lies ahead. -/
theorem ahead_of_le {n t : Nat} (h : n ≤ t) (ht : t < n + 2 ^ 63) : ahead n t = t - n := by
  unfold ahead wrapU; omega

/-- A running timebase that has not passed `t` reaches it. -/
theorem upTo_now_of_live (s : State) (t : Nat) (h : s.live t) : (s.upTo t).now = t := by
  obtain ⟨hr, h1, h2, h3⟩ := h
  have ha := ahead_of_le h1 h2
  rw [upTo_now]; split
  · exact Nat.mod_eq_of_lt h3
  · rename_i hn
    have : ¬ (0 < ahead s.now t ∧ ahead s.now t < 2 ^ 63) := fun q => hn ⟨hr, q⟩
    show s.now = t
    omega

@[simp] theorem upTo_running (s : State) (t : Nat) : (s.upTo t).time.running = s.time.running := by unfold State.upTo; split <;> rfl
@[simp] theorem upTo_word (s : State) (t a : Nat) : (s.upTo t).word a = s.word a := by simp [State.word]
@[simp] theorem upTo_actWord (s : State) (t a : Nat) : (s.upTo t).actWord a = s.actWord a := by simp [State.actWord]
@[simp] theorem upTo_byte (s : State) (t a : Nat) : (s.upTo t).byte a = s.byte a := by simp [State.byte]
@[simp] theorem upTo_f (s : State) (t p : Nat) (fl : Fld) : (s.upTo t).f p fl = s.f p fl := by simp [State.f]
@[simp] theorem upTo_fi (s : State) (t p : Nat) (fl : Fld) : (s.upTo t).fi p fl = s.fi p fl := by simp [State.fi]
@[simp] theorem upTo_fb (s : State) (t p : Nat) (fl : Fld) : (s.upTo t).fb p fl = s.fb p fl := by simp [State.fb]
@[simp] theorem upTo_pair (s : State) (t p : Nat) (lo hi : Fld) : (s.upTo t).pair p lo hi = s.pair p lo hi := by simp [State.pair]
@[simp] theorem upTo_a (s : State) (t p : Nat) (fl : Fld) : (s.upTo t).a p fl = s.a p fl := by simp [State.a]
@[simp] theorem upTo_domOn (s : State) (t d : Nat) : (s.upTo t).domOn d = s.domOn d := by simp [State.domOn]
@[simp] theorem upTo_pageOn (s : State) (t p : Nat) : (s.upTo t).pageOn p = s.pageOn p := by simp [State.pageOn]
@[simp] theorem upTo_st (s : State) (t p : Nat) : (s.upTo t).st p = s.st p := by simp [State.st]
@[simp] theorem upTo_isOn (s : State) (t p : Nat) : (s.upTo t).isOn p = s.isOn p := by simp [State.isOn]
@[simp] theorem upTo_en (s : State) (t p : Nat) : (s.upTo t).en p = s.en p := by simp [State.en]
@[simp] theorem upTo_phase (s : State) (t l : Nat) : (s.upTo t).phase l = s.phase l := by simp [State.phase]
@[simp] theorem upTo_laneUp (s : State) (t l : Nat) : (s.upTo t).laneUp l = s.laneUp l := by simp [State.laneUp]
@[simp] theorem upTo_roleB (s : State) (t : Nat) : (s.upTo t).roleB = s.roleB := by simp [State.roleB]
@[simp] theorem upTo_coasting (s : State) (t : Nat) : (s.upTo t).coasting = s.coasting := by simp [State.coasting]
@[simp] theorem upTo_selected (s : State) (t : Nat) : (s.upTo t).selected = s.selected := by simp [State.selected]
@[simp] theorem upTo_pairState (s : State) (t : Nat) : (s.upTo t).pairState = s.pairState := by simp [State.pairState]

/-- Time only runs forwards: by less than half of the count's range, round its end. -/
theorem ahead_upTo (s : State) (t : Nat) : ahead s.now (s.upTo t).now < 2 ^ 63 := by
  rw [upTo_now]; unfold State.now; split
  · rename_i h; unfold ahead wrapU at *; omega
  · unfold ahead wrapU; omega

/-! ### Conditional and repeated operations -/

@[simp] theorem each_nil {α : Type} (s : State) (g : State → α → State) : s.each [] g = s := rfl
@[simp] theorem each_cons {α : Type} (s : State) (x : α) (r : List α) (g : State → α → State) : s.each (x :: r) g = (g s x).each r g := rfl

/-- What every step of a repetition keeps, the repetition keeps. -/
theorem each_inv {α β : Type} (F : State → β) (g : State → α → State) (h : ∀ s x, F (g s x) = F s) (l : List α) (s : State) :
    F (s.each l g) = F s := by
  induction l generalizing s with
  | nil => rfl
  | cons x r ih => rw [each_cons, ih, h]

@[simp] theorem when_true (s : State) (g : State → State) : s.when true g = g s := rfl
@[simp] theorem when_false (s : State) (g : State → State) : s.when false g = s := rfl

/-! ### The end of a command -/

@[simp] theorem canon_word (s : State) (a : Nat) : s.canon.word a = s.word a := tabGet_tabNorm s.regs a
@[simp] theorem canon_actWord (s : State) (a : Nat) : s.canon.actWord a = s.actWord a := tabGet_tabNorm s.active a
@[simp] theorem canon_snapWord (s : State) (a : Nat) : s.canon.snapWord a = s.snapWord a := tabGet_tabNorm s.snap a
@[simp] theorem canon_byte (s : State) (a : Nat) : s.canon.byte a = s.byte a := tabGet_tabNorm s.mem a
@[simp] theorem canon_errAt (s : State) (a : Nat) : s.canon.errAt a = s.errAt a := tabGet_tabNorm s.memErr _
@[simp] theorem canon_commitTick (s : State) (p : Nat) : s.canon.commitTick p = s.commitTick p := tabGet_tabNorm s.commitAt p
@[simp] theorem canon_shadowBefore (s : State) (a : Nat) : tabGet noShadow s.canon.shadowWas a = tabGet noShadow s.shadowWas a :=
  tabGet_tabNorm s.shadowWas a
@[simp] theorem canon_entered (s : State) (p : Nat) : s.canon.entered p = s.entered p := tabGet_tabNorm s.enteredAt p

/-- The state a command ends in: the tables of `u` in canonical form, the queue of `s`. -/
def ended (s u : State) : State := { u.canon with pending := s.pending }

theorem done_eq (s u : State) : done s u = .next (ended s u) := rfl

/-- What `done` answers, it answers in canonical form with the queue as it was. -/
theorem done_next {s u v : State} (h : done s u = .next v) : v = ended s u := by
  have := Host.Outcome.next.inj h; exact this.symm

@[simp] theorem ended_word (s u : State) (a : Nat) : (ended s u).word a = u.word a := canon_word u a
@[simp] theorem ended_actWord (s u : State) (a : Nat) : (ended s u).actWord a = u.actWord a := canon_actWord u a
@[simp] theorem ended_snapWord (s u : State) (a : Nat) : (ended s u).snapWord a = u.snapWord a := canon_snapWord u a
@[simp] theorem ended_byte (s u : State) (a : Nat) : (ended s u).byte a = u.byte a := canon_byte u a
@[simp] theorem ended_errAt (s u : State) (a : Nat) : (ended s u).errAt a = u.errAt a := canon_errAt u a
@[simp] theorem ended_commitTick (s u : State) (p : Nat) : (ended s u).commitTick p = u.commitTick p := canon_commitTick u p
@[simp] theorem ended_entered (s u : State) (p : Nat) : (ended s u).entered p = u.entered p := canon_entered u p
@[simp] theorem ended_f (s u : State) (p : Nat) (fl : Fld) : (ended s u).f p fl = u.f p fl := by simp [State.f]
@[simp] theorem ended_fi (s u : State) (p : Nat) (fl : Fld) : (ended s u).fi p fl = u.fi p fl := by simp [State.fi]
@[simp] theorem ended_fb (s u : State) (p : Nat) (fl : Fld) : (ended s u).fb p fl = u.fb p fl := by simp [State.fb]
@[simp] theorem ended_a (s u : State) (p : Nat) (fl : Fld) : (ended s u).a p fl = u.a p fl := by simp [State.a]
@[simp] theorem ended_pair (s u : State) (p : Nat) (lo hi : Fld) : (ended s u).pair p lo hi = u.pair p lo hi := by simp [State.pair]
@[simp] theorem ended_domOn (s u : State) (d : Nat) : (ended s u).domOn d = u.domOn d := by
  simp only [State.domOn, ended_f]; rfl
@[simp] theorem ended_pageOn (s u : State) (p : Nat) : (ended s u).pageOn p = u.pageOn p := by simp [State.pageOn]
@[simp] theorem ended_st (s u : State) (p : Nat) : (ended s u).st p = u.st p := by simp [State.st]
@[simp] theorem ended_isOn (s u : State) (p : Nat) : (ended s u).isOn p = u.isOn p := by simp [State.isOn]
@[simp] theorem ended_phase (s u : State) (l : Nat) : (ended s u).phase l = u.phase l := by simp [State.phase]
@[simp] theorem ended_laneUp (s u : State) (l : Nat) : (ended s u).laneUp l = u.laneUp l := by simp [State.laneUp]
@[simp] theorem ended_pending (s u : State) : (ended s u).pending = s.pending := rfl
@[simp] theorem ended_freeCtr (s u : State) : (ended s u).freeCtr = u.freeCtr := rfl
@[simp] theorem ended_lanes (s u : State) : (ended s u).lanes = u.lanes := rfl
@[simp] theorem ended_heads (s u : State) : (ended s u).heads = u.heads := rfl
@[simp] theorem ended_time (s u : State) : (ended s u).time = u.time := rfl
@[simp] theorem ended_clk (s u : State) : (ended s u).clk = u.clk := rfl
@[simp] theorem ended_pwr (s u : State) : (ended s u).pwr = u.pwr := rfl
@[simp] theorem ended_ev (s u : State) : (ended s u).ev = u.ev := rfl
@[simp] theorem ended_knife (s u : State) : (ended s u).knife = u.knife := rfl
@[simp] theorem ended_dip (s u : State) : (ended s u).dip = u.dip := rfl
@[simp] theorem ended_brushes (s u : State) : (ended s u).brushes = u.brushes := rfl
@[simp] theorem ended_lasers (s u : State) : (ended s u).lasers = u.lasers := rfl
@[simp] theorem ended_encs (s u : State) : (ended s u).encs = u.encs := rfl
@[simp] theorem ended_medium (s u : State) : (ended s u).medium = u.medium := rfl
@[simp] theorem ended_cal (s u : State) : (ended s u).cal = u.cal := rfl
@[simp] theorem ended_bist (s u : State) : (ended s u).bist = u.bist := rfl
@[simp] theorem ended_therm (s u : State) : (ended s u).therm = u.therm := rfl
@[simp] theorem ended_rasters (s u : State) : (ended s u).rasters = u.rasters := rfl
@[simp] theorem ended_glazes (s u : State) : (ended s u).glazes = u.glazes := rfl
@[simp] theorem ended_axes (s u : State) : (ended s u).axes = u.axes := rfl
@[simp] theorem ended_engines (s u : State) : (ended s u).engines = u.engines := rfl
@[simp] theorem ended_steppers (s u : State) : (ended s u).steppers = u.steppers := rfl
@[simp] theorem ended_cams (s u : State) : (ended s u).cams = u.cams := rfl
@[simp] theorem ended_streams (s u : State) : (ended s u).streams = u.streams := rfl
@[simp] theorem ended_trigs (s u : State) : (ended s u).trigs = u.trigs := rfl
@[simp] theorem ended_vision (s u : State) : (ended s u).vision = u.vision := rfl
@[simp] theorem ended_lights (s u : State) : (ended s u).lights = u.lights := rfl
@[simp] theorem ended_bankTest (s u : State) : (ended s u).bankTest = u.bankTest := rfl
@[simp] theorem ended_drams (s u : State) : (ended s u).drams = u.drams := rfl
@[simp] theorem ended_training (s u : State) : (ended s u).training = u.training := rfl
@[simp] theorem ended_tap (s u : State) : (ended s u).tap = u.tap := rfl
@[simp] theorem ended_now (s u : State) : (ended s u).now = u.now := rfl

/-! ### Owner reads of banks and DRAM (R339, R356), the returns of a light port (R331) and time-stamps (R105) -/

/-- Where no stored word is in error, an owner's read of a bank shows nothing. -/
theorem ownerRead_clean (s : State) (a n : Nat) (h : s.memErr = []) : s.ownerRead a n = s := by simp [State.ownerRead, State.each, h]

theorem ownerReads_clean (s : State) (l : List (Nat × Nat)) (h : s.memErr = []) : s.ownerReads l = s := by simp [State.ownerReads, h]

theorem dramCheck_clean (s : State) (a : Nat) (h : s.memErr = []) : s.dramCheck a = s := by simp [State.dramCheck, State.each, h]

theorem mergeRead_clean (s : State) (a n : Nat) (h : s.memErr = []) : s.mergeRead a n = s := by simp [State.mergeRead, State.each, h]

/-- A light port with no return on its way has nothing due. -/
theorem lightReturn_idle (s : State) (n : Fin 4) (h : s.lights[n].back = none) : s.lightReturn n = s := by
  unfold State.lightReturn; rw [h]

/-- A brush with no line in progress has no pixel due. -/
theorem rasterDue_idle (s : State) (b : Fin 16) (h : s.rasters[b].cur = none) : s.rasterDue b = s := by
  unfold State.rasterDue State.takePixels; simp only [h]

/-- Nothing is due on a page that is neither a light port nor a RASTER page. -/
theorem pageDue_other (s : State) (p : Nat) (h : pageBlk p ≠ some .ltport) (hr : pageBlk p ≠ some .raster) : s.pageDue p = s := by
  unfold State.pageDue; split
  · exact absurd ‹_› h
  · exact absurd ‹_› hr
  · rfl

/-- With sound fuses a time-stamp is the instant at the ball. -/
theorem stampTick_fused (s : State) (l : Nat) (rx : Bool) (v : Nat) (h : s.fuseBad = false) : s.stampTick l rx v = v := by
  simp [State.stampTick, h]

end Sys2Proof.Laws
end

