-- ==== Sys2Proof/Laws/Flags.lean ====
section
/-! SUPPORT. What an event, a sticky flag, a change of state and a count change, and what they leave. -/

namespace Sys2Proof.Laws

open Sys2Proof.Machine

theorem word_setF (s : State) (p : Nat) (fl : Fld) (v a : Nat) :
    (s.setF p fl v).word a = if a = regAddr p fl.off then putFld (s.word a) fl v else s.word a := by
  unfold State.setF; rw [word_setWord]; split
  · rename_i h; rw [h]
  · rfl

/-- A field read through a register update is read from the word. -/
theorem f_word (s : State) (p : Nat) (fl : Fld) : s.f p fl = fldOf (s.word (regAddr p fl.off)) fl := rfl

theorem when_word (s : State) (c : Bool) (g : State → State) (a : Nat) (h : ∀ u, (g u).word a = u.word a) : (s.when c g).word a = s.word a := by
  cases c
  · rfl
  · exact h s

theorem when_inv {β : Type} (F : State → β) (s : State) (c : Bool) (g : State → State) (h : ∀ u, F (g u) = F u) : F (s.when c g) = F s := by
  cases c
  · rfl
  · exact h s

theorem word_offer (s : State) (src stamp a : Nat) (h : a ≠ regAddr Pg.EVCOL Reg.EVCOL_MERGED.off) : (s.offer src stamp).word a = s.word a :=
  when_word _ _ _ _ fun _ => word_setF_other _ _ _ _ _ h

theorem offer_pending (s : State) (src stamp : Nat) : (s.offer src stamp).pending = s.pending := when_inv (·.pending) _ _ _ fun _ => rfl
theorem offer_active (s : State) (src stamp : Nat) : (s.offer src stamp).active = s.active := when_inv (·.active) _ _ _ fun _ => rfl
theorem offer_snap (s : State) (src stamp : Nat) : (s.offer src stamp).snap = s.snap := when_inv (·.snap) _ _ _ fun _ => rfl
theorem offer_mem (s : State) (src stamp : Nat) : (s.offer src stamp).mem = s.mem := when_inv (·.mem) _ _ _ fun _ => rfl
theorem offer_memErr (s : State) (src stamp : Nat) : (s.offer src stamp).memErr = s.memErr := when_inv (·.memErr) _ _ _ fun _ => rfl
theorem offer_commitAt (s : State) (src stamp : Nat) : (s.offer src stamp).commitAt = s.commitAt := when_inv (·.commitAt) _ _ _ fun _ => rfl
theorem offer_shadowWas (s : State) (src stamp : Nat) : (s.offer src stamp).shadowWas = s.shadowWas := when_inv (·.shadowWas) _ _ _ fun _ => rfl
theorem offer_enteredAt (s : State) (src stamp : Nat) : (s.offer src stamp).enteredAt = s.enteredAt := when_inv (·.enteredAt) _ _ _ fun _ => rfl
theorem offer_lastEv (s : State) (src stamp : Nat) : (s.offer src stamp).lastEv = s.lastEv := when_inv (·.lastEv) _ _ _ fun _ => rfl
theorem offer_freeCtr (s : State) (src stamp : Nat) : (s.offer src stamp).freeCtr = s.freeCtr := when_inv (·.freeCtr) _ _ _ fun _ => rfl
theorem offer_lanes (s : State) (src stamp : Nat) : (s.offer src stamp).lanes = s.lanes := when_inv (·.lanes) _ _ _ fun _ => rfl
theorem offer_heads (s : State) (src stamp : Nat) : (s.offer src stamp).heads = s.heads := when_inv (·.heads) _ _ _ fun _ => rfl
theorem offer_time (s : State) (src stamp : Nat) : (s.offer src stamp).time = s.time := when_inv (·.time) _ _ _ fun _ => rfl
theorem offer_clk (s : State) (src stamp : Nat) : (s.offer src stamp).clk = s.clk := when_inv (·.clk) _ _ _ fun _ => rfl
theorem offer_pwr (s : State) (src stamp : Nat) : (s.offer src stamp).pwr = s.pwr := when_inv (·.pwr) _ _ _ fun _ => rfl
theorem offer_knife (s : State) (src stamp : Nat) : (s.offer src stamp).knife = s.knife := when_inv (·.knife) _ _ _ fun _ => rfl
theorem offer_dip (s : State) (src stamp : Nat) : (s.offer src stamp).dip = s.dip := when_inv (·.dip) _ _ _ fun _ => rfl
theorem offer_rcd (s : State) (src stamp : Nat) : (s.offer src stamp).rcd = s.rcd := when_inv (·.rcd) _ _ _ fun _ => rfl
theorem offer_brushes (s : State) (src stamp : Nat) : (s.offer src stamp).brushes = s.brushes := when_inv (·.brushes) _ _ _ fun _ => rfl
theorem offer_lasers (s : State) (src stamp : Nat) : (s.offer src stamp).lasers = s.lasers := when_inv (·.lasers) _ _ _ fun _ => rfl
theorem offer_encs (s : State) (src stamp : Nat) : (s.offer src stamp).encs = s.encs := when_inv (·.encs) _ _ _ fun _ => rfl
theorem offer_medium (s : State) (src stamp : Nat) : (s.offer src stamp).medium = s.medium := when_inv (·.medium) _ _ _ fun _ => rfl
theorem offer_cal (s : State) (src stamp : Nat) : (s.offer src stamp).cal = s.cal := when_inv (·.cal) _ _ _ fun _ => rfl
theorem offer_bist (s : State) (src stamp : Nat) : (s.offer src stamp).bist = s.bist := when_inv (·.bist) _ _ _ fun _ => rfl
theorem offer_therm (s : State) (src stamp : Nat) : (s.offer src stamp).therm = s.therm := when_inv (·.therm) _ _ _ fun _ => rfl
theorem offer_rasters (s : State) (src stamp : Nat) : (s.offer src stamp).rasters = s.rasters := when_inv (·.rasters) _ _ _ fun _ => rfl
theorem offer_glazes (s : State) (src stamp : Nat) : (s.offer src stamp).glazes = s.glazes := when_inv (·.glazes) _ _ _ fun _ => rfl
theorem offer_axes (s : State) (src stamp : Nat) : (s.offer src stamp).axes = s.axes := when_inv (·.axes) _ _ _ fun _ => rfl
theorem offer_engines (s : State) (src stamp : Nat) : (s.offer src stamp).engines = s.engines := when_inv (·.engines) _ _ _ fun _ => rfl
theorem offer_steppers (s : State) (src stamp : Nat) : (s.offer src stamp).steppers = s.steppers := when_inv (·.steppers) _ _ _ fun _ => rfl
theorem offer_cams (s : State) (src stamp : Nat) : (s.offer src stamp).cams = s.cams := when_inv (·.cams) _ _ _ fun _ => rfl
theorem offer_camPorts (s : State) (src stamp : Nat) : (s.offer src stamp).camPorts = s.camPorts := when_inv (·.camPorts) _ _ _ fun _ => rfl
theorem offer_streams (s : State) (src stamp : Nat) : (s.offer src stamp).streams = s.streams := when_inv (·.streams) _ _ _ fun _ => rfl
theorem offer_trigs (s : State) (src stamp : Nat) : (s.offer src stamp).trigs = s.trigs := when_inv (·.trigs) _ _ _ fun _ => rfl
theorem offer_vision (s : State) (src stamp : Nat) : (s.offer src stamp).vision = s.vision := when_inv (·.vision) _ _ _ fun _ => rfl
theorem offer_lights (s : State) (src stamp : Nat) : (s.offer src stamp).lights = s.lights := when_inv (·.lights) _ _ _ fun _ => rfl
theorem offer_bankTest (s : State) (src stamp : Nat) : (s.offer src stamp).bankTest = s.bankTest := when_inv (·.bankTest) _ _ _ fun _ => rfl
theorem offer_xch (s : State) (src stamp : Nat) : (s.offer src stamp).xch = s.xch := when_inv (·.xch) _ _ _ fun _ => rfl
theorem offer_drams (s : State) (src stamp : Nat) : (s.offer src stamp).drams = s.drams := when_inv (·.drams) _ _ _ fun _ => rfl
theorem offer_training (s : State) (src stamp : Nat) : (s.offer src stamp).training = s.training := when_inv (·.training) _ _ _ fun _ => rfl
theorem offer_retrain (s : State) (src stamp : Nat) : (s.offer src stamp).retrain = s.retrain := when_inv (·.retrain) _ _ _ fun _ => rfl
theorem offer_sweeps (s : State) (src stamp : Nat) : (s.offer src stamp).sweeps = s.sweeps := when_inv (·.sweeps) _ _ _ fun _ => rfl
theorem offer_dramCycle (s : State) (src stamp : Nat) : (s.offer src stamp).dramCycle = s.dramCycle := when_inv (·.dramCycle) _ _ _ fun _ => rfl
theorem offer_hostCycle (s : State) (src stamp : Nat) : (s.offer src stamp).hostCycle = s.hostCycle := when_inv (·.hostCycle) _ _ _ fun _ => rfl
theorem offer_tap (s : State) (src stamp : Nat) : (s.offer src stamp).tap = s.tap := when_inv (·.tap) _ _ _ fun _ => rfl

/-! An event changes EVENT of its page and the MERGED count of the collector, among the registers (R42, R399). -/
theorem word_event (s : State) (p k stamp a : Nat) (h1 : a ≠ regAddr p Reg.EVENT.off) (h2 : a ≠ regAddr Pg.EVCOL Reg.EVCOL_MERGED.off) :
    (s.event p k stamp).word a = s.word a := by
  unfold State.event; split
  · rw [when_word _ _ _ _ (fun u => word_offer u _ _ _ h2), word_setF_other _ _ _ _ _ h1]; rfl
  · rfl

@[simp] theorem event_pending (s : State) (p k stamp : Nat) : (s.event p k stamp).pending = s.pending := by
  unfold State.event; split
  · rw [when_inv (·.pending) _ _ _ fun u => offer_pending u _ _]; rfl
  · rfl
@[simp] theorem event_active (s : State) (p k stamp : Nat) : (s.event p k stamp).active = s.active := by
  unfold State.event; split
  · rw [when_inv (·.active) _ _ _ fun u => offer_active u _ _]; rfl
  · rfl
@[simp] theorem event_snap (s : State) (p k stamp : Nat) : (s.event p k stamp).snap = s.snap := by
  unfold State.event; split
  · rw [when_inv (·.snap) _ _ _ fun u => offer_snap u _ _]; rfl
  · rfl
@[simp] theorem event_mem (s : State) (p k stamp : Nat) : (s.event p k stamp).mem = s.mem := by
  unfold State.event; split
  · rw [when_inv (·.mem) _ _ _ fun u => offer_mem u _ _]; rfl
  · rfl
@[simp] theorem event_memErr (s : State) (p k stamp : Nat) : (s.event p k stamp).memErr = s.memErr := by
  unfold State.event; split
  · rw [when_inv (·.memErr) _ _ _ fun u => offer_memErr u _ _]; rfl
  · rfl
@[simp] theorem event_commitAt (s : State) (p k stamp : Nat) : (s.event p k stamp).commitAt = s.commitAt := by
  unfold State.event; split
  · rw [when_inv (·.commitAt) _ _ _ fun u => offer_commitAt u _ _]; rfl
  · rfl
@[simp] theorem event_shadowWas (s : State) (p k stamp : Nat) : (s.event p k stamp).shadowWas = s.shadowWas := by
  unfold State.event; split
  · rw [when_inv (·.shadowWas) _ _ _ fun u => offer_shadowWas u _ _]; rfl
  · rfl
@[simp] theorem event_enteredAt (s : State) (p k stamp : Nat) : (s.event p k stamp).enteredAt = s.enteredAt := by
  unfold State.event; split
  · rw [when_inv (·.enteredAt) _ _ _ fun u => offer_enteredAt u _ _]; rfl
  · rfl
@[simp] theorem event_freeCtr (s : State) (p k stamp : Nat) : (s.event p k stamp).freeCtr = s.freeCtr := by
  unfold State.event; split
  · rw [when_inv (·.freeCtr) _ _ _ fun u => offer_freeCtr u _ _]; rfl
  · rfl
@[simp] theorem event_lanes (s : State) (p k stamp : Nat) : (s.event p k stamp).lanes = s.lanes := by
  unfold State.event; split
  · rw [when_inv (·.lanes) _ _ _ fun u => offer_lanes u _ _]; rfl
  · rfl
@[simp] theorem event_heads (s : State) (p k stamp : Nat) : (s.event p k stamp).heads = s.heads := by
  unfold State.event; split
  · rw [when_inv (·.heads) _ _ _ fun u => offer_heads u _ _]; rfl
  · rfl
@[simp] theorem event_time (s : State) (p k stamp : Nat) : (s.event p k stamp).time = s.time := by
  unfold State.event; split
  · rw [when_inv (·.time) _ _ _ fun u => offer_time u _ _]; rfl
  · rfl
@[simp] theorem event_clk (s : State) (p k stamp : Nat) : (s.event p k stamp).clk = s.clk := by
  unfold State.event; split
  · rw [when_inv (·.clk) _ _ _ fun u => offer_clk u _ _]; rfl
  · rfl
@[simp] theorem event_pwr (s : State) (p k stamp : Nat) : (s.event p k stamp).pwr = s.pwr := by
  unfold State.event; split
  · rw [when_inv (·.pwr) _ _ _ fun u => offer_pwr u _ _]; rfl
  · rfl
@[simp] theorem event_knife (s : State) (p k stamp : Nat) : (s.event p k stamp).knife = s.knife := by
  unfold State.event; split
  · rw [when_inv (·.knife) _ _ _ fun u => offer_knife u _ _]; rfl
  · rfl
@[simp] theorem event_dip (s : State) (p k stamp : Nat) : (s.event p k stamp).dip = s.dip := by
  unfold State.event; split
  · rw [when_inv (·.dip) _ _ _ fun u => offer_dip u _ _]; rfl
  · rfl
@[simp] theorem event_rcd (s : State) (p k stamp : Nat) : (s.event p k stamp).rcd = s.rcd := by
  unfold State.event; split
  · rw [when_inv (·.rcd) _ _ _ fun u => offer_rcd u _ _]; rfl
  · rfl
@[simp] theorem event_brushes (s : State) (p k stamp : Nat) : (s.event p k stamp).brushes = s.brushes := by
  unfold State.event; split
  · rw [when_inv (·.brushes) _ _ _ fun u => offer_brushes u _ _]; rfl
  · rfl
@[simp] theorem event_lasers (s : State) (p k stamp : Nat) : (s.event p k stamp).lasers = s.lasers := by
  unfold State.event; split
  · rw [when_inv (·.lasers) _ _ _ fun u => offer_lasers u _ _]; rfl
  · rfl
@[simp] theorem event_encs (s : State) (p k stamp : Nat) : (s.event p k stamp).encs = s.encs := by
  unfold State.event; split
  · rw [when_inv (·.encs) _ _ _ fun u => offer_encs u _ _]; rfl
  · rfl
@[simp] theorem event_medium (s : State) (p k stamp : Nat) : (s.event p k stamp).medium = s.medium := by
  unfold State.event; split
  · rw [when_inv (·.medium) _ _ _ fun u => offer_medium u _ _]; rfl
  · rfl
@[simp] theorem event_cal (s : State) (p k stamp : Nat) : (s.event p k stamp).cal = s.cal := by
  unfold State.event; split
  · rw [when_inv (·.cal) _ _ _ fun u => offer_cal u _ _]; rfl
  · rfl
@[simp] theorem event_bist (s : State) (p k stamp : Nat) : (s.event p k stamp).bist = s.bist := by
  unfold State.event; split
  · rw [when_inv (·.bist) _ _ _ fun u => offer_bist u _ _]; rfl
  · rfl
@[simp] theorem event_therm (s : State) (p k stamp : Nat) : (s.event p k stamp).therm = s.therm := by
  unfold State.event; split
  · rw [when_inv (·.therm) _ _ _ fun u => offer_therm u _ _]; rfl
  · rfl
@[simp] theorem event_rasters (s : State) (p k stamp : Nat) : (s.event p k stamp).rasters = s.rasters := by
  unfold State.event; split
  · rw [when_inv (·.rasters) _ _ _ fun u => offer_rasters u _ _]; rfl
  · rfl
@[simp] theorem event_glazes (s : State) (p k stamp : Nat) : (s.event p k stamp).glazes = s.glazes := by
  unfold State.event; split
  · rw [when_inv (·.glazes) _ _ _ fun u => offer_glazes u _ _]; rfl
  · rfl
@[simp] theorem event_axes (s : State) (p k stamp : Nat) : (s.event p k stamp).axes = s.axes := by
  unfold State.event; split
  · rw [when_inv (·.axes) _ _ _ fun u => offer_axes u _ _]; rfl
  · rfl
@[simp] theorem event_engines (s : State) (p k stamp : Nat) : (s.event p k stamp).engines = s.engines := by
  unfold State.event; split
  · rw [when_inv (·.engines) _ _ _ fun u => offer_engines u _ _]; rfl
  · rfl
@[simp] theorem event_steppers (s : State) (p k stamp : Nat) : (s.event p k stamp).steppers = s.steppers := by
  unfold State.event; split
  · rw [when_inv (·.steppers) _ _ _ fun u => offer_steppers u _ _]; rfl
  · rfl
@[simp] theorem event_cams (s : State) (p k stamp : Nat) : (s.event p k stamp).cams = s.cams := by
  unfold State.event; split
  · rw [when_inv (·.cams) _ _ _ fun u => offer_cams u _ _]; rfl
  · rfl
@[simp] theorem event_camPorts (s : State) (p k stamp : Nat) : (s.event p k stamp).camPorts = s.camPorts := by
  unfold State.event; split
  · rw [when_inv (·.camPorts) _ _ _ fun u => offer_camPorts u _ _]; rfl
  · rfl
@[simp] theorem event_streams (s : State) (p k stamp : Nat) : (s.event p k stamp).streams = s.streams := by
  unfold State.event; split
  · rw [when_inv (·.streams) _ _ _ fun u => offer_streams u _ _]; rfl
  · rfl
@[simp] theorem event_trigs (s : State) (p k stamp : Nat) : (s.event p k stamp).trigs = s.trigs := by
  unfold State.event; split
  · rw [when_inv (·.trigs) _ _ _ fun u => offer_trigs u _ _]; rfl
  · rfl
@[simp] theorem event_vision (s : State) (p k stamp : Nat) : (s.event p k stamp).vision = s.vision := by
  unfold State.event; split
  · rw [when_inv (·.vision) _ _ _ fun u => offer_vision u _ _]; rfl
  · rfl
@[simp] theorem event_lights (s : State) (p k stamp : Nat) : (s.event p k stamp).lights = s.lights := by
  unfold State.event; split
  · rw [when_inv (·.lights) _ _ _ fun u => offer_lights u _ _]; rfl
  · rfl
@[simp] theorem event_bankTest (s : State) (p k stamp : Nat) : (s.event p k stamp).bankTest = s.bankTest := by
  unfold State.event; split
  · rw [when_inv (·.bankTest) _ _ _ fun u => offer_bankTest u _ _]; rfl
  · rfl
@[simp] theorem event_xch (s : State) (p k stamp : Nat) : (s.event p k stamp).xch = s.xch := by
  unfold State.event; split
  · rw [when_inv (·.xch) _ _ _ fun u => offer_xch u _ _]; rfl
  · rfl
@[simp] theorem event_drams (s : State) (p k stamp : Nat) : (s.event p k stamp).drams = s.drams := by
  unfold State.event; split
  · rw [when_inv (·.drams) _ _ _ fun u => offer_drams u _ _]; rfl
  · rfl
@[simp] theorem event_training (s : State) (p k stamp : Nat) : (s.event p k stamp).training = s.training := by
  unfold State.event; split
  · rw [when_inv (·.training) _ _ _ fun u => offer_training u _ _]; rfl
  · rfl
@[simp] theorem event_retrain (s : State) (p k stamp : Nat) : (s.event p k stamp).retrain = s.retrain := by
  unfold State.event; split
  · rw [when_inv (·.retrain) _ _ _ fun u => offer_retrain u _ _]; rfl
  · rfl
@[simp] theorem event_sweeps (s : State) (p k stamp : Nat) : (s.event p k stamp).sweeps = s.sweeps := by
  unfold State.event; split
  · rw [when_inv (·.sweeps) _ _ _ fun u => offer_sweeps u _ _]; rfl
  · rfl
@[simp] theorem event_dramCycle (s : State) (p k stamp : Nat) : (s.event p k stamp).dramCycle = s.dramCycle := by
  unfold State.event; split
  · rw [when_inv (·.dramCycle) _ _ _ fun u => offer_dramCycle u _ _]; rfl
  · rfl
@[simp] theorem event_hostCycle (s : State) (p k stamp : Nat) : (s.event p k stamp).hostCycle = s.hostCycle := by
  unfold State.event; split
  · rw [when_inv (·.hostCycle) _ _ _ fun u => offer_hostCycle u _ _]; rfl
  · rfl
@[simp] theorem event_tap (s : State) (p k stamp : Nat) : (s.event p k stamp).tap = s.tap := by
  unfold State.event; split
  · rw [when_inv (·.tap) _ _ _ fun u => offer_tap u _ _]; rfl
  · rfl
@[simp] theorem event_byte (s : State) (p k stamp : Nat) (a : Nat) : (s.event p k stamp).byte a = s.byte a := by simp [State.byte]
@[simp] theorem event_actWord (s : State) (p k stamp : Nat) (a : Nat) : (s.event p k stamp).actWord a = s.actWord a := by simp [State.actWord]
@[simp] theorem event_snapWord (s : State) (p k stamp : Nat) (a : Nat) : (s.event p k stamp).snapWord a = s.snapWord a := by simp [State.snapWord]

/-- An asserted event shows in EVENT of its page (R42). -/
theorem f_event_set (s : State) (p k stamp : Nat) (hp : s.pageOn p) (hk : k < eventCount p) (hq : p ≠ Pg.EVCOL) :
    (s.event p k stamp).f p Reg.EVENT = putBit (s.f p Reg.EVENT) k true % 2 ^ 32 := by
  unfold State.event; rw [if_pos ⟨hp, hk⟩, when_inv (·.f p Reg.EVENT) _ _ _ fun u => ?_]
  · exact f_setF_same _ p Reg.EVENT _ (by decide)
  · show fldOf _ _ = fldOf _ _
    rw [word_offer]; refine (not_congr (regAddr_inj (by decide) (by decide))).mpr ?_; exact fun x => hq x.1

/-! A sticky flag changes ERROR_STICKY and EVENT of its page (R32). -/
theorem word_sticky (s : State) (p k stamp a : Nat) (h0 : a ≠ regAddr p Reg.ERROR_STICKY.off) (h1 : a ≠ regAddr p Reg.EVENT.off)
    (h2 : a ≠ regAddr Pg.EVCOL Reg.EVCOL_MERGED.off) : (s.sticky p k stamp).word a = s.word a := by
  unfold State.sticky
  split
  · split
    · rfl
    · rw [word_event _ _ _ _ _ h1 h2, word_setF_other _ _ _ _ _ h0]
  · rfl

@[simp] theorem sticky_pending (s : State) (p k stamp : Nat) : (s.sticky p k stamp).pending = s.pending := by
  unfold State.sticky; split
  · split
    · rfl
    · rw [event_pending]; rfl
  · rfl
@[simp] theorem sticky_active (s : State) (p k stamp : Nat) : (s.sticky p k stamp).active = s.active := by
  unfold State.sticky; split
  · split
    · rfl
    · rw [event_active]; rfl
  · rfl
@[simp] theorem sticky_snap (s : State) (p k stamp : Nat) : (s.sticky p k stamp).snap = s.snap := by
  unfold State.sticky; split
  · split
    · rfl
    · rw [event_snap]; rfl
  · rfl
@[simp] theorem sticky_mem (s : State) (p k stamp : Nat) : (s.sticky p k stamp).mem = s.mem := by
  unfold State.sticky; split
  · split
    · rfl
    · rw [event_mem]; rfl
  · rfl
@[simp] theorem sticky_memErr (s : State) (p k stamp : Nat) : (s.sticky p k stamp).memErr = s.memErr := by
  unfold State.sticky; split
  · split
    · rfl
    · rw [event_memErr]; rfl
  · rfl
@[simp] theorem sticky_commitAt (s : State) (p k stamp : Nat) : (s.sticky p k stamp).commitAt = s.commitAt := by
  unfold State.sticky; split
  · split
    · rfl
    · rw [event_commitAt]; rfl
  · rfl
@[simp] theorem sticky_shadowWas (s : State) (p k stamp : Nat) : (s.sticky p k stamp).shadowWas = s.shadowWas := by
  unfold State.sticky; split
  · split
    · rfl
    · rw [event_shadowWas]; rfl
  · rfl
@[simp] theorem sticky_enteredAt (s : State) (p k stamp : Nat) : (s.sticky p k stamp).enteredAt = s.enteredAt := by
  unfold State.sticky; split
  · split
    · rfl
    · rw [event_enteredAt]; rfl
  · rfl
@[simp] theorem sticky_freeCtr (s : State) (p k stamp : Nat) : (s.sticky p k stamp).freeCtr = s.freeCtr := by
  unfold State.sticky; split
  · split
    · rfl
    · rw [event_freeCtr]; rfl
  · rfl
@[simp] theorem sticky_lanes (s : State) (p k stamp : Nat) : (s.sticky p k stamp).lanes = s.lanes := by
  unfold State.sticky; split
  · split
    · rfl
    · rw [event_lanes]; rfl
  · rfl
@[simp] theorem sticky_heads (s : State) (p k stamp : Nat) : (s.sticky p k stamp).heads = s.heads := by
  unfold State.sticky; split
  · split
    · rfl
    · rw [event_heads]; rfl
  · rfl
@[simp] theorem sticky_time (s : State) (p k stamp : Nat) : (s.sticky p k stamp).time = s.time := by
  unfold State.sticky; split
  · split
    · rfl
    · rw [event_time]; rfl
  · rfl
@[simp] theorem sticky_clk (s : State) (p k stamp : Nat) : (s.sticky p k stamp).clk = s.clk := by
  unfold State.sticky; split
  · split
    · rfl
    · rw [event_clk]; rfl
  · rfl
@[simp] theorem sticky_pwr (s : State) (p k stamp : Nat) : (s.sticky p k stamp).pwr = s.pwr := by
  unfold State.sticky; split
  · split
    · rfl
    · rw [event_pwr]; rfl
  · rfl
@[simp] theorem sticky_knife (s : State) (p k stamp : Nat) : (s.sticky p k stamp).knife = s.knife := by
  unfold State.sticky; split
  · split
    · rfl
    · rw [event_knife]; rfl
  · rfl
@[simp] theorem sticky_dip (s : State) (p k stamp : Nat) : (s.sticky p k stamp).dip = s.dip := by
  unfold State.sticky; split
  · split
    · rfl
    · rw [event_dip]; rfl
  · rfl
@[simp] theorem sticky_rcd (s : State) (p k stamp : Nat) : (s.sticky p k stamp).rcd = s.rcd := by
  unfold State.sticky; split
  · split
    · rfl
    · rw [event_rcd]; rfl
  · rfl
@[simp] theorem sticky_brushes (s : State) (p k stamp : Nat) : (s.sticky p k stamp).brushes = s.brushes := by
  unfold State.sticky; split
  · split
    · rfl
    · rw [event_brushes]; rfl
  · rfl
@[simp] theorem sticky_lasers (s : State) (p k stamp : Nat) : (s.sticky p k stamp).lasers = s.lasers := by
  unfold State.sticky; split
  · split
    · rfl
    · rw [event_lasers]; rfl
  · rfl
@[simp] theorem sticky_encs (s : State) (p k stamp : Nat) : (s.sticky p k stamp).encs = s.encs := by
  unfold State.sticky; split
  · split
    · rfl
    · rw [event_encs]; rfl
  · rfl
@[simp] theorem sticky_medium (s : State) (p k stamp : Nat) : (s.sticky p k stamp).medium = s.medium := by
  unfold State.sticky; split
  · split
    · rfl
    · rw [event_medium]; rfl
  · rfl
@[simp] theorem sticky_cal (s : State) (p k stamp : Nat) : (s.sticky p k stamp).cal = s.cal := by
  unfold State.sticky; split
  · split
    · rfl
    · rw [event_cal]; rfl
  · rfl
@[simp] theorem sticky_bist (s : State) (p k stamp : Nat) : (s.sticky p k stamp).bist = s.bist := by
  unfold State.sticky; split
  · split
    · rfl
    · rw [event_bist]; rfl
  · rfl
@[simp] theorem sticky_therm (s : State) (p k stamp : Nat) : (s.sticky p k stamp).therm = s.therm := by
  unfold State.sticky; split
  · split
    · rfl
    · rw [event_therm]; rfl
  · rfl
@[simp] theorem sticky_rasters (s : State) (p k stamp : Nat) : (s.sticky p k stamp).rasters = s.rasters := by
  unfold State.sticky; split
  · split
    · rfl
    · rw [event_rasters]; rfl
  · rfl
@[simp] theorem sticky_glazes (s : State) (p k stamp : Nat) : (s.sticky p k stamp).glazes = s.glazes := by
  unfold State.sticky; split
  · split
    · rfl
    · rw [event_glazes]; rfl
  · rfl
@[simp] theorem sticky_axes (s : State) (p k stamp : Nat) : (s.sticky p k stamp).axes = s.axes := by
  unfold State.sticky; split
  · split
    · rfl
    · rw [event_axes]; rfl
  · rfl
@[simp] theorem sticky_engines (s : State) (p k stamp : Nat) : (s.sticky p k stamp).engines = s.engines := by
  unfold State.sticky; split
  · split
    · rfl
    · rw [event_engines]; rfl
  · rfl
@[simp] theorem sticky_steppers (s : State) (p k stamp : Nat) : (s.sticky p k stamp).steppers = s.steppers := by
  unfold State.sticky; split
  · split
    · rfl
    · rw [event_steppers]; rfl
  · rfl
@[simp] theorem sticky_cams (s : State) (p k stamp : Nat) : (s.sticky p k stamp).cams = s.cams := by
  unfold State.sticky; split
  · split
    · rfl
    · rw [event_cams]; rfl
  · rfl
@[simp] theorem sticky_camPorts (s : State) (p k stamp : Nat) : (s.sticky p k stamp).camPorts = s.camPorts := by
  unfold State.sticky; split
  · split
    · rfl
    · rw [event_camPorts]; rfl
  · rfl
@[simp] theorem sticky_streams (s : State) (p k stamp : Nat) : (s.sticky p k stamp).streams = s.streams := by
  unfold State.sticky; split
  · split
    · rfl
    · rw [event_streams]; rfl
  · rfl
@[simp] theorem sticky_trigs (s : State) (p k stamp : Nat) : (s.sticky p k stamp).trigs = s.trigs := by
  unfold State.sticky; split
  · split
    · rfl
    · rw [event_trigs]; rfl
  · rfl
@[simp] theorem sticky_vision (s : State) (p k stamp : Nat) : (s.sticky p k stamp).vision = s.vision := by
  unfold State.sticky; split
  · split
    · rfl
    · rw [event_vision]; rfl
  · rfl
@[simp] theorem sticky_lights (s : State) (p k stamp : Nat) : (s.sticky p k stamp).lights = s.lights := by
  unfold State.sticky; split
  · split
    · rfl
    · rw [event_lights]; rfl
  · rfl
@[simp] theorem sticky_bankTest (s : State) (p k stamp : Nat) : (s.sticky p k stamp).bankTest = s.bankTest := by
  unfold State.sticky; split
  · split
    · rfl
    · rw [event_bankTest]; rfl
  · rfl
@[simp] theorem sticky_xch (s : State) (p k stamp : Nat) : (s.sticky p k stamp).xch = s.xch := by
  unfold State.sticky; split
  · split
    · rfl
    · rw [event_xch]; rfl
  · rfl
@[simp] theorem sticky_drams (s : State) (p k stamp : Nat) : (s.sticky p k stamp).drams = s.drams := by
  unfold State.sticky; split
  · split
    · rfl
    · rw [event_drams]; rfl
  · rfl
@[simp] theorem sticky_training (s : State) (p k stamp : Nat) : (s.sticky p k stamp).training = s.training := by
  unfold State.sticky; split
  · split
    · rfl
    · rw [event_training]; rfl
  · rfl
@[simp] theorem sticky_retrain (s : State) (p k stamp : Nat) : (s.sticky p k stamp).retrain = s.retrain := by
  unfold State.sticky; split
  · split
    · rfl
    · rw [event_retrain]; rfl
  · rfl
@[simp] theorem sticky_sweeps (s : State) (p k stamp : Nat) : (s.sticky p k stamp).sweeps = s.sweeps := by
  unfold State.sticky; split
  · split
    · rfl
    · rw [event_sweeps]; rfl
  · rfl
@[simp] theorem sticky_dramCycle (s : State) (p k stamp : Nat) : (s.sticky p k stamp).dramCycle = s.dramCycle := by
  unfold State.sticky; split
  · split
    · rfl
    · rw [event_dramCycle]; rfl
  · rfl
@[simp] theorem sticky_hostCycle (s : State) (p k stamp : Nat) : (s.sticky p k stamp).hostCycle = s.hostCycle := by
  unfold State.sticky; split
  · split
    · rfl
    · rw [event_hostCycle]; rfl
  · rfl
@[simp] theorem sticky_tap (s : State) (p k stamp : Nat) : (s.sticky p k stamp).tap = s.tap := by
  unfold State.sticky; split
  · split
    · rfl
    · rw [event_tap]; rfl
  · rfl
@[simp] theorem sticky_byte (s : State) (p k stamp : Nat) (a : Nat) : (s.sticky p k stamp).byte a = s.byte a := by simp [State.byte]
@[simp] theorem sticky_actWord (s : State) (p k stamp : Nat) (a : Nat) : (s.sticky p k stamp).actWord a = s.actWord a := by simp [State.actWord]
@[simp] theorem sticky_snapWord (s : State) (p k stamp : Nat) (a : Nat) : (s.sticky p k stamp).snapWord a = s.snapWord a := by simp [State.snapWord]

/-! A field of another register reads as before after an event or a sticky flag. -/
theorem f_event (s : State) (p k stamp q : Nat) (g : Fld) (hg : g.off < 0x1000) (h1 : q ≠ p ∨ g.off ≠ Reg.EVENT.off)
    (h2 : q ≠ Pg.EVCOL ∨ g.off ≠ Reg.EVCOL_MERGED.off) : (s.event p k stamp).f q g = s.f q g := by
  rw [f_word, f_word, word_event]
  · refine (not_congr (regAddr_inj hg (by decide))).mpr ?_; exact fun x => h1.elim (absurd x.1) (absurd x.2)
  · refine (not_congr (regAddr_inj hg (by decide))).mpr ?_; exact fun x => h2.elim (absurd x.1) (absurd x.2)

theorem f_sticky (s : State) (p k stamp q : Nat) (g : Fld) (hg : g.off < 0x1000)
    (h1 : q ≠ p ∨ (g.off ≠ Reg.EVENT.off ∧ g.off ≠ Reg.ERROR_STICKY.off)) (h2 : q ≠ Pg.EVCOL ∨ g.off ≠ Reg.EVCOL_MERGED.off) :
    (s.sticky p k stamp).f q g = s.f q g := by
  unfold State.sticky
  split
  · split
    · rfl
    · rw [f_event _ _ _ _ _ _ hg (h1.imp id And.left) h2]
      refine congrArg (fldOf · g) (word_setF_other _ _ _ _ _ ?_)
      refine (not_congr (regAddr_inj (r := Reg.ERROR_STICKY.off) hg (by decide))).mpr ?_; exact fun x => h1.elim (absurd x.1) fun y => absurd x.2 y.2
  · rfl

@[simp] theorem inc_eq (s : State) (p : Nat) (fl : Fld) (n : Nat) : s.inc p fl n = s.setF p fl (satU (s.f p fl + n) fl.width) := rfl

/-! Stored bytes change memory and nothing else. -/
@[simp] theorem setBytes_pending (l : List Byte) : ∀ (s : State) (a : Nat), (s.setBytes a l).pending = s.pending := by
  induction l with | nil => intro s a; rfl | cons b r ih => intro s a; exact (ih (s.setByte a b) (a + 1)).trans rfl
@[simp] theorem setBytes_regs (l : List Byte) : ∀ (s : State) (a : Nat), (s.setBytes a l).regs = s.regs := by
  induction l with | nil => intro s a; rfl | cons b r ih => intro s a; exact (ih (s.setByte a b) (a + 1)).trans rfl
@[simp] theorem setBytes_active (l : List Byte) : ∀ (s : State) (a : Nat), (s.setBytes a l).active = s.active := by
  induction l with | nil => intro s a; rfl | cons b r ih => intro s a; exact (ih (s.setByte a b) (a + 1)).trans rfl
@[simp] theorem setBytes_snap (l : List Byte) : ∀ (s : State) (a : Nat), (s.setBytes a l).snap = s.snap := by
  induction l with | nil => intro s a; rfl | cons b r ih => intro s a; exact (ih (s.setByte a b) (a + 1)).trans rfl
@[simp] theorem setBytes_commitAt (l : List Byte) : ∀ (s : State) (a : Nat), (s.setBytes a l).commitAt = s.commitAt := by
  induction l with | nil => intro s a; rfl | cons b r ih => intro s a; exact (ih (s.setByte a b) (a + 1)).trans rfl
@[simp] theorem setBytes_shadowWas (l : List Byte) : ∀ (s : State) (a : Nat), (s.setBytes a l).shadowWas = s.shadowWas := by
  induction l with | nil => intro s a; rfl | cons b r ih => intro s a; exact (ih (s.setByte a b) (a + 1)).trans rfl
@[simp] theorem setBytes_enteredAt (l : List Byte) : ∀ (s : State) (a : Nat), (s.setBytes a l).enteredAt = s.enteredAt := by
  induction l with | nil => intro s a; rfl | cons b r ih => intro s a; exact (ih (s.setByte a b) (a + 1)).trans rfl
@[simp] theorem setBytes_lastEv (l : List Byte) : ∀ (s : State) (a : Nat), (s.setBytes a l).lastEv = s.lastEv := by
  induction l with | nil => intro s a; rfl | cons b r ih => intro s a; exact (ih (s.setByte a b) (a + 1)).trans rfl
@[simp] theorem setBytes_freeCtr (l : List Byte) : ∀ (s : State) (a : Nat), (s.setBytes a l).freeCtr = s.freeCtr := by
  induction l with | nil => intro s a; rfl | cons b r ih => intro s a; exact (ih (s.setByte a b) (a + 1)).trans rfl
@[simp] theorem setBytes_lanes (l : List Byte) : ∀ (s : State) (a : Nat), (s.setBytes a l).lanes = s.lanes := by
  induction l with | nil => intro s a; rfl | cons b r ih => intro s a; exact (ih (s.setByte a b) (a + 1)).trans rfl
@[simp] theorem setBytes_heads (l : List Byte) : ∀ (s : State) (a : Nat), (s.setBytes a l).heads = s.heads := by
  induction l with | nil => intro s a; rfl | cons b r ih => intro s a; exact (ih (s.setByte a b) (a + 1)).trans rfl
@[simp] theorem setBytes_time (l : List Byte) : ∀ (s : State) (a : Nat), (s.setBytes a l).time = s.time := by
  induction l with | nil => intro s a; rfl | cons b r ih => intro s a; exact (ih (s.setByte a b) (a + 1)).trans rfl
@[simp] theorem setBytes_clk (l : List Byte) : ∀ (s : State) (a : Nat), (s.setBytes a l).clk = s.clk := by
  induction l with | nil => intro s a; rfl | cons b r ih => intro s a; exact (ih (s.setByte a b) (a + 1)).trans rfl
@[simp] theorem setBytes_pwr (l : List Byte) : ∀ (s : State) (a : Nat), (s.setBytes a l).pwr = s.pwr := by
  induction l with | nil => intro s a; rfl | cons b r ih => intro s a; exact (ih (s.setByte a b) (a + 1)).trans rfl
@[simp] theorem setBytes_ev (l : List Byte) : ∀ (s : State) (a : Nat), (s.setBytes a l).ev = s.ev := by
  induction l with | nil => intro s a; rfl | cons b r ih => intro s a; exact (ih (s.setByte a b) (a + 1)).trans rfl
@[simp] theorem setBytes_knife (l : List Byte) : ∀ (s : State) (a : Nat), (s.setBytes a l).knife = s.knife := by
  induction l with | nil => intro s a; rfl | cons b r ih => intro s a; exact (ih (s.setByte a b) (a + 1)).trans rfl
@[simp] theorem setBytes_dip (l : List Byte) : ∀ (s : State) (a : Nat), (s.setBytes a l).dip = s.dip := by
  induction l with | nil => intro s a; rfl | cons b r ih => intro s a; exact (ih (s.setByte a b) (a + 1)).trans rfl
@[simp] theorem setBytes_rcd (l : List Byte) : ∀ (s : State) (a : Nat), (s.setBytes a l).rcd = s.rcd := by
  induction l with | nil => intro s a; rfl | cons b r ih => intro s a; exact (ih (s.setByte a b) (a + 1)).trans rfl
@[simp] theorem setBytes_brushes (l : List Byte) : ∀ (s : State) (a : Nat), (s.setBytes a l).brushes = s.brushes := by
  induction l with | nil => intro s a; rfl | cons b r ih => intro s a; exact (ih (s.setByte a b) (a + 1)).trans rfl
@[simp] theorem setBytes_lasers (l : List Byte) : ∀ (s : State) (a : Nat), (s.setBytes a l).lasers = s.lasers := by
  induction l with | nil => intro s a; rfl | cons b r ih => intro s a; exact (ih (s.setByte a b) (a + 1)).trans rfl
@[simp] theorem setBytes_encs (l : List Byte) : ∀ (s : State) (a : Nat), (s.setBytes a l).encs = s.encs := by
  induction l with | nil => intro s a; rfl | cons b r ih => intro s a; exact (ih (s.setByte a b) (a + 1)).trans rfl
@[simp] theorem setBytes_medium (l : List Byte) : ∀ (s : State) (a : Nat), (s.setBytes a l).medium = s.medium := by
  induction l with | nil => intro s a; rfl | cons b r ih => intro s a; exact (ih (s.setByte a b) (a + 1)).trans rfl
@[simp] theorem setBytes_cal (l : List Byte) : ∀ (s : State) (a : Nat), (s.setBytes a l).cal = s.cal := by
  induction l with | nil => intro s a; rfl | cons b r ih => intro s a; exact (ih (s.setByte a b) (a + 1)).trans rfl
@[simp] theorem setBytes_bist (l : List Byte) : ∀ (s : State) (a : Nat), (s.setBytes a l).bist = s.bist := by
  induction l with | nil => intro s a; rfl | cons b r ih => intro s a; exact (ih (s.setByte a b) (a + 1)).trans rfl
@[simp] theorem setBytes_therm (l : List Byte) : ∀ (s : State) (a : Nat), (s.setBytes a l).therm = s.therm := by
  induction l with | nil => intro s a; rfl | cons b r ih => intro s a; exact (ih (s.setByte a b) (a + 1)).trans rfl
@[simp] theorem setBytes_rasters (l : List Byte) : ∀ (s : State) (a : Nat), (s.setBytes a l).rasters = s.rasters := by
  induction l with | nil => intro s a; rfl | cons b r ih => intro s a; exact (ih (s.setByte a b) (a + 1)).trans rfl
@[simp] theorem setBytes_glazes (l : List Byte) : ∀ (s : State) (a : Nat), (s.setBytes a l).glazes = s.glazes := by
  induction l with | nil => intro s a; rfl | cons b r ih => intro s a; exact (ih (s.setByte a b) (a + 1)).trans rfl
@[simp] theorem setBytes_axes (l : List Byte) : ∀ (s : State) (a : Nat), (s.setBytes a l).axes = s.axes := by
  induction l with | nil => intro s a; rfl | cons b r ih => intro s a; exact (ih (s.setByte a b) (a + 1)).trans rfl
@[simp] theorem setBytes_engines (l : List Byte) : ∀ (s : State) (a : Nat), (s.setBytes a l).engines = s.engines := by
  induction l with | nil => intro s a; rfl | cons b r ih => intro s a; exact (ih (s.setByte a b) (a + 1)).trans rfl
@[simp] theorem setBytes_steppers (l : List Byte) : ∀ (s : State) (a : Nat), (s.setBytes a l).steppers = s.steppers := by
  induction l with | nil => intro s a; rfl | cons b r ih => intro s a; exact (ih (s.setByte a b) (a + 1)).trans rfl
@[simp] theorem setBytes_cams (l : List Byte) : ∀ (s : State) (a : Nat), (s.setBytes a l).cams = s.cams := by
  induction l with | nil => intro s a; rfl | cons b r ih => intro s a; exact (ih (s.setByte a b) (a + 1)).trans rfl
@[simp] theorem setBytes_camPorts (l : List Byte) : ∀ (s : State) (a : Nat), (s.setBytes a l).camPorts = s.camPorts := by
  induction l with | nil => intro s a; rfl | cons b r ih => intro s a; exact (ih (s.setByte a b) (a + 1)).trans rfl
@[simp] theorem setBytes_streams (l : List Byte) : ∀ (s : State) (a : Nat), (s.setBytes a l).streams = s.streams := by
  induction l with | nil => intro s a; rfl | cons b r ih => intro s a; exact (ih (s.setByte a b) (a + 1)).trans rfl
@[simp] theorem setBytes_trigs (l : List Byte) : ∀ (s : State) (a : Nat), (s.setBytes a l).trigs = s.trigs := by
  induction l with | nil => intro s a; rfl | cons b r ih => intro s a; exact (ih (s.setByte a b) (a + 1)).trans rfl
@[simp] theorem setBytes_vision (l : List Byte) : ∀ (s : State) (a : Nat), (s.setBytes a l).vision = s.vision := by
  induction l with | nil => intro s a; rfl | cons b r ih => intro s a; exact (ih (s.setByte a b) (a + 1)).trans rfl
@[simp] theorem setBytes_lights (l : List Byte) : ∀ (s : State) (a : Nat), (s.setBytes a l).lights = s.lights := by
  induction l with | nil => intro s a; rfl | cons b r ih => intro s a; exact (ih (s.setByte a b) (a + 1)).trans rfl
@[simp] theorem setBytes_bankTest (l : List Byte) : ∀ (s : State) (a : Nat), (s.setBytes a l).bankTest = s.bankTest := by
  induction l with | nil => intro s a; rfl | cons b r ih => intro s a; exact (ih (s.setByte a b) (a + 1)).trans rfl
@[simp] theorem setBytes_xch (l : List Byte) : ∀ (s : State) (a : Nat), (s.setBytes a l).xch = s.xch := by
  induction l with | nil => intro s a; rfl | cons b r ih => intro s a; exact (ih (s.setByte a b) (a + 1)).trans rfl
@[simp] theorem setBytes_drams (l : List Byte) : ∀ (s : State) (a : Nat), (s.setBytes a l).drams = s.drams := by
  induction l with | nil => intro s a; rfl | cons b r ih => intro s a; exact (ih (s.setByte a b) (a + 1)).trans rfl
@[simp] theorem setBytes_training (l : List Byte) : ∀ (s : State) (a : Nat), (s.setBytes a l).training = s.training := by
  induction l with | nil => intro s a; rfl | cons b r ih => intro s a; exact (ih (s.setByte a b) (a + 1)).trans rfl
@[simp] theorem setBytes_retrain (l : List Byte) : ∀ (s : State) (a : Nat), (s.setBytes a l).retrain = s.retrain := by
  induction l with | nil => intro s a; rfl | cons b r ih => intro s a; exact (ih (s.setByte a b) (a + 1)).trans rfl
@[simp] theorem setBytes_sweeps (l : List Byte) : ∀ (s : State) (a : Nat), (s.setBytes a l).sweeps = s.sweeps := by
  induction l with | nil => intro s a; rfl | cons b r ih => intro s a; exact (ih (s.setByte a b) (a + 1)).trans rfl
@[simp] theorem setBytes_dramCycle (l : List Byte) : ∀ (s : State) (a : Nat), (s.setBytes a l).dramCycle = s.dramCycle := by
  induction l with | nil => intro s a; rfl | cons b r ih => intro s a; exact (ih (s.setByte a b) (a + 1)).trans rfl
@[simp] theorem setBytes_hostCycle (l : List Byte) : ∀ (s : State) (a : Nat), (s.setBytes a l).hostCycle = s.hostCycle := by
  induction l with | nil => intro s a; rfl | cons b r ih => intro s a; exact (ih (s.setByte a b) (a + 1)).trans rfl
@[simp] theorem setBytes_tap (l : List Byte) : ∀ (s : State) (a : Nat), (s.setBytes a l).tap = s.tap := by
  induction l with | nil => intro s a; rfl | cons b r ih => intro s a; exact (ih (s.setByte a b) (a + 1)).trans rfl

/-! Adding to an accumulator of the recorder changes memory and nothing else. -/
@[simp] theorem accPut_pending (s : State) (o k n : Nat) : (s.accPut o k n).pending = s.pending := by unfold State.accPut; split; exacts [setBytes_pending _ _ _, rfl]
@[simp] theorem accPut_regs (s : State) (o k n : Nat) : (s.accPut o k n).regs = s.regs := by unfold State.accPut; split; exacts [setBytes_regs _ _ _, rfl]
@[simp] theorem accPut_active (s : State) (o k n : Nat) : (s.accPut o k n).active = s.active := by unfold State.accPut; split; exacts [setBytes_active _ _ _, rfl]
@[simp] theorem accPut_snap (s : State) (o k n : Nat) : (s.accPut o k n).snap = s.snap := by unfold State.accPut; split; exacts [setBytes_snap _ _ _, rfl]
@[simp] theorem accPut_commitAt (s : State) (o k n : Nat) : (s.accPut o k n).commitAt = s.commitAt := by unfold State.accPut; split; exacts [setBytes_commitAt _ _ _, rfl]
@[simp] theorem accPut_shadowWas (s : State) (o k n : Nat) : (s.accPut o k n).shadowWas = s.shadowWas := by unfold State.accPut; split; exacts [setBytes_shadowWas _ _ _, rfl]
@[simp] theorem accPut_enteredAt (s : State) (o k n : Nat) : (s.accPut o k n).enteredAt = s.enteredAt := by unfold State.accPut; split; exacts [setBytes_enteredAt _ _ _, rfl]
@[simp] theorem accPut_lastEv (s : State) (o k n : Nat) : (s.accPut o k n).lastEv = s.lastEv := by unfold State.accPut; split; exacts [setBytes_lastEv _ _ _, rfl]
@[simp] theorem accPut_freeCtr (s : State) (o k n : Nat) : (s.accPut o k n).freeCtr = s.freeCtr := by unfold State.accPut; split; exacts [setBytes_freeCtr _ _ _, rfl]
@[simp] theorem accPut_lanes (s : State) (o k n : Nat) : (s.accPut o k n).lanes = s.lanes := by unfold State.accPut; split; exacts [setBytes_lanes _ _ _, rfl]
@[simp] theorem accPut_heads (s : State) (o k n : Nat) : (s.accPut o k n).heads = s.heads := by unfold State.accPut; split; exacts [setBytes_heads _ _ _, rfl]
@[simp] theorem accPut_time (s : State) (o k n : Nat) : (s.accPut o k n).time = s.time := by unfold State.accPut; split; exacts [setBytes_time _ _ _, rfl]
@[simp] theorem accPut_clk (s : State) (o k n : Nat) : (s.accPut o k n).clk = s.clk := by unfold State.accPut; split; exacts [setBytes_clk _ _ _, rfl]
@[simp] theorem accPut_pwr (s : State) (o k n : Nat) : (s.accPut o k n).pwr = s.pwr := by unfold State.accPut; split; exacts [setBytes_pwr _ _ _, rfl]
@[simp] theorem accPut_ev (s : State) (o k n : Nat) : (s.accPut o k n).ev = s.ev := by unfold State.accPut; split; exacts [setBytes_ev _ _ _, rfl]
@[simp] theorem accPut_knife (s : State) (o k n : Nat) : (s.accPut o k n).knife = s.knife := by unfold State.accPut; split; exacts [setBytes_knife _ _ _, rfl]
@[simp] theorem accPut_dip (s : State) (o k n : Nat) : (s.accPut o k n).dip = s.dip := by unfold State.accPut; split; exacts [setBytes_dip _ _ _, rfl]
@[simp] theorem accPut_rcd (s : State) (o k n : Nat) : (s.accPut o k n).rcd = s.rcd := by unfold State.accPut; split; exacts [setBytes_rcd _ _ _, rfl]
@[simp] theorem accPut_brushes (s : State) (o k n : Nat) : (s.accPut o k n).brushes = s.brushes := by unfold State.accPut; split; exacts [setBytes_brushes _ _ _, rfl]
@[simp] theorem accPut_lasers (s : State) (o k n : Nat) : (s.accPut o k n).lasers = s.lasers := by unfold State.accPut; split; exacts [setBytes_lasers _ _ _, rfl]
@[simp] theorem accPut_encs (s : State) (o k n : Nat) : (s.accPut o k n).encs = s.encs := by unfold State.accPut; split; exacts [setBytes_encs _ _ _, rfl]
@[simp] theorem accPut_medium (s : State) (o k n : Nat) : (s.accPut o k n).medium = s.medium := by unfold State.accPut; split; exacts [setBytes_medium _ _ _, rfl]
@[simp] theorem accPut_cal (s : State) (o k n : Nat) : (s.accPut o k n).cal = s.cal := by unfold State.accPut; split; exacts [setBytes_cal _ _ _, rfl]
@[simp] theorem accPut_bist (s : State) (o k n : Nat) : (s.accPut o k n).bist = s.bist := by unfold State.accPut; split; exacts [setBytes_bist _ _ _, rfl]
@[simp] theorem accPut_therm (s : State) (o k n : Nat) : (s.accPut o k n).therm = s.therm := by unfold State.accPut; split; exacts [setBytes_therm _ _ _, rfl]
@[simp] theorem accPut_rasters (s : State) (o k n : Nat) : (s.accPut o k n).rasters = s.rasters := by unfold State.accPut; split; exacts [setBytes_rasters _ _ _, rfl]
@[simp] theorem accPut_glazes (s : State) (o k n : Nat) : (s.accPut o k n).glazes = s.glazes := by unfold State.accPut; split; exacts [setBytes_glazes _ _ _, rfl]
@[simp] theorem accPut_axes (s : State) (o k n : Nat) : (s.accPut o k n).axes = s.axes := by unfold State.accPut; split; exacts [setBytes_axes _ _ _, rfl]
@[simp] theorem accPut_engines (s : State) (o k n : Nat) : (s.accPut o k n).engines = s.engines := by unfold State.accPut; split; exacts [setBytes_engines _ _ _, rfl]
@[simp] theorem accPut_steppers (s : State) (o k n : Nat) : (s.accPut o k n).steppers = s.steppers := by unfold State.accPut; split; exacts [setBytes_steppers _ _ _, rfl]
@[simp] theorem accPut_cams (s : State) (o k n : Nat) : (s.accPut o k n).cams = s.cams := by unfold State.accPut; split; exacts [setBytes_cams _ _ _, rfl]
@[simp] theorem accPut_camPorts (s : State) (o k n : Nat) : (s.accPut o k n).camPorts = s.camPorts := by unfold State.accPut; split; exacts [setBytes_camPorts _ _ _, rfl]
@[simp] theorem accPut_streams (s : State) (o k n : Nat) : (s.accPut o k n).streams = s.streams := by unfold State.accPut; split; exacts [setBytes_streams _ _ _, rfl]
@[simp] theorem accPut_trigs (s : State) (o k n : Nat) : (s.accPut o k n).trigs = s.trigs := by unfold State.accPut; split; exacts [setBytes_trigs _ _ _, rfl]
@[simp] theorem accPut_vision (s : State) (o k n : Nat) : (s.accPut o k n).vision = s.vision := by unfold State.accPut; split; exacts [setBytes_vision _ _ _, rfl]
@[simp] theorem accPut_lights (s : State) (o k n : Nat) : (s.accPut o k n).lights = s.lights := by unfold State.accPut; split; exacts [setBytes_lights _ _ _, rfl]
@[simp] theorem accPut_bankTest (s : State) (o k n : Nat) : (s.accPut o k n).bankTest = s.bankTest := by unfold State.accPut; split; exacts [setBytes_bankTest _ _ _, rfl]
@[simp] theorem accPut_xch (s : State) (o k n : Nat) : (s.accPut o k n).xch = s.xch := by unfold State.accPut; split; exacts [setBytes_xch _ _ _, rfl]
@[simp] theorem accPut_drams (s : State) (o k n : Nat) : (s.accPut o k n).drams = s.drams := by unfold State.accPut; split; exacts [setBytes_drams _ _ _, rfl]
@[simp] theorem accPut_training (s : State) (o k n : Nat) : (s.accPut o k n).training = s.training := by unfold State.accPut; split; exacts [setBytes_training _ _ _, rfl]
@[simp] theorem accPut_retrain (s : State) (o k n : Nat) : (s.accPut o k n).retrain = s.retrain := by unfold State.accPut; split; exacts [setBytes_retrain _ _ _, rfl]
@[simp] theorem accPut_sweeps (s : State) (o k n : Nat) : (s.accPut o k n).sweeps = s.sweeps := by unfold State.accPut; split; exacts [setBytes_sweeps _ _ _, rfl]
@[simp] theorem accPut_dramCycle (s : State) (o k n : Nat) : (s.accPut o k n).dramCycle = s.dramCycle := by unfold State.accPut; split; exacts [setBytes_dramCycle _ _ _, rfl]
@[simp] theorem accPut_hostCycle (s : State) (o k n : Nat) : (s.accPut o k n).hostCycle = s.hostCycle := by unfold State.accPut; split; exacts [setBytes_hostCycle _ _ _, rfl]
@[simp] theorem accPut_tap (s : State) (o k n : Nat) : (s.accPut o k n).tap = s.tap := by unfold State.accPut; split; exacts [setBytes_tap _ _ _, rfl]
@[simp] theorem accPut_actWord (s : State) (o k n : Nat) (a : Nat) : (s.accPut o k n).actWord a = s.actWord a := by simp [State.actWord]
@[simp] theorem accPut_snapWord (s : State) (o k n : Nat) (a : Nat) : (s.accPut o k n).snapWord a = s.snapWord a := by simp [State.snapWord]

@[simp] theorem accPut_word (s : State) (o k n a : Nat) : (s.accPut o k n).word a = s.word a := by simp [State.word]
@[simp] theorem accPut_f (s : State) (o k n p : Nat) (fl : Fld) : (s.accPut o k n).f p fl = s.f p fl := by simp [State.f]

/-- The accumulators lie in the recorder's bank: every byte below it stays. -/
theorem byte_accPut (s : State) (o k n a : Nat) (h : a < accAddr o ∨ accAddr o + k ≤ a) : (s.accPut o k n).byte a = s.byte a := by
  unfold State.accPut; split
  · have hl : ∀ k v, (leBytes k v).length = k := by
      intro k; induction k with | zero => intro v; rfl | succ k ih => intro v; simp [leBytes, ih]
    exact byte_setBytes_outside _ _ _ _ (by rw [hl]; exact h)
  · rfl

/-- With no stored word in error, an accumulator takes its addition and nothing else happens. -/
theorem accAdd_clean (s : State) (o k n : Nat) (h : s.memErr = []) : s.accAdd o k n = s.accPut o k n := by
  have : s.accClean o k = s := by unfold State.accClean; rw [h]; rfl
  unfold State.accAdd; rw [this]; split <;> rfl

end Sys2Proof.Laws
end

