-- ==== Sys2Proof/Laws/Frames.lean ====
section
/-! SUPPORT. Everything the shared operations can change, as one relation that composes: registers, events and offers, the recorder's accumulators,
the laser ports, and device A's declaration of a fault. -/

namespace Sys2Proof.Laws

open Sys2Proof.Machine

/-- `u` is `s` but for registers, event marks, offers, memory with its stored errors, laser ports, and a declaration that is due. -/
def Noted (s u : State) : Prop :=
  u = { s with
    regs := u.regs, lastEv := u.lastEv, ev := { s.ev with offers := u.ev.offers }, mem := u.mem, memErr := u.memErr, lasers := u.lasers,
    dip := { s.dip with declareDue := u.dip.declareDue } }

theorem Noted.rfl' (s : State) : Noted s s := rfl

theorem Noted.trans {s u v : State} (h : Noted s u) (k : Noted u v) : Noted s v := by
  unfold Noted at *
  rw [k]
  conv_lhs => rw [h]

/-- An operation that keeps the relation keeps it over a list. -/
theorem Noted.each {α : Type} (g : State → α → State) (h : ∀ s x, Noted s (g s x)) (l : List α) : ∀ s : State, Noted s (s.each l g) := by
  induction l with
  | nil => exact Noted.rfl'
  | cons x r ih => exact fun s => (h s x).trans (ih (g s x))

theorem Noted.when (g : State → State) (h : ∀ s, Noted s (g s)) (c : Bool) (s : State) : Noted s (s.when c g) := by
  cases c
  · exact Noted.rfl' s
  · exact h s

theorem noted_setWord (s : State) (a : Nat) (v : Word) : Noted s (s.setWord a v) := rfl
theorem noted_setF (s : State) (p : Nat) (fl : Fld) (v : Nat) : Noted s (s.setF p fl v) := rfl
theorem noted_setB (s : State) (p : Nat) (fl : Fld) (v : Bool) : Noted s (s.setB p fl v) := rfl
theorem noted_inc (s : State) (p : Nat) (fl : Fld) (n : Nat) : Noted s (s.inc p fl n) := rfl
theorem noted_setPair (s : State) (p : Nat) (lo hi : Fld) (v : Nat) : Noted s (s.setPair p lo hi v) := rfl
theorem noted_setByte (s : State) (a : Nat) (v : Byte) : Noted s (s.setByte a v) := rfl
theorem noted_setLaser (s : State) (n : Fin 16) (g : Laser → Laser) : Noted s (s.setLaser n g) := rfl
theorem noted_markEv (s : State) (src : Nat) : Noted s (s.markEv src) := rfl

theorem noted_setBytes (l : List Byte) : ∀ (s : State) (a : Nat), Noted s (s.setBytes a l) := by
  induction l with
  | nil => exact fun s _ => Noted.rfl' s
  | cons b r ih => exact fun s a => (noted_setByte s a b).trans (ih _ _)

theorem noted_offer (s : State) (src stamp : Nat) : Noted s (s.offer src stamp) :=
  Noted.trans (u := { s with ev := { s.ev with offers := offerInsert src stamp s.ev.offers } }) rfl
    (Noted.when _ (fun u => noted_inc u Pg.EVCOL Reg.EVCOL_MERGED 1) _ _)

/-- What an event can change (R42). -/
theorem noted_event (s : State) (p k stamp : Nat) : Noted s (s.event p k stamp) := by
  unfold State.event
  split
  · exact Noted.trans (u := (s.markEv (p * 32 + k)).setF p Reg.EVENT (putBit (s.f p Reg.EVENT) k true)) rfl
      (Noted.when _ (fun u => noted_offer u _ _) _ _)
  · rfl

/-- What a sticky flag can change (R32). -/
theorem noted_sticky (s : State) (p k stamp : Nat) : Noted s (s.sticky p k stamp) := by
  unfold State.sticky
  split
  · split
    · rfl
    · exact (noted_setF _ _ _ _).trans (noted_event _ _ _ _)
  · rfl

theorem noted_accPut (s : State) (o k n : Nat) : Noted s (s.accPut o k n) := by
  unfold State.accPut
  split
  · exact noted_setBytes _ _ _
  · rfl

/-- What a declaration can change (R318). -/
theorem noted_declare (s : State) (bit : Nat) : Noted s (s.declare bit) := by
  unfold State.declare State.declareNow
  split
  · split
    · split
      · rfl
      · exact noted_sticky _ _ _ _
    · exact noted_sticky _ _ _ _
  · rfl

/-- What a stored word in error can change as it is read (R339). -/
theorem noted_bankFinds (s : State) (acc : State → Nat → State) (h : ∀ s o, Noted s (acc s o)) (b off n : Nat) :
    Noted s (s.bankFinds acc b off n) := by
  unfold State.bankFinds
  split
  · exact ((noted_inc _ _ _ _).trans (noted_event _ _ _ _)).trans (h _ _)
  · refine Noted.trans ?_ (noted_setF _ _ _ _)
    refine Noted.trans ?_ (noted_setF _ _ _ _)
    refine Noted.trans ?_ (noted_setF _ _ _ _)
    refine Noted.trans ?_ (noted_setF _ _ _ _)
    refine Noted.trans ?_ (noted_setB _ _ _ _)
    exact ((((noted_inc _ _ _ _).trans (h _ _)).trans (noted_sticky _ _ _ _)).trans (noted_event _ _ _ _)).trans (noted_declare _ _)

theorem noted_accClean (s : State) (o n : Nat) : Noted s (s.accClean o n) := by
  refine Noted.each _ (fun s e => ?_) _ _
  have h := noted_bankFinds s (fun s o => s.accPut o 2 1) (fun s o => noted_accPut s o 2 1) 18 (e.1 - recordBank) e.2
  dsimp only
  split
  · exact h
  · exact h.trans (noted_setBytes _ _ _)

/-- What adding to an accumulator can change (R371). -/
theorem noted_accAdd (s : State) (o k n : Nat) : Noted s (s.accAdd o k n) := by
  unfold State.accAdd
  refine Noted.trans ?_ (noted_accPut _ _ _ _)
  split
  · exact noted_accClean _ _ _
  · rfl

/-! No laser port changes by it. -/

theorem each_lasers {α : Type} (g : State → α → State) (h : ∀ s x, (g s x).lasers = s.lasers) (l : List α) :
    ∀ s : State, (s.each l g).lasers = s.lasers := by
  induction l with
  | nil => exact fun _ => rfl
  | cons x r ih => exact fun s => (ih (g s x)).trans (h s x)

theorem declare_lasers (s : State) (bit : Nat) : (s.declare bit).lasers = s.lasers := by
  unfold State.declare State.declareNow
  repeat' split
  all_goals first | rfl | exact sticky_lasers _ _ _ _

theorem bankFinds_lasers (s : State) (acc : State → Nat → State) (h : ∀ s o, (acc s o).lasers = s.lasers) (b off n : Nat) :
    (s.bankFinds acc b off n).lasers = s.lasers := by
  unfold State.bankFinds
  split
  · rw [h, State.ev!, event_lasers]; rfl
  · rw [State.setF, setWord_lasers, State.setF, setWord_lasers, State.setF, setWord_lasers, State.setF, setWord_lasers, State.setB, setF_lasers,
      declare_lasers, State.ev!, event_lasers, State.sticky!, sticky_lasers, h]; rfl

theorem accAdd_lasers (s : State) (o k n : Nat) : (s.accAdd o k n).lasers = s.lasers := by
  unfold State.accAdd
  rw [accPut_lasers]
  split
  · refine each_lasers _ (fun s e => ?_) _ _
    have h := bankFinds_lasers s (fun s o => s.accPut o 2 1) (fun s o => accPut_lasers s o 2 1) 18 (e.1 - recordBank) e.2
    dsimp only
    split
    · exact h
    · exact (setBytes_lasers _ _ _).trans h
  · rfl

/-- What showing the pins of a laser port can change. -/
theorem noted_pinShow (s : State) (n : Fin 16) (was : Bool) : Noted s (s.pinShow n was) := by
  simp only [State.pinShow]
  generalize s.lasers[n] = l
  split
  · refine Noted.trans ?_ (Noted.when _ (fun u => noted_inc u _ _ _) _ _)
    exact (((noted_setB s _ _ _).trans (noted_setB _ _ _ _)).trans (noted_setB _ _ _ _)).trans (noted_setB _ _ _ _)
  · exact Noted.rfl' s

/-- What bringing the pins of a laser port up to date can change (R303). -/
theorem noted_pins (s : State) (n : Fin 16) : Noted s (s.pins n) :=
  ((noted_setLaser s n _).trans (noted_pinShow _ _ _)).trans (Noted.when _ (fun u => noted_accAdd u _ _ _) _ _)

theorem noted_allPins (s : State) : Noted s s.allPins := Noted.each _ noted_pins _ _

@[simp] theorem pinShow_lasers (s : State) (n : Fin 16) (was : Bool) : (s.pinShow n was).lasers = s.lasers := by
  simp only [State.pinShow]
  generalize (s.lasers[n].gatePin && !was) = c
  split
  · cases c <;> rfl
  · rfl

/-- The laser ports once the pins of one have been brought up to date. -/
theorem pins_lasers (s : State) (n : Fin 16) : (s.pins n).lasers = s.lasers.set n (s.pinLaser n) := by
  unfold State.pins
  simp only
  rw [when_inv (·.lasers) _ _ _ fun u => accAdd_lasers u _ _ _, pinShow_lasers]; rfl

/-- The pins of one port leave every other port as it was. -/
theorem pins_other (s : State) (n k : Fin 16) (h : k ≠ n) : (s.pins n).lasers[k] = s.lasers[k] := by
  have hk : n.val ≠ k.val := fun q => h (Fin.ext q.symm)
  simp [pins_lasers, Vector.getElem_set_ne, hk]

/-- GATE is high only under the permit, with no force, with the port ON and no scan holding the pins (R299, R303, R424),
with every page the emission depends on ON (R15). -/
theorem pins_gate (s : State) (n : Fin 16) (h : (s.pins n).lasers[n].gatePin = true) :
    s.permit n = true ∧ s.forced = false ∧ s.isOn (Pg.LASER n) = true ∧ s.mayEmit n = true ∧ s.scanLow = false := by
  have h2 : (s.pinLaser n).gatePin = true := by simpa [pins_lasers] using h
  simp only [State.pinLaser, Bool.and_eq_true, Bool.not_eq_true'] at h2
  exact ⟨h2.1.1.1.1.1.1, h2.1.1.1.1.1.2, h2.1.1.1.1.2, h2.1.1.1.2, h2.2⟩

end Sys2Proof.Laws
end

