-- ==== Sys2Proof/Laws/PerInstr.lean ====
section
/-! SUPPORT. Per-command lemmas of the family Bounded: every well-formed command happens at a tick that a uint64 count can hold. -/

namespace Sys2Proof.Laws.Bounded

/-- A well-formed command happens below 2^64 tk (R103). -/
def Statement (i : Instr) : Prop := i.wf = true → i.instant < 2 ^ 64

theorem frame_lt {n : Nat} (h : frame n = true) : frameTick n < 2 ^ 64 := by
  simp only [frame, tick, decide_eq_true_eq] at h
  exact Nat.lt_of_le_of_lt (Nat.mul_le_mul_right 16000 (by omega)) h

theorem frame_lt_succ {n : Nat} (h : frame n = true) : frameTick (n + 1) < 2 ^ 64 := by
  simp only [frame, tick, decide_eq_true_eq] at h
  exact Nat.lt_of_le_of_lt (Nat.mul_le_mul_right 16000 (by omega)) h

theorem registerWrite (t : Nat) (addr : Nat) (v : Word) : Statement (.registerWrite t addr v) := by
  intro h; have h : (tick t && fits 20 addr) = true := h; simp only [Bool.and_eq_true, decide_eq_true_eq, tick] at h; show t < 2 ^ 64; omega
theorem registerReadClear (t : Nat) (addr : Nat) : Statement (.registerReadClear t addr) := by
  intro h; have h : (tick t && fits 20 addr) = true := h; simp only [Bool.and_eq_true, decide_eq_true_eq, tick] at h; show t < 2 ^ 64; omega
theorem ctrlEnWrite (t : Nat) (p : Fin 256) (en : Bool) : Statement (.ctrlEnWrite t p en) := by
  intro h; have h : (tick t) = true := h; simp only [decide_eq_true_eq, tick] at h; show t < 2 ^ 64; omega
theorem softReset (t : Nat) (p : Fin 256) : Statement (.softReset t p) := by
  intro h; have h : (tick t) = true := h; simp only [decide_eq_true_eq, tick] at h; show t < 2 ^ 64; omega
theorem eventClear (t : Nat) (p : Fin 256) (bits : Word) : Statement (.eventClear t p bits) := by
  intro h; have h : (tick t) = true := h; simp only [decide_eq_true_eq, tick] at h; show t < 2 ^ 64; omega
theorem eventForce (t : Nat) (p : Fin 256) (bits : Word) : Statement (.eventForce t p bits) := by
  intro h; have h : (tick t) = true := h; simp only [decide_eq_true_eq, tick] at h; show t < 2 ^ 64; omega
theorem commit (t : Nat) (p : Fin 256) : Statement (.commit t p) := by
  intro h; have h : (tick t) = true := h; simp only [decide_eq_true_eq, tick] at h; show t < 2 ^ 64; omega
theorem shadowTransfer (t : Nat) (p : Fin 256) : Statement (.shadowTransfer t p) := by
  intro h; have h : (tick t) = true := h; simp only [decide_eq_true_eq, tick] at h; show t < 2 ^ 64; omega
theorem snapshotTake (t : Nat) (p : Fin 256) : Statement (.snapshotTake t p) := by
  intro h; have h : (tick t) = true := h; simp only [decide_eq_true_eq, tick] at h; show t < 2 ^ 64; omega
theorem blockSequenceEnd (t : Nat) (p : Fin 256) : Statement (.blockSequenceEnd t p) := by
  intro h; have h : (tick t) = true := h; simp only [decide_eq_true_eq, tick] at h; show t < 2 ^ 64; omega
theorem blockTransitCycleEnd (t : Nat) (p : Fin 256) : Statement (.blockTransitCycleEnd t p) := by
  intro h; have h : (tick t) = true := h; simp only [decide_eq_true_eq, tick] at h; show t < 2 ^ 64; omega
theorem txnRead (t : Nat) (port : Fin 2) (tag : BitVec 16) (addr : BitVec 40) (count : Fin 256) : Statement (.txnRead t port tag addr count) := by
  intro h; have h : (tick t) = true := h; simp only [decide_eq_true_eq, tick] at h; show t < 2 ^ 64; omega
theorem txnWrite (t : Nat) (port : Fin 2) (tag : BitVec 16) (addr : BitVec 40) (count : Fin 256) (data : List Byte) : Statement (.txnWrite t port tag addr count data) := by
  intro h; have h : (tick t && (data.length == count.val + 1)) = true := h; simp only [Bool.and_eq_true, decide_eq_true_eq, tick] at h; show t < 2 ^ 64; omega
theorem txnWritePosted (t : Nat) (port : Fin 2) (tag : BitVec 16) (addr : BitVec 40) (count : Fin 256) (data : List Byte) : Statement (.txnWritePosted t port tag addr count data) := by
  intro h; have h : (tick t && (data.length == count.val + 1)) = true := h; simp only [Bool.and_eq_true, decide_eq_true_eq, tick] at h; show t < 2 ^ 64; omega
theorem txnFence (t : Nat) (port : Fin 2) (tag : BitVec 16) (cross : Bool) : Statement (.txnFence t port tag cross) := by
  intro h; have h : (tick t) = true := h; simp only [decide_eq_true_eq, tick] at h; show t < 2 ^ 64; omega
theorem fenceComplete (t : Nat) (port : Fin 2) : Statement (.fenceComplete t port) := by
  intro h; have h : (tick t) = true := h; simp only [decide_eq_true_eq, tick] at h; show t < 2 ^ 64; omega
theorem cplSend (t : Nat) (port : Fin 2) : Statement (.cplSend t port) := by
  intro h; have h : (tick t) = true := h; simp only [decide_eq_true_eq, tick] at h; show t < 2 ^ 64; omega
theorem frameReceive (t : Nat) (l : Fin 20) (fill delim hdr hcrc payload pcrc : List Bool) :
    Statement (.frameReceive t l fill delim hdr hcrc payload pcrc) := by
  intro h; have h : (tick t && decide ((fill ++ delim ++ hdr ++ hcrc ++ payload ++ pcrc).length ≤ 65536)) = true := h; simp only [Bool.and_eq_true, decide_eq_true_eq, tick] at h; show t < 2 ^ 64; omega
theorem idleSend (t : Nat) (l : Fin 20) : Statement (.idleSend t l) := by
  intro h; have h : (tick t) = true := h; simp only [decide_eq_true_eq, tick] at h; show t < 2 ^ 64; omega
theorem laneActivity (t : Nat) (q : Squelch) : Statement (.laneActivity t q) := by
  intro h; have h : (tick t) = true := h; simp only [decide_eq_true_eq, tick] at h; show t < 2 ^ 64; omega
theorem cdrLock (t : Nat) (l : Fin 20) : Statement (.cdrLock t l) := by
  intro h; have h : (tick t) = true := h; simp only [decide_eq_true_eq, tick] at h; show t < 2 ^ 64; omega
theorem frameLock (t : Nat) (l : Fin 20) : Statement (.frameLock t l) := by
  intro h; have h : (tick t) = true := h; simp only [decide_eq_true_eq, tick] at h; show t < 2 ^ 64; omega
theorem capSend (t : Nat) (l : Fin 20) : Statement (.capSend t l) := by
  intro h; have h : (tick t) = true := h; simp only [decide_eq_true_eq, tick] at h; show t < 2 ^ 64; omega
theorem capReceive (t : Nat) (l : Fin 20) (w0 : Nat) (w1 : Nat) (w2 : Nat) (w3 : Nat) : Statement (.capReceive t l w0 w1 w2 w3) := by
  intro h; have h : (tick t && fits 32 w0 && fits 32 w1 && fits 32 w2 && fits 32 w3) = true := h; simp only [Bool.and_eq_true, decide_eq_true_eq, tick] at h; show t < 2 ^ 64; omega
theorem bringupPhaseTimeout (t : Nat) (l : Fin 20) : Statement (.bringupPhaseTimeout t l) := by
  intro h; have h : (tick t) = true := h; simp only [decide_eq_true_eq, tick] at h; show t < 2 ^ 64; omega
theorem frameLockLoss (t : Nat) (l : Fin 20) (cause : Fin 3) (activity : Bool) : Statement (.frameLockLoss t l cause activity) := by
  intro h; have h : (tick t) = true := h; simp only [decide_eq_true_eq, tick] at h; show t < 2 ^ 64; omega
theorem txTimingSwitch (t : Nat) (l : Fin 4) : Statement (.txTimingSwitch t l) := by
  intro h; have h : (tick t) = true := h; simp only [decide_eq_true_eq, tick] at h; show t < 2 ^ 64; omega
theorem stepCtrlGo (t : Nat) (l : Fin 20) (rate : Fin 4) : Statement (.stepCtrlGo t l rate) := by
  intro h; have h : (tick t) = true := h; simp only [decide_eq_true_eq, tick] at h; show t < 2 ^ 64; omega
theorem stepAckDeadline (t : Nat) (l : Fin 20) : Statement (.stepAckDeadline t l) := by
  intro h; have h : (tick t) = true := h; simp only [decide_eq_true_eq, tick] at h; show t < 2 ^ 64; omega
theorem stepQuiesce (t : Nat) (l : Fin 20) : Statement (.stepQuiesce t l) := by
  intro h; have h : (tick t) = true := h; simp only [decide_eq_true_eq, tick] at h; show t < 2 ^ 64; omega
theorem stepLaunch (t : Nat) (l : Fin 20) : Statement (.stepLaunch t l) := by
  intro h; have h : (tick t) = true := h; simp only [decide_eq_true_eq, tick] at h; show t < 2 ^ 64; omega
theorem stepRelockTimeout (t : Nat) (l : Fin 20) : Statement (.stepRelockTimeout t l) := by
  intro h; have h : (tick t) = true := h; simp only [decide_eq_true_eq, tick] at h; show t < 2 ^ 64; omega
theorem loopInject (t : Nat) (l : Fin 20) : Statement (.loopInject t l) := by
  intro h; have h : (tick t) = true := h; simp only [decide_eq_true_eq, tick] at h; show t < 2 ^ 64; omega
theorem loopClear (t : Nat) (l : Fin 20) : Statement (.loopClear t l) := by
  intro h; have h : (tick t) = true := h; simp only [decide_eq_true_eq, tick] at h; show t < 2 ^ 64; omega
theorem loopCtrlWrite (t : Nat) (l : Fin 20) (v : Word) : Statement (.loopCtrlWrite t l v) := by
  intro h; have h : (tick t) = true := h; simp only [decide_eq_true_eq, tick] at h; show t < 2 ^ 64; omega
theorem missingEdge (t : Nat) (c : Fin 4) : Statement (.missingEdge t c) := by
  intro h; have h : (tick t) = true := h; simp only [decide_eq_true_eq, tick] at h; show t < 2 ^ 64; omega
theorem freqWindowEnd (t : Nat) (o0 : Int) (o1 : Int) (o2 : Int) (o3 : Int) : Statement (.freqWindowEnd t o0 o1 o2 o3) := by
  intro h; have h : (tick t && fitsS 32 o0 && fitsS 32 o1 && fitsS 32 o2 && fitsS 32 o3) = true := h; simp only [Bool.and_eq_true, decide_eq_true_eq, tick] at h; show t < 2 ^ 64; omega
theorem candidateQualified (t : Nat) (c : Fin 4) : Statement (.candidateQualified t c) := by
  intro h; have h : (tick t) = true := h; simp only [decide_eq_true_eq, tick] at h; show t < 2 ^ 64; omega
theorem holdLock (t : Nat) : Statement (.holdLock t) := by
  intro h; have h : (tick t) = true := h; simp only [decide_eq_true_eq, tick] at h; show t < 2 ^ 64; omega
theorem holdExpired (t : Nat) : Statement (.holdExpired t) := by
  intro h; have h : (tick t) = true := h; simp only [decide_eq_true_eq, tick] at h; show t < 2 ^ 64; omega
theorem coastExitLock (t : Nat) (ok : Bool) : Statement (.coastExitLock t ok) := by
  intro h; have h : (tick t) = true := h; simp only [decide_eq_true_eq, tick] at h; show t < 2 ^ 64; omega
theorem safeHoldClear (t : Nat) : Statement (.safeHoldClear t) := by
  intro h; have h : (tick t) = true := h; simp only [decide_eq_true_eq, tick] at h; show t < 2 ^ 64; omega
theorem fmeasStart (t : Nat) : Statement (.fmeasStart t) := by
  intro h; have h : (tick t) = true := h; simp only [decide_eq_true_eq, tick] at h; show t < 2 ^ 64; omega
theorem fmeasDone (t : Nat) (n : Nat) : Statement (.fmeasDone t n) := by
  intro h; have h : (tick t && fits 32 n) = true := h; simp only [Bool.and_eq_true, decide_eq_true_eq, tick] at h; show t < 2 ^ 64; omega
theorem fmeasTimeout (t : Nat) : Statement (.fmeasTimeout t) := by
  intro h; have h : (tick t) = true := h; simp only [decide_eq_true_eq, tick] at h; show t < 2 ^ 64; omega
theorem frameStart (n : Nat) : Statement (.frameStart n) := by
  intro h; exact frame_lt h
theorem exchangeCut (n : Nat) : Statement (.exchangeCut n) := by
  intro h; have h : (frame n) = true := h; simp only [decide_eq_true_eq, frame, tick] at h; show frameTick n + 15040 < 2 ^ 64; unfold frameTick; omega
theorem headDnLaunch (n : Nat) : Statement (.headDnLaunch n) := by
  intro h; have h : (frame n) = true := h; simp only [decide_eq_true_eq, frame, tick] at h; show frameTick n + 15360 < 2 ^ 64; unfold frameTick; omega
theorem headUpReceive (t : Nat) (h : Fin 16) (rx : Nat) (w : Vector Word 8) : Statement (.headUpReceive t h rx w) := by
  intro h; have h : (tick t && tick rx) = true := h; simp only [Bool.and_eq_true, decide_eq_true_eq, tick] at h; show t < 2 ^ 64; omega
theorem sampleADeadline (n : Nat) : Statement (.sampleADeadline n) := by
  intro h; have h : (frame n) = true := h; simp only [decide_eq_true_eq, frame, tick] at h; show frameTick n + 3840 < 2 ^ 64; unfold frameTick; omega
theorem sampleBDeadline (n : Nat) : Statement (.sampleBDeadline n) := by
  intro h; have h : (frame n) = true := h; simp only [decide_eq_true_eq, frame, tick] at h; show frameTick n + 11840 < 2 ^ 64; unfold frameTick; omega
theorem mbxSend (t : Nat) (h : Fin 16) : Statement (.mbxSend t h) := by
  intro h; have h : (tick t) = true := h; simp only [decide_eq_true_eq, tick] at h; show t < 2 ^ 64; omega
theorem mbxTimeout (t : Nat) (h : Fin 16) : Statement (.mbxTimeout t h) := by
  intro h; have h : (tick t) = true := h; simp only [decide_eq_true_eq, tick] at h; show t < 2 ^ 64; omega
theorem syncReceive (t : Nat) (port : Fin 4) (origin : Nat) (corr : Int) (seqId : Nat) (masterId : Nat) (interval : Int) : Statement (.syncReceive t port origin corr seqId masterId interval) := by
  intro h; have h : (tick t && fits 64 origin && fitsS 64 corr && fits 16 seqId && fits 16 masterId && fitsS 8 interval) = true := h; simp only [Bool.and_eq_true, decide_eq_true_eq, tick] at h; show t < 2 ^ 64; omega
theorem dlyReqLaunch (n : Nat) : Statement (.dlyReqLaunch n) := by
  intro h; have h : (frame n) = true := h; simp only [decide_eq_true_eq, frame, tick] at h; show frameTick n + 4000 < 2 ^ 64; unfold frameTick; omega
theorem dlyReqReceive (t : Nat) (port : Fin 4) (txTime : Nat) (seqId : Nat) (senderId : Nat) : Statement (.dlyReqReceive t port txTime seqId senderId) := by
  intro h; have h : (tick t && fits 64 txTime && fits 16 seqId && fits 16 senderId) = true := h; simp only [Bool.and_eq_true, decide_eq_true_eq, tick] at h; show t < 2 ^ 64; omega
theorem dlyRspReceive (t : Nat) (port : Fin 4) (reqRx : Nat) (reqCorr : Nat) (seqId : Nat) (responder : Nat) : Statement (.dlyRspReceive t port reqRx reqCorr seqId responder) := by
  intro h; have h : (tick t && fits 64 reqRx && fits 64 reqCorr && fits 16 seqId && fits 16 responder) = true := h; simp only [Bool.and_eq_true, decide_eq_true_eq, tick] at h; show t < 2 ^ 64; omega
theorem dlyTimeout (t : Nat) (port : Fin 4) : Statement (.dlyTimeout t port) := by
  intro h; have h : (tick t) = true := h; simp only [decide_eq_true_eq, tick] at h; show t < 2 ^ 64; omega
theorem timeFrameForward (t : Nat) (port : Fin 4) : Statement (.timeFrameForward t port) := by
  intro h; have h : (tick t) = true := h; simp only [decide_eq_true_eq, tick] at h; show t < 2 ^ 64; omega
theorem syncLaunch (t : Nat) : Statement (.syncLaunch t) := by
  intro h; have h : (tick t) = true := h; simp only [decide_eq_true_eq, tick] at h; show t < 2 ^ 64; omega
theorem syncLoss (t : Nat) : Statement (.syncLoss t) := by
  intro h; have h : (tick t) = true := h; simp only [decide_eq_true_eq, tick] at h; show t < 2 ^ 64; omega
theorem launch (t : Nat) (l : Fin 20) : Statement (.launch t l) := by
  intro h; have h : (tick t) = true := h; simp only [decide_eq_true_eq, tick] at h; show t < 2 ^ 64; omega
theorem adjHiWrite (t : Nat) (v : Word) : Statement (.adjHiWrite t v) := by
  intro h; have h : (tick t) = true := h; simp only [decide_eq_true_eq, tick] at h; show t < 2 ^ 64; omega
theorem vddAonPor (t : Nat) : Statement (.vddAonPor t) := by
  intro h; have h : (tick t) = true := h; simp only [decide_eq_true_eq, tick] at h; show t < 2 ^ 64; omega
theorem vddAonLoss (t : Nat) : Statement (.vddAonLoss t) := by
  intro h; have h : (tick t) = true := h; simp only [decide_eq_true_eq, tick] at h; show t < 2 ^ 64; omega
theorem wakeEvent (t : Nat) (c : Fin 5) : Statement (.wakeEvent t c) := by
  intro h; have h : (tick t) = true := h; simp only [decide_eq_true_eq, tick] at h; show t < 2 ^ 64; omega
theorem wakeBlankEnd (t : Nat) : Statement (.wakeBlankEnd t) := by
  intro h; have h : (tick t) = true := h; simp only [decide_eq_true_eq, tick] at h; show t < 2 ^ 64; omega
theorem pgInHigh (t : Nat) (roleB : Bool) : Statement (.pgInHigh t roleB) := by
  intro h; have h : (tick t) = true := h; simp only [decide_eq_true_eq, tick] at h; show t < 2 ^ 64; omega
theorem pgTimeout (t : Nat) : Statement (.pgTimeout t) := by
  intro h; have h : (tick t) = true := h; simp only [decide_eq_true_eq, tick] at h; show t < 2 ^ 64; omega
theorem pgInLow (t : Nat) : Statement (.pgInLow t) := by
  intro h; have h : (tick t) = true := h; simp only [decide_eq_true_eq, tick] at h; show t < 2 ^ 64; omega
theorem primerLinkReady (t : Nat) (c : Fin 4) : Statement (.primerLinkReady t c) := by
  intro h; have h : (tick t) = true := h; simp only [decide_eq_true_eq, tick] at h; show t < 2 ^ 64; omega
theorem linkWaitTimeout (t : Nat) : Statement (.linkWaitTimeout t) := by
  intro h; have h : (tick t) = true := h; simp only [decide_eq_true_eq, tick] at h; show t < 2 ^ 64; omega
theorem primerDone (t : Nat) (fuseOk : Bool) (nvId : Option Nat) (markerOk : Bool) (us : Nat) : Statement (.primerDone t fuseOk nvId markerOk us) := by
  intro h; have h : (tick t && nvId.all (fits 24) && fits 16 us) = true := h; simp only [Bool.and_eq_true, decide_eq_true_eq, tick] at h; show t < 2 ^ 64; omega
theorem resetLAssert (t : Nat) : Statement (.resetLAssert t) := by
  intro h; have h : (tick t) = true := h; simp only [decide_eq_true_eq, tick] at h; show t < 2 ^ 64; omega
theorem resetLRelease (t : Nat) : Statement (.resetLRelease t) := by
  intro h; have h : (tick t) = true := h; simp only [decide_eq_true_eq, tick] at h; show t < 2 ^ 64; omega
theorem deviceCommand (t : Nat) (key : Nat) : Statement (.deviceCommand t key) := by
  intro h; have h : (tick t && fits 8 key) = true := h; simp only [Bool.and_eq_true, decide_eq_true_eq, tick] at h; show t < 2 ^ 64; omega
theorem deviceCommandRestart (t : Nat) : Statement (.deviceCommandRestart t) := by
  intro h; have h : (tick t) = true := h; simp only [decide_eq_true_eq, tick] at h; show t < 2 ^ 64; omega
theorem dormantCommand (t : Nat) (key : Nat) : Statement (.dormantCommand t key) := by
  intro h; have h : (tick t && fits 8 key) = true := h; simp only [Bool.and_eq_true, decide_eq_true_eq, tick] at h; show t < 2 ^ 64; omega
theorem domainCtrlWrite (t : Nat) (v : Word) : Statement (.domainCtrlWrite t v) := by
  intro h; have h : (tick t) = true := h; simp only [decide_eq_true_eq, tick] at h; show t < 2 ^ 64; omega
theorem domainSwitchOnDone (t : Nat) : Statement (.domainSwitchOnDone t) := by
  intro h; have h : (tick t) = true := h; simp only [decide_eq_true_eq, tick] at h; show t < 2 ^ 64; omega
theorem domainSwitchOffDone (t : Nat) : Statement (.domainSwitchOffDone t) := by
  intro h; have h : (tick t) = true := h; simp only [decide_eq_true_eq, tick] at h; show t < 2 ^ 64; omega
theorem pfail (t : Nat) : Statement (.pfail t) := by
  intro h; have h : (tick t) = true := h; simp only [decide_eq_true_eq, tick] at h; show t < 2 ^ 64; omega
theorem sysStart (t : Nat) : Statement (.sysStart t) := by
  intro h; have h : (tick t) = true := h; simp only [decide_eq_true_eq, tick] at h; show t < 2 ^ 64; omega
theorem chainStart (t : Nat) (b : Fin 16) (v : Word) : Statement (.chainStart t b v) := by
  intro h; have h : (tick t) = true := h; simp only [decide_eq_true_eq, tick] at h; show t < 2 ^ 64; omega
theorem headerFetched (t : Nat) (b : Fin 16) : Statement (.headerFetched t b) := by
  intro h; have h : (tick t) = true := h; simp only [decide_eq_true_eq, tick] at h; show t < 2 ^ 64; omega
theorem nextPoll (t : Nat) (b : Fin 16) : Statement (.nextPoll t b) := by
  intro h; have h : (tick t) = true := h; simp only [decide_eq_true_eq, tick] at h; show t < 2 ^ 64; omega
theorem sheetBoundary (t : Nat) (b : Fin 16) : Statement (.sheetBoundary t b) := by
  intro h; have h : (tick t) = true := h; simp only [decide_eq_true_eq, tick] at h; show t < 2 ^ 64; omega
theorem lateSheetTakesEffect (t : Nat) (b : Fin 16) : Statement (.lateSheetTakesEffect t b) := by
  intro h; have h : (tick t) = true := h; simp only [decide_eq_true_eq, tick] at h; show t < 2 ^ 64; omega
theorem blockFetchRequest (t : Nat) (b : Fin 16) (pathB : Bool) : Statement (.blockFetchRequest t b pathB) := by
  intro h; have h : (tick t) = true := h; simp only [decide_eq_true_eq, tick] at h; show t < 2 ^ 64; omega
theorem blockArrival (t : Nat) (b : Fin 16) (pathB : Bool) (k : Nat) : Statement (.blockArrival t b pathB k) := by
  intro h; have h : (tick t && fits 32 k) = true := h; simp only [Bool.and_eq_true, decide_eq_true_eq, tick] at h; show t < 2 ^ 64; omega
theorem timedRecordEnd (t : Nat) (b : Fin 16) : Statement (.timedRecordEnd t b) := by
  intro h; have h : (tick t) = true := h; simp only [decide_eq_true_eq, tick] at h; show t < 2 ^ 64; omega
theorem waitComplete (t : Nat) (b : Fin 16) : Statement (.waitComplete t b) := by
  intro h; have h : (tick t) = true := h; simp only [decide_eq_true_eq, tick] at h; show t < 2 ^ 64; omega
theorem gateEdge (t : Nat) (b : Fin 16) (timerA : Bool) (kind : Fin 4) : Statement (.gateEdge t b timerA kind) := by
  intro h; have h : (tick t) = true := h; simp only [decide_eq_true_eq, tick] at h; show t < 2 ^ 64; omega
theorem twinUnpairedTimeout (t : Nat) (b : Fin 16) : Statement (.twinUnpairedTimeout t b) := by
  intro h; have h : (tick t) = true := h; simp only [decide_eq_true_eq, tick] at h; show t < 2 ^ 64; omega
theorem glazeCompute (n : Nat) (half : Bool) (b : Fin 16) : Statement (.glazeCompute n half b) := by
  intro h; have h : (frame n) = true := h; simp only [decide_eq_true_eq, frame, tick] at h; show frameTick n + (if half then 11840 else 3840) < 2 ^ 64; unfold frameTick; split <;> omega
theorem powerBurstStart (n : Nat) (half : Bool) (b : Fin 16) : Statement (.powerBurstStart n half b) := by
  intro h; have h : (frame n) = true := h; simp only [decide_eq_true_eq, frame, tick] at h; show frameTick n + (if half then 13440 else 5440) < 2 ^ 64; unfold frameTick; split <;> omega
theorem powerWordLatch (n : Nat) (half : Bool) (b : Fin 16) : Statement (.powerWordLatch n half b) := by
  intro h; have h : (frame n) = true := h; simp only [decide_eq_true_eq, frame, tick] at h; show frameTick n + (if half then 17920 else 9920) < 2 ^ 64; unfold frameTick; split <;> omega
theorem laserReadyChange (t : Nat) (b : Fin 16) (v : Bool) : Statement (.laserReadyChange t b v) := by
  intro h; have h : (tick t) = true := h; simp only [decide_eq_true_eq, tick] at h; show t < 2 ^ 64; omega
theorem laserFaultChange (t : Nat) (b : Fin 16) (v : Bool) : Statement (.laserFaultChange t b v) := by
  intro h; have h : (tick t) = true := h; simp only [decide_eq_true_eq, tick] at h; show t < 2 ^ 64; omega
theorem parkEnd (t : Nat) (b : Fin 16) : Statement (.parkEnd t b) := by
  intro h; have h : (tick t) = true := h; simp only [decide_eq_true_eq, tick] at h; show t < 2 ^ 64; omega
theorem parkTimeout (t : Nat) (b : Fin 16) : Statement (.parkTimeout t b) := by
  intro h; have h : (tick t) = true := h; simp only [decide_eq_true_eq, tick] at h; show t < 2 ^ 64; omega
theorem encoderEdge (t : Nat) (n : Fin 4) (a : Bool) (b : Bool) (z : Bool) : Statement (.encoderEdge t n a b z) := by
  intro h; have h : (tick t) = true := h; simp only [decide_eq_true_eq, tick] at h; show t < 2 ^ 64; omega
theorem indexArm (t : Nat) (n : Fin 4) : Statement (.indexArm t n) := by
  intro h; have h : (tick t) = true := h; simp only [decide_eq_true_eq, tick] at h; show t < 2 ^ 64; omega
theorem indexCapture (t : Nat) (n : Fin 4) : Statement (.indexCapture t n) := by
  intro h; have h : (tick t) = true := h; simp only [decide_eq_true_eq, tick] at h; show t < 2 ^ 64; omega
theorem estimatorUpdate (n : Nat) : Statement (.estimatorUpdate n) := by
  intro h; have h : (frame n) = true := h; simp only [decide_eq_true_eq, frame, tick] at h; show frameTick n + 3200 < 2 ^ 64; unfold frameTick; omega
theorem targetRemove (t : Nat) : Statement (.targetRemove t) := by
  intro h; have h : (tick t) = true := h; simp only [decide_eq_true_eq, tick] at h; show t < 2 ^ 64; omega
theorem tileClose (t : Nat) (b : Fin 16) : Statement (.tileClose t b) := by
  intro h; have h : (tick t) = true := h; simp only [decide_eq_true_eq, tick] at h; show t < 2 ^ 64; omega
theorem rasterFetchDone (t : Nat) (b : Fin 16) (k : Nat) (idx : Nat) (line : Bool) : Statement (.rasterFetchDone t b k idx line) := by
  intro h; have h : (tick t && fits 32 k && fits 32 idx) = true := h; simp only [Bool.and_eq_true, decide_eq_true_eq, tick] at h; show t < 2 ^ 64; omega
theorem swatchCompare (t : Nat) (b : Fin 16) : Statement (.swatchCompare t b) := by
  intro h; have h : (tick t) = true := h; simp only [decide_eq_true_eq, tick] at h; show t < 2 ^ 64; omega
theorem engineFrameStart (m : Nat) : Statement (.engineFrameStart m) := by
  intro h; have h : (frame m) = true := h; simp only [decide_eq_true_eq, frame, tick] at h; show frameTick m - 960 < 2 ^ 64; unfold frameTick; omega
theorem traceArm (t : Nat) (e : Fin 4) : Statement (.traceArm t e) := by
  intro h; have h : (tick t) = true := h; simp only [decide_eq_true_eq, tick] at h; show t < 2 ^ 64; omega
theorem traceStop (t : Nat) (e : Fin 4) : Statement (.traceStop t e) := by
  intro h; have h : (tick t) = true := h; simp only [decide_eq_true_eq, tick] at h; show t < 2 ^ 64; omega
theorem injectWrite (t : Nat) (e : Fin 4) (v : Word) : Statement (.injectWrite t e v) := by
  intro h; have h : (tick t) = true := h; simp only [decide_eq_true_eq, tick] at h; show t < 2 ^ 64; omega
theorem planTick (q : Nat) : Statement (.planTick q) := by
  intro h; have h : (tick (q * 64000)) = true := h; simp only [decide_eq_true_eq, tick] at h; show q * 64000 < 2 ^ 64; omega
theorem stepTargetWrite (t : Nat) (n : Fin 8) (v : Word) : Statement (.stepTargetWrite t n v) := by
  intro h; have h : (tick t) = true := h; simp only [decide_eq_true_eq, tick] at h; show t < 2 ^ 64; omega
theorem upFrameCheck (t : Nat) (n : Fin 8) (di0 di1 di2 di3 : List (Nat × Bool)) : Statement (.upFrameCheck t n di0 di1 di2 di3) := by
  intro h; have h : (tick t && pinChanges (di0 ++ di1 ++ di2 ++ di3)) = true := h; simp only [Bool.and_eq_true, decide_eq_true_eq, tick] at h; show t < 2 ^ 64; omega
theorem stepperHoldEnd (t : Nat) (n : Fin 8) : Statement (.stepperHoldEnd t n) := by
  intro h; have h : (tick t) = true := h; simp only [decide_eq_true_eq, tick] at h; show t < 2 ^ 64; omega
theorem csiFrameStart (t : Nat) (p : Fin 4) (vc : Fin 16) (fn : BitVec 16) (corrected : Bool) : Statement (.csiFrameStart t p vc fn corrected) := by
  intro h; have h : (tick t) = true := h; simp only [decide_eq_true_eq, tick] at h; show t < 2 ^ 64; omega
theorem csiFrameEnd (t : Nat) (p : Fin 4) (vc : Fin 16) (corrected : Bool) : Statement (.csiFrameEnd t p vc corrected) := by
  intro h; have h : (tick t) = true := h; simp only [decide_eq_true_eq, tick] at h; show t < 2 ^ 64; omega
theorem csiLongPacket (t : Nat) (p : Fin 4) (vc : Fin 16) (dt : Fin 64) (l : List Byte) (crcOk : Bool) (corrected : Bool) : Statement (.csiLongPacket t p vc dt l crcOk corrected) := by
  intro h; have h : (tick t && decide (l.length < 65536)) = true := h; simp only [Bool.and_eq_true, decide_eq_true_eq, tick] at h; show t < 2 ^ 64; omega
theorem pipelinePacket (t : Nat) (p : Fin 4) : Statement (.pipelinePacket t p) := by
  intro h; have h : (tick t) = true := h; simp only [decide_eq_true_eq, tick] at h; show t < 2 ^ 64; omega
theorem frameLimitExpiry (t : Nat) (k : Fin 32) : Statement (.frameLimitExpiry t k) := by
  intro h; have h : (tick t) = true := h; simp only [decide_eq_true_eq, tick] at h; show t < 2 ^ 64; omega
theorem frameRecordsComplete (t : Nat) (k : Fin 32) : Statement (.frameRecordsComplete t k) := by
  intro h; have h : (tick t) = true := h; simp only [decide_eq_true_eq, tick] at h; show t < 2 ^ 64; omega
theorem recordReady (t : Nat) (cls : Fin 2) : Statement (.recordReady t cls) := by
  intro h; have h : (tick t) = true := h; simp only [decide_eq_true_eq, tick] at h; show t < 2 ^ 64; omega
theorem batchDeliver (n : Nat) : Statement (.batchDeliver n) := by
  intro h; exact frame_lt_succ h
theorem triggerLaunch (t : Nat) (o : Fin 8) : Statement (.triggerLaunch t o) := by
  intro h; have h : (tick t) = true := h; simp only [decide_eq_true_eq, tick] at h; show t < 2 ^ 64; omega
theorem triggerEnd (t : Nat) (o : Fin 8) : Statement (.triggerEnd t o) := by
  intro h; have h : (tick t) = true := h; simp only [decide_eq_true_eq, tick] at h; show t < 2 ^ 64; omega
theorem oneshotWrite (t : Nat) (k : Fin 32) (v : Word) : Statement (.oneshotWrite t k v) := by
  intro h; have h : (tick t) = true := h; simp only [decide_eq_true_eq, tick] at h; show t < 2 ^ 64; omega
theorem streamFrameSend (t : Nat) (k : Fin 32) : Statement (.streamFrameSend t k) := by
  intro h; have h : (tick t) = true := h; simp only [decide_eq_true_eq, tick] at h; show t < 2 ^ 64; omega
theorem metLaunch (n : Nat) : Statement (.metLaunch n) := by
  intro h; have h : (frame n) = true := h; simp only [decide_eq_true_eq, frame, tick] at h; show frameTick n + 4800 < 2 ^ 64; unfold frameTick; omega
theorem metReceive (t : Nat) (frame : Word) (count : Fin 5) (l : List Byte) : Statement (.metReceive t frame count l) := by
  intro h; have h : (tick t && decide (l.length ≤ 2040)) = true := h; simp only [Bool.and_eq_true, decide_eq_true_eq, tick] at h; show t < 2 ^ 64; omega
theorem eventIntake (t : Nat) : Statement (.eventIntake t) := by
  intro h; have h : (tick t) = true := h; simp only [decide_eq_true_eq, tick] at h; show t < 2 ^ 64; omega
theorem eventDeliverable (t : Nat) : Statement (.eventDeliverable t) := by
  intro h; have h : (tick t) = true := h; simp only [decide_eq_true_eq, tick] at h; show t < 2 ^ 64; omega
theorem evtSend (t : Nat) : Statement (.evtSend t) := by
  intro h; have h : (tick t) = true := h; simp only [decide_eq_true_eq, tick] at h; show t < 2 ^ 64; omega
theorem ilkDepart (t : Nat) (i : Fin 4) (a : Bool) (b : Bool) : Statement (.ilkDepart t i a b) := by
  intro h; have h : (tick t) = true := h; simp only [decide_eq_true_eq, tick] at h; show t < 2 ^ 64; omega
theorem ilkReturn (t : Nat) (i : Fin 4) : Statement (.ilkReturn t i) := by
  intro h; have h : (tick t) = true := h; simp only [decide_eq_true_eq, tick] at h; show t < 2 ^ 64; omega
theorem discTimeout (t : Nat) (i : Fin 4) : Statement (.discTimeout t i) := by
  intro h; have h : (tick t) = true := h; simp only [decide_eq_true_eq, tick] at h; show t < 2 ^ 64; omega
theorem knifeArmSet (t : Nat) (key : Nat) (mask : BitVec 16) : Statement (.knifeArmSet t key mask) := by
  intro h; have h : (tick t && fits 8 key) = true := h; simp only [Bool.and_eq_true, decide_eq_true_eq, tick] at h; show t < 2 ^ 64; omega
theorem knifeDisarm (t : Nat) (mask : BitVec 16) : Statement (.knifeDisarm t mask) := by
  intro h; have h : (tick t) = true := h; simp only [decide_eq_true_eq, tick] at h; show t < 2 ^ 64; omega
theorem knifeClear (t : Nat) (key : Nat) (mask : BitVec 16) : Statement (.knifeClear t key mask) := by
  intro h; have h : (tick t && fits 8 key) = true := h; simp only [Bool.and_eq_true, decide_eq_true_eq, tick] at h; show t < 2 ^ 64; omega
theorem knifeTest (t : Nat) (mask : BitVec 16) : Statement (.knifeTest t mask) := by
  intro h; have h : (tick t) = true := h; simp only [decide_eq_true_eq, tick] at h; show t < 2 ^ 64; omega
theorem permitStart (n : Nat) : Statement (.permitStart n) := by
  intro h; exact frame_lt h
theorem pairFormFrame (n : Nat) : Statement (.pairFormFrame n) := by
  intro h; have h : (frame n) = true := h; simp only [decide_eq_true_eq, frame, tick] at h; show frameTick n + 13760 < 2 ^ 64; unfold frameTick; omega
theorem formEchoDeadline (t : Nat) : Statement (.formEchoDeadline t) := by
  intro h; have h : (tick t) = true := h; simp only [decide_eq_true_eq, tick] at h; show t < 2 ^ 64; omega
theorem pairLock (n : Nat) : Statement (.pairLock n) := by
  intro h; exact frame_lt h
theorem mirrorTxnReceive (t : Nat) (arr : BitVec 48) (port : Fin 2) (op : Fin 4) (tag : BitVec 16) (addr : BitVec 40) (count : Fin 256) (cross : Bool) (data : List Byte) : Statement (.mirrorTxnReceive t arr port op tag addr count cross data) := by
  intro h; have h : (tick t && (data.length == (if op.val = 1 ∨ op.val = 2 then count.val + 1 else 0))) = true := h; simp only [Bool.and_eq_true, decide_eq_true_eq, tick] at h; show t < 2 ^ 64; omega
theorem mirrorApply (t : Nat) : Statement (.mirrorApply t) := by
  intro h; have h : (tick t) = true := h; simp only [decide_eq_true_eq, tick] at h; show t < 2 ^ 64; omega
theorem mirrorMediumLaunch (n : Nat) : Statement (.mirrorMediumLaunch n) := by
  intro h; have h : (frame n) = true := h; simp only [decide_eq_true_eq, frame, tick] at h; show frameTick n + 640 < 2 ^ 64; unfold frameTick; omega
theorem mirrorMediumReceive (t : Nat) (frame : Word) (words : Vector (BitVec 64) 4) : Statement (.mirrorMediumReceive t frame words) := by
  intro h; have h : (tick t) = true := h; simp only [decide_eq_true_eq, tick] at h; show t < 2 ^ 64; omega
theorem digestLaunch (n : Nat) : Statement (.digestLaunch n) := by
  intro h; have h : (frame n) = true := h; simp only [decide_eq_true_eq, frame, tick] at h; show frameTick n + 13760 < 2 ^ 64; unfold frameTick; omega
theorem digestReceive (t : Nat) (frame : Word) (w2 : Word) (digest : Word) : Statement (.digestReceive t frame w2 digest) := by
  intro h; have h : (tick t) = true := h; simp only [decide_eq_true_eq, tick] at h; show t < 2 ^ 64; omega
theorem takeoverEval (n : Nat) (atCut : Bool) : Statement (.takeoverEval n atCut) := by
  intro h; have h : (frame n) = true := h; simp only [decide_eq_true_eq, frame, tick] at h; show frameTick n + (if atCut then 15040 else 3840) < 2 ^ 64; unfold frameTick; split <;> omega
theorem handover (t : Nat) (key : BitVec 8) : Statement (.handover t key) := by
  intro h; have h : (tick t) = true := h; simp only [decide_eq_true_eq, tick] at h; show t < 2 ^ 64; omega
theorem syncAtWrite (t : Nat) (n : Fin 4) (v : Word) : Statement (.syncAtWrite t n v) := by
  intro h; have h : (tick t) = true := h; simp only [decide_eq_true_eq, tick] at h; show t < 2 ^ 64; omega
theorem lightSyncBurst (t : Nat) (n : Fin 4) (r0 : Word) (r1 : Word) (r2 : Word) : Statement (.lightSyncBurst t n r0 r1 r2) := by
  intro h; have h : (tick t) = true := h; simp only [decide_eq_true_eq, tick] at h; show t < 2 ^ 64; omega
theorem cmdHdrWrite (t : Nat) (n : Fin 4) (v : Word) : Statement (.cmdHdrWrite t n v) := by
  intro h; have h : (tick t) = true := h; simp only [decide_eq_true_eq, tick] at h; show t < 2 ^ 64; omega
theorem lightBurst (t : Nat) (n : Fin 4) (r0 : Word) (r1 : Word) (r2 : Word) : Statement (.lightBurst t n r0 r1 r2) := by
  intro h; have h : (tick t) = true := h; simp only [decide_eq_true_eq, tick] at h; show t < 2 ^ 64; omega
theorem tempPoll (t : Nat) (n : Fin 4) : Statement (.tempPoll t n) := by
  intro h; have h : (tick t) = true := h; simp only [decide_eq_true_eq, tick] at h; show t < 2 ^ 64; omega
theorem keepAlive (t : Nat) (n : Fin 4) : Statement (.keepAlive t n) := by
  intro h; have h : (tick t) = true := h; simp only [decide_eq_true_eq, tick] at h; show t < 2 ^ 64; omega
theorem respPop (t : Nat) (n : Fin 4) : Statement (.respPop t n) := by
  intro h; have h : (tick t) = true := h; simp only [decide_eq_true_eq, tick] at h; show t < 2 ^ 64; omega
theorem bgRowStart (t : Nat) : Statement (.bgRowStart t) := by
  intro h; have h : (tick t) = true := h; simp only [decide_eq_true_eq, tick] at h; show t < 2 ^ 64; omega
theorem bgRowDone (t : Nat) (failed : Bool) : Statement (.bgRowDone t failed) := by
  intro h; have h : (tick t) = true := h; simp only [decide_eq_true_eq, tick] at h; show t < 2 ^ 64; omega
theorem bankEccWriteback (t : Nat) (b : Fin 20) (off : Nat) : Statement (.bankEccWriteback t b off) := by
  intro h; have h : (tick t && fits 22 off) = true := h; simp only [Bool.and_eq_true, decide_eq_true_eq, tick] at h; show t < 2 ^ 64; omega
theorem failClear (t : Nat) : Statement (.failClear t) := by
  intro h; have h : (tick t) = true := h; simp only [decide_eq_true_eq, tick] at h; show t < 2 ^ 64; omega
theorem dramCommandIssue (t : Nat) (i : Fin 2) : Statement (.dramCommandIssue t i) := by
  intro h; have h : (tick t) = true := h; simp only [decide_eq_true_eq, tick] at h; show t < 2 ^ 64; omega
theorem agePromotion (t : Nat) (i : Fin 2) : Statement (.agePromotion t i) := by
  intro h; have h : (tick t) = true := h; simp only [decide_eq_true_eq, tick] at h; show t < 2 ^ 64; omega
theorem pageIdleClose (t : Nat) (i : Fin 2) (b : Fin 16) : Statement (.pageIdleClose t i b) := by
  intro h; have h : (tick t) = true := h; simp only [decide_eq_true_eq, tick] at h; show t < 2 ^ 64; omega
theorem refreshDue (t : Nat) (i : Fin 2) (b : Fin 16) : Statement (.refreshDue t i b) := by
  intro h; have h : (tick t) = true := h; simp only [decide_eq_true_eq, tick] at h; show t < 2 ^ 64; omega
theorem mr4Poll (t : Nat) (i : Fin 2) (rate : Vector (Fin 32) 2) (hot : Bool) : Statement (.mr4Poll t i rate hot) := by
  intro h; have h : (tick t) = true := h; simp only [decide_eq_true_eq, tick] at h; show t < 2 ^ 64; omega
theorem dramEccWriteback (t : Nat) (addr : Nat) : Statement (.dramEccWriteback t addr) := by
  intro h; have h : (tick t && fits 40 addr) = true := h; simp only [Bool.and_eq_true, decide_eq_true_eq, tick] at h; show t < 2 ^ 64; omega
theorem trainingDone (t : Nat) (rd : Vector (BitVec 128) 8) (wr : Vector (BitVec 128) 8) (initOk : Vector Bool 2) : Statement (.trainingDone t rd wr initOk) := by
  intro h; have h : (tick t) = true := h; simp only [decide_eq_true_eq, tick] at h; show t < 2 ^ 64; omega
theorem retrain (t : Nat) (mask : Fin 4) : Statement (.retrain t mask) := by
  intro h; have h : (tick t) = true := h; simp only [decide_eq_true_eq, tick] at h; show t < 2 ^ 64; omega
theorem sensorRoundEnd (r : Nat) (raw : Vector (BitVec 16) 14) : Statement (.sensorRoundEnd r raw) := by
  intro h; have h : (tick (r * 640000)) = true := h; simp only [decide_eq_true_eq, tick] at h; show r * 640000 < 2 ^ 64; omega
theorem graceExpiry (n : Nat) : Statement (.graceExpiry n) := by
  intro h; have h : (frame n) = true := h; simp only [decide_eq_true_eq, frame, tick] at h; show frameTick n + 15040 < 2 ^ 64; unfold frameTick; omega
theorem heldSheetRelease (t : Nat) : Statement (.heldSheetRelease t) := by
  intro h; have h : (tick t) = true := h; simp only [decide_eq_true_eq, tick] at h; show t < 2 ^ 64; omega
theorem shutdownPowerOff (t : Nat) : Statement (.shutdownPowerOff t) := by
  intro h; have h : (tick t) = true := h; simp only [decide_eq_true_eq, tick] at h; show t < 2 ^ 64; omega
theorem flushTrigger (t : Nat) (bit : Fin 7) : Statement (.flushTrigger t bit) := by
  intro h; have h : (tick t) = true := h; simp only [decide_eq_true_eq, tick] at h; show t < 2 ^ 64; omega
theorem minGapExpiry (t : Nat) : Statement (.minGapExpiry t) := by
  intro h; have h : (tick t) = true := h; simp only [decide_eq_true_eq, tick] at h; show t < 2 ^ 64; omega
theorem flushStart (t : Nat) : Statement (.flushStart t) := by
  intro h; have h : (tick t) = true := h; simp only [decide_eq_true_eq, tick] at h; show t < 2 ^ 64; omega
theorem flushDone (t : Nat) : Statement (.flushDone t) := by
  intro h; have h : (tick t) = true := h; simp only [decide_eq_true_eq, tick] at h; show t < 2 ^ 64; omega
theorem nvTimeout (t : Nat) (who : NvUser) : Statement (.nvTimeout t who) := by
  intro h; have h : (tick t) = true := h; simp only [decide_eq_true_eq, tick] at h; show t < 2 ^ 64; omega
theorem eraseAhead (t : Nat) : Statement (.eraseAhead t) := by
  intro h; have h : (tick t) = true := h; simp only [decide_eq_true_eq, tick] at h; show t < 2 ^ 64; omega
theorem hoursTick (t : Nat) : Statement (.hoursTick t) := by
  intro h; have h : (tick t) = true := h; simp only [decide_eq_true_eq, tick] at h; show t < 2 ^ 64; omega
theorem recordFlush (t : Nat) : Statement (.recordFlush t) := by
  intro h; have h : (tick t) = true := h; simp only [decide_eq_true_eq, tick] at h; show t < 2 ^ 64; omega
theorem clearAcc (t : Nat) : Statement (.clearAcc t) := by
  intro h; have h : (tick t) = true := h; simp only [decide_eq_true_eq, tick] at h; show t < 2 ^ 64; omega
theorem nvRead (t : Nat) : Statement (.nvRead t) := by
  intro h; have h : (tick t) = true := h; simp only [decide_eq_true_eq, tick] at h; show t < 2 ^ 64; omega
theorem nvProgram (t : Nat) : Statement (.nvProgram t) := by
  intro h; have h : (tick t) = true := h; simp only [decide_eq_true_eq, tick] at h; show t < 2 ^ 64; omega
theorem nvErase (t : Nat) : Statement (.nvErase t) := by
  intro h; have h : (tick t) = true := h; simp only [decide_eq_true_eq, tick] at h; show t < 2 ^ 64; omega
theorem nvCmdDone (t : Nat) : Statement (.nvCmdDone t) := by
  intro h; have h : (tick t) = true := h; simp only [decide_eq_true_eq, tick] at h; show t < 2 ^ 64; omega
theorem calDelay (t : Nat) (target : Fin 32) : Statement (.calDelay t target) := by
  intro h; have h : (tick t) = true := h; simp only [decide_eq_true_eq, tick] at h; show t < 2 ^ 64; omega
theorem calSensor (t : Nat) : Statement (.calSensor t) := by
  intro h; have h : (tick t) = true := h; simp only [decide_eq_true_eq, tick] at h; show t < 2 ^ 64; omega
theorem calLane (t : Nat) (target : Fin 32) : Statement (.calLane t target) := by
  intro h; have h : (tick t) = true := h; simp only [decide_eq_true_eq, tick] at h; show t < 2 ^ 64; omega
theorem calSave (t : Nat) : Statement (.calSave t) := by
  intro h; have h : (tick t) = true := h; simp only [decide_eq_true_eq, tick] at h; show t < 2 ^ 64; omega
theorem calDone (t : Nat) (cells : Vector (Vector (Option (BitVec 16)) 24) 32) (segP : Vector (Option Word) 16) (segN : Vector (Option Word) 16) (ok : Bool) : Statement (.calDone t cells segP segN ok) := by
  intro h; have h : (tick t) = true := h; simp only [decide_eq_true_eq, tick] at h; show t < 2 ^ 64; omega
theorem bistLogic (t : Nat) (key : BitVec 8) (dom : Fin 16) : Statement (.bistLogic t key dom) := by
  intro h; have h : (tick t) = true := h; simp only [decide_eq_true_eq, tick] at h; show t < 2 ^ 64; omega
theorem bistMemory (t : Nat) (key : BitVec 8) (dom : Fin 16) : Statement (.bistMemory t key dom) := by
  intro h; have h : (tick t) = true := h; simp only [decide_eq_true_eq, tick] at h; show t < 2 ^ 64; omega
theorem bistDone (t : Nat) (sigs : Vector Word 20) (banks : List (Fin 20)) (rows : List (Fin 8192)) :
    Statement (.bistDone t sigs banks rows) := by
  intro h; have h : (tick t && (banks.length == rows.length)) = true := h; simp only [Bool.and_eq_true, decide_eq_true_eq, tick] at h; show t < 2 ^ 64; omega
theorem timedRecordStart (t : Nat) (b : Fin 16) : Statement (.timedRecordStart t b) := by
  intro h; have h : (tick t) = true := h; simp only [decide_eq_true_eq, tick] at h; show t < 2 ^ 64; omega
theorem clockPatternEnd (t : Nat) (l : Fin 20) : Statement (.clockPatternEnd t l) := by
  intro h; have h : (tick t) = true := h; simp only [decide_eq_true_eq, tick] at h; show t < 2 ^ 64; omega
theorem csiUnmatchedPacket (t : Nat) (p : Fin 4) (kind : CsiDiscard) : Statement (.csiUnmatchedPacket t p kind) := by
  intro h; have h : (tick t) = true := h; simp only [decide_eq_true_eq, tick] at h; show t < 2 ^ 64; omega
theorem prbsSyncGain (t : Nat) (r : LaneBits) : Statement (.prbsSyncGain t r) := by
  intro h; have h : (tick t && decide (r.line.length ≤ 128)) = true := h; simp only [Bool.and_eq_true, decide_eq_true_eq, tick] at h; show t < 2 ^ 64; omega
theorem prbsSyncLoss (t : Nat) (l : Fin 20) : Statement (.prbsSyncLoss t l) := by
  intro h; have h : (tick t) = true := h; simp only [decide_eq_true_eq, tick] at h; show t < 2 ^ 64; omega
theorem prbsBitError (t : Nat) (r : LaneBit) : Statement (.prbsBitError t r) := by
  intro h; have h : (tick t) = true := h; simp only [decide_eq_true_eq, tick] at h; show t < 2 ^ 64; omega
theorem tapClock (t : Nat) (tms : Bool) (tdi : Bool) : Statement (.tapClock t tms tdi) := by
  intro h; have h : (tick t) = true := h; simp only [decide_eq_true_eq, tick] at h; show t < 2 ^ 64; omega
theorem tapReset (t : Nat) : Statement (.tapReset t) := by
  intro h; have h : (tick t) = true := h; simp only [decide_eq_true_eq, tick] at h; show t < 2 ^ 64; omega
theorem eraseDone (t : Nat) : Statement (.eraseDone t) := by
  intro h; have h : (tick t) = true := h; simp only [decide_eq_true_eq, tick] at h; show t < 2 ^ 64; omega

end Sys2Proof.Laws.Bounded
end

