-- ==== Sys2Proof/Tests/Slice0.lean ====
section
/-! SUPPORT. Tests: an ill-formed term for each check of WellFormed, values the spec gives, and for every statement a state and operands that meet
the hypotheses of each of its clauses, with what the command answers there. -/

namespace Sys2Proof

set_option Elab.async false
set_option maxRecDepth 20000
set_option linter.unusedVariables false

open Sys2Proof.Machine

/-- The next state of an outcome satisfies `g`. -/
def answer (o : Host.Outcome State Fault Refusal) (g : State → Bool) : Bool :=
  match o with
  | .next s => g s
  | .fault _ => false
  | .refused _ => false

/-- The outcome is the stop `f`. -/
def stopped (o : Host.Outcome State Fault Refusal) (f : Fault) : Bool :=
  match o with
  | .next _ => false
  | .fault g => decide (g = f)
  | .refused _ => false

/-- A running block, ACTIVE with every domain on. -/
def up : State :=
  ({ State.reset with time := { running := true }, pwr := { dev := .active, sysOn := true, linkOn := true, pgIn := true } }).setF Pg.PWR
    Reg.PWR_DOMAIN_STATUS_ON 0x1FF

/-- `s` with page `p` in state `v` and CTRL.EN = 1. -/
def Machine.State.page (s : State) (p v : Nat) : State := (s.setF p Reg.STATE_STATE v).setF p Reg.CTRL_EN 1

/-- `s` at tick `t`. -/
def Machine.State.atTick (s : State) (t : Nat) : State := { s with time := { s.time with now := t, acc := t * 2 ^ 32 } }

/-- The changes at STP_DI that carry the words `l` at an input delay. -/
def upPins (delay : Nat) (l : List Nat) : List (Nat × Bool) := (List.range 128).map fun b => (diSample delay b, (frameBits l).getD b false)

/-- A waiting or standing sheet of a test: brush 0 takes part, its list stands at the bottom of DRAM. -/
def testSheet (records : Nat) : Sheet :=
  { seq := 1, addr := dramBase + 4096, id := 5, takesPart := true, medium := false, anchor := 0, next := 0, list := dramBase, records := records,
    gridSet := 0, gridId := 0, palSet := 0, palId := 0, glzSet := 0, glzId := 0, pen := {}, penSet := true, tiles := 0 }

/-- BRUSH_0 and DRAM ON in state `s`, with byte `v` as the first byte of the list of `testSheet`. -/
def Machine.State.brushing (s : State) (v : Nat) : State :=
  (((s.page (Pg.BRUSH 0) 2).page (Pg.DRAM 0) 2).page (Pg.DRAM 1) 2).setByte dramBase (BitVec.ofNat 8 v)


/-! ### The statements' hypotheses -/

/-- QueueAndIdle: a block that does not run, one that does, and a command that completes. -/
theorem meets_QueueAndIdle : (State.reset.pending = [] ∧ State.reset.time.running = false) ∧ (up.pending = [] ∧ up.time.running = true) ∧
    took (exec (.keepAlive 700 1) up) = true ∧ took (exec (.knifeDisarm 5 1) State.reset) = false :=
  ⟨by decide +kernel, by decide +kernel, by decide +kernel, by decide +kernel⟩

/-- OnlyHostErrorsStop: a host error stops, and the command is one of those. -/
theorem meets_OnlyHostErrorsStop : exec (.registerReadClear 5 0x100000) State.reset = .fault (.badAddress 0x100000) ∧
    (Instr.registerReadClear 5 0x100000).mayStop = true ∧ (Instr.missingEdge 5 0).mayStop = false :=
  ⟨rfl, rfl, rfl⟩

/-- StepKeepsTablesCanonical, StepKeepsQueueDepths: states that meet each invariant and step on. -/
theorem meets_invariants : (let s : State := { (up.page (Pg.LTPORT 1) 2) with pending := [.syncAtWrite 700 1 9] }
    s.Tidy ∧ s.depths ∧ took (step s) = true) ∧ (State.reset.Tidy ∧ State.reset.depths ∧ took (step State.reset) = true) :=
  ⟨by decide +kernel, by decide +kernel⟩

/-- IndexInput: a port that is armed, and one that is not. -/
theorem meets_IndexInput : (up.pageOn (Pg.ENC 2) = true ∧ up.encs[2].armed = false) ∧
    (let s := (up.setEnc 2 fun e => { e with armed := true }); s.pageOn (Pg.ENC 2) = true ∧ s.encs[2].armed = true) :=
  ⟨by decide +kernel, by decide +kernel⟩

/-- Device B of a pair in lockstep, its port HOST_A up. -/
def bInLockstep : State :=
  ((((up.setB Pg.SYS Reg.SYS_STRAPS true).page Pg.DIPTYCH 2).setF Pg.DIPTYCH Reg.DIPTYCH_STATUS_PAIR pairLockstep).page (Pg.LINK 0) 2).setF (Pg.LINK 0)
    Reg.LANE_LANE_STATUS_PHASE phUp

/-- TransactionsOfB: B in lockstep turns away a READ of RESP_INFO (an RC register), and writes that are not for the knife. -/
theorem meets_TransactionsOfB :
    (bInLockstep.pairState = pairLockstep ∧ bInLockstep.roleB = true ∧ bInLockstep.laneUp (hostLane 0).val = true ∧
      (bInLockstep.upTo 700).stepHolds (hostLane 0) = false ∧
      (bInLockstep.upTo 700).overLimit ⟨0, (bInLockstep.upTo 700).now, 3, 9, 0, 0, true, [0#8]⟩ = false) ∧
    ((bInLockstep.upTo 700).overLimit ⟨0, (bInLockstep.upTo 700).now, 0, 9, regAddr (Pg.LTPORT 0) 0x064, 3, false, List.replicate 4 0#8⟩ = false ∧
      accMask (regAddr (Pg.LTPORT 0) 0x064 / 0x1000) (regAddr (Pg.LTPORT 0) 0x064 % 0x1000) .rc ≠ 0) ∧
    (bInLockstep.upTo 700).overLimit ⟨0, (bInLockstep.upTo 700).now, 1, 9, regAddr Pg.KNIFE 0x040, 3, false, [1#8, 2#8, 3#8, 4#8]⟩ = false ∧
    (bInLockstep.upTo 700).overLimit ⟨0, (bInLockstep.upTo 700).now, 2, 9, regAddr Pg.KNIFE 0x040, 3, false, [1#8, 2#8, 3#8, 4#8]⟩ = false ∧
    regAddr Pg.KNIFE 0x040 ≠ regAddr Pg.KNIFE Reg.KNIFE_DISARM_MASK.off ∧ regAddr Pg.KNIFE 0x040 ≠ regAddr Pg.KNIFE Reg.KNIFE_TEST_MASK.off ∧
    up.pairState ≠ pairLockstep :=
  ⟨by decide +kernel, by decide +kernel, by decide +kernel, by decide +kernel, by decide +kernel, by decide +kernel, by decide +kernel⟩

/-- HostErrorStops: a case at the edge of every clause. -/
theorem meets_HostErrorStops : (0xFFFFC < 0x100000 ∧ 0xFFFFE % 4 ≠ 0) ∧ State.reset.pwr.sysOn = false ∧ up.pwr.sysOn = true ∧
    (let s : State := { State.reset with pwr := { sysOn := true, linkOn := true } };
      s.pwr.sysOn = true ∧ s.pageOn (0x20040 / 0x1000) = false ∧ 0x20040 % 0x1000 ≠ 0x00C) ∧
    (let s : State := (up.page (Pg.LINK 0) 2).setF (Pg.LINK 0) Reg.LANE_LANE_STATUS_PHASE phUp;
      s.laneUp (hostLane 0).val = true ∧ s.pairState ≠ pairLockstep ∧ s.waiting 0 = [] ∧ (s.upTo 700).stepHolds (hostLane 0) = false ∧
        (s.upTo 700).overLimit ⟨0, (s.upTo 700).now, 0, 9, 0xFFC, 7, false, List.replicate 8 0#8⟩ = false ∧ 0xFFC / 0x1000 ≠ (0xFFC + 7) / 0x1000) :=
  ⟨by decide, by decide, by decide +kernel, by decide +kernel, by decide +kernel⟩

/-- NothingStored: a command that stores nothing and completes. -/
theorem meets_NothingStored : (Instr.laneActivity 700 ⟨5, true⟩).storesNothing = true ∧ took (exec (.laneActivity 700 ⟨5, true⟩) up) = true :=
  ⟨rfl, by decide +kernel⟩

/-- LawKeepsWidths: an axis at each of its limits, with an error that would drive it further. -/
theorem meets_LawKeepsWidths :
    (let s := (up.setAxis 3 fun x => { x with hi := true, i := 2 ^ 47 - 1 }); s.axes[3].hi = true ∧ s.axes[3].i < 2 ^ 47 ∧ 0 < (s.law 3 0 900 0 0 0).e) ∧
    (let s := (up.setAxis 3 fun x => { x with lo := true, i := -(2 ^ 47) }); s.axes[3].lo = true ∧ -(2 ^ 47) ≤ s.axes[3].i ∧ (s.law 3 0 (-900) 0 0 0).e < 0) :=
  ⟨by decide +kernel, by decide +kernel⟩

/-- R11, R12 and R14 at the values the rules give. -/
theorem test_helpers : rnd 5 1 = 3 ∧ rnd (-5) 1 = -2 ∧ rnd (-7) 2 = -2 ∧ sdiff48 0 (2 ^ 48 - 1) = 1 ∧
    crc32 [0x31#8, 0x32#8, 0x33#8, 0x34#8, 0x35#8, 0x36#8, 0x37#8, 0x38#8, 0x39#8] = 0xCBF43926 := by decide +kernel

/-- R127 step 1: the reset state's tables and outputs. -/
theorem test_reset : State.reset.Tidy ∧ State.reset.depths ∧ State.reset.dark ∧ State.reset.knifeOut = false := by decide +kernel

/-- The step takes the front command: the second stays. -/
theorem test_step_front : (answer (step { up with pending := [.indexArm 700 1, .indexArm 700 2] }) fun u =>
    decide (u.pending = [.indexArm 700 2] ∧ u.encs[1].armed = true ∧ u.encs[2].armed = false)) = true := by decide +kernel

/-- The table gives no row any bits, so no word spells a command. -/
theorem test_no_words (nbits w : Nat) (s : State) : decodeTableWord nbits w = none ∧ s.withFetchWord nbits w = s := ⟨rfl, rfl⟩

/-- Every clause of FramesOfLanes has a state in canonical form in which its command completes. -/
theorem meets_FramesOfLanes :
    (let t : Nat := 700; let q : Squelch := ⟨5, false⟩;
      let s : State := (((up.page (lanePage 5) 1).setF (lanePage 5) Reg.LANE_LANE_STATUS_PHASE 2)).setF (lanePage 5) Reg.LANE_LANE_STATUS_ACTIVITY 1; s.Tidy ∧ took (exec (.laneActivity t q) s) = true) ∧
    (let t : Nat := 300000; let l : Fin 20 := 2; let a : Nat := 5;
      let s : State := (((up.page (lanePage 2) 1).setF (lanePage 2) Reg.LANE_LANE_STATUS_PHASE 2)).setLane 2 fun x => { x with patternAt := some 5 }; s.Tidy ∧ took (exec (.clockPatternEnd t l) s) = true) ∧
    (let t : Nat := 700; let l : Fin 20 := 3;
      let s : State := (((up.page (lanePage 3) 1).setF (lanePage 3) Reg.LANE_LANE_STATUS_PHASE 3)).setLane 3 fun x => { x with patternDone := true }; s.Tidy ∧ took (exec (.capSend t l) s) = true) ∧
    (let t : Nat := 90000; let l : Fin 20 := 0;
      let s : State := (((up.page (lanePage 0) 1).setF (lanePage 0) Reg.LANE_LANE_STATUS_PHASE 2)).setLane 0 fun x => { x with patternDone := true }; s.Tidy ∧ took (exec (.idleSend t l) s) = true) ∧
    (let t : Nat := 700; let l : Fin 4 := 1;
      let s : State := ({ up with clk := { locked := true } }).setF (Pg.LINK 1) Reg.LANE_LANE_STATUS_TX_LOOP_TIMED 1; s.Tidy ∧ took (exec (.txTimingSwitch t l) s) = true) ∧
    (let t : Nat := 700; let l : Fin 20 := 5; let rate : Fin 4 := 1;
      let s : State := ((((up.page (lanePage 5) 2).setF (lanePage 5) Reg.LANE_LANE_STATUS_PHASE 4)).setF (lanePage 5) Reg.LANE_LANE_STATUS_PARTNER_RATES 7).setActWord (regAddr (lanePage 5) 0x04C) 1000000; s.Tidy ∧ took (exec (.stepCtrlGo t l rate) s) = true) ∧
    (let t : Nat := 700; let l : Fin 20 := 5; let st : RateStep := { rate := 1, tick := 64700 };
      let s : State := (((up.page (lanePage 5) 2).setF (lanePage 5) Reg.LANE_LANE_STATUS_PHASE 4)).setLane 5 fun x => { x with step := some { rate := 1, tick := 64700 } }; s.Tidy ∧ took (exec (.stepAckDeadline t l) s) = true) ∧
    (let t : Nat := 700; let l : Fin 20 := 5; let st : RateStep := { rate := 1, tick := 13500, acked := true };
      let s : State := (((up.page (lanePage 5) 2).setF (lanePage 5) Reg.LANE_LANE_STATUS_PHASE 4)).setLane 5 fun x => { x with step := some { rate := 1, tick := 13500, acked := true } }; s.Tidy ∧ took (exec (.stepQuiesce t l) s) = true) ∧
    (let t : Nat := 700; let l : Fin 20 := 9; let g : PatternGen := ⟨5, 20, [3]⟩;
      let s : State := (up.setF (lanePage 9) Reg.LANE_LOOP_CTRL_GEN_EN 1).setLane 9 fun x => { x with gen := some ⟨5, 20, [3]⟩ }; s.Tidy ∧ took (exec (.loopInject t l) s) = true) ∧
    (let t : Nat := 700; let l : Fin 20 := 9;
      let s : State := (up.setF (lanePage 9) Reg.LANE_PRBS_ERRORS 7).setF (lanePage 9) Reg.HEAD_DN_SENT 9; s.Tidy ∧ took (exec (.loopClear t l) s) = true) ∧
    (let t : Nat := 700; let l : Fin 20 := 9; let v : Word := 0x301; let s : State := up; s.Tidy ∧ took (exec (.loopCtrlWrite t l v) s) = true) ∧
    (let t : Nat := 700; let r : LaneBits := ⟨9, prbsRun 0 71 [true]⟩;
      let s : State := up.setF (lanePage 9) Reg.LANE_LOOP_CTRL_CHK_EN 1; s.Tidy ∧ took (exec (.prbsSyncGain t r) s) = true) ∧
    (let t : Nat := 700; let l : Fin 20 := 9;
      let s : State := (up.setF (lanePage 9) Reg.LANE_PRBS_STATUS 1).setLane 9 fun x => { x with prbsErrs := List.replicate 65 1000 }; s.Tidy ∧ took (exec (.prbsSyncLoss t l) s) = true) ∧
    (let t : Nat := 700; let r : LaneBit := ⟨9, true⟩;
      let s : State := up.setF (lanePage 9) Reg.LANE_PRBS_STATUS 1; s.Tidy ∧ took (exec (.prbsBitError t r) s) = true) ∧
    (let t : Nat := 700; let port : Fin 2 := 1; let q : Txn := ⟨1, 600, 3, 9, 0, 0, true, [0]⟩; let r : List Txn := [];
      let s : State := ((((up.page (Pg.LINK 1) 2).setF (Pg.LINK 1) Reg.LANE_LANE_STATUS_PHASE 4).page (Pg.DRAM 0) 2).page (Pg.DRAM 1) 2).setLane 1 fun x => { x with fences := [⟨1, 600, 3, 9, 0, 0, true, [0]⟩] }; s.Tidy ∧ took (exec (.fenceComplete t port) s) = true) ∧
    (let t : Nat := 700; let port : Fin 2 := 1; let c : Cpl := ⟨9, 0, 3, [1, 2, 3, 4], 600, 650, 0x400000000, 640⟩;
      let s : State := ((((up.page (Pg.LINK 1) 2).setF (Pg.LINK 1) Reg.LANE_LANE_STATUS_PHASE 4).page (Pg.DRAM 0) 2).page (Pg.DRAM 1) 2).setLane 1 fun x => { x with cpls := [⟨8, 1, 3, [], 500, 690, 0, 690⟩, ⟨9, 0, 3, [1, 2, 3, 4], 600, 650, 0x400000000, 640⟩] }; s.Tidy ∧ took (exec (.cplSend t port) s) = true) := by
  iterate 15 refine ⟨by decide +kernel, ?_⟩
  decide +kernel

/-- Every clause of FramesOfClockAndTime has a state in canonical form in which its command completes. -/
theorem meets_FramesOfClockAndTime :
    (let t : Nat := 700; let s : State := up; s.Tidy ∧ took (exec (.fmeasStart t) s) = true) ∧
    (let t : Nat := 1050000; let n : Nat := 4; let m : Fmeas := ⟨0, 0, 0, 16, 5, 0, 0, 0, 0, false⟩; let k : Nat := 131072;
      let s : State := { up with clk := { fmeas := some ⟨0, 0, 0, 16, 5, 0, 0, 0, 0, false⟩ } }; s.Tidy ∧ took (exec (.fmeasDone t n) s) = true) ∧
    (let t : Nat := 70000000000; let m : Fmeas := ⟨4, 0, 1, 16, 5, 0, 0, 0, 0, false⟩;
      let s : State := { up with clk := { fmeas := some ⟨4, 0, 1, 16, 5, 0, 0, 0, 0, false⟩ } }; s.Tidy ∧ took (exec (.fmeasTimeout t) s) = true) ∧
    (let t : Nat := 20000;
      let s : State := (({ up with clk := { locked := true, holdStart := 5, prevSel := 0 } }).setF Pg.CLK Reg.CLK_STATUS_HOLD 1).setF Pg.CLK Reg.CLK_REF_STATUS_SELECTED 1; s.Tidy ∧ took (exec (.holdLock t) s) = true) ∧
    (let t : Nat := 700; let ok : Bool := true; let d : Nat := 2;
      let s : State := ((({ up with clk := { locked := true, exiting := true } }).setF Pg.CLK Reg.CLK_STATUS_COASTING 1).setValid 2 true).setF Pg.CLK Reg.CLK_STATUS_SAFE_HOLD 1; s.Tidy ∧ took (exec (.coastExitLock t ok) s) = true) ∧
    (let t : Nat := 70000000; let c : Fin 4 := 1; let since : Nat := 5;
      let s : State := ((({ up with clk := { locked := true, qualSince := #v[none, some 5, none, none] } }).page (Pg.LINK 1) 2).setEdges 1 true).setF (Pg.LINK 1) Reg.LANE_LANE_STATUS_FRAME_LOCK 1; s.Tidy ∧ took (exec (.candidateQualified t c) s) = true) ∧
    (let t : Nat := 700; let c : Fin 5 := 2;
      let s : State := (State.reset.setF Pg.PWR Reg.PWR_WAKE_CFG_WAKE_MASK 15); s.Tidy ∧ took (exec (.wakeEvent t c) s) = true) ∧
    (let t : Nat := 700; let c : Nat := 3;
      let s : State := { (State.reset.setF Pg.PWR Reg.PWR_WAKE_CFG_WAKE_MASK 15) with pwr := { blanking := true, wakeHeld := some 3 } }; s.Tidy ∧ took (exec (.wakeBlankEnd t) s) = true) ∧
    (let t : Nat := 0;
      let s : State := { State.reset with pwr := { dev := .waking, primer := .waitPg, pwrReq := true } }; s.Tidy ∧ took (exec (.pgTimeout t) s) = true) ∧
    (let t : Nat := 700; let port : Fin 4 := 2; let txTime : Nat := 650; let seqId : Nat := 0x5003; let senderId : Nat := 9; let k : Fin 16 := 5;
      let s : State := ((((((up.page Pg.TIME 2).setF Pg.TIME Reg.TIME_MODE_CTRL_MODE 1)).page (Pg.LINK 2) 2).setF (Pg.LINK 2) Reg.LANE_LANE_STATUS_PHASE 4).setF Pg.TIME Reg.TIME_MODE_CTRL_FWD_MASK 7).setF Pg.TIME Reg.TIME_STATUS_TIME_PORT 0; s.Tidy ∧ took (exec (.dlyReqReceive t port txTime seqId senderId) s) = true) ∧
    (let t : Nat := 900; let port : Fin 4 := 0; let reqRx : Nat := 800; let reqCorr : Nat := 700; let seqId : Nat := 3; let responder : Nat := 9;
      let q : DlyReq := ⟨3, 690, ⟨650, 0, 700, 4, 0⟩⟩;
      let s : State := ((((((up.page Pg.TIME 2).setF Pg.TIME Reg.TIME_MODE_CTRL_MODE 1)).page (Pg.LINK 0) 2).setF (Pg.LINK 0) Reg.LANE_LANE_STATUS_PHASE 4).setTime fun x => { x with ports := x.ports.set 0 { reqs := [⟨3, 690, ⟨650, 0, 700, 4, 0⟩⟩] } }); s.Tidy ∧ took (exec (.dlyRspReceive t port reqRx reqCorr seqId responder) s) = true) ∧
    (let t : Nat := 7000000; let port : Fin 4 := 0; let q : DlyReq := ⟨3, 690, ⟨650, 0, 700, 4, 0⟩⟩; let r : List DlyReq := [];
      let s : State := ((((((up.page Pg.TIME 2).setF Pg.TIME Reg.TIME_MODE_CTRL_MODE 1)).page (Pg.LINK 0) 2).setF (Pg.LINK 0) Reg.LANE_LANE_STATUS_PHASE 4).setTime fun x => { x with ports := x.ports.set 0 { reqs := [⟨3, 690, ⟨650, 0, 700, 4, 0⟩⟩] } }); s.Tidy ∧ took (exec (.dlyTimeout t port) s) = true) ∧
    (let t : Nat := 720; let port : Fin 4 := 2; let f : Forward := ⟨2, 5, 690, syncPayload 650 0 3 4 0⟩;
      let s : State := ((((((up.page Pg.TIME 2).setF Pg.TIME Reg.TIME_MODE_CTRL_MODE 1)).page (Pg.LINK 2) 2).setF (Pg.LINK 2) Reg.LANE_LANE_STATUS_PHASE 4)).setTime fun x => { x with forwards := [⟨2, 5, 690, syncPayload 650 0 3 4 0⟩] }; s.Tidy ∧ took (exec (.timeFrameForward t port) s) = true) ∧
    (let t : Nat := 700; let v : Word := 0xFFFFFFFF;
      let s : State := (((up.page Pg.TIME 2).setF Pg.TIME Reg.TIME_MODE_CTRL_MODE 1).setF Pg.TIME Reg.TIME_MODE_CTRL_STEP_EN 1).setF Pg.TIME Reg.TIME_ADJ_LO 0xFFFFFF00; s.Tidy ∧ took (exec (.adjHiWrite t v) s) = true) ∧
    (let t : Nat := 4000; let l : Fin 20 := 7; let e : LaunchEntry := { tick := 4000, slip := true, ty := 8, payload := leBytes 32 7 };
      let rest : List LaunchEntry := [];
      let s : State := (((up.page (lanePage 7) 2).setF (lanePage 7) Reg.LANE_LANE_STATUS_PHASE 4)).setLane 7 fun x => { x with launches := [{ tick := 4000, slip := true, ty := 8, payload := leBytes 32 7 }] }; s.Tidy ∧ took (exec (.launch t l) s) = true) := by
  iterate 14 refine ⟨by decide +kernel, ?_⟩
  decide +kernel

/-- Every clause of FramesOfKnifeAndHeads has a state in canonical form in which its command completes. -/
theorem meets_FramesOfKnifeAndHeads :
    (let t : Nat := 700; let key : Nat := 0xC3; let mask : BitVec 16 := 0x30;
      let s : State := up.setF Pg.KNIFE (Reg.KNIFE_CAUSE_LATCHED.num 5) 1; s.Tidy ∧ took (exec (.knifeArmSet t key mask) s) = true) ∧
    (let t : Nat := 700; let key : Nat := 0x3C; let mask : BitVec 16 := 0x20;
      let s : State := up.setF Pg.KNIFE (Reg.KNIFE_CAUSE_LATCHED.num 5) 0x403; s.Tidy ∧ took (exec (.knifeClear t key mask) s) = true) ∧
    (let t : Nat := 700; let p : Fin 256 := 3; let bits : Word := 0xFF;
      let s : State := (up.setF 3 Reg.EVENT 5).markEv 98; s.Tidy ∧ took (exec (.eventClear t p bits) s) = true) ∧
    (let t : Nat := 700; let p : Fin 256 := 3; let bits : Word := 6;
      let s : State := up.setF 3 Reg.EVENT 1; s.Tidy ∧ took (exec (.eventForce t p bits) s) = true) ∧
    (let t : Nat := 700; let p : Fin 256 := 0x85; let s : State := up; s.Tidy ∧ took (exec (.commit t p) s) = true) ∧
    (let t : Nat := 700; let h : Fin 16 := 3;
      let s : State := (((up.page (Pg.HEAD 3) 2).setF (Pg.HEAD 3) Reg.LANE_LANE_STATUS_PHASE 4).setHead 3 fun x => { x with judgeFrom := some 0 }).setActWord (regAddr (Pg.HEAD 3) Reg.HEAD_MBX_OUT_HI.off) 0x120000#32; s.Tidy ∧ took (exec (.mbxSend t h) s) = true) ∧
    (let t : Nat := 2000000; let h : Fin 16 := 3;
      let s : State := (((up.page (Pg.HEAD 3) 2).setF (Pg.HEAD 3) Reg.LANE_LANE_STATUS_PHASE 4).setHead 3 fun x => { x with judgeFrom := some 0 }).setF (Pg.HEAD 3) Reg.HEAD_MBX_STATUS_BUSY 1; s.Tidy ∧ took (exec (.mbxTimeout t h) s) = true) ∧
    (let n : Nat := 2; let h : Fin 16 := 3; let k : Nat := 0;
      let s : State := (((up.page (Pg.HEAD 3) 2).setF (Pg.HEAD 3) Reg.LANE_LANE_STATUS_PHASE 4).setHead 3 fun x => { x with judgeFrom := some 0 }); s.Tidy ∧ took (exec (.sampleBDeadline n) s) = true) ∧
    (let t : Nat := 17000; let k : Nat := 17;
      let s : State := { (up.page Pg.DIPTYCH 1) with dip := { formF := some 17 } }; s.Tidy ∧ took (exec (.formEchoDeadline t) s) = true) ∧
    (let t : Nat := 13700; let l : Fin 20 := 0;
      let s : State := (((((up.page Pg.EVCOL 2).setF Pg.EVCOL Reg.EVCOL_EVCOL_CFG 1).page (Pg.LINK 0) 2).setF (Pg.LINK 0) Reg.LANE_LANE_STATUS_PHASE 4).setEv fun v => { v with queue := [⟨5, 96, 650, 2, false⟩] }); s.Tidy ∧ took (exec (.evtSend t) s) = true) ∧
    (let t : Nat := 700; let p : Fin 256 := ⟨Pg.TIME, by decide⟩; let s : State := up; s.Tidy ∧ took (exec (.snapshotTake t p) s) = true) ∧
    (let t : Nat := 16000; let p : Fin 256 := ⟨Pg.MEDIUM, by decide⟩;
      let s : State := ((up.setF Pg.MEDIUM Reg.COMMIT_PENDING 1).setCommitTick Pg.MEDIUM 90).setWord (regAddr Pg.MEDIUM 0x4C) 77#32; s.Tidy ∧ took (exec (.shadowTransfer t p) s) = true) ∧
    (let t : Nat := 700; let frame : Word := 3; let w2 : Word := 0x50002; let digest : Word := 77;
      let s : State := ((({ (up.page Pg.DIPTYCH 2) with dip := { late := false } }).setF Pg.DIPTYCH Reg.DIPTYCH_STATUS_PAIR 2).setF Pg.SYS Reg.SYS_STRAPS 0); s.Tidy ∧ took (exec (.digestReceive t frame w2 digest) s) = true) ∧
    (let t : Nat := 700; let key : BitVec 8 := 0x5A; let b : Beat := ⟨3, 0, false, false, true, false, 0⟩;
      let s : State := ((({ (up.page Pg.DIPTYCH 2) with dip := { latest := some ⟨3, 0, false, false, true, false, 0⟩ } }).setF Pg.DIPTYCH Reg.DIPTYCH_STATUS_PAIR 2).setF Pg.SYS Reg.SYS_STRAPS 0); s.Tidy ∧ took (exec (.handover t key) s) = true) ∧
    (let t : Nat := 49000; let frame : Word := 3; let words : Vector (BitVec 64) 4 := #v[5, 6, 7, 0xFFFF000000000000];
      let s : State := ((({ (up.page Pg.DIPTYCH 2) with dip := { late := false } }).setF Pg.DIPTYCH Reg.DIPTYCH_STATUS_PAIR 2).setF Pg.SYS Reg.SYS_STRAPS 1); s.Tidy ∧ took (exec (.mirrorMediumReceive t frame words) s) = true) := by
  iterate 14 refine ⟨by decide +kernel, ?_⟩
  decide +kernel

/-- Every clause of FramesOfBrushes has a state in canonical form in which its command completes. -/
theorem meets_FramesOfBrushes :
    (let t : Nat := 700; let n : Fin 4 := 1;
      let s : State := ((up.page (Pg.ENC 1) 2).setF (Pg.ENC 1) Reg.ENC_ENC_CFG_MODE 0); s.Tidy ∧ took (exec (.indexArm t n) s) = true) ∧
    (let t : Nat := 700; let n : Fin 4 := 1;
      let s : State := (((up.page (Pg.ENC 1) 2).setF (Pg.ENC 1) Reg.ENC_ENC_CFG_MODE 0).setEnc 1 fun e => { e with armed := true }); s.Tidy ∧ took (exec (.indexCapture t n) s) = true) ∧
    (let t : Nat := 300000;
      let s : State := { up with medium := { targets := [{ pos := 5, tick := some 3 }, { pos := 7 }] } }; s.Tidy ∧ took (exec (.targetRemove t) s) = true) ∧
    (let n : Nat := 0; let half : Bool := true; let b : Fin 16 := 0;
      let s : State := (up.page (Pg.LASER 0) 2).setLaser 0 fun l => { l with words := [(17920, 0x80123456)] }; s.Tidy ∧ took (exec (.powerBurstStart n half b) s) = true) ∧
    (let t : Nat := 700; let b : Fin 16 := 0; let v : Word := 4;
      let s : State := (up.brushing 0).setF (Pg.BRUSH 0) Reg.BRUSH_CHAIN_LO 128; s.Tidy ∧ took (exec (.chainStart t b v) s) = true) ∧
    (let t : Nat := 700; let b : Fin 16 := 0; let pathB : Bool := false; let q : Path := { sheet := 1 }; let k : Nat := 0;
      let h : Sheet := testSheet 1;
      let s : State := ((up.brushing 0).setBrush 0 fun x => { x with force := some (testSheet 1), pathA := { sheet := 1 } }); s.Tidy ∧ took (exec (.blockFetchRequest t b pathB) s) = true) ∧
    (let t : Nat := 16000 * 65; let b : Fin 16 := 0; let h : Sheet := testSheet 1;
      let s : State := (((up.brushing 0).setBrush 0 fun x => { x with force := some (testSheet 1) })).setBytes (dramBase + 4096 + 0x18) (leBytes 5 (dramBase + 64)); s.Tidy ∧ took (exec (.nextPoll t b) s) = true) ∧
    (let t : Nat := 700; let b : Fin 16 := 0; let h : Sheet := testSheet 1; let r : Rec := decodeRec (leBytes 32 (0x205 + 600 * 2 ^ 32));
      let ts : Nat := 600; let s : State := (((up.brushing 5).setBrush 0 fun x => { x with force := some (testSheet 1) })).setBytes dramBase (leBytes 6 (0x205 + 600 * 2 ^ 32)); s.Tidy ∧ took (exec (.waitComplete t b) s) = true) ∧
    (let t : Nat := 700; let b : Fin 16 := 0; let q : Nat × Nat := (dramBase, 1); let k : Nat := 600;
      let s : State := ((((up.brushing 4).page (Pg.RASTER 0) 2).setRaster 0 fun x => { x with tile := some (dramBase, 1), closeAt := some 600 })).setF (Pg.RASTER 0) Reg.RASTER_TILE_STATUS_OPEN 1; s.Tidy ∧ took (exec (.tileClose t b) s) = true) ∧
    (let t : Nat := 700; let p : Fin 4 := 1; let vc : Fin 16 := 0; let corrected : Bool := true; let k : Fin 32 := 9;
      let s : State := (((up.page (Pg.CAM 1) 2).page (Pg.STREAM 9) 2).page Pg.VISION 2).setStream 9 fun x => { x with frames := [{ id := 4, fsTime := 600, fn := 1, seq := 2, setId := 0, mid := 0, noTrig := false, resynced := false, throttled := false, black := 0, ratio := 0, knee := 0, slot := none, rois := [{}] }] }; s.Tidy ∧ took (exec (.csiFrameEnd t p vc corrected) s) = true) ∧
    (let t : Nat := 700; let p : Fin 4 := 1; let kind : CsiDiscard := .header (some 1);
      let s : State := (((up.page (Pg.CAM 1) 2).page (Pg.STREAM 9) 2).page Pg.VISION 2).setStream 9 fun x => { x with nextId := 4 }; s.Tidy ∧ took (exec (.csiUnmatchedPacket t p kind) s) = true) ∧
    (let t : Nat := 10000700; let k : Fin 32 := 9;
      let g : VFrame := { id := 4, fsTime := 600, fn := 1, seq := 2, setId := 0, mid := 0, noTrig := false, resynced := false, throttled := false, black := 0, ratio := 0, knee := 0, slot := none, rois := [{}] };
      let s : State := (((up.page (Pg.CAM 1) 2).page (Pg.STREAM 9) 2).page Pg.VISION 2).setStream 9 fun x => { x with frames := [{ id := 4, fsTime := 600, fn := 1, seq := 2, setId := 0, mid := 0, noTrig := false, resynced := false, throttled := false, black := 0, ratio := 0, knee := 0, slot := none, rois := [{}] }] }; s.Tidy ∧ took (exec (.frameLimitExpiry t k) s) = true) ∧
    (let t : Nat := 700; let k : Fin 32 := 9; let v : Word := 0;
      let s : State := (((((((up.page (Pg.CAM 1) 2).page (Pg.STREAM 9) 2).page Pg.VISION 2).setStream 9 fun x => { x with nextId := 4 }).setF (Pg.STREAM 9) Reg.STREAM_CTX_CFG_TRIG_OWN 1).setTrig 0 fun x => { x with seq := 1 }).setF (Pg.STREAM 9) Reg.STREAM_TRIG_CFG_MODE 1).setWord (regAddr (Pg.STREAM 9) Reg.STREAM_ONESHOT_LO.off) 5000#32; s.Tidy ∧ took (exec (.oneshotWrite t k v) s) = true) ∧
    (let t : Nat := 700; let e : Fin 4 := 1;
      let s : State := (up.setF (Pg.ENGINE 1) Reg.ENGINE_TRACE_CTRL_TRIG 1).setF (Pg.ENGINE 1) Reg.ENGINE_TRACE_STATUS_DONE 1; s.Tidy ∧ took (exec (.traceArm t e) s) = true) ∧
    (let t : Nat := 700; let e : Fin 4 := 1;
      let s : State := (up.setF (Pg.ENGINE 1) Reg.ENGINE_TRACE_STATUS_ARMED 1).setF (Pg.ENGINE 1) Reg.ENGINE_TRACE_STATUS_TRIGGERED 1; s.Tidy ∧ took (exec (.traceStop t e) s) = true) ∧
    (let t : Nat := 700; let e : Fin 4 := 1; let v : Word := 0x12340011; let s : State := up; s.Tidy ∧ took (exec (.injectWrite t e v) s) = true) ∧
    (let t : Nat := 700; let n : Fin 8 := 4; let v : Word := 0xFF;
      let s : State := up.setWord (regAddr (Pg.STEP 4) Reg.STEP_TARGET_LO.off) 0xFFFFFFFE#32; s.Tidy ∧ took (exec (.stepTargetWrite t n v) s) = true) ∧
    (let t : Nat := 700; let o : Fin 8 := 0; let v : Nat := 690;
      let s : State := (((((up.page (Pg.CAM 1) 2).page (Pg.STREAM 9) 2).page Pg.VISION 2).setStream 9 fun x => { x with nextId := 4 }).setF (Pg.STREAM 9) Reg.STREAM_CTX_CFG_TRIG_OWN 1).setTrig 0 fun x => { x with endAt := some 690 }; s.Tidy ∧ took (exec (.triggerEnd t o) s) = true) ∧
    (let t : Nat := 64000000000; let n : Fin 4 := 2;
      let s : State := ((((up.page (Pg.LTPORT 2) 2).page Pg.LIGHT 2).setF (Pg.LTPORT 2) Reg.LTPORT_PORT_CFG_DRIVERS 1).setLight 2 fun x => { x with fails := 0 }); s.Tidy ∧ took (exec (.tempPoll t n) s) = true) ∧
    (let t : Nat := 12800007; let n : Fin 4 := 2;
      let s : State := ((((up.page (Pg.LTPORT 2) 2).page Pg.LIGHT 2).setF (Pg.LTPORT 2) Reg.LTPORT_PORT_CFG_DRIVERS 1).setLight 2 fun x => { x with lastEnd := some 7 }); s.Tidy ∧ took (exec (.keepAlive t n) s) = true) ∧
    (let t : Nat := 700; let n : Fin 4 := 2; let v : Word := 0x80100012;
      let s : State := ((((up.page (Pg.LTPORT 2) 2).page Pg.LIGHT 2).setF (Pg.LTPORT 2) Reg.LTPORT_PORT_CFG_DRIVERS 1).setLight 2 fun x => { x with fails := 0 }).setF (Pg.LTPORT 2) Reg.LTPORT_CMD_DATA 9; s.Tidy ∧ took (exec (.cmdHdrWrite t n v) s) = true) ∧
    (let t : Nat := 700; let n : Fin 4 := 2;
      let s : State := ((((up.page (Pg.LTPORT 2) 2).page Pg.LIGHT 2).setF (Pg.LTPORT 2) Reg.LTPORT_PORT_CFG_DRIVERS 1).setLight 2 fun x => { x with resps := [⟨1, true, 2, 3⟩] }); s.Tidy ∧ took (exec (.respPop t n) s) = true) := by
  iterate 21 refine ⟨by decide +kernel, ?_⟩
  decide +kernel

/-- Every clause of FramesOfMemoryUnits has a state in canonical form in which its command completes. -/
theorem meets_FramesOfMemoryUnits :
    (let t : Nat := 700; let b : Nat := 3;
      let s : State := (up.page Pg.BANKS 2).setF Pg.BANKS Reg.BANKS_BG_CFG_BANK_EN 8; s.Tidy ∧ took (exec (.bgRowStart t) s) = true) ∧
    (let t : Nat := 700; let failed : Bool := true;
      let s : State := { up with bankTest := { bank := 3, row := 7, active := true, lastStart := some 5 } }; s.Tidy ∧ took (exec (.bgRowDone t failed) s) = true) ∧
    (let t : Nat := 700; let b : Fin 20 := 3; let off : Nat := 12;
      let s : State := { up with memErr := [(0x10300008, 1)] }; s.Tidy ∧ took (exec (.bankEccWriteback t b off) s) = true) ∧
    (let t : Nat := 700; let addr : Nat := dramBase + 9;
      let s : State := ((({ up with memErr := [(dramBase + 8, 1)] }).page (Pg.DRAM 0) 2).setF (Pg.DRAM 0) Reg.DRAM_CFG_ECC_EN 1).setDram 0 fun x => { x with fixes := [0] }; s.Tidy ∧ took (exec (.dramEccWriteback t addr) s) = true) ∧
    (let t : Nat := 700; let i : Fin 2 := 1;
      let s : State := ((up.page (Pg.DRAM 1) 2).setDram 1 fun x => { x with reads := [⟨2, 0, 5, dramBase, 10, 100, false, 0⟩], wq := [{ cls := 2, who := 0, gran := 5, addr := dramBase, mask := 1, at_ := 10, limit := 100 }] }); s.Tidy ∧ took (exec (.agePromotion t i) s) = true) ∧
    (let t : Nat := 700; let i : Fin 2 := 1; let rate : Vector (Fin 32) 2 := #v[3, 6]; let hot : Bool := true;
      let s : State := ((up.page (Pg.DRAM 1) 2).setDram 1 fun x => { x with ready := true }); s.Tidy ∧ took (exec (.mr4Poll t i rate hot) s) = true) ∧
    (let t : Nat := 700; let target : Fin 32 := 5; let s : State := (up.page Pg.CALIB 2); s.Tidy ∧ took (exec (.calDelay t target) s) = true) ∧
    (let t : Nat := 700; let s : State := (up.page Pg.CALIB 2).page Pg.THERM 2; s.Tidy ∧ took (exec (.calSensor t) s) = true) ∧
    (let t : Nat := 700; let target : Fin 32 := 7; let s : State := (up.page Pg.CALIB 2); s.Tidy ∧ took (exec (.calLane t target) s) = true) ∧
    (let t : Nat := 700;
      let s : State := { (up.page Pg.CALIB 2) with rcd := { (up.page Pg.CALIB 2).rcd with dir := true } }; s.Tidy ∧ took (exec (.calSave t) s) = true) ∧
    (let t : Nat := 700;
      let cells : Vector (Vector (Option (BitVec 16)) 24) 32 := (Vector.replicate 32 (Vector.replicate 24 (some 20#16))).set 7 (Vector.replicate 24 none);
      let segP : Vector (Option Word) 16 := Vector.replicate 16 none; let segN : Vector (Option Word) 16 := Vector.replicate 16 none;
      let ok : Bool := true; let r : CalRun := { op := 1, target := 3, start := 5 };
      let s : State := { (up.page Pg.CALIB 2) with cal := { run := some { op := 1, target := 3, start := 5 } } }; s.Tidy ∧ took (exec (.calDone t cells segP segN ok) s) = true) ∧
    (let t : Nat := 700; let sigs : Vector Word 20 := Vector.replicate 20 0; let banks : List (Fin 20) := []; let rows : List (Fin 8192) := [];
      let r : BistRun := ⟨1, 9, 5⟩;
      let s : State := { (up.page Pg.BIST 2) with bist := some ⟨1, 9, 5⟩ }; s.Tidy ∧ took (exec (.bistDone t sigs banks rows) s) = true) ∧
    (let t : Nat := 1440000000000;
      let s : State := (((up.page Pg.RECORD 2).setF Pg.RECORD Reg.RECORD_STATUS_READY 1).setRcd fun r => { r with dir := true }); s.Tidy ∧ took (exec (.hoursTick t) s) = true) ∧
    (let t : Nat := 700;
      let s : State := ((((up.page Pg.RECORD 2).setF Pg.RECORD Reg.RECORD_STATUS_READY 1).setRcd fun r => { r with dir := true }).setRcd fun r => { r with ringSlots := 4, ringBase := 0x10000 }); s.Tidy ∧ took (exec (.eraseAhead t) s) = true) ∧
    (let t : Nat := 700;
      let s : State := (((up.page Pg.RECORD 2).setF Pg.RECORD Reg.RECORD_STATUS_READY 1).setRcd fun r => { r with dir := true }).setByte (recordBank + 5) 3#8; s.Tidy ∧ took (exec (.clearAcc t) s) = true) := by
  iterate 14 refine ⟨by decide +kernel, ?_⟩
  decide +kernel

/-- Every clause of FramesOfEmission has a state in canonical form in which its command completes. -/
theorem meets_FramesOfEmission :
    (let t : Nat := 700; let mask : BitVec 16 := 0x31;
      let s : State := up.setF Pg.KNIFE Reg.KNIFE_ARM_STATE 0x70; s.Tidy ∧ took (exec (.knifeDisarm t mask) s) = true) ∧
    (let n : Nat := 3; let b : Fin 16 := 4; let w : Nat := 47000;
      let s : State := { up with knife := { armAt := (Vector.replicate 16 none).set 4 (some 47000) } }; s.Tidy ∧ took (exec (.permitStart n) s) = true) ∧
    (let t : Nat := 700; let mask : BitVec 16 := 0x20;
      let s : State := up.setF Pg.KNIFE Reg.KNIFE_ARM_STATE 0x70; s.Tidy ∧ took (exec (.knifeTest t mask) s) = true) ∧
    (let t : Nat := 700; let i : Fin 4 := 2; let a : Bool := false; let b : Bool := false;
      let s : State := ({ up with knife := { ilk := Vector.replicate 4 { a := true, b := false } } }); s.Tidy ∧ took (exec (.ilkDepart t i a b) s) = true) ∧
    (let t : Nat := 700; let i : Fin 4 := 2;
      let s : State := ({ up with knife := { ilk := Vector.replicate 4 { stopOk := true } } }).setF Pg.KNIFE Reg.KNIFE_ILK_STATUS_DISC_LATCHED 15; s.Tidy ∧ took (exec (.ilkReturn t i) s) = true) ∧
    (let t : Nat := 7000000000; let i : Fin 4 := 1; let since : Nat := 5;
      let s : State := { up with knife := { ilk := Vector.replicate 4 { a := true, b := true, discSince := some 5 } } }; s.Tidy ∧ took (exec (.discTimeout t i) s) = true) ∧
    (let t : Nat := 700; let tms : Bool := true; let tdi : Bool := false;
      let s : State := { up with tap := { up.tap with state := .exit1Ir, sr := [true, true, false, false, false, false] } }; s.Tidy ∧ took (exec (.tapClock t tms tdi) s) = true) ∧
    (let t : Nat := 700;
      let s : State := { up with tap := { up.tap with state := .exit1Ir, ir := 0 } }; s.Tidy ∧ took (exec (.tapReset t) s) = true) ∧
    (let t : Nat := 7000; let l : Fin 20 := 1; let fill : List Bool := gapFill 33; let delim : List Bool := delimiter;
      let hdr : List Bool := frameLine (TxFrame.wire ⟨2, 9, 0, leBytes 12 7⟩); let hcrc : List Bool := []; let payload : List Bool := [];
      let pcrc : List Bool := []; let errs : Nat := 0; let more : Nat := 0; let rest : List Bool := frameLine (TxFrame.wire ⟨2, 9, 0, leBytes 12 7⟩);
      let f : RxFrame := ⟨0x0900C002, crc32 (leBytes 4 0x0900C002), leBytes 12 7, crc32 (leBytes 12 7), 0⟩;
      let s : State := ((up.page (lanePage 1) 2).setF (lanePage 1) Reg.LANE_LANE_STATUS_PHASE 4); s.Tidy ∧ took (exec (.frameReceive t l fill delim hdr hcrc payload pcrc) s) = true) ∧
    (let t : Nat := 700; let b : Fin 16 := 0; let h : Sheet := testSheet 1; let r : Rec := decodeRec (leBytes 32 3); let ts : Nat := 0;
      let s : State := ((up.brushing 3).setBrush 0 fun x => { x with force := some (testSheet 1) }); s.Tidy ∧ took (exec (.timedRecordStart t b) s) = true) ∧
    (let n : Nat := 0; let half : Bool := false; let b : Fin 16 := 0; let d : Sched := ⟨0, 0, 0, false, none, none⟩;
      let s : State := up; s.Tidy ∧ took (exec (.glazeCompute n half b) s) = true) ∧
    (let n : Nat := 500; let g : Nat := 2;
      let s : State := { (((up.page Pg.THERM 2).setF Pg.THERM Reg.THERM_STATUS_WARN 1).setF Pg.THERM Reg.THERM_GRACE 1) with therm := { graceFrom := some 2 } }; s.Tidy ∧ took (exec (.graceExpiry n) s) = true) := by
  iterate 11 refine ⟨by decide +kernel, ?_⟩
  decide +kernel

/-- Every clause of LaneBringUp has a case that meets its hypotheses, and the command completes there as the clause says. -/
theorem runs_LaneBringUp :
    (let t : Nat := 700; let q : Squelch := ⟨5, false⟩;
      let s : State := (((up.page (lanePage 5) 1).setF (lanePage 5) Reg.LANE_LANE_STATUS_PHASE 2)).setF (lanePage 5) Reg.LANE_LANE_STATUS_ACTIVITY 1; ((s.pageOn (lanePage q.lane.val) = true) ∧ (q.on = false)) ∧ (answer (exec (.laneActivity t q) s) fun u => decide ((u.fb (lanePage q.lane.val) Reg.LANE_LANE_STATUS_ACTIVITY = false) ∧ (u.phase q.lane.val = s.phase q.lane.val)) ) = true) ∧
    (let t : Nat := 700; let q : Squelch := ⟨5, true⟩;
      let s : State := ((up.page (lanePage 5) 1).setF (lanePage 5) Reg.LANE_LANE_STATUS_PHASE 0); ((q.on = true) ∧ (s.laneRuns q.lane = true) ∧ (s.pageOn (lanePage q.lane.val) = true) ∧ (s.phase q.lane.val = phIdle)) ∧ (answer (exec (.laneActivity t q) s) fun u => decide ((u.phase q.lane.val = phAcquire) ∧ (u.fb (lanePage q.lane.val) Reg.LANE_LANE_STATUS_ACTIVITY = true) ∧ (u.lanes[q.lane].attemptAt = (s.upTo t).now)) ) = true) ∧
    (let t : Nat := 700; let l : Fin 20 := 1;
      let s : State := ((up.page (lanePage 1) 1).setF (lanePage 1) Reg.LANE_LANE_STATUS_PHASE 1); ((s.laneRuns l = true) ∧ (s.phase l = phAcquire) ∧ ((l.val < 4 → s.candValid l.val = false))) ∧ (answer (exec (.cdrLock t l) s) fun u => decide ((u.phase l = phAlign) ∧ (u.fb (lanePage l) Reg.LANE_LANE_STATUS_CDR_LOCK = true)) ) = true) ∧
    (let t : Nat := 300000; let l : Fin 20 := 2; let a : Nat := 5;
      let s : State := (((up.page (lanePage 2) 1).setF (lanePage 2) Reg.LANE_LANE_STATUS_PHASE 2)).setLane 2 fun x => { x with patternAt := some 5 }; ((s.laneRuns l = true) ∧ ((1 ≤ s.phase l ∧ s.phase l ≤ 3)) ∧ (s.lanes[l].patternAt = some a) ∧ ((s.upTo t).elapsed a 256000 = true)) ∧ (answer (exec (.clockPatternEnd t l) s) fun u => decide ((u.lanes[l].patternDone = true)) ) = true) ∧
    (let t : Nat := 700; let l : Fin 20 := 3;
      let s : State := (((up.page (lanePage 3) 1).setF (lanePage 3) Reg.LANE_LANE_STATUS_PHASE 2)).setLane 3 fun x => { x with good := 8 }; ((s.laneRuns l = true) ∧ (8 ≤ s.lanes[l].good) ∧ (s.fb (lanePage l) Reg.LANE_LANE_STATUS_FRAME_LOCK = false) ∧ (s.phase l = phAlign) ∧ ((l.val < 4 → s.candValid l.val = false)) ∧ ((4 ≤ l.val → (s.heads[l.val - 4]).healthy = false))) ∧ (answer (exec (.frameLock t l) s) fun u => decide ((u.phase l = phCapx) ∧ (u.fb (lanePage l) Reg.LANE_LANE_STATUS_FRAME_LOCK = true)) ) = true) ∧
    (let t : Nat := 700; let l : Fin 20 := 0; let w0 : Nat := 0x010F0101; let w1 : Nat := 0; let w2 : Nat := 0; let w3 : Nat := 0;
      let s : State := (((up.page (lanePage 0) 1).setF (lanePage 0) Reg.LANE_LANE_STATUS_PHASE 3)).setLane 0 fun x => { x with capAt := some 5, retries := 2 }; ((s.laneRuns l = true) ∧ (capValid w0 = true) ∧ (s.phase l = phCapx) ∧ (w0.testBit 0 = true) ∧ (s.lanes[l].capAt.isSome = true) ∧ ((l.val < 4 → s.candValid l.val = false)) ∧ ((4 ≤ l.val → (s.heads[l.val - 4]).healthy = false))) ∧ (answer (exec (.capReceive t l w0 w1 w2 w3) s) fun u => decide ((u.phase l = phUp) ∧ (u.st (lanePage l) = stOn) ∧ (u.f (lanePage l) Reg.LANE_LANE_STATUS_PARTNER_RATES = bits w0 16 4) ∧ (u.lanes[l].retries = 0)) ) = true) ∧
    (let t : Nat := 800000; let l : Fin 20 := 6;
      let s : State := ((up.page (lanePage 6) 1).setF (lanePage 6) Reg.LANE_LANE_STATUS_PHASE 2); ((s.laneRuns l = true) ∧ ((1 ≤ s.phase l ∧ s.phase l ≤ 3)) ∧ ((s.upTo t).elapsed s.lanes[l].phaseAt (phaseLimit (s.phase l)) = true) ∧ ((s.f (lanePage l) Reg.LANE_LANE_CTRL_BRINGUP_RETRIES = 0 ∨ s.lanes[l].retries + 1 < s.f (lanePage l) Reg.LANE_LANE_CTRL_BRINGUP_RETRIES)) ∧ (s.fb (lanePage l) Reg.LANE_STEP_STATUS_BUSY = false) ∧ ((l.val < 4 → s.candValid l.val = false)) ∧ ((4 ≤ l.val → (s.heads[l.val - 4]).healthy = false))) ∧ (answer (exec (.bringupPhaseTimeout t l) s) fun u => decide ((u.lanes[l].retries = s.lanes[l].retries + 1) ∧ (u.phase l = (if s.fb (lanePage l) Reg.LANE_LANE_STATUS_ACTIVITY then phAcquire else phIdle)) ∧ (u.f (lanePage l) Reg.LANE_LANE_STATUS_RATE = 0) ∧ (u.f (lanePage l) Reg.LANE_BRINGUP_FAILS = satU (s.f (lanePage l) Reg.LANE_BRINGUP_FAILS + 1) Reg.LANE_BRINGUP_FAILS.width)) ) = true) ∧
    (let t : Nat := 70000; let l : Fin 20 := 6; let cause : Fin 3 := 1; let activity : Bool := false;
      let s : State := (((up.page (lanePage 6) 1).setF (lanePage 6) Reg.LANE_LANE_STATUS_PHASE 3)).setF (lanePage 6) Reg.LANE_LANE_STATUS_FRAME_LOCK 1; ((s.laneRuns l = true) ∧ (s.fb (lanePage l) Reg.LANE_LANE_STATUS_FRAME_LOCK = true) ∧ ((s.upTo t).lockLost l cause = true) ∧ (s.phase l ≠ phUp)) ∧ (answer (exec (.frameLockLoss t l cause activity) s) fun u => decide ((u.fb (lanePage l) Reg.LANE_LANE_STATUS_FRAME_LOCK = false) ∧ (u.fb (lanePage l) Reg.LANE_LANE_STATUS_ACTIVITY = activity) ∧ (u.lanes[l].good = 0)) ) = true) ∧
    (let t : Nat := 70000; let l : Fin 20 := 6; let cause : Fin 3 := 2; let activity : Bool := false;
      let s : State := (((up.page (lanePage 6) 1).setF (lanePage 6) Reg.LANE_LANE_STATUS_PHASE 3)).setF (lanePage 6) Reg.LANE_LANE_STATUS_CDR_LOCK 1; ((s.laneRuns l = true) ∧ (s.fb (lanePage l) Reg.LANE_LANE_STATUS_CDR_LOCK = true) ∧ (cause.val = 2) ∧ ((s.upTo t).lockLost l cause = true) ∧ (s.phase l ≠ phUp)) ∧ (answer (exec (.frameLockLoss t l cause activity) s) fun u => decide ((u.fb (lanePage l) Reg.LANE_LANE_STATUS_CDR_LOCK = false) ∧ (u.fb (lanePage l) Reg.LANE_LANE_STATUS_FRAME_LOCK = false) ∧ (u.fb (lanePage l) Reg.LANE_LANE_STATUS_ACTIVITY = activity)) ) = true) ∧
    (let t : Nat := 700; let l : Fin 4 := 1;
      let s : State := ({ up with clk := { locked := true } }).setF (Pg.LINK 1) Reg.LANE_LANE_STATUS_TX_LOOP_TIMED 1; ((s.pwr.linkOn = true) ∧ (s.clk.locked = true) ∧ (halfLe s.lanes[l].endAt (2 * (s.upTo t).now) = true) ∧ (s.loopTimed (Pg.LINK l) = false)) ∧ (answer (exec (.txTimingSwitch t l) s) fun u => decide ((u.fb (Pg.LINK l) Reg.LANE_LANE_STATUS_TX_LOOP_TIMED = false)) ) = true) ∧
    (let t : Nat := 700; let l : Fin 20 := 2; let cause : Fin 3 := 2; let activity : Bool := true;
      let s : State := (((up.page (lanePage 2) 2).setF (lanePage 2) Reg.LANE_LANE_STATUS_PHASE 4)).setF (lanePage 2) Reg.LANE_LANE_STATUS_FRAME_LOCK 1; ((s.laneRuns l = true) ∧ (s.fb (lanePage l) Reg.LANE_LANE_STATUS_FRAME_LOCK = true) ∧ ((s.upTo t).lockLost l cause = true) ∧ (s.phase l = phUp) ∧ ((l.val < 4 → s.candValid l.val = false))) ∧ (answer (exec (.frameLockLoss t l cause activity) s) fun u => decide ((u.phase l = (if activity then phAcquire else phIdle)) ∧ (u.f (lanePage l) Reg.LANE_LANE_STATUS_RATE = 0) ∧ (u.f (lanePage l) Reg.LANE_LOCK_LOSSES = satU (s.f (lanePage l) Reg.LANE_LOCK_LOSSES + 1) 16)) ) = true) := by
  iterate 10 refine ⟨by decide +kernel, ?_⟩
  decide +kernel

/-- Every clause of LaneFrames has a case that meets its hypotheses, and the command completes there as the clause says. -/
theorem runs_LaneFrames :
    (let t : Nat := 700; let l : Fin 20 := 3;
      let s : State := (((up.page (lanePage 3) 1).setF (lanePage 3) Reg.LANE_LANE_STATUS_PHASE 3)).setLane 3 fun x => { x with patternDone := true }; ((s.laneRuns l = true) ∧ (s.phase l = phCapx) ∧ (s.lanes[l].patternDone = true) ∧ (s.lanes[l].capAt = none) ∧ ((s.upTo t).mayStart l ⟨1, (s.upTo t).nextSeq l 1, 0, (s.upTo t).capPayload l 0 0 0⟩ = true)) ∧ (answer (exec (.capSend t l) s) fun u => decide ((u.lanes[l].capAt = some (s.upTo t).now) ∧ (u.lanes[l].tx.map (·.2.ty) = some 1) ∧ (u.lanes[l].txSeq = s.lanes[l].txSeq)) ) = true) ∧
    (let t : Nat := 90000; let l : Fin 20 := 0;
      let s : State := (((up.page (lanePage 0) 1).setF (lanePage 0) Reg.LANE_LANE_STATUS_PHASE 2)).setLane 0 fun x => { x with patternDone := true }; ((s.laneRuns l = true) ∧ ((1 ≤ s.phase l ∧ s.phase l ≤ 5)) ∧ ((4 ≤ s.phase l ∨ s.lanes[l].patternDone = true)) ∧ ((s.phase l = phUp → (s.upTo t).lineQuiet l = true)) ∧ ((s.upTo t).mayStart l ⟨0, (s.upTo t).nextSeq l 0, 0, if l.val < 2 then leBytes 4 (s.f (lanePage l) Reg.FRAME_FRAME_STATUS_POSTED_DONE) else []⟩ = true)) ∧ (answer (exec (.idleSend t l) s) fun u => decide ((u.lanes[l].tx.map (·.2.ty) = some 0) ∧ (u.lanes[l].txSeq = s.lanes[l].txSeq)) ) = true) ∧
    (let t : Nat := 7000; let l : Fin 20 := 1; let fill : List Bool := gapFill 33; let delim : List Bool := delimiter;
      let hdr : List Bool := frameLine (TxFrame.wire ⟨2, 9, 0, leBytes 12 7⟩); let hcrc : List Bool := []; let payload : List Bool := [];
      let pcrc : List Bool := []; let errs : Nat := 0; let more : Nat := 0; let rest : List Bool := frameLine (TxFrame.wire ⟨2, 9, 0, leBytes 12 7⟩);
      let f : RxFrame := ⟨0x0900C002, crc32 (leBytes 4 0x0900C002), leBytes 12 7, crc32 (leBytes 12 7), 0⟩;
      let s : State := ((up.page (lanePage 1) 2).setF (lanePage 1) Reg.LANE_LANE_STATUS_PHASE 4); ((s.laneRuns l = true) ∧ ((2 ≤ s.phase l ∧ s.phase l ≤ 5)) ∧ (gapSearch s.lanes[l].gapPrev (if s.fb (lanePage l) Reg.LANE_LANE_CTRL_RX_INVERT then (fill ++ delim ++ hdr ++ hcrc ++ payload ++ pcrc).map (!·) else (fill ++ delim ++ hdr ++ hcrc ++ payload ++ pcrc)) = (errs, some rest)) ∧ (f = readFrame rest) ∧ (gapSearch false (f.left rest) = (more, none)) ∧ (f.hcrc = crc32 (leBytes 4 f.hdr)) ∧ (s.typeAllowed l (bits f.hdr 0 8) = true) ∧ (lenAllowed l (bits f.hdr 0 8) (bits f.hdr 12 12) = true) ∧ ((bits f.hdr 12 12 = 0 ∨ f.pcrc = crc32 f.payload)) ∧ (f.stuffErrs = 0)) ∧ (answer (exec (.frameReceive t l fill delim hdr hcrc payload pcrc) s) fun u => decide ((u.lanes[l].good = s.lanes[l].good + 1) ∧ (u.lanes[l].bad = 0) ∧ ((2 ≤ bits f.hdr 0 8 → u.lanes[l].rxSeq = bits f.hdr 24 8)) ∧ ((l.val < 4 → u.f (lanePage l) Reg.FRAME_FRAME_STATUS_RX_SEQ = bits f.hdr 24 8)) ∧ (u.f (lanePage l) Reg.LANE_GAP_ERRORS = satU (s.f (lanePage l) Reg.LANE_GAP_ERRORS + errs + more) Reg.LANE_GAP_ERRORS.width)) ) = true) ∧
    (let t : Nat := 7000; let l : Fin 20 := 1; let fill : List Bool := gapFill 32; let delim : List Bool := delimiter;
      let hdr : List Bool := List.replicate 80 true; let hcrc : List Bool := []; let payload : List Bool := []; let pcrc : List Bool := [];
      let errs : Nat := 0; let more : Nat := 9; let rest : List Bool := List.replicate 80 true;
      let s : State := ((up.page (lanePage 1) 2).setF (lanePage 1) Reg.LANE_LANE_STATUS_PHASE 4); ((s.laneRuns l = true) ∧ ((2 ≤ s.phase l ∧ s.phase l ≤ 5)) ∧ (gapSearch s.lanes[l].gapPrev (if s.fb (lanePage l) Reg.LANE_LANE_CTRL_RX_INVERT then (fill ++ delim ++ hdr ++ hcrc ++ payload ++ pcrc).map (!·) else (fill ++ delim ++ hdr ++ hcrc ++ payload ++ pcrc)) = (errs, some rest)) ∧ ((readFrame rest).hcrc ≠ crc32 (leBytes 4 (readFrame rest).hdr)) ∧ (gapSearch false ((readFrame rest).left rest) = (more, none))) ∧ (answer (exec (.frameReceive t l fill delim hdr hcrc payload pcrc) s) fun u => decide ((u.lanes[l].good = 0) ∧ (u.lanes[l].bad = s.lanes[l].bad + 1) ∧ (u.f (lanePage l) Reg.LANE_GAP_ERRORS = satU (s.f (lanePage l) Reg.LANE_GAP_ERRORS + errs + more) Reg.LANE_GAP_ERRORS.width)) ) = true) ∧
    (let t : Nat := 4000; let l : Fin 20 := 7; let e : LaunchEntry := { tick := 4000, slip := true, ty := 8, payload := leBytes 32 7 };
      let rest : List LaunchEntry := [];
      let s : State := (((up.page (lanePage 7) 2).setF (lanePage 7) Reg.LANE_LANE_STATUS_PHASE 4)).setLane 7 fun x => { x with launches := [{ tick := 4000, slip := true, ty := 8, payload := leBytes 32 7 }] }; ((s.live t) ∧ (s.laneUp l = true) ∧ ((s.lanes[l].launches = e :: rest)) ∧ (e.tick = t) ∧ (e.late = false) ∧ (t % 4 = 0) ∧ ((s.upTo t).lineFree l t = true) ∧ ((s.upTo t).stepClear l ⟨e.ty, (s.upTo t).nextSeq l e.ty, 0, stampPayload e.ty t e.payload⟩ t = true)) ∧ (answer (exec (.launch t l) s) fun u => decide ((u.lanes[l].launches = rest) ∧ (u.lanes[l].tx.map (·.1) = some t) ∧ (u.lanes[l].tx.map (·.2.payload) = some (stampPayload e.ty t e.payload))) ) = true) ∧
    (let t : Nat := 700; let port : Fin 2 := 1; let c : Cpl := ⟨9, 0, 3, [1, 2, 3, 4], 600, 650, 0x400000000, 640⟩;
      let s : State := ((((up.page (Pg.LINK 1) 2).setF (Pg.LINK 1) Reg.LANE_LANE_STATUS_PHASE 4).page (Pg.DRAM 0) 2).page (Pg.DRAM 1) 2).setLane 1 fun x => { x with cpls := [⟨8, 1, 3, [], 500, 690, 0, 690⟩, ⟨9, 0, 3, [1, 2, 3, 4], 600, 650, 0x400000000, 640⟩] }; ((s.laneUp (hostLane port.val).val = true) ∧ ((s.upTo t).nextCpl (hostLane port.val) = some c) ∧ ((s.upTo t).mayStart (hostLane port.val) ⟨3, (s.upTo t).nextSeq (hostLane port.val) 3, 0, c.payload (s.f (lanePage (hostLane port.val)) Reg.FRAME_FRAME_STATUS_POSTED_DONE)⟩ = true)) ∧ (answer (exec (.cplSend t port) s) fun u => decide ((u.lanes[(hostLane port.val)].cpls = s.lanes[(hostLane port.val)].cpls.erase c) ∧ ((u.lanes[(hostLane port.val)].tx.map fun q => (q.2.ty, q.2.payload)) = some (3, c.payload (s.f (lanePage (hostLane port.val)) Reg.FRAME_FRAME_STATUS_POSTED_DONE))) ∧ (u.f (lanePage (hostLane port.val)) Reg.FRAME_CPL_SENT = satU (s.f (lanePage (hostLane port.val)) Reg.FRAME_CPL_SENT + 1) Reg.FRAME_CPL_SENT.width) ∧ ((s.f (lanePage (hostLane port.val)) Reg.FRAME_FRAME_STATUS_OUTSTANDING ≠ 0 → u.f (lanePage (hostLane port.val)) Reg.FRAME_FRAME_STATUS_OUTSTANDING + 1 = s.f (lanePage (hostLane port.val)) Reg.FRAME_FRAME_STATUS_OUTSTANDING))) ) = true) := by
  iterate 5 refine ⟨by decide +kernel, ?_⟩
  decide +kernel

/-- Every clause of RateSteps has a case that meets its hypotheses, and the command completes there as the clause says. -/
theorem runs_RateSteps :
    (let t : Nat := 700; let l : Fin 20 := 5; let rate : Fin 4 := 1;
      let s : State := ((((up.page (lanePage 5) 2).setF (lanePage 5) Reg.LANE_LANE_STATUS_PHASE 4)).setF (lanePage 5) Reg.LANE_LANE_STATUS_PARTNER_RATES 7).setActWord (regAddr (lanePage 5) 0x04C) 1000000; ((s.laneUp l = true) ∧ ((if s.laneRate l ≤ rate.val then rate.val - s.laneRate l else s.laneRate l - rate.val) ≤ 1) ∧ ((if l.val < 4 then 0xF else 0x7 : Nat).testBit rate = true) ∧ ((s.f (lanePage l) Reg.LANE_LANE_STATUS_PARTNER_RATES).testBit rate = true) ∧ (rate.val ≤ s.f (lanePage l) Reg.LANE_LANE_CTRL_MAX_RATE) ∧ (640000 ≤ sdiff48 (near48 (s.upTo t).now (s.actPair (lanePage l) Reg.LANE_STEP_AT_LO Reg.LANE_STEP_AT_HI) : Nat) ((s.upTo t).now : Nat)) ∧ (s.fb (lanePage l) Reg.LANE_STEP_STATUS_BUSY = false) ∧ (s.f (lanePage l) Reg.LANE_LOOP_CTRL_MODE = 0) ∧ (s.headAxesOff l = true)) ∧ (answer (exec (.stepCtrlGo t l rate) s) fun u => decide ((u.fb (lanePage l) Reg.LANE_STEP_STATUS_BUSY = true) ∧ (u.f (lanePage l) Reg.LANE_STEP_STATUS_RESULT = 0) ∧ (u.lanes[l].step = some { rate := rate, tick := near48 (s.upTo t).now (s.actPair (lanePage l) Reg.LANE_STEP_AT_LO Reg.LANE_STEP_AT_HI) })) ) = true) ∧
    (let t : Nat := 700; let l : Fin 20 := 5; let st : RateStep := { rate := 1, tick := 64700 };
      let s : State := (((up.page (lanePage 5) 2).setF (lanePage 5) Reg.LANE_LANE_STATUS_PHASE 4)).setLane 5 fun x => { x with step := some { rate := 1, tick := 64700 } }; ((s.lanes[l].step = some st) ∧ (st.acked = false) ∧ ((s.upTo t).past ((st.tick : Int) - 64000) = true)) ∧ (answer (exec (.stepAckDeadline t l) s) fun u => decide ((u.lanes[l].step = none) ∧ (u.f (lanePage l) Reg.LANE_STEP_STATUS_RESULT = 5) ∧ (u.fb (lanePage l) Reg.LANE_STEP_STATUS_BUSY = false)) ) = true) ∧
    (let t : Nat := 700; let l : Fin 20 := 5; let st : RateStep := { rate := 1, tick := 13500, acked := true };
      let s : State := (((up.page (lanePage 5) 2).setF (lanePage 5) Reg.LANE_LANE_STATUS_PHASE 4)).setLane 5 fun x => { x with step := some { rate := 1, tick := 13500, acked := true } }; ((s.lanes[l].step = some st) ∧ (st.acked = true) ∧ ((s.upTo t).past ((st.tick : Int) - 12800) = true)) ∧ (answer (exec (.stepQuiesce t l) s) fun u => decide ((u.lanes[l].step = some { st with quiet := true })) ) = true) ∧
    (let t : Nat := 700; let l : Fin 20 := 1; let st : RateStep := { rate := 1, tick := 700, acked := true };
      let s : State := (((up.page (lanePage 1) 2).setF (lanePage 1) Reg.LANE_LANE_STATUS_PHASE 4)).setLane 1 fun x => { x with step := some { rate := 1, tick := 700, acked := true } }; ((s.lanes[l].step = some st) ∧ (st.acked = true) ∧ (st.launched = false) ∧ ((s.upTo t).past st.tick = true) ∧ (s.laneUp l = true)) ∧ (answer (exec (.stepLaunch t l) s) fun u => decide ((u.phase l = phStep) ∧ (u.f (lanePage l) Reg.LANE_LANE_STATUS_RATE = st.rate % 4) ∧ (u.fb (lanePage l) Reg.LANE_LANE_STATUS_FRAME_LOCK = false) ∧ (u.lanes[l].step = some { st with launched := true })) ) = true) ∧
    (let t : Nat := 103100; let l : Fin 20 := 7; let st : RateStep := { rate := 1, tick := 700, acked := true, launched := true };
      let s : State := (((up.page (lanePage 7) 2).setF (lanePage 7) Reg.LANE_LANE_STATUS_PHASE 5)).setLane 7 fun x => { x with step := some { rate := 1, tick := 700, acked := true, launched := true } }; ((s.lanes[l].step = some st) ∧ (s.pageOn (lanePage l) = true) ∧ (s.phase l = phStep) ∧ ((s.upTo t).past (st.tick + 102400) = true) ∧ ((l.val < 4 → s.candValid l.val = false))) ∧ (answer (exec (.stepRelockTimeout t l) s) fun u => decide ((u.phase l = (if s.fb (lanePage l) Reg.LANE_LANE_STATUS_ACTIVITY then phAcquire else phIdle)) ∧ (u.f (lanePage l) Reg.LANE_LANE_STATUS_RATE = 0) ∧ (u.lanes[l].step = none)) ) = true) := by
  iterate 4 refine ⟨by decide +kernel, ?_⟩
  decide +kernel

/-- Every clause of LaneLoops has a case that meets its hypotheses, and the command completes there as the clause says. -/
theorem runs_LaneLoops :
    (let t : Nat := 700; let l : Fin 20 := 9; let v : Word := 0x301;
      let s : State := up; ((s.pageOn (lanePage l) = true) ∧ (v.toNat / 2 ^ 11 = 0) ∧ (v.toNat.testBit 3 = false) ∧ (fldOf v Reg.LANE_LOOP_CTRL_MODE < 5) ∧ (fldOf v Reg.LANE_LOOP_CTRL_PATTERN ≠ 3)) ∧ (answer (exec (.loopCtrlWrite t l v) s) fun u => decide ((u.f (lanePage l) Reg.LANE_LOOP_CTRL_GEN_EN = fldOf v Reg.LANE_LOOP_CTRL_GEN_EN) ∧ (u.f (lanePage l) Reg.LANE_LOOP_CTRL_CHK_EN = fldOf v Reg.LANE_LOOP_CTRL_CHK_EN) ∧ (u.lanes[l].gen.isSome = decide (fldOf v Reg.LANE_LOOP_CTRL_GEN_EN ≠ 0)) ∧ (u.f (lanePage l) Reg.LANE_LOOP_CTRL_MODE = (if s.st (lanePage l) = stOff then fldOf v Reg.LANE_LOOP_CTRL_MODE else s.f (lanePage l) Reg.LANE_LOOP_CTRL_MODE))) ) = true) ∧
    (let t : Nat := 700; let l : Fin 20 := 9; let g : PatternGen := ⟨5, 20, [3]⟩;
      let s : State := (up.setF (lanePage 9) Reg.LANE_LOOP_CTRL_GEN_EN 1).setLane 9 fun x => { x with gen := some ⟨5, 20, [3]⟩ }; ((s.pageOn (lanePage l) = true) ∧ (s.lanes[l].gen = some g)) ∧ (answer (exec (.loopInject t l) s) fun u => decide ((u.lanes[l].gen.map (fun h => h.bit (s.f (lanePage l) Reg.LANE_LOOP_CTRL_PATTERN) ((s.upTo t).genSent l g)) = some (!g.bit (s.f (lanePage l) Reg.LANE_LOOP_CTRL_PATTERN) ((s.upTo t).genSent l g))) ∧ ((s.loopedBack l = false → u.f (lanePage l) Reg.LANE_PRBS_ERRORS = s.f (lanePage l) Reg.LANE_PRBS_ERRORS))) ) = true) ∧
    (let t : Nat := 700; let l : Fin 20 := 9; let g : PatternGen := ⟨5, 20, [3]⟩;
      let s : State := (((up.setF (lanePage 9) Reg.LANE_LOOP_CTRL_GEN_EN 1).setLane 9 fun x => { x with gen := some ⟨5, 20, [3]⟩ }).setF (lanePage 9) Reg.LANE_LOOP_CTRL_MODE 2).setF (lanePage 9) Reg.LANE_PRBS_STATUS 1; ((s.pageOn (lanePage l) = true) ∧ (s.lanes[l].gen = some g) ∧ (s.loopedBack l = true) ∧ (s.prbsLocked l = true)) ∧ (answer (exec (.loopInject t l) s) fun u => decide ((u.f (lanePage l) Reg.LANE_PRBS_ERRORS = satU (s.f (lanePage l) Reg.LANE_PRBS_ERRORS + 1) 32)) ) = true) ∧
    (let t : Nat := 700; let l : Fin 20 := 9;
      let s : State := (up.setF (lanePage 9) Reg.LANE_PRBS_ERRORS 7).setF (lanePage 9) Reg.HEAD_DN_SENT 9; ((s.pageOn (lanePage l) = true)) ∧ (answer (exec (.loopClear t l) s) fun u => decide ((u.f (lanePage l) Reg.LANE_PRBS_ERRORS = 0) ∧ (u.pair (lanePage l) Reg.LANE_PRBS_BITS_LO Reg.LANE_PRBS_BITS_HI = 0) ∧ (u.f (lanePage l) Reg.LANE_FRAME_DISCARDS = 0) ∧ (u.f (lanePage l) Reg.LANE_LOCK_LOSSES = 0) ∧ ((4 ≤ l.val → u.f (lanePage l) Reg.HEAD_DN_SENT = 0)) ∧ ((l.val < 4 → u.f (lanePage l) Reg.FRAME_SEQ_GAPS = 0))) ) = true) ∧
    (let t : Nat := 700; let r : LaneBits := ⟨9, prbsRun 0 71 [true]⟩;
      let s : State := up.setF (lanePage 9) Reg.LANE_LOOP_CTRL_CHK_EN 1; ((s.pageOn (lanePage r.lane.val) = true) ∧ (s.fb (lanePage r.lane.val) Reg.LANE_LOOP_CTRL_CHK_EN = true) ∧ (s.fb (lanePage r.lane.val) Reg.LANE_PRBS_STATUS = false) ∧ (prbsInSync (s.f (lanePage r.lane.val) Reg.LANE_LOOP_CTRL_PATTERN) ((s.upTo t).checkBits r.lane r.line) = true)) ∧ (answer (exec (.prbsSyncGain t r) s) fun u => decide ((u.fb (lanePage r.lane.val) Reg.LANE_PRBS_STATUS = true) ∧ (u.lanes[r.lane].prbsAt = (s.upTo t).now)) ) = true) ∧
    (let t : Nat := 700; let l : Fin 20 := 9;
      let s : State := (up.setF (lanePage 9) Reg.LANE_PRBS_STATUS 1).setLane 9 fun x => { x with prbsErrs := List.replicate 65 1000 }; ((s.prbsLocked l = true) ∧ (s.prbsSwamped l = true)) ∧ (answer (exec (.prbsSyncLoss t l) s) fun u => decide ((u.fb (lanePage l) Reg.LANE_PRBS_STATUS = false) ∧ (u.pair (lanePage l) Reg.LANE_PRBS_BITS_LO Reg.LANE_PRBS_BITS_HI = satU (s.pair (lanePage l) Reg.LANE_PRBS_BITS_LO Reg.LANE_PRBS_BITS_HI + ahead s.lanes[l].prbsAt (s.upTo t).now * 2 ^ s.laneRate l / 4) 64)) ) = true) ∧
    (let t : Nat := 700; let r : LaneBit := ⟨9, true⟩;
      let s : State := up.setF (lanePage 9) Reg.LANE_PRBS_STATUS 1; ((s.prbsLocked r.lane = true) ∧ (s.loopedBack r.lane = false) ∧ (s.rxBits r.lane [r.bit] ≠ [((s.upTo t).prbsCount r.lane).expectedBit r.lane])) ∧ (answer (exec (.prbsBitError t r) s) fun u => decide ((u.f (lanePage r.lane.val) Reg.LANE_PRBS_ERRORS = satU (s.f (lanePage r.lane.val) Reg.LANE_PRBS_ERRORS + 1) 32) ∧ (u.lanes[r.lane].prbsFirst = false) ∧ (u.pair (lanePage r.lane.val) Reg.LANE_PRBS_BITS_LO Reg.LANE_PRBS_BITS_HI = satU (s.pair (lanePage r.lane.val) Reg.LANE_PRBS_BITS_LO Reg.LANE_PRBS_BITS_HI + ahead s.lanes[r.lane].prbsAt (s.upTo t).now * 2 ^ s.laneRate r.lane / 4) 64)) ) = true) ∧
    (let t : Nat := 900; let r : LaneBit := ⟨9, false⟩;
      let s : State := (((up.setF (lanePage 9) Reg.LANE_LOOP_CTRL_GEN_EN 1).setLane 9 fun x => { x with gen := some ⟨5, 20, [3]⟩ }).setF (lanePage 9) Reg.LANE_LOOP_CTRL_MODE 2).setF (lanePage 9) Reg.LANE_PRBS_STATUS 1; ((s.prbsLocked r.lane = true) ∧ (s.loopedBack r.lane = true) ∧ ((s.upTo t).latestBit r.lane r.bit ≠ ((s.upTo t).prbsCount r.lane).expectedBit r.lane)) ∧ (answer (exec (.prbsBitError t r) s) fun u => decide ((u.f (lanePage r.lane.val) Reg.LANE_PRBS_ERRORS = satU (s.f (lanePage r.lane.val) Reg.LANE_PRBS_ERRORS + 1) 32) ∧ (u.lanes[r.lane].prbsFirst = false) ∧ (u.pair (lanePage r.lane.val) Reg.LANE_PRBS_BITS_LO Reg.LANE_PRBS_BITS_HI = satU (s.pair (lanePage r.lane.val) Reg.LANE_PRBS_BITS_LO Reg.LANE_PRBS_BITS_HI + ahead s.lanes[r.lane].prbsAt (s.upTo t).now * 2 ^ s.laneRate r.lane / 4) 64)) ) = true) := by
  iterate 7 refine ⟨by decide +kernel, ?_⟩
  decide +kernel

/-- Every clause of References has a case that meets its hypotheses, and the command completes there as the clause says. -/
theorem runs_References :
    (let t : Nat := 700; let c : Fin 4 := 2;
      let s : State := up.setEdges 2 true; ((s.pwr.linkOn = true) ∧ (s.candEdges c.val = true) ∧ (s.candValid c.val = false)) ∧ (answer (exec (.missingEdge t c) s) fun u => decide ((u.candEdges c.val = false) ∧ (u.f Pg.CLK (Reg.CLK_REF_OFFSET.num c.val) = 0x8000)) ) = true) ∧
    (let t : Nat := 700; let c : Fin 4 := 0; let d : Nat := 1;
      let s : State := ((((({ up with clk := { locked := true } }).setEdges 0 true).setValid 0 true).setValid 1 true).setF Pg.CLK Reg.CLK_REF_STATUS_SELECTED 0); ((s.pwr.linkOn = true) ∧ (s.clk.locked = true) ∧ (s.candEdges c.val = true) ∧ (s.candValid c.val = true) ∧ (s.coasting = false) ∧ (s.selected = c.val) ∧ (s.fb Pg.CLK Reg.CLK_STATUS_HOLD = false) ∧ ((s.setValid c.val false).firstValid = some d)) ∧ (answer (exec (.missingEdge t c) s) fun u => decide ((u.fb Pg.CLK Reg.CLK_STATUS_HOLD = true) ∧ (u.f Pg.CLK Reg.CLK_STATUS_HOLD_CAUSE = 2) ∧ (u.selected = d) ∧ (u.candValid c.val = false) ∧ (u.clk.holdStart = (s.upTo t).now)) ) = true) ∧
    (let t : Nat := 700; let o0 : Int := 5; let o1 : Int := -99999; let o2 : Int := 0; let o3 : Int := 77;
      let s : State := ((({ up with clk := { locked := true } }).page (Pg.LINK 1) 2).setEdges 1 true); ((s.clk.locked = true) ∧ ((∀ c : Fin 4, s.candValid c.val = false))) ∧ (answer (exec (.freqWindowEnd t o0 o1 o2 o3) s) fun u => decide (((s.isOn (Pg.LINK 0) = true → s.candEdges 0 = true → u.fi Pg.CLK (Reg.CLK_REF_OFFSET.num 0) = clampI o0 (-32767) 32767)) ∧ ((s.isOn (Pg.LINK 1) = true → s.candEdges 1 = true → u.fi Pg.CLK (Reg.CLK_REF_OFFSET.num 1) = clampI o1 (-32767) 32767)) ∧ ((s.isOn (Pg.LINK 2) = true → s.candEdges 2 = true → u.fi Pg.CLK (Reg.CLK_REF_OFFSET.num 2) = clampI o2 (-32767) 32767)) ∧ ((s.isOn (Pg.LINK 3) = true → s.candEdges 3 = true → u.fi Pg.CLK (Reg.CLK_REF_OFFSET.num 3) = clampI o3 (-32767) 32767))) ) = true) ∧
    (let t : Nat := 70000000; let c : Fin 4 := 1; let since : Nat := 5;
      let s : State := ((({ up with clk := { locked := true, qualSince := #v[none, some 5, none, none] } }).page (Pg.LINK 1) 2).setEdges 1 true).setF (Pg.LINK 1) Reg.LANE_LANE_STATUS_FRAME_LOCK 1; ((s.clk.qualSince[c] = some since) ∧ ((s.upTo t).candFit c = true) ∧ (s.candValid c.val = false) ∧ ((s.upTo t).elapsed since (2 ^ s.f Pg.CLK Reg.CLK_REF_CTRL_QUAL * 102400) = true) ∧ (s.coasting = false) ∧ (s.fb Pg.CLK Reg.CLK_REF_CTRL_REVERT = false)) ∧ (answer (exec (.candidateQualified t c) s) fun u => decide ((u.candValid c.val = true) ∧ (u.selected = s.selected)) ) = true) ∧
    (let t : Nat := 20000;
      let s : State := (({ up with clk := { locked := true, holdStart := 5, prevSel := 0 } }).setF Pg.CLK Reg.CLK_STATUS_HOLD 1).setF Pg.CLK Reg.CLK_REF_STATUS_SELECTED 1; ((s.fb Pg.CLK Reg.CLK_STATUS_HOLD = true) ∧ ((s.upTo t).elapsed s.clk.holdStart 16384 = true) ∧ ((s.upTo t).within s.clk.holdStart 128000 = true)) ∧ (answer (exec (.holdLock t) s) fun u => decide ((u.fb Pg.CLK Reg.CLK_STATUS_HOLD = false) ∧ (u.fb Pg.CLK Reg.CLK_STATUS_LOCKED = true) ∧ (u.f Pg.CLK Reg.CLK_STATUS_HOLD_CAUSE = 0) ∧ (u.f Pg.CLK Reg.CLK_COUNTS_SWITCH_COUNT = (if s.selected = s.clk.prevSel then s.f Pg.CLK Reg.CLK_COUNTS_SWITCH_COUNT else satU (s.f Pg.CLK Reg.CLK_COUNTS_SWITCH_COUNT + 1) Reg.CLK_COUNTS_SWITCH_COUNT.width))) ) = true) ∧
    (let t : Nat := 200000; let c : Fin 4 := 1; let d : Nat := 0;
      let s : State := ((({ up with clk := { locked := true, holdStart := 5, prevSel := 0 } }).setF Pg.CLK Reg.CLK_STATUS_HOLD 1).setF Pg.CLK Reg.CLK_REF_STATUS_SELECTED 1).setValid 0 true; ((s.fb Pg.CLK Reg.CLK_STATUS_HOLD = true) ∧ ((s.upTo t).elapsed s.clk.holdStart 128000 = true) ∧ (s.selected = c.val) ∧ ((s.setValid c.val false).firstValid = some d)) ∧ (answer (exec (.holdExpired t) s) fun u => decide ((u.selected = d) ∧ (u.candValid c.val = false) ∧ (u.fb Pg.CLK Reg.CLK_STATUS_HOLD = true) ∧ (u.clk.holdStart = (s.upTo t).now)) ) = true) ∧
    (let t : Nat := 700; let ok : Bool := true; let d : Nat := 2;
      let s : State := ((({ up with clk := { locked := true, exiting := true } }).setF Pg.CLK Reg.CLK_STATUS_COASTING 1).setValid 2 true).setF Pg.CLK Reg.CLK_STATUS_SAFE_HOLD 1; ((s.coasting = true) ∧ (s.clk.exiting = true) ∧ (s.firstValid = some d) ∧ (ok = true)) ∧ (answer (exec (.coastExitLock t ok) s) fun u => decide ((u.coasting = false) ∧ (u.fb Pg.CLK Reg.CLK_STATUS_LOCKED = true) ∧ (u.selected = d) ∧ (u.clk.exiting = false)) ) = true) ∧
    (let t : Nat := 700;
      let s : State := (({ up with pwr := { up.pwr with dev := .safeHold } }).setF Pg.CLK Reg.CLK_STATUS_SAFE_HOLD 1).setF Pg.CLK Reg.CLK_STATUS_FORCED 1; ((s.pwr.sysOn = true) ∧ (s.fb Pg.CLK Reg.CLK_STATUS_SAFE_HOLD = true) ∧ (s.coasting = false)) ∧ (answer (exec (.safeHoldClear t) s) fun u => decide ((u.fb Pg.CLK Reg.CLK_STATUS_SAFE_HOLD = false) ∧ (u.fb Pg.CLK Reg.CLK_STATUS_FORCED = false) ∧ (u.pwr.clockForce = false) ∧ (u.pwr.dev = (if s.pwr.dev = .safeHold then .linked else s.pwr.dev))) ) = true) := by
  iterate 7 refine ⟨by decide +kernel, ?_⟩
  decide +kernel

/-- Every clause of FrequencyMeter has a case that meets its hypotheses, and the command completes there as the clause says. -/
theorem runs_FrequencyMeter :
    (let t : Nat := 700;
      let s : State := up; ((s.pwr.sysOn = true)) ∧ (answer (exec (.fmeasStart t) s) fun u => decide ((u.fb Pg.CLK Reg.CLK_FMEAS_STATUS_BUSY = true) ∧ (u.fb Pg.CLK Reg.CLK_FMEAS_STATUS_DONE = false) ∧ (u.clk.fmeas.map (fun m => (m.src, m.inst, m.dir, m.gate, m.start, m.gone)) = some (s.f Pg.CLK Reg.CLK_FMEAS_CTRL_SRC, s.f Pg.CLK Reg.CLK_FMEAS_CTRL_INST, s.f Pg.CLK Reg.CLK_FMEAS_CTRL_DIR, s.f Pg.CLK Reg.CLK_FMEAS_CTRL_GATE, (s.upTo t).now, false)) ∧ ((s.f Pg.CLK Reg.CLK_FMEAS_CTRL_SRC ≠ 18 → s.f Pg.CLK Reg.CLK_FMEAS_CTRL_SRC ≠ 19 → u.clk.fmeas.map (·.edges) = some 0))) ) = true) ∧
    (let t : Nat := 1050000; let n : Nat := 4; let m : Fmeas := ⟨0, 0, 0, 16, 5, 0, 0, 0, 0, false⟩; let k : Nat := 131072;
      let s : State := { up with clk := { fmeas := some ⟨0, 0, 0, 16, 5, 0, 0, 0, 0, false⟩ } }; ((s.clk.fmeas = some m) ∧ (m.reading (s.f Pg.NV Reg.NV_NV_CFG_SCK) n = some k) ∧ (s.fmeasRuns m = true) ∧ ((if m.dir = 0 then 2 ^ m.gate else k) ≤ 2 ^ 32) ∧ ((s.upTo t).fmeasPast m (if m.dir = 0 then 2 ^ m.gate else k) = true)) ∧ (answer (exec (.fmeasDone t n) s) fun u => decide ((u.fb Pg.CLK Reg.CLK_FMEAS_STATUS_BUSY = false) ∧ (u.fb Pg.CLK Reg.CLK_FMEAS_STATUS_DONE = true) ∧ (u.f Pg.CLK Reg.CLK_FMEAS_COUNT = satU k 32) ∧ (u.clk.fmeas = none)) ) = true) ∧
    (let t : Nat := 70000000000; let m : Fmeas := ⟨4, 0, 1, 16, 5, 0, 0, 0, 0, false⟩;
      let s : State := { up with clk := { fmeas := some ⟨4, 0, 1, 16, 5, 0, 0, 0, 0, false⟩ } }; ((s.clk.fmeas = some m) ∧ ((s.upTo t).fmeasPast m (2 ^ 32) = true)) ∧ (answer (exec (.fmeasTimeout t) s) fun u => decide ((u.fb Pg.CLK Reg.CLK_FMEAS_STATUS_BUSY = false) ∧ (u.fb Pg.CLK Reg.CLK_FMEAS_STATUS_TIMEOUT = true) ∧ (u.clk.fmeas = none)) ) = true) := by
  iterate 2 refine ⟨by decide +kernel, ?_⟩
  decide +kernel

/-- Every clause of NetworkTime has a case that meets its hypotheses, and the command completes there as the clause says. -/
theorem runs_NetworkTime :
    (let t : Nat := 700; let port : Fin 4 := 0; let origin : Nat := 650; let corr : Int := 0; let seqId : Nat := 3; let masterId : Nat := 9;
      let interval : Int := 0;
      let s : State := (((((up.page Pg.TIME 2).setF Pg.TIME Reg.TIME_MODE_CTRL_MODE 1)).page (Pg.LINK 0) 2).setF (Pg.LINK 0) Reg.LANE_LANE_STATUS_PHASE 4); ((s.timeEn = true) ∧ (s.portUp port.val = true) ∧ ((s.time.master = none ∨ s.time.master = some masterId))) ∧ (answer (exec (.syncReceive t port origin corr seqId masterId interval) s) fun u => decide ((u.time.ports[port].sync = some ⟨origin, corr, t, masterId, interval⟩) ∧ (u.time.master = some masterId)) ) = true) ∧
    (let t : Nat := 700; let port : Fin 4 := 0; let origin : Nat := 650; let corr : Int := 0; let seqId : Nat := 3; let masterId : Nat := 9;
      let interval : Int := 0; let m : Nat := 4;
      let s : State := ((((((up.page Pg.TIME 2).setF Pg.TIME Reg.TIME_MODE_CTRL_MODE 1)).page (Pg.LINK 0) 2).setF (Pg.LINK 0) Reg.LANE_LANE_STATUS_PHASE 4).setF Pg.TIME Reg.TIME_MODE_CTRL_QUAL 5).setTime fun x => { x with master := some 4 }; ((s.timeEn = true) ∧ (s.portUp port.val = true) ∧ (s.time.master = some m) ∧ (m ≠ masterId) ∧ ((if s.time.ports[port].newId = masterId then s.time.ports[port].newRun + 1 else 1) < s.f Pg.TIME Reg.TIME_MODE_CTRL_QUAL)) ∧ (answer (exec (.syncReceive t port origin corr seqId masterId interval) s) fun u => decide ((u.time.master = some m) ∧ (u.f Pg.TIME Reg.TIME_SYNC_DISCARDED = satU (s.f Pg.TIME Reg.TIME_SYNC_DISCARDED + 1) Reg.TIME_SYNC_DISCARDED.width) ∧ (u.time.ports[port].newId = masterId) ∧ (u.time.ports[port].sync = s.time.ports[port].sync)) ) = true) ∧
    (let t : Nat := 700;
      let s : State := (((up.page Pg.TIME 2).setF Pg.TIME Reg.TIME_MODE_CTRL_MODE 1).setF Pg.TIME Reg.TIME_STATUS_TSTATE 2).setTime fun x => { x with master := some 4 }; ((s.timeEn = true) ∧ ((∀ p ∈ s.portPrio, (s.upTo t).portFresh p = false)) ∧ ((s.tstate = 1 ∨ s.tstate = 2)) ∧ (s.time.master.isSome = true)) ∧ (answer (exec (.syncLoss t) s) fun u => decide ((u.timePort = 7) ∧ (u.tstate = 3) ∧ (u.time.integ = s.fi Pg.TIME Reg.TIME_RATE) ∧ (u.f Pg.TIME Reg.TIME_HOLDOVERS = satU (s.f Pg.TIME Reg.TIME_HOLDOVERS + 1) Reg.TIME_HOLDOVERS.width)) ) = true) ∧
    (let n : Nat := 64; let port : Fin 4 := 0; let r : SyncRec := ⟨650, 0, 700, 4, 0⟩;
      let s : State := (((((((up.page Pg.TIME 2).setF Pg.TIME Reg.TIME_MODE_CTRL_MODE 1)).page (Pg.LINK 0) 2).setF (Pg.LINK 0) Reg.LANE_LANE_STATUS_PHASE 4).setF Pg.TIME Reg.TIME_PORT_PRIO 0xFFF0).setTime fun x => { x with master := some 4, ports := x.ports.set 0 { sync := some ⟨650, 0, 700, 4, 0⟩ } }); ((s.live (t0 n + 4000)) ∧ (s.timeEn = true) ∧ (n % 2 ^ s.f Pg.TIME Reg.TIME_DLY_CTRL_INTERVAL = 0) ∧ (s.portPrio.eraseDups = [port]) ∧ (s.portUp port.val = true) ∧ (s.time.ports[port].sync = some r) ∧ (s.time.master = some r.master) ∧ (s.lanes[port.val].launches = []) ∧ (s.lanes[port.val].step = none) ∧ (s.lineFree (port.castLE (by decide)) (t0 n + 4000) = true)) ∧ (answer (exec (.dlyReqLaunch n) s) fun u => decide ((u.time.reqCount = (s.time.reqCount + 1) % 4096) ∧ (u.time.ports[port].reqs = s.time.ports[port].reqs ++ [⟨s.shortId * 4096 + s.time.reqCount % 4096, t0 n + 4000, r⟩])) ) = true) ∧
    (let t : Nat := 700; let port : Fin 4 := 2; let txTime : Nat := 650; let seqId : Nat := 0x5003; let senderId : Nat := 9; let k : Fin 16 := 5;
      let s : State := ((((((up.page Pg.TIME 2).setF Pg.TIME Reg.TIME_MODE_CTRL_MODE 1)).page (Pg.LINK 2) 2).setF (Pg.LINK 2) Reg.LANE_LANE_STATUS_PHASE 4).setF Pg.TIME Reg.TIME_MODE_CTRL_FWD_MASK 7).setF Pg.TIME Reg.TIME_STATUS_TIME_PORT 0; ((s.timeEn = true) ∧ (s.portUp port.val = true) ∧ (k.val = seqId / 4096 % 16) ∧ (s.fwdPorts.contains port = true) ∧ (s.timePort < 4) ∧ (s.timePort ≠ port.val)) ∧ (answer (exec (.dlyReqReceive t port txTime seqId senderId) s) fun u => decide ((u.time.routes[k] = some port.val) ∧ (u.time.forwards = s.time.forwards ++ [⟨s.timePort, 6, t, leBytes 8 txTime ++ leBytes 2 senderId ++ leBytes 2 seqId⟩])) ) = true) ∧
    (let t : Nat := 700; let port : Fin 4 := 2; let txTime : Nat := 650; let seqId : Nat := 0x5003; let senderId : Nat := 9;
      let s : State := ((((((up.page Pg.TIME 2).setF Pg.TIME Reg.TIME_MODE_CTRL_MODE 1)).page (Pg.LINK 2) 2).setF (Pg.LINK 2) Reg.LANE_LANE_STATUS_PHASE 4).setF Pg.TIME Reg.TIME_MODE_CTRL_MODE 2).setF Pg.TIME Reg.TIME_MASTER_CTRL_TX_MASK 4; ((s.timeEn = true) ∧ (s.portUp port.val = true) ∧ (s.fwdPorts.contains port = false) ∧ (s.timeMode = 2) ∧ ((s.f Pg.TIME Reg.TIME_MASTER_CTRL_TX_MASK).testBit port.val = true)) ∧ (answer (exec (.dlyReqReceive t port txTime seqId senderId) s) fun u => decide ((u.time.forwards = s.time.forwards ++ [⟨port.val, 7, t, leBytes 8 t ++ leBytes 8 txTime ++ leBytes 2 (s.f Pg.TIME Reg.TIME_IDENTITY) ++ leBytes 2 seqId⟩])) ) = true) ∧
    (let t : Nat := 900; let port : Fin 4 := 0; let reqRx : Nat := 800; let reqCorr : Nat := 700; let seqId : Nat := 3; let responder : Nat := 9;
      let q : DlyReq := ⟨3, 690, ⟨650, 0, 700, 4, 0⟩⟩;
      let s : State := ((((((up.page Pg.TIME 2).setF Pg.TIME Reg.TIME_MODE_CTRL_MODE 1)).page (Pg.LINK 0) 2).setF (Pg.LINK 0) Reg.LANE_LANE_STATUS_PHASE 4).setTime fun x => { x with ports := x.ports.set 0 { reqs := [⟨3, 690, ⟨650, 0, 700, 4, 0⟩⟩] } }); ((s.timeEn = true) ∧ (s.portUp port.val = true) ∧ (seqId / 4096 % 16 = s.shortId) ∧ ((s.time.ports[port].reqs.find? fun q => q.seqId == seqId) = some q)) ∧ (answer (exec (.dlyRspReceive t port reqRx reqCorr seqId responder) s) fun u => decide ((u.time.ports[port].delayValid = true) ∧ (u.time.ports[port].delay = (if s.time.ports[port].delayValid then wrapS 64 (s.time.ports[port].delay + rnd (wrapS 64 (rnd (wrapS 64 (sdiff48 (q.paired.rx : Nat) (q.paired.origin : Nat) * 2 ^ 16 - q.paired.corr) + wrapS 64 (sdiff48 (reqRx : Nat) (reqCorr : Nat) * 2 ^ 16)) 1) - s.time.ports[port].delay) (s.f Pg.TIME Reg.TIME_DLY_CTRL_FILT)) else wrapS 64 (rnd (wrapS 64 (sdiff48 (q.paired.rx : Nat) (q.paired.origin : Nat) * 2 ^ 16 - q.paired.corr) + wrapS 64 (sdiff48 (reqRx : Nat) (reqCorr : Nat) * 2 ^ 16)) 1))) ∧ (u.time.ports[port].reqs = s.time.ports[port].reqs.filter fun y => y.seqId != seqId)) ) = true) ∧
    (let t : Nat := 7000000; let port : Fin 4 := 0; let q : DlyReq := ⟨3, 690, ⟨650, 0, 700, 4, 0⟩⟩; let r : List DlyReq := [];
      let s : State := ((((((up.page Pg.TIME 2).setF Pg.TIME Reg.TIME_MODE_CTRL_MODE 1)).page (Pg.LINK 0) 2).setF (Pg.LINK 0) Reg.LANE_LANE_STATUS_PHASE 4).setTime fun x => { x with ports := x.ports.set 0 { reqs := [⟨3, 690, ⟨650, 0, 700, 4, 0⟩⟩] } }); ((s.time.ports[port].reqs = q :: r) ∧ ((s.upTo t).past (q.tick + 6400000) = true)) ∧ (answer (exec (.dlyTimeout t port) s) fun u => decide ((u.time.ports[port].reqs = r) ∧ (u.f Pg.TIME Reg.TIME_DLY_TIMEOUTS = satU (s.f Pg.TIME Reg.TIME_DLY_TIMEOUTS + 1) Reg.TIME_DLY_TIMEOUTS.width)) ) = true) ∧
    (let t : Nat := 720; let port : Fin 4 := 2; let f : Forward := ⟨2, 5, 690, syncPayload 650 0 3 4 0⟩;
      let s : State := ((((((up.page Pg.TIME 2).setF Pg.TIME Reg.TIME_MODE_CTRL_MODE 1)).page (Pg.LINK 2) 2).setF (Pg.LINK 2) Reg.LANE_LANE_STATUS_PHASE 4)).setTime fun x => { x with forwards := [⟨2, 5, 690, syncPayload 650 0 3 4 0⟩] }; (((s.time.forwards.find? fun f => f.out == port.val) = some f) ∧ (s.portUp port.val = true) ∧ ((s.upTo t).lineFree (port.castLE (by decide) : Fin 20) (uiGrid (s.laneRate (port.castLE (by decide) : Fin 20)) (s.upTo t).now) = true) ∧ ((s.upTo t).stepClear (port.castLE (by decide) : Fin 20) ⟨f.ty, (s.upTo t).nextSeq (port.castLE (by decide) : Fin 20) f.ty, 0, f.out_ ((s.upTo t).stampTick (port.castLE (by decide) : Fin 20) false (uiGrid (s.laneRate (port.castLE (by decide) : Fin 20)) (s.upTo t).now))⟩ (uiGrid (s.laneRate (port.castLE (by decide) : Fin 20)) (s.upTo t).now) = true)) ∧ (answer (exec (.timeFrameForward t port) s) fun u => decide ((u.time.forwards = s.time.forwards.erase f) ∧ (u.lanes[port.val].tx.map (·.2.payload) = some (f.out_ ((s.upTo t).stampTick (port.castLE (by decide) : Fin 20) false (uiGrid (s.laneRate (port.castLE (by decide) : Fin 20)) (s.upTo t).now))))) ) = true) ∧
    (let t : Nat := 1280000; let port : Fin 4 := 2;
      let s : State := ((((((up.page Pg.TIME 2).setF Pg.TIME Reg.TIME_MODE_CTRL_MODE 1)).page (Pg.LINK 2) 2).setF (Pg.LINK 2) Reg.LANE_LANE_STATUS_PHASE 4).setF Pg.TIME Reg.TIME_MODE_CTRL_MODE 2).setF Pg.TIME Reg.TIME_MASTER_CTRL_TX_MASK 4; ((s.live t) ∧ (s.timeEn = true) ∧ (s.timeMode = 2) ∧ (syncInstant (s.fi Pg.TIME Reg.TIME_MASTER_CTRL_INTERVAL) t = true) ∧ (t % 4 = 0) ∧ (s.f Pg.TIME Reg.TIME_MASTER_CTRL_TX_MASK = 2 ^ port.val) ∧ (s.portUp port.val = true) ∧ (s.lanes[port.val].launches = []) ∧ (s.lanes[port.val].step = none) ∧ (s.lineFree (port.castLE (by decide) : Fin 20) t = true)) ∧ (answer (exec (.syncLaunch t) s) fun u => decide ((u.time.syncCount = (s.time.syncCount + 1) % 2 ^ 16) ∧ (u.lanes[port.val].tx.map (fun x => (x.1, x.2.ty)) = some (t, 5))) ) = true) ∧
    (let t : Nat := 700; let v : Word := 0xFFFFFFFF;
      let s : State := (((up.page Pg.TIME 2).setF Pg.TIME Reg.TIME_MODE_CTRL_MODE 1).setF Pg.TIME Reg.TIME_MODE_CTRL_STEP_EN 1).setF Pg.TIME Reg.TIME_ADJ_LO 0xFFFFFF00; ((s.pwr.sysOn = true) ∧ (s.stepAllowed = true)) ∧ (answer (exec (.adjHiWrite t v) s) fun u => decide ((u.time.nextAdj = some (signed 64 (s.f Pg.TIME Reg.TIME_ADJ_LO + v.toNat * 2 ^ 32))) ∧ (u.time.now = (s.upTo t).time.now)) ) = true) := by
  iterate 10 refine ⟨by decide +kernel, ?_⟩
  decide +kernel

/-- Every clause of TimeServo has a case that meets its hypotheses, and the command completes there as the clause says. -/
theorem runs_TimeServo :
    (let t : Nat := 700; let port : Fin 4 := 0; let origin : Nat := 650; let corr : Int := 0; let seqId : Nat := 3; let masterId : Nat := 4;
      let interval : Int := 0;
      let s : State := (((((((up.page Pg.TIME 2).setF Pg.TIME Reg.TIME_MODE_CTRL_MODE 1)).page (Pg.LINK 0) 2).setF (Pg.LINK 0) Reg.LANE_LANE_STATUS_PHASE 4).setF Pg.TIME Reg.TIME_PORT_PRIO 0xFFF0).setF Pg.TIME Reg.TIME_STATUS_TSTATE 2).setTime fun x => { x with master := some 4, ports := x.ports.set 0 { delayValid := true, delay := 123456 } }; ((s.timeEn = true) ∧ (s.portUp port.val = true) ∧ (s.time.master = some masterId) ∧ ((s.tstate = 1 ∨ s.tstate = 2)) ∧ (s.timeMode = 1) ∧ (s.time.ports[port].delayValid = true) ∧ (s.coasting = false) ∧ ((((s.upTo t).setTPort port fun x => { x with sync := some ⟨origin, corr, t, masterId, interval⟩, stepped := 0, newRun := 0 }).retimePort).timePort = port.val)) ∧ (answer (exec (.syncReceive t port origin corr seqId masterId interval) s) fun u => decide ((u.fi Pg.TIME Reg.TIME_OFFSET = sat (rnd (wrapS 64 (sdiff48 (origin : Nat) (t : Nat) * 2 ^ 16 + corr + wrapS 64 (s.time.ports[port].delay + s.fi Pg.TIME (Reg.TIME_ASYM.num port.val) * 2 ^ 12))) 12) 32) ∧ (u.f Pg.TIME Reg.TIME_SYNC_ACCEPTED = satU (s.f Pg.TIME Reg.TIME_SYNC_ACCEPTED + 1) Reg.TIME_SYNC_ACCEPTED.width)) ) = true) := by decide +kernel

/-- Every clause of Recorder has a case that meets its hypotheses, and the command completes there as the clause says. -/
theorem runs_Recorder :
    (let t : Nat := 700; let bit : Fin 7 := 3;
      let s : State := ((((up.page Pg.RECORD 2).setF Pg.RECORD Reg.RECORD_STATUS_READY 1).setRcd fun r => { r with dir := true }).setRcd fun r => { r with pending := 1 }); ((s.recorderTakes = true) ∧ (trigEnabled (s.f Pg.RECORD Reg.RECORD_CFG_FAULT_EN) bit.val = true) ∧ (s.rcd.flush = none)) ∧ (answer (exec (.flushTrigger t bit) s) fun u => decide ((u.rcd.pending = s.rcd.pending ||| 2 ^ bit.val) ∧ (u.fb Pg.RECORD Reg.RECORD_STATUS_PENDING = true) ∧ (u.rcd.flush = none)) ) = true) ∧
    (let t : Nat := 700;
      let s : State := ((((up.page Pg.RECORD 2).setF Pg.RECORD Reg.RECORD_STATUS_READY 1).setRcd fun r => { r with dir := true }).setRcd fun r => { r with pending := 2 }); ((s.recorderTakes = true)) ∧ (answer (exec (.recordFlush t) s) fun u => decide ((u.rcd.pending = s.rcd.pending ||| 1) ∧ (u.fb Pg.RECORD Reg.RECORD_STATUS_PENDING = true)) ) = true) ∧
    (let t : Nat := 700;
      let s : State := ((((up.page Pg.RECORD 2).setF Pg.RECORD Reg.RECORD_STATUS_READY 1).setRcd fun r => { r with dir := true }).setRcd fun r => { r with pending := 1, ringSlots := 4, nvType := 1 }); (((s.upTo t).mayFlush = true) ∧ ((s.nor = false ∨ s.erasedAhead ≠ 0)))) ∧
    (let t : Nat := 700;
      let s : State := ((((up.page Pg.RECORD 2).setF Pg.RECORD Reg.RECORD_STATUS_READY 1).setRcd fun r => { r with dir := true }).setRcd fun r => { r with pending := 1, ringSlots := 4, nvType := 1 }); (((s.upTo t).mayFlush = true) ∧ ((s.upTo t).gapOver = true) ∧ ((s.nor = false ∨ s.erasedAhead ≠ 0)))) ∧
    (let t : Nat := 50000000; let who : NvUser := .flush; let fl : Flush := ⟨1, 0, 0, 1, 700, 700⟩;
      let s : State := ((((up.page Pg.RECORD 2).setF Pg.RECORD Reg.RECORD_STATUS_READY 1).setRcd fun r => { r with dir := true }).setRcd fun r => { r with flush := some ⟨1, 0, 0, 1, 700, 700⟩ }); ((who = .flush) ∧ (s.rcd.flush = some fl) ∧ ((s.upTo t).past (fl.start + 32768 + 32000000) = true) ∧ (s.pwr.dormantWait = false)) ∧ (answer (exec (.nvTimeout t who) s) fun u => decide ((u.rcd.flush = none) ∧ (u.f Pg.RECORD Reg.RECORD_FLUSH_FAILS = satU (s.f Pg.RECORD Reg.RECORD_FLUSH_FAILS + 1) Reg.RECORD_FLUSH_FAILS.width) ∧ (u.fb Pg.RECORD Reg.RECORD_STATUS_FLUSHING = false)) ) = true) ∧
    (let t : Nat := 7000000000; let who : NvUser := .erase; let e : Nat × Nat := (0, 700);
      let s : State := ((((up.page Pg.RECORD 2).setF Pg.RECORD Reg.RECORD_STATUS_READY 1).setRcd fun r => { r with dir := true }).setRcd fun r => { r with erasing := some (0, 700) }); ((who = .erase) ∧ (s.rcd.erasing = some e) ∧ ((s.upTo t).past (e.2 + 6400000000) = true)) ∧ (answer (exec (.nvTimeout t who) s) fun u => decide ((u.rcd.erasing = none)) ) = true) ∧
    (let t : Nat := 7000000000; let who : NvUser := .host; let h : NvCmd := ⟨.erase, 0, 1, 700⟩;
      let s : State := ((((up.page Pg.RECORD 2).setF Pg.RECORD Reg.RECORD_STATUS_READY 1).setRcd fun r => { r with dir := true }).setRcd fun r => { r with host := some ⟨.erase, 0, 1, 700⟩ }); ((who = .host) ∧ (s.rcd.host = some h) ∧ ((h.op = .program ∨ h.op = .erase)) ∧ ((s.upTo t).past ((h.start + (if h.op = .program then 32000000 else 6400000000) : Nat)) = true)) ∧ (answer (exec (.nvTimeout t who) s) fun u => decide ((u.rcd.host = none) ∧ (u.fb Pg.NV Reg.NV_NV_STATUS_BUSY = s.rcd.flush.isSome)) ) = true) ∧
    (let t : Nat := 700;
      let s : State := ((((up.page Pg.RECORD 2).setF Pg.RECORD Reg.RECORD_STATUS_READY 1).setRcd fun r => { r with dir := true }).setRcd fun r => { r with ringSlots := 4, ringBase := 0x10000 }); ((s.recorderTakes = true) ∧ (s.fb Pg.RECORD Reg.RECORD_STATUS_READY = true) ∧ (s.nor = true) ∧ (s.rcd.erasing = none) ∧ (s.rcd.ringSlots ≠ 0) ∧ (s.rcd.markErase = none) ∧ (s.erasedAhead + b2n s.rcd.flush.isSome < 2)) ∧ (answer (exec (.eraseAhead t) s) fun u => decide ((u.rcd.erasing = some (s.rcd.ringBase + (s.f Pg.RECORD Reg.RECORD_STATUS_NEXT_SLOT + (s.erasedAhead + b2n s.rcd.flush.isSome)) % s.rcd.ringSlots * 4096, (s.upTo t).now))) ) = true) ∧
    (let t : Nat := 700; let e : Nat × Nat := (0x10000, 5);
      let s : State := ((((up.page Pg.RECORD 2).setF Pg.RECORD Reg.RECORD_STATUS_READY 1).setRcd fun r => { r with dir := true }).setRcd fun r => { r with ringSlots := 4, ringBase := 0x10000, erasing := some (0x10000, 5), nv := [(0x10000, 7#8)] }); ((s.rcd.erasing = some e) ∧ (s.rcd.suspended = false) ∧ (s.rcd.ringBase ≤ e.1) ∧ (e.1 < s.rcd.ringBase + s.rcd.ringSlots * 4096)) ∧ (answer (exec (.eraseDone t) s) fun u => decide ((u.rcd.erasing = none) ∧ (u.erasedAhead = min 2 (s.erasedAhead + 1)) ∧ (u.nvByte e.1 = 0xFF#8)) ) = true) ∧
    (let t : Nat := 1440000000000;
      let s : State := (((up.page Pg.RECORD 2).setF Pg.RECORD Reg.RECORD_STATUS_READY 1).setRcd fun r => { r with dir := true }); ((s.pwr.sysOn = true) ∧ (s.time.running = true) ∧ ((s.upTo t).past (s.rcd.hoursAt + 1440000000000) = true)) ∧ (answer (exec (.hoursTick t) s) fun u => decide ((u.f Pg.RECORD Reg.RECORD_HOURS = (s.f Pg.RECORD Reg.RECORD_HOURS + 1) % 2 ^ 32) ∧ (u.rcd.hoursAt = s.rcd.hoursAt + 1440000000000)) ) = true) ∧
    (let t : Nat := 700;
      let s : State := (((up.page Pg.RECORD 2).setF Pg.RECORD Reg.RECORD_STATUS_READY 1).setRcd fun r => { r with dir := true }).setByte (recordBank + 5) 3#8; ((s.pwr.sysOn = true)) ∧ (answer (exec (.clearAcc t) s) fun u => decide ((u.rcd.accHours = s.f Pg.RECORD Reg.RECORD_HOURS) ∧ (u.rcd.seen = []) ∧ (u.byte (recordBank + 5) = 0#8)) ) = true) := by
  iterate 10 refine ⟨by decide +kernel, ?_⟩
  decide +kernel

/-- Every clause of NvPort has a case that meets its hypotheses, and the command completes there as the clause says. -/
theorem runs_NvPort :
    (let t : Nat := 700;
      let s : State := (up.page Pg.NV 2).setF Pg.NV Reg.NV_NV_LEN 2; ((s.pwr.sysOn = true) ∧ ((0 < s.f Pg.NV Reg.NV_NV_LEN ∧ s.f Pg.NV Reg.NV_NV_LEN ≤ 4096)) ∧ (s.fb Pg.NV Reg.NV_NV_STATUS_BUSY = false)) ∧ (answer (exec (.nvRead t) s) fun u => decide ((u.rcd.host = some ⟨.read, s.f Pg.NV Reg.NV_NV_ADDR, s.f Pg.NV Reg.NV_NV_LEN, (s.upTo t).now⟩) ∧ (u.fb Pg.NV Reg.NV_NV_STATUS_BUSY = true) ∧ (u.fb Pg.NV Reg.NV_NV_STATUS_REFUSED = false)) ) = true) ∧
    (let t : Nat := 700;
      let s : State := (up.page Pg.NV 2).setF Pg.NV Reg.NV_NV_LEN 2; ((s.pwr.sysOn = true) ∧ ((0 < s.f Pg.NV Reg.NV_NV_LEN ∧ s.f Pg.NV Reg.NV_NV_LEN ≤ 4096)) ∧ (s.fb Pg.NV Reg.NV_NV_STATUS_BUSY = false) ∧ (s.nvProtected (s.f Pg.NV Reg.NV_NV_ADDR) (s.f Pg.NV Reg.NV_NV_LEN) = false)) ∧ (answer (exec (.nvProgram t) s) fun u => decide ((u.rcd.host = some ⟨.program, s.f Pg.NV Reg.NV_NV_ADDR, s.f Pg.NV Reg.NV_NV_LEN, (s.upTo t).now⟩) ∧ (u.fb Pg.NV Reg.NV_NV_STATUS_BUSY = true) ∧ (u.fb Pg.NV Reg.NV_NV_STATUS_REFUSED = false)) ) = true) ∧
    (let t : Nat := 700;
      let s : State := (up.page Pg.NV 2).setF Pg.NV Reg.NV_NV_LEN 2; ((s.pwr.sysOn = true) ∧ (s.fb Pg.NV Reg.NV_NV_STATUS_BUSY = false) ∧ (s.nvProtected (s.f Pg.NV Reg.NV_NV_ADDR / 4096 * 4096) 4096 = false)) ∧ (answer (exec (.nvErase t) s) fun u => decide ((u.rcd.host = some ⟨.erase, s.f Pg.NV Reg.NV_NV_ADDR, s.f Pg.NV Reg.NV_NV_LEN, (s.upTo t).now⟩) ∧ (u.fb Pg.NV Reg.NV_NV_STATUS_BUSY = true) ∧ (u.fb Pg.NV Reg.NV_NV_STATUS_REFUSED = false)) ) = true) ∧
    (let t : Nat := 700; let h : NvCmd := ⟨.read, 0x2000, 4, 5⟩;
      let s : State := ({ up with rcd := { host := some ⟨.read, 0x2000, 4, 5⟩, nv := [(0x2001, 9#8)], bufKnown := [0] } }); ((s.rcd.host = some h) ∧ (h.op = .read)) ∧ (answer (exec (.nvCmdDone t) s) fun u => decide ((u.rcd.host = none) ∧ ((∀ k : Nat, k < h.len → u.byte (recordBank + 0x41000 + k) = s.nvByte (h.addr + k)))) ) = true) ∧
    (let t : Nat := 700; let h : NvCmd := ⟨.program, 0x2000, 4, 5⟩;
      let s : State := ({ up with rcd := { host := some ⟨.program, 0x2000, 4, 5⟩, nv := [(0x2001, 9#8)], bufKnown := [0] } }); ((s.rcd.host = some h) ∧ (h.op = .program) ∧ ((∀ k : Nat, k < h.len → s.rcd.bufKnown.contains (k / 4) = true))) ∧ (answer (exec (.nvCmdDone t) s) fun u => decide ((u.rcd.host = none) ∧ ((∀ k : Nat, k < h.len → u.nvByte (h.addr + k) = s.ownByte (recordBank + 0x41000 + k)))) ) = true) ∧
    (let t : Nat := 700; let h : NvCmd := ⟨.erase, 0x2000, 4, 5⟩;
      let s : State := ({ up with rcd := { host := some ⟨.erase, 0x2000, 4, 5⟩, nv := [(0x2001, 9#8)], bufKnown := [0] } }); ((s.rcd.host = some h) ∧ (h.op = .erase) ∧ (s.rcd.suspended = false)) ∧ (answer (exec (.nvCmdDone t) s) fun u => decide ((u.rcd.host = none) ∧ (u.nvByte 0x2001 = 0xFF#8)) ) = true) := by
  iterate 5 refine ⟨by decide +kernel, ?_⟩
  decide +kernel

/-- Every clause of PrimerSequence has a case that meets its hypotheses, and the command completes there as the clause says. -/
theorem runs_PrimerSequence :
    (let t : Nat := 700;
      let s : State := up.setByte 0x10000000 3#8; (True) ∧ (answer (exec (.vddAonPor t) s) fun u => decide ((u.pwr.dev = .dormant) ∧ (u.pwr.sysOn = false) ∧ (u.pwr.linkOn = false) ∧ (u.time.running = false) ∧ (u.regs = []) ∧ (u.pwr.shutdownLatch = false) ∧ (u.mem = [])) ) = true) ∧
    (let t : Nat := 700;
      let s : State := up.setByte 0x10000000 3#8; (True) ∧ (answer (exec (.vddAonLoss t) s) fun u => decide ((u.pwr.dev = .off) ∧ (u.pwr.sysOn = false) ∧ (u.pwr.linkOn = false) ∧ (u.time.running = false) ∧ (u.regs = []) ∧ (u.pwr.shutdownLatch = false) ∧ (u.mem = [])) ) = true) ∧
    (let t : Nat := 700; let c : Fin 5 := 2;
      let s : State := (State.reset.setF Pg.PWR Reg.PWR_WAKE_CFG_WAKE_MASK 15); ((s.pwr.dev = .dormant) ∧ (s.pwr.shutdownLatch = false) ∧ (s.pwr.resetL = false) ∧ (s.wakeEnabled (c.val + 1) = true) ∧ (s.pwr.blanking = false)) ∧ (answer (exec (.wakeEvent t c) s) fun u => decide ((u.pwr.dev = .waking) ∧ (u.pwr.pwrReq = true) ∧ (u.pwr.primer = .waitPg) ∧ (u.f Pg.PWR Reg.PWR_WAKE_STATUS_CAUSE = c.val + 1) ∧ (u.f Pg.PWR Reg.PWR_AON_COUNTS_WAKES = satU (s.f Pg.PWR Reg.PWR_AON_COUNTS_WAKES + 1) Reg.PWR_AON_COUNTS_WAKES.width)) ) = true) ∧
    (let t : Nat := 700; let c : Fin 5 := 2;
      let s : State := { (State.reset.setF Pg.PWR Reg.PWR_WAKE_CFG_WAKE_MASK 15) with pwr := { blanking := true } }; ((s.pwr.dev = .dormant) ∧ (s.pwr.shutdownLatch = false) ∧ (s.pwr.resetL = false) ∧ (s.wakeEnabled (c.val + 1) = true) ∧ (s.pwr.blanking = true) ∧ (s.pwr.wakeHeld = none)) ∧ (answer (exec (.wakeEvent t c) s) fun u => decide ((u.pwr.dev = .dormant) ∧ (u.pwr.wakeHeld = some (c.val + 1)) ∧ (u.pwr.wakeAt = t)) ) = true) ∧
    (let t : Nat := 700; let c : Fin 5 := 2; let d : Nat := 4;
      let s : State := { (State.reset.setF Pg.PWR Reg.PWR_WAKE_CFG_WAKE_MASK 15) with pwr := { blanking := true, wakeHeld := some 4, wakeAt := 600 } }; ((s.pwr.dev = .dormant) ∧ (s.pwr.shutdownLatch = false) ∧ (s.pwr.resetL = false) ∧ (s.wakeEnabled (c.val + 1) = true) ∧ (s.pwr.blanking = true) ∧ (s.pwr.wakeHeld = some d)) ∧ (answer (exec (.wakeEvent t c) s) fun u => decide ((u.pwr.dev = .dormant) ∧ (u.pwr.wakeHeld = some (if ahead s.pwr.wakeAt t ≤ 320 ∧ c.val + 1 < d then c.val + 1 else d))) ) = true) ∧
    (let t : Nat := 700; let c : Nat := 3;
      let s : State := { (State.reset.setF Pg.PWR Reg.PWR_WAKE_CFG_WAKE_MASK 15) with pwr := { blanking := true, wakeHeld := some 3 } }; ((s.pwr.wakeHeld = some c) ∧ (s.pwr.dev = .dormant) ∧ (s.pwr.shutdownLatch = false)) ∧ (answer (exec (.wakeBlankEnd t) s) fun u => decide ((u.pwr.dev = .waking) ∧ (u.pwr.pwrReq = true) ∧ (u.pwr.blanking = false) ∧ (u.f Pg.PWR Reg.PWR_WAKE_STATUS_CAUSE = c % 8)) ) = true) ∧
    (let t : Nat := 0; let roleB : Bool := true;
      let s : State := { State.reset with pwr := { dev := .waking, primer := .waitPg, pwrReq := true } }; ((s.pwr.dev = .waking) ∧ (s.pwr.primer = .waitPg) ∧ (s.pwr.resetL = false)) ∧ (answer (exec (.pgInHigh t roleB) s) fun u => decide ((u.pwr.sysOn = true) ∧ (u.pwr.linkOn = true) ∧ (u.pwr.primer = .waitLink) ∧ (u.pwr.dev = .waking) ∧ (u.roleB = roleB) ∧ (u.pwr.pgIn = true)) ) = true) ∧
    (let t : Nat := 0;
      let s : State := { State.reset with pwr := { dev := .waking, primer := .waitPg, pwrReq := true } }; ((s.pwr.dev = .waking) ∧ (s.pwr.primer = .waitPg) ∧ (s.pwr.pgIn = false)) ∧ (answer (exec (.pgTimeout t) s) fun u => decide ((u.pwr.dev = .dormant) ∧ (u.pwr.pwrReq = false) ∧ (u.pwr.primer = .idle) ∧ (u.fb Pg.PWR Reg.PWR_WAKE_STATUS_PG_TIMEOUT = true) ∧ (u.f Pg.PWR Reg.PWR_WAKE_STATUS_LAST_EXIT = 5)) ) = true) ∧
    (let t : Nat := 500; let c : Fin 4 := 0;
      let s : State := { (((({ State.reset with pwr := { dev := .waking, primer := .waitLink, pwrReq := true, sysOn := true, linkOn := true, pgIn := true } }).page (Pg.LINK 0) 2).page Pg.CLK 1).setF (Pg.LINK 0) Reg.LANE_LANE_STATUS_PHASE 4).setF (Pg.LINK 0) Reg.LANE_LANE_STATUS_FRAME_LOCK 1 with clk := { primer := some 0 } }; ((s.pwr.primer = .waitLink) ∧ (s.clk.primer = some c.val) ∧ (t < 2 ^ 63) ∧ (s.laneUp c.val = true) ∧ (s.fb (Pg.LINK c.val) Reg.LANE_LANE_STATUS_FRAME_LOCK = true) ∧ ((c.val < 2 ∨ s.roleB = true)) ∧ (s.clk.freqOk[c] = true) ∧ ((∀ k : Fin 4, s.candValid k.val = false)) ∧ (s.coasting = false)) ∧ (answer (exec (.primerLinkReady t c) s) fun u => decide ((u.time.running = true) ∧ (u.time.now = t) ∧ (u.pwr.primer = .load) ∧ (u.clk.locked = true) ∧ (u.selected = c.val) ∧ (u.candValid c.val = true) ∧ ((s.st Pg.CLK = stStarting → u.st Pg.CLK = stOn))) ) = true) ∧
    (let t : Nat := 500;
      let s : State := (((({ State.reset with pwr := { dev := .waking, primer := .waitLink, pwrReq := true, sysOn := true, linkOn := true, pgIn := true } }).page (Pg.LINK 0) 2).page Pg.CLK 1).setF (Pg.LINK 0) Reg.LANE_LANE_STATUS_PHASE 4).setF (Pg.LINK 0) Reg.LANE_LANE_STATUS_FRAME_LOCK 1; ((s.pwr.primer = .waitLink) ∧ (s.pwr.dev = .waking) ∧ (s.pwr.limitHeld = false)) ∧ (answer (exec (.linkWaitTimeout t) s) fun u => decide ((u.pwr.dev = .dormant) ∧ (u.pwr.sysOn = false) ∧ (u.pwr.pwrReq = false) ∧ (u.fb Pg.PWR Reg.PWR_WAKE_STATUS_LINK_TIMEOUT = true) ∧ (u.f Pg.PWR Reg.PWR_WAKE_STATUS_LAST_EXIT = 6)) ) = true) ∧
    (let t : Nat := 700; let fuseOk : Bool := true; let nvId : Option Nat := none; let markerOk : Bool := true; let us : Nat := 3000;
      let s : State := { up with pwr := { up.pwr with primer := .load, dev := .waking, clockForce := true } }; ((s.pwr.primer = .load) ∧ (s.pwr.dev = .waking) ∧ (s.pwr.sysOn = true) ∧ (s.pwr.clockForce = true))) ∧
    (let t : Nat := 700; let fuseOk : Bool := true; let nvId : Option Nat := none; let markerOk : Bool := true; let us : Nat := 3000;
      let s : State := { up with pwr := { up.pwr with primer := .load, dev := .waking } }; ((s.pwr.primer = .load) ∧ (s.pwr.dev = .waking) ∧ (s.pwr.sysOn = true) ∧ (s.pwr.clockForce = false))) ∧
    (let t : Nat := 700;
      let s : State := ({ up with pwr := { up.pwr with dev := .linked } }).page Pg.SYS 1; ((s.st Pg.SYS = stStarting) ∧ ((s.upTo t).elapsed (s.entered Pg.SYS) 256 = true) ∧ (s.pwr.dev = .linked)) ∧ (answer (exec (.sysStart t) s) fun u => decide ((u.st Pg.SYS = stOn) ∧ (u.pwr.dev = .active)) ) = true) := by
  iterate 12 refine ⟨by decide +kernel, ?_⟩
  decide +kernel

/-- Every clause of Resets has a case that meets its hypotheses, and the command completes there as the clause says. -/
theorem runs_Resets :
    (let t : Nat := 700;
      let s : State := up; ((s.pwr.pgIn = true) ∧ ((s.pwr.dev = .waking ∨ s.pwr.dev = .linked ∨ s.pwr.dev = .active ∨ s.pwr.dev = .safeHold))) ∧ (answer (exec (.pgInLow t) s) fun u => decide ((u.pwr.dev = .dormant) ∧ (u.pwr.sysOn = false) ∧ (u.pwr.pwrReq = false) ∧ (u.pwr.pgIn = false) ∧ (u.f Pg.PWR Reg.PWR_WAKE_STATUS_LAST_EXIT = 1) ∧ (u.f Pg.PWR Reg.PWR_AON_COUNTS_PG_DROPS = satU (s.f Pg.PWR Reg.PWR_AON_COUNTS_PG_DROPS + 1) Reg.PWR_AON_COUNTS_PG_DROPS.width)) ) = true) ∧
    (let t : Nat := 700;
      let s : State := up; ((s.pwr.dev ≠ .off) ∧ (s.pwr.dev ≠ .shutdown)) ∧ (answer (exec (.resetLAssert t) s) fun u => decide ((u.pwr.resetL = true) ∧ (u.pwr.resetForce = true) ∧ (u.pwr.sysOn = false) ∧ (u.f Pg.PWR Reg.PWR_WAKE_STATUS_LAST_EXIT = 2) ∧ (u.pwr.dev = (if s.pwr.dev = .dormant then .dormant else .waking))) ) = true) ∧
    (let t : Nat := 700;
      let s : State := { State.reset with pwr := { dev := .waking, resetL := true, resetForce := true, pgIn := true, pwrReq := true } }; ((s.pwr.resetL = true) ∧ (s.pwr.pgIn = true)) ∧ (answer (exec (.resetLRelease t) s) fun u => decide ((True)) ) = true) ∧
    (let t : Nat := 700;
      let s : State := { State.reset with pwr := { dev := .waking, resetL := true, resetForce := true, pgIn := false, pwrReq := true } }; ((s.pwr.resetL = true) ∧ (s.pwr.pgIn = false)) ∧ (answer (exec (.resetLRelease t) s) fun u => decide ((u.pwr.dev = .dormant) ∧ (u.pwr.resetL = false) ∧ (u.pwr.pwrReq = false)) ) = true) ∧
    (let t : Nat := 700; let key : Nat := 0xA5;
      let s : State := up; ((s.pwr.sysOn = true) ∧ (key = 0xA5) ∧ (s.pwr.dev ≠ .shutdown)) ∧ (answer (exec (.deviceCommand t key) s) fun u => decide ((u.pwr.dev = .waking) ∧ (u.pwr.sysOn = false) ∧ (u.pwr.restartDue = true) ∧ (u.pwr.resetForce = true) ∧ (u.f Pg.PWR Reg.PWR_WAKE_STATUS_LAST_EXIT = 3) ∧ (u.mem = [])) ) = true) ∧
    (let t : Nat := 700;
      let s : State := { State.reset with pwr := { dev := .waking, restartDue := true, pgIn := true, pwrReq := true } }; ((s.pwr.restartDue = true) ∧ (s.pwr.pgIn = true) ∧ (s.pwr.dev ≠ .shutdown)) ∧ (answer (exec (.deviceCommandRestart t) s) fun u => decide ((True)) ) = true) ∧
    (let t : Nat := 700; let key : Nat := 0xA5;
      let s : State := (up.page Pg.RECORD 2).setRcd fun r => { r with dir := true }; ((s.pwr.sysOn = true) ∧ (key = 0xA5) ∧ (s.pwr.dev ≠ .shutdown) ∧ (s.allOff = true) ∧ (s.recorderTakes = true)) ∧ (answer (exec (.dormantCommand t key) s) fun u => decide ((u.pwr.dormantWait = true) ∧ (u.rcd.pending.testBit 0 = true)) ) = true) ∧
    (let t : Nat := 700; let key : Nat := 0xA5;
      let s : State := up; ((s.pwr.sysOn = true) ∧ (key = 0xA5) ∧ (s.pwr.dev ≠ .shutdown) ∧ (s.allOff = true) ∧ (s.recorderTakes = false) ∧ (s.rcd.flush = none)) ∧ (answer (exec (.dormantCommand t key) s) fun u => decide ((u.pwr.dev = .dormant) ∧ (u.pwr.sysOn = false) ∧ (u.pwr.pwrReq = false) ∧ (u.f Pg.PWR Reg.PWR_WAKE_STATUS_LAST_EXIT = 4)) ) = true) ∧
    (let t : Nat := 50000; let fl : Flush := ⟨1, 0, 2, 7, 700, 650⟩;
      let s : State := ({ up with rcd := { flush := some ⟨1, 0, 2, 7, 700, 650⟩, ringSlots := 4 } }); ((s.rcd.flush = some fl) ∧ ((s.upTo t).past (fl.start + 32768) = true) ∧ (s.pwr.dormantWait = false))) ∧
    (let t : Nat := 128000700; let d : Nat := 5;
      let s : State := { up with pwr := { up.pwr with dev := .shutdown, shutdownLatch := true }, therm := { shutAt := some 5 } }; ((s.therm.shutAt = some d) ∧ (s.pwr.dev = .shutdown) ∧ (s.pwr.sysOn = true) ∧ ((s.upTo t).past (d + 128000000) = true)) ∧ (answer (exec (.shutdownPowerOff t) s) fun u => decide ((u.pwr.dev = .shutdown) ∧ (u.pwr.sysOn = false) ∧ (u.pwr.linkOn = false) ∧ (u.pwr.pwrReq = false)) ) = true) := by
  iterate 9 refine ⟨by decide +kernel, ?_⟩
  decide +kernel

/-- Every clause of Domains has a case that meets its hypotheses, and the command completes there as the clause says. -/
theorem runs_Domains :
    (let t : Nat := 700; let v : Word := 0x1FC;
      let s : State := up; ((s.pwr.sysOn = true) ∧ (v.toNat < 2 ^ 9)) ∧ (answer (exec (.domainCtrlWrite t v) s) fun u => decide ((u.f Pg.PWR Reg.PWR_DOMAIN_CTRL_REQ = fldOf v Reg.PWR_DOMAIN_CTRL_REQ) ∧ ((s.pwr.switching.isSome = true → u.pwr.switching = s.pwr.switching))) ) = true) ∧
    (let t : Nat := 700; let d : Nat := 3;
      let s : State := ({ up with pwr := { up.pwr with switching := some (3, true) } }).setF Pg.PWR Reg.PWR_DOMAIN_STATUS_ON 0x1F4; ((s.pwr.switching = some (d, true)) ∧ (d < 9))) ∧
    (let t : Nat := 700; let d : Nat := 7;
      let s : State := { up with pwr := { up.pwr with switching := some (7, false) } }; ((s.pwr.switching = some (d, false)) ∧ (2 ≤ d) ∧ (d < 9)) ∧ (answer (exec (.domainSwitchOffDone t) s) fun u => decide ((u.supplied d = false) ∧ (u.pwr.dirty.contains d = false)) ) = true) ∧
    (let t : Nat := 700;
      let s : State := (up.page Pg.RECORD 2).setRcd fun r => { r with dir := true }; ((s.pwr.sysOn = true)) ∧ (answer (exec (.pfail t) s) fun u => decide (((u.f Pg.PWR Reg.EVENT).testBit Ev.PWR_PFAIL = true) ∧ ((s.recorderTakes = true → u.rcd.pending.testBit 1 = true))) ) = true) := by
  iterate 3 refine ⟨by decide +kernel, ?_⟩
  decide +kernel

/-- Every clause of EventRegisters has a case that meets its hypotheses, and the command completes there as the clause says. -/
theorem runs_EventRegisters :
    (let t : Nat := 700; let p : Fin 256 := 3; let bits : Word := 0xFF;
      let s : State := (up.setF 3 Reg.EVENT 5).markEv 98; (((pageBlk p.val).isSome = true) ∧ (s.pageOn p.val = true)) ∧ (answer (exec (.eventClear t p bits) s) fun u => decide (((∀ k : Fin 32, (u.f p.val Reg.EVENT).testBit k.val = ((((s.upTo t).pageDue p.val).f p.val Reg.EVENT).testBit k.val && !(decide (k.val < eventCount p.val) && bits.toNat.testBit k.val && !(tabGet zeroNat ((s.upTo t).pageDue p.val).lastEv (p.val * 32 + k.val) != 0 && decide ((tabGet zeroNat ((s.upTo t).pageDue p.val).lastEv (p.val * 32 + k.val) - 1) / pagePeriod p.val = (s.upTo t).now / pagePeriod p.val))))))) ) = true) ∧
    (let t : Nat := 700; let p : Fin 256 := 3; let bits : Word := 6;
      let s : State := up.setF 3 Reg.EVENT 1; (((pageBlk p.val).isSome = true) ∧ (s.pageOn p.val = true)) ∧ (answer (exec (.eventForce t p bits) s) fun u => decide (((∀ k : Fin 32, k.val < eventCount p.val → bits.toNat.testBit k.val = true → (u.f p.val Reg.EVENT).testBit k.val = true)) ∧ ((∀ k : Fin 32, bits.toNat.testBit k.val = false → (u.f p.val Reg.EVENT).testBit k.val = (((s.upTo t).pageDue p.val).f p.val Reg.EVENT).testBit k.val))) ) = true) := by
  iterate 1 refine ⟨by decide +kernel, ?_⟩
  decide +kernel

/-- Every clause of EventCollector has a case that meets its hypotheses, and the command completes there as the clause says. -/
theorem runs_EventCollector :
    (let t : Nat := 700; let e : EvEntry := ⟨96, 650, 2, false⟩;
      let s : State := ((up.page Pg.EVCOL 2).setEv fun v => { v with offers := [⟨96, 650, 2, false⟩] }); ((s.isOn Pg.EVCOL = true) ∧ (s.ev.offers = [e]) ∧ ((∀ x ∈ s.ev.sort, x.source ≠ e.source)) ∧ ((∀ n : Fin 4, s.lights[n].back = none)) ∧ (s.ev.taken.of ((s.upTo t).now / 16) < 8) ∧ (sdiff48 ((s.upTo t).now : Nat) (e.stamp : Nat) < 12800)) ∧ (answer (exec (.eventIntake t) s) fun u => decide ((u.ev.offers = []) ∧ (u.ev.sort = s.ev.sort ++ [{ e with late := false }]) ∧ (u.ev.scan = (e.source + 1) % 8192) ∧ (u.ev.taken.of ((s.upTo t).now / 16) = s.ev.taken.of ((s.upTo t).now / 16) + 1)) ) = true) ∧
    (let t : Nat := 13700; let e : EvEntry := ⟨96, 650, 2, false⟩;
      let s : State := ((up.page Pg.EVCOL 2).setEv fun v => { v with sort := [⟨96, 650, 2, false⟩] }); ((s.isOn Pg.EVCOL = true) ∧ (s.ev.sort = [e]) ∧ (12800 ≤ sdiff48 ((s.upTo t).now : Nat) (e.stamp : Nat)) ∧ (s.ev.queue.length < 1024) ∧ (s.ev.moved.of ((s.upTo t).now / 16) < 8)) ∧ (answer (exec (.eventDeliverable t) s) fun u => decide ((u.ev.sort = []) ∧ (u.ev.queue = s.ev.queue ++ [⟨s.f Pg.EVCOL Reg.EVCOL_QSEQ_NEXT, e.source, e.stamp, min e.count 0xFFFF, e.late⟩]) ∧ (u.f Pg.EVCOL Reg.EVCOL_QSEQ_NEXT = (s.f Pg.EVCOL Reg.EVCOL_QSEQ_NEXT + 1) % 2 ^ Reg.EVCOL_QSEQ_NEXT.width) ∧ (u.f Pg.EVCOL Reg.EVCOL_MESSAGES = satU (s.f Pg.EVCOL Reg.EVCOL_MESSAGES + 1) Reg.EVCOL_MESSAGES.width) ∧ (u.ev.moved.of ((s.upTo t).now / 16) = s.ev.moved.of ((s.upTo t).now / 16) + 1)) ) = true) ∧
    (let t : Nat := 13700; let l : Fin 20 := 0;
      let s : State := (((((up.page Pg.EVCOL 2).setF Pg.EVCOL Reg.EVCOL_EVCOL_CFG 1).page (Pg.LINK 0) 2).setF (Pg.LINK 0) Reg.LANE_LANE_STATUS_PHASE 4).setEv fun v => { v with queue := [⟨5, 96, 650, 2, false⟩] }); ((s.isOn Pg.EVCOL = true) ∧ (l.val < 2) ∧ (s.f Pg.EVCOL Reg.EVCOL_EVCOL_CFG = l.val + 1) ∧ (s.laneUp l.val = true) ∧ (s.ev.queue ≠ []) ∧ (s.lanes[l].cpls = []) ∧ ((s.upTo t).mayStart l ⟨4, (s.upTo t).nextSeq l 4, 0, evtPayload (s.ev.queue.take 8)⟩ = true)) ∧ (answer (exec (.evtSend t) s) fun u => decide ((u.ev.queue = s.ev.queue.drop 8) ∧ (u.lanes[l].tx.map (·.2.payload) = some (evtPayload (s.ev.queue.take 8))) ∧ (u.f (lanePage l.val) Reg.FRAME_EVT_MESSAGES = satU (s.f (lanePage l.val) Reg.FRAME_EVT_MESSAGES + (s.ev.queue.take 8).length) 32)) ) = true) := by
  iterate 2 refine ⟨by decide +kernel, ?_⟩
  decide +kernel

/-- Every clause of Interlocks has a case that meets its hypotheses, and the command completes there as the clause says. -/
theorem runs_Interlocks :
    (let t : Nat := 700; let i : Fin 4 := 2; let a : Bool := false; let b : Bool := false;
      let s : State := ({ up with knife := { ilk := Vector.replicate 4 { a := true, b := false } } }); (((a && !b) = false)) ∧ (answer (exec (.ilkDepart t i a b) s) fun u => decide ((u.dark) ∧ ((s.knife.ilk[i].ok = true → s.pwr.sysOn = true → ∀ n : Fin 16, (u.latched n.val).testBit causeInterlock = true))) ) = true) ∧
    (let t : Nat := 700; let i : Fin 4 := 2;
      let s : State := ({ up with knife := { ilk := Vector.replicate 4 { stopOk := true } } }).setF Pg.KNIFE Reg.KNIFE_ILK_STATUS_DISC_LATCHED 15; (True) ∧ (answer (exec (.ilkReturn t i) s) fun u => decide ((u.knife.ilk[i].ok = true) ∧ (u.knife.ilk[i].stopOk = false) ∧ ((s.pwr.sysOn = true → s.knife.ilk[i].stopOk = true → (u.f Pg.KNIFE Reg.KNIFE_ILK_STATUS_DISC_LATCHED).testBit i.val = false))) ) = true) ∧
    (let t : Nat := 7000000000; let i : Fin 4 := 1; let since : Nat := 5;
      let s : State := { up with knife := { ilk := Vector.replicate 4 { a := true, b := true, discSince := some 5 } } }; ((s.knife.ilk[i].discSince = some since) ∧ (s.pwr.sysOn = true) ∧ (s.knife.ilk[i].discDone = false) ∧ ((s.upTo t).elapsed since (s.f Pg.KNIFE Reg.KNIFE_ILK_CFG * 6400000) = true)) ∧ (answer (exec (.discTimeout t i) s) fun u => decide (((u.f Pg.KNIFE Reg.KNIFE_ILK_STATUS_DISC_LATCHED).testBit i.val = true) ∧ (u.knife.ilk[i].discDone = true) ∧ ((∀ n : Fin 16, (u.latched n.val).testBit causeDiscrepancy = true))) ) = true) := by
  iterate 2 refine ⟨by decide +kernel, ?_⟩
  decide +kernel

/-- Every clause of KnifeCommands has a case that meets its hypotheses, and the command completes there as the clause says. -/
theorem runs_KnifeCommands :
    (let t : Nat := 700; let key : Nat := 0xC3; let mask : BitVec 16 := 0x30;
      let s : State := up.setF Pg.KNIFE (Reg.KNIFE_CAUSE_LATCHED.num 5) 1; ((s.pwr.sysOn = true) ∧ (key = 0xC3)) ∧ (answer (exec (.knifeArmSet t key mask) s) fun u => decide (((∀ n : Fin 16, (u.f Pg.KNIFE Reg.KNIFE_ARM_STATE).testBit n.val = ((s.f Pg.KNIFE Reg.KNIFE_ARM_STATE).testBit n.val || (mask.toNat.testBit n.val && decide (s.latched n.val = 0) && !(s.upTo t).causeNow n))))) ) = true) ∧
    (let t : Nat := 700; let mask : BitVec 16 := 0x31;
      let s : State := up.setF Pg.KNIFE Reg.KNIFE_ARM_STATE 0x70; ((s.pwr.sysOn = true)) ∧ (answer (exec (.knifeDisarm t mask) s) fun u => decide (((∀ n : Fin 16, (u.f Pg.KNIFE Reg.KNIFE_ARM_STATE).testBit n.val = ((s.f Pg.KNIFE Reg.KNIFE_ARM_STATE).testBit n.val && !mask.toNat.testBit n.val))) ∧ ((∀ n : Fin 16, mask.toNat.testBit n.val = true → u.lasers[n].gatePin = false ∧ u.knife.permitted[n] = false))) ) = true) ∧
    (let t : Nat := 700; let key : Nat := 0x3C; let mask : BitVec 16 := 0x20;
      let s : State := up.setF Pg.KNIFE (Reg.KNIFE_CAUSE_LATCHED.num 5) 0x403; ((s.pwr.sysOn = true) ∧ (key = 0x3C)) ∧ (answer (exec (.knifeClear t key mask) s) fun u => decide (((∀ n : Fin 16, u.latched n.val = (if mask.toNat.testBit n.val && !(s.upTo t).causeNow n then s.latched n.val &&& s.presentMask n else s.latched n.val)))) ) = true) ∧
    (let t : Nat := 700; let mask : BitVec 16 := 0x20;
      let s : State := up.setF Pg.KNIFE Reg.KNIFE_ARM_STATE 0x70; ((s.pwr.sysOn = true) ∧ (mask ≠ 0#16)) ∧ (answer (exec (.knifeTest t mask) s) fun u => decide (((∀ n : Fin 16, mask.toNat.testBit n.val = true → (u.latched n.val).testBit causeTest = true ∧ u.lasers[n].gatePin = false ∧ (u.f Pg.KNIFE Reg.KNIFE_ARM_STATE).testBit n.val = false)) ∧ ((∀ n : Fin 16, mask.toNat.testBit n.val = false → u.latched n.val = s.latched n.val))) ) = true) ∧
    (let n : Nat := 3; let b : Fin 16 := 4; let w : Nat := 47000;
      let s : State := { up with knife := { armAt := (Vector.replicate 16 none).set 4 (some 47000) } }; ((s.pwr.sysOn = true) ∧ (s.knife.armAt[b] = some w) ∧ (640 ≤ sdiff48 (t0 n : Nat) (w : Nat))) ∧ (answer (exec (.permitStart n) s) fun u => decide ((u.knife.permitted[b] = true) ∧ (u.knife.armAt[b] = none)) ) = true) := by
  iterate 4 refine ⟨by decide +kernel, ?_⟩
  decide +kernel

/-- Every clause of Encoders has a case that meets its hypotheses, and the command completes there as the clause says. -/
theorem runs_Encoders :
    (let t : Nat := 700; let n : Fin 4 := 1; let a : Bool := true; let b : Bool := false; let z : Bool := false;
      let s : State := ((up.page (Pg.ENC 1) 2).setF (Pg.ENC 1) Reg.ENC_ENC_CFG_MODE 1); ((s.isOn (Pg.ENC n.val) = true) ∧ (s.f (Pg.ENC n.val) Reg.ENC_ENC_CFG_MODE = 1) ∧ (a = true) ∧ (s.encs[n].a = false)) ∧ (answer (exec (.encoderEdge t n a b z) s) fun u => decide ((u.pair (Pg.ENC n.val) Reg.ENC_COUNT_LO Reg.ENC_COUNT_HI = wrapU 48 (s.pair (Pg.ENC n.val) Reg.ENC_COUNT_LO Reg.ENC_COUNT_HI + s.encSign n * (if b then 1 else -1))) ∧ (u.encs[n].a = true) ∧ (u.encs[n].lastEdge = some (s.upTo t).fastStamp)) ) = true) ∧
    (let t : Nat := 700; let n : Fin 4 := 1; let a : Bool := true; let b : Bool := false; let z : Bool := false;
      let s : State := ((up.page (Pg.ENC 1) 2).setF (Pg.ENC 1) Reg.ENC_ENC_CFG_MODE 0); ((s.isOn (Pg.ENC n.val) = true) ∧ (s.f (Pg.ENC n.val) Reg.ENC_ENC_CFG_MODE = 0) ∧ ((a != s.encs[n].a) ≠ (b != s.encs[n].b)))) ∧
    (let t : Nat := 700; let n : Fin 4 := 1; let a : Bool := true; let b : Bool := true; let z : Bool := false;
      let s : State := ((up.page (Pg.ENC 1) 2).setF (Pg.ENC 1) Reg.ENC_ENC_CFG_MODE 0); ((s.isOn (Pg.ENC n.val) = true) ∧ (s.f (Pg.ENC n.val) Reg.ENC_ENC_CFG_MODE = 0) ∧ (a ≠ s.encs[n].a) ∧ (b ≠ s.encs[n].b)) ∧ (answer (exec (.encoderEdge t n a b z) s) fun u => decide ((u.pair (Pg.ENC n.val) Reg.ENC_COUNT_LO Reg.ENC_COUNT_HI = s.pair (Pg.ENC n.val) Reg.ENC_COUNT_LO Reg.ENC_COUNT_HI) ∧ (u.f (Pg.ENC n.val) Reg.ENC_QUAD_ERRORS = satU (s.f (Pg.ENC n.val) Reg.ENC_QUAD_ERRORS + 1) Reg.ENC_QUAD_ERRORS.width)) ) = true) ∧
    (let t : Nat := 700; let n : Fin 4 := 1;
      let s : State := ((up.page (Pg.ENC 1) 2).setF (Pg.ENC 1) Reg.ENC_ENC_CFG_MODE 0); ((s.pageOn (Pg.ENC n.val) = true)) ∧ (answer (exec (.indexArm t n) s) fun u => decide ((u.encs[n].armed = true) ∧ (u.fb (Pg.ENC n.val) Reg.ENC_INDEX_VALID = false)) ) = true) ∧
    (let t : Nat := 700; let n : Fin 4 := 1;
      let s : State := (((up.page (Pg.ENC 1) 2).setF (Pg.ENC 1) Reg.ENC_ENC_CFG_MODE 0).setEnc 1 fun e => { e with armed := true }); ((s.pageOn (Pg.ENC n.val) = true) ∧ (s.encs[n].armed = true)) ∧ (answer (exec (.indexCapture t n) s) fun u => decide ((u.encs[n].armed = false) ∧ (u.fb (Pg.ENC n.val) Reg.ENC_INDEX_VALID = true) ∧ (u.pair (Pg.ENC n.val) Reg.ENC_INDEX_COUNT_LO Reg.ENC_INDEX_COUNT_HI = s.pair (Pg.ENC n.val) Reg.ENC_COUNT_LO Reg.ENC_COUNT_HI) ∧ (u.pair (Pg.ENC n.val) Reg.ENC_INDEX_TIME_LO Reg.ENC_INDEX_TIME_HI = (s.upTo t).fastStamp % 2 ^ 48)) ) = true) ∧
    (let t : Nat := 300000;
      let s : State := { up with medium := { targets := [{ pos := 5, tick := some 3 }, { pos := 7 }] } }; (True) ∧ (answer (exec (.targetRemove t) s) fun u => decide ((u.medium.targets = [{ pos := 7 }])) ) = true) := by
  iterate 5 refine ⟨by decide +kernel, ?_⟩
  decide +kernel

/-- Every clause of Chains has a case that meets its hypotheses, and the command completes there as the clause says. -/
theorem runs_Chains :
    (let t : Nat := 700; let b : Fin 16 := 0; let v : Word := 4;
      let s : State := (up.brushing 0).setF (Pg.BRUSH 0) Reg.BRUSH_CHAIN_LO 128; ((v.toNat < 256) ∧ (s.isOn (Pg.BRUSH b) = true) ∧ (s.brushes[b].chain = false) ∧ ((s.brushes[b].force = none ∨ s.fb (Pg.BRUSH b) Reg.BRUSH_STATUS_CHAIN_ENDED = true)) ∧ (s.askable (chainAddr (s.word (regAddr (Pg.BRUSH b) Reg.BRUSH_CHAIN_LO.off)).toNat v.toNat) 832)) ∧ (answer (exec (.chainStart t b v) s) fun u => decide ((u.brushes[b].chain = true) ∧ (u.brushes[b].hdrFetch = some (chainAddr (s.word (regAddr (Pg.BRUSH b) Reg.BRUSH_CHAIN_LO.off)).toNat v.toNat)) ∧ (u.f (Pg.BRUSH b) Reg.BRUSH_CHAIN_HI = v.toNat)) ) = true) ∧
    (let t : Nat := 700; let b : Fin 16 := 0; let a : Nat := dramBase;
      let s : State := ((((up.brushing 0).setBrush 0 fun x => { x with hdrFetch := some dramBase })).setBytes dramBase (leBytes 8 0x0340000171605348)).setBytes (dramBase + 0x3C) (leBytes 4 (crc32 (leBytes 60 0x0340000171605348 ++ List.replicate 768 0#8))); ((s.isOn (Pg.BRUSH b) = true) ∧ (s.brushes[b].hdrFetch = some a) ∧ (s.dramOn = true) ∧ (s.dmaBreach = false) ∧ ((s.readNext a ≠ 0 → s.askable (s.readNext a) 832)) ∧ (s.dramBad a 832 = false) ∧ (headerOk (s.bytes a 832) = true)) ∧ (answer (exec (.headerFetched t b) s) fun u => decide ((u.brushes[b].seq = s.brushes[b].seq + 1) ∧ (u.brushes[b].queue.length = s.brushes[b].queue.length + 1) ∧ (u.brushes[b].badHeader = s.brushes[b].badHeader)) ) = true) ∧
    (let t : Nat := 16000 * 65; let b : Fin 16 := 0; let h : Sheet := testSheet 1;
      let s : State := (((up.brushing 0).setBrush 0 fun x => { x with force := some (testSheet 1) })).setBytes (dramBase + 4096 + 0x18) (leBytes 5 (dramBase + 64)); ((s.live t) ∧ (s.isOn (Pg.BRUSH b) = true) ∧ (s.brushes[b].newest = some h) ∧ (h.next = 0) ∧ (s.brushes[b].pollFrame + 64 ≤ frameOf t) ∧ (s.dramOn = true) ∧ (s.nextAskable b) ∧ (s.dramBad h.addr 64 = false)) ∧ (answer (exec (.nextPoll t b) s) fun u => decide ((u.brushes[b].pollFrame = frameOf t) ∧ (u.brushes[b].newest.map Sheet.next = some (s.readNext h.addr))) ) = true) ∧
    (let t : Nat := 700; let b : Fin 16 := 0; let pathB : Bool := false; let q : Path := { sheet := 1 }; let k : Nat := 0;
      let h : Sheet := testSheet 1;
      let s : State := ((up.brushing 0).setBrush 0 fun x => { x with force := some (testSheet 1), pathA := { sheet := 1 } }); ((s.isOn (Pg.BRUSH b) = true) ∧ (s.brushes[b].entry.full = false) ∧ ((s.upTo t).pathOn b 8192 ((s.upTo t).pathNext b (s.brushes[b].path pathB)) = q) ∧ (q.ended = false) ∧ (q.branching = false) ∧ (s.sheetOf b q.sheet = some h) ∧ (s.askable (h.list + q.idx / 64 * 2048) (32 * min 64 (h.records - q.idx / 64 * 64))) ∧ ((q.blocks.filter fun k => k.arrived.isNone).length < 4) ∧ (q.freeSlot (pathRoom pathB) = some k)) ∧ (answer (exec (.blockFetchRequest t b pathB) s) fun u => decide ((u.brushes[b].path pathB = { q with blocks := q.blocks ++ [{ sheet := q.sheet, blk := q.idx / 64, slot := k, lap := q.lap }] })) ) = true) ∧
    (let t : Nat := 700; let b : Fin 16 := 0; let pathB : Bool := false; let k : Nat := 0; let e : FBlock := { sheet := 1, blk := 0, slot := 0 };
      let h : Sheet := testSheet 1;
      let s : State := ((up.brushing 0).setBrush 0 fun x => { x with force := some (testSheet 1), pathA := { sheet := 1, blocks := [{ sheet := 1, blk := 0, slot := 0 }] } }); ((s.live t) ∧ (s.dramOn = true) ∧ (s.dmaBreach = false) ∧ (s.nextAskable b) ∧ (((s.brushes[b].path pathB).blocks.filter fun e => e.arrived.isNone)[k]? = some e) ∧ (s.sheetOf b e.sheet = some h) ∧ (s.dramBad (h.list + e.blk * 2048) (32 * min 64 (h.records - e.blk * 64)) = false)) ∧ (answer (exec (.blockArrival t b pathB k) s) fun u => decide ((((u.brushes[b].path pathB).blocks.any fun y => y.sheet == e.sheet && y.blk == e.blk && y.arrived == some t) = true)) ) = true) := by
  iterate 4 refine ⟨by decide +kernel, ?_⟩
  decide +kernel

/-- Every clause of Execution has a case that meets its hypotheses, and the command completes there as the clause says. -/
theorem runs_Execution :
    (let t : Nat := 5000; let b : Fin 16 := 0; let h : Sheet := { testSheet 1 with boundary := some 3200, eff := 3200 }; let rest : List Sheet := [];
      let c : Nat := 3200; let s : State := ((up.brushing 3).setBrush 0 fun x => { x with queue := [{ testSheet 1 with boundary := some 3200, eff := 3200 }] }); ((s.live t) ∧ (s.isOn (Pg.BRUSH b) = true) ∧ (dueSheets s.brushes[b].queue = h :: rest) ∧ (h.boundary = some c) ∧ (h.late = false) ∧ ((s.upTo t).past c = true) ∧ ((s.holdsSheets = false ∨ h.medium = true)) ∧ (s.idsOk b (s.keepSets b s.brushes[b].force h) = true) ∧ (dramBase ≤ h.list) ∧ ((∀ i : Nat, i < h.records → ((s.record h i).op ≤ 9 ∨ (s.record h i).op = opEnd)))) ∧ (answer (exec (.sheetBoundary t b) s) fun u => decide ((u.brushes[b].force.map Sheet.seq = some h.seq) ∧ (u.brushes[b].queue.map Sheet.seq = rest.map Sheet.seq) ∧ (u.brushes[b].anchorT = c) ∧ (u.f (Pg.BRUSH b) Reg.BRUSH_SHEET_ID = h.id % 2 ^ 32) ∧ (u.fb (Pg.BRUSH b) Reg.BRUSH_STATUS_SHEET_VALID = true) ∧ (u.f (Pg.BRUSH b) Reg.BRUSH_SHEETS = satU (s.f (Pg.BRUSH b) Reg.BRUSH_SHEETS + 1) Reg.BRUSH_SHEETS.width)) ) = true) ∧
    (let t : Nat := 17000; let b : Fin 16 := 0; let h : Sheet := { testSheet 1 with boundary := some 3200, eff := 16000 };
      let rest : List Sheet := []; let c : Nat := 3200;
      let s : State := ((up.brushing 3).setBrush 0 fun x => { x with queue := [{ testSheet 1 with boundary := some 3200, eff := 16000 }] }); ((s.live t) ∧ (s.isOn (Pg.BRUSH b) = true) ∧ (dueSheets s.brushes[b].queue = h :: rest) ∧ (h.boundary = some c) ∧ (h.late = true) ∧ ((s.upTo t).past h.eff = true) ∧ ((s.heldAt c = false ∨ h.medium = true)) ∧ (s.idsOk b (s.keepSets b s.brushes[b].force h) = true) ∧ (dramBase ≤ h.list) ∧ ((∀ i : Nat, i < h.records → ((s.record h i).op ≤ 9 ∨ (s.record h i).op = opEnd)))) ∧ (answer (exec (.lateSheetTakesEffect t b) s) fun u => decide ((u.f (Pg.BRUSH b) Reg.BRUSH_SHEETS = satU (s.f (Pg.BRUSH b) Reg.BRUSH_SHEETS + 1) Reg.BRUSH_SHEETS.width) ∧ (u.f (Pg.BRUSH b) Reg.BRUSH_SHEET_ID = h.id % 2 ^ 32)) ) = true) ∧
    (let t : Nat := 700; let b : Fin 16 := 0; let h : Sheet := testSheet 1; let r : Rec := decodeRec (leBytes 32 3); let ts : Nat := 0;
      let s : State := ((up.brushing 3).setBrush 0 fun x => { x with force := some (testSheet 1) }); ((s.live t) ∧ (s.isOn (Pg.BRUSH b) = true) ∧ (s.brushes[b].force = some h) ∧ (s.brushes[b].ended = false) ∧ (s.brushes[b].cur = none) ∧ (s.record h s.brushes[b].idx = r) ∧ (s.startTick b r = some ts) ∧ (r.timed = true) ∧ ((s.upTo t).past (later ts s.brushes[b].prevEnd) = true) ∧ (s.beforeCut b (later ts s.brushes[b].prevEnd) = true)) ∧ (answer (exec (.timedRecordStart t b) s) fun u => decide ((u.brushes[b].cur.map Up.ts = some ts) ∧ (u.brushes[b].idx = s.brushes[b].idx + 1) ∧ (u.brushes[b].ord = s.brushes[b].ord + 1) ∧ (u.brushes[b].log.head? = some (later ts s.brushes[b].prevEnd, s.brushes[b].ord)) ∧ (u.f (Pg.BRUSH b) Reg.BRUSH_STROKES = satU (s.f (Pg.BRUSH b) Reg.BRUSH_STROKES + 1) Reg.BRUSH_STROKES.width)) ) = true) ∧
    (let t : Nat := 700; let b : Fin 16 := 0; let h : Sheet := testSheet 1;
      let v : Up := { sheet := 1, ord := 0, idx := 0, ts := 5, beg := 5, dur := 0, eff := 0, pen := {}, r := decodeRec (leBytes 32 3) };
      let s : State := ((up.brushing 3).setBrush 0 fun x => { x with force := some (testSheet 1), idx := 1, cur := some { sheet := 1, ord := 0, idx := 0, ts := 5, beg := 5, dur := 0, eff := 0, pen := {}, r := decodeRec (leBytes 32 3) } }); ((s.live t) ∧ (s.isOn (Pg.BRUSH b) = true) ∧ (s.brushes[b].cur = some v) ∧ ((s.upTo t).past v.stop = true) ∧ (s.brushes[b].force = some h) ∧ (dramBase ≤ h.list) ∧ ((∀ i : Nat, i < h.records → ((s.record h i).op ≤ 9 ∨ (s.record h i).op = opEnd)))) ∧ (answer (exec (.timedRecordEnd t b) s) fun u => decide ((u.brushes[b].cur = none) ∧ (u.brushes[b].prevEnd = v.stop) ∧ (u.brushes[b].lastStop = some v.stop)) ) = true) ∧
    (let t : Nat := 700; let b : Fin 16 := 0; let h : Sheet := testSheet 1; let r : Rec := decodeRec (leBytes 32 (0x205 + 600 * 2 ^ 32));
      let ts : Nat := 600; let s : State := (((up.brushing 5).setBrush 0 fun x => { x with force := some (testSheet 1) })).setBytes dramBase (leBytes 6 (0x205 + 600 * 2 ^ 32)); ((s.live t) ∧ (s.isOn (Pg.BRUSH b) = true) ∧ (s.brushes[b].force = some h) ∧ (s.brushes[b].ended = false) ∧ (s.brushes[b].cur = none) ∧ (s.record h s.brushes[b].idx = r) ∧ (s.startTick b r = some ts) ∧ ((r.op = opWaitTime ∨ r.op = opWaitMedium)) ∧ ((s.upTo t).past ts = true) ∧ (s.beforeCut b (later ts s.brushes[b].prevEnd) = true) ∧ (dramBase ≤ h.list) ∧ ((∀ i : Nat, i < h.records → ((s.record h i).op ≤ 9 ∨ (s.record h i).op = opEnd)))) ∧ (answer (exec (.waitComplete t b) s) fun u => decide ((u.brushes[b].prevEnd = later ts s.brushes[b].prevEnd) ∧ (u.brushes[b].anchorT = (if r.reanchor then ts else s.brushes[b].anchorT)) ∧ (u.pair (Pg.BRUSH b) Reg.BRUSH_ANCHOR_T_LO Reg.BRUSH_ANCHOR_T_HI = (if r.reanchor then ts else s.brushes[b].anchorT) % 2 ^ 48)) ) = true) ∧
    (let t : Nat := 700; let b : Fin 16 := 0;
      let s : State := (((up.page (Pg.BRUSH 0) 3).page (Pg.AXIS 0) 2).page (Pg.AXIS 1) 2).page (Pg.AXIS 2) 2 |>.setBrush 0 fun x => { x with parkDone := true, parkOk := 4 }; ((s.st (Pg.BRUSH b) = stStopping) ∧ (s.axesServe b = true) ∧ (s.brushes[b].parkDone = true) ∧ (4 ≤ s.brushes[b].parkOk)) ∧ (answer (exec (.parkEnd t b) s) fun u => decide ((u.st (Pg.BRUSH b) = stOff)) ) = true) ∧
    (let t : Nat := 700; let b : Fin 16 := 0;
      let s : State := (((up.page (Pg.BRUSH 0) 3).page (Pg.AXIS 0) 2).page (Pg.AXIS 1) 2).page (Pg.AXIS 2) 2 |>.setBrush 0 fun x => { x with parkFrames := 65536 }; ((s.st (Pg.BRUSH b) = stStopping) ∧ (s.axesServe b = true) ∧ (s.f (Pg.BRUSH b) Reg.BRUSH_START_CFG_PARK_TIMEOUT ≤ s.brushes[b].parkFrames)) ∧ (answer (exec (.parkTimeout t b) s) fun u => decide ((u.st (Pg.BRUSH b) = stOff) ∧ ((u.f (Pg.BRUSH b) Reg.ERROR_STICKY).testBit Sticky.BRUSH_PARK_TIMEOUT = true)) ) = true) := by
  iterate 6 refine ⟨by decide +kernel, ?_⟩
  decide +kernel

/-- Every clause of LaserPorts has a case that meets its hypotheses, and the command completes there as the clause says. -/
theorem runs_LaserPorts :
    (let t : Nat := 700; let b : Fin 16 := 0; let timerA : Bool := true; let kind : Fin 4 := 0; let e : Edge := ⟨704, 0⟩;
      let s : State := up.setLaser 0 fun l => { l with edgesA := [⟨704, 0⟩] }; ((((if timerA then s.lasers[b].edgesA else s.lasers[b].edgesB).find? fun e => e.kind == kind.val && decide (tickDiff e.tick t ≤ 8)) = some e) ∧ ((s.lasers[b].unpaired.find? fun q => q.1 != timerA && q.2.kind == kind.val && decide (tickDiff q.2.tick t ≤ 8)) = none)) ∧ (answer (exec (.gateEdge t b timerA kind) s) fun u => decide (((fun l : Laser => (if timerA then (if kind = 0 ∨ kind = 1 then l.gA else l.pA) else (if kind = 0 ∨ kind = 1 then l.gB else l.pB))) u.lasers[b] = decide (kind.val % 2 = 0)) ∧ ((if timerA then u.lasers[b].edgesA else u.lasers[b].edgesB) = (if timerA then s.lasers[b].edgesA else s.lasers[b].edgesB).erase e) ∧ (u.lasers[b].unpaired = s.lasers[b].unpaired ++ [(timerA, ({ tick := t, kind := kind.val } : Edge))])) ) = true) ∧
    (let t : Nat := 700; let b : Fin 16 := 0; let timerA : Bool := false; let kind : Fin 4 := 1; let e : Edge := ⟨704, 1⟩;
      let q : Bool × Edge := (true, ⟨699, 1⟩);
      let s : State := up.setLaser 0 fun l => { l with edgesB := [⟨704, 1⟩], unpaired := [(true, ⟨699, 1⟩)] }; ((((if timerA then s.lasers[b].edgesA else s.lasers[b].edgesB).find? fun e => e.kind == kind.val && decide (tickDiff e.tick t ≤ 8)) = some e) ∧ ((s.lasers[b].unpaired.find? fun q => q.1 != timerA && q.2.kind == kind.val && decide (tickDiff q.2.tick t ≤ 8)) = some q) ∧ (tickDiff q.2.tick t ≤ s.twinTol b)) ∧ (answer (exec (.gateEdge t b timerA kind) s) fun u => decide ((u.lasers[b].unpaired = s.lasers[b].unpaired.erase q) ∧ ((fun l : Laser => (if timerA then (if kind = 0 ∨ kind = 1 then l.gA else l.pA) else (if kind = 0 ∨ kind = 1 then l.gB else l.pB))) u.lasers[b] = decide (kind.val % 2 = 0)) ∧ (u.f (Pg.LASER b) Reg.LASER_TWIN_STATUS_MAX_DIFF = max (s.f (Pg.LASER b) Reg.LASER_TWIN_STATUS_MAX_DIFF) (tickDiff q.2.tick t))) ) = true) ∧
    (let t : Nat := 700; let b : Fin 16 := 0; let q : Bool × Edge := (true, ⟨600, 0⟩);
      let s : State := up.setLaser 0 fun l => { l with unpaired := [(true, ⟨600, 0⟩)] }; (((s.lasers[b].unpaired.find? fun q => decide (8 < sdiff48 ((s.upTo t).now : Nat) (q.2.tick : Nat))) = some q) ∧ (s.pageOn (Pg.LASER b) = true) ∧ (s.pwr.sysOn = true)) ∧ (answer (exec (.twinUnpairedTimeout t b) s) fun u => decide (((u.latched b.val).testBit causeTwin = true) ∧ (u.f Pg.KNIFE Reg.KNIFE_ARM_STATE = putBit (s.f Pg.KNIFE Reg.KNIFE_ARM_STATE) b false) ∧ ((u.f (Pg.LASER b) Reg.ERROR_STICKY).testBit Sticky.LASER_TWIN_MISMATCH = true) ∧ (u.lasers[b].gatePin = false)) ) = true) ∧
    (let n : Nat := 0; let half : Bool := true; let b : Fin 16 := 0;
      let s : State := (up.page (Pg.LASER 0) 2).setLaser 0 fun l => { l with words := [(17920, 0x80123456)] }; ((s.st (Pg.LASER b) ≠ stOff) ∧ ((s.st (Pg.LASER b) ≠ stStopping ∨ s.lasers[b].sent < 2))) ∧ (answer (exec (.powerBurstStart n half b) s) fun u => decide ((u.lasers[b].burst = some (latchOf n half, s.burstWord b (latchOf n half))) ∧ (u.fb (Pg.LASER b) Reg.LASER_PORT_STATUS_WORDS = true)) ) = true) ∧
    (let n : Nat := 0; let half : Bool := true; let b : Fin 16 := 0; let w : Nat := 0x80123456;
      let s : State := (up.page (Pg.LASER 0) 2).setLaser 0 fun l => { l with burst := some (17920, 0x80123456) }; ((s.lasers[b].burst = some (latchOf n half, w)) ∧ (s.st (Pg.LASER b) = stOn)) ∧ (answer (exec (.powerWordLatch n half b) s) fun u => decide ((u.f (Pg.LASER b) Reg.LASER_PORT_STATUS_LAST_POWER = bits w 8 16) ∧ (u.f (Pg.LASER b) Reg.LASER_WORDS_SENT = satU (s.f (Pg.LASER b) Reg.LASER_WORDS_SENT + 1) Reg.LASER_WORDS_SENT.width) ∧ (u.lasers[b].burst = none)) ) = true) ∧
    (let n : Nat := 0; let half : Bool := false; let b : Fin 16 := 0; let w : Nat := 0x80000000;
      let s : State := ((up.page (Pg.LASER 0) 1).setF (Pg.LASER 0) Reg.LASER_PORT_CFG_READY_REQ 0).setLaser 0 fun l => { l with burst := some (9920, 0x80000000), sent := 3 }; ((s.lasers[b].burst = some (latchOf n half, w)) ∧ (s.st (Pg.LASER b) = stStarting) ∧ (s.fb (Pg.LASER b) Reg.LASER_PORT_CFG_READY_REQ = false)) ∧ (answer (exec (.powerWordLatch n half b) s) fun u => decide ((u.st (Pg.LASER b) = (if 4 ≤ s.lasers[b].sent + 1 then stOn else stStarting)) ∧ (u.f (Pg.LASER b) Reg.LASER_WORDS_SENT = satU (s.f (Pg.LASER b) Reg.LASER_WORDS_SENT + 1) Reg.LASER_WORDS_SENT.width)) ) = true) ∧
    (let t : Nat := 700; let b : Fin 16 := 0; let v : Bool := false;
      let s : State := (((up.brushing 0).page (Pg.LASER 0) 2).setF (Pg.LASER 0) Reg.LASER_PORT_CFG_READY_REQ 0).setLaser 0 fun l => { l with readyIn := true }; ((s.pageOn (Pg.LASER b) = true) ∧ (v ≠ s.lasers[b].readyIn)) ∧ (answer (exec (.laserReadyChange t b v) s) fun u => decide ((u.lasers[b].readyIn = v) ∧ (u.fb (Pg.LASER b) Reg.LASER_PORT_STATUS_READY = v) ∧ (u.f (Pg.LASER b) Reg.LASER_READY_LOSSES = (if v = false ∧ s.isOn (Pg.BRUSH b) = true then satU (s.f (Pg.LASER b) Reg.LASER_READY_LOSSES + 1) Reg.LASER_READY_LOSSES.width else s.f (Pg.LASER b) Reg.LASER_READY_LOSSES))) ) = true) ∧
    (let t : Nat := 700; let b : Fin 16 := 0; let v : Bool := true;
      let s : State := ((up.brushing 0).page (Pg.LASER 0) 2).setF (Pg.LASER 0) Reg.LASER_PORT_CFG_FAULT_HALT 0; ((s.pageOn (Pg.LASER b) = true) ∧ (v ≠ s.lasers[b].faultIn)) ∧ (answer (exec (.laserFaultChange t b v) s) fun u => decide ((u.lasers[b].faultIn = v) ∧ (u.fb (Pg.LASER b) Reg.LASER_PORT_STATUS_FAULT = v) ∧ (u.f (Pg.LASER b) Reg.LASER_LASER_FAULTS = (if v = true then satU (s.f (Pg.LASER b) Reg.LASER_LASER_FAULTS + 1) Reg.LASER_LASER_FAULTS.width else s.f (Pg.LASER b) Reg.LASER_LASER_FAULTS))) ) = true) ∧
    (let t : Nat := 700; let b : Fin 16 := 0; let v : Bool := false;
      let s : State := (((up.brushing 0).page (Pg.LASER 0) 2).setF (Pg.LASER 0) Reg.LASER_PORT_CFG_READY_REQ 1).setLaser 0 fun l => { l with readyIn := true }; ((s.pageOn (Pg.LASER b) = true) ∧ (s.lasers[b].readyIn = true) ∧ (v = false) ∧ (s.fb (Pg.LASER b) Reg.LASER_PORT_CFG_READY_REQ = true) ∧ (s.isOn (Pg.BRUSH b) = true)) ∧ (answer (exec (.laserReadyChange t b v) s) fun u => decide ((u.st (Pg.BRUSH b) = stFault) ∧ (u.lasers[b].readyIn = false)) ) = true) ∧
    (let t : Nat := 700; let b : Fin 16 := 0; let v : Bool := true;
      let s : State := ((up.brushing 0).page (Pg.LASER 0) 2).setF (Pg.LASER 0) Reg.LASER_PORT_CFG_FAULT_HALT 1; ((s.pageOn (Pg.LASER b) = true) ∧ (s.lasers[b].faultIn = false) ∧ (v = true) ∧ (s.fb (Pg.LASER b) Reg.LASER_PORT_CFG_FAULT_HALT = true) ∧ (s.isOn (Pg.BRUSH b) = true)) ∧ (answer (exec (.laserFaultChange t b v) s) fun u => decide ((u.st (Pg.BRUSH b) = stFault) ∧ (u.lasers[b].faultIn = true)) ) = true) := by
  iterate 9 refine ⟨by decide +kernel, ?_⟩
  decide +kernel

/-- Every clause of PowerWords has a case that meets its hypotheses, and the command completes there as the clause says. -/
theorem runs_PowerWords :
    (let n : Nat := 0; let half : Bool := false; let b : Fin 16 := 0; let d : Sched := ⟨0, 0, 0, false, none, none⟩;
      let s : State := up; ((s.domOn 3 = true) ∧ (s.isOn (Pg.GLAZE b) = false) ∧ (((s.upTo (t0 n + (if half then 11840 else 3840))).sched b (latchOf n half)) = d)) ∧ (answer (exec (.glazeCompute n half b) s) fun u => decide ((u.lasers[b].words.head? = some (latchOf n half, powerWord (latchOf n half) (d.rule == 1 || d.rule == 2) (if d.rule = 0 then 0 else if d.rule = 3 then s.a (Pg.LASER b) Reg.LASER_IDLE_POWER else ((s.upTo (t0 n + (if half then 11840 else 3840))).weigh b (latchOf n half) d).2)))) ) = true) ∧
    (let n : Nat := 0; let half : Bool := true; let b : Fin 16 := 0;
      let s : State := ((up.brushing 3).setBrush 0 fun x => { x with force := some (testSheet 1), idx := 1, cur := some { sheet := 1, ord := 0, idx := 0, ts := 5, beg := 5, dur := 100000, eff := 0, pen := {}, r := { decodeRec (leBytes 32 0x403) with power := 500 } } }).page (Pg.GLAZE 0) 2; ((s.domOn 3 = true) ∧ (s.isOn (Pg.GLAZE b) = true) ∧ (s.memErr = []) ∧ ((((s.upTo (t0 n + (if half then 11840 else 3840))).sched b (latchOf n half)).rule = 1 ∨ ((s.upTo (t0 n + (if half then 11840 else 3840))).sched b (latchOf n half)).rule = 2))) ∧ (answer (exec (.glazeCompute n half b) s) fun u => decide ((u.f (Pg.GLAZE b) Reg.GLAZE_LATCHES = satU (s.f (Pg.GLAZE b) Reg.GLAZE_LATCHES + 1) Reg.GLAZE_LATCHES.width) ∧ (u.f (Pg.GLAZE b) Reg.GLAZE_STATUS_CLASS = ((s.upTo (t0 n + (if half then 11840 else 3840))).sched b (latchOf n half)).cls % 16) ∧ (u.f (Pg.GLAZE b) Reg.GLAZE_STATUS_FACTOR = u.glazes[b].f % 2 ^ 16) ∧ (u.lasers[b].words.head?.map Prod.fst = some (latchOf n half))) ) = true) := by
  iterate 1 refine ⟨by decide +kernel, ?_⟩
  decide +kernel

/-- Every clause of ServoEngines has a case that meets its hypotheses, and the command completes there as the clause says. -/
theorem runs_ServoEngines :
    (let m : Nat := 3; let e : Fin 4 := 1;
      let s : State := ((up.page (Pg.ENGINE 1) 2).page (Pg.AXIS 5) 2).setWord (regAddr (Pg.ENGINE 1) 0x40) 0x85#32; ((s.domOn 4 = true) ∧ (s.engineRuns e = true) ∧ (s.memErr = []) ∧ ((∀ a : Fin 64, s.st (Pg.AXIS a) ≠ stStarting)) ∧ ((∀ a : Fin 64, s.fb (Pg.AXIS a) Reg.COMMIT_PENDING = false))) ∧ (answer (exec (.engineFrameStart m) s) fun u => decide ((u.f (Pg.ENGINE e) Reg.ENGINE_LOAD_LAST = satU (48 + ((s.slotsOf e).map fun q => s.slotCost q.2 m).sum) 16) ∧ (u.f (Pg.ENGINE e) Reg.ENGINE_LOAD_PEAK = max (s.f (Pg.ENGINE e) Reg.ENGINE_LOAD_PEAK) (satU (48 + ((s.slotsOf e).map fun q => s.slotCost q.2 m).sum) 16))) ) = true) ∧
    (let t : Nat := 700; let e : Fin 4 := 1;
      let s : State := (up.setF (Pg.ENGINE 1) Reg.ENGINE_TRACE_CTRL_TRIG 1).setF (Pg.ENGINE 1) Reg.ENGINE_TRACE_STATUS_DONE 1; ((s.pageOn (Pg.ENGINE e) = true) ∧ (s.f (Pg.ENGINE e) Reg.ENGINE_TRACE_CTRL_TRIG ≠ 0)) ∧ (answer (exec (.traceArm t e) s) fun u => decide ((u.fb (Pg.ENGINE e) Reg.ENGINE_TRACE_STATUS_ARMED = true) ∧ (u.fb (Pg.ENGINE e) Reg.ENGINE_TRACE_STATUS_TRIGGERED = false) ∧ (u.fb (Pg.ENGINE e) Reg.ENGINE_TRACE_STATUS_DONE = false) ∧ (u.engines[e].count = 0)) ) = true) ∧
    (let t : Nat := 700; let e : Fin 4 := 1;
      let s : State := up.setF (Pg.ENGINE 1) Reg.ENGINE_TRACE_POST 7; ((s.pageOn (Pg.ENGINE e) = true) ∧ (s.f (Pg.ENGINE e) Reg.ENGINE_TRACE_CTRL_TRIG = 0) ∧ (s.f (Pg.ENGINE e) Reg.ENGINE_TRACE_POST ≠ 0)) ∧ (answer (exec (.traceArm t e) s) fun u => decide ((u.fb (Pg.ENGINE e) Reg.ENGINE_TRACE_STATUS_ARMED = true) ∧ (u.fb (Pg.ENGINE e) Reg.ENGINE_TRACE_STATUS_TRIGGERED = true) ∧ (u.engines[e].post = s.f (Pg.ENGINE e) Reg.ENGINE_TRACE_POST)) ) = true) ∧
    (let t : Nat := 700; let e : Fin 4 := 1;
      let s : State := (up.setF (Pg.ENGINE 1) Reg.ENGINE_TRACE_STATUS_ARMED 1).setF (Pg.ENGINE 1) Reg.ENGINE_TRACE_STATUS_TRIGGERED 1; ((s.pageOn (Pg.ENGINE e) = true) ∧ (s.fb (Pg.ENGINE e) Reg.ENGINE_TRACE_STATUS_ARMED = true)) ∧ (answer (exec (.traceStop t e) s) fun u => decide ((u.fb (Pg.ENGINE e) Reg.ENGINE_TRACE_STATUS_ARMED = false) ∧ (u.fb (Pg.ENGINE e) Reg.ENGINE_TRACE_STATUS_DONE = (s.fb (Pg.ENGINE e) Reg.ENGINE_TRACE_STATUS_DONE || s.fb (Pg.ENGINE e) Reg.ENGINE_TRACE_STATUS_TRIGGERED))) ) = true) ∧
    (let t : Nat := 700; let e : Fin 4 := 1; let v : Word := 0x12340011;
      let s : State := up; ((s.pageOn (Pg.ENGINE e) = true) ∧ (bits v.toNat 6 10 = 0) ∧ (bits v.toNat 4 2 ≠ 3)) ∧ (answer (exec (.injectWrite t e v) s) fun u => decide ((u.word (regAddr (Pg.ENGINE e) 0x06C) = v) ∧ (u.engines[e].prbs = 0x7FFF)) ) = true) := by
  iterate 4 refine ⟨by decide +kernel, ?_⟩
  decide +kernel

/-- Every clause of HeadLinks has a case that meets its hypotheses, and the command completes there as the clause says. -/
theorem runs_HeadLinks :
    (let n : Nat := 2; let h : Fin 16 := 3;
      let s : State := (((up.page (Pg.HEAD 3) 2).setF (Pg.HEAD 3) Reg.LANE_LANE_STATUS_PHASE 4).setHead 3 fun x => { x with judgeFrom := some 0 }); ((s.live (t0 n + 15360)) ∧ (s.laneUp (headLane h) = true) ∧ ((s.upTo (t0 n + 15360)).stepHolds (headLane h) = false) ∧ ((s.upTo (t0 n + 15360)).lineFree (headLane h) (t0 n + 15360) = true)) ∧ (answer (exec (.headDnLaunch n) s) fun u => decide ((u.f (Pg.HEAD h) Reg.HEAD_DN_SENT = satU (s.f (Pg.HEAD h) Reg.HEAD_DN_SENT + 1) Reg.HEAD_DN_SENT.width) ∧ (u.heads[h].dnTick = t0 n + 15360) ∧ (u.heads[h].judgeFrom = some (s.heads[h].judgeFrom.getD (n + 1))) ∧ (u.heads[h].mbxSend = false)) ) = true) ∧
    (let t : Nat := 33000; let h : Fin 16 := 3; let rx : Nat := 900; let w : Vector Word 8 := #v[2, 0, 0, 0, 7, 0x50000, 0, 0]; let k : Nat := 0;
      let s : State := (((up.page (Pg.HEAD 3) 2).setF (Pg.HEAD 3) Reg.LANE_LANE_STATUS_PHASE 4).setHead 3 fun x => { x with judgeFrom := some 0 }); ((s.live t) ∧ (s.laneUp (headLane h) = true) ∧ (w[0].toNat = frameOf t % 2 ^ 32) ∧ (s.heads[h].judgeFrom = some k) ∧ (k ≤ frameOf t) ∧ (w[5].toNat.testBit 0 = false) ∧ (t ≤ t0 (frameOf t) + 3840)) ∧ (answer (exec (.headUpReceive t h rx w) s) fun u => decide ((u.heads[h].gotA = some (frameOf t)) ∧ (u.heads[h].missRun = 0) ∧ (u.heads[h].pdA = some (frameOf t, bits w[4].toNat 0 16)) ∧ (u.f (Pg.HEAD h) Reg.HEAD_HEAD_STATUS_TURN = bits w[5].toNat 16 16)) ) = true) ∧
    (let t : Nat := 39000; let h : Fin 16 := 3; let rx : Nat := 900; let w : Vector Word 8 := #v[2, 0, 0, 0, 7, 0x50001, 0, 0]; let k : Nat := 0;
      let s : State := (((up.page (Pg.HEAD 3) 2).setF (Pg.HEAD 3) Reg.LANE_LANE_STATUS_PHASE 4).setHead 3 fun x => { x with judgeFrom := some 0 }); ((s.live t) ∧ (s.laneUp (headLane h) = true) ∧ (w[0].toNat = frameOf t % 2 ^ 32) ∧ (s.heads[h].judgeFrom = some k) ∧ (k ≤ frameOf t) ∧ (w[5].toNat.testBit 0 = true) ∧ (t ≤ t0 (frameOf t) + 11840)) ∧ (answer (exec (.headUpReceive t h rx w) s) fun u => decide ((u.heads[h].gotB = some (frameOf t)) ∧ (u.heads[h].pdB = some (frameOf t, bits w[4].toNat 0 16))) ) = true) ∧
    (let n : Nat := 2; let h : Fin 16 := 3; let k : Nat := 0;
      let s : State := (((up.page (Pg.HEAD 3) 2).setF (Pg.HEAD 3) Reg.LANE_LANE_STATUS_PHASE 4).setHead 3 fun x => { x with judgeFrom := some 0 }); ((s.laneUp (headLane h) = true) ∧ (s.heads[h].judgeFrom = some k) ∧ (k ≤ n) ∧ (s.heads[h].gotA ≠ some n)) ∧ (answer (exec (.sampleADeadline n) s) fun u => decide ((u.f (Pg.HEAD h) Reg.HEAD_UP_MISSING_A = satU (s.f (Pg.HEAD h) Reg.HEAD_UP_MISSING_A + 1) Reg.HEAD_UP_MISSING_A.width) ∧ (u.heads[h].missRun = s.heads[h].missRun + 1)) ) = true) ∧
    (let n : Nat := 2; let h : Fin 16 := 3; let k : Nat := 0;
      let s : State := (((up.page (Pg.HEAD 3) 2).setF (Pg.HEAD 3) Reg.LANE_LANE_STATUS_PHASE 4).setHead 3 fun x => { x with judgeFrom := some 0 }); ((s.laneUp (headLane h) = true) ∧ (s.heads[h].judgeFrom = some k) ∧ (k ≤ n) ∧ (s.heads[h].gotB ≠ some n)) ∧ (answer (exec (.sampleBDeadline n) s) fun u => decide ((u.f (Pg.HEAD h) Reg.HEAD_UP_MISSING_B = satU (s.f (Pg.HEAD h) Reg.HEAD_UP_MISSING_B + 1) Reg.HEAD_UP_MISSING_B.width) ∧ (u.heads[h].missRun = s.heads[h].missRun)) ) = true) ∧
    (let t : Nat := 700; let h : Fin 16 := 3;
      let s : State := (((up.page (Pg.HEAD 3) 2).setF (Pg.HEAD 3) Reg.LANE_LANE_STATUS_PHASE 4).setHead 3 fun x => { x with judgeFrom := some 0 }).setActWord (regAddr (Pg.HEAD 3) Reg.HEAD_MBX_OUT_HI.off) 0x120000#32; ((s.pageOn (Pg.HEAD h) = true) ∧ (s.fb (Pg.HEAD h) Reg.HEAD_MBX_STATUS_BUSY = false)) ∧ (answer (exec (.mbxSend t h) s) fun u => decide ((u.fb (Pg.HEAD h) Reg.HEAD_MBX_STATUS_BUSY = true) ∧ (u.fb (Pg.HEAD h) Reg.HEAD_MBX_STATUS_DONE = false) ∧ (u.heads[h].mbxSend = true) ∧ (u.heads[h].mbxTag = bits (s.a (Pg.HEAD h) Reg.HEAD_MBX_OUT_HI) 16 8) ∧ (u.heads[h].mbxMsg = s.actPair (Pg.HEAD h) Reg.HEAD_MBX_OUT_LO Reg.HEAD_MBX_OUT_HI)) ) = true) ∧
    (let t : Nat := 2000000; let h : Fin 16 := 3;
      let s : State := (((up.page (Pg.HEAD 3) 2).setF (Pg.HEAD 3) Reg.LANE_LANE_STATUS_PHASE 4).setHead 3 fun x => { x with judgeFrom := some 0 }).setF (Pg.HEAD 3) Reg.HEAD_MBX_STATUS_BUSY 1; ((s.fb (Pg.HEAD h) Reg.HEAD_MBX_STATUS_BUSY = true) ∧ ((s.upTo t).past (s.heads[h].mbxAt + 64 * 16000) = true)) ∧ (answer (exec (.mbxTimeout t h) s) fun u => decide ((u.fb (Pg.HEAD h) Reg.HEAD_MBX_STATUS_BUSY = false) ∧ (u.heads[h].mbxSend = false)) ) = true) := by
  iterate 6 refine ⟨by decide +kernel, ?_⟩
  decide +kernel

/-- Every clause of Steppers has a case that meets its hypotheses, and the command completes there as the clause says. -/
theorem runs_Steppers :
    (let q : Nat := 3; let n : Fin 8 := 4;
      let s : State := (up.page (Pg.STEP 4) 1).setStepper 4 fun x => { x with writes := [(5, 77)] }; ((s.domOn 5 = true) ∧ ((∀ k : Fin 8, s.zeroLimits k (planTick q) = false))) ∧ (answer (exec (.planTick q) s) fun u => decide ((u.steppers[n].tick = q) ∧ (u.f (Pg.STEP n) Reg.STEP_TICK = q % 2 ^ 32) ∧ (u.pair (Pg.STEP n) Reg.STEP_POS_LO Reg.STEP_POS_HI = wrapU 64 u.steppers[n].g.pos) ∧ (u.steppers[n].target = (s.steppers[n].retarget (planTick q)).target)) ) = true) ∧
    (let q : Nat := 3; let n : Fin 8 := 4;
      let s : State := ((((up.page (Pg.STEP 4) 2).setActWord (regAddr (Pg.STEP 4) Reg.STEP_V_LO.off) 900000).setActWord (regAddr (Pg.STEP 4) Reg.STEP_A_LO.off) 90000).setActWord (regAddr (Pg.STEP 4) Reg.STEP_J_LO.off) 9000).setStepper 4 fun x => { x with target := 77 }; ((s.domOn 5 = true) ∧ ((∀ k : Fin 8, s.zeroLimits k (planTick q) = false)) ∧ (s.st (Pg.STEP n) = stOn) ∧ (s.fb (Pg.STEP n) Reg.COMMIT_PENDING = false) ∧ ((s.stepLim n).ok = true)) ∧ (answer (exec (.planTick q) s) fun u => decide ((u.steppers[n].g = (genStep (s.stepLim n) ((s.steppers[n].retarget (planTick q)).target * 2 ^ 24) (s.fb (Pg.STEP n) Reg.STEP_STATUS_HOLDING) s.steppers[n].g).1)) ) = true) ∧
    (let t : Nat := 700; let n : Fin 8 := 4; let v : Word := 0xFF;
      let s : State := up.setWord (regAddr (Pg.STEP 4) Reg.STEP_TARGET_LO.off) 0xFFFFFFFE#32; ((s.pageOn (Pg.STEP n) = true) ∧ (v.toNat < 2 ^ 8)) ∧ (answer (exec (.stepTargetWrite t n v) s) fun u => decide ((u.steppers[n].writes = s.steppers[n].writes ++ [((s.upTo t).now, signed 40 ((s.word (regAddr (Pg.STEP n) Reg.STEP_TARGET_LO.off)).toNat + v.toNat * 2 ^ 32))])) ) = true) ∧
    (let t : Nat := 420000; let n : Fin 8 := 4; let di0 : List (Nat × Bool) := upPins 0 [0x5A050000, 0x10002, 3, frameCrc 0x5A050000 0x10002 3];
      let di1 : List (Nat × Bool) := []; let di2 : List (Nat × Bool) := []; let di3 : List (Nat × Bool) := [];
      let s : State := (up.page (Pg.STEP 4) 2).setStepper 4 fun x => { x with tick := 6, checked := false }; ((s.steppers[n].checked = false) ∧ (s.st (Pg.STEP n) ≠ stOff) ∧ ((s.upTo t).past (planTick s.steppers[n].tick + diSample (s.f (Pg.STEP n) Reg.STEP_PORT_CFG_DI_DELAY) 127) = true) ∧ ((bits (upWord (di0 ++ di1 ++ di2 ++ di3) (s.f (Pg.STEP n) Reg.STEP_PORT_CFG_DI_DELAY) 0) 24 8 = 0x5A ∧ (upWord (di0 ++ di1 ++ di2 ++ di3) (s.f (Pg.STEP n) Reg.STEP_PORT_CFG_DI_DELAY) 3) = frameCrc (upWord (di0 ++ di1 ++ di2 ++ di3) (s.f (Pg.STEP n) Reg.STEP_PORT_CFG_DI_DELAY) 0) (upWord (di0 ++ di1 ++ di2 ++ di3) (s.f (Pg.STEP n) Reg.STEP_PORT_CFG_DI_DELAY) 1) (upWord (di0 ++ di1 ++ di2 ++ di3) (s.f (Pg.STEP n) Reg.STEP_PORT_CFG_DI_DELAY) 2) ∧ bits (upWord (di0 ++ di1 ++ di2 ++ di3) (s.f (Pg.STEP n) Reg.STEP_PORT_CFG_DI_DELAY) 0) 16 8 = (s.steppers[n].tick + 255) % 256))) ∧ (answer (exec (.upFrameCheck t n di0 di1 di2 di3) s) fun u => decide ((u.f (Pg.STEP n) Reg.STEP_MEAS_I = (upWord (di0 ++ di1 ++ di2 ++ di3) (s.f (Pg.STEP n) Reg.STEP_PORT_CFG_DI_DELAY) 1) % 2 ^ Reg.STEP_MEAS_I.width) ∧ (u.f (Pg.STEP n) Reg.STEP_MEAS_V = (upWord (di0 ++ di1 ++ di2 ++ di3) (s.f (Pg.STEP n) Reg.STEP_PORT_CFG_DI_DELAY) 2) % 2 ^ Reg.STEP_MEAS_V.width) ∧ (u.f (Pg.STEP n) Reg.STEP_STATUS_LINK_MISS = 0) ∧ (u.steppers[n].checked = true)) ) = true) ∧
    (let t : Nat := 420000; let n : Fin 8 := 4; let di0 : List (Nat × Bool) := upPins 0 [0x5A050000, 0x10002, 3, 0];
      let di1 : List (Nat × Bool) := []; let di2 : List (Nat × Bool) := []; let di3 : List (Nat × Bool) := [];
      let s : State := (up.page (Pg.STEP 4) 2).setStepper 4 fun x => { x with tick := 6, checked := false }; ((s.steppers[n].checked = false) ∧ (s.st (Pg.STEP n) ≠ stOff) ∧ ((s.upTo t).past (planTick s.steppers[n].tick + diSample (s.f (Pg.STEP n) Reg.STEP_PORT_CFG_DI_DELAY) 127) = true) ∧ (¬ (bits (upWord (di0 ++ di1 ++ di2 ++ di3) (s.f (Pg.STEP n) Reg.STEP_PORT_CFG_DI_DELAY) 0) 24 8 = 0x5A ∧ (upWord (di0 ++ di1 ++ di2 ++ di3) (s.f (Pg.STEP n) Reg.STEP_PORT_CFG_DI_DELAY) 3) = frameCrc (upWord (di0 ++ di1 ++ di2 ++ di3) (s.f (Pg.STEP n) Reg.STEP_PORT_CFG_DI_DELAY) 0) (upWord (di0 ++ di1 ++ di2 ++ di3) (s.f (Pg.STEP n) Reg.STEP_PORT_CFG_DI_DELAY) 1) (upWord (di0 ++ di1 ++ di2 ++ di3) (s.f (Pg.STEP n) Reg.STEP_PORT_CFG_DI_DELAY) 2) ∧ bits (upWord (di0 ++ di1 ++ di2 ++ di3) (s.f (Pg.STEP n) Reg.STEP_PORT_CFG_DI_DELAY) 0) 16 8 = (s.steppers[n].tick + 255) % 256))) ∧ (answer (exec (.upFrameCheck t n di0 di1 di2 di3) s) fun u => decide ((u.f (Pg.STEP n) Reg.STEP_LINK_ERRORS = satU (s.f (Pg.STEP n) Reg.STEP_LINK_ERRORS + 1) Reg.STEP_LINK_ERRORS.width) ∧ (u.steppers[n].checked = true) ∧ (u.steppers[n].run = 0)) ) = true) ∧
    (let t : Nat := 20000; let n : Fin 8 := 4;
      let s : State := (up.page (Pg.STEP 4) 3).setStepper 4 fun x => { x with off := 4 }; ((s.st (Pg.STEP n) = stStopping) ∧ (s.steppers[n].off = 4) ∧ ((s.upTo t).past (planTick s.steppers[n].tick + 16960) = true)) ∧ (answer (exec (.stepperHoldEnd t n) s) fun u => decide ((u.st (Pg.STEP n) = stOff) ∧ (u.steppers[n].down = [])) ) = true) := by
  iterate 5 refine ⟨by decide +kernel, ?_⟩
  decide +kernel

/-- Every clause of LightPorts has a case that meets its hypotheses, and the command completes there as the clause says. -/
theorem runs_LightPorts :
    (let t : Nat := 700; let n : Fin 4 := 2; let v : Word := 0;
      let s : State := ((((up.page (Pg.LTPORT 2) 2).page Pg.LIGHT 2).setF (Pg.LTPORT 2) Reg.LTPORT_PORT_CFG_DRIVERS 1).setLight 2 fun x => { x with syncs := [50000] }).setWord (regAddr (Pg.LTPORT 2) Reg.LTPORT_SYNC_AT_LO.off) 100000#32; ((s.pageOn (Pg.LTPORT n) = true) ∧ (v.toNat < 65536) ∧ (((s.upTo t).lightReturn n).lights[n].syncs.length < 4) ∧ ((((s.upTo t).lightReturn n).lights[n].syncs.getLast?.all fun w => decide (0 < sdiff48 (near48 (s.upTo t).now ((s.word (regAddr (Pg.LTPORT n) Reg.LTPORT_SYNC_AT_LO.off)).toNat + v.toNat * 2 ^ 32) : Nat) (w : Nat))) = true) ∧ (sdiff48 ((s.upTo t).now : Nat) (s.syncStart n (near48 (s.upTo t).now ((s.word (regAddr (Pg.LTPORT n) Reg.LTPORT_SYNC_AT_LO.off)).toNat + v.toNat * 2 ^ 32)) - 1280) ≤ 0)) ∧ (answer (exec (.syncAtWrite t n v) s) fun u => decide ((u.lights[n].syncs = ((s.upTo t).lightReturn n).lights[n].syncs ++ [near48 (s.upTo t).now ((s.word (regAddr (Pg.LTPORT n) Reg.LTPORT_SYNC_AT_LO.off)).toNat + v.toNat * 2 ^ 32)])) ) = true) ∧
    (let t : Nat := 60000; let n : Fin 4 := 2; let r0 : Word := BitVec.ofNat 32 (ltWord true 0 3 0); let r1 : Word := 0;
      let r2 : Word := BitVec.ofNat 32 (ltCrc (ltWord true 0 3 0) 0); let v : Nat := 50000; let r : List Nat := [];
      let s : State := ((((up.page (Pg.LTPORT 2) 2).page Pg.LIGHT 2).setF (Pg.LTPORT 2) Reg.LTPORT_PORT_CFG_DRIVERS 1).setLight 2 fun x => { x with syncs := [50000] }); ((((s.upTo t).lightReturn n).isOn (Pg.LTPORT n) = true) ∧ (((s.upTo t).lightReturn n).lights[n].syncs = v :: r) ∧ ((s.upTo t).past (s.syncStart n v - 128) = true) ∧ (((s.upTo t).lightReturn n).lights[n].gapOk (wrapU 64 (s.syncStart n v)) = true) ∧ (0 ≤ sdiff48 (s.syncStart n v) (((s.upTo t).lightReturn n).entered (Pg.LTPORT n) : Nat))) ∧ (answer (exec (.lightSyncBurst t n r0 r1 r2) s) fun u => decide ((u.lights[n].syncs = r) ∧ (u.f (Pg.LTPORT n) Reg.LTPORT_SYNCS_SENT = satU (s.f (Pg.LTPORT n) Reg.LTPORT_SYNCS_SENT + 1) Reg.LTPORT_SYNCS_SENT.width) ∧ (u.f (Pg.LTPORT n) Reg.LTPORT_FRAMES = satU (s.f (Pg.LTPORT n) Reg.LTPORT_FRAMES + 1) Reg.LTPORT_FRAMES.width) ∧ (u.lights[n].lastEnd = some (burstEnd (s.drivers n) (wrapU 64 (s.syncStart n v)))) ∧ (u.lights[n].line = some ((wrapU 64 (s.syncStart n v)), ltWord true 0 3 0, s.drivers n - 1))) ) = true) ∧
    (let t : Nat := 700; let n : Fin 4 := 2; let v : Word := 0x80100012;
      let s : State := ((((up.page (Pg.LTPORT 2) 2).page Pg.LIGHT 2).setF (Pg.LTPORT 2) Reg.LTPORT_PORT_CFG_DRIVERS 1).setLight 2 fun x => { x with fails := 0 }).setF (Pg.LTPORT 2) Reg.LTPORT_CMD_DATA 9; ((s.pageOn (Pg.LTPORT n) = true) ∧ (bits v.toNat 30 1 = 0) ∧ (bits v.toNat 8 12 = 0) ∧ (bits v.toNat 20 4 < 3) ∧ (((s.upTo t).lightReturn n).lights[n].cmds.length < 64)) ∧ (answer (exec (.cmdHdrWrite t n v) s) fun u => decide ((u.lights[n].cmds = ((s.upTo t).lightReturn n).lights[n].cmds ++ [⟨s.f (Pg.LTPORT n) Reg.LTPORT_CMD_DATA, v.toNat % 2 ^ 30, v.toNat.testBit 31, v.toNat.testBit 31⟩])) ) = true) ∧
    (let t : Nat := 700; let n : Fin 4 := 2; let r0 : Word := 0x80100012; let r1 : Word := 9; let r2 : Word := BitVec.ofNat 32 (ltCrc 0x80100012 9);
      let e : LtCmd := ⟨9, 0x100012, false, false⟩; let r : List LtCmd := [];
      let s : State := (((((up.page (Pg.LTPORT 2) 2).page Pg.LIGHT 2).setF (Pg.LTPORT 2) Reg.LTPORT_PORT_CFG_DRIVERS 1).setLight 2 fun x => { x with cmds := [⟨9, 0x100012, false, false⟩] })).setF (Pg.LTPORT 2) Reg.LTPORT_PORT_CFG_COMP_EN 0; ((((s.upTo t).lightReturn n).isOn (Pg.LTPORT n) = true) ∧ (((s.upTo t).lightReturn n).lights[n].gapOk (wrapU 64 (((s.upTo t).now : Int) + 128)) = true) ∧ (((s.upTo t).lightReturn n).burstFits n (wrapU 64 (((s.upTo t).now : Int) + 128)) = true) ∧ (((s.upTo t).lightReturn n).lights[n].pollDue = false) ∧ (((s.upTo t).lightReturn n).lights[n].nopDue = false) ∧ (((s.upTo t).lightReturn n).lights[n].cmds = e :: r) ∧ (e.wait = false) ∧ (s.fb (Pg.LTPORT n) Reg.LTPORT_PORT_CFG_COMP_EN = false)) ∧ (answer (exec (.lightBurst t n r0 r1 r2) s) fun u => decide ((u.lights[n].cmds = r) ∧ (u.f (Pg.LTPORT n) Reg.LTPORT_FRAMES = satU (s.f (Pg.LTPORT n) Reg.LTPORT_FRAMES + 1) Reg.LTPORT_FRAMES.width) ∧ (u.lights[n].lastEnd = some (burstEnd (s.drivers n) (wrapU 64 (((s.upTo t).now : Int) + 128)))) ∧ (u.lights[n].line = some ((wrapU 64 (((s.upTo t).now : Int) + 128)), 2 ^ 31 + e.head, e.data))) ) = true) ∧
    (let t : Nat := 700; let n : Fin 4 := 2; let r0 : Word := BitVec.ofNat 32 (ltWord false 0 2 0xF1); let r1 : Word := 5;
      let r2 : Word := BitVec.ofNat 32 (ltCrc (ltWord false 0 2 0xF1) 5);
      let s : State := ((((up.page (Pg.LTPORT 2) 2).page Pg.LIGHT 2).setF (Pg.LTPORT 2) Reg.LTPORT_PORT_CFG_DRIVERS 1).setLight 2 fun x => { x with pollDue := true }); ((((s.upTo t).lightReturn n).isOn (Pg.LTPORT n) = true) ∧ (((s.upTo t).lightReturn n).lights[n].gapOk (wrapU 64 (((s.upTo t).now : Int) + 128)) = true) ∧ (((s.upTo t).lightReturn n).burstFits n (wrapU 64 (((s.upTo t).now : Int) + 128)) = true) ∧ (((s.upTo t).lightReturn n).lights[n].pollDue = true)) ∧ (answer (exec (.lightBurst t n r0 r1 r2) s) fun u => decide ((u.lights[n].pollDue = false) ∧ (u.lights[n].next = (((s.upTo t).lightReturn n).lights[n].next + 1) % max 1 (s.drivers n)) ∧ (u.f (Pg.LTPORT n) Reg.LTPORT_FRAMES = satU (s.f (Pg.LTPORT n) Reg.LTPORT_FRAMES + 1) Reg.LTPORT_FRAMES.width) ∧ (u.lights[n].back.map LtBack.kind = some (.poll ((s.upTo t).lightReturn n).lights[n].next))) ) = true) ∧
    (let t : Nat := 64000000000; let n : Fin 4 := 2;
      let s : State := ((((up.page (Pg.LTPORT 2) 2).page Pg.LIGHT 2).setF (Pg.LTPORT 2) Reg.LTPORT_PORT_CFG_DRIVERS 1).setLight 2 fun x => { x with fails := 0 }); ((s.isOn (Pg.LTPORT n) = true) ∧ ((s.upTo t).past (s.lights[n].pollAt + s.f (Pg.LTPORT n) Reg.LTPORT_PORT_CFG_POLL * 6400000) = true)) ∧ (answer (exec (.tempPoll t n) s) fun u => decide ((u.lights[n].pollDue = true) ∧ (u.lights[n].pollAt = (s.upTo t).now)) ) = true) ∧
    (let t : Nat := 12800007; let n : Fin 4 := 2;
      let s : State := ((((up.page (Pg.LTPORT 2) 2).page Pg.LIGHT 2).setF (Pg.LTPORT 2) Reg.LTPORT_PORT_CFG_DRIVERS 1).setLight 2 fun x => { x with lastEnd := some 7 }); ((s.isOn (Pg.LTPORT n) = true) ∧ ((s.upTo t).past (s.lights[n].lastEnd.getD (s.entered (Pg.LTPORT n)) + 12800000) = true)) ∧ (answer (exec (.keepAlive t n) s) fun u => decide ((u.lights[n].nopDue = true)) ) = true) ∧
    (let t : Nat := 700; let n : Fin 4 := 2;
      let s : State := ((((up.page (Pg.LTPORT 2) 2).page Pg.LIGHT 2).setF (Pg.LTPORT 2) Reg.LTPORT_PORT_CFG_DRIVERS 1).setLight 2 fun x => { x with resps := [⟨1, true, 2, 3⟩] }); ((s.pageOn (Pg.LTPORT n) = true) ∧ (s.lights[n].back = none)) ∧ (answer (exec (.respPop t n) s) fun u => decide ((u.lights[n].resps = s.lights[n].resps.drop 1) ∧ (u.lights[n].cmds = s.lights[n].cmds)) ) = true) ∧
    (let t : Nat := 700; let n : Fin 4 := 2; let b : LtBack := ⟨.host, 500, 0x80200010, 0, 0x80280010, 77, ltCrc 0x80280010 77⟩;
      let s : State := ((((up.page (Pg.LTPORT 2) 2).page Pg.LIGHT 2).setF (Pg.LTPORT 2) Reg.LTPORT_PORT_CFG_DRIVERS 1).setLight 2 fun x => { x with back := some ⟨.host, 500, 0x80200010, 0, 0x80280010, 77, ltCrc 0x80280010 77⟩ }); ((s.pageOn (Pg.LTPORT n) = true) ∧ (s.lights[n].back = some b) ∧ (b.kind = .host) ∧ ((s.upTo t).past b.lastEdge = true) ∧ (returnOk b.w0 b.w1 b.r0 b.r1 b.r2 = true) ∧ (s.lights[n].resps.length < 16)) ∧ (answer (exec (.respPop t n) s) fun u => decide ((u.lights[n].resps = (s.lights[n].resps ++ [(⟨b.r1, b.r0.testBit 19, bits b.r0 24 5, bits b.r0 0 8⟩ : LtResp)]).drop 1) ∧ (u.lights[n].fails = 0)) ) = true) := by
  iterate 8 refine ⟨by decide +kernel, ?_⟩
  decide +kernel

/-- Every clause of CameraPackets has a case that meets its hypotheses, and the command completes there as the clause says. -/
theorem runs_CameraPackets :
    (let t : Nat := 700; let p : Fin 4 := 1; let vc : Fin 16 := 0; let fn : BitVec 16 := 1; let corrected : Bool := false; let k : Fin 32 := 9;
      let s : State := (((up.page (Pg.CAM 1) 2).page (Pg.STREAM 9) 2).page Pg.VISION 2).setStream 9 fun x => { x with nextId := 4 }; ((s.isOn (Pg.CAM p) = true) ∧ (k ∈ s.vcContexts p vc.val)) ∧ (answer (exec (.csiFrameStart t p vc fn corrected) s) fun u => decide ((u.streams[k].frames.length = s.streams[k].frames.length + 1) ∧ (u.streams[k].nextId = s.streams[k].nextId + 1) ∧ (u.streams[k].frames.getLast?.map VFrame.fsTime = some (s.upTo t).now) ∧ (u.fb (Pg.STREAM k) Reg.STREAM_STATUS_OPEN = true) ∧ (u.f (Pg.CAM p) Reg.CAM_PACKETS = satU (s.f (Pg.CAM p) Reg.CAM_PACKETS + 1) Reg.CAM_PACKETS.width)) ) = true) ∧
    (let t : Nat := 700; let p : Fin 4 := 1; let vc : Fin 16 := 0; let corrected : Bool := true; let k : Fin 32 := 9;
      let s : State := (((up.page (Pg.CAM 1) 2).page (Pg.STREAM 9) 2).page Pg.VISION 2).setStream 9 fun x => { x with frames := [{ id := 4, fsTime := 600, fn := 1, seq := 2, setId := 0, mid := 0, noTrig := false, resynced := false, throttled := false, black := 0, ratio := 0, knee := 0, slot := none, rois := [{}] }] }; ((s.isOn (Pg.CAM p) = true) ∧ (k ∈ s.vcContexts p vc.val) ∧ (s.streams[k].open?.isSome = true)) ∧ (answer (exec (.csiFrameEnd t p vc corrected) s) fun u => decide ((u.streams[k].open? = none) ∧ (u.fb (Pg.STREAM k) Reg.STREAM_STATUS_OPEN = false) ∧ (u.f (Pg.STREAM k) Reg.STREAM_FRAMES = satU (s.f (Pg.STREAM k) Reg.STREAM_FRAMES + 1) Reg.STREAM_FRAMES.width)) ) = true) ∧
    (let t : Nat := 700; let p : Fin 4 := 1; let vc : Fin 16 := 0; let dt : Fin 64 := 0x2A; let l : List Byte := [1, 2, 3]; let crcOk : Bool := true;
      let corrected : Bool := false; let k : Fin 32 := 9;
      let g : VFrame := { id := 4, fsTime := 600, fn := 1, seq := 2, setId := 0, mid := 0, noTrig := false, resynced := false, throttled := false, black := 0, ratio := 0, knee := 0, slot := none, rois := [{}] };
      let s : State := (((((up.page (Pg.CAM 1) 2).page (Pg.STREAM 9) 2).page Pg.VISION 2).setStream 9 fun x => { x with frames := [{ id := 4, fsTime := 600, fn := 1, seq := 2, setId := 0, mid := 0, noTrig := false, resynced := false, throttled := false, black := 0, ratio := 0, knee := 0, slot := none, rois := [{}] }] }).setF (Pg.STREAM 9) Reg.STREAM_CTX_CFG_DT 0x2A).setF (Pg.STREAM 9) Reg.STREAM_GEOM_HEIGHT 5; ((s.isOn (Pg.CAM p) = true) ∧ (((s.vcContexts p vc.val).filter fun (k : Fin 32) => takesType dt.val && s.f (Pg.STREAM k.val) Reg.STREAM_CTX_CFG_DT == dt.val) = [k]) ∧ (s.streams[k].open? = some g) ∧ (g.seen < s.f (Pg.STREAM k) Reg.STREAM_GEOM_HEIGHT) ∧ (bufUsed s.cams[p] + l.length ≤ 65536) ∧ (crcOk = true)) ∧ (answer (exec (.csiLongPacket t p vc dt l crcOk corrected) s) fun u => decide ((u.cams[p] = s.cams[p] ++ [(⟨k, g.id, g.seen, s.camPorts[p].pos, l⟩ : Packet)]) ∧ (u.f (Pg.CAM p) Reg.CAM_PACKETS = satU (s.f (Pg.CAM p) Reg.CAM_PACKETS + 1) Reg.CAM_PACKETS.width) ∧ (u.streams[k].open? = some { g with seen := g.seen + 1, lines := g.lines + 1 })) ) = true) ∧
    (let t : Nat := 700; let p : Fin 4 := 1; let kind : CsiDiscard := .header (some 1);
      let s : State := (((up.page (Pg.CAM 1) 2).page (Pg.STREAM 9) 2).page Pg.VISION 2).setStream 9 fun x => { x with nextId := 4 }; ((s.isOn (Pg.CAM p) = true)) ∧ (answer (exec (.csiUnmatchedPacket t p kind) s) fun u => decide ((u.f (Pg.CAM p) Reg.CAM_UNMATCHED = (if (kind matches .short _) then satU (s.f (Pg.CAM p) Reg.CAM_UNMATCHED + 1) Reg.CAM_UNMATCHED.width else s.f (Pg.CAM p) Reg.CAM_UNMATCHED)) ∧ (u.f (Pg.CAM p) Reg.CAM_PHY_ERRORS = (if (kind matches .sot) then satU (s.f (Pg.CAM p) Reg.CAM_PHY_ERRORS + 1) Reg.CAM_PHY_ERRORS.width else s.f (Pg.CAM p) Reg.CAM_PHY_ERRORS)) ∧ (u.f (Pg.CAM p) Reg.CAM_HDR_UNCORR = (if (kind matches .header _) then satU (s.f (Pg.CAM p) Reg.CAM_HDR_UNCORR + 1) Reg.CAM_HDR_UNCORR.width else s.f (Pg.CAM p) Reg.CAM_HDR_UNCORR)) ∧ ((∀ j : Fin 8, kind = .header (some j) → s.isOn (Pg.STREAM (8 * p.val + j.val)) = true → u.f (Pg.STREAM (8 * p.val + j.val)) Reg.STREAM_LINES_LOST = satU (s.f (Pg.STREAM (8 * p.val + j.val)) Reg.STREAM_LINES_LOST + 1) Reg.STREAM_LINES_LOST.width))) ) = true) ∧
    (let t : Nat := 10000700; let k : Fin 32 := 9;
      let g : VFrame := { id := 4, fsTime := 600, fn := 1, seq := 2, setId := 0, mid := 0, noTrig := false, resynced := false, throttled := false, black := 0, ratio := 0, knee := 0, slot := none, rois := [{}] };
      let s : State := (((up.page (Pg.CAM 1) 2).page (Pg.STREAM 9) 2).page Pg.VISION 2).setStream 9 fun x => { x with frames := [{ id := 4, fsTime := 600, fn := 1, seq := 2, setId := 0, mid := 0, noTrig := false, resynced := false, throttled := false, black := 0, ratio := 0, knee := 0, slot := none, rois := [{}] }] }; ((s.streams[k].open? = some g) ∧ ((s.upTo t).past (g.fsTime + s.f (Pg.STREAM k) Reg.STREAM_FRAME_LIMIT) = true)) ∧ (answer (exec (.frameLimitExpiry t k) s) fun u => decide ((u.streams[k].open? = none) ∧ (u.f (Pg.STREAM k) Reg.STREAM_TRUNCATED = satU (s.f (Pg.STREAM k) Reg.STREAM_TRUNCATED + 1) Reg.STREAM_TRUNCATED.width) ∧ (u.f (Pg.STREAM k) Reg.STREAM_FRAMES = satU (s.f (Pg.STREAM k) Reg.STREAM_FRAMES + 1) Reg.STREAM_FRAMES.width)) ) = true) := by
  iterate 4 refine ⟨by decide +kernel, ?_⟩
  decide +kernel

/-- Every clause of VisionPipeline has a case that meets its hypotheses, and the command completes there as the clause says. -/
theorem runs_VisionPipeline :
    (let t : Nat := 700; let p : Fin 4 := 1; let q : Packet := ⟨9, 4, 0, 0, [1, 2, 3]⟩; let r : List Packet := [];
      let g : VFrame := { id := 4, fsTime := 600, fn := 1, seq := 2, setId := 0, mid := 0, noTrig := false, resynced := false, throttled := false, black := 0, ratio := 0, knee := 0, slot := none, rois := [{}] };
      let s : State := (({ (((up.page (Pg.CAM 1) 2).page (Pg.STREAM 9) 2).page Pg.VISION 2).setStream 9 fun x => { x with frames := [{ id := 4, fsTime := 600, fn := 1, seq := 2, setId := 0, mid := 0, noTrig := false, resynced := false, throttled := false, black := 0, ratio := 0, knee := 0, slot := none, rois := [{}] }] } with cams := #v[[], [⟨9, 4, 0, 0, [1, 2, 3]⟩], [], []] }).setF (Pg.STREAM 9) Reg.STREAM_CTX_CFG_DT 0x2A).setF (Pg.STREAM 9) Reg.STREAM_GEOM_WIDTH 3; ((s.cams[p] = q :: r) ∧ ((s.streams[q.ctx % 32]).frames.find? (fun f => f.id == q.frame) = some g) ∧ ((g.throttled = true ∨ (rawWidth (s.f (Pg.STREAM (q.ctx % 32)) Reg.STREAM_CTX_CFG_DT)).isSome = true ∨ s.f (Pg.STREAM (q.ctx % 32)) Reg.STREAM_CTX_CFG_KIND = 1)) ∧ ((s.f (Pg.STREAM (q.ctx % 32)) Reg.STREAM_CTX_CFG_KIND ≠ 0 ∨ s.roisOk ⟨q.ctx % 32, Nat.mod_lt _ (by decide)⟩ = true)) ∧ (s.slotOk ⟨q.ctx % 32, Nat.mod_lt _ (by decide)⟩ g = true) ∧ (s.dmaBreach = false) ∧ ((∀ j ∈ g.slot, s.askable (s.slotAddr ⟨q.ctx % 32, Nat.mod_lt _ (by decide)⟩ j + q.line * s.stride ⟨q.ctx % 32, Nat.mod_lt _ (by decide)⟩) (s.stride ⟨q.ctx % 32, Nat.mod_lt _ (by decide)⟩)))) ∧ (answer (exec (.pipelinePacket t p) s) fun u => decide ((u.cams[p] = r) ∧ (u.f (Pg.CAM p) Reg.CAM_CAM_STATUS_BUF_USED = (bufUsed r + 63) / 64 % 2 ^ Reg.CAM_CAM_STATUS_BUF_USED.width)) ) = true) ∧
    (let t : Nat := 700; let k : Fin 32 := 9;
      let g : VFrame := { id := 4, fsTime := 600, fn := 1, seq := 2, setId := 0, mid := 0, noTrig := false, resynced := false, throttled := false, black := 0, ratio := 0, knee := 0, slot := none, rois := [{}], ended := true };
      let r : List VFrame := [];
      let s : State := (((up.page (Pg.CAM 1) 2).page (Pg.STREAM 9) 2).page Pg.VISION 2).setStream 9 fun x => { x with frames := [{ id := 4, fsTime := 600, fn := 1, seq := 2, setId := 0, mid := 0, noTrig := false, resynced := false, throttled := false, black := 0, ratio := 0, knee := 0, slot := none, rois := [{}], ended := true }] }; ((s.streams[k].frames = g :: r) ∧ (g.ended = true) ∧ ((s.cams[streamPort k].any fun q => q.ctx == k.val && q.frame == g.id) = false) ∧ (g.throttled = false) ∧ (s.f (Pg.STREAM k) Reg.STREAM_CTX_CFG_KIND = 0) ∧ (g.rois ≠ []) ∧ (s.isOn Pg.VISION = true)) ∧ (answer (exec (.frameRecordsComplete t k) s) fun u => decide ((u.streams[k].frames = r) ∧ (u.vision.complete = s.vision.complete ++ [⟨s.classOf k, g.fsTime, k, (g.rois.mapIdx fun j x => s.fullRecord k g j x).map Prod.fst⟩])) ) = true) ∧
    (let t : Nat := 700; let cls : Fin 2 := 0; let d : DoneFrame := ⟨0, 600, 9, [leBytes 320 5]⟩; let l : List Byte := leBytes 320 5;
      let r : List (List Byte) := [];
      let s : State := ({ ((((up.page (Pg.CAM 1) 2).page (Pg.STREAM 9) 2).page Pg.VISION 2).setStream 9 fun x => { x with nextId := 4 }) with vision := { complete := [⟨0, 600, 9, [leBytes 320 5]⟩] } }).setF Pg.VISION (Reg.VISION_MRING_SIZE.num 0) 4; ((s.isOn Pg.VISION = true) ∧ (s.firstDone cls = some d) ∧ (s.earlierOpen cls (d.fsTime, d.ctx) = false) ∧ (d.recs = l :: r) ∧ ((s.f Pg.VISION (Reg.VISION_MRING_WR.num cls) + 2 ^ 32 - s.f Pg.VISION (Reg.VISION_MRING_RD.num cls)) % 2 ^ 32 ≠ 2 ^ s.f Pg.VISION (Reg.VISION_MRING_SIZE.num cls)) ∧ (s.vision.queue.length < 256) ∧ (s.askable (s.a Pg.VISION (Reg.VISION_MRING_BASE_LO.num cls) * 64 + s.a Pg.VISION (Reg.VISION_MRING_BASE_HI.num cls) * 2 ^ 32 + s.f Pg.VISION (Reg.VISION_MRING_WR.num cls) % 2 ^ s.f Pg.VISION (Reg.VISION_MRING_SIZE.num cls) * 320) l.length)) ∧ (answer (exec (.recordReady t cls) s) fun u => decide ((u.f Pg.VISION (Reg.VISION_MRING_WR.num cls) = (s.f Pg.VISION (Reg.VISION_MRING_WR.num cls) + 1) % 2 ^ 32) ∧ (u.vision.queue = s.vision.queue ++ (if cls = 0 then [((s.upTo t).now, shortRecord l)] else [])) ∧ (u.vision.complete = s.vision.complete.filterMap fun e => if e = d then (if r = [] then none else some { d with recs := r }) else some e)) ) = true) ∧
    (let n : Nat := 3; let e : Nat × List (List Byte) := (3, [leBytes 32 5, leBytes 32 6]);
      let s : State := { ((((up.page (Pg.CAM 1) 2).page (Pg.STREAM 9) 2).page Pg.VISION 2).setStream 9 fun x => { x with nextId := 4 }) with vision := { batches := [(3, [leBytes 32 5, leBytes 32 6])] } }; ((s.isOn Pg.VISION = true) ∧ (s.peerMet = false) ∧ (s.vision.batches.find? (fun e => e.1 == n) = some e)) ∧ (answer (exec (.batchDeliver n) s) fun u => decide ((u.vision.batches = s.vision.batches.filter fun x => x.1 != n) ∧ (u.f Pg.VISION Reg.VISION_RELEASED = satU (s.f Pg.VISION Reg.VISION_RELEASED + e.2.length) Reg.VISION_RELEASED.width)) ) = true) ∧
    (let t : Nat := 700; let k : Fin 32 := 9; let m : Img := ⟨0, 2, 64⟩; let off : Nat := 0; let x : Nat := 64; let h : Fin 20 := 1;
      let pl : List Byte := leBytes 4 (2 * 65536 + 9 * 256 + 3) ++ leBytes 4 0 ++ leBytes 64 0;
      let s : State := ((((((((((up.page (Pg.CAM 1) 2).page (Pg.STREAM 9) 2).page Pg.VISION 2).setStream 9 fun x => { x with imgs := [⟨0, 2, 64⟩] }).page (Pg.LINK 1) 2).setF (Pg.LINK 1) Reg.LANE_LANE_STATUS_PHASE 4).page (Pg.DRAM 0) 2).page (Pg.DRAM 1) 2).setF (Pg.STREAM 9) Reg.STREAM_STORE_CFG_HOST 2).setActWord (regAddr (Pg.STREAM 9) Reg.STREAM_STORE_BASE_HI.off) 4#32); ((s.streams[k].nextImage = some (m, off)) ∧ (0 < m.len) ∧ (h.val < 2) ∧ (s.f (Pg.STREAM k) Reg.STREAM_STORE_CFG_HOST = h.val + 1) ∧ (s.pageOn (Pg.STREAM k) = true) ∧ (s.laneUp h.val = true) ∧ (x = min (m.len - off) (256 * 2 ^ s.laneRate h)) ∧ (pl = leBytes 4 (m.seq * 65536 + k * 256 + 2 * b2n (decide (m.len ≤ off + x)) + b2n (off == 0)) ++ leBytes 4 off ++ s.bytes (s.slotAddr k m.slot + off) x) ∧ ((s.upTo t).mayStart h ⟨0x0C, (s.upTo t).nextSeq h 0x0C, 0, pl⟩ = true) ∧ (s.dramOn = true) ∧ (s.askable (s.slotAddr k m.slot + off) x)) ∧ (answer (exec (.streamFrameSend t k) s) fun u => decide ((u.streams[k].sending = (if m.len ≤ off + x then none else some (m, off + x))) ∧ (u.lanes[h].tx.map (fun q => (q.2.ty, q.2.payload)) = some (0x0C, pl)) ∧ (u.fb (Pg.STREAM k) Reg.STREAM_STATUS_SENDING = decide (off + x < m.len))) ) = true) ∧
    (let n : Nat := 3; let l : Fin 20 := 2; let pl : List Byte := metPayload 3 [];
      let s : State := ((((((up.page (Pg.CAM 1) 2).page (Pg.STREAM 9) 2).page Pg.VISION 2).setStream 9 fun x => { x with nextId := 4 }).page Pg.DIPTYCH 2).page (Pg.LINK 2) 2).setF (Pg.LINK 2) Reg.LANE_LANE_STATUS_PHASE 4; ((s.isOn Pg.VISION = true) ∧ (s.isOn Pg.DIPTYCH = true) ∧ (s.roleB = false) ∧ ((l = 2 ∨ l = 3)) ∧ (s.laneUp l.val = true) ∧ (s.lanes[l].waits = []) ∧ (pl = metPayload n ((s.vision.batches.find? fun e => e.1 == n).elim [] Prod.snd)) ∧ ((s.upTo (t0 n + 4800)).mayStart l ⟨0x0B, (s.upTo (t0 n + 4800)).nextSeq l 0x0B, 0, pl⟩ = true)) ∧ (answer (exec (.metLaunch n) s) fun u => decide ((u.lanes[l].tx.map (fun q => (q.2.ty, q.2.payload)) = some (0x0B, pl)) ∧ (u.lanes[l].waits = []) ∧ ((s.laneUp 2 = false ∨ s.laneUp 3 = false → u.f Pg.VISION Reg.VISION_MET_SENT = satU (s.f Pg.VISION Reg.VISION_MET_SENT + 1) Reg.VISION_MET_SENT.width))) ) = true) ∧
    (let n : Nat := 3; let l : Fin 20 := 2; let pl : List Byte := metPayload 3 [];
      let s : State := (((((((up.page (Pg.CAM 1) 2).page (Pg.STREAM 9) 2).page Pg.VISION 2).setStream 9 fun x => { x with nextId := 4 }).page Pg.DIPTYCH 2).page (Pg.LINK 2) 2).setF (Pg.LINK 2) Reg.LANE_LANE_STATUS_PHASE 4).setLane 2 fun x => { x with freeAt := 200000 }; ((s.isOn Pg.VISION = true) ∧ (s.isOn Pg.DIPTYCH = true) ∧ (s.roleB = false) ∧ ((l = 2 ∨ l = 3)) ∧ (s.laneUp l.val = true) ∧ (s.lanes[l].waits = []) ∧ (pl = metPayload n ((s.vision.batches.find? fun e => e.1 == n).elim [] Prod.snd)) ∧ ((s.upTo (t0 n + 4800)).mayStart l ⟨0x0B, (s.upTo (t0 n + 4800)).nextSeq l 0x0B, 0, pl⟩ = false)) ∧ (answer (exec (.metLaunch n) s) fun u => decide ((u.lanes[l].waits = [(0x0B, pl)]) ∧ (u.lanes[l].tx = s.lanes[l].tx)) ) = true) ∧
    (let t : Nat := 50000; let frame : Word := 3; let count : Fin 5 := 1; let l : List Byte := leBytes 32 9;
      let s : State := ((((((up.page (Pg.CAM 1) 2).page (Pg.STREAM 9) 2).page Pg.VISION 2).setStream 9 fun x => { x with nextId := 4 }).page Pg.DIPTYCH 2).setF Pg.SYS Reg.SYS_STRAPS 1).setF Pg.VISION Reg.VISION_STATUS_NO_CAMERA 0; ((s.live t) ∧ (s.isOn Pg.VISION = true) ∧ (s.peerMet = true) ∧ ((s.vision.met.any fun e => e.1 == frame.toNat) = false) ∧ (frame.toNat = frameOf t % 2 ^ 32)) ∧ (answer (exec (.metReceive t frame count l) s) fun u => decide ((u.vision.met = some (frame.toNat, chunk32 count l))) ) = true) := by
  iterate 7 refine ⟨by decide +kernel, ?_⟩
  decide +kernel

/-- Every clause of CameraTriggers has a case that meets its hypotheses, and the command completes there as the clause says. -/
theorem runs_CameraTriggers :
    (let t : Nat := 700; let o : Fin 8 := 0; let k : Fin 32 := 9; let v : Nat := 690;
      let s : State := (((((up.page (Pg.CAM 1) 2).page (Pg.STREAM 9) 2).page Pg.VISION 2).setStream 9 fun x => { x with nextId := 4 }).setF (Pg.STREAM 9) Reg.STREAM_CTX_CFG_TRIG_OWN 1).setTrig 0 fun x => { x with next := some 690, seq := 65535 }; ((((s.owners o).filter fun (k : Fin 32) => s.isOn (Pg.STREAM k.val)) = [k]) ∧ (s.launchTick k o = some v) ∧ ((s.upTo t).past v = true) ∧ (s.fb (Pg.STREAM k) Reg.COMMIT_PENDING = false) ∧ (s.pulseOk k = true)) ∧ (answer (exec (.triggerLaunch t o) s) fun u => decide ((u.trigs[o].seq = (s.trigs[o].seq + 1) % 65536) ∧ (u.trigs[o].endAt = some (v + s.a (Pg.STREAM k) Reg.STREAM_EXPOSURE)) ∧ (u.trigs[o].oneshot = none) ∧ (u.trigs[o].next = (s.trigs[o].next.map fun _ => v + s.a (Pg.STREAM k) Reg.STREAM_TRIG_PERIOD)) ∧ (u.f (Pg.STREAM k) Reg.STREAM_TRIGGERS = satU (s.f (Pg.STREAM k) Reg.STREAM_TRIGGERS + 1) Reg.STREAM_TRIGGERS.width)) ) = true) ∧
    (let t : Nat := 700; let o : Fin 8 := 0; let v : Nat := 690;
      let s : State := (((((up.page (Pg.CAM 1) 2).page (Pg.STREAM 9) 2).page Pg.VISION 2).setStream 9 fun x => { x with nextId := 4 }).setF (Pg.STREAM 9) Reg.STREAM_CTX_CFG_TRIG_OWN 1).setTrig 0 fun x => { x with endAt := some 690 }; ((s.trigs[o].endAt = some v) ∧ ((s.upTo t).past v = true)) ∧ (answer (exec (.triggerEnd t o) s) fun u => decide ((u.trigs[o].endAt = none) ∧ (u.trigs[o].seq = s.trigs[o].seq)) ) = true) ∧
    (let t : Nat := 700; let k : Fin 32 := 9; let v : Word := 0;
      let s : State := (((((((up.page (Pg.CAM 1) 2).page (Pg.STREAM 9) 2).page Pg.VISION 2).setStream 9 fun x => { x with nextId := 4 }).setF (Pg.STREAM 9) Reg.STREAM_CTX_CFG_TRIG_OWN 1).setTrig 0 fun x => { x with seq := 1 }).setF (Pg.STREAM 9) Reg.STREAM_TRIG_CFG_MODE 1).setWord (regAddr (Pg.STREAM 9) Reg.STREAM_ONESHOT_LO.off) 5000#32; ((s.isOn (Pg.STREAM k) = true) ∧ (v.toNat < 65536) ∧ (s.f (Pg.STREAM k) Reg.STREAM_TRIG_CFG_MODE = 1) ∧ (s.ownsTrig k = true) ∧ (640 ≤ sdiff48 (near48 (s.upTo t).now ((s.word (regAddr (Pg.STREAM k) Reg.STREAM_ONESHOT_LO.off)).toNat + v.toNat * 2 ^ 32) : Nat) ((s.upTo t).now : Nat))) ∧ (answer (exec (.oneshotWrite t k v) s) fun u => decide ((u.trigs[s.trigOf k].oneshot = some (near48 (s.upTo t).now ((s.word (regAddr (Pg.STREAM k) Reg.STREAM_ONESHOT_LO.off)).toNat + v.toNat * 2 ^ 32)))) ) = true) := by
  iterate 2 refine ⟨by decide +kernel, ?_⟩
  decide +kernel

/-- Every clause of Banks has a case that meets its hypotheses, and the command completes there as the clause says. -/
theorem runs_Banks :
    (let t : Nat := 700; let b : Nat := 3;
      let s : State := (up.page Pg.BANKS 2).setF Pg.BANKS Reg.BANKS_BG_CFG_BANK_EN 8; ((s.isOn Pg.BANKS = true) ∧ (s.bankTest.active = false) ∧ ((s.bankTest.lastStart.all fun v => (s.upTo t).past (v + s.f Pg.BANKS Reg.BANKS_BG_CFG_INTERVAL * 102400)) = true) ∧ (s.testPaused = false) ∧ (s.nextBank s.bankTest.bank = some b)) ∧ (answer (exec (.bgRowStart t) s) fun u => decide ((u.bankTest.active = true) ∧ (u.bankTest.bank = b) ∧ (u.bankTest.lastStart = some (s.upTo t).now) ∧ ((b = s.bankTest.bank → u.bankTest.row = s.bankTest.row % bankRows b))) ) = true) ∧
    (let t : Nat := 700; let failed : Bool := true;
      let s : State := { up with bankTest := { bank := 3, row := 7, active := true, lastStart := some 5 } }; ((s.bankTest.active = true) ∧ (s.domOn (bankDomain s.bankTest.bank) = true) ∧ ((s.upTo t).past ((if failed then s.bankTest.marchAt else s.bankTest.restoreAt + 64 * bankPeriod s.bankTest.bank) % 2 ^ 64) = true)) ∧ (answer (exec (.bgRowDone t failed) s) fun u => decide ((u.bankTest.active = false) ∧ (u.fb Pg.BANKS Reg.BANKS_BG_STATUS_ACTIVE = false) ∧ (u.f Pg.BANKS Reg.BANKS_ROWS_TESTED = (if failed then s.f Pg.BANKS Reg.BANKS_ROWS_TESTED else satU (s.f Pg.BANKS Reg.BANKS_ROWS_TESTED + 1) Reg.BANKS_ROWS_TESTED.width)) ∧ (u.f Pg.BANKS Reg.BANKS_ROW_FAILS = (if failed then satU (s.f Pg.BANKS Reg.BANKS_ROW_FAILS + 1) Reg.BANKS_ROW_FAILS.width else s.f Pg.BANKS Reg.BANKS_ROW_FAILS)) ∧ ((failed = true → u.f Pg.BANKS Reg.BANKS_SPARE_IN_USE = putBit (s.f Pg.BANKS Reg.BANKS_SPARE_IN_USE) s.bankTest.bank true % 2 ^ Reg.BANKS_SPARE_IN_USE.width))) ) = true) ∧
    (let t : Nat := 700; let b : Fin 20 := 3; let off : Nat := 12;
      let s : State := { up with memErr := [(0x10300008, 1)] }; ((bankAt ((bankBase b + off) / 8 * 8) = some b.val) ∧ (s.errAt ((bankBase b + off) / 8 * 8) = 1)) ∧ (answer (exec (.bankEccWriteback t b off) s) fun u => decide ((u.errAt ((bankBase b + off) / 8 * 8) = 0)) ) = true) ∧
    (let t : Nat := 700;
      let s : State := up.setWord (regAddr Pg.BANKS 0x84) 5#32; ((s.pageOn Pg.BANKS = true)) ∧ (answer (exec (.failClear t) s) fun u => decide (((∀ k : Fin 16, u.word (regAddr Pg.BANKS (0x80 + 4 * k)) = 0#32))) ) = true) := by
  iterate 3 refine ⟨by decide +kernel, ?_⟩
  decide +kernel

/-- Every clause of Dram has a case that meets its hypotheses, and the command completes there as the clause says. -/
theorem runs_Dram :
    (let t : Nat := 700; let i : Fin 2 := 1; let r : DramReq := ⟨2, 0, 5, dramBase, 10, 100, false, 0⟩;
      let s : State := ((up.page (Pg.DRAM 1) 2).setDram 1 fun x => { x with reads := [⟨2, 0, 5, dramBase, 10, 100, false, 0⟩], wq := [{ cls := 2, who := 0, gran := 5, addr := dramBase, mask := 1, at_ := 10, limit := 100 }] }); (((s.st (Pg.DRAM i) = stOn ∨ s.st (Pg.DRAM i) = stStopping)) ∧ (s.retrain.testBit i.val = false) ∧ (s.drams[i].next = some (.read r))) ∧ (answer (exec (.dramCommandIssue t i) s) fun u => decide ((u.drams[i].reads = s.drams[i].reads.erase r) ∧ (u.drams[i].wq = s.drams[i].wq) ∧ (u.f (Pg.DRAM i) Reg.DRAM_READ_GRANULES = satU (s.f (Pg.DRAM i) Reg.DRAM_READ_GRANULES + 1) Reg.DRAM_READ_GRANULES.width)) ) = true) ∧
    (let t : Nat := 700; let i : Fin 2 := 1;
      let e : WqEntry := { cls := 2, who := 0, gran := 5, addr := dramBase, mask := 1, at_ := 10, limit := 100 };
      let s : State := ((up.page (Pg.DRAM 1) 2).setDram 1 fun x => { x with wq := [{ cls := 2, who := 0, gran := 5, addr := dramBase, mask := 1, at_ := 10, limit := 100 }] }); (((s.st (Pg.DRAM i) = stOn ∨ s.st (Pg.DRAM i) = stStopping)) ∧ (s.retrain.testBit i.val = false) ∧ (s.drams[i].next = some (.write e))) ∧ (answer (exec (.dramCommandIssue t i) s) fun u => decide ((u.drams[i].wq = s.drams[i].wq.erase e) ∧ (u.drams[i].reads = s.drams[i].reads) ∧ (u.f (Pg.DRAM i) Reg.DRAM_WRITE_GRANULES = satU (s.f (Pg.DRAM i) Reg.DRAM_WRITE_GRANULES + 1) Reg.DRAM_WRITE_GRANULES.width)) ) = true) ∧
    (let t : Nat := 700; let i : Fin 2 := 1;
      let s : State := ((up.page (Pg.DRAM 1) 2).setDram 1 fun x => { x with reads := [⟨2, 0, 5, dramBase, 10, 100, false, 0⟩], wq := [{ cls := 2, who := 0, gran := 5, addr := dramBase, mask := 1, at_ := 10, limit := 100 }] }); (True) ∧ (answer (exec (.agePromotion t i) s) fun u => decide ((u.drams[i].reads = (s.drams[i].reads.map fun r => if r.cls ≠ 0 ∧ (s.upTo t).past (r.at_ + r.limit) = true then { r with promoted := true } else r)) ∧ (u.drams[i].wq = (s.drams[i].wq.map fun w => if w.cls ≠ 0 ∧ (s.upTo t).past (w.at_ + w.limit) = true then { w with promoted := true } else w)) ∧ (u.f (Pg.DRAM i) Reg.DRAM_PROMOTIONS = satU (s.f (Pg.DRAM i) Reg.DRAM_PROMOTIONS + ((s.drams[i].reads.filter fun r => !r.promoted && r.cls != 0 && (s.upTo t).past (r.at_ + r.limit)).length + (s.drams[i].wq.filter fun w => !w.promoted && w.cls != 0 && (s.upTo t).past (w.at_ + w.limit)).length)) Reg.DRAM_PROMOTIONS.width)) ) = true) ∧
    (let t : Nat := 70000; let i : Fin 2 := 1; let b : Fin 16 := 4; let g : OpenPage := ⟨3, 7⟩;
      let s : State := ((up.page (Pg.DRAM 1) 2).setDram 1 fun x => { x with pages := x.pages.set 4 (some ⟨3, 7⟩) }); ((s.drams[i].pages[b] = some g) ∧ ((s.upTo t).past (g.used + s.f (Pg.DRAM i) Reg.DRAM_SCHED_PAGE_IDLE * 256) = true)) ∧ (answer (exec (.pageIdleClose t i b) s) fun u => decide ((u.drams[i].pages = s.drams[i].pages.set b none)) ) = true) ∧
    (let t : Nat := 700; let i : Fin 2 := 1; let b : Fin 16 := 4;
      let s : State := ((up.page (Pg.DRAM 1) 2).setDram 1 fun x => { x with pages := x.pages.set 4 (some ⟨3, 7⟩) }); (((s.st (Pg.DRAM i) = stOn ∨ s.st (Pg.DRAM i) = stStopping)) ∧ (s.retrain.testBit i.val = false) ∧ ((((s.drams[i].reads.any fun r => (r.cls == 0 || r.promoted) && granBank r.gran == b) || s.drams[i].wq.any fun w => w.promoted && granBank w.gran == b) = false ∨ 8 ≤ s.drams[i].postponed[b]))) ∧ (answer (exec (.refreshDue t i b) s) fun u => decide ((u.drams[i].pages = s.drams[i].pages.set b none) ∧ (u.drams[i].postponed = s.drams[i].postponed.set b 0)) ) = true) ∧
    (let t : Nat := 700; let i : Fin 2 := 1; let b : Fin 16 := 0;
      let s : State := ((up.page (Pg.DRAM 1) 2).setDram 1 fun x => { x with reads := [⟨2, 0, 5, dramBase, 10, 100, true, 0⟩] }); (((s.st (Pg.DRAM i) = stOn ∨ s.st (Pg.DRAM i) = stStopping)) ∧ (s.retrain.testBit i.val = false) ∧ (((s.drams[i].reads.any fun r => (r.cls == 0 || r.promoted) && granBank r.gran == b) || s.drams[i].wq.any fun w => w.promoted && granBank w.gran == b) = true) ∧ (s.drams[i].postponed[b] < 8)) ∧ (answer (exec (.refreshDue t i b) s) fun u => decide ((u.drams[i].pages = s.drams[i].pages) ∧ (u.drams[i].postponed = s.drams[i].postponed.set b (s.drams[i].postponed[b] + 1)) ∧ (u.f (Pg.DRAM i) Reg.DRAM_REF_POSTPONED = satU (s.f (Pg.DRAM i) Reg.DRAM_REF_POSTPONED + 1) Reg.DRAM_REF_POSTPONED.width)) ) = true) ∧
    (let t : Nat := 700; let i : Fin 2 := 1; let rate : Vector (Fin 32) 2 := #v[3, 6]; let hot : Bool := true;
      let s : State := ((up.page (Pg.DRAM 1) 2).setDram 1 fun x => { x with ready := true }); (((s.st (Pg.DRAM i) = stOn ∨ s.st (Pg.DRAM i) = stStopping)) ∧ (s.retrain.testBit i.val = false)) ∧ (answer (exec (.mr4Poll t i rate hot) s) fun u => decide ((u.f (Pg.DRAM i) Reg.DRAM_STATUS_REF_RATE = max rate[0].val rate[1].val % 2 ^ Reg.DRAM_STATUS_REF_RATE.width) ∧ (u.fb (Pg.DRAM i) Reg.DRAM_STATUS_HOT = hot) ∧ ((hot = true → (u.f (Pg.DRAM i) Reg.ERROR_STICKY).testBit Sticky.DRAM_DRAM_HOT = true))) ) = true) ∧
    (let t : Nat := 700; let addr : Nat := dramBase + 9;
      let s : State := ((({ up with memErr := [(dramBase + 8, 1)] }).page (Pg.DRAM 0) 2).setF (Pg.DRAM 0) Reg.DRAM_CFG_ECC_EN 1).setDram 0 fun x => { x with fixes := [0] }; ((dramBase ≤ addr) ∧ (s.fb (Pg.DRAM (s.dramLoc addr).1) Reg.DRAM_CFG_ECC_EN = true) ∧ ((s.st (Pg.DRAM (s.dramLoc addr).1) = stOn ∨ s.st (Pg.DRAM (s.dramLoc addr).1) = stStopping)) ∧ (s.retrain.testBit (s.dramLoc addr).1.val = false) ∧ (s.drams[(s.dramLoc addr).1].fixes.contains ((s.dramLoc addr).2 / 64) = true) ∧ (s.errAt addr = 1) ∧ (TabWf zeroNat s.memErr)) ∧ (answer (exec (.dramEccWriteback t addr) s) fun u => decide ((u.drams[(s.dramLoc addr).1].fixes.contains ((s.dramLoc addr).2 / 64) = false)) ) = true) ∧
    (let t : Nat := 700; let mask : Fin 4 := 2;
      let s : State := up; ((s.pageOn Pg.DTRAIN = true) ∧ (((blkPages .brush ++ blkPages .raster ++ blkPages .stream ++ [Pg.VISION]).all fun q => s.st q == stOff) = true) ∧ (s.retrain = 0)) ∧ (answer (exec (.retrain t mask) s) fun u => decide ((u.training = (if mask.val = 0 then s.training else s.training ||| mask.val)) ∧ (u.retrain = mask.val)) ) = true) ∧
    (let t : Nat := 700; let rd : Vector (BitVec 128) 8 := Vector.replicate 8 0; let wr : Vector (BitVec 128) 8 := Vector.replicate 8 0;
      let initOk : Vector Bool 2 := #v[true, true];
      let s : State := { (up.page Pg.DTRAIN 2) with training := 1 }; ((s.training ≠ 0) ∧ (s.isOn Pg.DTRAIN = true)) ∧ (answer (exec (.trainingDone t rd wr initOk) s) fun u => decide ((u.training = 0) ∧ (u.retrain = 0) ∧ ((u.f Pg.DTRAIN Reg.EVENT).testBit Ev.DTRAIN_TRAIN_DONE = true)) ) = true) := by
  iterate 9 refine ⟨by decide +kernel, ?_⟩
  decide +kernel

/-- Every clause of Thermal has a case that meets its hypotheses, and the command completes there as the clause says. -/
theorem runs_Thermal :
    (let r : Nat := 2; let raw : Vector (BitVec 16) 14 := Vector.replicate 14 2560#16; let i : Fin 14 := 4;
      let s : State := ((up.page Pg.THERM 2)); ((s.isOn Pg.THERM = true) ∧ (s.sensorRead i.val = true))) ∧
    (let n : Nat := 500; let g : Nat := 2;
      let s : State := { (((up.page Pg.THERM 2).setF Pg.THERM Reg.THERM_STATUS_WARN 1).setF Pg.THERM Reg.THERM_GRACE 1) with therm := { graceFrom := some 2 } }; ((s.isOn Pg.THERM = true) ∧ (s.pwr.dev ≠ .shutdown) ∧ (s.fb Pg.THERM Reg.THERM_STATUS_WARN = true) ∧ (s.therm.graceFrom = some g) ∧ (g + s.f Pg.THERM Reg.THERM_GRACE * 400 ≤ n)) ∧ (answer (exec (.graceExpiry n) s) fun u => decide ((u.therm.graceFrom = none) ∧ (u.fb Pg.THERM Reg.THERM_STATUS_ENFORCED = true) ∧ (u.fb Pg.THERM Reg.THERM_STATUS_GRACE = false) ∧ (u.f Pg.THERM Reg.THERM_ENFORCEMENTS = satU (s.f Pg.THERM Reg.THERM_ENFORCEMENTS + 1) Reg.THERM_ENFORCEMENTS.width) ∧ ((s.pageOn Pg.VISION = true → u.fb Pg.VISION Reg.VISION_STATUS_THROTTLE = true))) ) = true) ∧
    (let t : Nat := 2000000; let l : List Nat := [3200, 4800]; let c : Nat := 15040;
      let s : State := ((({ (up.page Pg.THERM 2) with therm := { held := [3200, 4800], release := some 15040 } }).setF Pg.THERM Reg.THERM_STATUS_STRETCHING 1).setBrush 5 fun x => { x with queue := [{ testSheet 0 with held := some 3200 }] }).setBrush 7 fun x => { x with queue := [{ testSheet 0 with held := some 4800 }] }; ((s.therm.held = l) ∧ (l ≠ []) ∧ (s.therm.release = some c) ∧ (s.fb Pg.THERM Reg.THERM_STATUS_ENFORCED = false) ∧ ((s.upTo t).past (releaseAt c) = true) ∧ (s.listsOk)) ∧ (answer (exec (.heldSheetRelease t) s) fun u => decide ((u.therm.held = []) ∧ (u.fb Pg.THERM Reg.THERM_STATUS_STRETCHING = false) ∧ (u.pair Pg.THERM Reg.THERM_STRETCH_LO Reg.THERM_STRETCH_HI = satU (s.pair Pg.THERM Reg.THERM_STRETCH_LO Reg.THERM_STRETCH_HI + (l.map (stretchOf (releaseAt c))).sum) (Reg.THERM_STRETCH_LO.width + Reg.THERM_STRETCH_HI.width)) ∧ ((∀ n : Fin 16, u.brushes[n].stretch = s.brushes[n].stretch + (s.stretchFrom n).elim 0 (stretchOf (releaseAt c))))) ) = true) := by
  iterate 2 refine ⟨by decide +kernel, ?_⟩
  decide +kernel

/-- Every clause of Calibration has a case that meets its hypotheses, and the command completes there as the clause says. -/
theorem runs_Calibration :
    (let t : Nat := 700; let target : Fin 32 := 5;
      let s : State := (up.page Pg.CALIB 2); ((s.pageOn Pg.CALIB = true) ∧ (s.fb Pg.CALIB Reg.CALIB_STATUS_BUSY = false) ∧ (s.en Pg.CALIB = true) ∧ (s.calHolds 1 target.val = true)) ∧ (answer (exec (.calDelay t target) s) fun u => decide ((u.cal.run = some { op := 1, target := target.val, start := (s.upTo t).now }) ∧ (u.fb Pg.CALIB Reg.CALIB_STATUS_BUSY = true) ∧ (u.f Pg.CALIB Reg.CALIB_STATUS_RESULT = 0)) ) = true) ∧
    (let t : Nat := 700;
      let s : State := (up.page Pg.CALIB 2).page Pg.THERM 2; ((s.pageOn Pg.CALIB = true) ∧ (s.fb Pg.CALIB Reg.CALIB_STATUS_BUSY = false) ∧ (s.en Pg.CALIB = true) ∧ (s.calHolds 2 0 = true)) ∧ (answer (exec (.calSensor t) s) fun u => decide ((u.cal.run = some { op := 2, target := 0, start := (s.upTo t).now }) ∧ (u.fb Pg.CALIB Reg.CALIB_STATUS_BUSY = true) ∧ (u.f Pg.CALIB Reg.CALIB_STATUS_RESULT = 0)) ) = true) ∧
    (let t : Nat := 700; let target : Fin 32 := 7;
      let s : State := (up.page Pg.CALIB 2); ((s.pageOn Pg.CALIB = true) ∧ (s.fb Pg.CALIB Reg.CALIB_STATUS_BUSY = false) ∧ (s.en Pg.CALIB = true) ∧ (s.calHolds 3 target.val = true) ∧ ((4 ≤ target.val ∨ s.f Pg.CLK Reg.CLK_REF_STATUS_SELECTED ≠ target.val))) ∧ (answer (exec (.calLane t target) s) fun u => decide ((u.cal.run = some { op := 3, target := target.val, start := (s.upTo t).now }) ∧ (u.fb Pg.CALIB Reg.CALIB_STATUS_BUSY = true) ∧ (u.f Pg.CALIB Reg.CALIB_STATUS_RESULT = 0)) ) = true) ∧
    (let t : Nat := 700;
      let s : State := { (up.page Pg.CALIB 2) with rcd := { (up.page Pg.CALIB 2).rcd with dir := true } }; ((s.pageOn Pg.CALIB = true) ∧ (s.fb Pg.CALIB Reg.CALIB_STATUS_BUSY = false) ∧ (s.en Pg.CALIB = true) ∧ (s.calHolds 4 0 = true)) ∧ (answer (exec (.calSave t) s) fun u => decide ((u.cal.run = some { op := 4, target := 0, start := (s.upTo t).now }) ∧ (u.fb Pg.CALIB Reg.CALIB_STATUS_BUSY = true) ∧ (u.f Pg.CALIB Reg.CALIB_STATUS_RESULT = 0)) ) = true) ∧
    (let t : Nat := 700;
      let cells : Vector (Vector (Option (BitVec 16)) 24) 32 := (Vector.replicate 32 (Vector.replicate 24 (some 20#16))).set 7 (Vector.replicate 24 none);
      let segP : Vector (Option Word) 16 := Vector.replicate 16 none; let segN : Vector (Option Word) 16 := Vector.replicate 16 none;
      let ok : Bool := true; let r : CalRun := { op := 1, target := 3, start := 5 };
      let s : State := { (up.page Pg.CALIB 2) with cal := { run := some { op := 1, target := 3, start := 5 } } }; ((s.cal.run = some r) ∧ (r.op = 1) ∧ (s.calHolds 1 r.target = true)) ∧ (answer (exec (.calDone t cells segP segN ok) s) fun u => decide ((u.cal.run = none) ∧ (u.fb Pg.CALIB Reg.CALIB_STATUS_BUSY = false) ∧ ((u.f Pg.CALIB Reg.EVENT).testBit Ev.CALIB_CAL_DONE = true) ∧ ((u.f Pg.CALIB Reg.CALIB_DELAY_FAIL).testBit r.target = decide (∃ i : Fin 32, selectCells (cells[i].toList.map (·.map BitVec.toNat)) = none)) ∧ (u.f Pg.CALIB Reg.CALIB_STATUS_RESULT = (if (∃ i : Fin 32, selectCells (cells[i].toList.map (·.map BitVec.toNat)) = none) then 3 else 1)) ∧ (u.cal.brushValid = putBit s.cal.brushValid r.target (s.cal.brushValid.testBit r.target || decide (∃ i : Fin 32, (selectCells (cells[i].toList.map (·.map BitVec.toNat))).isSome = true)))) ) = true) ∧
    (let t : Nat := 700; let cells : Vector (Vector (Option (BitVec 16)) 24) 32 := Vector.replicate 32 (Vector.replicate 24 none);
      let segP : Vector (Option Word) 16 := Vector.replicate 16 none; let segN : Vector (Option Word) 16 := Vector.replicate 16 none;
      let ok : Bool := true; let r : CalRun := { op := 2, target := 0, start := 5, rounds := 16, sums := [1600, 1616, 160000] };
      let s : State := { ((((up.page Pg.CALIB 2).page Pg.THERM 2).setF Pg.CALIB Reg.CALIB_REF_TEMP 300).setF Pg.THERM Reg.THERM_VALID 0xFFF) with cal := { run := some { op := 2, target := 0, start := 5, rounds := 16, sums := [1600, 1616, 160000] } } }; ((s.cal.run = some r) ∧ (r.op = 2) ∧ (s.calHolds 2 r.target = true) ∧ (16 ≤ r.rounds)) ∧ (answer (exec (.calDone t cells segP segN ok) s) fun u => decide ((u.cal.run = none) ∧ (u.fb Pg.CALIB Reg.CALIB_STATUS_BUSY = false) ∧ ((u.f Pg.CALIB Reg.EVENT).testBit Ev.CALIB_CAL_DONE = true) ∧ (u.f Pg.CALIB Reg.CALIB_STATUS_RESULT = (if (∀ i : Fin 12, (s.validSensors.contains i.val = true ∧ (s.fi Pg.CALIB Reg.CALIB_REF_TEMP - tdiv (r.sums.getD i.val 0) 16).natAbs ≤ 640)) then 1 else 3)) ∧ (u.cal.sensorValid = (s.cal.sensorValid || decide (∃ i : Fin 12, (s.validSensors.contains i.val = true ∧ (s.fi Pg.CALIB Reg.CALIB_REF_TEMP - tdiv (r.sums.getD i.val 0) 16).natAbs ≤ 640))))) ) = true) ∧
    (let t : Nat := 700; let cells : Vector (Vector (Option (BitVec 16)) 24) 32 := Vector.replicate 32 (Vector.replicate 24 none);
      let segP : Vector (Option Word) 16 := Vector.replicate 16 (some 800000); let segN : Vector (Option Word) 16 := Vector.replicate 16 none;
      let ok : Bool := true; let r : CalRun := { op := 3, target := 7, start := 5 };
      let s : State := { (up.page Pg.CALIB 2) with cal := { run := some { op := 3, target := 7, start := 5 } } }; ((s.cal.run = some r) ∧ (r.op = 3) ∧ (s.calHolds 3 r.target = true)) ∧ (answer (exec (.calDone t cells segP segN ok) s) fun u => decide ((u.cal.run = none) ∧ (u.fb Pg.CALIB Reg.CALIB_STATUS_BUSY = false) ∧ ((u.f Pg.CALIB Reg.EVENT).testBit Ev.CALIB_CAL_DONE = true) ∧ (u.f Pg.CALIB Reg.CALIB_STATUS_RESULT = (if (selectSegs (segP.toList.map (·.map BitVec.toNat))).isSome = true ∧ (selectSegs (segN.toList.map (·.map BitVec.toNat))).isSome = true then 1 else 3)) ∧ (u.cal.laneValid = putBit s.cal.laneValid r.target (s.cal.laneValid.testBit r.target || (selectSegs (segP.toList.map (·.map BitVec.toNat))).isSome || (selectSegs (segN.toList.map (·.map BitVec.toNat))).isSome))) ) = true) ∧
    (let t : Nat := 700; let cells : Vector (Vector (Option (BitVec 16)) 24) 32 := Vector.replicate 32 (Vector.replicate 24 none);
      let segP : Vector (Option Word) 16 := Vector.replicate 16 none; let segN : Vector (Option Word) 16 := Vector.replicate 16 none;
      let ok : Bool := true; let r : CalRun := { op := 4, target := 0, start := 5 };
      let s : State := { { (up.page Pg.CALIB 2) with rcd := { (up.page Pg.CALIB 2).rcd with dir := true } } with cal := { run := some { op := 4, target := 0, start := 5 } } }; ((s.cal.run = some r) ∧ (r.op = 4) ∧ (s.calHolds 4 r.target = true) ∧ (ok = true)) ∧ (answer (exec (.calDone t cells segP segN ok) s) fun u => decide ((u.cal.run = none) ∧ (u.fb Pg.CALIB Reg.CALIB_STATUS_BUSY = false) ∧ ((u.f Pg.CALIB Reg.EVENT).testBit Ev.CALIB_CAL_DONE = true) ∧ (u.f Pg.CALIB Reg.CALIB_STATUS_RESULT = 1) ∧ (u.cal.count = (s.cal.count + 1) % 2 ^ 32) ∧ (u.f Pg.CALIB Reg.CALIB_COUNT = (s.cal.count + 1) % 2 ^ 32) ∧ (u.cal.copy = 1 - s.cal.copy) ∧ (u.f Pg.CALIB Reg.CALIB_LAST_HOURS = s.f Pg.RECORD Reg.RECORD_HOURS) ∧ ((u.f Pg.CALIB Reg.EVENT).testBit Ev.CALIB_SAVED = true)) ) = true) ∧
    (let t : Nat := 700; let cells : Vector (Vector (Option (BitVec 16)) 24) 32 := Vector.replicate 32 (Vector.replicate 24 none);
      let segP : Vector (Option Word) 16 := Vector.replicate 16 none; let segN : Vector (Option Word) 16 := Vector.replicate 16 none;
      let ok : Bool := false; let r : CalRun := { op := 4, target := 0, start := 5 };
      let s : State := { { (up.page Pg.CALIB 2) with rcd := { (up.page Pg.CALIB 2).rcd with dir := true } } with cal := { run := some { op := 4, target := 0, start := 5 } } }; ((s.cal.run = some r) ∧ (r.op = 4) ∧ (s.calHolds 4 r.target = true) ∧ (ok = false)) ∧ (answer (exec (.calDone t cells segP segN ok) s) fun u => decide ((u.cal.run = none) ∧ (u.fb Pg.CALIB Reg.CALIB_STATUS_BUSY = false) ∧ (u.f Pg.CALIB Reg.CALIB_STATUS_RESULT = 2) ∧ ((u.f Pg.CALIB Reg.ERROR_STICKY).testBit Sticky.CALIB_SAVE_FAIL = true) ∧ (u.cal.count = s.cal.count) ∧ (u.cal.copy = s.cal.copy)) ) = true) ∧
    (let t : Nat := 700; let cells : Vector (Vector (Option (BitVec 16)) 24) 32 := Vector.replicate 32 (Vector.replicate 24 none);
      let segP : Vector (Option Word) 16 := Vector.replicate 16 none; let segN : Vector (Option Word) 16 := Vector.replicate 16 none;
      let ok : Bool := true; let r : CalRun := { op := 2, target := 0, start := 5 };
      let s : State := { ((up.page Pg.CALIB 2).page Pg.THERM 0) with cal := { run := some { op := 2, target := 0, start := 5 } } }; ((s.cal.run = some r) ∧ (s.calHolds r.op r.target = false)) ∧ (answer (exec (.calDone t cells segP segN ok) s) fun u => decide ((u.cal.run = none) ∧ (u.fb Pg.CALIB Reg.CALIB_STATUS_BUSY = false) ∧ (u.f Pg.CALIB Reg.CALIB_STATUS_RESULT = 2)) ) = true) := by
  iterate 9 refine ⟨by decide +kernel, ?_⟩
  decide +kernel

/-- Every clause of SelfTest has a case that meets its hypotheses, and the command completes there as the clause says. -/
theorem runs_SelfTest :
    (let t : Nat := 700; let key : BitVec 8 := 0xB5; let dom : Fin 16 := 6;
      let s : State := (up.page Pg.BIST 2); ((s.pageOn Pg.BIST = true) ∧ (key = 0xB5#8) ∧ (s.bistRefuse dom.val = 0)) ∧ (answer (exec (.bistLogic t key dom) s) fun u => decide ((u.bist = some ⟨1, dom.val, (s.upTo t).now⟩) ∧ (u.pwr.dirty.contains dom.val = true) ∧ (u.domOn dom.val = false) ∧ (u.fb Pg.BIST Reg.BIST_STATUS_BUSY = true) ∧ (u.f Pg.BIST Reg.BIST_STATUS_KIND = 1)) ) = true) ∧
    (let t : Nat := 700; let key : BitVec 8 := 0xB5; let dom : Fin 16 := 6;
      let s : State := (up.page Pg.BIST 2); ((s.pageOn Pg.BIST = true) ∧ (key = 0xB5#8) ∧ (s.bistRefuse dom.val = 0)) ∧ (answer (exec (.bistMemory t key dom) s) fun u => decide ((u.bist = some ⟨2, dom.val, (s.upTo t).now⟩) ∧ (u.pwr.dirty.contains dom.val = true) ∧ (u.domOn dom.val = false) ∧ (u.fb Pg.BIST Reg.BIST_STATUS_BUSY = true) ∧ (u.f Pg.BIST Reg.BIST_STATUS_KIND = 2)) ) = true) ∧
    (let t : Nat := 700; let sigs : Vector Word 20 := Vector.replicate 20 0; let banks : List (Fin 20) := []; let rows : List (Fin 8192) := [];
      let r : BistRun := ⟨1, 9, 5⟩;
      let s : State := { (up.page Pg.BIST 2) with bist := some ⟨1, 9, 5⟩ }; ((s.bist = some r)) ∧ (answer (exec (.bistDone t sigs banks rows) s) fun u => decide ((u.bist = none)) ) = true) := by
  iterate 2 refine ⟨by decide +kernel, ?_⟩
  decide +kernel

/-- Every clause of TestPort has a case that meets its hypotheses, and the command completes there as the clause says. -/
theorem runs_TestPort :
    (let t : Nat := 700; let tms : Bool := true; let tdi : Bool := false;
      let s : State := { up with tap := { up.tap with state := .exit1Ir, sr := [true, true, false, false, false, false] } }; ((s.pwr.sysOn = true) ∧ (((s.upTo t).tapStep tms tdi).scanBreach = false)) ∧ (answer (exec (.tapClock t tms tdi) s) fun u => decide ((u.tap.state = tapNext s.tap.state tms) ∧ (u.pwr.limitHeld = decide (tapNext s.tap.state tms ≠ .reset)) ∧ ((tapNext s.tap.state tms = .reset → u.tap.ir = 2)) ∧ ((s.tap.state = .captureDr → s.tap.ir = 2 → u.tap.sr = lowBits 32 idCode)) ∧ ((s.tap.state = .shiftDr ∨ s.tap.state = .shiftIr → u.tap.sr = (s.tap.sr ++ [tdi]).drop 1)) ∧ ((s.tap.state = .exit1Ir → tms = true → u.tap.ir = ofBits s.tap.sr))) ) = true) ∧
    (let t : Nat := 700; let tms : Bool := true; let tdi : Bool := false;
      let s : State := { (up.page Pg.THERM 2).page (Pg.AXIS 3) 2 with tap := { up.tap with state := .exit1Ir, sr := [false, false, false, false, false, false] } }; ((s.pwr.sysOn = true) ∧ (((s.upTo t).tapStep tms tdi).scanBreach = true)) ∧ stopped (exec (.tapClock t tms tdi) s) (.hostBreach 423) = true) ∧
    (let t : Nat := 700;
      let s : State := { up with tap := { up.tap with state := .exit1Ir, ir := 0 } }; ((s.pwr.sysOn = true)) ∧ (answer (exec (.tapReset t) s) fun u => decide ((u.tap.state = .reset) ∧ (u.tap.ir = 2) ∧ (u.tap.upd = []) ∧ (u.pwr.limitHeld = false)) ) = true) := by
  iterate 2 refine ⟨by decide +kernel, ?_⟩
  decide +kernel

/-- Every clause of PairForming has a case that meets its hypotheses, and the command completes there as the clause says. -/
theorem runs_PairForming :
    (let n : Nat := 5; let b : Beat := ⟨4, 0, false, false, true, true, 0⟩;
      let s : State := ((((({ (up.page Pg.DIPTYCH 1) with dip := { latest := some ⟨4, 0, false, false, true, true, 0⟩ } }).page (Pg.LINK 2) 2).setF (Pg.LINK 2) Reg.LANE_LANE_STATUS_PHASE 4).setF Pg.PWR Reg.PWR_DOMAIN_STATUS_ON 3).setF Pg.TIME Reg.TIME_STATUS_TSTATE 2); ((s.st Pg.DIPTYCH = stStarting) ∧ (s.pairReady = true) ∧ (s.dip.latest = some b) ∧ (b.form = true) ∧ (b.ready = true) ∧ (s.roleB = false) ∧ (s.dip.formF = none)) ∧ (answer (exec (.pairFormFrame n) s) fun u => decide ((u.dip.formF = some (n + 64)) ∧ (u.f Pg.DIPTYCH Reg.DIPTYCH_FORM_FRAME = (n + 64) % 2 ^ 32) ∧ (u.fb Pg.DIPTYCH Reg.DIPTYCH_STATUS_READY = true)) ) = true) ∧
    (let t : Nat := 17000; let k : Nat := 17;
      let s : State := { (up.page Pg.DIPTYCH 1) with dip := { formF := some 17 } }; ((s.st Pg.DIPTYCH = stStarting) ∧ (s.roleB = false) ∧ (s.dip.echoed = false) ∧ (s.dip.formF = some k) ∧ ((s.upTo t).past (t0 (k - 16)) = true)) ∧ (answer (exec (.formEchoDeadline t) s) fun u => decide ((u.dip.formF = none)) ) = true) ∧
    (let n : Nat := 17;
      let s : State := { (up.page Pg.DIPTYCH 1) with dip := { formF := some 17, echoed := true } }; ((s.st Pg.DIPTYCH = stStarting) ∧ (s.dip.formF = some n) ∧ ((s.roleB = true ∨ s.dip.echoed = true))) ∧ (answer (exec (.pairLock n) s) fun u => decide ((u.st Pg.DIPTYCH = stOn) ∧ (u.pairState = pairLockstep) ∧ (u.f Pg.DIPTYCH Reg.DIPTYCH_MCOUNT = 0) ∧ (u.fb Pg.DIPTYCH Reg.DIPTYCH_STATUS_ACTIVE = !s.roleB)) ) = true) := by
  iterate 2 refine ⟨by decide +kernel, ?_⟩
  decide +kernel

/-- Every clause of PairRunning has a case that meets its hypotheses, and the command completes there as the clause says. -/
theorem runs_PairRunning :
    (let n : Nat := 3;
      let s : State := ((({ (up.page Pg.DIPTYCH 2) with dip := { late := true } }).setF Pg.DIPTYCH Reg.DIPTYCH_STATUS_PAIR 2).setF Pg.SYS Reg.SYS_STRAPS 0); ((s.isOn Pg.DIPTYCH = true)) ∧ (answer (exec (.digestLaunch n) s) fun u => decide ((u.dip.digests.head? = some (n, (s.upTo (t0 n + 13760)).digest n, s.f Pg.DIPTYCH Reg.DIPTYCH_MCOUNT)) ∧ ((s.dip.declareDue = false → u.fb Pg.DIPTYCH Reg.DIPTYCH_STATUS_READY = (decide (s.pairState = pairLockstep) && !s.dip.barred && !s.dip.late)))) ) = true) ∧
    (let t : Nat := 700; let frame : Word := 3; let w2 : Word := 0x50002; let digest : Word := 77;
      let s : State := ((({ (up.page Pg.DIPTYCH 2) with dip := { late := false } }).setF Pg.DIPTYCH Reg.DIPTYCH_STATUS_PAIR 2).setF Pg.SYS Reg.SYS_STRAPS 0); ((s.isOn Pg.DIPTYCH = true)) ∧ (answer (exec (.digestReceive t frame w2 digest) s) fun u => decide ((u.dip.latest = some ⟨frame.toNat, w2.toNat / 2 ^ 16, w2.toNat.testBit 4, w2.toNat.testBit 2, w2.toNat.testBit 1, w2.toNat.testBit 0, digest.toNat⟩) ∧ (u.fb Pg.DIPTYCH Reg.DIPTYCH_STATUS_PARTNER_READY = w2.toNat.testBit 1)) ) = true) ∧
    (let n : Nat := 3; let atCut : Bool := true;
      let s : State := (((({ (up.page Pg.DIPTYCH 2) with dip := { latest := some ⟨3, 0, false, true, true, false, 0⟩ } }).setF Pg.DIPTYCH Reg.DIPTYCH_STATUS_PAIR 2).setF Pg.SYS Reg.SYS_STRAPS 1)).setF Pg.DIPTYCH Reg.DIPTYCH_STATUS_READY 1; (((s.upTo (if atCut then cutOf n else t0 n + 3840)).takeoverDue = true)) ∧ (answer (exec (.takeoverEval n atCut) s) fun u => decide ((u.pairState = pairTakenOver) ∧ (u.fb Pg.DIPTYCH Reg.DIPTYCH_STATUS_ACTIVE = true) ∧ (u.isActive = true) ∧ (u.f Pg.DIPTYCH Reg.DIPTYCH_TAKEOVERS = satU (s.f Pg.DIPTYCH Reg.DIPTYCH_TAKEOVERS + 1) Reg.DIPTYCH_TAKEOVERS.width) ∧ (u.noCamera = true)) ) = true) ∧
    (let t : Nat := 700; let key : BitVec 8 := 0x5A; let b : Beat := ⟨3, 0, false, false, true, false, 0⟩;
      let s : State := ((({ (up.page Pg.DIPTYCH 2) with dip := { latest := some ⟨3, 0, false, false, true, false, 0⟩ } }).setF Pg.DIPTYCH Reg.DIPTYCH_STATUS_PAIR 2).setF Pg.SYS Reg.SYS_STRAPS 0); ((s.pageOn Pg.DIPTYCH = true) ∧ (key = 0x5A#8) ∧ (s.roleB = false) ∧ (s.pairState = pairLockstep) ∧ (s.dip.declareDue = false) ∧ (s.dip.latest = some b) ∧ (b.ready = true)) ∧ (answer (exec (.handover t key) s) fun u => decide ((u.dip.declareDue = true)) ) = true) ∧
    (let t : Nat := 700; let arr : BitVec 48 := 600; let port : Fin 2 := 1; let op : Fin 4 := 1; let tag : BitVec 16 := 5;
      let addr : BitVec 40 := 0x400000000; let count : Fin 256 := 3; let cross : Bool := false; let data : List Byte := [1, 2, 3, 4];
      let s : State := ((({ (up.page Pg.DIPTYCH 2) with dip := { late := false } }).setF Pg.DIPTYCH Reg.DIPTYCH_STATUS_PAIR 2).setF Pg.SYS Reg.SYS_STRAPS 1); ((s.isOn Pg.DIPTYCH = true) ∧ (s.roleB = true) ∧ (s.pairState = pairLockstep) ∧ (s.dip.seen.contains (near48 (s.upTo t).now arr.toNat, port.val) = false) ∧ (sdiff48 ((s.upTo t).now : Nat) (near48 (s.upTo t).now arr.toNat + s.f Pg.DIPTYCH Reg.DIPTYCH_MIRROR_LAT : Nat) ≤ 0)) ∧ (answer (exec (.mirrorTxnReceive t arr port op tag addr count cross data) s) fun u => decide ((u.dip.queue = s.dip.queue ++ [⟨port, near48 (s.upTo t).now arr.toNat, op, tag.toNat, addr.toNat, count, cross, data⟩]) ∧ (u.dip.late = s.dip.late)) ) = true) ∧
    (let t : Nat := 15000; let q : Txn := ⟨1, 600, 1, 5, 0x400000000, 3, false, [1, 2, 3, 4]⟩;
      let s : State := ((((({ (up.page Pg.DIPTYCH 2) with dip := { queue := [⟨1, 600, 1, 5, 0x400000000, 3, false, [1, 2, 3, 4]⟩] } }).setF Pg.DIPTYCH Reg.DIPTYCH_STATUS_PAIR 2).setF Pg.SYS Reg.SYS_STRAPS 1)).page (Pg.DRAM 0) 2).page (Pg.DRAM 1) 2; ((s.nextTxn = some q) ∧ ((s.upTo t).past (q.arr + s.f Pg.DIPTYCH Reg.DIPTYCH_MIRROR_LAT) = true) ∧ ((((s.upTo t).setDip fun x => { x with queue := x.queue.erase q }).setF Pg.DIPTYCH Reg.DIPTYCH_MCOUNT (s.f Pg.DIPTYCH Reg.DIPTYCH_MCOUNT + 1)).txnStop q = none) ∧ ((q.op = 0 ∨ q.op = 3 ∨ 0x100000 ≤ q.addr))) ∧ (answer (exec (.mirrorApply t) s) fun u => decide ((u.dip.queue = s.dip.queue.erase q) ∧ (u.f Pg.DIPTYCH Reg.DIPTYCH_MCOUNT = (s.f Pg.DIPTYCH Reg.DIPTYCH_MCOUNT + 1) % 2 ^ 32)) ) = true) ∧
    (let t : Nat := 15000; let q : Txn := ⟨1, 600, 1, 5, 0x85050, 3, false, leBytes 4 7⟩; let v : Word := 7;
      let s : State := ((((({ (up.page Pg.DIPTYCH 2) with dip := { queue := [⟨1, 600, 1, 5, 0x85050, 3, false, leBytes 4 7⟩] } }).setF Pg.DIPTYCH Reg.DIPTYCH_STATUS_PAIR 2).setF Pg.SYS Reg.SYS_STRAPS 1)).page (Pg.DRAM 0) 2).page (Pg.DRAM 1) 2; ((s.nextTxn = some q) ∧ ((s.upTo t).past (q.arr + s.f Pg.DIPTYCH Reg.DIPTYCH_MIRROR_LAT) = true) ∧ ((((s.upTo t).setDip fun x => { x with queue := x.queue.erase q }).setF Pg.DIPTYCH Reg.DIPTYCH_MCOUNT (s.f Pg.DIPTYCH Reg.DIPTYCH_MCOUNT + 1)).txnStop q = none) ∧ ((q.op = 1 ∨ q.op = 2)) ∧ (q.addr < 0x100000) ∧ (q.data = leBytes 4 v.toNat) ∧ (0x028 ≤ (q.addr % 0x1000)) ∧ ((pageBlk (q.addr / 0x1000) ∈ ([some .laser, some .glaze, some .raster, some .axis, some .cam, some .vision, some .light, some .dram, some .therm, some .evcol] : List (Option Blk)))) ∧ (((s.upTo t).pageDue (q.addr / 0x1000)).writeStop (q.addr / 0x1000) (q.addr % 0x1000) v = none) ∧ (((s.upTo t).pageDue (q.addr / 0x1000)).writeIgnored (q.addr / 0x1000) (q.addr % 0x1000) = false)) ∧ (answer (exec (.mirrorApply t) s) fun u => decide ((u.dip.queue = s.dip.queue.erase q) ∧ (u.word q.addr = (if q.port % 2 = 0 ∧ (s.upTo t).sameCycle 1 q.addr ≠ [] then (((((s.upTo t).pageDue (q.addr / 0x1000)).word q.addr &&& ~~~(BitVec.ofNat 32 (accMask (q.addr / 0x1000) (q.addr % 0x1000) .rw ||| accMask (q.addr / 0x1000) (q.addr % 0x1000) .rws)) &&& ~~~(v &&& BitVec.ofNat 32 (accMask (q.addr / 0x1000) (q.addr % 0x1000) .w1c))) ||| (v &&& BitVec.ofNat 32 (accMask (q.addr / 0x1000) (q.addr % 0x1000) .rw ||| accMask (q.addr / 0x1000) (q.addr % 0x1000) .rws))) &&& ~~~(BitVec.ofNat 32 (accMask (q.addr / 0x1000) (q.addr % 0x1000) .rw ||| accMask (q.addr / 0x1000) (q.addr % 0x1000) .rws))) ||| (s.word q.addr &&& (BitVec.ofNat 32 (accMask (q.addr / 0x1000) (q.addr % 0x1000) .rw ||| accMask (q.addr / 0x1000) (q.addr % 0x1000) .rws))) else ((((s.upTo t).pageDue (q.addr / 0x1000)).word q.addr &&& ~~~(BitVec.ofNat 32 (accMask (q.addr / 0x1000) (q.addr % 0x1000) .rw ||| accMask (q.addr / 0x1000) (q.addr % 0x1000) .rws)) &&& ~~~(v &&& BitVec.ofNat 32 (accMask (q.addr / 0x1000) (q.addr % 0x1000) .w1c))) ||| (v &&& BitVec.ofNat 32 (accMask (q.addr / 0x1000) (q.addr % 0x1000) .rw ||| accMask (q.addr / 0x1000) (q.addr % 0x1000) .rws)))))) ) = true) ∧
    (let n : Nat := 3; let l : Fin 20 := 2; let pl : List Byte := leBytes 4 (1 * 2 ^ 28) ++ leBytes 4 3 ++ leBytes 4 0 ++ List.replicate 32 0xFF#8;
      let s : State := (((({ (up.page Pg.DIPTYCH 2) with dip := { late := false } }).setF Pg.DIPTYCH Reg.DIPTYCH_STATUS_PAIR 2).setF Pg.SYS Reg.SYS_STRAPS 0).page (Pg.LINK 2) 2).setF (Pg.LINK 2) Reg.LANE_LANE_STATUS_PHASE 4; ((s.isOn Pg.DIPTYCH = true) ∧ (s.roleB = false) ∧ ((l = 2 ∨ l = 3)) ∧ (s.laneUp l.val = true) ∧ (s.lanes[l].waits = []) ∧ (pl = leBytes 4 (1 * 2 ^ 28) ++ leBytes 4 n ++ leBytes 4 0 ++ (s.medium.samples.toList.flatMap fun m => sampleWord (if s.medium.samplesOf = n then m else none))) ∧ ((s.upTo (t0 n + 640)).mayStart l ⟨0x0A, (s.upTo (t0 n + 640)).nextSeq l 0x0A, 0, pl⟩ = true)) ∧ (answer (exec (.mirrorMediumLaunch n) s) fun u => decide ((u.lanes[l].tx.map (fun q => (q.2.ty, q.2.payload)) = some (0x0A, pl)) ∧ (u.lanes[l].waits = [])) ) = true) ∧
    (let n : Nat := 3; let l : Fin 20 := 2; let pl : List Byte := leBytes 4 (1 * 2 ^ 28) ++ leBytes 4 3 ++ leBytes 4 0 ++ List.replicate 32 0xFF#8;
      let s : State := ((((({ (up.page Pg.DIPTYCH 2) with dip := { late := false } }).setF Pg.DIPTYCH Reg.DIPTYCH_STATUS_PAIR 2).setF Pg.SYS Reg.SYS_STRAPS 0).page (Pg.LINK 2) 2).setF (Pg.LINK 2) Reg.LANE_LANE_STATUS_PHASE 4).setLane 2 fun x => { x with freeAt := 200000 }; ((s.isOn Pg.DIPTYCH = true) ∧ (s.roleB = false) ∧ ((l = 2 ∨ l = 3)) ∧ (s.laneUp l.val = true) ∧ (s.lanes[l].waits = []) ∧ (pl = leBytes 4 (1 * 2 ^ 28) ++ leBytes 4 n ++ leBytes 4 0 ++ (s.medium.samples.toList.flatMap fun m => sampleWord (if s.medium.samplesOf = n then m else none))) ∧ ((s.upTo (t0 n + 640)).mayStart l ⟨0x0A, (s.upTo (t0 n + 640)).nextSeq l 0x0A, 0, pl⟩ = false)) ∧ (answer (exec (.mirrorMediumLaunch n) s) fun u => decide ((u.lanes[l].waits = [(0x0A, pl)]) ∧ (u.lanes[l].tx = s.lanes[l].tx)) ) = true) ∧
    (let t : Nat := 49000; let frame : Word := 3; let words : Vector (BitVec 64) 4 := #v[5, 6, 7, 0xFFFF000000000000];
      let s : State := ((({ (up.page Pg.DIPTYCH 2) with dip := { late := false } }).setF Pg.DIPTYCH Reg.DIPTYCH_STATUS_PAIR 2).setF Pg.SYS Reg.SYS_STRAPS 1); ((s.live t) ∧ (s.isOn Pg.DIPTYCH = true) ∧ (s.roleB = true) ∧ (frame.toNat = frameOf t % 2 ^ 32) ∧ ((s.medium.mirror.any fun m => m.1 == frameOf t) = false) ∧ (sdiff48 (t : Nat) (t0 (frameOf t) + 3200 : Nat) ≤ 0)) ∧ (answer (exec (.mirrorMediumReceive t frame words) s) fun u => decide ((u.medium.mirror = some (frameOf t, words.toList.map fun w => if w.toNat / 2 ^ 48 = 0xFFFF then none else some ⟨w.toNat % 2 ^ 48, w.toNat / 2 ^ 48⟩))) ) = true) := by
  iterate 9 refine ⟨by decide +kernel, ?_⟩
  decide +kernel

/-- Every clause of FrameInstants has a case that meets its hypotheses, and the command completes there as the clause says. -/
theorem runs_FrameInstants :
    (let n : Nat := 3;
      let s : State := { up with time := { up.time with nextRate := some 5 } }; ((s.live (t0 n)) ∧ ((∀ b : Fin 16, (s.isOn (Pg.BRUSH b) = true ∨ s.st (Pg.BRUSH b) = stStarting) → s.brushes[b].force = none ∧ s.brushes[b].queue = [] ∧ s.brushes[b].past = []))) ∧ (answer (exec (.frameStart n) s) fun u => decide ((u.medium.samplesOf = n) ∧ (u.time.nextRate = none) ∧ (u.time.nextStep = none) ∧ (u.time.nextAdj = none) ∧ ((∀ r ∈ s.time.nextRate, u.fi Pg.TIME Reg.TIME_RATE = signed 24 (wrapU 24 r)))) ) = true) ∧
    (let n : Nat := 3;
      let s : State := up.page Pg.VISION 2; ((s.live (t0 n)) ∧ ((∀ b : Fin 16, (s.isOn (Pg.BRUSH b) = true ∨ s.st (Pg.BRUSH b) = stStarting) → s.brushes[b].force = none ∧ s.brushes[b].queue = [] ∧ s.brushes[b].past = [])) ∧ (s.isOn Pg.VISION = true) ∧ (s.peerMet = false) ∧ (s.noCamera = false)) ∧ (answer (exec (.frameStart n) s) fun u => decide ((u.vision.batches.getLast?.map Prod.fst = some n)) ) = true) ∧
    (let n : Nat := 3;
      let s : State := ((((up.brushing 3).page (Pg.LASER 0) 2).setBrush 0 fun x => { x with force := some (testSheet 3), log := [(40000, 7), (30000, 6)], anchorT := 30000, prevEnd := 40000 }).setBrush 0 fun x => { x with cur := none }); ((s.live (t0 n)) ∧ (s.plainLists)) ∧ (answer (exec (.frameStart n) s) fun u => decide ((u.medium.samplesOf = n) ∧ (u.time.nextRate = none) ∧ (u.time.nextStep = none) ∧ (u.time.nextAdj = none) ∧ ((∀ r ∈ s.time.nextRate, u.fi Pg.TIME Reg.TIME_RATE = signed 24 (wrapU 24 r))) ∧ ((∀ b : Fin 16, s.domOn 3 = true → s.isOn (Pg.BRUSH b) = true → u.isOn (Pg.BRUSH b) = true → u.f (Pg.BRUSH b) Reg.BRUSH_STROKE_INDEX = (if u.brushes[b].force.isSome then u.brushes[b].strokeAt (t0 n) else 0xFFFFFFFF) % 2 ^ 32))) ) = true) ∧
    (let n : Nat := 3;
      let s : State := { (up.page Pg.MEDIUM 2).setF Pg.MEDIUM Reg.MEDIUM_MODE_CTRL_MOVING 1 with medium := { p := 5, v := 70000 } }; ((s.live (t0 n + 3200)) ∧ (s.domOn 3 = true) ∧ (s.isOn Pg.MEDIUM = true) ∧ (s.moving = true) ∧ (((s.upTo (t0 n + 3200)).ownStream n).mediumSample n = none)) ∧ (answer (exec (.estimatorUpdate n) s) fun u => decide ((u.medium.frame = n) ∧ (u.medium.p = wrapS 64 (s.medium.p + rnd (s.medium.v * 16000) 16)) ∧ (u.medium.v = s.medium.v) ∧ (u.medium.c64 = s.medium.c64) ∧ (u.medium.c48 = s.medium.c48)) ) = true) ∧
    (let n : Nat := 3; let w : MSample := ⟨9, 4⟩; let pp : Int := wrapS 64 (5 + rnd (70000 * 16000) 16); let c : Int := 9;
      let q : Int := ((rnd (State.reset.encScale 0) 16).natAbs : Int); let x : Int := wrapS 64 (rnd ((70000 : Int) * 4 * 8) 16);
      let ext : Int := min (max x (1 - q)) (q - 1); let r : Int := wrapS 64 (wrapS 64 (rnd (c * (State.reset.encScale 0)) 16 + ext) - pp);
      let s : State := { (up.page Pg.MEDIUM 2).setF Pg.MEDIUM Reg.MEDIUM_MODE_CTRL_MOVING 1 with medium := { p := 5, v := 70000, samplesOf := 3, samples := #v[some ⟨9, 4⟩, none, none, none] } }; ((s.live (t0 n + 3200)) ∧ (s.domOn 3 = true) ∧ (s.isOn Pg.MEDIUM = true) ∧ (s.moving = true) ∧ (((s.upTo (t0 n + 3200)).ownStream n).mediumSample n = some w) ∧ (pp = wrapS 64 (s.medium.p + rnd (s.medium.v * 16000) 16)) ∧ (c = wrapS 64 (s.medium.c64 + sdiff48 w.count s.medium.c48)) ∧ (q = (rnd (s.encScale s.mediumSrc) 16).natAbs) ∧ (x = wrapS 64 (rnd (s.medium.v * w.age * 8) 16)) ∧ (ext = (if s.f (Pg.ENC s.mediumSrc) Reg.ENC_ENC_CFG_MODE = 2 then x else min (max x (1 - q)) (q - 1))) ∧ (r = wrapS 64 (wrapS 64 (rnd (c * (s.encScale s.mediumSrc)) 16 + signed 48 (s.actPair Pg.MEDIUM Reg.MEDIUM_ORIGIN_LO Reg.MEDIUM_ORIGIN_HI) * 2 ^ 16 + ext) - pp))) ∧ (answer (exec (.estimatorUpdate n) s) fun u => decide ((u.medium.frame = n) ∧ (u.medium.c64 = c) ∧ (u.medium.c48 = w.count) ∧ (u.medium.p = wrapS 64 (pp + rnd (r * s.a Pg.MEDIUM Reg.MEDIUM_GAINS_KA) 16)) ∧ (u.medium.v = sat (s.medium.v + rnd (r * s.a Pg.MEDIUM Reg.MEDIUM_GAINS_KB) 16) 40)) ) = true) ∧
    (let n : Nat := 3;
      let s : State := (up.page (Pg.AXIS 5) 2).setAxis 5 fun x => { x with cmd := 9 }; ((s.live (cutOf n)) ∧ ((∀ b : Fin 16, (s.isOn (Pg.BRUSH b) = true ∨ s.st (Pg.BRUSH b) = stStarting) → s.brushes[b].force = none ∧ s.brushes[b].queue = [] ∧ s.brushes[b].past = [])) ∧ (s.domOn 4 = true) ∧ ((∀ a : Fin 64, s.axes[a].overran = false ∧ s.axes[a].fe = none ∧ s.axes[a].pend = 0))) ∧ (answer (exec (.exchangeCut n) s) fun u => decide (((∀ a : Fin 64, u.axes[a].final = s.axes[a].cmd ∧ u.axes[a].aux = (if s.isOn (Pg.AXIS a) then s.axes[a].cmd else 0)))) ) = true) ∧
    (let n : Nat := 3;
      let s : State := ((((up.brushing 3).page (Pg.LASER 0) 2).setBrush 0 fun x => { x with force := some (testSheet 3), log := [(40000, 7), (30000, 6)], anchorT := 30000, prevEnd := 40000 }).setBrush 0 fun x => { x with cur := none }); ((s.live (cutOf n)) ∧ ((∀ b : Fin 16, s.isOn (Pg.BRUSH b) = true → ((s.upTo (cutOf n)).decided b).length ≤ 2))) ∧ (answer (exec (.exchangeCut n) s) fun u => decide (((∀ b : Fin 16, s.domOn 3 = true → u.isOn (Pg.BRUSH b) = true → u.lasers[b].edgesA.take (s.upTo (cutOf n)).lasers[b].edgesA.length = (s.upTo (cutOf n)).lasers[b].edgesA ∧ u.lasers[b].edgesB.take (s.upTo (cutOf n)).lasers[b].edgesB.length = (s.upTo (cutOf n)).lasers[b].edgesB)) ∧ ((∀ b : Fin 16, s.domOn 3 = true → u.isOn (Pg.BRUSH b) = true → u.lasers[b].edgesA.drop (s.upTo (cutOf n)).lasers[b].edgesA.length = u.lasers[b].edgesB.drop (s.upTo (cutOf n)).lasers[b].edgesB.length)) ∧ ((∀ b : Fin 16, s.domOn 3 = true → u.isOn (Pg.BRUSH b) = true → (u.lasers[b].edgesA.drop (s.upTo (cutOf n)).lasers[b].edgesA.length).all (fun d => inFrame (t0 (n + 1)) d.tick) = true)) ∧ ((s.domOn 4 = true → (∀ a : Fin 64, s.axes[a].overran = false ∧ s.axes[a].fe = none ∧ s.axes[a].pend = 0) → (∀ a : Fin 64, u.axes[a].final = s.axes[a].cmd ∧ u.axes[a].aux = (if s.isOn (Pg.AXIS a) then s.axes[a].cmd else 0))))) ) = true) := by
  iterate 6 refine ⟨by decide +kernel, ?_⟩
  decide +kernel

/-- Every clause of PageHeaders has a case that meets its hypotheses, and the command completes there as the clause says. -/
theorem runs_PageHeaders :
    (let t : Nat := 700; let p : Fin 256 := 0x20; let en : Bool := true;
      let s : State := up; ((s.pageOn p.val = true) ∧ ((pageBlk p.val).isSome = true) ∧ ((en = true → s.enableBreach p.val = none)) ∧ ((en = true → s.fb Pg.CLK Reg.CLK_STATUS_SAFE_HOLD = false ∧ (p.val ≠ Pg.SYS ∨ s.fuseBad = false))) ∧ ((en = false → p.val ≠ Pg.CLK ∧ p.val ≠ Pg.PWR ∧ p.val ≠ Pg.KNIFE ∧ p.val ≠ Pg.THERM ∧ s.isReference p.val = false))) ∧ (answer (exec (.ctrlEnWrite t p en) s) fun u => decide ((u.fb p.val Reg.CTRL_EN = en) ∧ ((s.f p.val Reg.STATE_STATE = stOff → en = true → u.f p.val Reg.STATE_STATE = stStarting))) ) = true) ∧
    (let t : Nat := 700; let p : Fin 256 := 0x85;
      let s : State := (up.page (Pg.AXIS 5) 2).setWord (regAddr 0x85 0x14) 7#32; ((s.pageOn p.val = true) ∧ ((pageBlk p.val).isSome = true) ∧ ((p.val ≠ Pg.SYS ∧ p.val ≠ Pg.CLK ∧ p.val ≠ Pg.PWR ∧ p.val ≠ Pg.KNIFE ∧ p.val ≠ Pg.THERM)) ∧ (s.isReference p.val = false)) ∧ (answer (exec (.softReset t p) s) fun u => decide ((u.word (regAddr p.val 0x008) = resetWord (regAddr p.val 0x008)) ∧ (u.word (regAddr p.val 0x00C) = resetWord (regAddr p.val 0x00C)) ∧ (u.word (regAddr p.val 0x014) = resetWord (regAddr p.val 0x014))) ) = true) ∧
    (let t : Nat := 700; let p : Fin 256 := 0x85;
      let s : State := up; ((s.pageOn p.val = true) ∧ ((pageBlk p.val).isSome = true) ∧ ((pageCaps p.val).testBit 8 = true) ∧ (s.fb p.val Reg.COMMIT_PENDING = false)) ∧ (answer (exec (.commit t p) s) fun u => decide ((u.fb p.val Reg.COMMIT_PENDING = true) ∧ (u.commitTick p.val = (s.upTo t).now)) ) = true) ∧
    (let t : Nat := 16000; let p : Fin 256 := ⟨Pg.MEDIUM, by decide⟩;
      let s : State := ((up.setF Pg.MEDIUM Reg.COMMIT_PENDING 1).setCommitTick Pg.MEDIUM 90).setWord (regAddr Pg.MEDIUM 0x4C) 77#32; ((s.pageOn p.val = true) ∧ ((s.upTo t).atBoundary p.val = true) ∧ (s.fb p.val Reg.COMMIT_PENDING = true) ∧ (0 < sdiff48 (s.upTo t).now (s.commitTick p.val)) ∧ ((pageBlk p.val ≠ some .step ∨ (s.upTo t).zeroLimits (stepOf p.val) (s.upTo t).now = false)) ∧ ((pageBlk p.val ≠ some .medium ∨ s.fb p.val Reg.MEDIUM_MODE_CTRL_GEOM = false ∨ 2 ^ 16 ≤ s.shadowPair p.val Reg.MEDIUM_TURN_LO Reg.MEDIUM_TURN_HI (s.upTo t).now))) ∧ (answer (exec (.shadowTransfer t p) s) fun u => decide ((u.fb p.val Reg.COMMIT_PENDING = false) ∧ ((∀ k ∈ rwsWords p.val, u.actWord (regAddr p.val k) = s.shadowAt p.val k (s.upTo t).now))) ) = true) ∧
    (let t : Nat := 700; let p : Fin 256 := ⟨Pg.TIME, by decide⟩;
      let s : State := up; ((s.pageOn p.val = true) ∧ ((pageBlk p.val).isSome = true) ∧ ((pageCaps p.val).testBit 9 = true) ∧ (p.val ≠ Pg.KNIFE)) ∧ (answer (exec (.snapshotTake t p) s) fun u => decide (((∀ k ∈ snapOffs p.val, u.snapWord (regAddr p.val k) = ((s.upTo t).pageDue p.val).liveWord p.val k))) ) = true) ∧
    (let t : Nat := 700; let p : Fin 256 := ⟨Pg.EVCOL, by decide⟩;
      let s : State := up.page Pg.EVCOL 1; ((((s.upTo t).pageDue p.val).st p.val = stStarting) ∧ (((s.upTo t).pageDue p.val).startDone p.val = true)) ∧ (answer (exec (.blockSequenceEnd t p) s) fun u => decide ((u.st p.val = stOn)) ) = true) ∧
    (let t : Nat := 700; let p : Fin 256 := ⟨Pg.EVCOL, by decide⟩;
      let s : State := (up.page Pg.EVCOL 3).setF Pg.EVCOL Reg.CTRL_EN 0; ((((s.upTo t).pageDue p.val).st p.val = stStopping) ∧ (((s.upTo t).pageDue p.val).stopDone p.val = true)) ∧ (answer (exec (.blockSequenceEnd t p) s) fun u => decide ((u.st p.val = stOff)) ) = true) ∧
    (let t : Nat := 700; let p : Fin 256 := ⟨Pg.EVCOL, by decide⟩;
      let s : State := up.page Pg.EVCOL 0; ((((s.upTo t).pageDue p.val).pageOn p.val = true) ∧ (((s.upTo t).pageDue p.val).st p.val = stOff) ∧ (((s.upTo t).pageDue p.val).en p.val = true) ∧ (((s.upTo t).pageDue p.val).elapsed (((s.upTo t).pageDue p.val).entered p.val) (pagePeriod p.val) = true)) ∧ (answer (exec (.blockTransitCycleEnd t p) s) fun u => decide ((u.f p.val Reg.STATE_STATE = stStarting)) ) = true) ∧
    (let t : Nat := 700; let p : Fin 256 := ⟨Pg.EVCOL, by decide⟩;
      let s : State := (up.page Pg.EVCOL 2).setF Pg.EVCOL Reg.CTRL_EN 0; ((((s.upTo t).pageDue p.val).pageOn p.val = true) ∧ ((((s.upTo t).pageDue p.val).st p.val = stOn ∨ ((s.upTo t).pageDue p.val).st p.val = stFault)) ∧ (((s.upTo t).pageDue p.val).en p.val = false) ∧ (((s.upTo t).pageDue p.val).elapsed (((s.upTo t).pageDue p.val).entered p.val) (pagePeriod p.val) = true)) ∧ (answer (exec (.blockTransitCycleEnd t p) s) fun u => decide ((u.f p.val Reg.STATE_STATE = stStopping)) ) = true) := by
  iterate 8 refine ⟨by decide +kernel, ?_⟩
  decide +kernel

/-- Every clause of RegisterAccess has a case that meets its hypotheses, and the command completes there as the clause says. -/
theorem runs_RegisterAccess :
    (let t : Nat := 700; let addr : Nat := 0x85050; let v : Word := 0x12345678;
      let s : State := up; ((addr < 0x100000) ∧ (addr % 4 = 0) ∧ (s.pwr.sysOn = true) ∧ ((addr % 0x1000) ≥ 0x028) ∧ ((pageBlk (addr / 0x1000) ∈ ([some .laser, some .glaze, some .raster, some .axis, some .cam, some .vision, some .light, some .dram, some .therm, some .evcol] : List (Option Blk)))) ∧ (((s.upTo t).pageDue (addr / 0x1000)).writeStop (addr / 0x1000) (addr % 0x1000) v = none) ∧ (((s.upTo t).pageDue (addr / 0x1000)).writeIgnored (addr / 0x1000) (addr % 0x1000) = false)) ∧ (answer (exec (.registerWrite t addr v) s) fun u => decide ((u.word addr = ((((s.upTo t).pageDue (addr / 0x1000)).word addr &&& ~~~(BitVec.ofNat 32 (accMask (addr / 0x1000) (addr % 0x1000) .rw ||| accMask (addr / 0x1000) (addr % 0x1000) .rws)) &&& ~~~(v &&& BitVec.ofNat 32 (accMask (addr / 0x1000) (addr % 0x1000) .w1c))) ||| (v &&& BitVec.ofNat 32 (accMask (addr / 0x1000) (addr % 0x1000) .rw ||| accMask (addr / 0x1000) (addr % 0x1000) .rws))))) ) = true) ∧
    (let t : Nat := 700; let addr : Nat := regAddr Pg.THERM Reg.THERM_PEAK_HIGH.off;
      let s : State := up.setF Pg.THERM Reg.THERM_PEAK_HIGH 77; ((addr < 0x100000) ∧ (addr % 4 = 0) ∧ (s.pwr.sysOn = true) ∧ (s.readStop addr = none) ∧ (¬ (pageBlk (addr / 0x1000) = some .ltport ∧ (addr % 0x1000) = Reg.LTPORT_RESP_INFO_ANS.off))) ∧ (answer (exec (.registerReadClear t addr) s) fun u => decide ((u.word addr = (if accMask (addr / 0x1000) (addr % 0x1000) .rc = 0 then s.word addr else (s.word addr &&& ~~~(BitVec.ofNat 32 (accMask (addr / 0x1000) (addr % 0x1000) .rc))) ||| (resetWord addr &&& BitVec.ofNat 32 (accMask (addr / 0x1000) (addr % 0x1000) .rc))))) ) = true) ∧
    (let t : Nat := 700; let port : Fin 2 := 1; let tag : BitVec 16 := 9; let addr : BitVec 40 := 0x85050; let count : Fin 256 := 3;
      let data : List Byte := leBytes 4 7; let v : Word := 7;
      let s : State := (((up.page (Pg.LINK 1) 2).setF (Pg.LINK 1) Reg.LANE_LANE_STATUS_PHASE 4).page (Pg.DRAM 0) 2).page (Pg.DRAM 1) 2; (((s.upTo t).applies ((s.upTo t).arriving port 1 tag addr.toNat count false data)) ∧ (count.val = 3) ∧ (data = leBytes 4 v.toNat) ∧ (((s.upTo t).pageDue (addr.toNat / 0x1000)).storable addr.toNat v)) ∧ (answer (exec (.txnWrite t port tag addr count data) s) fun u => decide ((u.word addr.toNat = (if port.val = 0 ∧ (s.upTo t).sameCycle 1 addr.toNat ≠ [] then (((s.upTo t).pageDue (addr.toNat / 0x1000)).written addr.toNat v &&& ~~~(BitVec.ofNat 32 (accMask (addr.toNat / 0x1000) (addr.toNat % 0x1000) .rw ||| accMask (addr.toNat / 0x1000) (addr.toNat % 0x1000) .rws))) ||| (s.word addr.toNat &&& (BitVec.ofNat 32 (accMask (addr.toNat / 0x1000) (addr.toNat % 0x1000) .rw ||| accMask (addr.toNat / 0x1000) (addr.toNat % 0x1000) .rws))) else ((s.upTo t).pageDue (addr.toNat / 0x1000)).written addr.toNat v)) ∧ (u.lanes[(hostLane port.val)].cpls.map Cpl.answer = s.lanes[(hostLane port.val)].cpls.map Cpl.answer ++ [(tag.toNat, 1, count.val, [])])) ) = true) ∧
    (let t : Nat := 700; let port : Fin 2 := 1; let tag : BitVec 16 := 9; let addr : BitVec 40 := 0x85050; let count : Fin 256 := 3;
      let data : List Byte := leBytes 4 7; let v : Word := 7;
      let s : State := (((up.page (Pg.LINK 1) 2).setF (Pg.LINK 1) Reg.LANE_LANE_STATUS_PHASE 4).page (Pg.DRAM 0) 2).page (Pg.DRAM 1) 2; (((s.upTo t).applies ((s.upTo t).arriving port 2 tag addr.toNat count false data)) ∧ (count.val = 3) ∧ (data = leBytes 4 v.toNat) ∧ (((s.upTo t).pageDue (addr.toNat / 0x1000)).storable addr.toNat v)) ∧ (answer (exec (.txnWritePosted t port tag addr count data) s) fun u => decide ((u.word addr.toNat = (if port.val = 0 ∧ (s.upTo t).sameCycle 1 addr.toNat ≠ [] then (((s.upTo t).pageDue (addr.toNat / 0x1000)).written addr.toNat v &&& ~~~(BitVec.ofNat 32 (accMask (addr.toNat / 0x1000) (addr.toNat % 0x1000) .rw ||| accMask (addr.toNat / 0x1000) (addr.toNat % 0x1000) .rws))) ||| (s.word addr.toNat &&& (BitVec.ofNat 32 (accMask (addr.toNat / 0x1000) (addr.toNat % 0x1000) .rw ||| accMask (addr.toNat / 0x1000) (addr.toNat % 0x1000) .rws))) else ((s.upTo t).pageDue (addr.toNat / 0x1000)).written addr.toNat v)) ∧ (u.f (lanePage (hostLane port.val)) Reg.FRAME_FRAME_STATUS_POSTED_DONE = (s.f (lanePage (hostLane port.val)) Reg.FRAME_FRAME_STATUS_POSTED_DONE + 1) % 2 ^ Reg.FRAME_FRAME_STATUS_POSTED_DONE.width)) ) = true) ∧
    (let t : Nat := 700; let port : Fin 2 := 1; let tag : BitVec 16 := 9; let addr : BitVec 40 := 0x85050; let count : Fin 256 := 3;
      let s : State := (((up.page (Pg.LINK 1) 2).setF (Pg.LINK 1) Reg.LANE_LANE_STATUS_PHASE 4).page (Pg.DRAM 0) 2).page (Pg.DRAM 1) 2; (((s.upTo t).applies ((s.upTo t).arriving port 0 tag addr.toNat count false [])) ∧ (addr.toNat < 0x100000) ∧ (count.val = 3) ∧ ((port.val = 1 ∨ (s.upTo t).hostCycle = []))) ∧ (answer (exec (.txnRead t port tag addr count) s) fun u => decide ((u.lanes[(hostLane port.val)].cpls.map Cpl.answer = s.lanes[(hostLane port.val)].cpls.map Cpl.answer ++ [(tag.toNat, 0, 3, leBytes 4 (((s.upTo t).counted ((s.upTo t).arriving port 0 tag addr.toNat count false [])).readWord (addr.toNat / 0x1000) (addr.toNat % 0x1000)).toNat)])) ) = true) ∧
    (let t : Nat := 700; let port : Fin 2 := 0; let tag : BitVec 16 := 9; let addr : BitVec 40 := 0x85050; let count : Fin 256 := 3;
      let e : HostWrite := ⟨1, 0x85050, [9, 9, 9, 9], [1, 2, 3, 4], 698⟩;
      let s : State := { ((up.page (Pg.LINK 0) 2).setF (Pg.LINK 0) Reg.LANE_LANE_STATUS_PHASE 4) with hostCycle := [⟨1, 0x85050, [9, 9, 9, 9], [1, 2, 3, 4], 698⟩] }; (((s.upTo t).applies ((s.upTo t).arriving port 0 tag addr.toNat count false [])) ∧ (addr.toNat < 0x100000) ∧ (count.val = 3) ∧ (port.val = 0) ∧ ((∀ k : Fin 4, (s.upTo t).sameCycle 0 (addr.toNat + k.val) = [] ∧ ((s.upTo t).sameCycle 1 (addr.toNat + k.val)).getLast? = some e))) ∧ (answer (exec (.txnRead t port tag addr count) s) fun u => decide ((u.lanes[(hostLane port.val)].cpls.map Cpl.answer = s.lanes[(hostLane port.val)].cpls.map Cpl.answer ++ [(tag.toNat, 0, 3, (List.range 4).map fun k => e.old.getD (addr.toNat + k - e.addr) 0#8)])) ) = true) := by
  iterate 5 refine ⟨by decide +kernel, ?_⟩
  decide +kernel

/-- Every clause of HostTransactions has a case that meets its hypotheses, and the command completes there as the clause says. -/
theorem runs_HostTransactions :
    (let t : Nat := 700; let port : Fin 2 := 1; let tag : BitVec 16 := 9; let addr : BitVec 40 := 0x400000004; let count : Fin 256 := 3;
      let s : State := ((((up.page (Pg.LINK 1) 2).setF (Pg.LINK 1) Reg.LANE_LANE_STATUS_PHASE 4).page (Pg.DRAM 0) 2).page (Pg.DRAM 1) 2).setByte 0x400000005 7#8; (((s.upTo t).applies ((s.upTo t).arriving port 0 tag addr.toNat count false [])) ∧ (dramBase ≤ addr.toNat)) ∧ (answer (exec (.txnRead t port tag addr count) s) fun u => decide ((u.lanes[(hostLane port.val)].cpls.map Cpl.answer = s.lanes[(hostLane port.val)].cpls.map Cpl.answer ++ [(tag.toNat, 0, count.val, s.rawBytes addr.toNat (count + 1))])) ) = true) ∧
    (let t : Nat := 700; let port : Fin 2 := 1; let tag : BitVec 16 := 9; let addr : BitVec 40 := 0x85050; let count : Fin 256 := 3;
      let s : State := (((up.page (Pg.LINK 1) 2).setF (Pg.LINK 1) Reg.LANE_LANE_STATUS_PHASE 4).page (Pg.DRAM 0) 2).page (Pg.DRAM 1) 2; (((s.upTo t).applies ((s.upTo t).arriving port 0 tag addr.toNat count false [])) ∧ (addr.toNat < dramBase)) ∧ (answer (exec (.txnRead t port tag addr count) s) fun u => decide (((u.lanes[(hostLane port.val)].cpls.map fun c => (c.tag, c.op, c.count)) = (s.lanes[(hostLane port.val)].cpls.map fun c => (c.tag, c.op, c.count)) ++ [(tag.toNat, 0, count.val)])) ) = true) ∧
    (let t : Nat := 700; let port : Fin 2 := 1; let tag : BitVec 16 := 9; let addr : BitVec 40 := 0x400000004; let count : Fin 256 := 3;
      let data : List Byte := [1, 2, 3, 4];
      let s : State := (((up.page (Pg.LINK 1) 2).setF (Pg.LINK 1) Reg.LANE_LANE_STATUS_PHASE 4).page (Pg.DRAM 0) 2).page (Pg.DRAM 1) 2; (((s.upTo t).applies ((s.upTo t).arriving port 1 tag addr.toNat count false data)) ∧ (dramBase ≤ addr.toNat)) ∧ (answer (exec (.txnWrite t port tag addr count data) s) fun u => decide (((∀ k : Nat, k < count.val + 1 → ((s.upTo t).dramCycle.cycle = (s.upTo t).now / 16 → ∀ w ∈ (s.upTo t).dramCycle.writes, mergeOrder 3 (Pg.LINK port.val) < w.1 → ¬ (w.2.1 ≤ addr.toNat + k ∧ addr.toNat + k < w.2.1 + w.2.2)) → u.byte (addr.toNat + k) = data.getD k 0#8)) ∧ (u.lanes[(hostLane port.val)].cpls.map Cpl.answer = s.lanes[(hostLane port.val)].cpls.map Cpl.answer ++ [(tag.toNat, 1, count.val, [])])) ) = true) ∧
    (let t : Nat := 700; let port : Fin 2 := 0; let tag : BitVec 16 := 9; let addr : BitVec 40 := bankBase 3 + 4; let count : Fin 256 := 3;
      let data : List Byte := [1, 2, 3, 4];
      let s : State := { ((up.page (Pg.LINK 0) 2).setF (Pg.LINK 0) Reg.LANE_LANE_STATUS_PHASE 4) with hostCycle := [⟨1, bankBase 3 + 4, [9, 9], [0, 0], 698⟩] }; (((s.upTo t).applies ((s.upTo t).arriving port 1 tag addr.toNat count false data)) ∧ (0x100000 ≤ addr.toNat) ∧ (addr.toNat < dramBase)) ∧ (answer (exec (.txnWrite t port tag addr count data) s) fun u => decide (((∀ k : Nat, k < count.val + 1 → u.byte (addr.toNat + k) = (if port.val = 0 ∧ (s.upTo t).sameCycle 1 (addr.toNat + k) ≠ [] then (s.upTo t).byte (addr.toNat + k) else data.getD k 0#8))) ∧ (u.lanes[(hostLane port.val)].cpls.map Cpl.answer = s.lanes[(hostLane port.val)].cpls.map Cpl.answer ++ [(tag.toNat, 1, count.val, [])])) ) = true) ∧
    (let t : Nat := 700; let port : Fin 2 := 1; let tag : BitVec 16 := 9; let addr : BitVec 40 := 0x400000004; let count : Fin 256 := 3;
      let data : List Byte := [1, 2, 3, 4];
      let s : State := (((up.page (Pg.LINK 1) 2).setF (Pg.LINK 1) Reg.LANE_LANE_STATUS_PHASE 4).page (Pg.DRAM 0) 2).page (Pg.DRAM 1) 2; (((s.upTo t).applies ((s.upTo t).arriving port 2 tag addr.toNat count false data)) ∧ (dramBase ≤ addr.toNat)) ∧ (answer (exec (.txnWritePosted t port tag addr count data) s) fun u => decide (((∀ k : Nat, k < count.val + 1 → ((s.upTo t).dramCycle.cycle = (s.upTo t).now / 16 → ∀ w ∈ (s.upTo t).dramCycle.writes, mergeOrder 3 (Pg.LINK port.val) < w.1 → ¬ (w.2.1 ≤ addr.toNat + k ∧ addr.toNat + k < w.2.1 + w.2.2)) → u.byte (addr.toNat + k) = data.getD k 0#8)) ∧ (u.f (lanePage (hostLane port.val)) Reg.FRAME_FRAME_STATUS_POSTED_DONE = (s.f (lanePage (hostLane port.val)) Reg.FRAME_FRAME_STATUS_POSTED_DONE + 1) % 2 ^ Reg.FRAME_FRAME_STATUS_POSTED_DONE.width)) ) = true) ∧
    (let t : Nat := 700; let port : Fin 2 := 0; let tag : BitVec 16 := 9; let addr : BitVec 40 := bankBase 3 + 4; let count : Fin 256 := 3;
      let data : List Byte := [1, 2, 3, 4];
      let s : State := { ((up.page (Pg.LINK 0) 2).setF (Pg.LINK 0) Reg.LANE_LANE_STATUS_PHASE 4) with hostCycle := [⟨1, bankBase 3 + 4, [9, 9], [0, 0], 698⟩] }; (((s.upTo t).applies ((s.upTo t).arriving port 2 tag addr.toNat count false data)) ∧ (0x100000 ≤ addr.toNat) ∧ (addr.toNat < dramBase)) ∧ (answer (exec (.txnWritePosted t port tag addr count data) s) fun u => decide (((∀ k : Nat, k < count.val + 1 → u.byte (addr.toNat + k) = (if port.val = 0 ∧ (s.upTo t).sameCycle 1 (addr.toNat + k) ≠ [] then (s.upTo t).byte (addr.toNat + k) else data.getD k 0#8))) ∧ (u.f (lanePage (hostLane port.val)) Reg.FRAME_FRAME_STATUS_POSTED_DONE = (s.f (lanePage (hostLane port.val)) Reg.FRAME_FRAME_STATUS_POSTED_DONE + 1) % 2 ^ Reg.FRAME_FRAME_STATUS_POSTED_DONE.width)) ) = true) ∧
    (let t : Nat := 700; let port : Fin 2 := 1; let tag : BitVec 16 := 9; let cross : Bool := true;
      let s : State := (((up.page (Pg.LINK 1) 2).setF (Pg.LINK 1) Reg.LANE_LANE_STATUS_PHASE 4).page (Pg.DRAM 0) 2).page (Pg.DRAM 1) 2; (((s.upTo t).applies ((s.upTo t).arriving port 3 tag 0 0 cross []))) ∧ (answer (exec (.txnFence t port tag cross) s) fun u => decide ((u.lanes[(hostLane port.val)].fences = s.lanes[(hostLane port.val)].fences ++ [(s.upTo t).arriving port 3 tag 0 0 cross []])) ) = true) ∧
    (let t : Nat := 700; let port : Fin 2 := 1; let tag : BitVec 16 := 9; let addr : BitVec 40 := 0x400000004; let count : Fin 256 := 3;
      let s : State := ((((up.page (Pg.LINK 1) 2).setF (Pg.LINK 1) Reg.LANE_LANE_STATUS_PHASE 4).page (Pg.DRAM 0) 2).page (Pg.DRAM 1) 2).setF Pg.DIPTYCH Reg.DIPTYCH_STATUS_PAIR 2; (((s.upTo t).defers ((s.upTo t).arriving port 0 tag addr.toNat count false []))) ∧ (answer (exec (.txnRead t port tag addr count) s) fun u => decide ((u.dip.queue = s.dip.queue ++ [(s.upTo t).arriving port 0 tag addr.toNat count false []])) ) = true) ∧
    (let t : Nat := 700; let port : Fin 2 := 1; let tag : BitVec 16 := 9; let addr : BitVec 40 := 0x400000004; let count : Fin 256 := 3;
      let data : List Byte := [1, 2, 3, 4];
      let s : State := ((((up.page (Pg.LINK 1) 2).setF (Pg.LINK 1) Reg.LANE_LANE_STATUS_PHASE 4).page (Pg.DRAM 0) 2).page (Pg.DRAM 1) 2).setF Pg.DIPTYCH Reg.DIPTYCH_STATUS_PAIR 2; (((s.upTo t).defers ((s.upTo t).arriving port 1 tag addr.toNat count false data))) ∧ (answer (exec (.txnWrite t port tag addr count data) s) fun u => decide ((u.dip.queue = s.dip.queue ++ [(s.upTo t).arriving port 1 tag addr.toNat count false data])) ) = true) ∧
    (let t : Nat := 700; let port : Fin 2 := 1; let tag : BitVec 16 := 9; let addr : BitVec 40 := 0x400000004; let count : Fin 256 := 3;
      let data : List Byte := [1, 2, 3, 4];
      let s : State := ((((up.page (Pg.LINK 1) 2).setF (Pg.LINK 1) Reg.LANE_LANE_STATUS_PHASE 4).page (Pg.DRAM 0) 2).page (Pg.DRAM 1) 2).setF Pg.DIPTYCH Reg.DIPTYCH_STATUS_PAIR 2; (((s.upTo t).defers ((s.upTo t).arriving port 2 tag addr.toNat count false data))) ∧ (answer (exec (.txnWritePosted t port tag addr count data) s) fun u => decide ((u.dip.queue = s.dip.queue ++ [(s.upTo t).arriving port 2 tag addr.toNat count false data])) ) = true) ∧
    (let t : Nat := 700; let port : Fin 2 := 1; let tag : BitVec 16 := 9; let cross : Bool := true;
      let s : State := { ((((up.page (Pg.LINK 1) 2).setF (Pg.LINK 1) Reg.LANE_LANE_STATUS_PHASE 4).page (Pg.DRAM 0) 2).page (Pg.DRAM 1) 2) with dip := { queue := [⟨1, 600, 1, 5, 0x400000000, 3, false, [0, 0, 0, 0]⟩] } }; (((s.upTo t).defers ((s.upTo t).arriving port 3 tag 0 0 cross []))) ∧ (answer (exec (.txnFence t port tag cross) s) fun u => decide ((u.dip.queue = s.dip.queue ++ [(s.upTo t).arriving port 3 tag 0 0 cross []])) ) = true) ∧
    (let t : Nat := 700; let port : Fin 2 := 1; let q : Txn := ⟨1, 600, 3, 9, 0, 0, true, [0]⟩; let r : List Txn := [];
      let s : State := ((((up.page (Pg.LINK 1) 2).setF (Pg.LINK 1) Reg.LANE_LANE_STATUS_PHASE 4).page (Pg.DRAM 0) 2).page (Pg.DRAM 1) 2).setLane 1 fun x => { x with fences := [⟨1, 600, 3, 9, 0, 0, true, [0]⟩] }; ((s.lanes[(hostLane port.val)].fences = q :: r) ∧ (s.fenceReady q = true)) ∧ (answer (exec (.fenceComplete t port) s) fun u => decide ((u.lanes[(hostLane port.val)].fences = r) ∧ (u.lanes[(hostLane port.val)].cpls.map Cpl.answer = s.lanes[(hostLane port.val)].cpls.map Cpl.answer ++ [(q.tag, 3, 0, [])])) ) = true) ∧
    (let t : Nat := 700; let port : Fin 2 := 1; let c : Cpl := ⟨9, 0, 3, [1, 2, 3, 4], 600, 650, 0x400000000, 640⟩;
      let s : State := ((((up.page (Pg.LINK 1) 2).setF (Pg.LINK 1) Reg.LANE_LANE_STATUS_PHASE 4).page (Pg.DRAM 0) 2).page (Pg.DRAM 1) 2).setLane 1 fun x => { x with cpls := [⟨8, 1, 3, [], 500, 690, 0, 690⟩, ⟨9, 0, 3, [1, 2, 3, 4], 600, 650, 0x400000000, 640⟩] }; ((s.laneUp (hostLane port.val).val = true) ∧ ((s.upTo t).nextCpl (hostLane port.val) = some c) ∧ ((s.upTo t).mayStart (hostLane port.val) ⟨3, (s.upTo t).nextSeq (hostLane port.val) 3, 0, c.payload (s.f (lanePage (hostLane port.val)) Reg.FRAME_FRAME_STATUS_POSTED_DONE)⟩ = true)) ∧ (answer (exec (.cplSend t port) s) fun u => decide ((u.lanes[(hostLane port.val)].cpls = s.lanes[(hostLane port.val)].cpls.erase c) ∧ ((u.lanes[(hostLane port.val)].tx.map fun q => (q.2.ty, q.2.payload)) = some (3, c.payload (s.f (lanePage (hostLane port.val)) Reg.FRAME_FRAME_STATUS_POSTED_DONE))) ∧ (u.f (lanePage (hostLane port.val)) Reg.FRAME_CPL_SENT = satU (s.f (lanePage (hostLane port.val)) Reg.FRAME_CPL_SENT + 1) Reg.FRAME_CPL_SENT.width) ∧ ((s.f (lanePage (hostLane port.val)) Reg.FRAME_FRAME_STATUS_OUTSTANDING ≠ 0 → u.f (lanePage (hostLane port.val)) Reg.FRAME_FRAME_STATUS_OUTSTANDING + 1 = s.f (lanePage (hostLane port.val)) Reg.FRAME_FRAME_STATUS_OUTSTANDING))) ) = true) := by
  iterate 12 refine ⟨by decide +kernel, ?_⟩
  decide +kernel

/-- Every clause of Raster has a case that meets its hypotheses, and the command completes there as the clause says. -/
theorem runs_Raster :
    (let t : Nat := 700; let b : Fin 16 := 0; let q : Nat × Nat := (dramBase, 1); let k : Nat := 600;
      let s : State := ((((up.brushing 4).page (Pg.RASTER 0) 2).setRaster 0 fun x => { x with tile := some (dramBase, 1), closeAt := some 600 })).setF (Pg.RASTER 0) Reg.RASTER_TILE_STATUS_OPEN 1; ((s.rasters[b].tile = some q) ∧ (s.rasters[b].closeAt = some k) ∧ ((s.upTo t).past k = true)) ∧ (answer (exec (.tileClose t b) s) fun u => decide ((u.rasters[b].tile = none) ∧ (u.rasters[b].lastTile = some q) ∧ (u.rasters[b].closeAt = none) ∧ (u.rasters[b].rects = Vector.replicate 8 {}) ∧ (u.fb (Pg.RASTER b) Reg.RASTER_TILE_STATUS_OPEN = false)) ) = true) ∧
    (let t : Nat := 700; let b : Fin 16 := 0; let k : Nat := 0; let idx : Nat := 0; let line : Bool := false;
      let h : Sheet := { testSheet 1 with tiles := dramBase + 512 }; let r : Rec := decodeRec (leBytes 32 4);
      let s : State := (((((up.brushing 4).page (Pg.RASTER 0) 2).setRaster 0 fun x => { x with px := 0 }).setBrush 0 fun x => { x with force := some { testSheet 1 with tiles := dramBase + 512 }, pathA := { sheet := 1, blocks := [{ sheet := 1, blk := 0, slot := 0, arrived := some 5 }] } })).setBytes (dramBase + 512) (leBytes 8 (dramBase + 1024)); (((s.brushes[b].force.toList ++ s.brushes[b].queue)[k]? = some h) ∧ (s.record h idx = r) ∧ (r.op = opRaster) ∧ (s.brushes[b].lapsOf h.seq idx ≠ []) ∧ (s.pageOn (Pg.RASTER b) = true) ∧ (s.dramOn = true) ∧ (line = false) ∧ (s.askable (h.tiles + 8 * r.tile) 8) ∧ (s.askable (s.tileAddr h.tiles r.tile) 128) ∧ (s.dramBad (h.tiles + 8 * r.tile) 8 = false) ∧ (s.dramBad (s.tileAddr h.tiles r.tile) 128 = false)) ∧ (answer (exec (.rasterFetchDone t b k idx line) s) fun u => decide ((u.rasters[b].descs.head? = some (h.tiles, r.tile)) ∧ (u.rasters[b].lines = s.rasters[b].lines)) ) = true) ∧
    (let t : Nat := 700; let b : Fin 16 := 0; let k : Nat := 0; let idx : Nat := 0; let line : Bool := true;
      let h : Sheet := { testSheet 1 with tiles := dramBase + 512 }; let r : Rec := { decodeRec (leBytes 32 4) with w5 := 2 ^ 16 };
      let lap : Nat := 0; let pos : Nat := 3;
      let s : State := (((((((up.brushing 4).page (Pg.RASTER 0) 2).setRaster 0 fun x => { x with descs := [(dramBase + 512, 0)], ringPos := 3 }).setBrush 0 fun x => { x with force := some { testSheet 1 with tiles := dramBase + 512 }, pathA := { sheet := 1, blocks := [{ sheet := 1, blk := 0, slot := 0, arrived := some 5 }] } })).setByte (dramBase + 22) 1#8).setBytes (dramBase + 512) (leBytes 8 (dramBase + 1024))).setByte (dramBase + 1028) 4#8; (((s.brushes[b].force.toList ++ s.brushes[b].queue)[k]? = some h) ∧ (s.record h idx = r) ∧ (r.op = opRaster) ∧ (s.brushes[b].lapsOf h.seq idx ≠ []) ∧ (s.pageOn (Pg.RASTER b) = true) ∧ (s.dramOn = true) ∧ (line = true) ∧ (s.askable (s.tileData (s.tileAddr h.tiles r.tile) + r.line * s.tileStride (s.tileAddr h.tiles r.tile) + (s.lineSpan (s.tileAddr h.tiles r.tile) r).1) (64 * (s.lineSpan (s.tileAddr h.tiles r.tile) r).2)) ∧ (s.dramBad (s.tileData (s.tileAddr h.tiles r.tile) + r.line * s.tileStride (s.tileAddr h.tiles r.tile) + (s.lineSpan (s.tileAddr h.tiles r.tile) r).1) (64 * (s.lineSpan (s.tileAddr h.tiles r.tile) r).2) = false) ∧ (s.rasters[b].descs.contains (h.tiles, r.tile) = true) ∧ (((s.brushes[b].lapsOf h.seq idx).find? fun k => !s.rasters[b].lines.any fun l => l.isFor h.seq idx k) = some lap) ∧ (s.rasters[b].room (s.lineSpan (s.tileAddr h.tiles r.tile) r).2 = some pos)) ∧ (answer (exec (.rasterFetchDone t b k idx line) s) fun u => decide ((u.rasters[b].lines = s.rasters[b].lines ++ [⟨h.seq, idx, (s.lineSpan (s.tileAddr h.tiles r.tile) r).2, pos, (s.lineSpan (s.tileAddr h.tiles r.tile) r).1, lap⟩]) ∧ (u.rasters[b].ringPos = (pos + (s.lineSpan (s.tileAddr h.tiles r.tile) r).2) % 512) ∧ (u.rasters[b].descs.head? = some (h.tiles, r.tile))) ) = true) ∧
    (let t : Nat := 700; let b : Fin 16 := 0; let d : SwDue := ⟨2, 1, 77, 78, 600⟩; let rest : List SwDue := [];
      let s : State := (((up.brushing 4).page (Pg.RASTER 0) 2).setRaster 0 fun x => { x with due := [⟨2, 1, 77, 78, 600⟩] }); ((((s.upTo t).takePixels b (s.upTo t).now).rasters[b].due = d :: rest) ∧ ((s.upTo t).past d.stamp = true)) ∧ (answer (exec (.swatchCompare t b) s) fun u => decide ((u.f (Pg.RASTER b) Reg.RASTER_SWATCH_GOT = d.got % 2 ^ 32) ∧ (u.f (Pg.RASTER b) Reg.RASTER_SWATCH_EXPECTED = d.expected % 2 ^ 32) ∧ (u.fb (Pg.RASTER b) Reg.RASTER_SWATCH_MATCH = decide (d.got = d.expected)) ∧ (u.fb (Pg.RASTER b) Reg.RASTER_SWATCH_VALID = true) ∧ (u.f (Pg.RASTER b) Reg.RASTER_SWATCH_FAILS = (if d.got = d.expected then s.f (Pg.RASTER b) Reg.RASTER_SWATCH_FAILS else satU (s.f (Pg.RASTER b) Reg.RASTER_SWATCH_FAILS + 1) Reg.RASTER_SWATCH_FAILS.width))) ) = true) := by
  iterate 3 refine ⟨by decide +kernel, ?_⟩
  decide +kernel

/-! ### Well-formedness -/

/-- The check refuses a term that is ill formed in one operand. -/
theorem test_wf_refuses_1 : ([
    .missingEdge (2 ^ 64) 0, .freqWindowEnd (2 ^ 64) 0 0 0 0, .freqWindowEnd 0 (2 ^ 31) 0 0 0, .freqWindowEnd 0 0 (2 ^ 31) 0 0,
    .freqWindowEnd 0 0 0 (2 ^ 31) 0, .freqWindowEnd 0 0 0 0 (2 ^ 31), .candidateQualified (2 ^ 64) 0, .holdLock (2 ^ 64), .holdExpired (2 ^ 64),
    .coastExitLock (2 ^ 64) false, .safeHoldClear (2 ^ 64), .fmeasStart (2 ^ 64), .fmeasDone (2 ^ 64) 0, .fmeasDone 0 (2 ^ 32),
    .fmeasTimeout (2 ^ 64), .launch (2 ^ 64) 0, .laneActivity (2 ^ 64) ⟨0, false⟩, .cdrLock (2 ^ 64) 0, .clockPatternEnd (2 ^ 64) 0,
    .frameLock (2 ^ 64) 0, .frameLockLoss (2 ^ 64) 0 0 false, .bringupPhaseTimeout (2 ^ 64) 0, .txTimingSwitch (2 ^ 64) 0, .capSend (2 ^ 64) 0,
    .capReceive (2 ^ 64) 0 0 0 0 0, .capReceive 0 0 (2 ^ 32) 0 0 0, .capReceive 0 0 0 (2 ^ 32) 0 0, .capReceive 0 0 0 0 (2 ^ 32) 0,
    .capReceive 0 0 0 0 0 (2 ^ 32), .idleSend (2 ^ 64) 0, .frameReceive (2 ^ 64) 0 [] [] [] [] [] [], .stepCtrlGo (2 ^ 64) 0 0,
    .stepAckDeadline (2 ^ 64) 0, .stepQuiesce (2 ^ 64) 0, .stepLaunch (2 ^ 64) 0, .stepRelockTimeout (2 ^ 64) 0, .loopCtrlWrite (2 ^ 64) 0 0,
    .loopInject (2 ^ 64) 0, .loopClear (2 ^ 64) 0, .prbsSyncGain (2 ^ 64) ⟨0, []⟩] : List Instr).all (fun i => !i.wf) = true := by decide +kernel

/-- The check refuses a term that is ill formed in one operand. -/
theorem test_wf_refuses_2 : ([
    .prbsSyncGain 0 ⟨0, List.replicate 129 true⟩, .prbsSyncLoss (2 ^ 64) 0, .prbsBitError (2 ^ 64) ⟨0, false⟩, .syncReceive (2 ^ 64) 0 0 0 0 0 0,
    .syncReceive 0 0 (2 ^ 64) 0 0 0 0, .syncReceive 0 0 0 (2 ^ 63) 0 0 0, .syncReceive 0 0 0 0 (2 ^ 16) 0 0, .syncReceive 0 0 0 0 0 (2 ^ 16) 0,
    .syncReceive 0 0 0 0 0 0 (2 ^ 7), .syncLoss (2 ^ 64), .dlyReqLaunch (2 ^ 64), .dlyReqReceive (2 ^ 64) 0 0 0 0,
    .dlyReqReceive 0 0 (2 ^ 64) 0 0, .dlyReqReceive 0 0 0 (2 ^ 16) 0, .dlyReqReceive 0 0 0 0 (2 ^ 16), .dlyRspReceive (2 ^ 64) 0 0 0 0 0,
    .dlyRspReceive 0 0 (2 ^ 64) 0 0 0, .dlyRspReceive 0 0 0 (2 ^ 64) 0 0, .dlyRspReceive 0 0 0 0 (2 ^ 16) 0, .dlyRspReceive 0 0 0 0 0 (2 ^ 16),
    .dlyTimeout (2 ^ 64) 0, .timeFrameForward (2 ^ 64) 0, .syncLaunch (2 ^ 64), .adjHiWrite (2 ^ 64) 0, .flushTrigger (2 ^ 64) 0,
    .recordFlush (2 ^ 64), .flushStart (2 ^ 64), .minGapExpiry (2 ^ 64), .eraseAhead (2 ^ 64), .eraseDone (2 ^ 64), .hoursTick (2 ^ 64),
    .clearAcc (2 ^ 64), .nvRead (2 ^ 64), .nvProgram (2 ^ 64), .nvErase (2 ^ 64), .nvCmdDone (2 ^ 64), .vddAonPor (2 ^ 64), .vddAonLoss (2 ^ 64),
    .wakeEvent (2 ^ 64) 0, .wakeBlankEnd (2 ^ 64)] : List Instr).all (fun i => !i.wf) = true := by decide +kernel

/-- The check refuses a term that is ill formed in one operand. -/
theorem test_wf_refuses_3 : ([
    .pgInHigh (2 ^ 64) false, .pgTimeout (2 ^ 64), .pgInLow (2 ^ 64), .primerLinkReady (2 ^ 64) 0, .linkWaitTimeout (2 ^ 64),
    .primerDone (2 ^ 64) false none false 0, .primerDone 0 false (some (2 ^ 24)) false 0, .primerDone 0 false none false (2 ^ 16),
    .resetLAssert (2 ^ 64), .resetLRelease (2 ^ 64), .deviceCommand (2 ^ 64) 0, .deviceCommand 0 (2 ^ 8), .deviceCommandRestart (2 ^ 64),
    .dormantCommand (2 ^ 64) 0, .dormantCommand 0 (2 ^ 8), .flushDone (2 ^ 64), .nvTimeout (2 ^ 64) .flush, .domainCtrlWrite (2 ^ 64) 0,
    .domainSwitchOnDone (2 ^ 64), .domainSwitchOffDone (2 ^ 64), .pfail (2 ^ 64), .sysStart (2 ^ 64), .shutdownPowerOff (2 ^ 64),
    .eventIntake (2 ^ 64), .eventDeliverable (2 ^ 64), .evtSend (2 ^ 64), .ilkDepart (2 ^ 64) 0 false false, .ilkReturn (2 ^ 64) 0,
    .discTimeout (2 ^ 64) 0, .knifeArmSet (2 ^ 64) 0 0, .knifeArmSet 0 (2 ^ 8) 0, .knifeDisarm (2 ^ 64) 0, .knifeClear (2 ^ 64) 0 0,
    .knifeClear 0 (2 ^ 8) 0, .knifeTest (2 ^ 64) 0, .permitStart (2 ^ 64), .encoderEdge (2 ^ 64) 0 false false false, .indexArm (2 ^ 64) 0,
    .indexCapture (2 ^ 64) 0, .targetRemove (2 ^ 64)] : List Instr).all (fun i => !i.wf) = true := by decide +kernel

/-- The check refuses a term that is ill formed in one operand. -/
theorem test_wf_refuses_4 : ([
    .tileClose (2 ^ 64) 0, .rasterFetchDone (2 ^ 64) 0 0 0 false, .rasterFetchDone 0 0 (2 ^ 32) 0 false, .rasterFetchDone 0 0 0 (2 ^ 32) false,
    .swatchCompare (2 ^ 64) 0, .chainStart (2 ^ 64) 0 0, .blockFetchRequest (2 ^ 64) 0 false, .blockArrival (2 ^ 64) 0 false 0,
    .blockArrival 0 0 false (2 ^ 32), .timedRecordStart (2 ^ 64) 0, .timedRecordEnd (2 ^ 64) 0, .waitComplete (2 ^ 64) 0,
    .sheetBoundary (2 ^ 64) 0, .lateSheetTakesEffect (2 ^ 64) 0, .headerFetched (2 ^ 64) 0, .nextPoll (2 ^ 64) 0, .parkEnd (2 ^ 64) 0,
    .parkTimeout (2 ^ 64) 0, .glazeCompute (2 ^ 64) false 0, .gateEdge (2 ^ 64) 0 false 0, .twinUnpairedTimeout (2 ^ 64) 0,
    .powerBurstStart (2 ^ 64) false 0, .powerWordLatch (2 ^ 64) false 0, .laserReadyChange (2 ^ 64) 0 false, .laserFaultChange (2 ^ 64) 0 false,
    .traceArm (2 ^ 64) 0, .traceStop (2 ^ 64) 0, .injectWrite (2 ^ 64) 0 0, .engineFrameStart (2 ^ 64), .headDnLaunch (2 ^ 64),
    .headUpReceive (2 ^ 64) 0 0 (Vector.replicate 8 0), .headUpReceive 0 0 (2 ^ 64) (Vector.replicate 8 0), .sampleADeadline (2 ^ 64),
    .sampleBDeadline (2 ^ 64), .mbxSend (2 ^ 64) 0, .mbxTimeout (2 ^ 64) 0, .planTick (2 ^ 64), .stepTargetWrite (2 ^ 64) 0 0,
    .upFrameCheck (2 ^ 64) 0 [] [] [] [], .upFrameCheck 0 0 [] [] [(64000, true)] []] : List Instr).all (fun i => !i.wf) = true := by decide +kernel

/-- The check refuses a term that is ill formed in one operand. -/
theorem test_wf_refuses_5 : ([
    .upFrameCheck 0 0 [] [] (List.replicate 257 (0, true)) [], .stepperHoldEnd (2 ^ 64) 0, .csiFrameStart (2 ^ 64) 0 0 0 false,
    .csiFrameEnd (2 ^ 64) 0 0 false, .csiUnmatchedPacket (2 ^ 64) 0 .sot, .frameLimitExpiry (2 ^ 64) 0,
    .csiLongPacket (2 ^ 64) 0 0 0 [] false false, .pipelinePacket (2 ^ 64) 0, .frameRecordsComplete (2 ^ 64) 0, .recordReady (2 ^ 64) 0,
    .batchDeliver (2 ^ 64), .metLaunch (2 ^ 64), .metReceive (2 ^ 64) 0 0 [], .metReceive 0 0 0 (List.replicate 2041 0#8),
    .triggerLaunch (2 ^ 64) 0, .triggerEnd (2 ^ 64) 0, .oneshotWrite (2 ^ 64) 0 0, .streamFrameSend (2 ^ 64) 0, .syncAtWrite (2 ^ 64) 0 0,
    .lightSyncBurst (2 ^ 64) 0 0 0 0, .cmdHdrWrite (2 ^ 64) 0 0, .lightBurst (2 ^ 64) 0 0 0 0, .tempPoll (2 ^ 64) 0, .keepAlive (2 ^ 64) 0,
    .respPop (2 ^ 64) 0, .bgRowStart (2 ^ 64), .bgRowDone (2 ^ 64) false, .bankEccWriteback (2 ^ 64) 0 0, .bankEccWriteback 0 0 (2 ^ 22),
    .failClear (2 ^ 64), .dramCommandIssue (2 ^ 64) 0, .agePromotion (2 ^ 64) 0, .pageIdleClose (2 ^ 64) 0 0, .refreshDue (2 ^ 64) 0 0,
    .mr4Poll (2 ^ 64) 0 (Vector.replicate 2 0) false, .dramEccWriteback (2 ^ 64) 0, .dramEccWriteback 0 (2 ^ 40),
    .trainingDone (2 ^ 64) (Vector.replicate 8 0) (Vector.replicate 8 0) (Vector.replicate 2 false), .retrain (2 ^ 64) 0,
    .sensorRoundEnd (2 ^ 64) (Vector.replicate 14 0)] : List Instr).all (fun i => !i.wf) = true := by decide +kernel

/-- The check refuses a term that is ill formed in one operand. -/
theorem test_wf_refuses_6 : ([
    .graceExpiry (2 ^ 64), .heldSheetRelease (2 ^ 64), .calDelay (2 ^ 64) 0, .calSensor (2 ^ 64), .calLane (2 ^ 64) 0, .calSave (2 ^ 64),
    .calDone (2 ^ 64) (Vector.replicate 32 (Vector.replicate 24 none)) (Vector.replicate 16 none) (Vector.replicate 16 none) false,
    .bistLogic (2 ^ 64) 0 0, .bistMemory (2 ^ 64) 0 0, .bistDone (2 ^ 64) (Vector.replicate 20 0) [] [],
    .bistDone 0 (Vector.replicate 20 0) [0] [], .pairFormFrame (2 ^ 64), .formEchoDeadline (2 ^ 64), .pairLock (2 ^ 64), .digestLaunch (2 ^ 64),
    .digestReceive (2 ^ 64) 0 0 0, .takeoverEval (2 ^ 64) false, .handover (2 ^ 64) 0, .mirrorTxnReceive (2 ^ 64) 0 0 0 0 0 0 false [],
    .mirrorTxnReceive 0 0 0 0 0 0 0 false [0#8, 0#8], .mirrorMediumLaunch (2 ^ 64), .mirrorMediumReceive (2 ^ 64) 0 (Vector.replicate 4 0),
    .tapClock (2 ^ 64) false false, .tapReset (2 ^ 64), .frameStart (2 ^ 64), .estimatorUpdate (2 ^ 64), .exchangeCut (2 ^ 64),
    .eventClear (2 ^ 64) 0 0, .eventForce (2 ^ 64) 0 0, .registerWrite (2 ^ 64) 0 0, .registerWrite 0 (2 ^ 20) 0, .ctrlEnWrite (2 ^ 64) 0 false,
    .softReset (2 ^ 64) 0, .commit (2 ^ 64) 0, .snapshotTake (2 ^ 64) 0, .shadowTransfer (2 ^ 64) 0, .blockSequenceEnd (2 ^ 64) 0,
    .blockTransitCycleEnd (2 ^ 64) 0, .registerReadClear (2 ^ 64) 0, .registerReadClear 0 (2 ^ 20)] : List Instr).all (fun i => !i.wf) = true := by decide +kernel

/-- The check refuses a term that is ill formed in one operand. -/
theorem test_wf_refuses_7 : ([
    .txnRead (2 ^ 64) 0 0 0 0, .txnWrite (2 ^ 64) 0 0 0 0 [0#8], .txnWrite 0 0 0 0 0 [0#8, 0#8], .txnWritePosted (2 ^ 64) 0 0 0 0 [0#8],
    .txnWritePosted 0 0 0 0 0 [0#8, 0#8], .txnFence (2 ^ 64) 0 0 false, .fenceComplete (2 ^ 64) 0, .cplSend (2 ^ 64) 0, .mirrorApply (2 ^ 64)] : List Instr).all (fun i => !i.wf) = true := by decide +kernel

/-- The check refuses a stretch of line of 65,537 bits. -/
theorem test_wf_refuses_long_line (bits : List Bool) (h : bits.length = 65537) : (Instr.frameReceive 0 0 [] [] bits [] [] []).wf = false := by
  simp [Instr.wf, h]

/-- The check refuses a packet of 65,536 bytes. -/
theorem test_wf_refuses_long_packet (l : List Byte) (h : l.length = 65536) : (Instr.csiLongPacket 0 0 0 0 l false false).wf = false := by
  simp [Instr.wf, h]

/-- The check accepts well-formed terms. -/
theorem test_wf_accepts_1 : ([
    .missingEdge 0 0, .freqWindowEnd 0 0 0 0 0, .candidateQualified 0 0, .holdLock 0, .holdExpired 0, .coastExitLock 0 false, .safeHoldClear 0,
    .fmeasStart 0, .fmeasDone 0 0, .fmeasTimeout 0, .launch 0 0, .laneActivity 0 ⟨0, false⟩, .cdrLock 0 0, .clockPatternEnd 0 0, .frameLock 0 0,
    .frameLockLoss 0 0 0 false, .bringupPhaseTimeout 0 0, .txTimingSwitch 0 0, .capSend 0 0, .capReceive 0 0 0 0 0 0, .idleSend 0 0,
    .frameReceive 0 0 [] [] [] [] [] [], .stepCtrlGo 0 0 0, .stepAckDeadline 0 0, .stepQuiesce 0 0, .stepLaunch 0 0, .stepRelockTimeout 0 0,
    .loopCtrlWrite 0 0 0, .loopInject 0 0, .loopClear 0 0, .prbsSyncGain 0 ⟨0, []⟩, .prbsSyncLoss 0 0, .prbsBitError 0 ⟨0, false⟩,
    .syncReceive 0 0 0 0 0 0 0, .syncLoss 0, .dlyReqLaunch 0, .dlyReqReceive 0 0 0 0 0, .dlyRspReceive 0 0 0 0 0 0, .dlyTimeout 0 0,
    .timeFrameForward 0 0, .syncLaunch 0, .adjHiWrite 0 0, .flushTrigger 0 0, .recordFlush 0, .flushStart 0, .minGapExpiry 0, .eraseAhead 0,
    .eraseDone 0, .hoursTick 0, .clearAcc 0, .nvRead 0, .nvProgram 0, .nvErase 0, .nvCmdDone 0, .vddAonPor 0, .vddAonLoss 0, .wakeEvent 0 0,
    .wakeBlankEnd 0, .pgInHigh 0 false, .pgTimeout 0, .pgInLow 0, .primerLinkReady 0 0, .linkWaitTimeout 0, .primerDone 0 false none false 0,
    .resetLAssert 0, .resetLRelease 0, .deviceCommand 0 0, .deviceCommandRestart 0, .dormantCommand 0 0, .flushDone 0] : List Instr).all Instr.wf = true := by decide +kernel

/-- The check accepts well-formed terms. -/
theorem test_wf_accepts_2 : ([
    .nvTimeout 0 .flush, .domainCtrlWrite 0 0, .domainSwitchOnDone 0, .domainSwitchOffDone 0, .pfail 0, .sysStart 0, .shutdownPowerOff 0,
    .eventIntake 0, .eventDeliverable 0, .evtSend 0, .ilkDepart 0 0 false false, .ilkReturn 0 0, .discTimeout 0 0, .knifeArmSet 0 0 0,
    .knifeDisarm 0 0, .knifeClear 0 0 0, .knifeTest 0 0, .permitStart 0, .encoderEdge 0 0 false false false, .indexArm 0 0, .indexCapture 0 0,
    .targetRemove 0, .tileClose 0 0, .rasterFetchDone 0 0 0 0 false, .swatchCompare 0 0, .chainStart 0 0 0, .blockFetchRequest 0 0 false,
    .blockArrival 0 0 false 0, .timedRecordStart 0 0, .timedRecordEnd 0 0, .waitComplete 0 0, .sheetBoundary 0 0, .lateSheetTakesEffect 0 0,
    .headerFetched 0 0, .nextPoll 0 0, .parkEnd 0 0, .parkTimeout 0 0, .glazeCompute 0 false 0, .gateEdge 0 0 false 0, .twinUnpairedTimeout 0 0,
    .powerBurstStart 0 false 0, .powerWordLatch 0 false 0, .laserReadyChange 0 0 false, .laserFaultChange 0 0 false, .traceArm 0 0,
    .traceStop 0 0, .injectWrite 0 0 0, .engineFrameStart 0, .headDnLaunch 0, .headUpReceive 0 0 0 (Vector.replicate 8 0), .sampleADeadline 0,
    .sampleBDeadline 0, .mbxSend 0 0, .mbxTimeout 0 0, .planTick 0, .stepTargetWrite 0 0 0, .upFrameCheck 0 0 [] [] [] [], .stepperHoldEnd 0 0,
    .csiFrameStart 0 0 0 0 false, .csiFrameEnd 0 0 0 false, .csiUnmatchedPacket 0 0 .sot, .frameLimitExpiry 0 0,
    .csiLongPacket 0 0 0 0 [] false false, .pipelinePacket 0 0, .frameRecordsComplete 0 0, .recordReady 0 0, .batchDeliver 0, .metLaunch 0,
    .metReceive 0 0 0 [], .triggerLaunch 0 0] : List Instr).all Instr.wf = true := by decide +kernel

/-- The check accepts well-formed terms. -/
theorem test_wf_accepts_3 : ([
    .triggerEnd 0 0, .oneshotWrite 0 0 0, .streamFrameSend 0 0, .syncAtWrite 0 0 0, .lightSyncBurst 0 0 0 0 0, .cmdHdrWrite 0 0 0,
    .lightBurst 0 0 0 0 0, .tempPoll 0 0, .keepAlive 0 0, .respPop 0 0, .bgRowStart 0, .bgRowDone 0 false, .bankEccWriteback 0 0 0, .failClear 0,
    .dramCommandIssue 0 0, .agePromotion 0 0, .pageIdleClose 0 0 0, .refreshDue 0 0 0, .mr4Poll 0 0 (Vector.replicate 2 0) false,
    .dramEccWriteback 0 0, .trainingDone 0 (Vector.replicate 8 0) (Vector.replicate 8 0) (Vector.replicate 2 false), .retrain 0 0,
    .sensorRoundEnd 0 (Vector.replicate 14 0), .graceExpiry 0, .heldSheetRelease 0, .calDelay 0 0, .calSensor 0, .calLane 0 0, .calSave 0,
    .calDone 0 (Vector.replicate 32 (Vector.replicate 24 none)) (Vector.replicate 16 none) (Vector.replicate 16 none) false, .bistLogic 0 0 0,
    .bistMemory 0 0 0, .bistDone 0 (Vector.replicate 20 0) [] [], .pairFormFrame 0, .formEchoDeadline 0, .pairLock 0, .digestLaunch 0,
    .digestReceive 0 0 0 0, .takeoverEval 0 false, .handover 0 0, .mirrorTxnReceive 0 0 0 0 0 0 0 false [], .mirrorMediumLaunch 0,
    .mirrorMediumReceive 0 0 (Vector.replicate 4 0), .tapClock 0 false false, .tapReset 0, .frameStart 0, .estimatorUpdate 0, .exchangeCut 0,
    .eventClear 0 0 0, .eventForce 0 0 0, .registerWrite 0 0 0, .ctrlEnWrite 0 0 false, .softReset 0 0, .commit 0 0, .snapshotTake 0 0,
    .shadowTransfer 0 0, .blockSequenceEnd 0 0, .blockTransitCycleEnd 0 0, .registerReadClear 0 0, .txnRead 0 0 0 0 0, .txnWrite 0 0 0 0 0 [0#8],
    .txnWritePosted 0 0 0 0 0 [0#8], .txnFence 0 0 0 false, .fenceComplete 0 0, .cplSend 0 0, .mirrorApply 0] : List Instr).all Instr.wf = true := by decide +kernel

end Sys2Proof
end

section
/-! PROOFS. The integer helpers of R11 to R13. -/

namespace Sys2Proof.Proofs

open Sys2Proof.Machine

/-- The low 48 bits of a difference are the difference up to a multiple of 2^48. -/
theorem sdiff48_spec (a b : Int) :
    -(2 ^ 47) ≤ sdiff48 a b ∧ sdiff48 a b < 2 ^ 47 ∧ (sdiff48 a b - (a - b)) % 2 ^ 48 = 0 := by
  simp only [sdiff48]
  split <;> omega

/-- R12: only the low 48 bits of each argument count. -/
theorem sdiff48_emod (a b : Int) : sdiff48 (a % 2 ^ 48) (b % 2 ^ 48) = sdiff48 a b := by
  have h : (a % 2 ^ 48 - b % 2 ^ 48) % 2 ^ 48 = (a - b) % 2 ^ 48 := by omega
  simp only [sdiff48, h]

theorem reached_iff (t v : Int) : reached t v = true ↔ 0 ≤ sdiff48 t v := decide_eq_true_iff

/-- R11: `x / 2 ^ k` lies in the half-open interval of width 1 around its rounded value, closed below. -/
theorem rnd_nearest (x : Int) (k : Nat) : 2 ^ k * (2 * rnd x k - 1) ≤ 2 * x ∧ 2 * x < 2 ^ k * (2 * rnd x k + 1) := by
  cases k with
  | zero => simp only [rnd, if_pos]; omega
  | succ j =>
    have hm : (0 : Int) < 2 ^ j := by positivity
    have hr : rnd x (j + 1) = (x + 2 ^ j) / (2 * 2 ^ j) := by simp [rnd, pow_succ, mul_comm]
    rw [hr, pow_succ']
    generalize (2 : Int) ^ j = m at hm
    have hlo := Int.mul_ediv_self_le (x := x + m) (k := 2 * m) (by omega)
    have hhi := Int.lt_mul_ediv_self_add (x := x + m) (k := 2 * m) (by omega)
    constructor <;> linarith

end Sys2Proof.Proofs

namespace Sys2Proof.Proofs

open Sys2Proof.Machine

/-- Settles O7: the interval of R11's quotient, and the low 48 bits of R12's difference. -/
theorem timeDifferencesAndRounding : Obligations.TimeDifferencesAndRounding := by
  unfold Obligations.TimeDifferencesAndRounding
  refine ⟨fun a b => ?_, reached_iff, rnd_nearest, by decide, by decide, by decide⟩
  obtain ⟨hlo, hhi, hmod⟩ := sdiff48_spec a b
  exact ⟨hlo, hhi, hmod, sdiff48_emod a b⟩

end Sys2Proof.Proofs
end
section
/-! PROOFS. How a command ends: a next state that exec answers is what the command's effect left, its tables written back in canonical form, with the
queue as it was; hence every step keeps the tables canonical. -/

namespace Sys2Proof.Proofs

open Sys2Proof.Machine Sys2Proof.Laws

/-- An outcome of a command in `s` that is a next state is the end of some effect. -/
def Ends (s : State) (o : Host.Outcome State Fault Refusal) : Prop := ∀ v, o = .next v → ∃ u, v = ended s u

/-! ### The ways a meaning is put together -/

section
variable {s : State}

theorem ends_done (s u : State) : Ends s (done s u) := fun _ h => ⟨u, done_next h⟩

theorem ends_fault (f : Fault) : Ends s (.fault f) := fun _ h => nomatch h

theorem ends_ite {c : Prop} [Decidable c] {a b : Host.Outcome State Fault Refusal} (ha : Ends s a) (hb : Ends s b) :
    Ends s (if c then a else b) := by
  split
  · exact ha
  · exact hb

theorem ends_guard {c : Prop} [Decidable c] {f : Fault} {o : Host.Outcome State Fault Refusal} (h : Ends s o) :
    Ends s (if c then .fault f else o) := ends_ite (ends_fault f) h

theorem ends_thenDo {o : Host.Outcome State Fault Refusal} {g : State → Host.Outcome State Fault Refusal} (hg : ∀ u, Ends s (g u)) :
    Ends s (thenDo o g) := by
  cases o with
  | next u => exact hg u
  | fault f => exact ends_fault f
  | refused r => exact fun _ h => nomatch h

theorem ends_doneDma (s u : State) : Ends s (doneDma s u) := ends_guard (ends_done s u)

theorem ends_doneSeq (s u : State) (b : Fin 16) : Ends s (doneSeq s u b) := ends_guard (ends_done s u)

theorem ends_doneList (s u : State) (breach : State → Fin 16 → Option Nat) : Ends s (doneList s u breach) := by
  unfold doneList
  split
  · exact ends_fault _
  · exact ends_done s u

theorem ends_onPage {s1 : State} {p o : Nat} {zero : Bool} {g : Host.Outcome State Fault Refusal} (h : Ends s g) :
    Ends s (onPage s1 p o zero g) := ends_guard (ends_guard h)

/-- A transaction ends as what is done with its data does. -/
theorem ends_applyTxn {s1 : State} {q : Txn} {cls : Nat} {k : State → List Byte → Host.Outcome State Fault Refusal} (hk : ∀ u l, Ends s (k u l)) :
    Ends s (applyTxn s1 q cls k) := by
  unfold applyTxn
  split
  · exact ends_fault _
  · refine ends_ite (hk _ _) (ends_ite (hk _ _) (ends_ite (ends_thenDo fun u => hk _ _) ?_))
    split <;> exact hk _ _

theorem ends_receiveTxn (t port op tag addr count : Nat) (cross : Bool) (data : List Byte) (s : State) :
    Ends s (receiveTxn t port op tag addr count cross data s) :=
  ends_ite (ends_done _ _) (ends_guard (ends_guard (ends_guard (ends_ite (ends_done _ _) (ends_applyTxn fun _ _ => ends_done _ _)))))

end

/-! ### The commands whose meaning branches on more than host errors -/

section
variable (t : Nat) (s : State)

theorem stepCtrlGo_ends (l : Fin 20) (rate : Fin 4) : Ends s (execStepCtrlGo t l rate s) :=
  ends_guard (ends_ite (ends_done _ _) (ends_ite (ends_done _ _) (ends_ite (ends_done _ _) (ends_guard (ends_done _ _)))))

theorem timedRecordEnd_ends (b : Fin 16) : Ends s (execTimedRecordEnd t b s) := by
  simp only [execTimedRecordEnd]
  split
  · exact ends_ite (ends_doneSeq _ _ _) (ends_done _ _)
  · exact ends_done _ _

theorem waitComplete_ends (b : Fin 16) : Ends s (execWaitComplete t b s) := by
  simp only [execWaitComplete]
  split
  · split
    · exact ends_ite (ends_doneSeq _ _ _) (ends_done _ _)
    · exact ends_done _ _
  · exact ends_done _ _

theorem sheetBoundary_ends (b : Fin 16) : Ends s (execSheetBoundary t b s) := by
  simp only [execSheetBoundary]
  split
  · split
    · exact ends_ite (ends_ite (ends_done _ _) (ends_doneSeq _ _ _)) (ends_done _ _)
    · exact ends_done _ _
  · exact ends_done _ _

theorem lateSheetTakesEffect_ends (b : Fin 16) : Ends s (execLateSheetTakesEffect t b s) := by
  simp only [execLateSheetTakesEffect]
  split
  · split
    · exact ends_ite (ends_ite (ends_done _ _) (ends_doneSeq _ _ _)) (ends_done _ _)
    · exact ends_done _ _
  · exact ends_done _ _

theorem csiLongPacket_ends (p : Fin 4) (vc : Fin 16) (dt : Fin 64) (l : List Byte) (crcOk corrected : Bool) :
    Ends s (execCsiLongPacket t p vc dt l crcOk corrected s) := by
  refine ends_ite ?_ (ends_done _ _)
  split
  · exact ends_done _ _
  · exact ends_done _ _
  · exact ends_fault _

theorem pipelinePacket_ends (p : Fin 4) : Ends s (execPipelinePacket t p s) := by
  simp only [execPipelinePacket]
  split
  · exact ends_done _ _
  · split
    · exact ends_done _ _
    · exact ends_ite (ends_done _ _) (ends_guard (ends_guard (ends_guard (ends_ite (ends_done _ _) (ends_doneDma _ _)))))

theorem triggerLaunch_ends (o : Fin 8) : Ends s (execTriggerLaunch t o s) := by
  simp only [execTriggerLaunch]
  split
  · split
    · exact ends_ite (ends_done _ _) (ends_ite (ends_done _ _) (ends_fault _))
    · exact ends_done _ _
  · exact ends_done _ _
  · exact ends_fault _

theorem syncAtWrite_ends (n : Fin 4) (v : Word) : Ends s (execSyncAtWrite t n v s) :=
  ends_guard (ends_guard (ends_ite (ends_done _ _) (ends_guard (ends_ite (ends_done _ _) (ends_done _ _)))))

theorem frameStart_ends (n : Nat) : Ends s (execFrameStart n s) := by
  unfold execFrameStart
  exact ends_doneList _ _ _

theorem exchangeCut_ends (n : Nat) : Ends s (execExchangeCut n s) := by
  unfold execExchangeCut
  exact ends_doneList _ _ _

theorem heldSheetRelease_ends : Ends s (execHeldSheetRelease t s) := by
  simp only [execHeldSheetRelease]
  split
  · exact ends_ite (ends_guard (ends_done _ _)) (ends_done _ _)
  · exact ends_done _ _

theorem registerReadClear_ends (addr : Nat) : Ends s (execRegisterReadClear t addr s) := by
  simp only [execRegisterReadClear]
  split
  · exact ends_fault _
  · exact ends_done _ _

theorem mirrorApply_ends : Ends s (execMirrorApply t s) := by
  simp only [execMirrorApply]
  split
  · exact ends_ite (ends_applyTxn fun _ _ => ends_done _ _) (ends_done _ _)
  · exact ends_done _ _

end

/-! ### Every command, and every step -/

/-- Whatever the command, a next state is the end of its effect. The commands stand by the shape of their meaning: those that always complete, those
that first meet one, two or three host errors, those that end as a list, a DRAM access or a page lets them, and the ones above. -/
theorem exec_ends (i : Instr) (s : State) : Ends s (exec i s) := by
  cases i with
  | blockSequenceEnd | blockTransitCycleEnd | fenceComplete | cplSend | frameReceive | idleSend | laneActivity | cdrLock | frameLock
  | capSend | capReceive | bringupPhaseTimeout | frameLockLoss | txTimingSwitch | stepAckDeadline | stepQuiesce | stepLaunch
  | stepRelockTimeout | missingEdge | freqWindowEnd | candidateQualified | holdLock | holdExpired | coastExitLock | fmeasDone
  | fmeasTimeout | headDnLaunch | headUpReceive | sampleADeadline | sampleBDeadline | mbxTimeout | syncReceive | dlyReqLaunch
  | dlyReqReceive | dlyRspReceive | dlyTimeout | timeFrameForward | syncLaunch | syncLoss | launch | vddAonPor | vddAonLoss | wakeEvent
  | wakeBlankEnd | pgInHigh | pgTimeout | pgInLow | primerLinkReady | linkWaitTimeout | primerDone | resetLAssert | resetLRelease
  | deviceCommandRestart | domainSwitchOnDone | domainSwitchOffDone | pfail | sysStart | gateEdge | twinUnpairedTimeout | glazeCompute
  | powerBurstStart | powerWordLatch | laserReadyChange | laserFaultChange | parkEnd | parkTimeout | encoderEdge | indexCapture
  | estimatorUpdate | targetRemove | tileClose | swatchCompare | engineFrameStart | upFrameCheck | stepperHoldEnd | csiFrameStart
  | csiFrameEnd | frameLimitExpiry | frameRecordsComplete | batchDeliver | triggerEnd | metLaunch | metReceive | eventIntake
  | eventDeliverable | evtSend | ilkDepart | ilkReturn | discTimeout | permitStart | pairFormFrame | formEchoDeadline | pairLock
  | mirrorTxnReceive | mirrorMediumLaunch | mirrorMediumReceive | digestLaunch | digestReceive | takeoverEval | lightSyncBurst | lightBurst
  | tempPoll | keepAlive | bgRowStart | bgRowDone | bankEccWriteback | dramCommandIssue | agePromotion | pageIdleClose | refreshDue
  | mr4Poll | dramEccWriteback | trainingDone | sensorRoundEnd | graceExpiry | shutdownPowerOff | flushTrigger | minGapExpiry | flushStart
  | flushDone | nvTimeout | eraseAhead | hoursTick | nvCmdDone | calDone | bistDone | timedRecordStart | clockPatternEnd
  | csiUnmatchedPacket | prbsSyncGain | prbsSyncLoss | prbsBitError | tapReset | eraseDone =>
    exact ends_done s _
  | loopInject | loopClear | safeHoldClear | fmeasStart | mbxSend | deviceCommand | dormantCommand | indexArm | traceStop | planTick
  | knifeArmSet | knifeDisarm | knifeClear | knifeTest | handover | respPop | failClear | recordFlush | clearAcc | nvRead | nvProgram
  | nvErase | adjHiWrite | traceArm | retrain | bistLogic | bistMemory | calDelay | calSensor | calLane | calSave =>
    exact ends_guard (ends_done s _)
  | eventClear | eventForce | oneshotWrite | domainCtrlWrite | stepTargetWrite =>
    exact ends_guard (ends_guard (ends_done s _))
  | injectWrite | loopCtrlWrite =>
    exact ends_guard (ends_guard (ends_guard (ends_done s _)))
  | headerFetched | nextPoll | blockFetchRequest | blockArrival | rasterFetchDone | recordReady | streamFrameSend =>
    exact ends_doneDma s _
  | chainStart => exact ends_guard (ends_guard (ends_doneDma s _))
  | frameStart n => exact frameStart_ends s n
  | exchangeCut n => exact exchangeCut_ends s n
  | commit | snapshotTake => exact ends_onPage (ends_done s _)
  | ctrlEnWrite => exact ends_onPage (ends_ite (ends_done s _) (ends_thenDo fun _ => ends_done s _))
  | softReset => exact ends_onPage (ends_thenDo fun _ => ends_done s _)
  | registerWrite => exact ends_guard (ends_guard (ends_guard (ends_thenDo fun _ => ends_done s _)))
  | txnRead | txnWrite | txnWritePosted | txnFence => exact ends_receiveTxn _ _ _ _ _ _ _ _ s
  | tapClock => exact ends_ite (ends_done s _) (ends_guard (ends_done s _))
  | shadowTransfer => exact ends_ite (ends_done s _) (ends_guard (ends_guard (ends_done s _)))
  | cmdHdrWrite => exact ends_guard (ends_guard (ends_guard (ends_ite (ends_done s _) (ends_done s _))))
  | stepCtrlGo t l rate => exact stepCtrlGo_ends t s l rate
  | timedRecordEnd t b => exact timedRecordEnd_ends t s b
  | waitComplete t b => exact waitComplete_ends t s b
  | sheetBoundary t b => exact sheetBoundary_ends t s b
  | lateSheetTakesEffect t b => exact lateSheetTakesEffect_ends t s b
  | csiLongPacket t p vc dt l crcOk corrected => exact csiLongPacket_ends t s p vc dt l crcOk corrected
  | pipelinePacket t p => exact pipelinePacket_ends t s p
  | triggerLaunch t o => exact triggerLaunch_ends t s o
  | syncAtWrite t n v => exact syncAtWrite_ends t s n v
  | heldSheetRelease t => exact heldSheetRelease_ends t s
  | registerReadClear t addr => exact registerReadClear_ends t s addr
  | mirrorApply t => exact mirrorApply_ends t s

/-- The end of an effect has every table in canonical form, whatever the effect left. -/
theorem ended_tidy (s u : State) : (ended s u).Tidy :=
  ⟨tabNorm_wf _, tabNorm_wf _, tabNorm_wf _, tabNorm_wf _, tabNorm_wf _, tabNorm_wf _, tabNorm_wf _, tabNorm_wf _, tabNorm_wf _, tabNorm_wf _⟩

theorem exec_tidy {i : Instr} {s v : State} (h : exec i s = .next v) : v.Tidy := by
  obtain ⟨u, rfl⟩ := exec_ends i s v h
  exact ended_tidy s u

/-- Settles O4: a step is a command, one cycle of the timebase, or idles, and the first two end in the canonical form. -/
theorem stepKeepsTablesCanonical : Obligations.StepKeepsTablesCanonical := by
  unfold Obligations.StepKeepsTablesCanonical
  intro s s' hs h
  unfold step at h
  split at h
  · exact exec_tidy h
  · split at h
    · rw [done_next h]
      exact ended_tidy s _
    · cases h
      exact hs

end Sys2Proof.Proofs
end
section
/-! PROOFS. Host accesses in a state whose counters of one host port have moved on: what due pixels, a register write and its host errors see of such a
state is the same, since none of them reads the page of a host port. -/

namespace Sys2Proof.Proofs

open Sys2Proof.Machine Sys2Proof.Laws

theorem regAddr_page {p o : Nat} (ho : o < 0x1000) : regAddr p o / 0x1000 = p := by unfold regAddr; omega

theorem regAddr_split (a : Nat) : regAddr (a / 0x1000) (a % 0x1000) = a := by unfold regAddr; omega

/-- The page of a host port is LINK_0 or LINK_1. -/
theorem hostPage (port : Nat) : lanePage (hostLane port) = 0x14 ∨ lanePage (hostLane port) = 0x15 := by
  have h : (hostLane port).val = port % 2 := rfl
  rw [lanePage, h, if_pos (by omega)]
  simp only [Pg.LINK]
  omega

/-- `u` is `s` but for registers of page `L`. -/
def OffPage (L : Nat) (s u : State) : Prop := ∃ r, u = { s with regs := r } ∧ ∀ a, a / 0x1000 ≠ L → tabGet resetWord r a = s.word a

namespace OffPage

/-! ### What two such states show alike -/

section
variable {L : Nat} {s u : State}

theorem refl (L : Nat) (s : State) : OffPage L s s := ⟨s.regs, rfl, fun _ _ => rfl⟩

theorem pwr (h : OffPage L s u) : u.pwr = s.pwr := by obtain ⟨r, rfl, -⟩ := h; rfl
theorem now (h : OffPage L s u) : u.now = s.now := by obtain ⟨r, rfl, -⟩ := h; rfl
theorem dip (h : OffPage L s u) : u.dip = s.dip := by obtain ⟨r, rfl, -⟩ := h; rfl
theorem lanes (h : OffPage L s u) : u.lanes = s.lanes := by obtain ⟨r, rfl, -⟩ := h; rfl
theorem hostCycle (h : OffPage L s u) : u.hostCycle = s.hostCycle := by obtain ⟨r, rfl, -⟩ := h; rfl
theorem rasters (h : OffPage L s u) : u.rasters = s.rasters := by obtain ⟨r, rfl, -⟩ := h; rfl
theorem offers (h : OffPage L s u) : u.ev.offers = s.ev.offers := by obtain ⟨r, rfl, -⟩ := h; rfl

theorem sameCycle (h : OffPage L s u) (port a : Nat) : u.sameCycle port a = s.sameCycle port a := by obtain ⟨r, rfl, -⟩ := h; rfl
theorem tileAddr (h : OffPage L s u) (dir k : Nat) : u.tileAddr dir k = s.tileAddr dir k := by obtain ⟨r, rfl, -⟩ := h; rfl
theorem rd (h : OffPage L s u) (a k : Nat) : u.rd a k = s.rd a k := by obtain ⟨r, rfl, -⟩ := h; rfl
theorem rectOf (h : OffPage L s u) (a k : Nat) : u.rectOf a k = s.rectOf a k := by obtain ⟨r, rfl, -⟩ := h; rfl
theorem rectActive (h : OffPage L s u) (b : Fin 16) (a k : Nat) : u.rectActive b a k = s.rectActive b a k := by obtain ⟨r, rfl, -⟩ := h; rfl
theorem pixel (h : OffPage L s u) (b : Fin 16) (tiles palSet : Nat) (x : Up) (j : Nat) :
    u.pixel b tiles palSet x j = s.pixel b tiles palSet x j := by obtain ⟨r, rfl, -⟩ := h; rfl

theorem word (h : OffPage L s u) {a : Nat} (ha : a / 0x1000 ≠ L) : u.word a = s.word a := by
  obtain ⟨r, rfl, hr⟩ := h
  exact hr a ha

theorem f (h : OffPage L s u) {p : Nat} {fl : Fld} (hp : p ≠ L) (ho : fl.off < 0x1000) : u.f p fl = s.f p fl := by
  rw [f_word, f_word, h.word (by rwa [regAddr_page ho])]

/-! ### Operations that keep two such states so -/

theorem setWord (h : OffPage L s u) {a : Nat} {v w : Word} (hv : a / 0x1000 ≠ L → w = v) : OffPage L (s.setWord a v) (u.setWord a w) := by
  obtain ⟨r, rfl, hr⟩ := h
  refine ⟨_, rfl, fun b hb => ?_⟩
  show tabGet resetWord (tabSet resetWord r a w) b = (s.setWord a v).word b
  rw [tabGet_tabSet, word_setWord]
  split
  · subst b; exact hv hb
  · exact hr b hb

/-- A write to page `L` itself in the second state. -/
theorem setWord_right (h : OffPage L s u) {a : Nat} (v : Word) (ha : a / 0x1000 = L) : OffPage L s (u.setWord a v) := by
  obtain ⟨r, rfl, hr⟩ := h
  refine ⟨_, rfl, fun b hb => ?_⟩
  have hab : b ≠ a := fun q => hb (q ▸ ha)
  show tabGet resetWord (tabSet resetWord r a v) b = _
  rw [tabGet_tabSet, if_neg hab]
  exact hr b hb

theorem setF (h : OffPage L s u) {p : Nat} {fl : Fld} (hp : p ≠ L) (ho : fl.off < 0x1000) (v : Nat) :
    OffPage L (s.setF p fl v) (u.setF p fl v) :=
  h.setWord fun _ => by rw [h.word (by rwa [regAddr_page ho])]

theorem inc (h : OffPage L s u) {p : Nat} {fl : Fld} (hp : p ≠ L) (ho : fl.off < 0x1000) (n : Nat) :
    OffPage L (s.inc p fl n) (u.inc p fl n) := by
  unfold State.inc
  rw [h.f hp ho]
  exact h.setF hp ho _

theorem incPair (h : OffPage L s u) {p : Nat} {lo hi : Fld} (hp : p ≠ L) (hl : lo.off < 0x1000) (hh : hi.off < 0x1000) (n : Nat) :
    OffPage L (s.incPair p lo hi n) (u.incPair p lo hi n) := by
  unfold State.incPair State.setPair State.pair
  rw [h.f hp hl, h.f hp hh]
  exact (h.setF hp hl _).setF hp hh _

/-- An operation that neither reads nor writes registers. -/
theorem map (h : OffPage L s u) (g : State → State) (hg : ∀ s r, g { s with regs := r } = { g s with regs := r })
    (hw : ∀ s a, (g s).word a = s.word a) : OffPage L (g s) (g u) := by
  obtain ⟨r, rfl, hr⟩ := h
  exact ⟨r, hg s r, fun a ha => (hr a ha).trans (hw s a).symm⟩

theorem setRaster (h : OffPage L s u) (b : Fin 16) (g : Raster → Raster) : OffPage L (s.setRaster b g) (u.setRaster b g) :=
  h.map (·.setRaster b g) (fun _ _ => rfl) fun _ _ => rfl

theorem when (h : OffPage L s u) (c : Bool) {g k : State → State} (hg : OffPage L (g s) (k u)) : OffPage L (s.when c g) (u.when c k) := by
  cases c
  · exact h
  · exact hg

theorem each {α : Type} {g : State → α → State} (hg : ∀ {s u : State} (x : α), OffPage L s u → OffPage L (g s x) (g u x)) (l : List α) :
    ∀ {s u : State}, OffPage L s u → OffPage L (s.each l g) (u.each l g) := by
  induction l with
  | nil => exact id
  | cons x r ih => exact fun h => ih (hg x h)

end

/-! ### Where the page is a host port's -/

section
variable {L : Nat} (hL : L = 0x14 ∨ L = 0x15) {s u : State}
include hL

theorem domOn (h : OffPage L s u) (d : Nat) : u.domOn d = s.domOn d := by
  have hp : Pg.PWR ≠ L := by simp only [Pg.PWR]; omega
  simp only [State.domOn, h.pwr, h.f hp (fl := Reg.PWR_DOMAIN_STATUS_ON) (by decide)]

theorem pageOn (h : OffPage L s u) (p : Nat) : u.pageOn p = s.pageOn p := h.domOn hL _

theorem st (h : OffPage L s u) {p : Nat} (hp : p ≠ L) : u.st p = s.st p := by
  simp only [State.st, h.pageOn hL, h.f hp (fl := Reg.STATE_STATE) (by decide)]

theorem offer (h : OffPage L s u) (src stamp : Nat) : OffPage L (s.offer src stamp) (u.offer src stamp) := by
  have hp : Pg.EVCOL ≠ L := by simp only [Pg.EVCOL]; omega
  unfold State.offer
  rw [h.offers, h.f hp (fl := Reg.STATE_STATE) (by decide)]
  have h1 : OffPage L { s with ev := { s.ev with offers := offerInsert src stamp s.ev.offers } }
      { u with ev := { u.ev with offers := offerInsert src stamp s.ev.offers } } :=
    h.map (fun s' => { s' with ev := { s'.ev with offers := offerInsert src stamp s.ev.offers } }) (fun _ _ => rfl) fun _ _ => rfl
  exact h1.when _ (h1.inc hp (by decide) _)

theorem event (h : OffPage L s u) {p : Nat} (hp : p ≠ L) (k stamp : Nat) : OffPage L (s.event p k stamp) (u.event p k stamp) := by
  unfold State.event
  rw [h.pageOn hL, h.f hp (fl := Reg.EVENT) (by decide), h.f hp (fl := Reg.EVENT_MASK) (by decide)]
  split
  · have h1 : OffPage L (s.markEv (p * 32 + k)) (u.markEv (p * 32 + k)) := h.map (·.markEv _) (fun _ _ => rfl) fun _ _ => rfl
    have h2 := h1.setF hp (fl := Reg.EVENT) (by decide) (putBit (s.f p Reg.EVENT) k true)
    exact h2.when _ (h2.offer hL _ _)
  · exact h

theorem sticky (h : OffPage L s u) {p : Nat} (hp : p ≠ L) (k stamp : Nat) : OffPage L (s.sticky p k stamp) (u.sticky p k stamp) := by
  unfold State.sticky
  rw [h.pageOn hL, h.f hp (fl := Reg.ERROR_STICKY) (by decide)]
  split
  · split
    · exact h
    · exact (h.setF hp (by decide) _).event hL hp _ _
  · exact h

/-! ### The pixels that are due (R208) -/

omit hL in
theorem feedRect (h : OffPage L s u) (b : Fin 16) (a tile line col stamp : Nat) (rec : List Byte) (k : Fin 8) :
    OffPage L (s.feedRect b a tile line col stamp rec k) (u.feedRect b a tile line col stamp rec k) := by
  simp only [State.feedRect, h.rectOf, h.rectActive, h.rasters, h.rd]
  split
  · split
    · exact h.setRaster _ _
    · exact h.setRaster _ _
  · exact h

theorem exposePixel (h : OffPage L s u) (b : Fin 16) (c : RCur) (j : Nat) : OffPage L (s.exposePixel b c j) (u.exposePixel b c j) := by
  have hp : Pg.RASTER b ≠ L := by simp only [Pg.RASTER]; omega
  simp only [State.exposePixel, h.pixel]
  refine each (fun k h => ?_) _ ?_
  · rw [h.tileAddr]
    exact h.feedRect _ _ _ _ _ _ _ _
  · have h1 := h.incPair hp (lo := Reg.RASTER_PIXELS_LO) (hi := Reg.RASTER_PIXELS_HI) (by decide) (by decide) 1
    split
    · exact (h1.inc hp (by decide) _).sticky hL hp _ _
    · exact h1

theorem rasterDue (h : OffPage L s u) (b : Fin 16) : OffPage L (s.rasterDue b) (u.rasterDue b) := by
  simp only [State.rasterDue, State.takePixels, h.now, h.rasters]
  cases s.rasters[b].cur with
  | none => exact h
  | some c =>
    refine each (fun j h => ?_) _ (h.setRaster _ _)
    split
    · exact h
    · split
      · exact h.exposePixel hL _ _ _
      · exact h.setRaster _ _

/-- What is due on a page that is no light port's. -/
theorem pageDue (h : OffPage L s u) {p : Nat} (hp : pageBlk p ≠ some .ltport) : OffPage L (s.pageDue p) (u.pageDue p) := by
  unfold State.pageDue
  split
  · exact absurd ‹_› hp
  · exact h.rasterDue hL _
  · exact h

end

end OffPage

end Sys2Proof.Proofs
end
section
/-! PROOFS. A write to a plain register (R5, R6): what it stores, and that a state whose port counters have moved on takes it alike. -/

namespace Sys2Proof.Proofs

open Sys2Proof.Machine Sys2Proof.Laws

/-! ### Plain pages -/

theorem plainPage_ne {p q : Nat} (h : plainPage p = true) (hq : plainPage q = false) : p ≠ q := by
  rintro rfl
  exact absurd (h.symm.trans hq) (by decide)

/-- A plain page belongs to a block whose registers act only by their values. -/
theorem plainPage_blk {p : Nat} (h : plainPage p = true) :
    ∃ b, pageBlk p = some b ∧ b ∈ [Blk.laser, .glaze, .raster, .axis, .cam, .vision, .light, .dram, .therm, .evcol] := by
  have h : pageBlk p ∈ [Blk.laser, .glaze, .raster, .axis, .cam, .vision, .light, .dram, .therm, .evcol].map some := of_decide_eq_true h
  obtain ⟨b, hb, hp⟩ := List.mem_map.mp h
  exact ⟨b, hp.symm, hb⟩

theorem plainPage_hostPage {p L : Nat} (hL : L = 0x14 ∨ L = 0x15) (h : plainPage p = true) : p ≠ L := by
  rcases hL with rfl | rfl
  · exact plainPage_ne h (by decide)
  · exact plainPage_ne h (by decide)

theorem plainPage_notLight {p : Nat} (h : plainPage p = true) : pageBlk p ≠ some .ltport := by
  obtain ⟨b, hb, hm⟩ := plainPage_blk h
  rintro hp
  cases hb.symm.trans hp
  exact absurd hm (by decide)

/-! ### The stored word -/

/-- The bits that a write to the register at `a` stores (R5). -/
def rwMask (a : Nat) : Word := BitVec.ofNat 32 (accMask (a / 0x1000) (a % 0x1000) .rw ||| accMask (a / 0x1000) (a % 0x1000) .rws)

/-- R5: what the register at page `p`, offset `o` holds after `v` is written; W1C bits are cleared as the page's own rule says. -/
def storedWord (s : State) (p o : Nat) (v : Word) : Word :=
  let m := BitVec.ofNat 32 (accMask p o .rw ||| accMask p o .rws)
  (s.word (regAddr p o) &&& ~~~m &&& ~~~(v &&& BitVec.ofNat 32 (clearMask p o))) ||| (v &&& m)

/-- All that a write changes: its register, what the shadow was before, and the applied words of a field of two words (R5, R39, R40). -/
theorem store_eq (s : State) (p o : Nat) (v : Word) :
    ∃ w c, s.store p o v = { s.setWord (regAddr p o) (storedWord s p o v) with shadowWas := w, active := c } := by
  have hn : ∃ w, s.noteShadow p o = { s with shadowWas := w } := by
    simp only [State.noteShadow]
    split
    · exact ⟨s.shadowWas, rfl⟩
    · exact ⟨_, rfl⟩
  obtain ⟨w, hn⟩ := hn
  simp only [State.store, hn]
  split
  · exact ⟨w, _, rfl⟩
  · exact ⟨w, s.active, rfl⟩

theorem word_store (s : State) (p o : Nat) (v : Word) (a : Nat) :
    (s.store p o v).word a = if a = regAddr p o then storedWord s p o v else s.word a := by
  obtain ⟨w, c, h⟩ := store_eq s p o v
  rw [h]
  exact word_setWord s (regAddr p o) a _

theorem store_lanes (s : State) (p o : Nat) (v : Word) : (s.store p o v).lanes = s.lanes := by
  obtain ⟨w, c, h⟩ := store_eq s p o v
  rw [h]; rfl

theorem store_pwr (s : State) (p o : Nat) (v : Word) : (s.store p o v).pwr = s.pwr := by
  obtain ⟨w, c, h⟩ := store_eq s p o v
  rw [h]; rfl

/-- On a plain page the W1C bits written as 1 are cleared. -/
theorem clearMask_plain {p o : Nat} (h : plainPage p = true) : clearMask p o = accMask p o .w1c := by
  obtain ⟨b, hb, hm⟩ := plainPage_blk h
  refine if_neg fun q => ?_
  cases hb.symm.trans q.1
  exact absurd hm (by decide)

theorem word_store_written (s : State) {a : Nat} (v : Word) (h : plainPage (a / 0x1000) = true) :
    (s.store (a / 0x1000) (a % 0x1000) v).word a = s.written a v := by
  rw [word_store, if_pos (regAddr_split a).symm, storedWord, regAddr_split, clearMask_plain h]; rfl

theorem word_store_other (s : State) {a b : Nat} (v : Word) (h : b ≠ a) : (s.store (a / 0x1000) (a % 0x1000) v).word b = s.word b := by
  rw [word_store, regAddr_split, if_neg h]

/-- A write to a plain register that is neither a host error nor ignored is the store. -/
theorem regWrite_plain {s : State} {p o : Nat} {v : Word} (hp : plainPage p = true) (ho : 0x028 ≤ o)
    (hs : (s.pageDue p).writeStop p o v = none) (hi : (s.pageDue p).writeIgnored p o = false) :
    regWrite s p o v = done (s.pageDue p) ((s.pageDue p).store p o v) := by
  obtain ⟨b, hb, hm⟩ := plainPage_blk hp
  have ho' : ¬ o < 0x028 := by omega
  simp only [List.mem_cons, List.not_mem_nil, or_false] at hm
  rcases hm with rfl | rfl | rfl | rfl | rfl | rfl | rfl | rfl | rfl | rfl <;>
    simp only [regWrite, hs, hi, hb, ho', domainWrite, Option.isNone_some, Bool.false_eq_true, or_self, if_false]

/-! ### The same write in a state whose port counters have moved on -/

namespace OffPage

variable {L : Nat} (hL : L = 0x14 ∨ L = 0x15) {s u : State}
include hL

theorem brushesOff (h : OffPage L s u) : u.brushesOff = s.brushesOff := by
  have hb : ∀ q ∈ blkPages .brush, q ≠ 0x14 ∧ q ≠ 0x15 := by decide
  have hst (q : Nat) (hq : q ∈ blkPages .brush) : u.st q = s.st q := h.st hL (by have := hb q hq; omega)
  rw [State.brushesOff, State.brushesOff, Bool.eq_iff_iff, List.all_eq_true, List.all_eq_true]
  exact forall₂_congr fun q hq => by rw [hst q hq]

theorem writeIgnored (h : OffPage L s u) {p : Nat} (hp : plainPage p = true) (o : Nat) : u.writeIgnored p o = s.writeIgnored p o := by
  obtain ⟨b, hb, hm⟩ := plainPage_blk hp
  have hst := h.st hL (plainPage_hostPage hL hp)
  simp only [List.mem_cons, List.not_mem_nil, or_false] at hm
  rcases hm with rfl | rfl | rfl | rfl | rfl | rfl | rfl | rfl | rfl | rfl <;> simp only [State.writeIgnored, hb, hst]

theorem writeStop (h : OffPage L s u) {p o : Nat} (hp : plainPage p = true) (ho : o < 0x1000) (v : Word) :
    u.writeStop p o v = s.writeStop p o v := by
  have hw : u.word (regAddr p o) = s.word (regAddr p o) := h.word (by rw [regAddr_page ho]; exact plainPage_hostPage hL hp)
  simp only [State.writeStop, h.pageOn hL, h.writeIgnored hL hp, h.st hL (plainPage_hostPage hL hp), h.brushesOff hL, hw]

theorem written (h : OffPage L s u) {a : Nat} (hp : plainPage (a / 0x1000) = true) (v : Word) : u.written a v = s.written a v := by
  simp only [State.written, h.word (plainPage_hostPage hL hp)]

end OffPage

end Sys2Proof.Proofs
end
section
/-! PROOFS. What an access leaves of a host port: its lanes, the power state, and the registers that say that the port is UP and count its posted
writes. -/

namespace Sys2Proof.Proofs

open Sys2Proof.Machine Sys2Proof.Laws

/-- The registers that say whether the lane of page `L` is UP (R31, R71), and the one that counts its posted writes (R87). -/
def portRegs (L : Nat) : List Nat :=
  [regAddr Pg.PWR Reg.PWR_DOMAIN_STATUS_ON.off, regAddr L Reg.STATE_STATE.off, regAddr L Reg.LANE_LANE_STATUS_PHASE.off,
    regAddr L Reg.FRAME_FRAME_STATUS_POSTED_DONE.off]

theorem postedDone_portRegs (L : Nat) : regAddr L Reg.FRAME_FRAME_STATUS_POSTED_DONE.off ∈ portRegs L := by simp [portRegs]

/-- `u` has the lanes, the power state and the port registers of `s`. -/
def SamePort (L : Nat) (s u : State) : Prop := u.lanes = s.lanes ∧ u.pwr = s.pwr ∧ ∀ a ∈ portRegs L, u.word a = s.word a

namespace SamePort

section
variable {L : Nat} {s u v : State}

theorem refl (L : Nat) (s : State) : SamePort L s s := ⟨rfl, rfl, fun _ _ => rfl⟩

theorem trans (h : SamePort L s u) (k : SamePort L u v) : SamePort L s v :=
  ⟨k.1.trans h.1, k.2.1.trans h.2.1, fun a ha => (k.2.2 a ha).trans (h.2.2 a ha)⟩

theorem ite {c : Prop} [Decidable c] (h : SamePort L s u) (k : SamePort L s v) : SamePort L s (if c then u else v) := by
  split
  · exact h
  · exact k

theorem each {α : Type} {g : State → α → State} (hg : ∀ s x, SamePort L s (g s x)) (l : List α) : ∀ s : State, SamePort L s (s.each l g) := by
  induction l with
  | nil => exact refl L
  | cons x r ih => exact fun s => (hg s x).trans (ih _)

/-- Whether a lane is UP rests on the power state and the port registers. -/
theorem laneUp_congr {l : Fin 20} (hp : u.pwr = s.pwr) (hw : ∀ a ∈ portRegs (lanePage l), u.word a = s.word a) : u.laneUp l.val = s.laneUp l.val := by
  simp only [portRegs, List.forall_mem_cons] at hw
  obtain ⟨hd, hs, hph, -⟩ := hw
  have hon : u.pageOn (lanePage l.val) = s.pageOn (lanePage l.val) := by simp only [State.pageOn, State.domOn, State.f, hp, hd]
  have hst : u.st (lanePage l.val) = s.st (lanePage l.val) := by simp only [State.st, State.f, hon, hs]
  simp only [State.laneUp, State.isOn, State.phase, State.f, hst, hph]

theorem laneUp {l : Fin 20} (h : SamePort (lanePage l) s u) : u.laneUp l.val = s.laneUp l.val := laneUp_congr h.2.1 h.2.2

end

/-! ### Operations on other pages -/

/-- Pages whose registers are no port registers: those above the host ports, the collector's and CALIB's. -/
def OtherPage (p : Nat) : Prop := 0x16 ≤ p ∨ p = Pg.EVCOL ∨ p = Pg.CALIB

theorem lightPage (n : Fin 4) : 0x16 ≤ Pg.LTPORT n := by simp only [Pg.LTPORT]; omega

theorem otherPage_light (n : Fin 4) : OtherPage (Pg.LTPORT n) := .inl (lightPage n)

theorem otherPage_raster (b : Fin 16) : OtherPage (Pg.RASTER b) := .inl (by simp only [Pg.RASTER]; omega)

theorem notPort {L a : Nat} (hp : a / 0x1000 ≠ Pg.PWR) (ha : a / 0x1000 ≠ L) : a ∉ portRegs L := by
  intro h
  simp only [portRegs, List.mem_cons, List.not_mem_nil, or_false] at h
  rcases h with rfl | rfl | rfl | rfl
  · exact hp (regAddr_page (by decide))
  all_goals exact ha (regAddr_page (by decide))

theorem setWord {L : Nat} (s : State) {a : Nat} (v : Word) (ha : a ∉ portRegs L) : SamePort L s (s.setWord a v) :=
  ⟨rfl, rfl, fun b hb => by rw [word_setWord, if_neg (ne_of_mem_of_not_mem hb ha)]⟩

section
variable {L : Nat} (hL : L = 0x14 ∨ L = 0x15) {p : Nat} (hp : OtherPage p)
include hL

/-- No register of the pages above the host ports is a port register, at whatever offset. -/
theorem notPort_above {q : Nat} (hq : 0x16 ≤ q) (o : Nat) : regAddr q o ∉ portRegs L := by
  refine notPort ?_ ?_ <;> simp only [regAddr, Pg.PWR] <;> omega

include hp

theorem notPort_far {o : Nat} (ho : o < 0x1000) : regAddr p o ∉ portRegs L := by
  refine notPort ?_ ?_ <;> rw [regAddr_page ho] <;> simp only [OtherPage, Pg.PWR, Pg.EVCOL, Pg.CALIB] at * <;> omega

theorem setF (s : State) {fl : Fld} (ho : fl.off < 0x1000) (v : Nat) : SamePort L s (s.setF p fl v) := setWord s _ (notPort_far hL hp ho)

theorem inc (s : State) {fl : Fld} (ho : fl.off < 0x1000) (n : Nat) : SamePort L s (s.inc p fl n) := setF hL hp s ho _

theorem setB (s : State) {fl : Fld} (ho : fl.off < 0x1000) (v : Bool) : SamePort L s (s.setB p fl v) := setF hL hp s ho _

theorem incPair (s : State) {lo hi : Fld} (hl : lo.off < 0x1000) (hh : hi.off < 0x1000) (n : Nat) : SamePort L s (s.incPair p lo hi n) :=
  (setF hL hp s hl _).trans (setF hL hp _ hh _)

theorem event (s : State) (k stamp : Nat) : SamePort L s (s.event p k stamp) :=
  ⟨event_lanes s p k stamp, event_pwr s p k stamp, fun _ ha => word_event s p k stamp _
    (ne_of_mem_of_not_mem ha (notPort_far hL hp (by decide))) (ne_of_mem_of_not_mem ha (notPort_far hL (.inr (.inl rfl)) (by decide)))⟩

theorem sticky (s : State) (k stamp : Nat) : SamePort L s (s.sticky p k stamp) :=
  ⟨sticky_lanes s p k stamp, sticky_pwr s p k stamp, fun _ ha => word_sticky s p k stamp _
    (ne_of_mem_of_not_mem ha (notPort_far hL hp (by decide))) (ne_of_mem_of_not_mem ha (notPort_far hL hp (by decide)))
    (ne_of_mem_of_not_mem ha (notPort_far hL (.inr (.inl rfl)) (by decide)))⟩

theorem ev! (s : State) (k : Nat) : SamePort L s (s.ev! p k) := event hL hp s k s.now

theorem sticky! (s : State) (k : Nat) : SamePort L s (s.sticky! p k) := sticky hL hp s k s.now

end

/-! ### A page that enters FAULT, and a calibration run that it ends (R36, R388) -/

section
variable {L : Nat} (hL : L = 0x14 ∨ L = 0x15) (s : State)
include hL

theorem calWatch : SamePort L s s.calWatch := by
  have hc : OtherPage Pg.CALIB := .inr (.inr rfl)
  have ha (op : Nat) : SamePort L s (s.calAbandon op) := by
    have hrun : SamePort L s { s with cal := { s.cal with run := none } } := refl L s
    have hfail := ((hrun.trans (setB hL hc _ (fl := Reg.CALIB_STATUS_BUSY) (by decide) false)).trans
      (setF hL hc _ (fl := Reg.CALIB_STATUS_RESULT) (by decide) 2)).trans (ev! hL hc _ Ev.CALIB_CAL_FAIL)
    have hnv (u : State) (r : RecSt) : SamePort L u { u with rcd := r } := refl L u
    unfold State.calAbandon
    exact ite ((hfail.trans (hnv _ _)).trans (sticky! hL hc _ _)) hfail
  unfold State.calWatch
  split
  · split
    · exact refl L s
    · exact ha _
  · exact refl L s

variable {p : Nat} (hp : 0x16 ≤ p)
include hp

theorem setState (v stamp : Nat) : SamePort L s (s.setState p v stamp) := by
  have hr (u : State) : SamePort L u (u.refreshEn p) := setF hL (.inl hp) u (by decide) _
  have he (u : State) (k : Nat) : SamePort L u (u.event p k stamp) := event hL (.inl hp) u k stamp
  simp only [State.setState]
  split
  · exact hr s
  · have h1 : SamePort L s ((s.setF p Reg.STATE_STATE v).setEntered p stamp) := setF hL (.inl hp) s (by decide) v
    have h2 := (h1.trans (hr _)).trans (he _ Ev.STATE_CHANGE)
    refine SamePort.trans ?_ (calWatch hL _)
    split
    · exact h2.trans (he _ _)
    · exact h2

omit hL hp in
theorem exposeAt : SamePort L s (s.exposeAt p) := by
  have h (b : Fin 16) : SamePort L s (s.expose b) := by
    unfold State.expose
    split <;> exact refl L s
  unfold State.exposeAt
  split
  · exact h _
  · exact h _
  · exact refl L s

theorem blockFault (stamp : Nat) : SamePort L s (s.blockFault p stamp) := by
  unfold State.blockFault
  split
  · exact (setState hL s hp _ _).trans (exposeAt _)
  · exact refl L s

end

/-! ### What is due on a light port or a RASTER page (R208, R331) -/

section
variable {L : Nat} (hL : L = 0x14 ∨ L = 0x15) (s : State)
include hL

omit hL in
theorem setLight (n : Fin 4) (g : LtPort → LtPort) : SamePort L s (s.setLight n g) := refl L s

theorem lightShow (n : Fin 4) : SamePort L s (s.lightShow n) := by
  have hp := otherPage_light n
  have hs (u : State) (fl : Fld) (ho : fl.off < 0x1000) (v : Nat) : SamePort L u (u.setF (Pg.LTPORT n) fl v) := setF hL hp u ho v
  exact ((((((hs s _ (by decide) _).trans (hs _ _ (by decide) _)).trans (hs _ _ (by decide) _)).trans (hs _ _ (by decide) _)).trans
    (hs _ _ (by decide) _)).trans (hs _ _ (by decide) _)).trans (hs _ _ (by decide) _)

theorem popResp (n : Fin 4) : SamePort L s (s.popResp n) :=
  (setLight s n _).trans (lightShow hL _ n)

theorem lightOff (n : Fin 4) : SamePort L s (s.lightOff n) := (setLight s n _).trans (lightShow hL _ n)

theorem lightFault (n : Fin 4) : SamePort L s (s.lightFault n) := by
  have hp := lightPage n
  exact ite ((blockFault hL s hp _).trans (lightOff hL _ n)) (refl L s)

theorem ringCheck (n : Fin 4) (ok : Bool) : SamePort L s (s.ringCheck n ok) := by
  have hp := otherPage_light n
  have h1 := (((inc hL hp s (fl := Reg.LTPORT_RING_ERRORS) (by decide) 1).trans (sticky! hL hp _ Sticky.LTPORT_RING_ERR)).trans
    (ev! hL hp _ Ev.LTPORT_RING_ERR)).trans (setLight _ n fun x => { x with fails := x.fails + 1 })
  exact ite (setLight s n _) (ite (h1.trans (lightFault hL _ n)) h1)

theorem hostAnswer (n : Fin 4) (r0 r1 : Nat) : SamePort L s (s.hostAnswer n r0 r1) := by
  have hp := otherPage_light n
  exact ite (inc hL hp s (by decide) _) (((setLight s n _).trans (lightShow hL _ n)).trans (ev! hL hp _ _))

theorem pollAnswer (n : Fin 4) (k r1 : Nat) : SamePort L s (s.pollAnswer n k r1) := by
  have hp := lightPage n
  have htemp (fl : Fld) (v : Nat) : SamePort L s (s.setF (Pg.LTPORT n) fl v) := setWord s _ (notPort_above hL hp _)
  have h1 (fl : Fld) (v : Nat) (g : LtPort → LtPort) := (htemp fl v).trans (setLight _ n g)
  exact ite ((h1 _ _ _).trans (sticky! hL (.inl hp) _ _)) (h1 _ _ _)

theorem idAnswer (n : Fin 4) (k : Nat) (valid : Bool) (r0 r1 : Nat) : SamePort L s (s.idAnswer n k valid r0 r1) := by
  have hp := lightPage n
  exact ite (((setLight s n _).trans (sticky! hL (.inl hp) _ _)).trans (lightFault hL _ n)) (setLight s n _)

theorem takeReturn (n : Fin 4) (b : LtBack) : SamePort L s (s.takeReturn n b) := by
  simp only [State.takeReturn]
  refine SamePort.trans ?_ (ringCheck hL _ n _)
  split
  · exact idAnswer hL s n _ _ _ _
  · split
    · exact pollAnswer hL s n _ _
    · exact refl L s
  · split
    · exact hostAnswer hL s n _ _
    · exact refl L s
  · exact refl L s

omit hL in
theorem backAt (a : Nat) {g : State → State} (hg : ∀ u, SamePort L u (g u)) : SamePort L s (s.backAt a g) :=
  hg { s with time := { s.time with now := a } }

theorem lightReturn (n : Fin 4) : SamePort L s (s.lightReturn n) := by
  have hp := lightPage n
  unfold State.lightReturn
  split
  · exact refl L s
  · next b hb =>
    have hsync (e : Nat) : SamePort L s (s.backAt e fun s => s.ev! (Pg.LTPORT n) Ev.LTPORT_SYNC_DONE) :=
      backAt (g := fun s => s.ev! (Pg.LTPORT n) Ev.LTPORT_SYNC_DONE) s e fun u => ev! hL (.inl hp) u _
    have htake (u : State) : SamePort L u (u.backAt b.lastEdge fun s => s.takeReturn n b) :=
      backAt (g := fun s => s.takeReturn n b) u b.lastEdge fun u => takeReturn hL u n b
    have h1 : SamePort L s (if b.kind = .sync ∧ s.past (wrapU 64 ((b.lastEdge : Int) - 256)) then
        (s.backAt (wrapU 64 ((b.lastEdge : Int) - 256)) fun s => s.ev! (Pg.LTPORT n) Ev.LTPORT_SYNC_DONE).setLight n fun x =>
          { x with back := some { b with kind := .plain } }
      else s) := ite ((hsync _).trans (setLight _ n _)) (refl L s)
    exact ite ((h1.trans (setLight _ n _)).trans (htake _)) h1

omit hL in
theorem feedRect (b : Fin 16) (a tile line col stamp : Nat) (rec : List Byte) (k : Fin 8) :
    SamePort L s (s.feedRect b a tile line col stamp rec k) := by
  simp only [State.feedRect]
  split
  · split <;> exact refl L s
  · exact refl L s

theorem exposePixel (b : Fin 16) (c : RCur) (j : Nat) : SamePort L s (s.exposePixel b c j) := by
  have hp := otherPage_raster b
  have h1 := incPair hL hp s (lo := Reg.RASTER_PIXELS_LO) (hi := Reg.RASTER_PIXELS_HI) (by decide) (by decide) 1
  simp only [State.exposePixel]
  refine SamePort.trans ?_ (each (fun u k => feedRect u _ _ _ _ _ _ _ _) _ _)
  split
  · exact (h1.trans (inc hL hp _ (by decide) _)).trans (sticky hL hp _ _ _)
  · exact h1

theorem rasterDue (b : Fin 16) : SamePort L s (s.rasterDue b) := by
  simp only [State.rasterDue, State.takePixels]
  split
  · refine SamePort.trans (u := s.setRaster b _) (refl L s) (each (fun u j => ?_) _ _)
    split
    · exact refl L u
    · split
      · exact exposePixel hL u b _ j
      · exact refl L u
  · exact refl L s

theorem pageDue (p : Nat) : SamePort L s (s.pageDue p) := by
  unfold State.pageDue
  split
  · exact lightReturn hL s _
  · exact rasterDue hL s _
  · exact refl L s

end

end SamePort

end Sys2Proof.Proofs
end
section
/-! PROOFS. What a register read does (R5), and how the accesses of one cycle are put in order (R89, log entry 69). -/

namespace Sys2Proof.Proofs

open Sys2Proof.Machine Sys2Proof.Laws

/-! ### Reads -/

/-- R5: away from the response FIFO a read gives the RC fields of its register their reset values, and changes no other register. -/
theorem word_readEffect {s : State} {addr : Nat} (h : ¬ (pageBlk (addr / 0x1000) = some .ltport ∧ addr % 0x1000 = Reg.LTPORT_RESP_INFO_ANS.off))
    (a : Nat) : (s.readEffect (addr / 0x1000) (addr % 0x1000)).word a =
      if a = addr ∧ accMask (addr / 0x1000) (addr % 0x1000) .rc ≠ 0 then
        (s.word addr &&& ~~~(BitVec.ofNat 32 (accMask (addr / 0x1000) (addr % 0x1000) .rc))) |||
          (resetWord addr &&& BitVec.ofNat 32 (accMask (addr / 0x1000) (addr % 0x1000) .rc))
      else s.word a := by
  simp only [State.readEffect, regAddr_split, if_neg h]
  by_cases hm : accMask (addr / 0x1000) (addr % 0x1000) .rc = 0
  · simp [hm]
  · simp only [hm, if_false, ne_eq, not_false_eq_true, and_true]
    split <;> exact word_setWord s addr a _

/-- No port register has an RC field. -/
theorem portRegs_noRc {L a : Nat} (hL : L = 0x14 ∨ L = 0x15) (ha : a ∈ portRegs L) : accMask (a / 0x1000) (a % 0x1000) .rc = 0 := by
  revert a
  rcases hL with rfl | rfl <;> decide

/-- A read leaves the host port as it was, whatever register it reads. -/
theorem samePort_readEffect {L : Nat} (hL : L = 0x14 ∨ L = 0x15) (s : State) (addr : Nat) :
    SamePort L s (s.readEffect (addr / 0x1000) (addr % 0x1000)) := by
  simp only [State.readEffect, regAddr_split]
  split
  · exact SamePort.refl L s
  · next hm =>
    have hw : addr ∉ portRegs L := fun h => hm (portRegs_noRc hL h)
    split
    · exact (SamePort.lightReturn hL s _).trans (SamePort.popResp hL _ _)
    · split <;> exact SamePort.setWord s _ hw

/-- One register is read with the effect of its read. -/
theorem readRegs_one (s : State) (addr : Nat) : readRegs s addr 1 =
    (s.readEffect (addr / 0x1000) (addr % 0x1000), leBytes 4 (s.readWord (addr / 0x1000) (addr % 0x1000)).toNat) := by
  simp [readRegs]

theorem leBytes_length (k n : Nat) : (leBytes k n).length = k := by
  induction k generalizing n with
  | zero => rfl
  | succ k ih => simp [leBytes, ih]

theorem leNat_leBytes (k n : Nat) : leNat (leBytes k n) = n % 256 ^ k := by
  induction k generalizing n with
  | zero => simp [leBytes, leNat, Nat.mod_one]
  | succ k ih =>
    simp only [leBytes, leNat, ih, BitVec.toNat_ofNat, pow_succ']
    exact (Nat.mod_mul).symm

/-- A register written by its four bytes takes the word. -/
theorem writeRegs_word {s s' : State} {addr : Nat} {v : Word} (h : regWrite s (addr / 0x1000) (addr % 0x1000) v = .next s') :
    writeRegs s addr (leBytes 4 v.toNat) = done s' s' := by
  have hv : BitVec.ofNat 32 (leNat (leBytes 4 v.toNat)) = v := by
    rw [leNat_leBytes, show (256 : Nat) ^ 4 = 2 ^ 32 from rfl, Nat.mod_eq_of_lt v.isLt, BitVec.ofNat_toNat, BitVec.setWidth_eq]
  have hw : writeRegs s addr (leBytes 4 v.toNat) =
      thenDo (regWrite s (addr / 0x1000) (addr % 0x1000) (BitVec.ofNat 32 (leNat (leBytes 4 v.toNat)))) fun s1 => writeRegs s1 (addr + 4) [] := rfl
  rw [hw, hv, h]
  rfl

/-! ### The order of a cycle -/

/-- A read that comes first, or alone in what is kept of the cycle, returns what it found. -/
theorem readFirst_alone {s : State} {q : Txn} {data : List Byte} (h : q.port % 2 = 1 ∨ s.hostCycle = []) : s.readFirst q data = data :=
  if_neg fun ⟨hp, _, hc⟩ => h.elim (by omega) hc

/-- Of HOST_B's completions alone does a write of HOST_A in the same cycle change what they tell. -/
theorem laterReads_frame (s s1 : State) {q : Txn} (hp : q.port % 2 = 0) :
    (s.laterReads s1 q).pwr = s1.pwr ∧ (s.laterReads s1 q).lanes[hostLane q.port] = s1.lanes[hostLane q.port] ∧
      (s.laterReads s1 q).word = s1.word := by
  have hl : (hostLane q.port).val = 0 := hp
  unfold State.laterReads
  dsimp only
  split
  · exact ⟨rfl, by simp [Vector.getElem_set_ne, hl], rfl⟩
  · exact ⟨rfl, rfl, rfl⟩

/-- The register HOST_A writes, where HOST_B has written it in the same cycle: HOST_B's RW fields stay over HOST_A's. -/
def mergedWord (s s1 : State) (a : Nat) : Word := (s1.word a &&& ~~~rwMask a) ||| (s.word a &&& rwMask a)

theorem regsUnder_one {s s1 : State} {q : Txn} (hd : q.data.length = 4) :
    s.regsUnder s1 q = if s.sameCycle 1 q.addr = [] then s1 else s1.setWord q.addr (mergedWord s s1 q.addr) := by
  simp only [State.regsUnder, hd]
  rfl

/-- Once a register write has its place in the order of its cycle, the register holds HOST_B's RW fields over HOST_A's; the port, the power state and
every other register are as the write left them. -/
theorem portOrder_frame {s s1 : State} {q : Txn} (ha : q.addr < 0x100000) :
    (s.portOrder s1 q).pwr = s1.pwr ∧ (s.portOrder s1 q).lanes[hostLane q.port] = s1.lanes[hostLane q.port] ∧
      (s.portOrder s1 q).word = (if q.port % 2 = 0 then s.regsUnder s1 q else s1).word := by
  have hu : (s.regsUnder s1 q).pwr = s1.pwr ∧ (s.regsUnder s1 q).lanes = s1.lanes := by
    constructor
    · exact each_inv State.pwr _ (fun u a => by dsimp only; split <;> rfl) _ s1
    · exact each_inv State.lanes _ (fun u a => by dsimp only; split <;> rfl) _ s1
  by_cases hp : q.port % 2 = 0
  · obtain ⟨hpw, hln, hwo⟩ := laterReads_frame s (s.regsUnder s1 q) hp
    have h : ∃ c, s.portOrder s1 q = { s.laterReads (s.regsUnder s1 q) q with hostCycle := c } := by
      simp only [State.portOrder, decide_eq_true ha, if_true, if_pos hp]
      exact ⟨_, rfl⟩
    obtain ⟨c, h⟩ := h
    rw [h, if_pos hp, ← hu.1, ← hu.2]
    exact ⟨hpw, hln, hwo⟩
  · have h : ∃ c, s.portOrder s1 q = { s1 with hostCycle := c } := by
      simp only [State.portOrder, if_neg hp]
      exact ⟨_, rfl⟩
    obtain ⟨c, h⟩ := h
    rw [h, if_neg hp]
    exact ⟨rfl, rfl, rfl⟩

theorem portOrder_word_other {s s1 : State} {q : Txn} (hd : q.data.length = 4) (ha : q.addr < 0x100000) {a : Nat} (h : a ≠ q.addr) :
    (s.portOrder s1 q).word a = s1.word a := by
  rw [(portOrder_frame ha).2.2, regsUnder_one hd]
  split
  · split
    · rfl
    · rw [word_setWord, if_neg h]
  · rfl

theorem portOrder_word_same {s s1 : State} {q : Txn} (hd : q.data.length = 4) (ha : q.addr < 0x100000) :
    (s.portOrder s1 q).word q.addr = if q.port % 2 = 0 ∧ s.sameCycle 1 q.addr ≠ [] then mergedWord s s1 q.addr else s1.word q.addr := by
  rw [(portOrder_frame ha).2.2, regsUnder_one hd]
  by_cases hp : q.port % 2 = 0 <;> by_cases hs : s.sameCycle 1 q.addr = [] <;> simp [hp, hs, word_setWord]

end Sys2Proof.Proofs
end
section
/-! PROOFS. A transaction on one register that takes effect on arrival (R87 to R89, R313). -/

namespace Sys2Proof.Proofs

open Sys2Proof.Machine Sys2Proof.Laws

/-! ### Receipt -/

/-- The counters of R88 are registers of the port's own page. -/
theorem offPage_counted (s : State) (q : Txn) : OffPage (lanePage (hostLane q.port)) s (s.counted q) := by
  have h {u : State} (h : OffPage (lanePage (hostLane q.port)) s u) (fl : Fld) (ho : fl.off < 0x1000) :
      OffPage (lanePage (hostLane q.port)) s (u.inc (lanePage (hostLane q.port)) fl) := h.setWord_right _ (regAddr_page ho)
  have h1 := h (OffPage.refl _ s) Reg.FRAME_TXN_RECEIVED (by decide)
  unfold State.counted
  dsimp only
  split
  · exact h1
  · exact h h1 _ (by decide)

theorem counted_f (s : State) (q : Txn) {fl : Fld} (hf : Fits fl) (hr : fl.off ≠ 0x104) (ho : fl.off ≠ 0x100 ∨ q.op = 2) :
    (s.counted q).f (lanePage (hostLane q.port)) fl = s.f (lanePage (hostLane q.port)) fl := by
  have h1 (u : State) (g : Fld) (v : Nat) (hg : Fits g) (h : g.off ≠ fl.off) :
      (u.setF (lanePage (hostLane q.port)) g v).f (lanePage (hostLane q.port)) fl = u.f (lanePage (hostLane q.port)) fl :=
    f_setF_apart u _ g fl v hg hf (.inl h)
  unfold State.counted
  dsimp only
  split
  · exact h1 _ _ _ (by decide) (Ne.symm hr)
  · next hop =>
    exact (h1 _ _ _ (by decide) (Ne.symm (ho.resolve_right hop))).trans (h1 _ _ _ (by decide) (Ne.symm hr))

theorem counted_laneUp (s : State) (q : Txn) : (s.counted q).laneUp (hostLane q.port).val = s.laneUp (hostLane q.port).val := by
  simp only [State.laneUp, State.isOn, State.st, State.phase, (offPage_counted s q).pageOn (hostPage q.port),
    counted_f s q (fl := Reg.STATE_STATE) (by decide) (by decide) (.inl (by decide)),
    counted_f s q (fl := Reg.LANE_LANE_STATUS_PHASE) (by decide) (by decide) (.inl (by decide))]

/-- A transaction that takes effect on arrival is applied in the state that counts it (R88, R89). -/
theorem receiveTxn_applies {t : Nat} {s : State} {port : Fin 2} {op : Nat} {tag : BitVec 16} {addr count : Nat} {cross : Bool} {data : List Byte}
    {q : Txn} (hq : q = (s.upTo t).arriving port op tag addr count cross data) (h : (s.upTo t).applies q) :
    receiveTxn t port op tag.toNat addr count cross data s =
      applyTxn ((s.upTo t).counted q) q 3 fun u d => done s (u.complete q d) := by
  obtain ⟨⟨hup, hstep, hlim⟩, hpair, -⟩ := h
  have hsys : Pg.SYS ≠ lanePage (hostLane q.port) := by have := hostPage q.port; simp only [Pg.SYS]; omega
  have hrole : ((s.upTo t).counted q).roleB = (s.upTo t).roleB := by
    simp only [State.roleB, State.fb, (offPage_counted (s.upTo t) q).f hsys (fl := Reg.SYS_STRAPS) (by decide)]
  have hwait : ((s.upTo t).counted q).waiting port = (s.upTo t).waiting port := by
    simp only [State.waiting, hrole, (offPage_counted (s.upTo t) q).dip]
  have hB : ¬ (decide ((s.upTo t).pairState = pairLockstep) = true ∧ (s.upTo t).roleB = true ∧ ¬ bAccepts q = true) := by
    rintro ⟨hl, hr, hb⟩
    rw [if_pos hr] at hpair
    exact hb (hpair (of_decide_eq_true hl))
  have hA : ¬ (¬ ((s.upTo t).counted q).roleB = true ∧
      (decide ((s.upTo t).pairState = pairLockstep) = true ∨ ((s.upTo t).counted q).waiting port ≠ [])) := by
    rw [hrole, hwait]
    rintro ⟨hr, hw⟩
    rw [if_neg hr] at hpair
    subst hq
    exact hw.elim (fun hl => hpair.1 (of_decide_eq_true hl)) fun hw => hw hpair.2
  subst hq
  exact (if_neg (not_not.mpr hup)).trans ((if_neg (Bool.eq_false_iff.mp hstep)).trans ((if_neg (Bool.eq_false_iff.mp hlim)).trans
    ((if_neg hB).trans (if_neg hA))))

/-! ### One register -/

theorem applyTxn_write {s w : State} {q : Txn} {cls : Nat} {k : State → List Byte → Host.Outcome State Fault Refusal}
    (hstop : s.txnStop q = none) (hop : q.op = 1 ∨ q.op = 2) (ha : q.addr < 0x100000) (hw : writeRegs s q.addr q.data = .next w) :
    applyTxn s q cls k = k (s.portOrder w q) [] := by
  have h3 : q.op ≠ 3 := by omega
  have h0 : q.op ≠ 0 := by omega
  simp only [applyTxn, hstop, if_neg h3, if_neg h0, if_pos ha, hw]
  rfl

theorem applyTxn_read {s : State} {q : Txn} {cls : Nat} {k : State → List Byte → Host.Outcome State Fault Refusal}
    (hstop : s.txnStop q = none) (hop : q.op = 0) (ha : q.addr < 0x100000) (hc : q.count = 3) :
    applyTxn s q cls k = k (s.readEffect (q.addr / 0x1000) (q.addr % 0x1000))
      (s.readFirst q (leBytes 4 (s.readWord (q.addr / 0x1000) (q.addr % 0x1000)).toNat)) := by
  simp only [applyTxn, hstop, hop, hc, if_pos ha, readRegs_one, if_true, OfNat.zero_ne_ofNat, if_false, Nat.reduceAdd, Nat.div_self, Nat.zero_lt_succ]

/-- The completion of a READ or a WRITE is ready behind those of its port (R87). -/
theorem complete_answers {s : State} {q : Txn} (d : List Byte) (hup : s.laneUp (hostLane q.port).val = true) (hop : q.op = 0 ∨ q.op = 1) :
    (s.complete q d).lanes[hostLane q.port].cpls.map Cpl.answer = s.lanes[hostLane q.port].cpls.map Cpl.answer ++ [(q.tag, q.op, q.count, d)] ∧
      ∀ a, (s.complete q d).word a = s.word a := by
  have h2 : q.op ≠ 2 := by omega
  have h3 : q.op ≠ 3 := by omega
  simp only [State.complete, hup, not_true, if_false, if_neg h2, if_neg h3]
  rcases hop with hop | hop <;> simp [hop, State.when, State.takeFree, Cpl.answer, State.word]

/-- A posted write is counted (R87). -/
theorem complete_posted {s : State} {q : Txn} (d : List Byte) (hup : s.laneUp (hostLane q.port).val = true) (hop : q.op = 2) :
    (s.complete q d).f (lanePage (hostLane q.port)) Reg.FRAME_FRAME_STATUS_POSTED_DONE =
        (s.f (lanePage (hostLane q.port)) Reg.FRAME_FRAME_STATUS_POSTED_DONE + 1) % 2 ^ Reg.FRAME_FRAME_STATUS_POSTED_DONE.width ∧
      ∀ a, plainPage (a / 0x1000) = true → (s.complete q d).word a = s.word a := by
  simp only [State.complete, hup, not_true, if_false, if_pos hop]
  refine ⟨f_setF_same _ _ _ _ (by decide), fun a hp => word_setF_other _ _ _ _ _ fun h => ?_⟩
  exact plainPage_hostPage (hostPage q.port) hp (by rw [h, regAddr_page (by decide)])

end Sys2Proof.Proofs
end
section
/-! PROOFS. The clauses of RegisterAccess. -/

namespace Sys2Proof.Proofs

open Sys2Proof.Machine Sys2Proof.Laws

section
variable {t : Nat} {s : State} {port : Fin 2} {op : Nat} {tag : BitVec 16} {addr count : Nat} {data : List Byte} {q : Txn}

theorem hostPort_even (port : Fin 2) : port.val % 2 = 0 ↔ port.val = 0 := by omega

/-- The state in which a plain register has been written is, for the host port, the state before. -/
theorem samePort_store {L : Nat} (hL : L = 0x14 ∨ L = 0x15) (s : State) {a : Nat} (v : Word) (hp : plainPage (a / 0x1000) = true) :
    SamePort L s (s.store (a / 0x1000) (a % 0x1000) v) := by
  have ha : a ∉ portRegs L := SamePort.notPort (plainPage_ne hp (by decide)) (plainPage_hostPage hL hp)
  exact ⟨store_lanes _ _ _ _, store_pwr _ _ _ _, fun b hb => word_store_other s v (ne_of_mem_of_not_mem hb ha)⟩

theorem samePort_ended (L : Nat) (s u : State) : SamePort L u (ended s u) := ⟨rfl, rfl, fun a _ => ended_word s u a⟩

/-- The four bytes of a word written to a plain register store it, and leave the host ports as they were. -/
theorem writeRegs_plain {L : Nat} (hL : L = 0x14 ∨ L = 0x15) {s : State} {a : Nat} {v : Word} (hp : plainPage (a / 0x1000) = true)
    (ho : 0x028 ≤ a % 0x1000) (hs : (s.pageDue (a / 0x1000)).writeStop (a / 0x1000) (a % 0x1000) v = none)
    (hi : (s.pageDue (a / 0x1000)).writeIgnored (a / 0x1000) (a % 0x1000) = false) :
    ∃ w, writeRegs s a (leBytes 4 v.toNat) = .next w ∧ SamePort L s w ∧ w.word a = (s.pageDue (a / 0x1000)).written a v := by
  refine ⟨_, writeRegs_word (regWrite_plain hp ho hs hi), ?_, ?_⟩
  · exact ((SamePort.pageDue hL s _).trans (samePort_store hL _ v hp)).trans ((samePort_ended _ _ _).trans (samePort_ended _ _ _))
  · exact (ended_word _ _ _).trans ((ended_word _ _ _).trans (word_store_written _ v hp))

/-- A WRITE or WRITE_POSTED of one plain register that takes effect on arrival: the state it is completed in holds the word written, under HOST_B's of
the same cycle (R5, R89), and has the port as the counters of R88 leave it. -/
theorem txn_store {v : Word} (hq : q = (s.upTo t).arriving port op tag addr count false data) (happ : (s.upTo t).applies q)
    (hop : q.op = 1 ∨ q.op = 2) (hc : count = 3) (hd : data = leBytes 4 v.toNat) (hst : ((s.upTo t).pageDue (q.addr / 0x1000)).storable q.addr v) :
    ∃ u : State, receiveTxn t port op tag.toNat addr count false data s = done s (u.complete q []) ∧
      u.laneUp (hostLane q.port).val = true ∧ u.lanes[hostLane q.port] = s.lanes[hostLane q.port] ∧
      (∀ a ∈ portRegs (lanePage (hostLane q.port)), u.word a = ((s.upTo t).counted q).word a) ∧
      u.word q.addr = if q.port % 2 = 0 ∧ (s.upTo t).sameCycle 1 q.addr ≠ [] then
          (((s.upTo t).pageDue (q.addr / 0x1000)).written q.addr v &&& ~~~rwMask q.addr) ||| (s.word q.addr &&& rwMask q.addr)
        else ((s.upTo t).pageDue (q.addr / 0x1000)).written q.addr v := by
  obtain ⟨-, ha, -, ho, hp, hws, hwi⟩ := hst
  have hqd : q.data = leBytes 4 v.toNat := by
    rw [hq, hd, hc]
    exact List.take_left' (leBytes_length 4 _)
  have hlen : q.data.length = 4 := by rw [hqd, leBytes_length]
  have hL := hostPage q.port
  have hoff := offPage_counted (s.upTo t) q
  have hdue := hoff.pageDue hL (plainPage_notLight hp)
  obtain ⟨w, hw, hkeep, hww⟩ := writeRegs_plain hL hp ho ((hdue.writeStop hL hp (Nat.mod_lt _ (by decide)) v).trans hws)
    ((hdue.writeIgnored hL hp _).trans hwi)
  refine ⟨_, (receiveTxn_applies hq happ).trans (applyTxn_write happ.2.2 hop ha (hqd ▸ hw)), ?_⟩
  obtain ⟨hpwr, hlanes, -⟩ := portOrder_frame (s := (s.upTo t).counted q) (s1 := w) ha
  have hnot : q.addr ∉ portRegs (lanePage (hostLane q.port)) := SamePort.notPort (plainPage_ne hp (by decide)) (plainPage_hostPage hL hp)
  have hwords (a : Nat) (h : a ∈ portRegs (lanePage (hostLane q.port))) :=
    (portOrder_word_other (s := (s.upTo t).counted q) hlen ha (ne_of_mem_of_not_mem h hnot)).trans (hkeep.2.2 a h)
  refine ⟨?_, ?_, hwords, ?_⟩
  · rw [SamePort.laneUp_congr (hpwr.trans hkeep.2.1) hwords, counted_laneUp]
    exact happ.1.1
  · rw [hlanes, hkeep.1, hoff.lanes, upTo_lanes]
  · rw [portOrder_word_same hlen ha, hoff.sameCycle, mergedWord, hww, hdue.written hL hp, hoff.word (plainPage_hostPage hL hp), upTo_word]

/-- A READ of one register that takes effect on arrival: what it returns is its word, or what it finds of the cycle (R5, R89). -/
theorem txn_read (hq : q = (s.upTo t).arriving port op tag addr count false data) (happ : (s.upTo t).applies q)
    (hop : q.op = 0) (hc : q.count = 3) (ha : q.addr < 0x100000) :
    ∃ u : State, receiveTxn t port op tag.toNat addr count false data s =
        done s (u.complete q (((s.upTo t).counted q).readFirst q
          (leBytes 4 (((s.upTo t).counted q).readWord (q.addr / 0x1000) (q.addr % 0x1000)).toNat))) ∧
      u.laneUp (hostLane q.port).val = true ∧ u.lanes[hostLane q.port] = s.lanes[hostLane q.port] := by
  have hkeep := samePort_readEffect (hostPage q.port) ((s.upTo t).counted q) q.addr
  refine ⟨_, (receiveTxn_applies hq happ).trans (applyTxn_read happ.2.2 hop ha hc), ?_, ?_⟩
  · rw [hkeep.laneUp, counted_laneUp]
    exact happ.1.1
  · rw [hkeep.1, (offPage_counted (s.upTo t) q).lanes, upTo_lanes]

/-- What HOST_A reads of a register that HOST_B, and not it, has written in the cycle: what stood there before the first such write (R89). -/
theorem readFirst_old {u : State} {e : HostWrite} {d : List Byte} (hp : q.port % 2 = 0) (ha : q.addr < 0x100000) (hd : d.length = 4)
    (h : ∀ k : Fin 4, u.sameCycle 0 (q.addr + k.val) = [] ∧ (u.sameCycle 1 (q.addr + k.val)).getLast? = some e) :
    u.readFirst q d = (List.range 4).map fun k => e.old.getD (q.addr + k - e.addr) 0#8 := by
  have hc : u.hostCycle ≠ [] := by
    intro hc
    have h0 := (h 0).2
    simp [State.sameCycle, hc] at h0
  have hb : q.addr < dramBase := by simp only [dramBase]; omega
  rw [State.readFirst, if_pos ⟨hp, hb, hc⟩, hd]
  refine List.map_congr_left fun k hk => ?_
  obtain ⟨h0, h1⟩ := h ⟨k, List.mem_range.mp hk⟩
  dsimp only at h0 h1 ⊢
  rw [h0, h1]

end

end Sys2Proof.Proofs

namespace Sys2Proof.Proofs

open Sys2Proof.Machine Sys2Proof.Laws

/-- A plain register is written in the state that has exposed the pixels due on its page (R5, R208). -/
theorem execRegisterWrite_plain {t addr : Nat} {v : Word} {s : State} (ha : addr < 0x100000) (h4 : addr % 4 = 0) (hon : s.pwr.sysOn = true)
    (ho : 0x028 ≤ addr % 0x1000) (hp : plainPage (addr / 0x1000) = true)
    (hs : ((s.upTo t).pageDue (addr / 0x1000)).writeStop (addr / 0x1000) (addr % 0x1000) v = none)
    (hi : ((s.upTo t).pageDue (addr / 0x1000)).writeIgnored (addr / 0x1000) (addr % 0x1000) = false) :
    execRegisterWrite t addr v s = .next (ended s (ended ((s.upTo t).pageDue (addr / 0x1000))
      (((s.upTo t).pageDue (addr / 0x1000)).store (addr / 0x1000) (addr % 0x1000) v))) := by
  simp only [execRegisterWrite, if_neg (Nat.not_le.mpr ha), h4, upTo_pwr, hon, not_true, if_false, ne_eq, regWrite_plain hp ho hs hi]
  rfl

theorem execRegisterReadClear_next {t addr : Nat} {s : State} (h : s.readStop addr = none) :
    execRegisterReadClear t addr s = .next (ended s ((s.upTo t).readEffect (addr / 0x1000) (addr % 0x1000))) := by
  have ht : (s.upTo t).readStop addr = none := by simpa only [State.readStop, upTo_pwr, upTo_pageOn] using h
  simp only [execRegisterReadClear, ht]
  rfl

/-- Settles O52: the store of a plain register and the effect of a read, and for a transaction the same in the state that counts it,
in its place in the order of the cycle. -/
theorem registerAccess : Obligations.RegisterAccess := by
  unfold Obligations.RegisterAccess
  refine ⟨?_, ?_, ?_, ?_, ?_, ?_⟩
  · intro t addr v s ha h4 hon ho hb hs hi
    have hp : plainPage (addr / 0x1000) = true := decide_eq_true hb
    refine ⟨_, execRegisterWrite_plain ha h4 hon ho hp hs hi, ?_⟩
    simp only [ended_word]
    exact ⟨word_store_written _ v hp, fun a h => word_store_other _ v h⟩
  · intro t addr s _ _ _ hr hn
    refine ⟨_, execRegisterReadClear_next hr, ?_⟩
    simp only [ended_word, word_readEffect hn, upTo_word]
    exact ⟨by simp, fun a h => if_neg fun q => h q.1⟩
  · intro t port tag addr count data v s happ hc hd hst
    obtain ⟨u, hu, hup, hlanes, -, hw⟩ := txn_store rfl happ (.inl rfl) hc hd hst
    obtain ⟨hans, hword⟩ := complete_answers [] hup (.inr rfl)
    refine ⟨_, hu.trans (done_eq s _), ?_, hans.trans (by rw [hlanes]; rfl)⟩
    exact (ended_word s _ _).trans ((hword _).trans (hw.trans (if_congr (and_congr_left' (hostPort_even port)) rfl rfl)))
  · intro t port tag addr count data v s happ hc hd hst
    obtain ⟨u, hu, hup, hlanes, hport, hw⟩ := txn_store rfl happ (.inr rfl) hc hd hst
    obtain ⟨hdone, hword⟩ := complete_posted [] hup rfl
    obtain ⟨-, -, -, -, hp, -⟩ := id hst
    refine ⟨_, hu.trans (done_eq s _), ?_, ?_⟩
    · exact (ended_word s _ _).trans ((hword _ hp).trans (hw.trans (if_congr (and_congr_left' (hostPort_even port)) rfl rfl)))
    · have hcount := congrArg (fldOf · Reg.FRAME_FRAME_STATUS_POSTED_DONE) (hport _ (postedDone_portRegs _))
      have hbefore := counted_f (s.upTo t) ((s.upTo t).arriving port 2 tag addr.toNat count false data)
        (fl := Reg.FRAME_FRAME_STATUS_POSTED_DONE) (by decide) (by decide) (.inr rfl)
      exact (ended_f s _ _ _).trans (hdone.trans (by rw [f_word, hcount, ← f_word, hbefore, upTo_f]; rfl))
  · intro t port tag addr count s happ ha hc hq
    obtain ⟨u, hu, hup, hlanes⟩ := txn_read rfl happ rfl hc ha
    obtain ⟨hans, -⟩ := complete_answers _ hup (.inl rfl)
    refine ⟨_, hu.trans (done_eq s _), hans.trans ?_⟩
    rw [hlanes, readFirst_alone (hq.imp (congrArg (· % 2)) (offPage_counted _ _).hostCycle.trans), ← hc]
    rfl
  · intro t port tag addr count e s happ ha hc hp hk
    obtain ⟨u, hu, hup, hlanes⟩ := txn_read rfl happ rfl hc ha
    obtain ⟨hans, -⟩ := complete_answers _ hup (.inl rfl)
    refine ⟨_, hu.trans (done_eq s _), hans.trans ?_⟩
    have hsame := (offPage_counted (s.upTo t) ((s.upTo t).arriving port 0 tag addr.toNat count false [])).sameCycle
    rw [hlanes, readFirst_old (e := e) (congrArg (· % 2) hp) ha (leBytes_length 4 _) fun k => by rw [hsame, hsame]; exact hk k, ← hc]
    rfl

end Sys2Proof.Proofs
end
section
/-! PROOFS. FrameInstants fails at the exchange cut. Where F_k lies between 1,999 and 2,001 the cut itself tells whether a slot has finished (R233), and
the result of one that has lands there: the command that becomes final is the one then computed, not the one the state held before the cut. -/

namespace Sys2Proof.Proofs

open Sys2Proof.Machine

/-- ENGINE_0 is ON, and so is AXIS_5, which its slot map puts in slot 5 from reset on; every other page is OFF. The slot ends at cycle 2,000 of engine
frame 3, which the cut of frame 3 ends; the axis's latest command is 9. -/
def slotAtCut : State :=
  let s := { State.reset with time := { running := true }, pwr := { sysOn := true } }.setF Pg.PWR Reg.PWR_DOMAIN_STATUS_ON (2 ^ 4)
  let s := (s.setF (Pg.ENGINE 0) Reg.STATE_STATE stOn).setF (Pg.AXIS 5) Reg.STATE_STATE stOn
  s.setAxis 5 fun x => { x with cmd := 9, atCut := some (3, 2000) }

/-- No brush has a sheet, and no slot has been found to overrun or to fault: the cut is one that the statement speaks of. -/
theorem slotAtCut_meets : slotAtCut.live (cutOf 3) ∧ slotAtCut.domOn 4 = true ∧
    (∀ b : Fin 16, (slotAtCut.isOn (Pg.BRUSH b) = true ∨ slotAtCut.st (Pg.BRUSH b) = stStarting) →
      slotAtCut.brushes[b].force = none ∧ slotAtCut.brushes[b].queue = [] ∧ slotAtCut.brushes[b].past = []) ∧
    ∀ a : Fin 64, slotAtCut.axes[a].overran = false ∧ slotAtCut.axes[a].fe = none ∧ slotAtCut.axes[a].pend = 0 := by
  decide +kernel

/-- The final command of AXIS_5 in a next state. -/
def finalAfter : Host.Outcome State Fault Refusal → Option Int
  | .next u => some u.axes[5].final
  | .fault _ => none
  | .refused _ => none

/-- The engine frame has 2,000 cycles, so the slot has finished in time and its axis is computed at the cut: with every gain 0 the command is 0. -/
theorem exchangeCut_slotAtCut : finalAfter (exec (.exchangeCut 3) slotAtCut) = some 0 := by
  decide +kernel

end Sys2Proof.Proofs

namespace Sys2Proof.Proofs

open Sys2Proof.Machine

/-- Refutes O50: at the cut of frame 3 AXIS_5 of `slotAtCut` has command 9, and 0 becomes final. -/
theorem not_frameInstants : ¬ Obligations.FrameInstants := by
  unfold Obligations.FrameInstants
  rintro ⟨-, -, -, -, -, hcut, -⟩
  obtain ⟨hlive, hdom, hbrushes, haxes⟩ := slotAtCut_meets
  obtain ⟨u, hu, hfinal⟩ := hcut 3 slotAtCut hlive hbrushes hdom haxes
  have hnine : u.axes[5].final = 9 := (hfinal 5).1
  have hzero := exchangeCut_slotAtCut
  rw [hu] at hzero
  simp [finalAfter, hnine] at hzero

end Sys2Proof.Proofs
end
section
/-! PROOFS. Host errors: which commands can stop at all (R44), and the accesses that do. -/

namespace Sys2Proof.Proofs

open Sys2Proof.Machine Sys2Proof.Laws

/-! ### Commands that cannot stop -/

theorem done_ne_fault (s u : State) (f : Fault) : done s u ≠ .fault f := fun h => nomatch h

/-- Settles O3: the meaning of every command outside `Instr.mayStop` is `done` of one effect, whatever its operands. -/
theorem onlyHostErrorsStop : Obligations.OnlyHostErrorsStop := by
  unfold Obligations.OnlyHostErrorsStop
  intro c s f h
  cases c with
  | blockSequenceEnd | blockTransitCycleEnd | fenceComplete | cplSend | frameReceive | idleSend | laneActivity | cdrLock | frameLock
  | capSend | capReceive | bringupPhaseTimeout | frameLockLoss | txTimingSwitch | stepAckDeadline | stepQuiesce | stepLaunch
  | stepRelockTimeout | missingEdge | freqWindowEnd | candidateQualified | holdLock | holdExpired | coastExitLock | fmeasDone
  | fmeasTimeout | headDnLaunch | headUpReceive | sampleADeadline | sampleBDeadline | mbxTimeout | syncReceive | dlyReqLaunch
  | dlyReqReceive | dlyRspReceive | dlyTimeout | timeFrameForward | syncLaunch | syncLoss | launch | vddAonPor | vddAonLoss | wakeEvent
  | wakeBlankEnd | pgInHigh | pgTimeout | pgInLow | primerLinkReady | linkWaitTimeout | primerDone | resetLAssert | resetLRelease
  | deviceCommandRestart | domainSwitchOnDone | domainSwitchOffDone | pfail | sysStart | gateEdge | twinUnpairedTimeout | glazeCompute
  | powerBurstStart | powerWordLatch | laserReadyChange | laserFaultChange | parkEnd | parkTimeout | encoderEdge | indexCapture
  | estimatorUpdate | targetRemove | tileClose | swatchCompare | engineFrameStart | upFrameCheck | stepperHoldEnd | csiFrameStart
  | csiFrameEnd | frameLimitExpiry | frameRecordsComplete | batchDeliver | triggerEnd | metLaunch | metReceive | eventIntake
  | eventDeliverable | evtSend | ilkDepart | ilkReturn | discTimeout | permitStart | pairFormFrame | formEchoDeadline | pairLock
  | mirrorTxnReceive | mirrorMediumLaunch | mirrorMediumReceive | digestLaunch | digestReceive | takeoverEval | lightSyncBurst | lightBurst
  | tempPoll | keepAlive | bgRowStart | bgRowDone | bankEccWriteback | dramCommandIssue | agePromotion | pageIdleClose | refreshDue
  | mr4Poll | dramEccWriteback | trainingDone | sensorRoundEnd | graceExpiry | shutdownPowerOff | flushTrigger | minGapExpiry | flushStart
  | flushDone | nvTimeout | eraseAhead | hoursTick | nvCmdDone | calDone | bistDone | timedRecordStart | clockPatternEnd
  | csiUnmatchedPacket | prbsSyncGain | prbsSyncLoss | prbsBitError | tapReset | eraseDone =>
    exact absurd h (done_ne_fault s _ f)
  | _ => rfl

/-! ### Reads and transactions -/

theorem registerReadClear_stops {t addr : Nat} {s : State} {f : Fault} (h : s.readStop addr = some f) : Stops (.registerReadClear t addr) s f := by
  have ht : (s.upTo t).readStop addr = some f := by simpa only [State.readStop, upTo_pwr, upTo_pageOn] using h
  show execRegisterReadClear t addr s = .fault f
  simp only [execRegisterReadClear, ht]

theorem applyTxn_stops {s : State} {q : Txn} {f : Fault} (h : s.txnStop q = some f) (cls : Nat)
    (k : State → List Byte → Host.Outcome State Fault Refusal) : applyTxn s q cls k = .fault f := by
  unfold applyTxn
  rw [h]

/-- R87: a READ, WRITE or WRITE_POSTED that crosses a 4 KiB boundary. -/
theorem txnStop_crosses {s : State} {q : Txn} (hop : q.op ≠ 3) (h : q.addr / 0x1000 ≠ (q.addr + q.count) / 0x1000) :
    s.txnStop q = some (.misaligned q.addr) := by
  simp only [State.txnStop, if_neg hop]
  exact if_pos h

/-- Outside lockstep, with nothing waiting on its port, a transaction that keeps the port's limits takes effect on arrival (R88, R89). -/
theorem receiveTxn_arrives {t : Nat} {s : State} {port : Fin 2} {op : Nat} {tag : BitVec 16} {addr count : Nat} {cross : Bool} {data : List Byte}
    {q : Txn} (hq : q = (s.upTo t).arriving port op tag addr count cross data) (htakes : (s.upTo t).takes q)
    (hpair : (s.upTo t).pairState ≠ pairLockstep) (hwait : (s.upTo t).waiting port = []) :
    receiveTxn t port op tag.toNat addr count cross data s =
      applyTxn ((s.upTo t).counted q) q 3 fun u d => done s (u.complete q d) := by
  obtain ⟨hup, hstep, hlim⟩ := htakes
  have hoff := offPage_counted (s.upTo t) q
  have hsys : Pg.SYS ≠ lanePage (hostLane q.port) := by have := hostPage q.port; simp only [Pg.SYS]; omega
  have hrole : ((s.upTo t).counted q).roleB = (s.upTo t).roleB := by
    simp only [State.roleB, State.fb, hoff.f hsys (fl := Reg.SYS_STRAPS) (by decide)]
  have hcounted : ((s.upTo t).counted q).waiting port = [] := by
    rw [← hwait]
    simp only [State.waiting, hrole, hoff.dip]
  have hlock : decide ((s.upTo t).pairState = pairLockstep) ≠ true := by simpa using hpair
  subst hq
  exact (if_neg (not_not.mpr hup)).trans ((if_neg (Bool.eq_false_iff.mp hstep)).trans ((if_neg (Bool.eq_false_iff.mp hlim)).trans
    ((if_neg fun h => hlock h.1).trans (if_neg fun h => h.2.elim hlock fun hw => hw hcounted))))

/-- Settles O10: each access meets the guard of its own host error before any effect. -/
theorem hostErrorStops : Obligations.HostErrorStops := by
  unfold Obligations.HostErrorStops
  refine ⟨?_, ?_, ?_, ?_, ?_, ?_, ?_⟩
  · exact fun t addr s ha => registerReadClear_stops (if_pos ha)
  · exact fun t addr s ha h4 => registerReadClear_stops ((if_neg (Nat.not_le.mpr ha)).trans (if_pos h4))
  · exact fun t addr s ha h4 hsys => registerReadClear_stops (by simp [State.readStop, Nat.not_le.mpr ha, h4, hsys])
  · exact fun t addr s ha h4 hsys hoff h0 h4' hc =>
      registerReadClear_stops (by simp [State.readStop, Nat.not_le.mpr ha, h4, hsys, hoff, servedOff, h0, h4', hc])
  · intro t port tag addr count s hup hpair hwait hstep hlim hcross
    have htakes : (s.upTo t).takes ((s.upTo t).arriving port 0 tag addr.toNat count.val false []) :=
      ⟨by rwa [upTo_laneUp], hstep, by simpa [State.arriving] using hlim⟩
    have hw : (s.upTo t).waiting port = [] := by simpa only [State.waiting, upTo_roleB, upTo_dip] using hwait
    exact (receiveTxn_arrives rfl htakes (by rwa [upTo_pairState]) hw).trans (applyTxn_stops (txnStop_crosses (Nat.zero_ne_add_one 2) hcross) _ _)
  · intro t v s hsys hv
    have hreserved : v.toNat / 2 ^ 9 ≠ 0 := by omega
    exact (if_neg (by simp [hsys])).trans (if_pos hreserved)
  · intro t key mask s hsys
    exact if_pos (by simp [hsys])

end Sys2Proof.Proofs
end
section
/-! PROOFS. What the operations on registers and events leave as it was: the registers away from those they write, the time, the power state, the
test access port and memory, and the canonical form of the tables. -/

namespace Sys2Proof.Proofs

open Sys2Proof.Machine Sys2Proof.Laws

/-! ### The relation -/

/-- `u` has the registers of `A`, the queue, the time, the power state, the test access port and the memory of `s`, and its tables are in canonical form if those
of `s` are. -/
structure Leaves (A : Nat → Prop) (s u : State) : Prop where
  pending : u.pending = s.pending
  time : u.time = s.time
  pwr : u.pwr = s.pwr
  tap : u.tap = s.tap
  mem : u.mem = s.mem
  tidy : s.Tidy → u.Tidy
  words : ∀ a, A a → u.word a = s.word a

/-- No register of `A` is EVENT or ERROR_STICKY of page `q`, or stands past its header. -/
def FreeOf (A : Nat → Prop) (q : Nat) : Prop := ∀ o, (o = 0x010 ∨ 0x020 ≤ o) ∧ o < 0x1000 → ¬ A (regAddr q o)

namespace Leaves

section
variable {A : Nat → Prop} {s u v : State}

theorem refl (s : State) : Leaves A s s := ⟨rfl, rfl, rfl, rfl, rfl, id, fun _ _ => rfl⟩

theorem trans (h : Leaves A s u) (k : Leaves A u v) : Leaves A s v where
  pending := k.pending.trans h.pending
  time := k.time.trans h.time
  pwr := k.pwr.trans h.pwr
  tap := k.tap.trans h.tap
  mem := k.mem.trans h.mem
  tidy := fun ht => k.tidy (h.tidy ht)
  words := fun a ha => (k.words a ha).trans (h.words a ha)

theorem f (h : Leaves A s u) {p : Nat} {fl : Fld} (ha : A (regAddr p fl.off)) : u.f p fl = s.f p fl := by
  simp only [State.f, h.words _ ha]

theorem ite {c : Prop} [Decidable c] (h : Leaves A s u) (k : Leaves A s v) : Leaves A s (if c then u else v) := by
  split
  · exact h
  · exact k

theorem when {g : State → State} (c : Bool) (h : Leaves A s (g s)) : Leaves A s (s.when c g) := ite h (refl s)

theorem each {α : Type} {g : State → α → State} (hg : ∀ s x, Leaves A s (g s x)) (l : List α) : ∀ s : State, Leaves A s (s.each l g) := by
  induction l with
  | nil => exact refl
  | cons x r ih => exact fun s => (hg s x).trans (ih _)

theorem setWord (s : State) {a : Nat} (v : Word) (ha : ¬ A a) : Leaves A s (s.setWord a v) where
  pending := rfl
  time := rfl
  pwr := rfl
  tap := rfl
  mem := rfl
  tidy := fun h => ⟨tabSet_wf _ _ h.1, h.2⟩
  words := fun b hb => by rw [word_setWord, if_neg fun e : b = a => ha (e ▸ hb)]

/-! The tables that hold no register. -/

theorem setActWord (s : State) (a : Nat) (v : Word) : Leaves A s (s.setActWord a v) :=
  ⟨rfl, rfl, rfl, rfl, rfl, fun ⟨h1, h2, h⟩ => ⟨h1, tabSet_wf a v h2, h⟩, fun _ _ => rfl⟩

theorem setSnapWord (s : State) (a : Nat) (v : Word) : Leaves A s (s.setSnapWord a v) :=
  ⟨rfl, rfl, rfl, rfl, rfl, fun ⟨h1, h2, h3, h⟩ => ⟨h1, h2, tabSet_wf a v h3, h⟩, fun _ _ => rfl⟩

theorem setCommitTick (s : State) (p t : Nat) : Leaves A s (s.setCommitTick p t) :=
  ⟨rfl, rfl, rfl, rfl, rfl, fun ⟨h1, h2, h3, h4, h5, h6, h⟩ => ⟨h1, h2, h3, h4, h5, tabSet_wf p t h6, h⟩, fun _ _ => rfl⟩

theorem setEntered (s : State) (p t : Nat) : Leaves A s (s.setEntered p t) :=
  ⟨rfl, rfl, rfl, rfl, rfl, fun ⟨h1, h2, h3, h4, h5, h6, h7, h8, h⟩ => ⟨h1, h2, h3, h4, h5, h6, h7, tabSet_wf p t h8, h⟩, fun _ _ => rfl⟩

theorem markEv (s : State) (src : Nat) : Leaves A s (s.markEv src) :=
  ⟨rfl, rfl, rfl, rfl, rfl, fun ⟨h1, h2, h3, h4, h5, h6, h7, h8, h9, h10⟩ => ⟨h1, h2, h3, h4, h5, h6, h7, h8, tabSet_wf src (s.now + 1) h9, h10⟩,
    fun _ _ => rfl⟩

/-! Events and flags, where `A` names neither their registers nor the count of merged offers. -/

section
variable (s : State) {p : Nat} (hm : ¬ A (regAddr Pg.EVCOL Reg.EVCOL_MERGED.off))
include hm

theorem offer_of (src stamp : Nat) : Leaves A s (s.offer src stamp) := by
  have h1 : Leaves A s { s with ev := { s.ev with offers := offerInsert src stamp s.ev.offers } } := ⟨rfl, rfl, rfl, rfl, rfl, id, fun _ _ => rfl⟩
  exact h1.trans (when _ (setWord _ _ hm))

variable (hv : ¬ A (regAddr p Reg.EVENT.off))
include hv

theorem event_of (k stamp : Nat) : Leaves A s (s.event p k stamp) := by
  have h1 : Leaves A s ((s.markEv (p * 32 + k)).setF p Reg.EVENT (putBit (s.f p Reg.EVENT) k true)) := (markEv s _).trans (setWord _ _ hv)
  exact ite (h1.trans (when _ (offer_of _ hm _ _))) (refl s)

theorem sticky_of (hs : ¬ A (regAddr p Reg.ERROR_STICKY.off)) (k stamp : Nat) : Leaves A s (s.sticky p k stamp) :=
  ite (ite (refl s) ((setWord s _ hs).trans (event_of _ hm hv _ _))) (refl s)

end

end

/-! ### Fields, events and flags -/

section
variable {A : Nat → Prop} (s : State) {p : Nat}

section
variable (hp : FreeOf A p)
include hp

theorem setF {fl : Fld} (v : Nat) (ho : (fl.off = 0x010 ∨ 0x020 ≤ fl.off) ∧ fl.off < 0x1000 := by decide) : Leaves A s (s.setF p fl v) :=
  setWord s _ (hp _ ho)

theorem setB {fl : Fld} (v : Bool) (ho : (fl.off = 0x010 ∨ 0x020 ≤ fl.off) ∧ fl.off < 0x1000 := by decide) : Leaves A s (s.setB p fl v) :=
  setF s hp _ ho

theorem inc {fl : Fld} (n : Nat) (ho : (fl.off = 0x010 ∨ 0x020 ≤ fl.off) ∧ fl.off < 0x1000 := by decide) : Leaves A s (s.inc p fl n) :=
  setF s hp _ ho

theorem setPair {lo hi : Fld} (v : Nat) (hl : (lo.off = 0x010 ∨ 0x020 ≤ lo.off) ∧ lo.off < 0x1000 := by decide)
    (hh : (hi.off = 0x010 ∨ 0x020 ≤ hi.off) ∧ hi.off < 0x1000 := by decide) : Leaves A s (s.setPair p lo hi v) :=
  (setF s hp _ hl).trans (setF _ hp _ hh)

end

variable (he : FreeOf A Pg.EVCOL) (hp : FreeOf A p)
include he hp

theorem event (k stamp : Nat) : Leaves A s (s.event p k stamp) := event_of s (he _ (by decide)) (hp _ (by decide)) k stamp

theorem sticky (k stamp : Nat) : Leaves A s (s.sticky p k stamp) :=
  sticky_of s (he _ (by decide)) (hp _ (by decide)) (hp _ (by decide)) k stamp

theorem ev! (k : Nat) : Leaves A s (s.ev! p k) := event s he hp k s.now

theorem sticky! (k : Nat) : Leaves A s (s.sticky! p k) := sticky s he hp k s.now

end

/-! ### A page that enters FAULT, and a calibration run that it ends (R36, R388) -/

section
variable {A : Nat → Prop} (he : FreeOf A Pg.EVCOL) (hc : FreeOf A Pg.CALIB) (s : State)
include he hc

theorem calAbandon (op : Nat) : Leaves A s (s.calAbandon op) := by
  have hrun : Leaves A s { s with cal := { s.cal with run := none } } := ⟨rfl, rfl, rfl, rfl, rfl, id, fun _ _ => rfl⟩
  have hfail := ((hrun.trans (setB _ hc (fl := Reg.CALIB_STATUS_BUSY) false)).trans (setF _ hc (fl := Reg.CALIB_STATUS_RESULT) 2)).trans
    (ev! _ he hc Ev.CALIB_CAL_FAIL)
  have hnv (u : State) (lo hi : Nat) : Leaves A u { u with rcd := { u.rcd with nv := tabDrop lo hi u.rcd.nv } } :=
    ⟨rfl, rfl, rfl, rfl, rfl, fun ⟨h1, h2, h3, h4, h5, h6, h7, h8, h9, h10⟩ => ⟨h1, h2, h3, h4, h5, h6, h7, h8, h9, tabDrop_wf _ _ h10⟩, fun _ _ => rfl⟩
  unfold State.calAbandon
  exact ite ((hfail.trans (hnv _ _ _)).trans (sticky! _ he hc _)) hfail

theorem calWatch : Leaves A s s.calWatch := by
  unfold State.calWatch
  split
  · exact ite (refl s) (calAbandon he hc s _)
  · exact refl s

variable {p : Nat} (hp : FreeOf A p) (hst : ¬ A (regAddr p Reg.STATE_STATE.off))
include hp hst

omit he hc hp in
theorem refreshEn : Leaves A s (s.refreshEn p) := setWord s _ hst

theorem setState (v stamp : Nat) : Leaves A s (s.setState p v stamp) := by
  have he' (u : State) (k : Nat) : Leaves A u (u.event p k stamp) := event u he hp k stamp
  have hv : Leaves A s (s.setF p Reg.STATE_STATE v) := setWord s _ hst
  have h2 := ((hv.trans (setEntered _ p stamp)).trans (refreshEn _ hst)).trans (he' _ Ev.STATE_CHANGE)
  exact ite (refreshEn s hst) ((ite (h2.trans (he' _ _)) h2).trans (calWatch he hc _))

omit he hc hp hst in
theorem exposeAt (p : Nat) : Leaves A s (s.exposeAt p) := by
  have h (b : Fin 16) : Leaves A s (s.expose b) := by
    unfold State.expose
    split <;> exact ⟨rfl, rfl, rfl, rfl, rfl, id, fun _ _ => rfl⟩
  unfold State.exposeAt
  split
  · exact h _
  · exact h _
  · exact refl s

theorem enter (v stamp : Nat) : Leaves A s (s.enter p v stamp) := (setState he hc s hp hst v stamp).trans (exposeAt _ p)

theorem blockFault (stamp : Nat) : Leaves A s (s.blockFault p stamp) := ite (enter he hc s hp hst _ _) (refl s)

end

/-! ### What is due on a light port (R331) -/

section
variable {A : Nat → Prop} (s : State) (n : Fin 4)

theorem setLight (g : LtPort → LtPort) : Leaves A s (s.setLight n g) := ⟨rfl, rfl, rfl, rfl, rfl, id, fun _ _ => rfl⟩

theorem backAt (a : Nat) {g : State → State} (h : Leaves A { s with time := { s.time with now := a } } (g { s with time := { s.time with now := a } })) :
    Leaves A s (s.backAt a g) := ⟨h.pending, rfl, h.pwr, h.tap, h.mem, h.tidy, h.words⟩

variable (hp : FreeOf A (Pg.LTPORT n))
include hp

theorem lightShow : Leaves A s (s.lightShow n) := by
  have hs (u : State) (fl : Fld) (v : Nat) (ho : (fl.off = 0x010 ∨ 0x020 ≤ fl.off) ∧ fl.off < 0x1000) : Leaves A u (u.setF (Pg.LTPORT n) fl v) :=
    setF u hp v ho
  exact ((((((hs s _ _ (by decide)).trans (hs _ _ _ (by decide))).trans (hs _ _ _ (by decide))).trans (hs _ _ _ (by decide))).trans
    (hs _ _ _ (by decide))).trans (hs _ _ _ (by decide))).trans (hs _ _ _ (by decide))

theorem lightOff : Leaves A s (s.lightOff n) := (setLight s n _).trans (lightShow _ n hp)

theorem popResp : Leaves A s (s.popResp n) := (setLight s n _).trans (lightShow _ n hp)

variable (he : FreeOf A Pg.EVCOL) (hc : FreeOf A Pg.CALIB)
include he

theorem hostAnswer (r0 r1 : Nat) : Leaves A s (s.hostAnswer n r0 r1) :=
  ite (inc s hp _) (((setLight s n _).trans (lightShow _ n hp)).trans (ev! _ he hp _))

/-- The answer of a poll writes past the header of the port's page; how far depends on the driver's number. -/
theorem pollAnswer (ht : ∀ o, 0x080 ≤ o → ¬ A (regAddr (Pg.LTPORT n) o)) (k r1 : Nat) : Leaves A s (s.pollAnswer n k r1) := by
  have hoff : 0x080 ≤ (if k % 2 = 0 then Reg.LTPORT_TEMP_TEMP_EVEN else Reg.LTPORT_TEMP_TEMP_ODD).off + k / 2 * 4 := by
    split <;> exact Nat.le_add_right _ _
  have h1 (w : Word) (g : LtPort → LtPort) := (setWord s w (ht _ hoff)).trans (setLight _ n g)
  exact ite ((h1 _ _).trans (sticky! _ he hp _)) (h1 _ _)

/-- A fault of the port leaves STATE as it was only where the port is OFF: then there is none. -/
def OffIn (A : Nat → Prop) (p : Nat) (s : State) : Prop := A (regAddr p Reg.STATE_STATE.off) → s.f p Reg.STATE_STATE = stOff

omit hp he in
theorem offIn {s u : State} {p : Nat} (h : Leaves A s u) (hs : OffIn A p s) : OffIn A p u := fun ha => (h.f ha).trans (hs ha)

include hc

theorem lightFault (hs : OffIn A (Pg.LTPORT n) s) : Leaves A s (s.lightFault n) := by
  simp only [State.lightFault]
  split
  · next h =>
    have hst : ¬ A (regAddr (Pg.LTPORT n) Reg.STATE_STATE.off) := fun ha => by
      have hoff := hs ha
      simp [State.st, hoff] at h
    exact (blockFault he hc s hp hst _).trans (lightOff _ n hp)
  · exact refl s

theorem ringCheck (ok : Bool) (hs : OffIn A (Pg.LTPORT n) s) : Leaves A s (s.ringCheck n ok) := by
  have h1 := (((inc s hp (fl := Reg.LTPORT_RING_ERRORS) 1).trans (sticky! _ he hp Sticky.LTPORT_RING_ERR)).trans
    (ev! _ he hp Ev.LTPORT_RING_ERR)).trans (setLight _ n fun x => { x with fails := x.fails + 1 })
  exact ite (setLight s n _) (ite (h1.trans (lightFault _ n hp he hc (h1.offIn hs))) h1)

theorem idAnswer (k : Nat) (valid : Bool) (r0 r1 : Nat) (hs : OffIn A (Pg.LTPORT n) s) : Leaves A s (s.idAnswer n k valid r0 r1) := by
  have h1 (g : LtPort → LtPort) := (setLight s n g).trans (sticky! _ he hp Sticky.LTPORT_CHAIN)
  exact ite ((h1 _).trans (lightFault _ n hp he hc ((h1 _).offIn hs))) (setLight s n _)

variable (ht : ∀ o, 0x080 ≤ o → ¬ A (regAddr (Pg.LTPORT n) o))
include ht

theorem takeReturn (b : LtBack) (hs : OffIn A (Pg.LTPORT n) s) : Leaves A s (s.takeReturn n b) := by
  have hring {u : State} (h : Leaves A s u) (ok : Bool) : Leaves A s (u.ringCheck n ok) := h.trans (ringCheck _ n hp he hc _ (h.offIn hs))
  simp only [State.takeReturn]
  refine hring ?_ _
  split
  · exact idAnswer s n hp he hc _ _ _ _ hs
  · exact ite (pollAnswer s n hp he ht _ _) (refl s)
  · exact ite (hostAnswer s n hp he _ _) (refl s)
  · exact refl s

theorem lightReturn (hs : OffIn A (Pg.LTPORT n) s) : Leaves A s (s.lightReturn n) := by
  unfold State.lightReturn
  split
  · exact refl s
  · next b hb =>
    have hsync (e : Nat) : Leaves A s (s.backAt e fun s => s.ev! (Pg.LTPORT n) Ev.LTPORT_SYNC_DONE) := backAt s e (ev! _ he hp _)
    have htake {u : State} (h : Leaves A s u) : Leaves A s (u.backAt b.lastEdge fun s => s.takeReturn n b) :=
      h.trans (backAt u b.lastEdge (takeReturn _ n hp he hc ht b (h.offIn hs)))
    have h1 : Leaves A s (if b.kind = .sync ∧ s.past (wrapU 64 ((b.lastEdge : Int) - 256)) then
        (s.backAt (wrapU 64 ((b.lastEdge : Int) - 256)) fun s => s.ev! (Pg.LTPORT n) Ev.LTPORT_SYNC_DONE).setLight n fun x =>
          { x with back := some { b with kind := .plain } }
      else s) := ite ((hsync _).trans (setLight _ n _)) (refl s)
    exact ite (htake (h1.trans (setLight _ n _))) h1

end

/-! ### What is due on a RASTER page (R208) -/

section
variable {A : Nat → Prop} (s : State) (b : Fin 16)

theorem setRaster (g : Raster → Raster) : Leaves A s (s.setRaster b g) := ⟨rfl, rfl, rfl, rfl, rfl, id, fun _ _ => rfl⟩

theorem feedRect (a tile line col stamp : Nat) (rec : List Byte) (k : Fin 8) : Leaves A s (s.feedRect b a tile line col stamp rec k) :=
  ite (ite (setRaster s b _) (setRaster s b _)) (refl s)

variable (hp : FreeOf A (Pg.RASTER b)) (he : FreeOf A Pg.EVCOL)
include hp he

theorem exposePixel (c : RCur) (j : Nat) : Leaves A s (s.exposePixel b c j) := by
  have h1 : Leaves A s (s.incPair (Pg.RASTER b) Reg.RASTER_PIXELS_LO Reg.RASTER_PIXELS_HI 1) := setPair s hp _
  exact (ite ((h1.trans (inc _ hp _)).trans (sticky _ he hp _ _)) h1).trans (each (fun u k => feedRect u b _ _ _ _ _ _ _) _ _)

theorem rasterDue : Leaves A s (s.rasterDue b) := by
  simp only [State.rasterDue, State.takePixels]
  split
  · exact (setRaster s b _).trans (each (fun u j => ite (refl u) (ite (exposePixel u b hp he _ j) (setRaster u b _))) _ _)
  · exact refl s

end

end Leaves

/-! ### What is due on a page -/

/-- The registers that taking what is due on page `p` leaves as they were: those of the pages below the RASTER pages, but for EVCOL and CALIB, and
CTRL, EVENT_MASK and COMMIT of the page itself. -/
def dueKept (p a : Nat) : Prop :=
  (a / 0x1000 < 0x40 ∧ a / 0x1000 ≠ Pg.EVCOL ∧ a / 0x1000 ≠ Pg.CALIB) ∨ a = regAddr p 0x008 ∨ a = regAddr p 0x014 ∨ a = regAddr p 0x01C

/-- A page lies within the run of pages of its block (R28). -/
theorem pageBlk_range {p : Nat} {b : Blk} (h : pageBlk p = some b) : (blkInfo b).first ≤ p ∧ p < (blkInfo b).first + (blkInfo b).count := by
  unfold pageBlk at h
  exact of_decide_eq_true (List.find?_some h :)

theorem pageBlk_ltport {p : Nat} (h : pageBlk p = some .ltport) : p = Pg.LTPORT (lightOf p) := by
  have hr : 0x7C ≤ p ∧ p < 0x7C + 4 := pageBlk_range h
  simp only [Pg.LTPORT, lightOf, inst]
  omega

theorem pageBlk_raster {p : Nat} (h : pageBlk p = some .raster) : p = Pg.RASTER (rasterOf p) := by
  have hr : 0x40 ≤ p ∧ p < 0x40 + 16 := pageBlk_range h
  simp only [Pg.RASTER, rasterOf, inst]
  omega

/-- What is due on page `p` writes that page past its header, its EVENT and ERROR_STICKY, STATE where the page faults, and pages EVCOL and CALIB. -/
theorem Leaves.pageDue {A : Nat → Prop} (s : State) (p : Nat) (hp : FreeOf A p) (he : FreeOf A Pg.EVCOL) (hc : FreeOf A Pg.CALIB)
    (hs : OffIn A p s) (ht : 0x40 ≤ p → ∀ o, 0x080 ≤ o → ¬ A (regAddr p o)) : Leaves A s (s.pageDue p) := by
  unfold State.pageDue
  split
  · next h =>
    have hn := pageBlk_ltport h
    generalize lightOf p = n at hn ⊢
    subst hn
    exact lightReturn s n hp he hc (ht (by simp only [Pg.LTPORT]; omega)) hs
  · next h =>
    have hn := pageBlk_raster h
    generalize rasterOf p = n at hn ⊢
    subst hn
    exact rasterDue s n hp he
  · exact refl s

theorem pageDue_leaves (s : State) {p : Nat} (hp : 0x40 ≤ p) : Leaves (dueKept p) s (s.pageDue p) := by
  have hfree {q : Nat} (hq : q = p ∨ q = Pg.EVCOL ∨ q = Pg.CALIB) : FreeOf (dueKept p) q := by
    intro o ho
    simp only [dueKept, regAddr, Pg.EVCOL, Pg.CALIB] at *
    omega
  refine Leaves.pageDue s p (hfree (.inl rfl)) (hfree (.inr (.inl rfl))) (hfree (.inr (.inr rfl))) (fun ha => ?_) fun _ o ho => ?_
  · simp only [dueKept, regAddr, Reg.STATE_STATE] at ha
    omega
  · simp only [dueKept, regAddr]
    omega

/-- What is due moves no page that is OFF (R36). -/
theorem pageDue_off {s : State} {p : Nat} (h : s.f p Reg.STATE_STATE = stOff) : (s.pageDue p).f p Reg.STATE_STATE = stOff := by
  have hfree (q : Nat) : FreeOf (· = regAddr p Reg.STATE_STATE.off) q := by
    intro o ho
    simp only [regAddr, Reg.STATE_STATE]
    omega
  refine ((Leaves.pageDue s p (hfree _) (hfree _) (hfree _) (fun _ => h) fun _ o ho => ?_).f rfl).trans h
  simp only [regAddr, Reg.STATE_STATE]
  omega

/-- Below the RASTER pages nothing is due. -/
theorem pageDue_low (s : State) {p : Nat} (hp : p < 0x40) : s.pageDue p = s := by
  refine pageDue_other s p (fun h => ?_) fun h => ?_
  · exact absurd (show 0x7C ≤ p ∧ p < 0x7C + 4 from pageBlk_range h) (by omega)
  · exact absurd (show 0x40 ≤ p ∧ p < 0x40 + 16 from pageBlk_range h) (by omega)

/-- Taking what is due on page `p` leaves the registers of `dueKept`. -/
theorem pageDue_kept (s : State) (p : Nat) : Leaves (dueKept p) s (s.pageDue p) := by
  rcases Nat.lt_or_ge p 0x40 with hp | hp
  · rw [pageDue_low s hp]
    exact Leaves.refl s
  · exact pageDue_leaves s hp

section
variable (s : State) (p : Nat)

@[simp] theorem pageDue_time : (s.pageDue p).time = s.time := (pageDue_kept s p).time
@[simp] theorem pageDue_now : (s.pageDue p).now = s.now := congrArg TimeSt.now (pageDue_time s p)
@[simp] theorem pageDue_pwr : (s.pageDue p).pwr = s.pwr := (pageDue_kept s p).pwr
@[simp] theorem pageDue_tap : (s.pageDue p).tap = s.tap := (pageDue_kept s p).tap
@[simp] theorem pageDue_mem : (s.pageDue p).mem = s.mem := (pageDue_kept s p).mem

theorem pageDue_tidy {s : State} (p : Nat) (h : s.Tidy) : (s.pageDue p).Tidy := (pageDue_kept s p).tidy h

@[simp] theorem pageDue_domOn (d : Nat) : (s.pageDue p).domOn d = s.domOn d := by
  have h : dueKept p (regAddr Pg.PWR Reg.PWR_DOMAIN_STATUS_ON.off) := .inl (by decide)
  simp only [State.domOn, (pageDue_kept s p).f h, pageDue_pwr]

@[simp] theorem pageDue_pageOn (q : Nat) : (s.pageDue p).pageOn q = s.pageOn q := pageDue_domOn s p _

end

/-! ### Bits -/

theorem testBit_add_two_pow {n k : Nat} (h : n.testBit k = false) (j : Nat) : (n + 2 ^ k).testBit j = (decide (j = k) || n.testBit j) := by
  rw [Nat.add_comm]
  rcases Nat.lt_trichotomy j k with hj | rfl | hj
  · rw [Nat.testBit_two_pow_add_gt hj]
    simp [Nat.ne_of_lt hj]
  · simp [Nat.testBit_two_pow_add_eq, h]
  · have hk : n / 2 ^ k % 2 = 0 := by simpa [Nat.testBit_eq_decide_div_mod_eq] using h
    have hdiv (m : Nat) : m / 2 ^ j = m / 2 ^ k / 2 / 2 ^ (j - k - 1) := by
      rw [Nat.div_div_eq_div_mul, Nat.div_div_eq_div_mul, ← pow_succ', ← pow_add]
      congr 2
      omega
    have hsum : (2 ^ k + n) / 2 ^ k / 2 = n / 2 ^ k / 2 := by
      rw [Nat.add_div_left _ (Nat.two_pow_pos k)]
      omega
    rw [Nat.testBit_eq_decide_div_mod_eq, Nat.testBit_eq_decide_div_mod_eq, hdiv, hdiv, hsum]
    simp [Nat.ne_of_gt hj]

theorem testBit_putBit (n k : Nat) (v : Bool) (j : Nat) : (putBit n k v).testBit j = if j = k then v else n.testBit j := by
  unfold putBit
  cases hn : n.testBit k <;> cases v <;> simp only [Bool.false_eq_true, if_true, if_false]
  · split
    · next h => rw [h, hn]
    · rfl
  · rw [testBit_add_two_pow hn]
    by_cases h : j = k <;> simp [h]
  · have hle : 2 ^ k ≤ n := Nat.ge_two_pow_of_testBit hn
    have hm : (n - 2 ^ k).testBit k = false := by
      have := Nat.testBit_two_pow_add_eq (n - 2 ^ k) k
      rw [Nat.add_sub_cancel' hle, hn] at this
      simpa using this.symm
    have h := testBit_add_two_pow hm j
    rw [Nat.sub_add_cancel hle] at h
    rw [h]
    split
    · next e => rw [e, hm]
    · next e => simp [e]
  · split
    · next h => rw [h, hn]
    · rfl

/-- Clearing the bits of a list that meet a condition. -/
theorem testBit_clearBits (c : Nat → Bool) (l : List Nat) (j : Nat) : ∀ m : Nat,
    (l.foldl (fun m k => if c k then putBit m k false else m) m).testBit j = (m.testBit j && !(l.contains j && c j)) := by
  induction l with
  | nil => simp
  | cons k r ih =>
    intro m
    rw [List.foldl_cons, ih]
    by_cases hjk : j = k
    · subst hjk
      cases c j <;> simp [testBit_putBit]
    · have hone : (if c k then putBit m k false else m).testBit j = m.testBit j := by
        split
        · rw [testBit_putBit, if_neg hjk]
        · rfl
      simp [hone, hjk]

end Sys2Proof.Proofs
end
section
/-! PROOFS. EVENT written and forced (R43). -/

namespace Sys2Proof.Proofs

open Sys2Proof.Machine Sys2Proof.Laws

/-! ### EVENT cleared -/

/-- R43: a write to EVENT clears the bits it holds as 1, but for those of sources asserted in the same cycle of the block's clock. -/
theorem testBit_eventClear (s : State) (p bits : Nat) {k : Nat} (hk : k < 32) : ((s.eventClear p bits).f p Reg.EVENT).testBit k =
    ((s.f p Reg.EVENT).testBit k && !(decide (k < eventCount p) && bits.testBit k && !(tabGet zeroNat s.lastEv (p * 32 + k) != 0 &&
      decide ((tabGet zeroNat s.lastEv (p * 32 + k) - 1) / pagePeriod p = s.now / pagePeriod p)))) := by
  have hw : Reg.EVENT.width = 32 := rfl
  unfold State.eventClear
  rw [f_setF_same _ _ _ _ (by decide), hw, Nat.testBit_mod_two_pow, testBit_clearBits]
  simp [hk, Bool.and_assoc]

/-! ### EVENT forced -/

theorem event_pageOn (s : State) (p k stamp q : Nat) : (s.event p k stamp).pageOn q = s.pageOn q := by
  have hon : (s.event p k stamp).f Pg.PWR Reg.PWR_DOMAIN_STATUS_ON = s.f Pg.PWR Reg.PWR_DOMAIN_STATUS_ON :=
    f_event _ _ _ _ _ _ (by decide) (.inr (by decide)) (.inl (by decide))
  simp only [State.pageOn, State.domOn, event_pwr, hon]

/-- An asserted event shows in EVENT of its page, also on EVCOL, whose MERGED count the offer may raise (R42). -/
theorem testBit_event (s : State) {p k : Nat} (stamp : Nat) {j : Nat} (hp : s.pageOn p = true) (hk : k < eventCount p) (hj : j < 32) :
    ((s.event p k stamp).f p Reg.EVENT).testBit j = (decide (j = k) || (s.f p Reg.EVENT).testBit j) := by
  have hoff (u : State) (src : Nat) : (u.offer src stamp).f p Reg.EVENT = u.f p Reg.EVENT := by
    rw [f_word, f_word, word_offer]
    exact (not_congr (regAddr_inj (by decide) (by decide))).mpr fun h => absurd h.2 (by decide)
  have hf : (s.event p k stamp).f p Reg.EVENT = putBit (s.f p Reg.EVENT) k true % 2 ^ 32 := by
    unfold State.event
    rw [if_pos ⟨hp, hk⟩, when_inv (·.f p Reg.EVENT) _ _ _ fun u => hoff u _]
    exact f_setF_same _ p Reg.EVENT _ (by decide)
  rw [hf, Nat.testBit_mod_two_pow, testBit_putBit]
  by_cases h : j = k <;> simp [h, hj]
  omega

theorem testBit_events {p j : Nat} (hj : j < 32) (l : List Nat) : ∀ s : State, s.pageOn p = true → (∀ k ∈ l, k < eventCount p) →
    ((s.each l fun s k => s.ev! p k).f p Reg.EVENT).testBit j = (l.contains j || (s.f p Reg.EVENT).testBit j) := by
  induction l with
  | nil => simp
  | cons k r ih =>
    intro s hp hl
    have hone := testBit_event s (k := k) s.now hp (hl k List.mem_cons_self) hj
    have hon : (s.ev! p k).pageOn p = true := (event_pageOn s p k s.now p).trans hp
    rw [each_cons, ih _ hon fun x hx => hl x (List.mem_cons_of_mem k hx), State.ev!, hone]
    rw [List.contains_cons, show (j == k) = decide (j = k) from rfl, Bool.or_left_comm, Bool.or_assoc]

/-- Settles O26: EVENT_CLEAR by what the write keeps of each bit, EVENT_FORCE by asserting the sources it names one after another. -/
theorem eventRegisters : Obligations.EventRegisters := by
  unfold Obligations.EventRegisters
  have hon {t : Nat} {p : Fin 256} {s : State} (h : s.pageOn p.val = true) : ((s.upTo t).pageDue p.val).pageOn p.val = true := by simpa using h
  have hblk {p : Fin 256} {bits : Word} (h : (pageBlk p.val).isSome = true) : ¬ ((pageBlk p.val).isNone = true ∧ bits ≠ 0#32) := by
    simp [Option.isSome_iff_ne_none.mp h]
  refine ⟨?_, ?_⟩
  · intro t p bits s hb hp
    refine ⟨_, (if_neg (hblk hb)).trans (if_neg (not_not.mpr (hon hp))), fun k => ?_⟩
    show ((ended s _).f p.val Reg.EVENT).testBit k.val = _
    rw [ended_f, testBit_eventClear _ _ _ k.isLt, pageDue_now]
  · intro t p bits s hb hp
    have hset (k : Fin 32) := testBit_events k.isLt ((List.range (eventCount p.val)).filter fun k => bits.toNat.testBit k) _ (hon (t := t) hp)
      fun x hx => List.mem_range.mp (List.mem_filter.mp hx).1
    refine ⟨_, (if_neg (hblk hb)).trans (if_neg (not_not.mpr (hon hp))), fun k hk hbit => ?_, fun k hbit => ?_⟩
    all_goals
      show ((ended s _).f p.val Reg.EVENT).testBit k.val = _
      rw [ended_f, hset]
    · simp [hk, hbit]
    · simp [hbit]

end Sys2Proof.Proofs
end
section
/-! PROOFS. What the commands of the knife, a page header, the head links and the pair leave unchanged, field by field. -/

namespace Sys2Proof.Proofs

open Sys2Proof.Machine Sys2Proof.Laws

/-! ### The end of a command in a tidy state -/

/-- A tidy state ends a command as it is. -/
theorem ended_of_tidy {s x : State} (ht : x.Tidy) (hp : x.pending = s.pending) : ended s x = x := by
  obtain ⟨h1, h2, h3, h4, h5, h6, h7, h8, h9, h10⟩ := ht
  unfold ended State.canon
  rw [tabNorm_eq h1, tabNorm_eq h2, tabNorm_eq h3, tabNorm_eq h4, tabNorm_eq h5, tabNorm_eq h6, tabNorm_eq h7, tabNorm_eq h8, tabNorm_eq h9,
    tabNorm_eq h10, ← hp]

/-- The run of time changes the tick, the accumulator and the count of cycles. -/
theorem upTo_eq (s : State) (t : Nat) : s.upTo t = { s with time := { s.time with
    now := (s.upTo t).time.now, acc := (s.upTo t).time.acc, cycles := (s.upTo t).time.cycles } } := by
  unfold State.upTo
  split <;> rfl

theorem upTo_tidy {s : State} (t : Nat) (h : s.Tidy) : (s.upTo t).Tidy := by rwa [upTo_eq]

/-! ### Shapes -/

/-- `s` with the time as in `u`. -/
def timed (s u : State) : State := { s with time := { s.time with now := u.time.now, acc := u.time.acc, cycles := u.time.cycles } }

/-- `s` with the registers and with what an event notes as in `u`. -/
def marked (s u : State) : State := { s with regs := u.regs, lastEv := u.lastEv, ev := { s.ev with offers := u.ev.offers } }

/-- `φ s u` is `s` with some parts, the time among them, taken from `u`. -/
structure Shape (φ : State → State → State) : Prop where
  compose : ∀ s u v, φ (φ s u) v = φ s v
  timed : ∀ s u, φ s (timed s u) = timed s u

/-- The registers and what an event notes are among the parts that `φ` takes from its second state. -/
def Marks (φ : State → State → State) : Prop := ∀ s u, φ s (marked s u) = marked s u

theorem marked_offer (s : State) (src stamp : Nat) : s.offer src stamp = marked s (s.offer src stamp) := by
  unfold State.offer
  generalize (_ && _ : Bool) = c
  cases c <;> rfl

theorem marked_event (s : State) (p k stamp : Nat) : s.event p k stamp = marked s (s.event p k stamp) := by
  unfold State.event
  split
  · generalize (s.f p Reg.EVENT_MASK).testBit k = c
    cases c
    · rfl
    · exact marked_offer _ _ _
  · rfl

/-- `u` is `s` but for the parts that `φ` takes from `u`, and has the registers of `s` away from `l`. -/
structure Framed (φ : State → State → State) (l : List Nat) (s u : State) : Prop where
  leaves : Leaves (· ∉ l) s u
  shape : u = φ s u

namespace Framed

section
variable {φ : State → State → State} (hφ : Shape φ) {l : List Nat} {s u v : State}

theorem ite {c : Prop} [Decidable c] (h : Framed φ l s u) (k : Framed φ l s v) : Framed φ l s (if c then u else v) := by
  split
  · exact h
  · exact k

theorem regsBut {t : Nat} (h : Framed φ l (s.upTo t) u) : RegsBut l s u := fun a ha => (h.leaves.words a ha).trans (upTo_word s t a)

include hφ

theorem refl (s : State) : Framed φ l s s := ⟨.refl s, (hφ.timed s s).symm⟩

theorem trans (h : Framed φ l s u) (k : Framed φ l u v) : Framed φ l s v :=
  ⟨h.leaves.trans k.leaves, k.shape.trans ((congrArg (φ · v) h.shape).trans (hφ.compose s u v))⟩

theorem each {α : Type} {g : State → α → State} (hg : ∀ s x, Framed φ l s (g s x)) (r : List α) : ∀ s : State, Framed φ l s (s.each r g) := by
  induction r with
  | nil => exact refl hφ
  | cons x r ih => exact fun s => trans hφ (hg s x) (ih _)

/-- The shape of an effect that takes place at tick `t`. -/
theorem shapeFrom {t : Nat} (h : Framed φ l (s.upTo t) u) : u = φ s u := by
  have ht : s.upTo t = φ s (s.upTo t) := by rw [upTo_eq]; exact (hφ.timed s (s.upTo t)).symm
  exact h.shape.trans ((congrArg (φ · u) ht).trans (hφ.compose s _ u))

variable (hm : Marks φ) (s) (p : Nat)
include hm

omit hφ in
theorem setF {fl : Fld} (v : Nat) (h : regAddr p fl.off ∈ l) : Framed φ l s (s.setF p fl v) :=
  ⟨.setWord s _ (not_not.mpr h), (hm s (s.setF p fl v)).symm⟩

omit hφ in
theorem event_of {p : Nat} (hv : regAddr p Reg.EVENT.off ∈ l) (hg : regAddr Pg.EVCOL Reg.EVCOL_MERGED.off ∈ l) (k stamp : Nat) :
    Framed φ l s (s.event p k stamp) := by
  refine ⟨Leaves.event_of s (not_not.mpr hg) (not_not.mpr hv) k stamp, ?_⟩
  rw [marked_event]
  exact (hm s _).symm

variable {p} (hn : noted p ⊆ l)
include hn

omit hφ in
theorem event (k stamp : Nat) : Framed φ l s (s.event p k stamp) := by
  exact event_of s hm (hn (.head _)) (hn (.tail _ (.tail _ (.head _)))) k stamp

theorem sticky (k stamp : Nat) : Framed φ l s (s.sticky p k stamp) :=
  have hs : regAddr p Reg.ERROR_STICKY.off ∈ l := hn (.tail _ (.head _))
  ite (ite (refl hφ s) (trans hφ (setF s hm p _ hs) (event _ hm hn _ _))) (refl hφ s)

omit hφ in
theorem ev! (k : Nat) : Framed φ l s (s.ev! p k) := event s hm hn k s.now

theorem sticky! (k : Nat) : Framed φ l s (s.sticky! p k) := sticky hφ s hm hn k s.now

end

end Framed

/-- What outcome `o` goes on from is framed. -/
def Yields (φ : State → State → State) (l : List Nat) (s : State) (o : Host.Outcome State Fault Refusal) : Prop := ∀ w, o = .next w → Framed φ l s w

namespace Yields

variable {φ : State → State → State} {l : List Nat} {s s1 x : State} {o r : Host.Outcome State Fault Refusal}

theorem fault (f : Fault) : Yields φ l s (.fault f) := fun _ h => nomatch h

/-- In a tidy state a command ends in what its effect leaves. -/
theorem done (ht : s1.Tidy) (hp : s1.pending = s.pending) (h : Framed φ l s1 x) : Yields φ l s1 (done s x) := fun w hd => by
  rwa [(done_next hd).trans (ended_of_tidy (h.leaves.tidy ht) (h.leaves.pending.trans hp))]

theorem ite {c : Prop} [Decidable c] (h : Yields φ l s o) (k : Yields φ l s r) : Yields φ l s (if c then o else r) := by
  split
  · exact h
  · exact k

theorem doneAt {t : Nat} (ht : s.Tidy) (h : Framed φ l (s.upTo t) x) : Yields φ l (s.upTo t) (Machine.done s x) :=
  done (upTo_tidy t ht) (upTo_pending s t) h

end Yields

/-! ### The knife (R305) -/

/-- What ARM_SET may change. -/
def armShape (s u : State) : State :=
  { s with
    time := { s.time with now := u.time.now, acc := u.time.acc, cycles := u.time.cycles }, regs := u.regs,
    knife := { s.knife with armAt := u.knife.armAt, permitted := u.knife.permitted }, lastEv := u.lastEv, ev := { s.ev with offers := u.ev.offers } }

theorem armShape_shape : Shape armShape := ⟨fun _ _ _ => rfl, fun _ _ => rfl⟩
theorem armShape_marks : Marks armShape := fun _ _ => rfl

/-- One brush is armed (R305). -/
theorem armed_framed {l : List Nat} (h : regAddr Pg.KNIFE Reg.KNIFE_ARM_STATE.off ∈ l) (s : State) (n : Fin 16) (v : Nat) :
    Framed armShape l s { s.setF Pg.KNIFE Reg.KNIFE_ARM_STATE v with
      knife := { s.knife with armAt := s.knife.armAt.set n (some s.now), permitted := s.knife.permitted.set n false } } :=
  have hl : Leaves (· ∉ l) s (s.setF Pg.KNIFE Reg.KNIFE_ARM_STATE v) := .setWord s _ (not_not.mpr h)
  ⟨⟨hl.pending, hl.time, hl.pwr, hl.tap, hl.mem, hl.tidy, hl.words⟩, rfl⟩

theorem knifeArmSet_yields {s : State} (ht : s.Tidy) (t key : Nat) (mask : BitVec 16) :
    Yields armShape ([regAddr Pg.KNIFE Reg.KNIFE_ARM_STATE.off] ++ noted Pg.KNIFE) (s.upTo t) (execKnifeArmSet t key mask s) := by
  have hn := List.subset_append_right [regAddr Pg.KNIFE Reg.KNIFE_ARM_STATE.off] (noted Pg.KNIFE)
  have hu (u : State) (n : Fin 16) (v : Nat) : Framed armShape ([regAddr Pg.KNIFE Reg.KNIFE_ARM_STATE.off] ++ noted Pg.KNIFE) u _ :=
    armed_framed (.head _) u n v
  exact .ite (.fault _) (.doneAt ht (.ite (.sticky! armShape_shape _ armShape_marks hn _)
    (.ite (.trans armShape_shape (.trans armShape_shape (.each armShape_shape (fun u n => .ite (.refl armShape_shape u) (hu u n _)) _ _)
      (.sticky! armShape_shape _ armShape_marks hn _)) (.ev! _ armShape_marks hn _))
      (.each armShape_shape (fun u n => .ite (.refl armShape_shape u) (hu u n _)) _ _))))

/-- What CLEAR may change. -/
def clearShape (s u : State) : State :=
  { s with
    time := { s.time with now := u.time.now, acc := u.time.acc, cycles := u.time.cycles }, regs := u.regs,
    knife := { s.knife with clears := u.knife.clears }, lastEv := u.lastEv, ev := { s.ev with offers := u.ev.offers } }

theorem clearShape_shape : Shape clearShape := ⟨fun _ _ _ => rfl, fun _ _ => rfl⟩
theorem clearShape_marks : Marks clearShape := fun _ _ => rfl

/-- The registers of the knife that a CLEAR writes. -/
def clearRegs : List Nat := [regAddr Pg.KNIFE Reg.KNIFE_TRIPPED.off, regAddr Pg.KNIFE Reg.KNIFE_CLEARS.off] ++ noted Pg.KNIFE ++
  (List.finRange 16).map fun n => regAddr Pg.KNIFE (Reg.KNIFE_CAUSE_LATCHED.num n.val).off

theorem noted_clearRegs : noted Pg.KNIFE ⊆ clearRegs := fun _ h => List.mem_append_left _ (List.mem_append_right _ h)

theorem clearBrush_framed (s : State) (n : Fin 16) : Framed clearShape clearRegs s (s.clearBrush n) := by
  have hc : regAddr Pg.KNIFE (Reg.KNIFE_CAUSE_LATCHED.num n).off ∈ clearRegs :=
    List.mem_append_right _ (List.mem_map.mpr ⟨n, List.mem_finRange n, rfl⟩)
  have hclears (v) : Framed clearShape clearRegs s { s with knife := { s.knife with clears := v } } :=
    ⟨⟨rfl, rfl, rfl, rfl, rfl, id, fun _ _ => rfl⟩, rfl⟩
  have h1 (v) (c : Nat) := Framed.trans clearShape_shape (hclears v)
    (.setF _ clearShape_marks Pg.KNIFE (fl := Reg.KNIFE_CAUSE_LATCHED.num n) c hc)
  have h2 (u : State) (v : Nat) : Framed clearShape clearRegs u (u.setF Pg.KNIFE Reg.KNIFE_TRIPPED v) :=
    .setF u clearShape_marks Pg.KNIFE v (List.mem_append_left _ (.head _))
  have h3 (u : State) (v : Nat) : Framed clearShape clearRegs u (u.setF Pg.KNIFE Reg.KNIFE_CLEARS v) :=
    .setF u clearShape_marks Pg.KNIFE v (List.mem_append_left _ (.tail _ (.head _)))
  exact .ite (.trans clearShape_shape (.trans clearShape_shape (.trans clearShape_shape (h1 _ _) (h2 _ _)) (h3 _ _))
    (.ev! _ clearShape_marks noted_clearRegs _)) (h1 _ _)

theorem knifeClear_yields {s : State} (ht : s.Tidy) (t key : Nat) (mask : BitVec 16) :
    Yields clearShape clearRegs (s.upTo t) (execKnifeClear t key mask s) := by
  have hall (u : State) (r : List (Fin 16)) : Framed clearShape clearRegs u (u.each r State.clearBrush) :=
    .each clearShape_shape clearBrush_framed r u
  exact .ite (.fault _) (.doneAt ht (.ite (.sticky! clearShape_shape _ clearShape_marks noted_clearRegs _)
    (.ite (.trans clearShape_shape (.trans clearShape_shape (hall _ _) (.sticky! clearShape_shape _ clearShape_marks noted_clearRegs _))
      (.ev! _ clearShape_marks noted_clearRegs _)) (hall _ _))))

/-! ### The header of a page (R38, R41, R43) -/

/-- What EVENT cleared may change. -/
def eventShape (s u : State) : State := { s with time := u.time, regs := u.regs }

/-- What events forced may change. -/
def forceShape (s u : State) : State := { s with time := u.time, regs := u.regs, lastEv := u.lastEv, ev := { s.ev with offers := u.ev.offers } }

/-- What COMMIT may change. -/
def commitShape (s u : State) : State := { s with time := u.time, regs := u.regs, commitAt := u.commitAt }

/-- What SNAPSHOT may change. -/
def snapShape (s u : State) : State := { s with time := u.time, snap := u.snap }

theorem forceShape_shape : Shape forceShape := ⟨fun _ _ _ => rfl, fun _ _ => rfl⟩
theorem snapShape_shape : Shape snapShape := ⟨fun _ _ _ => rfl, fun _ _ => rfl⟩

theorem snapshotTake_next {t : Nat} {p : Fin 256} {s w : State} (h : execSnapshotTake t p s = .next w) :
    w = ended s (((s.upTo t).pageDue p).takeSnapshot p) := by
  simp only [execSnapshotTake, onPage] at h
  split at h
  · cases h
  · split at h
    · cases h
    · exact done_next h

/-- SNAPSHOT latches the offsets of its page that are read through it, and no others (R41). -/
theorem takeSnapshot_snapWord {q : Nat} (u : State) (hq : q ≠ Pg.KNIFE) {a : Nat} (ha : a ∉ (snapOffs q).map (regAddr q)) :
    (u.takeSnapshot q).snapWord a = u.snapWord a := by
  have hset (l : List Nat) (hl : ∀ o ∈ l, regAddr q o ≠ a) :
      ∀ u : State, (u.each l fun u o => u.setSnapWord (regAddr q o) (u.liveWord q o)).snapWord a = u.snapWord a := by
    induction l with
    | nil => exact fun _ => rfl
    | cons o r ih =>
      intro u
      rw [each_cons, ih fun x hx => hl x (.tail _ hx), snapWord_setSnapWord, if_neg fun h => hl o (.head _) h.symm]
  simp only [State.takeSnapshot, if_neg hq]
  split
  · exact hset _ (fun o ho h => ha (List.mem_map.mpr ⟨o, ho, h⟩)) u
  · rfl

section
variable {s : State} (ht : s.Tidy) (t : Nat) (p : Fin 256)
include ht

theorem Yields.doneDue {φ : State → State → State} {l : List Nat} {x : State} (h : Framed φ l ((s.upTo t).pageDue p) x) :
    Yields φ l ((s.upTo t).pageDue p) (Machine.done s x) :=
  .done (pageDue_tidy p (upTo_tidy t ht)) ((pageDue_kept _ p).pending.trans (upTo_pending s t)) h

theorem eventClear_yields (bits : Word) :
    Yields eventShape [regAddr p Reg.EVENT.off] ((s.upTo t).pageDue p) (execEventClear t p bits s) :=
  .ite (.fault _) (.ite (.fault _) (.doneDue ht t p ⟨.setWord _ _ (not_not.mpr (.head _)), rfl⟩))

theorem eventForce_yields (bits : Word) :
    Yields forceShape [regAddr p Reg.EVENT.off, regAddr Pg.EVCOL Reg.EVCOL_MERGED.off] ((s.upTo t).pageDue p) (execEventForce t p bits s) := by
  have hev (u : State) (k : Nat) : Framed forceShape [regAddr p Reg.EVENT.off, regAddr Pg.EVCOL Reg.EVCOL_MERGED.off] u (u.ev! p k) :=
    .event_of u (fun _ _ => rfl) (.head _) (.tail _ (.head _)) _ _
  exact .ite (.fault _) (.ite (.fault _) (.doneDue ht t p (.each forceShape_shape hev _ _)))

theorem commit_yields : Yields commitShape [regAddr p Reg.COMMIT_PENDING.off] ((s.upTo t).pageDue p) (execCommit t p s) := by
  have h (u : State) : Framed commitShape [regAddr p Reg.COMMIT_PENDING.off] u (u.commit p) := by
    unfold State.commit
    split
    · exact ⟨(Leaves.setWord u _ (not_not.mpr (.head _))).trans (.setCommitTick _ p u.now), rfl⟩
    · exact ⟨.refl u, rfl⟩
  exact .ite (.fault _) (.ite (.fault _) (.doneDue ht t p (h _)))

theorem snapshotTake_yields (hp : p.val ≠ Pg.KNIFE) : Yields snapShape [] ((s.upTo t).pageDue p) (execSnapshotTake t p s) := by
  have h (u : State) : Framed snapShape [] u (u.takeSnapshot p) := by
    refine .ite ?_ (.refl snapShape_shape u)
    rw [if_neg hp]
    exact .each snapShape_shape (fun u o => ⟨.setSnapWord u _ _, rfl⟩) _ _
  exact .ite (.fault _) (.ite (.fault _) (.doneDue ht t p (h _)))

end

/-! ### The head links (R98, R99) -/

/-- What a mailbox of head `h` may change. -/
def mailShape (h : Fin 16) (s u : State) : State :=
  { s with
    time := { s.time with now := u.time.now, acc := u.time.acc, cycles := u.time.cycles }, regs := u.regs, heads := s.heads.set h u.heads[h] }

/-- What the timeout of a mailbox of head `h` may change. -/
def mailMarksShape (h : Fin 16) (s u : State) : State :=
  { s with
    time := { s.time with now := u.time.now, acc := u.time.acc, cycles := u.time.cycles }, regs := u.regs, heads := s.heads.set h u.heads[h],
    lastEv := u.lastEv, ev := { s.ev with offers := u.ev.offers } }

/-- What the count of a missing sample B may change. -/
def countShape (s u : State) : State :=
  { s with time := { s.time with now := u.time.now, acc := u.time.acc, cycles := u.time.cycles }, regs := u.regs }

theorem mailShape_shape (h : Fin 16) : Shape (mailShape h) :=
  ⟨fun s u v => by simp [mailShape], fun s u => by simp [mailShape, timed]⟩

theorem mailShape_regs (h : Fin 16) (s : State) (r : List (Nat × Word)) : mailShape h s { s with regs := r } = { s with regs := r } := by
  simp [mailShape]

theorem mailShape_heads (h : Fin 16) (s : State) (v : Vector Head 16) :
    mailShape h s { s with heads := v } = { s with heads := s.heads.set h v[h] } := rfl

theorem mailMarksShape_heads (h : Fin 16) (s : State) (v : Vector Head 16) :
    mailMarksShape h s { s with heads := v } = { s with heads := s.heads.set h v[h] } := rfl

theorem mailMarksShape_shape (h : Fin 16) : Shape (mailMarksShape h) :=
  ⟨fun s u v => by simp [mailMarksShape], fun s u => by simp [mailMarksShape, timed]⟩

theorem mailMarksShape_marks (h : Fin 16) : Marks (mailMarksShape h) := fun s u => by simp [mailMarksShape, marked]

theorem countShape_shape : Shape countShape := ⟨fun _ _ _ => rfl, fun _ _ => rfl⟩

theorem setHead_leaves {A : Nat → Prop} (s : State) (h : Fin 16) (g : Head → Head) : Leaves A s (s.setHead h g) :=
  ⟨rfl, rfl, rfl, rfl, rfl, id, fun _ _ => rfl⟩

theorem setHead_framed {l : List Nat} (s : State) (h : Fin 16) (g : Head → Head) : Framed (mailShape h) l s (s.setHead h g) := by
  refine ⟨setHead_leaves s h g, Eq.trans (congrArg (fun v => ({ s with heads := v } : State)) ?_) (mailShape_heads h s _).symm⟩
  simp

theorem setHead_framedMarks {l : List Nat} (s : State) (h : Fin 16) (g : Head → Head) : Framed (mailMarksShape h) l s (s.setHead h g) := by
  refine ⟨setHead_leaves s h g, Eq.trans (congrArg (fun v => ({ s with heads := v } : State)) ?_) (mailMarksShape_heads h s _).symm⟩
  simp

section
variable {s : State} (ht : s.Tidy)
include ht

theorem mbxSend_yields (t : Nat) (h : Fin 16) :
    Yields (mailShape h) [regAddr (Pg.HEAD h.val) Reg.HEAD_MBX_STATUS_BUSY.off] (s.upTo t) (execMbxSend t h s) := by
  have hφ := mailShape_shape h
  have hb {fl : Fld} (ho : fl.off = Reg.HEAD_MBX_STATUS_BUSY.off) (u : State) (v : Bool) :
      Framed (mailShape h) [regAddr (Pg.HEAD h.val) Reg.HEAD_MBX_STATUS_BUSY.off] u (u.setB (Pg.HEAD h) fl v) :=
    ⟨.setWord u _ (not_not.mpr (by rw [ho]; exact .head _)), (mailShape_regs h u (u.setB (Pg.HEAD h) fl v).regs).symm⟩
  have hbusy := hb (fl := Reg.HEAD_MBX_STATUS_BUSY) rfl
  have hdone := hb (fl := Reg.HEAD_MBX_STATUS_DONE) rfl
  have hall (u : State) (g : Head → Head) : Framed (mailShape h) [regAddr (Pg.HEAD h.val) Reg.HEAD_MBX_STATUS_BUSY.off] u
      (((u.setB (Pg.HEAD h) Reg.HEAD_MBX_STATUS_BUSY true).setB (Pg.HEAD h) Reg.HEAD_MBX_STATUS_DONE false).setHead h g) :=
    .trans hφ (.trans hφ (hbusy u true) (hdone _ false)) (setHead_framed _ h g)
  exact .ite (.fault _) (.doneAt ht (.ite (.refl hφ _) (hall _ _)))

theorem mbxTimeout_yields (t : Nat) (h : Fin 16) :
    Yields (mailMarksShape h) ([regAddr (Pg.HEAD h.val) Reg.HEAD_MBX_STATUS_BUSY.off] ++ noted (Pg.HEAD h.val)) (s.upTo t) (execMbxTimeout t h s) := by
  have hφ := mailMarksShape_shape h
  have hm := mailMarksShape_marks h
  have hb (u : State) (v : Nat) : Framed (mailMarksShape h) ([regAddr (Pg.HEAD h.val) Reg.HEAD_MBX_STATUS_BUSY.off] ++ noted (Pg.HEAD h.val)) u
      (u.setF (Pg.HEAD h) Reg.HEAD_MBX_STATUS_BUSY v) := .setF u hm _ v (.head _)
  exact .doneAt ht (.ite (.trans hφ (.trans hφ (hb _ _) (.sticky! hφ _ hm (List.subset_append_right _ _) _))
    (setHead_framedMarks _ h _)) (.refl hφ _))

theorem sampleBDeadline_yields (n : Nat) :
    Yields countShape ((List.range 16).map fun h => regAddr (Pg.HEAD h) Reg.HEAD_UP_MISSING_B.off) (s.upTo (t0 n + 11840))
      (execSampleBDeadline n s) := by
  have hinc (u : State) (h : Fin 16) : Framed countShape ((List.range 16).map fun h => regAddr (Pg.HEAD h) Reg.HEAD_UP_MISSING_B.off) u
      (u.inc (Pg.HEAD h) Reg.HEAD_UP_MISSING_B) :=
    ⟨.setWord u _ (not_not.mpr (List.mem_map.mpr ⟨h, List.mem_range.mpr h.isLt, rfl⟩)), rfl⟩
  exact .doneAt ht (.each countShape_shape (fun u h => .ite (hinc u h) (.refl countShape_shape u)) _ _)

end

/-! ### The pair (R195, R312, R315, R318) -/

/-- What the deadline of an echo may change. -/
def formShape (s u : State) : State :=
  { s with
    time := { s.time with now := u.time.now, acc := u.time.acc, cycles := u.time.cycles }, dip := { s.dip with formF := u.dip.formF } }

/-- What a heartbeat received may change. -/
def digestShape (s u : State) : State :=
  { s with
    time := { s.time with now := u.time.now, acc := u.time.acc, cycles := u.time.cycles }, regs := u.regs,
    dip := { s.dip with latest := u.dip.latest, beats := u.dip.beats, formF := u.dip.formF, echoed := u.dip.echoed } }

/-- What HANDOVER may change. -/
def handoverShape (s u : State) : State :=
  { s with
    time := { s.time with now := u.time.now, acc := u.time.acc, cycles := u.time.cycles }, regs := u.regs,
    dip := { s.dip with declareDue := u.dip.declareDue }, lastEv := u.lastEv, ev := { s.ev with offers := u.ev.offers } }

/-- What samples received may change. -/
def mirrorShape (s u : State) : State :=
  { s with
    time := { s.time with now := u.time.now, acc := u.time.acc, cycles := u.time.cycles }, medium := { s.medium with mirror := u.medium.mirror } }

theorem formShape_shape : Shape formShape := ⟨fun _ _ _ => rfl, fun _ _ => rfl⟩
theorem digestShape_shape : Shape digestShape := ⟨fun _ _ _ => rfl, fun _ _ => rfl⟩
theorem handoverShape_shape : Shape handoverShape := ⟨fun _ _ _ => rfl, fun _ _ => rfl⟩
theorem handoverShape_marks : Marks handoverShape := fun _ _ => rfl
theorem mirrorShape_shape : Shape mirrorShape := ⟨fun _ _ _ => rfl, fun _ _ => rfl⟩

section
variable {s : State} (ht : s.Tidy) (t : Nat)
include ht

theorem formEchoDeadline_yields : Yields formShape [] (s.upTo t) (execFormEchoDeadline t s) := by
  refine .doneAt ht ?_
  split
  · exact .ite ⟨⟨rfl, rfl, rfl, rfl, rfl, id, fun _ _ => rfl⟩, rfl⟩ (.refl formShape_shape _)
  · exact .refl formShape_shape _

theorem digestReceive_yields (frame w2 digest : Word) :
    Yields digestShape [regAddr Pg.DIPTYCH Reg.DIPTYCH_STATUS_PARTNER_READY.off, regAddr Pg.DIPTYCH Reg.DIPTYCH_FORM_FRAME.off] (s.upTo t)
      (execDigestReceive t frame w2 digest s) := by
  have hready (u : State) (v : Nat) : Framed digestShape
      [regAddr Pg.DIPTYCH Reg.DIPTYCH_STATUS_PARTNER_READY.off, regAddr Pg.DIPTYCH Reg.DIPTYCH_FORM_FRAME.off] u
      (u.setF Pg.DIPTYCH Reg.DIPTYCH_STATUS_PARTNER_READY v) := ⟨.setWord u _ (not_not.mpr (.head _)), rfl⟩
  have hform (u : State) (v : Nat) : Framed digestShape
      [regAddr Pg.DIPTYCH Reg.DIPTYCH_STATUS_PARTNER_READY.off, regAddr Pg.DIPTYCH Reg.DIPTYCH_FORM_FRAME.off] u
      (u.setF Pg.DIPTYCH Reg.DIPTYCH_FORM_FRAME v) := ⟨.setWord u _ (not_not.mpr (.tail _ (.head _))), rfl⟩
  have hdip (u : State) {d : DipSt} (hd : d = { u.dip with latest := d.latest, beats := d.beats, formF := d.formF, echoed := d.echoed }) :
      Framed digestShape [regAddr Pg.DIPTYCH Reg.DIPTYCH_STATUS_PARTNER_READY.off, regAddr Pg.DIPTYCH Reg.DIPTYCH_FORM_FRAME.off] u
        { u with dip := d } := ⟨⟨rfl, rfl, rfl, rfl, rfl, id, fun _ _ => rfl⟩, by rw [hd]; rfl⟩
  have hφ := digestShape_shape
  have h2 := fun (u : State) (v) (b : List Beat) (r : Nat) => Framed.trans hφ (hdip u (d := { u.dip with latest := v, beats := b }) rfl) (hready _ r)
  exact .doneAt ht (.ite (.ite (.ite (.trans hφ (.trans hφ (h2 _ _ _ _) (hdip _ rfl)) (hform _ _)) (.trans hφ (h2 _ _ _ _) (hdip _ rfl)))
    (h2 _ _ _ _)) (.refl hφ _))

theorem handover_yields (key : BitVec 8) : Yields handoverShape (noted Pg.DIPTYCH) (s.upTo t) (execHandover t key s) := by
  have hφ := handoverShape_shape
  have hsticky (u : State) (k : Nat) : Framed handoverShape (noted Pg.DIPTYCH) u (u.sticky! Pg.DIPTYCH k) :=
    .sticky! hφ u handoverShape_marks (List.Subset.refl _) k
  have hdeclare (u : State) : Framed handoverShape (noted Pg.DIPTYCH) u u.declareNow := by
    unfold State.declareNow
    split
    · exact .ite ⟨⟨rfl, rfl, rfl, rfl, rfl, id, fun _ _ => rfl⟩, rfl⟩ (hsticky u _)
    · exact hsticky u _
  exact .ite (.fault _) (.doneAt ht (.ite (hsticky _ _) (.ite (.refl hφ _) (hdeclare _))))

theorem mirrorMediumReceive_yields (frame : Word) (words : Vector (BitVec 64) 4) :
    Yields mirrorShape [] (s.upTo t) (execMirrorMediumReceive t frame words s) :=
  .doneAt ht (.ite ⟨⟨rfl, rfl, rfl, rfl, rfl, id, fun _ _ => rfl⟩, rfl⟩ (.refl mirrorShape_shape _))

end

/-! ### The frame that carries messages (R91) -/

/-- What the sending of messages may change. -/
def sendShape (s u : State) : State :=
  { s with
    time := { s.time with now := u.time.now, acc := u.time.acc, cycles := u.time.cycles }, regs := u.regs,
    ev := { s.ev with queue := u.ev.queue }, lanes := u.lanes }

theorem sendShape_shape : Shape sendShape := ⟨fun _ _ _ => rfl, fun _ _ => rfl⟩

theorem sendShape_setF {l : List Nat} {p : Nat} {fl : Fld} (h : regAddr p fl.off ∈ l) (s : State) (v : Nat) : Framed sendShape l s (s.setF p fl v) :=
  ⟨.setWord s _ (not_not.mpr h), rfl⟩

/-- The registers that the sending of messages on a host port writes. -/
def sendRegs : List Nat :=
  [regAddr Pg.EVCOL Reg.EVCOL_STATUS_QUEUE.off, regAddr Pg.EVCOL Reg.EVCOL_PEAK_QUEUE.off, regAddr Pg.EVCOL Reg.EVCOL_PEAK_PENDING.off] ++
    [regAddr (Pg.LINK 0) Reg.FRAME_EVT_MESSAGES.off, regAddr (Pg.LINK 1) Reg.FRAME_EVT_MESSAGES.off,
      regAddr (Pg.LINK 0) Reg.FRAME_FRAME_STATUS_TX_SEQ.off, regAddr (Pg.LINK 1) Reg.FRAME_FRAME_STATUS_TX_SEQ.off]

theorem messages_sendRegs : ∀ n < 2, regAddr (lanePage n) Reg.FRAME_EVT_MESSAGES.off ∈ sendRegs := by decide
theorem txSeq_sendRegs : ∀ n < 2, regAddr (lanePage n) Reg.FRAME_FRAME_STATUS_TX_SEQ.off ∈ sendRegs := by decide

theorem evStat_framed (s : State) : Framed sendShape sendRegs s s.evStat := by
  have hq := sendShape_setF (l := sendRegs) (p := Pg.EVCOL) (fl := Reg.EVCOL_STATUS_QUEUE) (by decide)
  have hn := sendShape_setF (l := sendRegs) (p := Pg.EVCOL) (fl := Reg.EVCOL_STATUS_PENDING) (by decide)
  have hpq := sendShape_setF (l := sendRegs) (p := Pg.EVCOL) (fl := Reg.EVCOL_PEAK_QUEUE) (by decide)
  have hpn := sendShape_setF (l := sendRegs) (p := Pg.EVCOL) (fl := Reg.EVCOL_PEAK_PENDING) (by decide)
  exact .trans sendShape_shape (.trans sendShape_shape (.trans sendShape_shape (hq s _) (hn _ _)) (hpq _ _)) (hpn _ _)

theorem sendFrame_framed (s : State) {l : Fin 20} (hl : l.val < 2) (ty flags : Nat) (payload : List Byte) (v : Nat) :
    Framed sendShape sendRegs s (s.sendFrame l ty flags payload v) := by
  have hlane (g : Lane → Lane) : Framed sendShape sendRegs s (s.setLane l g) := ⟨⟨rfl, rfl, rfl, rfl, rfl, id, fun _ _ => rfl⟩, rfl⟩
  exact .ite (.trans sendShape_shape (hlane _) (sendShape_setF (txSeq_sendRegs l hl) _ _)) (hlane _)

theorem evtSend_yields {s : State} (ht : s.Tidy) (t : Nat) : Yields sendShape sendRegs (s.upTo t) (execEvtSend t s) := by
  refine .doneAt ht ?_
  split
  · next hport =>
    have hqueue (u : State) (n : Nat) : Framed sendShape sendRegs u (u.setEv fun v => { v with queue := v.queue.drop n }) :=
      ⟨⟨rfl, rfl, rfl, rfl, rfl, id, fun _ _ => rfl⟩, rfl⟩
    have hlt : (s.upTo t).f Pg.EVCOL Reg.EVCOL_EVCOL_CFG - 1 < 2 := by omega
    have hcount := sendShape_setF (messages_sendRegs _ hlt)
    refine .ite (.ite ?_ (.refl sendShape_shape _)) (.refl sendShape_shape _)
    exact .trans sendShape_shape (.trans sendShape_shape (.trans sendShape_shape (sendFrame_framed _ hlt _ _ _ _) (hqueue _ 8)) (hcount _ _))
      (evStat_framed _)
  · exact .refl sendShape_shape _

/-! ### The boundary that takes a commit (R38) -/

/-- What a boundary of a page may change. -/
def shadowShape (s u : State) : State :=
  { s with
    time := { s.time with now := u.time.now, acc := u.time.acc, cycles := u.time.cycles }, regs := u.regs, active := u.active, glazes := u.glazes,
    lastEv := u.lastEv, ev := { s.ev with offers := u.ev.offers } }

theorem shadowShape_shape : Shape shadowShape := ⟨fun _ _ _ => rfl, fun _ _ => rfl⟩
theorem shadowShape_marks : Marks shadowShape := fun _ _ => rfl

theorem pageBlk_glaze {p : Nat} (h : pageBlk p = some .glaze) : p = Pg.GLAZE (glazeOf p) := by
  have hr : 0x50 ≤ p ∧ p < 0x50 + 16 := pageBlk_range h
  simp only [Pg.GLAZE, glazeOf, inst]
  omega

section
variable (s : State) (p b : Nat)

theorem takeShadow_framed : Framed shadowShape (regAddr p Reg.COMMIT_PENDING.off :: noted p) s (s.takeShadow p b) := by
  have hact (u : State) (a : Nat) (v : Word) : Framed shadowShape (regAddr p Reg.COMMIT_PENDING.off :: noted p) u (u.setActWord a v) :=
    ⟨.setActWord u a v, rfl⟩
  have hclear (u : State) (v : Nat) : Framed shadowShape (regAddr p Reg.COMMIT_PENDING.off :: noted p) u (u.setF p Reg.COMMIT_PENDING v) :=
    .setF u shadowShape_marks p v (.head _)
  exact .ite (.trans shadowShape_shape (.trans shadowShape_shape (.each shadowShape_shape (fun u o => hact u _ _) _ _) (hclear _ _))
    (.event _ shadowShape_marks (List.subset_cons_self _ _) _ _)) (.refl shadowShape_shape _)

/-- The active words of a page that takes a commit, and no others, become its shadows. -/
theorem takeShadow_actWord {a : Nat} (ha : a ∉ (rwsWords p).map (regAddr p)) : (s.takeShadow p b).actWord a = s.actWord a := by
  have hset (l : List Nat) (hl : ∀ o ∈ l, regAddr p o ≠ a) :
      ∀ u : State, (u.each l fun u o => u.setActWord (regAddr p o) (u.shadowAt p o b)).actWord a = u.actWord a := by
    induction l with
    | nil => exact fun _ => rfl
    | cons o r ih =>
      intro u
      rw [each_cons, ih fun x hx => hl x (.tail _ hx), actWord_setActWord, if_neg fun h => hl o (.head _) h.symm]
  unfold State.takeShadow
  split
  · rw [event_actWord]
    exact hset _ (fun o ho h => ha (List.mem_map.mpr ⟨o, ho, h⟩)) s
  · rfl

theorem takeShadow_glazes : (s.takeShadow p b).glazes = s.glazes := by
  unfold State.takeShadow
  split
  · rw [event_glazes]
    exact each_inv State.glazes (fun s o => s.setActWord (regAddr p o) (s.shadowAt p o b)) (fun _ _ => rfl) _ s
  · rfl

end

theorem camLost_framed {l : List Nat} (s : State) (b : Fin 16) (hl : noted (Pg.GLAZE b) ⊆ l) : Framed shadowShape l s (s.camLost b) := by
  have hset (g : Glaze → Glaze) : Framed shadowShape l s (s.setGlaze b g) := ⟨⟨rfl, rfl, rfl, rfl, rfl, id, fun _ _ => rfl⟩, rfl⟩
  exact .ite (.trans shadowShape_shape (.trans shadowShape_shape (hset _) (.ev! _ shadowShape_marks hl _))
    (.sticky! shadowShape_shape _ shadowShape_marks hl _)) (hset _)

theorem camLost_actWord (s : State) (b : Fin 16) (a : Nat) : (s.camLost b).actWord a = s.actWord a := by
  simp only [State.camLost]
  split
  · rw [State.sticky!, sticky_actWord, State.ev!, event_actWord]
    rfl
  · rfl

theorem camLost_glazes (s : State) {b c : Fin 16} (h : c ≠ b) : (s.camLost b).glazes[c] = s.glazes[c] := by
  have hset (g : Glaze → Glaze) : (s.setGlaze b g).glazes[c] = s.glazes[c] := 
    Vector.getElem_set_ne b.isLt c.isLt fun e => h (Fin.ext e.symm)
  simp only [State.camLost]
  split
  · simp only [State.sticky!, State.ev!, sticky_glazes, event_glazes]
    exact hset _
  · exact hset _

/-- A boundary of page `p` at the present tick, with what it makes of the camera's absence. -/
def shadowsTaken (s : State) (p : Nat) : State :=
  if pageBlk p = some .glaze then (s.takeShadow p s.now).camLost (glazeOf p) else s.takeShadow p s.now

theorem shadowTransfer_next {t : Nat} {p : Fin 256} {s w : State} (h : execShadowTransfer t p s = .next w) :
    w = ended s (s.upTo t) ∨ w = ended s (shadowsTaken (s.upTo t) p) := by
  simp only [execShadowTransfer] at h
  split at h
  · exact .inl (done_next h)
  · split at h
    · cases h
    · split at h
      · cases h
      · exact .inr (done_next h)

section
variable (s : State) (p : Nat)

theorem shadowsTaken_framed : Framed shadowShape (regAddr p Reg.COMMIT_PENDING.off :: noted p) s (shadowsTaken s p) := by
  have h := takeShadow_framed s p s.now
  unfold shadowsTaken
  split
  · next hb => exact .trans shadowShape_shape h (camLost_framed _ _ (pageBlk_glaze hb ▸ List.subset_cons_self _ _))
  · exact h

theorem shadowsTaken_actWord {a : Nat} (ha : a ∉ (rwsWords p).map (regAddr p)) : (shadowsTaken s p).actWord a = s.actWord a := by
  unfold shadowsTaken
  split
  · rw [camLost_actWord, takeShadow_actWord s p _ ha]
  · exact takeShadow_actWord s p _ ha

theorem shadowsTaken_glazes {b : Fin 16} (hb : p ≠ Pg.GLAZE b) : (shadowsTaken s p).glazes[b] = s.glazes[b] := by
  unfold shadowsTaken
  split
  · next h =>
    rw [camLost_glazes _ fun e : b = glazeOf p => hb (e ▸ pageBlk_glaze h)]
    simp only [takeShadow_glazes]
  · simp only [takeShadow_glazes]

end

theorem shadowTransfer_framed {t : Nat} {p : Fin 256} {s w : State} (ht : s.Tidy) (h : execShadowTransfer t p s = .next w) :
    Framed shadowShape (regAddr p Reg.COMMIT_PENDING.off :: noted p) (s.upTo t) w ∧ (∀ a : Nat, a ∉ (rwsWords p).map (regAddr p) →
      w.actWord a = s.actWord a) ∧ ∀ b : Fin 16, p.val ≠ Pg.GLAZE b → w.glazes[b] = s.glazes[b] := by
  rcases shadowTransfer_next h with rfl | rfl
  · refine ⟨Yields.doneAt ht (.refl shadowShape_shape _) _ (done_eq _ _), fun a _ => ?_, fun b _ => ?_⟩
    · rw [ended_actWord, upTo_actWord]
    · rw [ended_glazes, upTo_glazes]
  · refine ⟨Yields.doneAt ht (shadowsTaken_framed _ _) _ (done_eq _ _), fun a ha => ?_, fun b hb => ?_⟩
    · rw [ended_actWord, shadowsTaken_actWord _ _ ha, upTo_actWord]
    · rw [ended_glazes, shadowsTaken_glazes _ _ hb, upTo_glazes]

/-- Settles O57: the effect of each command is made of steps that keep its shape, and in a tidy state it ends in that effect. -/
theorem framesOfKnifeAndHeads : Obligations.FramesOfKnifeAndHeads := by
  unfold Obligations.FramesOfKnifeAndHeads
  have hat {φ : State → State → State} {l : List Nat} {i : Instr} {s : State} {t : Nat} (hφ : Shape φ) (hy : Yields φ l (s.upTo t) (exec i s)) (u : State)
      (h : exec i s = .next u) : u = φ s u ∧ RegsBut l s u := ⟨(hy u h).shapeFrom hφ, (hy u h).regsBut⟩
  refine ⟨?_, ?_, ?_, ?_, ?_, ?_, ?_, ?_, ?_, ?_, ?_, ?_, ?_, ?_, ?_⟩
  · exact fun t key mask s ht => hat armShape_shape (knifeArmSet_yields ht t key mask)
  · exact fun t key mask s ht => hat clearShape_shape (knifeClear_yields ht t key mask)
  · rintro t p bits s _ ht rfl u h
    have hf := eventClear_yields ht t p bits u h
    exact ⟨hf.shape, hf.leaves.words⟩
  · rintro t p bits s _ ht rfl u h
    have hf := eventForce_yields ht t p bits u h
    exact ⟨hf.shape, hf.leaves.words⟩
  · rintro t p s _ ht rfl u h
    have hf := commit_yields ht t p u h
    exact ⟨hf.shape, hf.leaves.words⟩
  · exact fun t h s ht => hat (mailShape_shape h) (mbxSend_yields ht t h)
  · exact fun t h s ht => hat (mailMarksShape_shape h) (mbxTimeout_yields ht t h)
  · exact fun n s ht => hat countShape_shape (sampleBDeadline_yields ht n)
  · exact fun t s ht u h => (hat formShape_shape (formEchoDeadline_yields ht t) u h).1
  · exact fun t s ht => hat sendShape_shape (evtSend_yields ht t)
  · rintro t p s _ ht hp rfl u h
    have hf := snapshotTake_yields ht t p hp u h
    refine ⟨hf.shape, fun a ha => ?_⟩
    rw [snapshotTake_next h, ended_snapWord, takeSnapshot_snapWord _ hp ha]
  · intro t p s ht u h
    obtain ⟨hf, hact, hgl⟩ := shadowTransfer_framed ht h
    exact ⟨hf.shapeFrom shadowShape_shape, hf.regsBut, hact, hgl⟩
  · exact fun t frame w2 digest s ht => hat digestShape_shape (digestReceive_yields ht t frame w2 digest)
  · exact fun t key s ht => hat handoverShape_shape (handover_yields ht t key)
  · exact fun t frame words s ht u h => (hat mirrorShape_shape (mirrorMediumReceive_yields ht t frame words) u h).1

end Sys2Proof.Proofs
end
section
/-! PROOFS. What the operations of the units leave of memory: every operation that stores nothing leaves it as it was. -/

namespace Sys2Proof.Proofs

open Sys2Proof.Machine Sys2Proof.Laws

section
variable (s : State)

@[simp] theorem ite_mem (c : Prop) [Decidable c] (u : State) : (if c then s else u).mem = if c then s.mem else u.mem := apply_ite State.mem c s u

@[simp] theorem dite_mem (c : Prop) [Decidable c] (s : c → State) (u : ¬ c → State) :
    (if h : c then s h else u h).mem = if h : c then (s h).mem else (u h).mem := apply_dite State.mem c s u

@[simp] theorem each_mem {α : Type} (l : List α) (g : State → α → State) (h : ∀ s x, (g s x).mem = s.mem) : (s.each l g).mem = s.mem :=
  each_inv State.mem g h l s

@[simp] theorem when_mem (c : Bool) (g : State → State) (h : ∀ s, (g s).mem = s.mem) : (s.when c g).mem = s.mem := when_inv State.mem s c g h

@[simp] theorem inc_mem (p : Nat) (fl : Fld) (n : Nat) : (s.inc p fl n).mem = s.mem := rfl
@[simp] theorem setPair_mem (p : Nat) (lo hi : Fld) (v : Nat) : (s.setPair p lo hi v).mem = s.mem := rfl
@[simp] theorem incPair_mem (p : Nat) (lo hi : Fld) (n : Nat) : (s.incPair p lo hi n).mem = s.mem := rfl
@[simp] theorem setTime_mem (g : TimeSt → TimeSt) : (s.setTime g).mem = s.mem := rfl
@[simp] theorem markEv_mem (src : Nat) : (s.markEv src).mem = s.mem := rfl

/-! What is due on a page, by what it leaves of everything. -/

theorem noRegs_free (q : Nat) : FreeOf (fun _ => False) q := fun _ _ => id

@[simp] theorem blockFault_mem (p stamp : Nat) : (s.blockFault p stamp).mem = s.mem :=
  (Leaves.blockFault (noRegs_free _) (noRegs_free _) s (noRegs_free p) id stamp).mem

@[simp] theorem calWatch_mem : s.calWatch.mem = s.mem := (Leaves.calWatch (noRegs_free _) (noRegs_free _) s).mem
@[simp] theorem lightShow_mem (n : Fin 4) : (s.lightShow n).mem = s.mem := (Leaves.lightShow s n (noRegs_free _)).mem
@[simp] theorem lightOff_mem (n : Fin 4) : (s.lightOff n).mem = s.mem := (Leaves.lightOff s n (noRegs_free _)).mem
@[simp] theorem popResp_mem (n : Fin 4) : (s.popResp n).mem = s.mem := (Leaves.popResp s n (noRegs_free _)).mem

@[simp] theorem lightFault_mem (n : Fin 4) : (s.lightFault n).mem = s.mem :=
  (Leaves.lightFault s n (noRegs_free _) (noRegs_free _) (noRegs_free _) False.elim).mem

@[simp] theorem lightReturn_mem (n : Fin 4) : (s.lightReturn n).mem = s.mem :=
  (Leaves.lightReturn s n (noRegs_free _) (noRegs_free _) (noRegs_free _) (fun _ _ => id) False.elim).mem

@[simp] theorem exposePixel_mem (b : Fin 16) (c : RCur) (j : Nat) : (s.exposePixel b c j).mem = s.mem :=
  (Leaves.exposePixel s b (noRegs_free _) (noRegs_free _) c j).mem

/-! Machine/Ops -/
@[simp] theorem setFi_mem (p : Nat) (fl : Fld) (v : Int) : (s.setFi p fl v).mem = s.mem := rfl
@[simp] theorem setB_mem (p : Nat) (fl : Fld) (v : Bool) : (s.setB p fl v).mem = s.mem := rfl

/-! Machine/Flags -/
@[simp] theorem ev_bang_mem (p k : Nat) : (s.ev! p k).mem = s.mem := by simp -implicitDefEqProofs [State.ev!]
@[simp] theorem sticky_bang_mem (p k : Nat) : (s.sticky! p k).mem = s.mem := by simp -implicitDefEqProofs [State.sticky!]
@[simp] theorem calAbandon_mem (op : Nat) : (s.calAbandon op).mem = s.mem := by simp -implicitDefEqProofs [State.calAbandon]
@[simp] theorem declareNow_mem : (s.declareNow).mem = s.mem := by
  unfold State.declareNow
  split <;> simp -implicitDefEqProofs
@[simp] theorem flushOver_mem (fl : Flush) : (s.flushOver fl).mem = s.mem := by simp -implicitDefEqProofs [State.flushOver]
@[simp] theorem abandonFlush_mem (fl : Flush) : (s.abandonFlush fl).mem = s.mem := by simp -implicitDefEqProofs [State.abandonFlush]
@[simp] theorem trigger_mem (bit : Nat) : (s.trigger bit).mem = s.mem := by
  simp only [State.trigger]
  repeat' split
  all_goals simp -implicitDefEqProofs

/-! Machine/Block -/
@[simp] theorem showRing_mem (b : Fin 16) : (s.showRing b).mem = s.mem := setF_mem _ _ _ _
@[simp] theorem trainShow_mem (phase : Nat) : (s.trainShow phase).mem = s.mem := by simp -implicitDefEqProofs [State.trainShow]
@[simp] theorem trainBegin_mem (mask : Nat) (again : Bool) : (s.trainBegin mask again).mem = s.mem := by simp -implicitDefEqProofs [State.trainBegin]
@[simp] theorem evStat_mem : (s.evStat).mem = s.mem := by simp -implicitDefEqProofs [State.evStat]
@[simp] theorem dropLines_mem (b : Fin 16) (keep : RLine → Bool) : (s.dropLines b keep).mem = s.mem := by simp -implicitDefEqProofs [State.dropLines]
@[simp] theorem truncateOpen_mem (k : Fin 32) : (s.truncateOpen k).mem = s.mem := by simp -implicitDefEqProofs [State.truncateOpen]
@[simp] theorem stepEnd_mem (l : Fin 20) (result : Nat) : (s.stepEnd l result).mem = s.mem := by simp -implicitDefEqProofs [State.stepEnd]
@[simp] theorem takeShadow_mem (p b : Nat) : (s.takeShadow p b).mem = s.mem := by
  simp -implicitDefEqProofs [State.takeShadow]
@[simp] theorem bufShow_mem (p : Fin 4) : (s.bufShow p).mem = s.mem := by simp -implicitDefEqProofs [State.bufShow]

/-! Machine/Memory -/
@[simp] theorem freshWords_mem (a n : Nat) : (s.freshWords a n).mem = s.mem := rfl
@[simp] theorem dramShow_mem (i : Fin 2) : (s.dramShow i).mem = s.mem := by simp -implicitDefEqProofs [State.dramShow]
@[simp] theorem readGranule_mem (cls who : Nat) (q : Nat × Nat) : (s.readGranule cls who q).mem = s.mem := by
  simp only [State.readGranule]
  repeat' split
  all_goals simp -implicitDefEqProofs
@[simp] theorem dramRead_mem (cls who a n : Nat) : (s.dramRead cls who a n).mem = s.mem := by simp -implicitDefEqProofs [State.dramRead]

/-! Machine/Clock -/
@[simp] theorem setValid_mem (c : Nat) (v : Bool) : (s.setValid c v).mem = s.mem := rfl
@[simp] theorem holdBegin_mem (c cause : Nat) : (s.holdBegin c cause).mem = s.mem := by simp -implicitDefEqProofs [State.holdBegin]
@[simp] theorem exitBegin_mem : (s.exitBegin).mem = s.mem := rfl
@[simp] theorem fmeasEdge_mem (n : Nat) : (s.fmeasEdge n).mem = s.mem := rfl
@[simp] theorem fmeasBurst_mem (src n v gap edges : Nat) : (s.fmeasBurst src n v gap edges).mem = s.mem :=
  by simp -implicitDefEqProofs [State.fmeasBurst]
@[simp] theorem fmeasStep_mem (n : Fin 8) (q : Nat) : (s.fmeasStep n q).mem = s.mem := by simp -implicitDefEqProofs [State.fmeasStep]
@[simp] theorem fmeasLight_mem (n : Fin 4) (v : Nat) : (s.fmeasLight n v).mem = s.mem := by simp -implicitDefEqProofs [State.fmeasLight]
@[simp] theorem fmeasUnder_mem : (s.fmeasUnder).mem = s.mem := by
  simp only [State.fmeasUnder]
  repeat' split
  all_goals simp -implicitDefEqProofs

/-! Machine/Lane -/
@[simp] theorem sendFrame_mem (l : Fin 20) (ty flags : Nat) (payload : List Byte) (v : Nat) : (s.sendFrame l ty flags payload v).mem = s.mem :=
  by simp -implicitDefEqProofs [State.sendFrame]
@[simp] theorem trySend_mem (l : Fin 20) (ty flags : Nat) (payload : List Byte) (after : State → State) (hafter : ∀ s, (after s).mem = s.mem) : (s.trySend l ty flags payload after).mem = s.mem :=
  by
  simp only [State.trySend]
  repeat' split
  all_goals simp -implicitDefEqProofs [*]
@[simp] theorem setTPort_mem (p : Fin 4) (g : TimePort → TimePort) : (s.setTPort p g).mem = s.mem := rfl
@[simp] theorem launchOut_mem (l : Fin 20) (e : LaunchEntry) (v : Nat) : (s.launchOut l e v).mem = s.mem :=
  by simp -implicitDefEqProofs [State.launchOut]
@[simp] theorem countLate_mem : (s.countLate).mem = s.mem := by simp -implicitDefEqProofs [State.countLate]
@[simp] theorem launchHead_mem (l : Fin 20) : (s.launchHead l).mem = s.mem := by
  unfold State.launchHead
  split <;> simp -implicitDefEqProofs
@[simp] theorem enqueue_mem (l : Fin 20) (e : LaunchEntry) : (s.enqueue l e).mem = s.mem := by simp -implicitDefEqProofs [State.enqueue]
@[simp] theorem sendWaiting_mem (l : Fin 20) : (s.sendWaiting l).mem = s.mem := by
  simp only [State.sendWaiting]
  repeat' split
  all_goals simp -implicitDefEqProofs
@[simp] theorem queueFrame_mem (l : Fin 20) (ty : Nat) (payload : List Byte) : (s.queueFrame l ty payload).mem = s.mem :=
  by simp -implicitDefEqProofs [State.queueFrame]
@[simp] theorem toPhase_mem (l : Fin 20) (ph : Nat) : (s.toPhase l ph).mem = s.mem := rfl
@[simp] theorem prbsCount_mem (l : Fin 20) : (s.prbsCount l).mem = s.mem := by simp -implicitDefEqProofs [State.prbsCount]
@[simp] theorem prbsClear_mem (l : Fin 20) : (s.prbsClear l).mem = s.mem := by simp -implicitDefEqProofs [State.prbsClear]
@[simp] theorem prbsError_mem (l : Fin 20) : (s.prbsError l).mem = s.mem := by simp -implicitDefEqProofs [State.prbsError]
@[simp] theorem genUpdate_mem (l : Fin 20) (patternWas : Nat) : (s.genUpdate l patternWas).mem = s.mem :=
  by simp -implicitDefEqProofs [State.genUpdate]

/-! Machine/Time -/
@[simp] theorem forward_mem (f : Forward) : (s.forward f).mem = s.mem := rfl
@[simp] theorem delayUpdate_mem (port : Fin 4) (r : SyncRec) (reqRx reqCorr : Nat) : (s.delayUpdate port r reqRx reqCorr).mem = s.mem :=
  by simp -implicitDefEqProofs [State.delayUpdate]

/-! Machine/Nv -/
@[simp] theorem setRcd_mem (g : RecSt → RecSt) : (s.setRcd g).mem = s.mem := rfl
@[simp] theorem nvWrite_mem (a : Nat) (l : List Byte) : (s.nvWrite a l).mem = s.mem := rfl
@[simp] theorem nvErase_mem (a n : Nat) : (s.nvErase a n).mem = s.mem := rfl

/-! Machine/Recorder -/
@[simp] theorem nvCommand_mem (op : NvOp) : (s.nvCommand op).mem = s.mem := by simp -implicitDefEqProofs [State.nvCommand]

/-! Machine/Power -/
@[simp] theorem setPwr_mem (g : PwrSt → PwrSt) : (s.setPwr g).mem = s.mem := rfl
@[simp] theorem dropPwrReq_mem : (s.dropPwrReq).mem = s.mem := rfl
@[simp] theorem lastExit_mem (n : Nat) : (s.lastExit n).mem = s.mem := rfl
@[simp] theorem setDev_mem (d : DevState) : (s.setDev d).mem = s.mem := rfl
@[simp] theorem wake_mem (cause : Nat) : (s.wake cause).mem = s.mem := rfl

/-! Machine/Events -/
@[simp] theorem setEv_mem (g : EvcolSt → EvcolSt) : (s.setEv g).mem = s.mem := rfl
@[simp] theorem intakeOne_mem (e : EvEntry) : (s.intakeOne e).mem = s.mem := by simp -implicitDefEqProofs [State.intakeOne]
@[simp] theorem intake_mem (n : Nat) (s : State) : (State.intake n s).mem = s.mem := by
  induction n generalizing s with
  | zero => rfl
  | succ n ih =>
    simp only [State.intake]
    repeat' split
    all_goals simp -implicitDefEqProofs [ih]

@[simp] theorem deliverOne_mem (e : EvEntry) : (s.deliverOne e).mem = s.mem := by
  simp only [State.deliverOne]
  repeat' split
  all_goals simp -implicitDefEqProofs
@[simp] theorem deliver_mem (n : Nat) (s : State) : (State.deliver n s).mem = s.mem := by
  induction n generalizing s with
  | zero => rfl
  | succ n ih =>
    simp only [State.deliver]
    repeat' split
    all_goals simp -implicitDefEqProofs [ih]

@[simp] theorem eventClear_mem (p bits : Nat) : (s.eventClear p bits).mem = s.mem := rfl

/-! Machine/Knife -/
@[simp] theorem badKey_mem : (s.badKey).mem = s.mem := by simp -implicitDefEqProofs [State.badKey]
@[simp] theorem clearBrush_mem (n : Fin 16) : (s.clearBrush n).mem = s.mem := by simp -implicitDefEqProofs [State.clearBrush]

/-! Machine/Medium -/
@[simp] theorem encCount_mem (n : Fin 4) (d : Int) : (s.encCount n d).mem = s.mem := by simp -implicitDefEqProofs [State.encCount]

/-! Machine/Raster -/
@[simp] theorem takePixels_mem (b : Fin 16) (t : Nat) : (s.takePixels b t).mem = s.mem := by
  simp only [State.takePixels]
  repeat' split
  all_goals simp -implicitDefEqProofs
@[simp] theorem closeTile_mem (b : Fin 16) (stamp : Nat) : (s.closeTile b stamp).mem = s.mem := by
  unfold State.closeTile
  split <;> simp -implicitDefEqProofs
@[simp] theorem endLine_mem (b : Fin 16) (tiles : Nat) (u : Up) : (s.endLine b tiles u).mem = s.mem := by
  simp -implicitDefEqProofs [State.endLine]

/-! Machine/Sequencer -/
@[simp] theorem closeSeam_mem (b : Fin 16) (stamp : Nat) : (s.closeSeam b stamp).mem = s.mem := by simp -implicitDefEqProofs [State.closeSeam]
@[simp] theorem openSeam_mem (b : Fin 16) (r : Rec) : (s.openSeam b r).mem = s.mem := by simp -implicitDefEqProofs [State.openSeam]
@[simp] theorem rereadNext_mem (b : Fin 16) : (s.rereadNext b).mem = s.mem := by
  unfold State.rereadNext
  split <;> simp -implicitDefEqProofs
@[simp] theorem tryNext_mem (b : Fin 16) : (s.tryNext b).mem = s.mem := by
  simp only [State.tryNext]
  repeat' split
  all_goals simp -implicitDefEqProofs
@[simp] theorem endOld_mem (b : Fin 16) (c : Nat) : (s.endOld b c).mem = s.mem := by simp -implicitDefEqProofs [State.endOld]
@[simp] theorem endIfLate_mem (b : Fin 16) : (s.endIfLate b).mem = s.mem := by
  simp only [State.endIfLate]
  repeat' split
  all_goals simp -implicitDefEqProofs
@[simp] theorem takeTicks_mem (b : Fin 16) : (s.takeTicks b).mem = s.mem := by simp -implicitDefEqProofs [State.takeTicks]
@[simp] theorem tableFull_mem (b : Fin 16) : (s.tableFull b).mem = s.mem := rfl
theorem addTarget_mem {s u : State} {pos : Int} (h : s.addTarget pos = some u) : u.mem = s.mem := by
  unfold State.addTarget at h
  split at h
  · cases h; rfl
  · split at h
    · cases h; rfl
    · cases h
@[simp] theorem enterAnchor_mem (b : Fin 16) (h : Sheet) : (s.enterAnchor b h).mem = s.mem := by
  simp only [State.enterAnchor]
  repeat' split
  · exact addTarget_mem ‹_›
  · simp
  · rfl
@[simp] theorem enterAnchors_mem (b : Fin 16) (after : Bool) : (s.enterAnchors b after).mem = s.mem :=
  by simp -implicitDefEqProofs [State.enterAnchors]
@[simp] theorem enterTargets_mem (b : Fin 16) (n : Nat) (s : State) : (s.enterTargets b n).mem = s.mem := by
  induction n generalizing s with
  | zero => rfl
  | succ n ih =>
    simp only [State.enterTargets]
    repeat' split
    all_goals simp -implicitDefEqProofs [ih]
    all_goals exact addTarget_mem ‹_›
@[simp] theorem targets_mem (b : Fin 16) : (s.targets b).mem = s.mem := by
  simp -implicitDefEqProofs [State.targets]
@[simp] theorem releaseLines_mem (b : Fin 16) : (s.releaseLines b).mem = s.mem := by
  unfold State.releaseLines
  split <;> simp -implicitDefEqProofs
@[simp] theorem releaseBlocks_mem (b : Fin 16) : (s.releaseBlocks b).mem = s.mem := by
  simp only [State.releaseBlocks]
  repeat' split
  all_goals simp -implicitDefEqProofs
@[simp] theorem listEnd_mem (b : Fin 16) : (s.listEnd b).mem = s.mem := by
  simp only [State.listEnd]
  repeat' split
  all_goals simp -implicitDefEqProofs
@[simp] theorem process_mem (b : Fin 16) (n : Nat) (s : State) : (s.process b n).mem = s.mem := by
  induction n generalizing s with
  | zero => rfl
  | succ n ih =>
    simp only [State.process]
    repeat' split
    all_goals simp -implicitDefEqProofs [ih]
@[simp] theorem proceed_mem (b : Fin 16) : (s.proceed b).mem = s.mem := by
  simp -implicitDefEqProofs [State.proceed]
@[simp] theorem showAnchors_mem (b : Fin 16) : (s.showAnchors b).mem = s.mem := by simp -implicitDefEqProofs [State.showAnchors]

/-! Machine/Glaze -/
@[simp] theorem camLost_mem (b : Fin 16) : (s.camLost b).mem = s.mem := by simp -implicitDefEqProofs [State.camLost]
@[simp] theorem holdRecord_mem (b : Fin 16) (roi : Nat) (m : MetHeld) (damaged : Bool) (trig : Nat) : (s.holdRecord b roi m damaged trig).mem = s.mem :=
  by simp -implicitDefEqProofs [State.holdRecord]

/-! Machine/Servo -/
@[simp] theorem traceDone_mem (e : Fin 4) : (s.traceDone e).mem = s.mem := by simp -implicitDefEqProofs [State.traceDone]

/-! Machine/Stepper -/
@[simp] theorem stepGen_mem (n : Fin 8) (stop : Bool) : (s.stepGen n stop).1.mem = s.mem := by
  simp only [State.stepGen]
  repeat' split
  all_goals simp -implicitDefEqProofs
@[simp] theorem stepCurrents_mem (n : Fin 8) : (s.stepCurrents n).mem = s.mem := by simp -implicitDefEqProofs [State.stepCurrents]
@[simp] theorem burst_mem (n : Fin 8) (q : Nat) (drive : Bool) : (s.burst n q drive).mem = s.mem := by simp -implicitDefEqProofs [State.burst]

/-! The bodies of `stepOn` and `stepStop` as functions: a rewriting with them does not evaluate the generator. -/

theorem stepOn_def : @State.stepOn = delta% @State.stepOn := rfl
theorem stepStop_def : @State.stepStop = delta% @State.stepStop := rfl

@[simp] theorem stepOn_mem (n : Fin 8) (q : Nat) : (s.stepOn n q).mem = s.mem := by
  have hs := congrFun (congrFun (congrFun stepOn_def s) n) q
  beta_reduce at hs
  extract_lets p holding was at hs
  rw [hs]
  have hg := stepGen_mem s n holding
  generalize s.stepGen n holding = g at hg ⊢
  clear_value holding was
  obtain ⟨u, r⟩ := g
  refine (burst_mem _ _ _ _).trans (Eq.trans ?_ hg)
  simp -implicitDefEqProofs

@[simp] theorem stepStop_mem (n : Fin 8) (q : Nat) : (s.stepStop n q).mem = s.mem := by
  have hs := congrFun (congrFun (congrFun stepStop_def s) n) q
  beta_reduce at hs
  extract_lets x at hs
  rw [hs]
  have hg := stepGen_mem s n true
  generalize s.stepGen n true = g at hg ⊢
  clear_value x
  obtain ⟨u, r⟩ := g
  split
  · refine (burst_mem _ _ _ _).trans (Eq.trans ?_ hg)
    simp -implicitDefEqProofs
  · split
    · simp -implicitDefEqProofs
    · split
      · simp -implicitDefEqProofs
      · rfl
@[simp] theorem showStep_mem (n : Fin 8) (q : Nat) : (s.showStep n q).mem = s.mem := by simp -implicitDefEqProofs [State.showStep]

@[simp] theorem planOne_mem (q : Nat) (n : Fin 8) : (s.planOne q n).mem = s.mem := by
  delta State.planOne
  extract_lets p s1 s2
  have h1 : s1.mem = s.mem := (setStepper_mem _ _ _).trans (takeShadow_mem _ _ _)
  refine (setStepper_mem _ _ _).trans ((showStep_mem _ _ _).trans (Eq.trans ?_ h1))
  have hcases : s2 = s1.burst n q false ∨ s2 = s1.stepOn n q ∨ s2 = s1.stepStop n q ∨ s2 = s1 := by
    unfold s2
    generalize s1.burst n q false = c
    generalize s1.stepOn n q = a
    generalize s1.stepStop n q = b
    generalize s1.st p = k
    clear_value s1
    split <;> simp
  clear_value s2 s1
  rcases hcases with rfl | rfl | rfl | rfl
  · exact burst_mem _ n q false
  · exact stepOn_mem _ n q
  · exact stepStop_mem _ n q
  · rfl
@[simp] theorem encFollow_mem (k : Fin 4) : (s.encFollow k).mem = s.mem := by simp -implicitDefEqProofs [State.encFollow]

/-! Machine/Vision -/
@[simp] theorem hdrCorrected_mem (p : Fin 4) (corrected : Bool) : (s.hdrCorrected p corrected).mem = s.mem :=
  by simp -implicitDefEqProofs [State.hdrCorrected]
@[simp] theorem unmatched_mem (p : Fin 4) : (s.unmatched p).mem = s.mem := by simp -implicitDefEqProofs [State.unmatched]
@[simp] theorem lanesBusy_mem (p : Fin 4) : (s.lanesBusy p).mem = s.mem := rfl
@[simp] theorem closeFrame_mem (k : Fin 32) : (s.closeFrame k).mem = s.mem := by simp -implicitDefEqProofs [State.closeFrame]
@[simp] theorem headerLost_mem (k : Fin 32) : (s.headerLost k).mem = s.mem := by simp -implicitDefEqProofs [State.headerLost]
@[simp] theorem lineLost_mem (k : Fin 32) (crc : Bool) : (s.lineLost k crc).mem = s.mem := by simp -implicitDefEqProofs [State.lineLost]
@[simp] theorem crcFails_mem (p : Fin 4) : (s.crcFails p).mem = s.mem := by simp -implicitDefEqProofs [State.crcFails]
@[simp] theorem linePacket_mem (p : Fin 4) (k : Fin 32) (f : VFrame) (l : List Byte) (crcOk : Bool) : (s.linePacket p k f l crcOk).mem = s.mem :=
  by simp -implicitDefEqProofs [State.linePacket]
@[simp] theorem deliverRecord_mem (n : Nat) (l : List Byte) : (s.deliverRecord n l).mem = s.mem := by simp -implicitDefEqProofs [State.deliverRecord]
@[simp] theorem pushSet_mem (k : Fin 32) (q : Nat) : (s.pushSet k q).mem = s.mem := rfl
@[simp] theorem launchTrigger_mem (k : Fin 32) (o : Fin 8) (v : Nat) : (s.launchTrigger k o v).mem = s.mem :=
  by simp -implicitDefEqProofs [State.launchTrigger]
@[simp] theorem oneshotWrite_mem (k : Fin 32) (v : Word) : (s.oneshotWrite k v).mem = s.mem := by simp -implicitDefEqProofs [State.oneshotWrite]

/-! Machine/Light -/
@[simp] theorem burstSent_mem (n : Fin 4) (v w0 w1 : Nat) (kind : LtKind) (r : Nat × Nat × Nat) : (s.burstSent n v w0 w1 kind r).mem = s.mem :=
  by simp -implicitDefEqProofs [State.burstSent]
@[simp] theorem syncLate_mem (n : Fin 4) : (s.syncLate n).mem = s.mem := by simp -implicitDefEqProofs [State.syncLate]
@[simp] theorem syncSent_mem (n : Fin 4) (start : Nat) (r : Nat × Nat × Nat) : (s.syncSent n start r).mem = s.mem :=
  by simp -implicitDefEqProofs [State.syncSent]
@[simp] theorem sendCmd_mem (n : Fin 4) (c : LtCmd) (v : Nat) (r : Nat × Nat × Nat) : (s.sendCmd n c v r).mem = s.mem :=
  by simp -implicitDefEqProofs [State.sendCmd]
@[simp] theorem sendPoll_mem (n : Fin 4) (v : Nat) (r : Nat × Nat × Nat) : (s.sendPoll n v r).mem = s.mem :=
  by simp -implicitDefEqProofs [State.sendPoll]
@[simp] theorem sendNop_mem (n : Fin 4) (v : Nat) (r : Nat × Nat × Nat) : (s.sendNop n v r).mem = s.mem :=
  by simp -implicitDefEqProofs [State.sendNop]
@[simp] theorem sendId_mem (n : Fin 4) (v : Nat) (r : Nat × Nat × Nat) : (s.sendId n v r).mem = s.mem := by simp -implicitDefEqProofs [State.sendId]
@[simp] theorem sendOff_mem (n : Fin 4) (v : Nat) (r : Nat × Nat × Nat) : (s.sendOff n v r).mem = s.mem :=
  by simp -implicitDefEqProofs [State.sendOff]

/-! Machine/Banks -/
@[simp] theorem logFail_mem (b row : Nat) : (s.logFail b row).mem = s.mem := by
  simp only [State.logFail]
  repeat' split
  all_goals simp -implicitDefEqProofs
@[simp] theorem failClear_mem : (s.failClear).mem = s.mem := each_inv State.mem (fun s k => s.setWord (regAddr Pg.BANKS (0x80 + 4 * k)) 0#32) (fun _ _ => rfl) _ s

/-! Machine/Calib -/
@[simp] theorem setCal_mem (g : CalSt → CalSt) : (s.setCal g).mem = s.mem := rfl
@[simp] theorem calStart_mem (op target : Nat) : (s.calStart op target).mem = s.mem := by simp -implicitDefEqProofs [State.calStart]
@[simp] theorem calEnd_mem (failed : Bool) : (s.calEnd failed).mem = s.mem := by simp -implicitDefEqProofs [State.calEnd]
@[simp] theorem calDelayEnd_mem (n : Nat) (cells : List Cells) : (s.calDelayEnd n cells).mem = s.mem :=
  by simp -implicitDefEqProofs [State.calDelayEnd]
@[simp] theorem calSensorEnd_mem (sums : List Int) : (s.calSensorEnd sums).mem = s.mem := by simp -implicitDefEqProofs [State.calSensorEnd]
@[simp] theorem calLaneEnd_mem (k : Nat) (segP segN : List (Option Nat)) : (s.calLaneEnd k segP segN).mem = s.mem :=
  by simp -implicitDefEqProofs [State.calLaneEnd]
@[simp] theorem calSaveEnd_mem (ok : Bool) : (s.calSaveEnd ok).mem = s.mem := by simp -implicitDefEqProofs [State.calSaveEnd]
@[simp] theorem bistEnd_mem (r : BistRun) (sigs : Nat → Nat) (rows : List (Nat × Nat)) : (s.bistEnd r sigs rows).mem = s.mem := by
  simp only [State.bistEnd]
  repeat' split
  all_goals simp -implicitDefEqProofs

/-! Machine/Diptych -/
@[simp] theorem setDip_mem (g : DipSt → DipSt) : (s.setDip g).mem = s.mem := rfl
@[simp] theorem sendMirror_mem (payload : List Byte) : (s.sendMirror payload).mem = s.mem := by simp -implicitDefEqProofs [State.sendMirror]
@[simp] theorem mirrorLost_mem : (s.mirrorLost).mem = s.mem := by simp -implicitDefEqProofs [State.mirrorLost]
@[simp] theorem handover_mem (key : Nat) : (s.handover key).mem = s.mem := by simp -implicitDefEqProofs [State.handover]

/-! Machine/Header -/
@[simp] theorem commit_mem (p : Nat) : (s.commit p).mem = s.mem := by simp -implicitDefEqProofs [State.commit]
@[simp] theorem takeTrip_mem : (s.takeTrip).mem = s.mem := by simp -implicitDefEqProofs [State.takeTrip]
@[simp] theorem takeSnapshot_mem (p : Nat) : (s.takeSnapshot p).mem = s.mem := by
  simp -implicitDefEqProofs [State.takeSnapshot]

/-! Machine/Host -/
@[simp] theorem readEffect_mem (p o : Nat) : (s.readEffect p o).mem = s.mem := by simp -implicitDefEqProofs [State.readEffect]

end

end Sys2Proof.Proofs
end
section
/-! PROOFS. Commands that store nothing (R28, R335, R370): what each of them leaves of memory. -/

namespace Sys2Proof.Proofs

open Sys2Proof.Machine Sys2Proof.Laws

/-- An outcome of a command met in `s` stores nothing: the next state, if there is one, reads every byte as `s` does. -/
def Unstored (s : State) (o : Host.Outcome State Fault Refusal) : Prop := ∀ w : State, o = .next w → SameMem s w

@[simp] theorem unstored_fault (s : State) (f : Fault) : Unstored s (.fault f) := fun _ h => nomatch h

theorem unstored_done {s u : State} (h : u.mem = s.mem) : Unstored s (done s u) := fun w hw a => by
  rw [done_next hw, ended_byte, State.byte, State.byte, h]

theorem unstored_ite {s : State} {c : Prop} [Decidable c] {o o' : Host.Outcome State Fault Refusal} (h : Unstored s o) (h' : Unstored s o') :
    Unstored s (if c then o else o') := by
  split
  · exact h
  · exact h'

/-- A guard before the command's one effect. -/
theorem unstored_guard {s : State} {c : Prop} [Decidable c] {f : Fault} {o : Host.Outcome State Fault Refusal} (h : Unstored s o) :
    Unstored s (if c then .fault f else o) := unstored_ite (unstored_fault s f) h

theorem unstored_doneDma {s u : State} (h : u.mem = s.mem) : Unstored s (doneDma s u) := unstored_guard (unstored_done h)

theorem unstored_doneSeq {s u : State} (b : Fin 16) (h : u.mem = s.mem) : Unstored s (doneSeq s u b) := unstored_guard (unstored_done h)

theorem unstored_onPage {s u : State} {p o : Nat} {zero : Bool} {g : Host.Outcome State Fault Refusal} (h : Unstored s g) :
    Unstored s (onPage u p o zero g) := unstored_guard (unstored_guard h)

/-! Machine/Clock -/

theorem unstored_candidateQualified (t : Nat) (c : Fin 4) (s : State) : Unstored s (execCandidateQualified t c s) :=
  unstored_done (by split <;> simp -implicitDefEqProofs)
theorem unstored_holdLock (t : Nat) (s : State) : Unstored s (execHoldLock t s) := unstored_done (by simp -implicitDefEqProofs)

theorem unstored_coastExitLock (t : Nat) (ok : Bool) (s : State) : Unstored s (execCoastExitLock t ok s) := by
  refine unstored_done ?_
  repeat' split
  all_goals simp -implicitDefEqProofs

theorem unstored_fmeasStart (t : Nat) (s : State) : Unstored s (execFmeasStart t s) :=
  unstored_guard (unstored_done (by simp -implicitDefEqProofs))

theorem unstored_fmeasDone (t n : Nat) (s : State) : Unstored s (execFmeasDone t n s) := by
  refine unstored_done ?_
  repeat' split
  all_goals simp -implicitDefEqProofs

theorem unstored_fmeasTimeout (t : Nat) (s : State) : Unstored s (execFmeasTimeout t s) := unstored_done (by split <;> simp -implicitDefEqProofs)

/-! Machine/Lane -/

theorem unstored_launch (t : Nat) (l : Fin 20) (s : State) : Unstored s (execLaunch t l s) := unstored_done (by simp -implicitDefEqProofs)
theorem unstored_laneActivity (t : Nat) (q : Squelch) (s : State) : Unstored s (execLaneActivity t q s) :=
  unstored_done (by simp -implicitDefEqProofs)
theorem unstored_clockPatternEnd (t : Nat) (l : Fin 20) (s : State) : Unstored s (execClockPatternEnd t l s) :=
  unstored_done (by split <;> simp -implicitDefEqProofs)
theorem unstored_txTimingSwitch (t : Nat) (l : Fin 4) (s : State) : Unstored s (execTxTimingSwitch t l s) :=
  unstored_done (by simp -implicitDefEqProofs)
theorem unstored_idleSend (t : Nat) (l : Fin 20) (s : State) : Unstored s (execIdleSend t l s) := unstored_done (by simp -implicitDefEqProofs)

/-- R73: the four outcomes of a step's launch are a result, a result, a result and the step taken. -/
theorem unstored_stepCtrlGo (t : Nat) (l : Fin 20) (rate : Fin 4) (s : State) : Unstored s (execStepCtrlGo t l rate s) := by
  unfold execStepCtrlGo
  extract_lets s1 p own tick busy refuse
  refine unstored_guard ?_
  have h (r : Nat) : (refuse r).mem = s.mem := by simp -implicitDefEqProofs [refuse, s1]
  refine unstored_ite (unstored_done (h 2)) (unstored_ite (unstored_done (h 3)) (unstored_ite (unstored_done (h 4)) (unstored_guard ?_)))
  exact unstored_done (by simp -implicitDefEqProofs [s1])

theorem unstored_stepAckDeadline (t : Nat) (l : Fin 20) (s : State) : Unstored s (execStepAckDeadline t l s) :=
  unstored_done (by split <;> simp -implicitDefEqProofs)
theorem unstored_stepQuiesce (t : Nat) (l : Fin 20) (s : State) : Unstored s (execStepQuiesce t l s) :=
  unstored_done (by split <;> simp -implicitDefEqProofs)
theorem unstored_loopCtrlWrite (t : Nat) (l : Fin 20) (v : Word) (s : State) : Unstored s (execLoopCtrlWrite t l v s) :=
  unstored_guard (unstored_guard (unstored_guard (unstored_done (by simp -implicitDefEqProofs))))
theorem unstored_loopInject (t : Nat) (l : Fin 20) (s : State) : Unstored s (execLoopInject t l s) :=
  unstored_guard (unstored_done (by split <;> simp -implicitDefEqProofs))
theorem unstored_loopClear (t : Nat) (l : Fin 20) (s : State) : Unstored s (execLoopClear t l s) :=
  unstored_guard (unstored_done (by simp -implicitDefEqProofs))
theorem unstored_prbsSyncGain (t : Nat) (r : LaneBits) (s : State) : Unstored s (execPrbsSyncGain t r s) :=
  unstored_done (by simp -implicitDefEqProofs)
theorem unstored_prbsSyncLoss (t : Nat) (l : Fin 20) (s : State) : Unstored s (execPrbsSyncLoss t l s) :=
  unstored_done (by simp -implicitDefEqProofs)
theorem unstored_prbsBitError (t : Nat) (r : LaneBit) (s : State) : Unstored s (execPrbsBitError t r s) :=
  unstored_done (by simp -implicitDefEqProofs)

/-! Machine/Time -/

theorem unstored_dlyReqLaunch (n : Nat) (s : State) : Unstored s (execDlyReqLaunch n s) := by
  refine unstored_done ?_
  split
  · refine (each_mem _ _ _ fun s p => ?_).trans (upTo_mem s _)
    split <;> simp -implicitDefEqProofs
  · simp -implicitDefEqProofs

theorem unstored_dlyReqReceive (t : Nat) (port : Fin 4) (txTime seqId senderId : Nat) (s : State) :
    Unstored s (execDlyReqReceive t port txTime seqId senderId s) := by
  refine unstored_done ?_
  repeat' split
  all_goals simp -implicitDefEqProofs

theorem unstored_dlyRspReceive (t : Nat) (port : Fin 4) (reqRx reqCorr seqId responder : Nat) (s : State) :
    Unstored s (execDlyRspReceive t port reqRx reqCorr seqId responder s) := by
  refine unstored_done ?_
  repeat' split
  all_goals simp -implicitDefEqProofs

theorem unstored_dlyTimeout (t : Nat) (port : Fin 4) (s : State) : Unstored s (execDlyTimeout t port s) :=
  unstored_done (by split <;> simp -implicitDefEqProofs)
theorem unstored_timeFrameForward (t : Nat) (port : Fin 4) (s : State) : Unstored s (execTimeFrameForward t port s) :=
  unstored_done (by split <;> simp -implicitDefEqProofs)
theorem unstored_syncLaunch (t : Nat) (s : State) : Unstored s (execSyncLaunch t s) := unstored_done (by simp -implicitDefEqProofs)
theorem unstored_adjHiWrite (t : Nat) (v : Word) (s : State) : Unstored s (execAdjHiWrite t v s) :=
  unstored_guard (unstored_done (by simp -implicitDefEqProofs))

/-! Machine/Recorder -/

theorem unstored_flushTrigger (t : Nat) (bit : Fin 7) (s : State) : Unstored s (execFlushTrigger t bit s) :=
  unstored_done (by simp -implicitDefEqProofs)
theorem unstored_recordFlush (t : Nat) (s : State) : Unstored s (execRecordFlush t s) :=
  unstored_guard (unstored_done (by simp -implicitDefEqProofs))

theorem unstored_eraseAhead (t : Nat) (s : State) : Unstored s (execEraseAhead t s) := by
  refine unstored_done ?_
  repeat' split
  all_goals simp -implicitDefEqProofs

theorem unstored_hoursTick (t : Nat) (s : State) : Unstored s (execHoursTick t s) := unstored_done (by simp -implicitDefEqProofs)
theorem unstored_nvRead (t : Nat) (s : State) : Unstored s (execNvRead t s) := unstored_guard (unstored_done (by simp -implicitDefEqProofs))
theorem unstored_nvProgram (t : Nat) (s : State) : Unstored s (execNvProgram t s) :=
  unstored_guard (unstored_done (by simp -implicitDefEqProofs))
theorem unstored_nvErase (t : Nat) (s : State) : Unstored s (execNvErase t s) := unstored_guard (unstored_done (by simp -implicitDefEqProofs))

/-! Machine/Power -/

theorem unstored_wakeEvent (t : Nat) (c : Fin 5) (s : State) : Unstored s (execWakeEvent t c s) := by
  refine unstored_done ?_
  repeat' split
  all_goals simp -implicitDefEqProofs

theorem unstored_wakeBlankEnd (t : Nat) (s : State) : Unstored s (execWakeBlankEnd t s) := unstored_done (by split <;> simp -implicitDefEqProofs)
theorem unstored_pgTimeout (t : Nat) (s : State) : Unstored s (execPgTimeout t s) := unstored_done (by simp -implicitDefEqProofs)
theorem unstored_pfail (t : Nat) (s : State) : Unstored s (execPfail t s) := unstored_done (by simp -implicitDefEqProofs)

/-! Machine/Events -/

theorem unstored_eventIntake (t : Nat) (s : State) : Unstored s (execEventIntake t s) := unstored_done (by simp -implicitDefEqProofs)
theorem unstored_eventDeliverable (t : Nat) (s : State) : Unstored s (execEventDeliverable t s) := unstored_done (by simp -implicitDefEqProofs)
theorem unstored_evtSend (t : Nat) (s : State) : Unstored s (execEvtSend t s) := unstored_done (by simp -implicitDefEqProofs)

/-! Machine/Knife -/

theorem unstored_knifeArmSet (t : Nat) (key : Nat) (mask : BitVec 16) (s : State) : Unstored s (execKnifeArmSet t key mask s) :=
  unstored_guard (unstored_done (by simp -implicitDefEqProofs))
theorem unstored_knifeClear (t : Nat) (key : Nat) (mask : BitVec 16) (s : State) : Unstored s (execKnifeClear t key mask s) :=
  unstored_guard (unstored_done (by simp -implicitDefEqProofs))

/-! Machine/Medium -/

theorem unstored_encoderEdge (t : Nat) (n : Fin 4) (a b z : Bool) (s : State) : Unstored s (execEncoderEdge t n a b z s) := by
  refine unstored_done ?_
  repeat' split
  all_goals simp -implicitDefEqProofs

theorem unstored_indexArm (t : Nat) (n : Fin 4) (s : State) : Unstored s (execIndexArm t n s) :=
  unstored_guard (unstored_done (by simp -implicitDefEqProofs))
theorem unstored_indexCapture (t : Nat) (n : Fin 4) (s : State) : Unstored s (execIndexCapture t n s) :=
  unstored_done (by simp -implicitDefEqProofs)
theorem unstored_targetRemove (t : Nat) (s : State) : Unstored s (execTargetRemove t s) := unstored_done (by simp -implicitDefEqProofs)

/-! Machine/Raster -/

theorem unstored_tileClose (t : Nat) (b : Fin 16) (s : State) : Unstored s (execTileClose t b s) :=
  unstored_done (by split <;> simp -implicitDefEqProofs)

/-! Machine/Sequencer -/

theorem unstored_chainStart (t : Nat) (b : Fin 16) (v : Word) (s : State) : Unstored s (execChainStart t b v s) :=
  unstored_guard (unstored_guard (unstored_doneDma (by simp -implicitDefEqProofs)))

theorem unstored_blockFetchRequest (t : Nat) (b : Fin 16) (pathB : Bool) (s : State) :
    Unstored s (execBlockFetchRequest t b pathB s) := by
  unfold execBlockFetchRequest
  extract_lets s1 x was q s2 s3
  refine unstored_doneDma ?_
  have h2 : s2.mem = s.mem := upTo_mem s t
  have h3 : s3.mem = s2.mem := by unfold s3; split <;> simp -implicitDefEqProofs
  split
  · split
    · split <;> simp -implicitDefEqProofs [h2]
    · split
      · exact h2
      · split
        · split
          · exact h3.trans h2
          · exact h2
        · exact h2
  · exact upTo_mem s t

theorem unstored_timedRecordEnd (t : Nat) (b : Fin 16) (s : State) : Unstored s (execTimedRecordEnd t b s) := by
  unfold execTimedRecordEnd
  extract_lets s1 tiles
  have h1 : s1.mem = s.mem := upTo_mem s t
  split
  · split
    · extract_lets s2 s3 s4 last s5
      have h2 : s2.mem = s1.mem := by simp -implicitDefEqProofs [s2]
      have h3 : s3.mem = s2.mem := by unfold s3; split <;> simp -implicitDefEqProofs
      have h5 : s5.mem = s4.mem := by simp -implicitDefEqProofs [s5]
      refine unstored_doneSeq b ?_
      calc (s5.proceed b).mem = s5.mem := by simp
        _ = s3.mem := h5
        _ = s.mem := h3.trans (h2.trans h1)
    · exact unstored_done h1
  · exact unstored_done h1

theorem unstored_waitComplete (t : Nat) (b : Fin 16) (s : State) : Unstored s (execWaitComplete t b s) := by
  unfold execWaitComplete
  extract_lets s1 p x
  have h1 : s1.mem = s.mem := upTo_mem s t
  split
  · extract_lets r
    split
    · split
      · extract_lets s2
        have h2 : s2.mem = s.mem := h1
        exact unstored_doneSeq b (by simp -implicitDefEqProofs [h2])
      · exact unstored_done h1
    · exact unstored_done h1
  · exact unstored_done h1

theorem unstored_headerFetched (t : Nat) (b : Fin 16) (s : State) : Unstored s (execHeaderFetched t b s) :=
  unstored_doneDma (by split <;> simp -implicitDefEqProofs)
theorem unstored_nextPoll (t : Nat) (b : Fin 16) (s : State) : Unstored s (execNextPoll t b s) :=
  unstored_doneDma (by split <;> simp -implicitDefEqProofs)

/-! Machine/Laser -/

theorem unstored_powerBurstStart (n : Nat) (half : Bool) (b : Fin 16) (s : State) : Unstored s (execPowerBurstStart n half b s) :=
  unstored_done (by simp -implicitDefEqProofs)

/-! Machine/Servo -/

theorem unstored_traceArm (t : Nat) (e : Fin 4) (s : State) : Unstored s (execTraceArm t e s) :=
  unstored_guard (unstored_done (by simp -implicitDefEqProofs))
theorem unstored_traceStop (t : Nat) (e : Fin 4) (s : State) : Unstored s (execTraceStop t e s) :=
  unstored_guard (unstored_done (by simp -implicitDefEqProofs))
theorem unstored_injectWrite (t : Nat) (e : Fin 4) (v : Word) (s : State) : Unstored s (execInjectWrite t e v s) :=
  unstored_guard (unstored_guard (unstored_guard (unstored_done (by simp -implicitDefEqProofs))))

/-! Machine/Heads -/

theorem unstored_sampleBDeadline (n : Nat) (s : State) : Unstored s (execSampleBDeadline n s) := unstored_done (by simp -implicitDefEqProofs)
theorem unstored_mbxSend (t : Nat) (h : Fin 16) (s : State) : Unstored s (execMbxSend t h s) :=
  unstored_guard (unstored_done (by simp -implicitDefEqProofs))
theorem unstored_mbxTimeout (t : Nat) (h : Fin 16) (s : State) : Unstored s (execMbxTimeout t h s) :=
  unstored_done (by simp -implicitDefEqProofs)

/-! Machine/Stepper -/

theorem unstored_planTick (q : Nat) (s : State) : Unstored s (execPlanTick q s) := unstored_guard (unstored_done (by simp -implicitDefEqProofs))
theorem unstored_stepTargetWrite (t : Nat) (n : Fin 8) (v : Word) (s : State) : Unstored s (execStepTargetWrite t n v s) :=
  unstored_guard (unstored_guard (unstored_done (by simp -implicitDefEqProofs)))

/-! Machine/Vision -/

theorem unstored_csiFrameEnd (t : Nat) (p : Fin 4) (vc : Fin 16) (corrected : Bool) (s : State) :
    Unstored s (execCsiFrameEnd t p vc corrected s) := by
  refine unstored_done ?_
  dsimp only
  split
  · split <;> simp -implicitDefEqProofs
  · simp -implicitDefEqProofs

theorem unstored_csiUnmatchedPacket (t : Nat) (p : Fin 4) (kind : CsiDiscard) (s : State) :
    Unstored s (execCsiUnmatchedPacket t p kind s) := by
  refine unstored_done ?_
  repeat' split
  all_goals simp -implicitDefEqProofs

theorem unstored_frameLimitExpiry (t : Nat) (k : Fin 32) (s : State) : Unstored s (execFrameLimitExpiry t k s) :=
  unstored_done (by split <;> simp -implicitDefEqProofs)

theorem unstored_csiLongPacket (t : Nat) (p : Fin 4) (vc : Fin 16) (dt : Fin 64) (l : List Byte) (crcOk corrected : Bool) (s : State) :
    Unstored s (execCsiLongPacket t p vc dt l crcOk corrected s) := by
  unfold execCsiLongPacket
  extract_lets s1 s0 s2
  have h1 : s1.mem = s.mem := by simp -implicitDefEqProofs [s1]
  split
  · have h2 : s2.mem = s.mem := by simp -implicitDefEqProofs [s2, s0, h1]
    split
    · exact unstored_done (by simp -implicitDefEqProofs [h2])
    · refine unstored_done ?_
      split <;> simp -implicitDefEqProofs [h2]
    · exact unstored_fault s _
  · exact unstored_done h1

theorem unstored_batchDeliver (n : Nat) (s : State) : Unstored s (execBatchDeliver n s) := by
  refine unstored_done ?_
  repeat' split
  all_goals simp -implicitDefEqProofs

theorem unstored_metLaunch (n : Nat) (s : State) : Unstored s (execMetLaunch n s) := unstored_done (by simp -implicitDefEqProofs)
theorem unstored_metReceive (t : Nat) (frame : Word) (count : Fin 5) (l : List Byte) (s : State) :
    Unstored s (execMetReceive t frame count l s) :=
  unstored_done (by simp -implicitDefEqProofs)

theorem unstored_triggerLaunch (t : Nat) (o : Fin 8) (s : State) : Unstored s (execTriggerLaunch t o s) := by
  unfold execTriggerLaunch
  extract_lets s1
  have h1 : s1.mem = s.mem := upTo_mem s t
  split
  · split
    · extract_lets s2
      have h2 : s2.mem = s1.mem := by simp -implicitDefEqProofs [s2]
      exact unstored_ite (unstored_done h1) (unstored_ite (unstored_done (h2.trans h1)) (unstored_fault s _))
    · exact unstored_done h1
  · exact unstored_done h1
  · exact unstored_fault s _

theorem unstored_triggerEnd (t : Nat) (o : Fin 8) (s : State) : Unstored s (execTriggerEnd t o s) :=
  unstored_done (by split <;> simp -implicitDefEqProofs)
theorem unstored_oneshotWrite (t : Nat) (k : Fin 32) (v : Word) (s : State) : Unstored s (execOneshotWrite t k v s) :=
  unstored_guard (unstored_guard (unstored_done (by simp -implicitDefEqProofs)))

theorem unstored_streamFrameSend (t : Nat) (k : Fin 32) (s : State) : Unstored s (execStreamFrameSend t k s) := by
  refine unstored_doneDma ?_
  repeat' split
  all_goals simp -implicitDefEqProofs

/-! Machine/Light -/

theorem unstored_syncAtWrite (t : Nat) (n : Fin 4) (v : Word) (s : State) : Unstored s (execSyncAtWrite t n v s) := by
  unfold execSyncAtWrite
  extract_lets s1 p hi s2 tick q
  refine unstored_guard (unstored_guard ?_)
  have h2 : s2.mem = s.mem := by simp -implicitDefEqProofs [s2, s1]
  refine unstored_ite (unstored_done ?_) (unstored_guard (unstored_ite (unstored_done ?_) (unstored_done ?_))) <;>
    simp -implicitDefEqProofs [h2]

theorem unstored_lightSyncBurst (t : Nat) (n : Fin 4) (r0 r1 r2 : Word) (s : State) : Unstored s (execLightSyncBurst t n r0 r1 r2 s) :=
  unstored_done (by split <;> simp -implicitDefEqProofs)

theorem unstored_cmdHdrWrite (t : Nat) (n : Fin 4) (v : Word) (s : State) : Unstored s (execCmdHdrWrite t n v s) := by
  unfold execCmdHdrWrite
  extract_lets s1 p w a
  have h1 : s1.mem = s.mem := by simp -implicitDefEqProofs [s1]
  refine unstored_guard (unstored_guard (unstored_guard (unstored_ite (unstored_done ?_) (unstored_done ?_)))) <;>
    simp -implicitDefEqProofs [h1]

theorem unstored_lightBurst (t : Nat) (n : Fin 4) (r0 r1 r2 : Word) (s : State) : Unstored s (execLightBurst t n r0 r1 r2 s) := by
  refine unstored_done ?_
  repeat' split
  all_goals simp -implicitDefEqProofs

theorem unstored_tempPoll (t : Nat) (n : Fin 4) (s : State) : Unstored s (execTempPoll t n s) := unstored_done (by simp -implicitDefEqProofs)
theorem unstored_keepAlive (t : Nat) (n : Fin 4) (s : State) : Unstored s (execKeepAlive t n s) := unstored_done (by simp -implicitDefEqProofs)
theorem unstored_respPop (t : Nat) (n : Fin 4) (s : State) : Unstored s (execRespPop t n s) :=
  unstored_guard (unstored_done (by simp -implicitDefEqProofs))

/-! Machine/Banks -/

theorem unstored_bankEccWriteback (t : Nat) (b : Fin 20) (off : Nat) (s : State) : Unstored s (execBankEccWriteback t b off s) :=
  unstored_done (by simp -implicitDefEqProofs)
theorem unstored_failClear (t : Nat) (s : State) : Unstored s (execFailClear t s) :=
  unstored_guard (unstored_done (by simp -implicitDefEqProofs))

/-! Machine/Dram -/

theorem unstored_agePromotion (t : Nat) (i : Fin 2) (s : State) : Unstored s (execAgePromotion t i s) :=
  unstored_done (by simp -implicitDefEqProofs)
theorem unstored_pageIdleClose (t : Nat) (i : Fin 2) (b : Fin 16) (s : State) : Unstored s (execPageIdleClose t i b s) :=
  unstored_done (by split <;> simp -implicitDefEqProofs)
theorem unstored_refreshDue (t : Nat) (i : Fin 2) (b : Fin 16) (s : State) : Unstored s (execRefreshDue t i b s) :=
  unstored_done (by simp -implicitDefEqProofs)
theorem unstored_mr4Poll (t : Nat) (i : Fin 2) (rate : Vector (Fin 32) 2) (hot : Bool) (s : State) :
    Unstored s (execMr4Poll t i rate hot s) :=
  unstored_done (by simp -implicitDefEqProofs)
theorem unstored_dramEccWriteback (t : Nat) (addr : Nat) (s : State) : Unstored s (execDramEccWriteback t addr s) :=
  unstored_done (by simp -implicitDefEqProofs)
theorem unstored_retrain (t : Nat) (mask : Fin 4) (s : State) : Unstored s (execRetrain t mask s) :=
  unstored_guard (unstored_done (by simp -implicitDefEqProofs))

/-! Machine/Calib -/

theorem unstored_calCommand (t op target : Nat) (s : State) : Unstored s (calCommand t op target s) :=
  unstored_guard (unstored_done (by simp -implicitDefEqProofs))

theorem unstored_calDelay (t : Nat) (target : Fin 32) (s : State) : Unstored s (execCalDelay t target s) := unstored_calCommand t 1 target s
theorem unstored_calSensor (t : Nat) (s : State) : Unstored s (execCalSensor t s) := unstored_calCommand t 2 0 s
theorem unstored_calLane (t : Nat) (target : Fin 32) (s : State) : Unstored s (execCalLane t target s) := unstored_calCommand t 3 target s
theorem unstored_calSave (t : Nat) (s : State) : Unstored s (execCalSave t s) := unstored_calCommand t 4 0 s

theorem unstored_calDone (t : Nat) (cells : Vector (Vector (Option (BitVec 16)) 24) 32) (segP segN : Vector (Option Word) 16) (ok : Bool)
    (s : State) : Unstored s (execCalDone t cells segP segN ok s) := by
  refine unstored_done ?_
  repeat' split
  all_goals simp -implicitDefEqProofs

theorem unstored_bistDone (t : Nat) (sigs : Vector Word 20) (banks : List (Fin 20)) (rows : List (Fin 8192)) (s : State) :
    Unstored s (execBistDone t sigs banks rows s) :=
  unstored_done (by split <;> simp -implicitDefEqProofs)

/-! Machine/Diptych -/

theorem unstored_pairFormFrame (n : Nat) (s : State) : Unstored s (execPairFormFrame n s) := unstored_done (by simp -implicitDefEqProofs)
theorem unstored_formEchoDeadline (t : Nat) (s : State) : Unstored s (execFormEchoDeadline t s) :=
  unstored_done (by split <;> simp -implicitDefEqProofs)
theorem unstored_digestReceive (t : Nat) (frame w2 digest : Word) (s : State) : Unstored s (execDigestReceive t frame w2 digest s) :=
  unstored_done (by simp -implicitDefEqProofs)
theorem unstored_handover (t : Nat) (key : BitVec 8) (s : State) : Unstored s (execHandover t key s) :=
  unstored_guard (unstored_done (by simp -implicitDefEqProofs))
theorem unstored_mirrorTxnReceive (t : Nat) (arr : BitVec 48) (port : Fin 2) (op : Fin 4) (tag : BitVec 16)
    (addr : BitVec 40) (count : Fin 256) (cross : Bool) (data : List Byte) (s : State) :
    Unstored s (execMirrorTxnReceive t arr port op tag addr count cross data s) :=
  unstored_done (by simp -implicitDefEqProofs)
theorem unstored_mirrorMediumLaunch (n : Nat) (s : State) : Unstored s (execMirrorMediumLaunch n s) :=
  unstored_done (by simp -implicitDefEqProofs)
theorem unstored_mirrorMediumReceive (t : Nat) (frame : Word) (words : Vector (BitVec 64) 4) (s : State) :
    Unstored s (execMirrorMediumReceive t frame words s) :=
  unstored_done (by simp -implicitDefEqProofs)

/-! Machine/Header -/

theorem unstored_eventClear (t : Nat) (p : Fin 256) (bits : Word) (s : State) : Unstored s (execEventClear t p bits s) :=
  unstored_guard (unstored_guard (unstored_done (by simp -implicitDefEqProofs)))
theorem unstored_eventForce (t : Nat) (p : Fin 256) (bits : Word) (s : State) : Unstored s (execEventForce t p bits s) :=
  unstored_guard (unstored_guard (unstored_done (by simp -implicitDefEqProofs)))
theorem unstored_commit (t : Nat) (p : Fin 256) (s : State) : Unstored s (execCommit t p s) :=
  unstored_onPage (unstored_done (by simp -implicitDefEqProofs))
theorem unstored_snapshotTake (t : Nat) (p : Fin 256) (s : State) : Unstored s (execSnapshotTake t p s) :=
  unstored_onPage (unstored_done (by simp -implicitDefEqProofs))

theorem unstored_shadowTransfer (t : Nat) (p : Fin 256) (s : State) : Unstored s (execShadowTransfer t p s) := by
  unfold execShadowTransfer
  extract_lets s1 s2
  have h1 : s1.mem = s.mem := upTo_mem s t
  have h2 : s2.mem = s.mem := by simp -implicitDefEqProofs [s2, h1]
  refine unstored_ite (unstored_done h1) (unstored_guard (unstored_guard (unstored_done ?_)))
  simp -implicitDefEqProofs [h2]

/-! Machine/Host -/

theorem unstored_registerReadClear (t addr : Nat) (s : State) : Unstored s (execRegisterReadClear t addr s) := by
  unfold execRegisterReadClear
  extract_lets s1
  split
  · exact unstored_fault s _
  · exact unstored_done (by simp -implicitDefEqProofs [s1])

theorem unstored_fenceComplete (t : Nat) (port : Fin 2) (s : State) : Unstored s (execFenceComplete t port s) :=
  unstored_done (by split <;> simp -implicitDefEqProofs)
theorem unstored_cplSend (t : Nat) (port : Fin 2) (s : State) : Unstored s (execCplSend t port s) :=
  unstored_done (by split <;> simp -implicitDefEqProofs)

/-- Settles O11, by the commands: each of them is one effect that leaves the table of bytes as it was. -/
theorem nothingStored : Obligations.NothingStored := by
  unfold Obligations.NothingStored
  intro c s hc
  show Unstored s (exec c s)
  cases c with
  | candidateQualified t c => exact unstored_candidateQualified t c _
  | holdLock t => exact unstored_holdLock t _
  | coastExitLock t ok => exact unstored_coastExitLock t ok _
  | fmeasStart t => exact unstored_fmeasStart t _
  | fmeasDone t n => exact unstored_fmeasDone t n _
  | fmeasTimeout t => exact unstored_fmeasTimeout t _
  | launch t l => exact unstored_launch t l _
  | laneActivity t q => exact unstored_laneActivity t q _
  | clockPatternEnd t l => exact unstored_clockPatternEnd t l _
  | txTimingSwitch t l => exact unstored_txTimingSwitch t l _
  | idleSend t l => exact unstored_idleSend t l _
  | stepCtrlGo t l rate => exact unstored_stepCtrlGo t l rate _
  | stepAckDeadline t l => exact unstored_stepAckDeadline t l _
  | stepQuiesce t l => exact unstored_stepQuiesce t l _
  | loopCtrlWrite t l v => exact unstored_loopCtrlWrite t l v _
  | loopInject t l => exact unstored_loopInject t l _
  | loopClear t l => exact unstored_loopClear t l _
  | prbsSyncGain t r => exact unstored_prbsSyncGain t r _
  | prbsSyncLoss t l => exact unstored_prbsSyncLoss t l _
  | prbsBitError t r => exact unstored_prbsBitError t r _
  | dlyReqLaunch n => exact unstored_dlyReqLaunch n _
  | dlyReqReceive t port txTime seqId senderId => exact unstored_dlyReqReceive t port txTime seqId senderId _
  | dlyRspReceive t port reqRx reqCorr seqId responder => exact unstored_dlyRspReceive t port reqRx reqCorr seqId responder _
  | dlyTimeout t port => exact unstored_dlyTimeout t port _
  | timeFrameForward t port => exact unstored_timeFrameForward t port _
  | syncLaunch t => exact unstored_syncLaunch t _
  | adjHiWrite t v => exact unstored_adjHiWrite t v _
  | flushTrigger t bit => exact unstored_flushTrigger t bit _
  | recordFlush t => exact unstored_recordFlush t _
  | eraseAhead t => exact unstored_eraseAhead t _
  | hoursTick t => exact unstored_hoursTick t _
  | nvRead t => exact unstored_nvRead t _
  | nvProgram t => exact unstored_nvProgram t _
  | nvErase t => exact unstored_nvErase t _
  | wakeEvent t c => exact unstored_wakeEvent t c _
  | wakeBlankEnd t => exact unstored_wakeBlankEnd t _
  | pgTimeout t => exact unstored_pgTimeout t _
  | pfail t => exact unstored_pfail t _
  | eventIntake t => exact unstored_eventIntake t _
  | eventDeliverable t => exact unstored_eventDeliverable t _
  | evtSend t => exact unstored_evtSend t _
  | knifeArmSet t key mask => exact unstored_knifeArmSet t key mask _
  | knifeClear t key mask => exact unstored_knifeClear t key mask _
  | encoderEdge t n a b z => exact unstored_encoderEdge t n a b z _
  | indexArm t n => exact unstored_indexArm t n _
  | indexCapture t n => exact unstored_indexCapture t n _
  | targetRemove t => exact unstored_targetRemove t _
  | tileClose t b => exact unstored_tileClose t b _
  | chainStart t b v => exact unstored_chainStart t b v _
  | blockFetchRequest t b pathB => exact unstored_blockFetchRequest t b pathB _
  | timedRecordEnd t b => exact unstored_timedRecordEnd t b _
  | waitComplete t b => exact unstored_waitComplete t b _
  | headerFetched t b => exact unstored_headerFetched t b _
  | nextPoll t b => exact unstored_nextPoll t b _
  | powerBurstStart n half b => exact unstored_powerBurstStart n half b _
  | traceArm t e => exact unstored_traceArm t e _
  | traceStop t e => exact unstored_traceStop t e _
  | injectWrite t e v => exact unstored_injectWrite t e v _
  | sampleBDeadline n => exact unstored_sampleBDeadline n _
  | mbxSend t h => exact unstored_mbxSend t h _
  | mbxTimeout t h => exact unstored_mbxTimeout t h _
  | planTick q => exact unstored_planTick q _
  | stepTargetWrite t n v => exact unstored_stepTargetWrite t n v _
  | csiFrameEnd t p vc corrected => exact unstored_csiFrameEnd t p vc corrected _
  | csiUnmatchedPacket t p kind => exact unstored_csiUnmatchedPacket t p kind _
  | frameLimitExpiry t k => exact unstored_frameLimitExpiry t k _
  | csiLongPacket t p vc dt l crcOk corrected => exact unstored_csiLongPacket t p vc dt l crcOk corrected _
  | batchDeliver n => exact unstored_batchDeliver n _
  | metLaunch n => exact unstored_metLaunch n _
  | metReceive t frame count l => exact unstored_metReceive t frame count l _
  | triggerLaunch t o => exact unstored_triggerLaunch t o _
  | triggerEnd t o => exact unstored_triggerEnd t o _
  | oneshotWrite t k v => exact unstored_oneshotWrite t k v _
  | streamFrameSend t k => exact unstored_streamFrameSend t k _
  | syncAtWrite t n v => exact unstored_syncAtWrite t n v _
  | lightSyncBurst t n r0 r1 r2 => exact unstored_lightSyncBurst t n r0 r1 r2 _
  | cmdHdrWrite t n v => exact unstored_cmdHdrWrite t n v _
  | lightBurst t n r0 r1 r2 => exact unstored_lightBurst t n r0 r1 r2 _
  | tempPoll t n => exact unstored_tempPoll t n _
  | keepAlive t n => exact unstored_keepAlive t n _
  | respPop t n => exact unstored_respPop t n _
  | bankEccWriteback t b off => exact unstored_bankEccWriteback t b off _
  | failClear t => exact unstored_failClear t _
  | agePromotion t x => exact unstored_agePromotion t x _
  | pageIdleClose t x b => exact unstored_pageIdleClose t x b _
  | refreshDue t x b => exact unstored_refreshDue t x b _
  | mr4Poll t x rate hot => exact unstored_mr4Poll t x rate hot _
  | dramEccWriteback t addr => exact unstored_dramEccWriteback t addr _
  | retrain t mask => exact unstored_retrain t mask _
  | calDelay t target => exact unstored_calDelay t target _
  | calSensor t => exact unstored_calSensor t _
  | calLane t target => exact unstored_calLane t target _
  | calSave t => exact unstored_calSave t _
  | calDone t cells segP segN ok => exact unstored_calDone t cells segP segN ok _
  | bistDone t sigs banks rows => exact unstored_bistDone t sigs banks rows _
  | pairFormFrame n => exact unstored_pairFormFrame n _
  | formEchoDeadline t => exact unstored_formEchoDeadline t _
  | digestReceive t frame w2 digest => exact unstored_digestReceive t frame w2 digest _
  | handover t key => exact unstored_handover t key _
  | mirrorTxnReceive t arr port op tag addr count cross data => exact unstored_mirrorTxnReceive t arr port op tag addr count cross data _
  | mirrorMediumLaunch n => exact unstored_mirrorMediumLaunch n _
  | mirrorMediumReceive t frame words => exact unstored_mirrorMediumReceive t frame words _
  | eventClear t p bits => exact unstored_eventClear t p bits _
  | eventForce t p bits => exact unstored_eventForce t p bits _
  | commit t p => exact unstored_commit t p _
  | snapshotTake t p => exact unstored_snapshotTake t p _
  | shadowTransfer t p => exact unstored_shadowTransfer t p _
  | registerReadClear t addr => exact unstored_registerReadClear t addr _
  | fenceComplete t port => exact unstored_fenceComplete t port _
  | cplSend t port => exact unstored_cplSend t port _
  | registerWrite | ctrlEnWrite | softReset | blockSequenceEnd | blockTransitCycleEnd | txnRead | txnWrite | domainCtrlWrite | nvTimeout
  | txnWritePosted | txnFence | frameReceive | cdrLock | frameLock | capReceive | bringupPhaseTimeout | frameLockLoss | stepLaunch
  | stepRelockTimeout | missingEdge | freqWindowEnd | holdExpired | safeHoldClear | frameStart | exchangeCut | headDnLaunch
  | headUpReceive | sampleADeadline | syncReceive | syncLoss | vddAonPor | vddAonLoss | pgInHigh | pgInLow | primerLinkReady
  | linkWaitTimeout | primerDone | resetLAssert | resetLRelease | deviceCommand | deviceCommandRestart | dormantCommand
  | domainSwitchOnDone | domainSwitchOffDone | sysStart | sheetBoundary | lateSheetTakesEffect | blockArrival | gateEdge
  | twinUnpairedTimeout | glazeCompute | powerWordLatch | laserReadyChange | laserFaultChange | parkEnd | parkTimeout | estimatorUpdate
  | rasterFetchDone | swatchCompare | engineFrameStart | upFrameCheck | stepperHoldEnd | csiFrameStart | pipelinePacket | recordReady
  | ilkDepart | ilkReturn | discTimeout | knifeDisarm | knifeTest | permitStart | pairLock | mirrorApply | digestLaunch | takeoverEval
  | dramCommandIssue | trainingDone | sensorRoundEnd | graceExpiry | heldSheetRelease | shutdownPowerOff | minGapExpiry | flushStart
  | flushDone | clearAcc | nvCmdDone | bistLogic | bistMemory | capSend | frameRecordsComplete | bgRowStart | bgRowDone | timedRecordStart
  | tapClock | tapReset | eraseDone =>
    exact nomatch hc

end Sys2Proof.Proofs
end
section
/-! PROOFS. What the operations of the units leave of a page's header (R34 to R41): the words of CTRL, STATE and EVENT_MASK, and which domains are
on. An operation that moves blocks leaves the header of every page but theirs. -/

namespace Sys2Proof.Proofs

open Sys2Proof.Machine Sys2Proof.Laws

/-- The words that a page's header acts by: CTRL, STATE and EVENT_MASK of page `p`, and what shows the switched domains on. -/
def headWords (p : Nat) (r : List (Nat × Word)) : Word × Word × Word × Word :=
  (tabGet resetWord r (regAddr p 0x008), tabGet resetWord r (regAddr p 0x00C), tabGet resetWord r (regAddr p 0x014),
    tabGet resetWord r (regAddr Pg.PWR 0x044))

/-- The field lies in no word that `headWords` reads. -/
def OffHead (fl : Fld) : Bool := decide (fl.off < 0x1000) && !([0x008, 0x00C, 0x014, 0x044] : List Nat).contains fl.off

/-- Page `p` belongs to no brush and to no axis: no fault of a link or of a head moves its block. -/
structure Still (p : Nat) : Prop where
  off_brush : p < 0x30 ∨ 0x40 ≤ p
  off_axis : p < 0x80 ∨ 0xC0 ≤ p

theorem Still.brush {p : Nat} (h : Still p) (b : Fin 16) : Pg.BRUSH b ≠ p := by have := h.off_brush; simp only [Pg.BRUSH]; omega

theorem Still.axis {p a : Nat} (h : Still p) (ha : a < 64) : Pg.AXIS a ≠ p := by have := h.off_axis; simp only [Pg.AXIS]; omega

section
variable {p : Nat} {s : State}

@[simp] theorem setF_head (q : Nat) {fl : Fld} (v : Nat) (hfl : OffHead fl = true) : headWords p (s.setF q fl v).regs = headWords p s.regs := by
  obtain ⟨hlt, h8, hC, h14, h44⟩ : fl.off < 0x1000 ∧ fl.off ≠ 0x008 ∧ fl.off ≠ 0x00C ∧ fl.off ≠ 0x014 ∧ fl.off ≠ 0x044 := by
    simpa [OffHead] using hfl
  have h {r o : Nat} (ho : o < 0x1000) (hne : fl.off ≠ o) : (s.setF q fl v).word (regAddr r o) = s.word (regAddr r o) :=
    word_setF_other s q fl v _ fun he => hne ((regAddr_inj ho hlt).mp he).2.symm
  exact congrArg₂ Prod.mk (h (by decide) h8) (congrArg₂ Prod.mk (h (by decide) hC) (congrArg₂ Prod.mk (h (by decide) h14) (h (by decide) h44)))

theorem setF_head_status {q : Nat} (hq : q ≠ Pg.PWR) {fl : Fld} (v : Nat) (hfl : fl.off = 0x044) :
    headWords p (s.setF q fl v).regs = headWords p s.regs := by
  have h {r o : Nat} (ho : o < 0x1000) (hne : r = q → o ≠ 0x044) : (s.setF q fl v).word (regAddr r o) = s.word (regAddr r o) :=
    word_setF_other s q fl v _ fun he => by
      obtain ⟨hr, hof⟩ := (regAddr_inj ho (by omega)).mp he
      exact hne hr (hof.trans hfl)
  exact congrArg₂ Prod.mk (h (by decide) fun _ => by decide) (congrArg₂ Prod.mk (h (by decide) fun _ => by decide)
    (congrArg₂ Prod.mk (h (by decide) fun _ => by decide) (h (by decide) fun he => absurd he.symm hq)))

theorem setF_head_other {q : Nat} (hq : q ≠ p) {fl : Fld} (v : Nat) (hfl : fl.off < 0x040) :
    headWords p (s.setF q fl v).regs = headWords p s.regs := by
  have hlt : fl.off < 0x1000 := by omega
  have h {o : Nat} (ho : o < 0x1000) : (s.setF q fl v).word (regAddr p o) = s.word (regAddr p o) :=
    word_setF_other s q fl v _ fun he => hq ((regAddr_inj ho hlt).mp he).1.symm
  have h44 : (s.setF q fl v).word (regAddr Pg.PWR 0x044) = s.word (regAddr Pg.PWR 0x044) :=
    word_setF_other s q fl v _ fun he => by have := ((regAddr_inj (by decide) hlt).mp he).2; omega
  exact congrArg₂ Prod.mk (h (by decide)) (congrArg₂ Prod.mk (h (by decide)) (congrArg₂ Prod.mk (h (by decide)) h44))

/-- A field of a numbered family that lies after DOMAIN_STATUS's offset. -/
theorem offHead_num {fl : Fld} {k : Nat} (hlo : 0x044 < fl.off) (hhi : fl.off + k * fl.stride < 0x1000) : OffHead (fl.num k) = true := by
  have hne (o : Nat) (ho : o ≤ 0x044) : fl.off + k * fl.stride ≠ o := by omega
  simp [OffHead, Fld.num, hhi, hne]

@[simp] theorem setCause_head (q v : Nat) (n : Fin 16) : headWords p (s.setF q (Reg.KNIFE_CAUSE_LATCHED.num n) v).regs = headWords p s.regs :=
  setF_head q v (offHead_num (by decide) (by simp [Reg.KNIFE_CAUSE_LATCHED]; omega))

@[simp] theorem ite_head (c : Prop) [Decidable c] (u : State) :
    headWords p (if c then s else u).regs = if c then headWords p s.regs else headWords p u.regs := apply_ite (fun x : State => headWords p x.regs) c s u

@[simp] theorem when_head (c : Bool) (g : State → State) : headWords p (s.when c g).regs = if c then headWords p (g s).regs else headWords p s.regs :=
  apply_ite (fun x : State => headWords p x.regs) (c = true) (g s) s

theorem each_head {α : Type} {g : State → α → State} (l : List α) (h : ∀ s, ∀ x ∈ l, headWords p (g s x).regs = headWords p s.regs) :
    headWords p (s.each l g).regs = headWords p s.regs := by
  induction l generalizing s with
  | nil => rfl
  | cons x r ih => exact (ih fun s y hy => h s y (List.mem_cons_of_mem x hy)).trans (h s x List.mem_cons_self)

@[simp] theorem setB_head (q : Nat) {fl : Fld} (v : Bool) (hfl : OffHead fl = true) : headWords p (s.setB q fl v).regs = headWords p s.regs :=
  setF_head q _ hfl
@[simp] theorem inc_head (q : Nat) {fl : Fld} (n : Nat) (hfl : OffHead fl = true) : headWords p (s.inc q fl n).regs = headWords p s.regs :=
  setF_head q _ hfl
@[simp] theorem setPair_head (q : Nat) {lo hi : Fld} (v : Nat) (hlo : OffHead lo = true) (hhi : OffHead hi = true) : headWords p (s.setPair q lo hi v).regs = headWords p s.regs :=
  (setF_head q _ hhi).trans (setF_head q _ hlo)
@[simp] theorem incPair_head (q : Nat) {lo hi : Fld} (n : Nat) (hlo : OffHead lo = true) (hhi : OffHead hi = true) : headWords p (s.incPair q lo hi n).regs = headWords p s.regs :=
  setPair_head q _ hlo hhi
@[simp] theorem offer_head (src stamp : Nat) : headWords p (s.offer src stamp).regs = headWords p s.regs :=
  by simp -implicitDefEqProofs (disch := decide) [State.offer]
@[simp] theorem event_head (q k stamp : Nat) : headWords p (s.event q k stamp).regs = headWords p s.regs :=
  by simp -implicitDefEqProofs (disch := decide) [State.event, State.markEv]
@[simp] theorem ev_bang_head (q k : Nat) : headWords p (s.ev! q k).regs = headWords p s.regs :=
  by simp -implicitDefEqProofs (disch := decide) [State.ev!]
@[simp] theorem sticky_head (q k stamp : Nat) : headWords p (s.sticky q k stamp).regs = headWords p s.regs :=
  by simp -implicitDefEqProofs (disch := decide) [State.sticky]
@[simp] theorem sticky_bang_head (q k : Nat) : headWords p (s.sticky! q k).regs = headWords p s.regs :=
  by simp -implicitDefEqProofs (disch := decide) [State.sticky!]
@[simp] theorem calAbandon_head (op : Nat) : headWords p (s.calAbandon op).regs = headWords p s.regs :=
  by simp -implicitDefEqProofs (disch := decide) [State.calAbandon]
@[simp] theorem calWatch_head : headWords p (s.calWatch).regs = headWords p s.regs := by
  unfold State.calWatch
  split <;> simp -implicitDefEqProofs (disch := decide)
@[simp] theorem declareNow_head : headWords p (s.declareNow).regs = headWords p s.regs := by
  unfold State.declareNow
  split <;> simp -implicitDefEqProofs (disch := decide)
@[simp] theorem declare_head (bit : Nat) : headWords p (s.declare bit).regs = headWords p s.regs :=
  by simp -implicitDefEqProofs (disch := decide) [State.declare]
@[simp] theorem setBytes_head (a : Nat) (l : List Byte) : headWords p (s.setBytes a l).regs = headWords p s.regs :=
  congrArg (headWords p) (setBytes_regs l s a)
@[simp] theorem accPut_head (o k n : Nat) : headWords p (s.accPut o k n).regs = headWords p s.regs :=
  by simp -implicitDefEqProofs (disch := decide) [State.accPut, State.wrMem]
@[simp] theorem bankFinds_head {acc : State → Nat → State} (h : ∀ s o, headWords p (acc s o).regs = headWords p s.regs) (off n : Nat) : headWords p (s.bankFinds acc 18 off n).regs = headWords p s.regs :=
  by simp -implicitDefEqProofs (disch := decide) [State.bankFinds, h]
@[simp] theorem accClean_head (o n : Nat) : headWords p (s.accClean o n).regs = headWords p s.regs :=
  each_head _ fun _ e _ => by simp -implicitDefEqProofs (disch := decide) [State.wrMem, bankFinds_head fun _ _ => accPut_head _ _ _]
@[simp] theorem accAdd_head (o k n : Nat) : headWords p (s.accAdd o k n).regs = headWords p s.regs :=
  by simp -implicitDefEqProofs (disch := decide) [State.accAdd]
@[simp] theorem pinShow_head (n : Fin 16) (was : Bool) : headWords p (s.pinShow n was).regs = headWords p s.regs :=
  by simp -implicitDefEqProofs (disch := decide) [State.pinShow]
@[simp] theorem pins_head (n : Fin 16) : headWords p (s.pins n).regs = headWords p s.regs :=
  by simp -implicitDefEqProofs (disch := decide) [State.pins]
@[simp] theorem allPins_head : headWords p (s.allPins).regs = headWords p s.regs := each_head _ fun _ n _ => pins_head n
@[simp] theorem gateTime_head (n : Fin 16) : headWords p (s.gateTime n).regs = headWords p s.regs :=
  by simp -implicitDefEqProofs (disch := decide) [State.gateTime]
@[simp] theorem gateTimes_head : headWords p (s.gateTimes).regs = headWords p s.regs := each_head _ fun _ n _ => gateTime_head n
@[simp] theorem refreshEn_head (q : Nat) (hq : q ≠ p) : headWords p (s.refreshEn q).regs = headWords p s.regs := setF_head_other hq _ (by decide)
@[simp] theorem setState_head (q v stamp : Nat) (hq : q ≠ p) : headWords p (s.setState q v stamp).regs = headWords p s.regs := by
  unfold State.setState
  split
  · exact refreshEn_head q hq
  · simp -implicitDefEqProofs (disch := decide) [refreshEn_head q hq, setF_head_other hq]
@[simp] theorem expose_head (b : Fin 16) : headWords p (s.expose b).regs = headWords p s.regs := by
  unfold State.expose
  split <;> simp -implicitDefEqProofs (disch := decide)
@[simp] theorem exposeAt_head (q : Nat) : headWords p (s.exposeAt q).regs = headWords p s.regs := by
  unfold State.exposeAt
  split <;> simp -implicitDefEqProofs (disch := decide)
@[simp] theorem enter_head (q v stamp : Nat) (hq : q ≠ p) : headWords p (s.enter q v stamp).regs = headWords p s.regs :=
  (exposeAt_head q).trans (setState_head q v stamp hq)
@[simp] theorem blockFault_head (q stamp : Nat) (hq : q ≠ p) : headWords p (s.blockFault q stamp).regs = headWords p s.regs :=
  by simp -implicitDefEqProofs (disch := decide) [State.blockFault, enter_head q stFault stamp hq]
@[simp] theorem showRing_head (b : Fin 16) : headWords p (s.showRing b).regs = headWords p s.regs :=
  by simp -implicitDefEqProofs (disch := decide) [State.showRing]
@[simp] theorem dropLines_head (b : Fin 16) (keep : RLine → Bool) : headWords p (s.dropLines b keep).regs = headWords p s.regs :=
  by simp -implicitDefEqProofs (disch := decide) [State.dropLines]
@[simp] theorem dropEdges_head (n : Fin 16) : headWords p (s.dropEdges n).regs = headWords p s.regs :=
  by simp -implicitDefEqProofs (disch := decide) [State.dropEdges]
@[simp] theorem brushFault_head (b : Fin 16) (cause stamp : Nat) (hq : Pg.BRUSH b ≠ p) : headWords p (s.brushFault b cause stamp).regs = headWords p s.regs :=
  by simp -implicitDefEqProofs (disch := decide) [State.brushFault, blockFault_head _ stamp hq]
@[simp] theorem evStat_head : headWords p (s.evStat).regs = headWords p s.regs :=
  by simp -implicitDefEqProofs (disch := decide) [State.evStat, setF_head_status]
@[simp] theorem lightShow_head (n : Fin 4) : headWords p (s.lightShow n).regs = headWords p s.regs :=
  by simp -implicitDefEqProofs (disch := decide) [State.lightShow]
@[simp] theorem lightOff_head (n : Fin 4) : headWords p (s.lightOff n).regs = headWords p s.regs :=
  by simp -implicitDefEqProofs (disch := decide) [State.lightOff]
@[simp] theorem trainShow_head (phase : Nat) : headWords p (s.trainShow phase).regs = headWords p s.regs :=
  by simp -implicitDefEqProofs (disch := decide) [State.trainShow]
@[simp] theorem trainBegin_head (mask : Nat) (again : Bool) : headWords p (s.trainBegin mask again).regs = headWords p s.regs :=
  by simp -implicitDefEqProofs (disch := decide) [State.trainBegin]
@[simp] theorem showEnforced_head : headWords p (s.showEnforced).regs = headWords p s.regs :=
  by simp -implicitDefEqProofs (disch := decide) [State.showEnforced]
@[simp] theorem dramStart_head (i : Fin 2) : headWords p (s.dramStart i).regs = headWords p s.regs :=
  by simp -implicitDefEqProofs (disch := decide) [State.dramStart]
@[simp] theorem trainWaiting_head : headWords p (s.trainWaiting).regs = headWords p s.regs :=
  by simp -implicitDefEqProofs (disch := decide) [State.trainWaiting]
@[simp] theorem flushOver_head (fl : Flush) : headWords p (s.flushOver fl).regs = headWords p s.regs :=
  by simp -implicitDefEqProofs (disch := decide) [State.flushOver]
@[simp] theorem abandonFlush_head (fl : Flush) : headWords p (s.abandonFlush fl).regs = headWords p s.regs :=
  by simp -implicitDefEqProofs (disch := decide) [State.abandonFlush]
@[simp] theorem trigger_head (bit : Nat) : headWords p (s.trigger bit).regs = headWords p s.regs := by
  simp only [State.trigger]
  repeat' split
  all_goals simp -implicitDefEqProofs (disch := decide)
@[simp] theorem unoffer_head (src : Nat) : headWords p (s.unoffer src).regs = headWords p s.regs := rfl
@[simp] theorem unclear_head (n : Fin 16) : headWords p (s.unclear n).regs = headWords p s.regs := by
  unfold State.unclear
  split <;> simp -implicitDefEqProofs (disch := decide)
@[simp] theorem latchOne_head (n : Fin 16) (c stamp : Nat) : headWords p (s.latchOne n c stamp).regs = headWords p s.regs :=
  by simp -implicitDefEqProofs (disch := decide) [State.latchOne]
@[simp] theorem latchCause_head (scope : List (Fin 16)) (c stamp : Nat) : headWords p (s.latchCause scope c stamp).regs = headWords p s.regs := by
  unfold State.latchCause
  simp -implicitDefEqProofs (disch := decide) [each_head scope fun _ n _ => latchOne_head n c stamp]
@[simp] theorem clearBrushRegs_head (b : Fin 16) : headWords p (s.clearBrushRegs b).regs = headWords p s.regs :=
  by simp -implicitDefEqProofs (disch := decide) [State.clearBrushRegs]
@[simp] theorem brushStarts_head (b : Fin 16) : headWords p (s.brushStarts b).regs = headWords p s.regs :=
  by simp -implicitDefEqProofs (disch := decide) [State.brushStarts]
@[simp] theorem endForce_head (b : Fin 16) : headWords p (s.endForce b).regs = headWords p s.regs :=
  by simp -implicitDefEqProofs (disch := decide) [State.endForce]
@[simp] theorem truncateOpen_head (k : Fin 32) : headWords p (s.truncateOpen k).regs = headWords p s.regs :=
  by simp -implicitDefEqProofs (disch := decide) [State.truncateOpen]
@[simp] theorem streamOn_head (k : Fin 32) : headWords p (s.streamOn k).regs = headWords p s.regs :=
  by simp -implicitDefEqProofs (disch := decide) [State.streamOn]
@[simp] theorem abandonImage_head (k : Fin 32) : headWords p (s.abandonImage k).regs = headWords p s.regs :=
  by simp -implicitDefEqProofs (disch := decide) [State.abandonImage]
@[simp] theorem hostPortGone_head (l : Nat) : headWords p (s.hostPortGone l).regs = headWords p s.regs :=
  each_head _ fun _ k _ => by simp -implicitDefEqProofs (disch := decide)
@[simp] theorem headFresh_head (h : Fin 16) : headWords p (s.headFresh h).regs = headWords p s.regs :=
  by simp -implicitDefEqProofs (disch := decide) [State.headFresh]
@[simp] theorem patternStart_head (l : Fin 20) : headWords p (s.patternStart l).regs = headWords p s.regs :=
  by simp -implicitDefEqProofs (disch := decide) [State.patternStart]
@[simp] theorem stepEnd_head (l : Fin 20) (result : Nat) : headWords p (s.stepEnd l result).regs = headWords p s.regs :=
  by simp -implicitDefEqProofs (disch := decide) [State.stepEnd]
@[simp] theorem cdrLost_head (l : Fin 20) : headWords p (s.cdrLost l).regs = headWords p s.regs :=
  by simp -implicitDefEqProofs (disch := decide) [State.cdrLost, State.fmeasGone]
@[simp] theorem unassign_head (e : Fin 4) : headWords p (s.unassign e).regs = headWords p s.regs :=
  each_head _ fun _ a _ => by simp -implicitDefEqProofs (disch := decide)
@[simp] theorem assign_head (e : Fin 4) : headWords p (s.assign e).regs = headWords p s.regs :=
  (each_head _ fun _ q _ => by simp -implicitDefEqProofs (disch := decide)).trans (unassign_head e)
@[simp] theorem axisFault_head (a cause stamp : Nat) (ha : a < 64) (h : Still p) : headWords p (s.axisFault a cause stamp).regs = headWords p s.regs :=
  by
  unfold State.axisFault
  split <;> simp -implicitDefEqProofs (disch := decide) [blockFault_head _ stamp (h.axis ha), brushFault_head _ 5 stamp (h.brush _)]
@[simp] theorem linkFault_head {i : Nat} (hi : i < 16) (h : Still p) : headWords p (s.linkFault i).regs = headWords p s.regs :=
  each_head _ fun _ k hk => axisFault_head _ 5 _ (by simp at hk; omega) h
@[simp] theorem linkGone_head {l : Nat} (hl : l < 20) (h : Still p) : headWords p (s.linkGone l).regs = headWords p s.regs :=
  (linkFault_head (by omega) h).trans (by simp -implicitDefEqProofs (disch := decide))
@[simp] theorem laneRestart_head (l : Fin 20) (ph : Nat) (h : Still p) : headWords p (s.laneRestart l ph).regs = headWords p s.regs :=
  by simp -implicitDefEqProofs (disch := decide) [State.laneRestart, linkGone_head l.isLt h]
@[simp] theorem bufShow_head (n : Fin 4) : headWords p (s.bufShow n).regs = headWords p s.regs :=
  by simp -implicitDefEqProofs (disch := decide) [State.bufShow, setF_head_status (show Pg.CAM n ≠ Pg.PWR by simp only [Pg.CAM, Pg.PWR]; omega)]
@[simp] theorem readsLost_head (x : DramSt) (l : Fin 20) : headWords p (s.readsLost x l).regs = headWords p s.regs := rfl
@[simp] theorem setValid_head (c : Nat) (v : Bool) : headWords p (s.setValid c v).regs = headWords p s.regs :=
  by simp -implicitDefEqProofs (disch := decide) [State.setValid]
@[simp] theorem exitBegin_head : headWords p (s.exitBegin).regs = headWords p s.regs := rfl
@[simp] theorem holdBegin_head (c cause : Nat) : headWords p (s.holdBegin c cause).regs = headWords p s.regs :=
  by simp -implicitDefEqProofs (disch := decide) [State.holdBegin]
@[simp] theorem primerTake_head : headWords p (s.primerTake).regs = headWords p s.regs := by
  unfold State.primerTake
  split
  · split <;> simp -implicitDefEqProofs (disch := decide)
  · rfl
@[simp] theorem servoHold_head : headWords p (s.servoHold).regs = headWords p s.regs :=
  by simp -implicitDefEqProofs (disch := decide) [State.servoHold]
@[simp] theorem reacquireTime_head : headWords p (s.reacquireTime).regs = headWords p s.regs :=
  by simp -implicitDefEqProofs (disch := decide) [State.reacquireTime]
@[simp] theorem timeModeCheck_head : headWords p (s.timeModeCheck).regs = headWords p s.regs :=
  by simp -implicitDefEqProofs (disch := decide) [State.timeModeCheck]
@[simp] theorem headHealth_head (h : Fin 16) : headWords p (s.headHealth h).regs = headWords p s.regs :=
  by simp -implicitDefEqProofs (disch := decide) [State.headHealth]
@[simp] theorem readGranule_head (cls who : Nat) (q : Nat × Nat) : headWords p (s.readGranule cls who q).regs = headWords p s.regs := by
  unfold State.readGranule
  split
  dsimp only
  split <;> simp -implicitDefEqProofs (disch := decide)
@[simp] theorem dramRead_head (cls who a n : Nat) : headWords p (s.dramRead cls who a n).regs = headWords p s.regs := by
  unfold State.dramRead
  simp -implicitDefEqProofs (disch := decide) [each_head _ fun _ q _ => readGranule_head cls who q]
@[simp] theorem askAgain_head : headWords p (s.askAgain).regs = headWords p s.regs :=
  each_head _ fun _ b _ => (each_head _ fun _ k _ => by split <;> simp -implicitDefEqProofs (disch := decide)).trans (by split <;> simp -implicitDefEqProofs (disch := decide))

/-! Where blocks move: the page's own block is not concerned, nor is a block a lane's restart moves. -/

/-- Page `q` is no lane's, or no lane's restart moves page `p`. -/
def LaneStill (q p : Nat) : Prop := (pageBlk q = some .link ∨ pageBlk q = some .head) → Still p

theorem onStarting_head {q : Nat} (hl : LaneStill q p) : headWords p (s.onStarting q).regs = headWords p s.regs := by
  unfold State.onStarting
  split
  · split <;> simp -implicitDefEqProofs (disch := decide)
  · simp -implicitDefEqProofs (disch := decide)
  · simp -implicitDefEqProofs (disch := decide)
  · simp -implicitDefEqProofs (disch := decide)
  · simp -implicitDefEqProofs (disch := decide)
  · simp -implicitDefEqProofs (disch := decide)
  · next hq => simp -implicitDefEqProofs (disch := decide) [laneRestart_head _ _ (hl (.inl hq))]
  · next hq => simp -implicitDefEqProofs (disch := decide) [laneRestart_head _ _ (hl (.inr hq))]
  · simp -implicitDefEqProofs (disch := decide)
  · simp -implicitDefEqProofs (disch := decide)
  · simp -implicitDefEqProofs (disch := decide)
  · simp -implicitDefEqProofs (disch := decide)
  · simp -implicitDefEqProofs (disch := decide)
  · next hq =>
    have hne : q ≠ Pg.PWR := fun h => by subst h; exact absurd hq (by decide)
    simp -implicitDefEqProofs (disch := decide) [setF_head_status hne]
    refine each_head _ fun _ c hc => setF_head q _ (offHead_num (by decide) ?_)
    have := List.mem_range.mp hc
    simp only [Reg.GLAZE_TRIM]
    omega
  · rfl

theorem onStopping_head {q : Nat} (hl : LaneStill q p) : headWords p (s.onStopping q).regs = headWords p s.regs := by
  unfold State.onStopping
  split
  · simp -implicitDefEqProofs (disch := decide)
  · simp -implicitDefEqProofs (disch := decide)
  · simp -implicitDefEqProofs (disch := decide)
  · simp -implicitDefEqProofs (disch := decide)
  · exact each_head _ fun _ k _ => truncateOpen_head k
  · simp -implicitDefEqProofs (disch := decide)
  · simp -implicitDefEqProofs (disch := decide)
  · next hq => exact laneRestart_head _ _ (hl (.inl hq))
  · next hq => exact laneRestart_head _ _ (hl (.inr hq))
  · rfl

theorem onOn_head (q : Nat) : headWords p (s.onOn q).regs = headWords p s.regs := by
  unfold State.onOn
  split
  · dsimp only
    exact each_head _ fun _ b _ => by simp -implicitDefEqProofs (disch := decide)
  · simp -implicitDefEqProofs (disch := decide)
  · simp -implicitDefEqProofs (disch := decide)
  · simp -implicitDefEqProofs (disch := decide)
  · simp -implicitDefEqProofs (disch := decide)
  · simp -implicitDefEqProofs (disch := decide)
  · rfl

theorem onOff_head {q : Nat} (hl : LaneStill q p) : headWords p (s.onOff q).regs = headWords p s.regs := by
  unfold State.onOff
  split
  · simp -implicitDefEqProofs (disch := decide)
  · simp -implicitDefEqProofs (disch := decide)
  · simp -implicitDefEqProofs (disch := decide)
  · simp -implicitDefEqProofs (disch := decide)
  · simp -implicitDefEqProofs (disch := decide)
  · next hq => exact laneRestart_head _ _ (hl (.inl hq))
  · next hq => simp -implicitDefEqProofs (disch := decide) [laneRestart_head _ _ (hl (.inr hq))]
  · simp -implicitDefEqProofs (disch := decide)
  · simp -implicitDefEqProofs (disch := decide) [State.fmeasGone]
  · rfl

theorem ctrlEn1_head {q : Nat} (hq : q ≠ p) (hl : LaneStill q p) (en : Bool) : headWords p (s.ctrlEn1 q en).regs = headWords p s.regs := by
  have h1 (u : State) : headWords p (u.setB q Reg.CTRL_EN en).regs = headWords p u.regs := setF_head_other hq _ (by decide)
  unfold State.ctrlEn1
  extract_lets s1
  have hs1 : headWords p s1.regs = headWords p s.regs := (h1 _).trans (by simp -implicitDefEqProofs (disch := decide))
  split
  · exact (onStarting_head hl).trans ((enter_head _ _ _ hq).trans hs1)
  · exact (onStopping_head hl).trans ((enter_head _ _ _ hq).trans hs1)
  · exact (onStopping_head hl).trans ((enter_head _ _ _ hq).trans hs1)
  · exact (refreshEn_head q hq).trans hs1

theorem laneStill_self {p : Nat} : LaneStill p p := by
  rintro (h | h) <;> have hr := pageBlk_range h
  · exact ⟨by simp only [blkInfo] at hr; omega, by simp only [blkInfo] at hr; omega⟩
  · exact ⟨by simp only [blkInfo] at hr; omega, by simp only [blkInfo] at hr; omega⟩

/-- A block of neither links nor heads restarts no lane. -/
theorem laneStill_of {q p : Nat} (hlink : pageBlk q ≠ some .link) (hhead : pageBlk q ≠ some .head) : LaneStill q p :=
  fun h => (h.elim hlink hhead).elim

theorem brushPage_range {q : Nat} (hq : q ∈ blkPages .brush) : 0x30 ≤ q ∧ q < 0x40 := by
  simp only [blkPages, blkInfo, List.mem_map, List.mem_range] at hq
  omega

theorem brushPage_laneStill {q : Nat} (hq : q ∈ blkPages .brush) : LaneStill q p := by
  have hr := brushPage_range hq
  refine laneStill_of (fun h => ?_) fun h => ?_ <;> have hb := pageBlk_range h <;> simp only [blkInfo] at hb <;> omega

/-- SYS, as it is turned off, turns the brushes off (R130): a page of another block keeps its header. -/
theorem ctrlEn_head {q : Nat} (hq : q ≠ p) (hl : LaneStill q p) (hp : p < 0x30 ∨ 0x40 ≤ p) (en : Bool) :
    headWords p (s.ctrlEn q en).regs = headWords p s.regs := by
  unfold State.ctrlEn
  extract_lets s1
  have h1 : headWords p s1.regs = headWords p s.regs := ctrlEn1_head hq hl en
  split
  · refine (each_head _ fun u r hr => ?_).trans h1
    have hne : r ≠ p := by have := brushPage_range hr; omega
    simp -implicitDefEqProofs (disch := decide) [ctrlEn1_head hne (brushPage_laneStill hr)]
  · exact h1

/-! The fall of the clock concerns the header of no link (R55 to R57). -/

section
variable (hp : pageBlk p = some .link)
include hp

theorem enterSafeHold_head : headWords p s.enterSafeHold.regs = headWords p s.regs := by
  have hr := pageBlk_range hp
  simp only [blkInfo] at hr
  unfold State.enterSafeHold
  extract_lets pages s1 s2
  have h1 : headWords p s1.regs = headWords p s.regs := by
    refine (each_head _ fun u q hq => ?_).trans (setB_head _ _ (by decide))
    obtain ⟨⟨-, hdom⟩, hhead⟩ : (pageDomain q ≠ 0 ∧ pageDomain q ≠ 1) ∧ pageBlk q ≠ some .head := by simpa using (List.mem_filter.mp hq).2
    have hlink : pageBlk q ≠ some .link := fun h => hdom (by simp [pageDomain, h, blkInfo])
    have hne : q ≠ p := fun h => hlink (h ▸ hp)
    simp -implicitDefEqProofs (disch := decide) [ctrlEn1_head hne (laneStill_of hlink hhead)]
  have h2 : headWords p s2.regs = headWords p s1.regs :=
    (latchCause_head _ _ _).trans (ctrlEn_head (by simp only [Pg.SYS]; omega) (laneStill_of (by decide) (by decide)) (by omega) false)
  refine (trigger_head 6).trans ?_
  dsimp only
  exact h2.trans h1

theorem coastEnter_head : headWords p s.coastEnter.regs = headWords p s.regs := by
  unfold State.coastEnter
  simp -implicitDefEqProofs (disch := decide) [enterSafeHold_head hp]

theorem candLost_head (c : Nat) : headWords p (s.candLost c).regs = headWords p s.regs := by
  unfold State.candLost
  extract_lets s1
  have h1 : headWords p s1.regs = headWords p s.regs := by simp -implicitDefEqProofs (disch := decide) [s1]
  split
  · exact exitBegin_head.trans h1
  · split
    · split
      · exact (holdBegin_head _ _).trans h1
      · exact (coastEnter_head hp).trans h1
    · exact h1

theorem candUpdate_head (c : Fin 4) : headWords p (s.candUpdate c).regs = headWords p s.regs := by
  unfold State.candUpdate
  simp -implicitDefEqProofs (disch := decide) [candLost_head hp]

theorem candAll_head : headWords p s.candAll.regs = headWords p s.regs := by
  refine each_head _ fun u c _ => (candUpdate_head hp c).trans ?_
  have hoff : OffHead (Reg.CLK_REF_OFFSET.num c) = true := offHead_num (by decide) (by simp only [Reg.CLK_REF_OFFSET]; omega)
  simp -implicitDefEqProofs (disch := decide) [setF_head _ _ hoff]

end

/-- What follows a change of a page's state leaves its header (R34). -/
theorem settle_head : headWords p (s.settle p).regs = headWords p s.regs := by
  unfold State.settle
  refine (allPins_head).trans ?_
  split
  · next hp => exact candAll_head hp
  · exact timeModeCheck_head
  · exact headHealth_head _
  · exact showEnforced_head
  · exact showEnforced_head
  · rfl

end

end Sys2Proof.Proofs
end
section
/-! PROOFS. The block state machine (R34 to R37): what CTRL and STATE of a page show after a write of CTRL, after the end of a sequence and after a
reset. -/

namespace Sys2Proof.Proofs

open Sys2Proof.Machine Sys2Proof.Laws

section
variable {p : Nat} {s u : State}

/-! What equal headers show. -/

theorem ctrl_of_head (h : headWords p u.regs = headWords p s.regs) : u.word (regAddr p 0x008) = s.word (regAddr p 0x008) := congrArg (·.1) h
theorem state_of_head (h : headWords p u.regs = headWords p s.regs) : u.word (regAddr p 0x00C) = s.word (regAddr p 0x00C) := congrArg (·.2.1) h
theorem mask_of_head (h : headWords p u.regs = headWords p s.regs) : u.word (regAddr p 0x014) = s.word (regAddr p 0x014) := congrArg (·.2.2.1) h
theorem domains_of_head (h : headWords p u.regs = headWords p s.regs) : u.word (regAddr Pg.PWR 0x044) = s.word (regAddr Pg.PWR 0x044) :=
  congrArg (·.2.2.2) h

theorem en_of_head (h : headWords p u.regs = headWords p s.regs) : u.fb p Reg.CTRL_EN = s.fb p Reg.CTRL_EN :=
  congrArg (fun w => decide (fldOf w Reg.CTRL_EN ≠ 0)) (ctrl_of_head h)
theorem st_of_head (h : headWords p u.regs = headWords p s.regs) : u.f p Reg.STATE_STATE = s.f p Reg.STATE_STATE :=
  congrArg (fldOf · Reg.STATE_STATE) (state_of_head h)

/-- What of the power state says which domains are on. -/
def switches (w : PwrSt) : Bool × Bool × List Nat × Option (Nat × Bool) := (w.sysOn, w.linkOn, w.dirty, w.switching)

theorem pageOn_of_domains (h : u.word (regAddr Pg.PWR 0x044) = s.word (regAddr Pg.PWR 0x044)) (hp : switches u.pwr = switches s.pwr) :
    u.pageOn p = s.pageOn p := by
  have hdom : u.f Pg.PWR Reg.PWR_DOMAIN_STATUS_ON = s.f Pg.PWR Reg.PWR_DOMAIN_STATUS_ON := congrArg (fldOf · Reg.PWR_DOMAIN_STATUS_ON) h
  obtain ⟨hsys, hlink, hdirty, hswitch⟩ : u.pwr.sysOn = s.pwr.sysOn ∧ u.pwr.linkOn = s.pwr.linkOn ∧ u.pwr.dirty = s.pwr.dirty ∧
      u.pwr.switching = s.pwr.switching := by simpa [switches] using hp
  simp only [State.pageOn, State.domOn, hsys, hlink, hdirty, hswitch, hdom]

theorem fb_setB_same (s : State) {q : Nat} {fl : Fld} (hfl : Fits fl) (v : Bool) : (s.setB q fl v).fb q fl = v := by
  have h : (s.setB q fl v).f q fl = b2n v := (f_setF_same s q fl (b2n v) hfl).trans (Nat.mod_eq_of_lt (by
    have hw : 2 ^ 1 ≤ 2 ^ fl.width := Nat.pow_le_pow_right (by decide) (by unfold Fld.width; omega)
    have hv : b2n v ≤ 1 := by cases v <;> decide
    omega))
  rw [State.fb, h]
  cases v <;> decide

/-! A page's own move (R34). -/

theorem st_refreshEn : (s.refreshEn p).f p Reg.STATE_STATE = s.f p Reg.STATE_STATE :=
  f_setF_apart s p _ _ _ (by decide) (by decide) (by decide)

theorem ctrl_refreshEn : (s.refreshEn p).word (regAddr p 0x008) = s.word (regAddr p 0x008) :=
  word_setF_other s p _ _ _ fun h => absurd ((regAddr_inj (by decide) (by decide)).mp h).2 (by decide)

theorem setState_moved {v stamp : Nat} (h : ¬ s.f p Reg.STATE_STATE = v) :
    headWords p (s.setState p v stamp).regs = headWords p (((s.setF p Reg.STATE_STATE v).setEntered p stamp).refreshEn p).regs := by
  unfold State.setState
  rw [if_neg h]
  simp -implicitDefEqProofs (disch := decide)

theorem st_setState {v stamp : Nat} (hv : v < 8) : (s.setState p v stamp).f p Reg.STATE_STATE = v := by
  by_cases h : s.f p Reg.STATE_STATE = v
  · rw [State.setState, if_pos h, st_refreshEn, h]
  · rw [st_of_head (setState_moved h), st_refreshEn]
    exact (f_setF_same s p Reg.STATE_STATE v (by decide)).trans (Nat.mod_eq_of_lt hv)

theorem ctrl_setState {v stamp : Nat} : (s.setState p v stamp).word (regAddr p 0x008) = s.word (regAddr p 0x008) := by
  by_cases h : s.f p Reg.STATE_STATE = v
  · rw [State.setState, if_pos h, ctrl_refreshEn]
  · rw [ctrl_of_head (setState_moved h), ctrl_refreshEn]
    exact word_setF_other s p _ _ _ fun h => absurd ((regAddr_inj (by decide) (by decide)).mp h).2 (by decide)

theorem st_enter {v stamp : Nat} (hv : v < 8) : (s.enter p v stamp).f p Reg.STATE_STATE = v := (st_of_head (exposeAt_head p)).trans (st_setState hv)

theorem en_enter {v stamp : Nat} : (s.enter p v stamp).fb p Reg.CTRL_EN = s.fb p Reg.CTRL_EN :=
  congrArg (fun w => decide (fldOf w Reg.CTRL_EN ≠ 0)) ((ctrl_of_head (exposeAt_head p)).trans ctrl_setState)

theorem st_toStarting : (s.toStarting p).f p Reg.STATE_STATE = stStarting := (st_of_head (onStarting_head laneStill_self)).trans (st_enter (by decide))
theorem st_toStopping : (s.toStopping p).f p Reg.STATE_STATE = stStopping := (st_of_head (onStopping_head laneStill_self)).trans (st_enter (by decide))
theorem st_toOn : (s.toOn p).f p Reg.STATE_STATE = stOn := (st_of_head (onOn_head p)).trans (st_enter (by decide))
theorem st_toOff : (s.toOff p).f p Reg.STATE_STATE = stOff := (st_of_head (onOff_head laneStill_self)).trans (st_enter (by decide))

theorem en_toStarting : (s.toStarting p).fb p Reg.CTRL_EN = s.fb p Reg.CTRL_EN := (en_of_head (onStarting_head laneStill_self)).trans en_enter
theorem en_toStopping : (s.toStopping p).fb p Reg.CTRL_EN = s.fb p Reg.CTRL_EN := (en_of_head (onStopping_head laneStill_self)).trans en_enter

/-! CTRL.EN is written (R34, R35). -/

theorem en_ctrlEn1 (en : Bool) : (s.ctrlEn1 p en).fb p Reg.CTRL_EN = en := by
  unfold State.ctrlEn1
  extract_lets s1
  have h1 : s1.fb p Reg.CTRL_EN = en := fb_setB_same _ (by decide) en
  split
  · exact en_toStarting.trans h1
  · exact en_toStopping.trans h1
  · exact en_toStopping.trans h1
  · exact (congrArg (fun w => decide (fldOf w Reg.CTRL_EN ≠ 0)) ctrl_refreshEn).trans h1

/-- The value written to CTRL.EN does not show in STATE.STATE before the block moves. -/
theorem st_ctrlEn1_write (en : Bool) : ((if p = Pg.RECORD then s.gateTimes else s).setB p Reg.CTRL_EN en).f p Reg.STATE_STATE = s.f p Reg.STATE_STATE := by
  refine (f_setF_apart _ p _ _ _ (by decide) (by decide) (by decide)).trans (st_of_head ?_)
  simp -implicitDefEqProofs

theorem st_ctrlEn1_on (h : s.f p Reg.STATE_STATE = stOff) : (s.ctrlEn1 p true).f p Reg.STATE_STATE = stStarting := by
  have h0 := (st_ctrlEn1_write (p := p) (s := s) true).trans h
  unfold State.ctrlEn1
  extract_lets s1
  have h1 : s1.f p Reg.STATE_STATE = 0 := h0
  rw [h1]
  exact st_toStarting

theorem st_ctrlEn1_off (h : s.f p Reg.STATE_STATE = stOn ∨ s.f p Reg.STATE_STATE = stFault) : (s.ctrlEn1 p false).f p Reg.STATE_STATE = stStopping := by
  have h0 := st_ctrlEn1_write (p := p) (s := s) false
  unfold State.ctrlEn1
  extract_lets s1
  obtain h1 | h1 : s1.f p Reg.STATE_STATE = 2 ∨ s1.f p Reg.STATE_STATE = 4 := h.imp h0.trans h0.trans
  · rw [h1]
    exact st_toStopping
  · rw [h1]
    exact st_toStopping

/-- SYS turns the brushes off after its own move (R130): CTRL and STATE of the page written stay as its own move left them. -/
theorem ctrlEn_head_own (en : Bool) : headWords p (s.ctrlEn p en).regs = headWords p (s.ctrlEn1 p en).regs := by
  unfold State.ctrlEn
  extract_lets s1
  split
  · next hsys =>
    refine each_head _ fun u r hr => ?_
    have hne : r ≠ p := by have := brushPage_range hr; have := hsys.1; simp only [Pg.SYS] at this; omega
    simp -implicitDefEqProofs [ctrlEn1_head hne (brushPage_laneStill hr)]
  · rfl

theorem ctrlEn_settled_head (en : Bool) : headWords p ((s.ctrlEn p en).settle p).regs = headWords p (s.ctrlEn1 p en).regs :=
  settle_head.trans (ctrlEn_head_own en)

end

/-! ### The page's domain stays on (R34) -/

section
variable {p : Nat} {s : State}

theorem each_pwr {α : Type} {g : State → α → State} (l : List α) (h : ∀ s x, (g s x).pwr = s.pwr) : (s.each l g).pwr = s.pwr :=
  each_inv State.pwr g h l s

@[simp] theorem ite_pwr (c : Prop) [Decidable c] (u : State) : (if c then s else u).pwr = if c then s.pwr else u.pwr := apply_ite State.pwr c s u

@[simp] theorem when_pwr (c : Bool) (g : State → State) : (s.when c g).pwr = if c then (g s).pwr else s.pwr := apply_ite State.pwr (c = true) (g s) s

@[simp] theorem setB_pwr (q : Nat) (fl : Fld) (v : Bool) : (s.setB q fl v).pwr = s.pwr := rfl
@[simp] theorem inc_pwr (q : Nat) (fl : Fld) (n : Nat) : (s.inc q fl n).pwr = s.pwr := rfl
@[simp] theorem ev_bang_pwr (q k : Nat) : (s.ev! q k).pwr = s.pwr := event_pwr s q k _
@[simp] theorem sticky_bang_pwr (q k : Nat) : (s.sticky! q k).pwr = s.pwr := sticky_pwr s q k _
@[simp] theorem declare_pwr (bit : Nat) : (s.declare bit).pwr = s.pwr := by
  unfold State.declare State.declareNow
  split
  · split
    · split <;> simp
    · simp
  · rfl
@[simp] theorem accClean_pwr (o n : Nat) : (s.accClean o n).pwr = s.pwr :=
  each_pwr _ fun _ e => by simp -implicitDefEqProofs [State.bankFinds, State.wrMem]
@[simp] theorem accAdd_pwr (o k n : Nat) : (s.accAdd o k n).pwr = s.pwr := by simp -implicitDefEqProofs [State.accAdd]
@[simp] theorem allPins_pwr : s.allPins.pwr = s.pwr := each_pwr _ fun _ n => by simp -implicitDefEqProofs [State.pins, State.pinShow]
@[simp] theorem showEnforced_pwr : s.showEnforced.pwr = s.pwr := by simp -implicitDefEqProofs [State.showEnforced]
@[simp] theorem reacquireTime_pwr : s.reacquireTime.pwr = s.pwr := by simp -implicitDefEqProofs [State.reacquireTime]
@[simp] theorem timeModeCheck_pwr : s.timeModeCheck.pwr = s.pwr := by simp -implicitDefEqProofs [State.timeModeCheck]
@[simp] theorem readGranule_pwr (cls who : Nat) (q : Nat × Nat) : (s.readGranule cls who q).pwr = s.pwr := by
  unfold State.readGranule
  split
  dsimp only
  split <;> simp -implicitDefEqProofs
@[simp] theorem dramRead_pwr (cls who a n : Nat) : (s.dramRead cls who a n).pwr = s.pwr := by
  simp -implicitDefEqProofs [State.dramRead, each_pwr _ fun u q => readGranule_pwr (s := u) cls who q]
@[simp] theorem askAgain_pwr : s.askAgain.pwr = s.pwr :=
  each_pwr _ fun _ b => (each_pwr _ fun _ k => by split <;> simp -implicitDefEqProofs).trans (by split <;> simp -implicitDefEqProofs)
@[simp] theorem enter_pwr (v stamp : Nat) : (s.enter p v stamp).pwr = s.pwr :=
  (Leaves.enter (noRegs_free _) (noRegs_free _) s (noRegs_free p) id v stamp).pwr
@[simp] theorem trainBegin_pwr (mask : Nat) (again : Bool) : (s.trainBegin mask again).pwr = s.pwr := by
  simp -implicitDefEqProofs [State.trainBegin, State.trainShow]

/-- What a block does as it reaches ON switches nothing. -/
theorem onOn_switches (q : Nat) : switches (s.onOn q).pwr = switches s.pwr := by
  unfold State.onOn
  split
  · dsimp only [switches]
    rw [each_pwr allBrushes fun _ b => by simp -implicitDefEqProofs [State.brushStarts, State.clearBrushRegs, State.setPair]]
  · simp -implicitDefEqProofs [State.pins, State.pinShow]
  · simp -implicitDefEqProofs [State.streamOn]
  · simp -implicitDefEqProofs [State.setLight]
  · simp -implicitDefEqProofs [State.showRing]
  · simp -implicitDefEqProofs [State.trainWaiting]
  · rfl

theorem settle_pwr (hlink : pageBlk p ≠ some .link) (hhead : pageBlk p ≠ some .head) : (s.settle p).pwr = s.pwr := by
  unfold State.settle
  refine allPins_pwr.trans ?_
  split
  · contradiction
  · exact timeModeCheck_pwr
  · contradiction
  · exact showEnforced_pwr
  · exact showEnforced_pwr
  · rfl

end

/-! ### The ends of sequences (R34) -/

section
variable {p : Nat} {s : State}

theorem pageOn_of_st {v : Nat} (hv : v ≠ 0) (h : s.st p = v) : s.pageOn p = true := by
  by_contra hoff
  exact hv (h.symm.trans (if_neg hoff))

theorem st_eq (hon : s.pageOn p = true) : s.st p = s.f p Reg.STATE_STATE := if_pos hon

theorem pageOn_toOn : (s.toOn p).pageOn p = s.pageOn p := by
  have hne : p ≠ p + 1 := by omega
  refine (pageOn_of_domains (domains_of_head (onOn_head (p := p) p)) (onOn_switches p)).trans ?_
  exact pageOn_of_domains (domains_of_head (enter_head p stOn s.now hne)) (congrArg switches (enter_pwr _ _))

/-- A sequence that ends with BLOCK_SEQUENCE_END is no lane's. -/
theorem not_lane_of_startDone (h : s.startDone p = true) : pageBlk p ≠ some .link ∧ pageBlk p ≠ some .head := by
  constructor <;> intro hb <;> simp [State.startDone, hb] at h

/-- What BLOCK_SEQUENCE_END leaves, the reads asked again among it (R397). -/
def sequenceEnded (s : State) (p : Nat) : State :=
  ((s.endSequence p).when (pageBlk p == some .dram && (s.endSequence p).dramOn) State.askAgain).settle p

theorem sequenceEnded_head : headWords p (sequenceEnded s p).regs = headWords p (s.endSequence p).regs :=
  settle_head.trans (by simp -implicitDefEqProofs)

theorem sequenceEnded_on (hst : s.st p = stStarting) (hdone : s.startDone p = true) : (sequenceEnded s p).st p = stOn := by
  obtain ⟨hlink, hhead⟩ := not_lane_of_startDone hdone
  have hend : s.endSequence p = s.toOn p := if_pos hst
  have hon : (sequenceEnded s p).pageOn p = true := by
    rw [pageOn_of_domains (domains_of_head sequenceEnded_head), hend, pageOn_toOn, pageOn_of_st (by decide) hst]
    exact congrArg switches ((settle_pwr hlink hhead).trans (by simp -implicitDefEqProofs))
  rw [st_eq hon, st_of_head sequenceEnded_head, hend, st_toOn]

theorem sequenceEnded_off (hst : s.st p = stStopping) : (sequenceEnded s p).st p = stOff := by
  have hend : s.endSequence p = s.toOff p := (if_neg (by rw [hst]; decide)).trans (if_pos hst)
  have hf : (sequenceEnded s p).f p Reg.STATE_STATE = stOff := by rw [st_of_head sequenceEnded_head, hend, st_toOff]
  unfold State.st
  split
  · exact hf
  · rfl

end

/-! ### The commands of the header, in the forms that complete -/

section
variable (t : Nat) (p : Fin 256) {s : State}

theorem blockSequenceEnd_next (h : (((s.upTo t).pageDue p.val).st p.val = stStarting ∧ ((s.upTo t).pageDue p.val).startDone p.val = true) ∨
    ((s.upTo t).pageDue p.val).st p.val = stStopping ∧ ((s.upTo t).pageDue p.val).stopDone p.val = true) :
    exec (.blockSequenceEnd t p) s = .next (ended s (sequenceEnded ((s.upTo t).pageDue p.val) p.val)) := by
  have hends : (decide (((s.upTo t).pageDue p.val).st p.val = stStarting) && ((s.upTo t).pageDue p.val).startDone p.val ||
      decide (((s.upTo t).pageDue p.val).st p.val = stStopping) && ((s.upTo t).pageDue p.val).stopDone p.val) = true := by simpa using h
  exact congrArg (done s) (if_pos hends)

/-- R34, R36: the request that waits in OFF, ON or FAULT acts. -/
theorem blockTransitCycleEnd_next (hon : ((s.upTo t).pageDue p.val).pageOn p.val = true)
    (hwaits : (decide (((s.upTo t).pageDue p.val).st p.val = stOff) && ((s.upTo t).pageDue p.val).en p.val ||
      (decide (((s.upTo t).pageDue p.val).st p.val = stOn) || decide (((s.upTo t).pageDue p.val).st p.val = stFault)) &&
        !((s.upTo t).pageDue p.val).en p.val) = true)
    (hcycle : ((s.upTo t).pageDue p.val).elapsed (((s.upTo t).pageDue p.val).entered p.val) (pagePeriod p.val) = true) :
    exec (.blockTransitCycleEnd t p) s =
      .next (ended s ((((s.upTo t).pageDue p.val).ctrlEn p.val (((s.upTo t).pageDue p.val).en p.val)).settle p.val)) :=
  congrArg (done s) (if_pos ⟨hon, hwaits, hcycle⟩)

end

section
variable {t : Nat} {p : Fin 256} {s : State}

theorem blockSequenceEnd_on (hst : ((s.upTo t).pageDue p.val).st p.val = stStarting) (hdone : ((s.upTo t).pageDue p.val).startDone p.val = true) :
    Completes (.blockSequenceEnd t p) s fun u => u.st p.val = stOn :=
  ⟨_, blockSequenceEnd_next t p (.inl ⟨hst, hdone⟩), (ended_st _ _ _).trans (sequenceEnded_on hst hdone)⟩

theorem blockSequenceEnd_off (hst : ((s.upTo t).pageDue p.val).st p.val = stStopping) (hdone : ((s.upTo t).pageDue p.val).stopDone p.val = true) :
    Completes (.blockSequenceEnd t p) s fun u => u.st p.val = stOff :=
  ⟨_, blockSequenceEnd_next t p (.inr ⟨hst, hdone⟩), (ended_st _ _ _).trans (sequenceEnded_off hst)⟩

theorem blockTransitCycleEnd_starts (hon : ((s.upTo t).pageDue p.val).pageOn p.val = true) (hst : ((s.upTo t).pageDue p.val).st p.val = stOff)
    (hen : ((s.upTo t).pageDue p.val).en p.val = true)
    (hcycle : ((s.upTo t).pageDue p.val).elapsed (((s.upTo t).pageDue p.val).entered p.val) (pagePeriod p.val) = true) :
    Completes (.blockTransitCycleEnd t p) s fun u => u.f p.val Reg.STATE_STATE = stStarting := by
  refine ⟨_, blockTransitCycleEnd_next t p hon (by simp [hst, hen]) hcycle, (ended_f _ _ _ _).trans ?_⟩
  rw [st_of_head (ctrlEn_settled_head _), hen]
  exact st_ctrlEn1_on ((st_eq hon).symm.trans hst)

theorem blockTransitCycleEnd_stops (hon : ((s.upTo t).pageDue p.val).pageOn p.val = true)
    (hst : ((s.upTo t).pageDue p.val).st p.val = stOn ∨ ((s.upTo t).pageDue p.val).st p.val = stFault)
    (hen : ((s.upTo t).pageDue p.val).en p.val = false)
    (hcycle : ((s.upTo t).pageDue p.val).elapsed (((s.upTo t).pageDue p.val).entered p.val) (pagePeriod p.val) = true) :
    Completes (.blockTransitCycleEnd t p) s fun u => u.f p.val Reg.STATE_STATE = stStopping := by
  refine ⟨_, blockTransitCycleEnd_next t p hon (by rcases hst with hst | hst <;> simp [hst, hen]) hcycle, (ended_f _ _ _ _).trans ?_⟩
  rw [st_of_head (ctrlEn_settled_head _), hen]
  exact st_ctrlEn1_off (hst.imp (st_eq hon).symm.trans (st_eq hon).symm.trans)

end

/-! ### COMMIT, and the boundary that takes it (R38, R39) -/

theorem upTo_commitTick (s : State) (t p : Nat) : (s.upTo t).commitTick p = s.commitTick p := by simp only [State.commitTick, upTo_commitAt]

theorem upTo_shadowAt (s : State) (t p o b : Nat) : (s.upTo t).shadowAt p o b = s.shadowAt p o b := by
  simp only [State.shadowAt, upTo_shadowWas, upTo_word]

theorem commitTick_setCommitTick (s : State) (p t : Nat) : (s.setCommitTick p t).commitTick p = t := tabGet_tabSet_same _ _ _
theorem fb_setCommitTick (s : State) (p t q : Nat) (fl : Fld) : (s.setCommitTick p t).fb q fl = s.fb q fl := rfl

section
variable {t : Nat} {p : Fin 256} {s : State}

theorem commit_completes (hon : s.pageOn p.val = true) (hblk : (pageBlk p.val).isSome = true) (hcap : (pageCaps p.val).testBit 8 = true)
    (hidle : s.fb p.val Reg.COMMIT_PENDING = false) :
    Completes (.commit t p) s fun u => u.fb p.val Reg.COMMIT_PENDING = true ∧ u.commitTick p.val = (s.upTo t).now := by
  have hkept : dueKept p.val (regAddr p.val Reg.COMMIT_PENDING.off) := .inr (.inr (.inr rfl))
  have hidle' : ((s.upTo t).pageDue p.val).fb p.val Reg.COMMIT_PENDING = false := by
    rwa [State.fb, (pageDue_kept (s.upTo t) p.val).f hkept, upTo_f]
  have hon' : ((s.upTo t).pageDue p.val).pageOn p.val = true := by simpa using hon
  have hnext : exec (.commit t p) s = .next (ended s ((((s.upTo t).pageDue p.val).setB p.val Reg.COMMIT_PENDING true).setCommitTick p.val
      ((s.upTo t).pageDue p.val).now)) := by
    have hsome : ¬ ((pageBlk p.val).isNone = true ∧ ¬ false = true) := fun h => by simp [Option.isNone_iff_eq_none.mp h.1] at hblk
    refine (if_neg (not_not.mpr hon')).trans ((if_neg hsome).trans (congrArg (done s) (if_pos ⟨hcap, ?_⟩)))
    simp [hidle']
  refine ⟨_, hnext, ?_, ?_⟩
  · rw [ended_fb, fb_setCommitTick, fb_setB_same _ (by decide)]
  · rw [ended_commitTick, commitTick_setCommitTick, pageDue_now]

end

section
variable {s : State} {p : Nat} {b : Nat}

/-- Every shadow in the list becomes active, as it stands at the start of the boundary's cycle. -/
theorem each_actWord {k : Nat} (l : List Nat) (hk : k ∈ l) : ∀ u : State, (∀ o, u.shadowAt p o b = s.shadowAt p o b) →
    (u.each l fun u o => u.setActWord (regAddr p o) (u.shadowAt p o b)).actWord (regAddr p k) = s.shadowAt p k b := by
  induction l with
  | nil => cases hk
  | cons o r ih =>
    intro u hu
    rw [each_cons]
    by_cases hr : k ∈ r
    · exact ih hr _ hu
    · have hko : k = o := (List.mem_cons.mp hk).resolve_right hr
      have hrest (l : List Nat) (hl : k ∉ l) (v : State) : (v.each l fun u o => u.setActWord (regAddr p o) (u.shadowAt p o b)).actWord (regAddr p k) =
          v.actWord (regAddr p k) := by
        induction l generalizing v with
        | nil => rfl
        | cons x r ih =>
          have hx : regAddr p k ≠ regAddr p x := fun h => hl (by rw [show k = x by unfold regAddr at h; omega]; exact List.mem_cons_self)
          rw [each_cons, ih (fun h => hl (List.mem_cons_of_mem _ h)), actWord_setActWord, if_neg hx]
      rw [hrest r hr, actWord_setActWord, hko, if_pos rfl, hu]

variable (hpend : s.fb p Reg.COMMIT_PENDING = true) (hdue : 0 < sdiff48 b (s.commitTick p))
include hpend hdue

theorem takeShadow_taken : s.takeShadow p b = ((s.each (rwsWords p) fun s o => s.setActWord (regAddr p o) (s.shadowAt p o b)).setB p Reg.COMMIT_PENDING
    false).event p Ev.COMMITTED b := if_pos ⟨hpend, hdue⟩

theorem takeShadow_actWord_taken {k : Nat} (hk : k ∈ rwsWords p) : (s.takeShadow p b).actWord (regAddr p k) = s.shadowAt p k b := by
  rw [takeShadow_taken hpend hdue, event_actWord]
  exact each_actWord (rwsWords p) hk s fun _ => rfl

theorem takeShadow_pending : (s.takeShadow p b).fb p Reg.COMMIT_PENDING = false := by
  rw [takeShadow_taken hpend hdue, State.fb, f_event _ _ _ _ _ _ (by decide) (.inr (by decide)) (.inr (by decide))]
  exact fb_setB_same _ (by decide) false

end

section
variable {t : Nat} {p : Fin 256} {s : State}

/-- The words of MEDIUM that say where the pattern turns are shadows. -/
theorem turn_mem_rwsWords : Reg.MEDIUM_TURN_LO.off ∈ rwsWords Pg.MEDIUM ∧ Reg.MEDIUM_TURN_HI.off ∈ rwsWords Pg.MEDIUM := by decide

theorem pageBlk_medium {p : Nat} (h : pageBlk p = some .medium) : p = Pg.MEDIUM := by
  have hr : 0x0C ≤ p ∧ p < 0x0C + 1 := pageBlk_range h
  simp only [Pg.MEDIUM]
  omega

theorem takeShadow_geom (s : State) (b : Nat) : (s.takeShadow Pg.MEDIUM b).fb Pg.MEDIUM Reg.MEDIUM_MODE_CTRL_GEOM = s.fb Pg.MEDIUM
    Reg.MEDIUM_MODE_CTRL_GEOM :=
  congrArg (fun v => decide (v ≠ 0)) ((takeShadow_framed s Pg.MEDIUM b).leaves.f (by decide))

theorem shadowTransfer_takes (hon : s.pageOn p.val = true) (hhere : (s.upTo t).atBoundary p.val = true)
    (hpend : s.fb p.val Reg.COMMIT_PENDING = true) (hdue : 0 < sdiff48 (s.upTo t).now (s.commitTick p.val))
    (hstep : pageBlk p.val ≠ some .step ∨ (s.upTo t).zeroLimits (stepOf p.val) (s.upTo t).now = false)
    (hturn : pageBlk p.val ≠ some .medium ∨ s.fb p.val Reg.MEDIUM_MODE_CTRL_GEOM = false ∨
      2 ^ 16 ≤ s.shadowPair p.val Reg.MEDIUM_TURN_LO Reg.MEDIUM_TURN_HI (s.upTo t).now) :
    exec (.shadowTransfer t p) s = .next (ended s (shadowsTaken (s.upTo t) p.val)) := by
  have hpend' : (s.upTo t).fb p.val Reg.COMMIT_PENDING = true := by rwa [upTo_fb]
  have hdue' : 0 < sdiff48 (s.upTo t).now ((s.upTo t).commitTick p.val) := by rwa [upTo_commitTick]
  have hstep' : ¬ (pageBlk p.val = some .step ∧ (s.upTo t).zeroLimits (stepOf p.val) (s.upTo t).now = true) := fun h =>
    hstep.elim (· h.1) fun hz => by simp [hz] at h
  refine (if_neg (by simp [hon, hhere])).trans ((if_neg hstep').trans ((if_neg ?_).trans rfl))
  rintro ⟨hm, hgeom, -, -, hlt⟩
  obtain ⟨hlo, hhi⟩ := turn_mem_rwsWords
  rw [← pageBlk_medium hm] at hlo hhi
  have hgeom' : s.fb p.val Reg.MEDIUM_MODE_CTRL_GEOM = true := by
    rw [← hgeom, pageBlk_medium hm, takeShadow_geom, upTo_fb]
  have hpair : ((s.upTo t).takeShadow p.val (s.upTo t).now).actPair p.val Reg.MEDIUM_TURN_LO Reg.MEDIUM_TURN_HI =
      s.shadowPair p.val Reg.MEDIUM_TURN_LO Reg.MEDIUM_TURN_HI (s.upTo t).now := by
    simp only [State.actPair, State.a, State.shadowPair, takeShadow_actWord_taken hpend' hdue' hlo, takeShadow_actWord_taken hpend' hdue' hhi, upTo_shadowAt]
  rw [hpair] at hlt
  rcases hturn with h | h | h
  · exact h hm
  · simp [h] at hgeom'
  · omega

end

section
variable {s : State} {p : Nat}

theorem shadowsTaken_pending (hpend : s.fb p Reg.COMMIT_PENDING = true) (hdue : 0 < sdiff48 s.now (s.commitTick p)) :
    (shadowsTaken s p).fb p Reg.COMMIT_PENDING = false := by
  unfold shadowsTaken
  split
  · next hb =>
    have hp := pageBlk_glaze hb
    have hoff : regAddr p Reg.COMMIT_PENDING.off ∉ noted (Pg.GLAZE (glazeOf p)) := by
      rw [← hp]
      simp only [noted, regAddr, List.mem_cons, List.not_mem_nil, or_false, Reg.COMMIT_PENDING, Reg.EVENT, Reg.ERROR_STICKY, Reg.EVCOL_MERGED, Pg.EVCOL]
      omega
    rw [State.fb, (camLost_framed (s.takeShadow p s.now) (glazeOf p) (List.Subset.refl _)).leaves.f hoff]
    exact takeShadow_pending hpend hdue
  · exact takeShadow_pending hpend hdue

theorem shadowsTaken_actWord_taken (hpend : s.fb p Reg.COMMIT_PENDING = true) (hdue : 0 < sdiff48 s.now (s.commitTick p)) {k : Nat}
    (hk : k ∈ rwsWords p) : (shadowsTaken s p).actWord (regAddr p k) = s.shadowAt p k s.now := by
  unfold shadowsTaken
  split
  · rw [camLost_actWord, takeShadow_actWord_taken hpend hdue hk]
  · exact takeShadow_actWord_taken hpend hdue hk

end

theorem shadowTransfer_completes {t : Nat} {p : Fin 256} {s : State} (hon : s.pageOn p.val = true) (hhere : (s.upTo t).atBoundary p.val = true)
    (hpend : s.fb p.val Reg.COMMIT_PENDING = true) (hdue : 0 < sdiff48 (s.upTo t).now (s.commitTick p.val))
    (hstep : pageBlk p.val ≠ some .step ∨ (s.upTo t).zeroLimits (stepOf p.val) (s.upTo t).now = false)
    (hturn : pageBlk p.val ≠ some .medium ∨ s.fb p.val Reg.MEDIUM_MODE_CTRL_GEOM = false ∨
      2 ^ 16 ≤ s.shadowPair p.val Reg.MEDIUM_TURN_LO Reg.MEDIUM_TURN_HI (s.upTo t).now) :
    Completes (.shadowTransfer t p) s fun u => u.fb p.val Reg.COMMIT_PENDING = false ∧
      ∀ k ∈ rwsWords p.val, u.actWord (regAddr p.val k) = s.shadowAt p.val k (s.upTo t).now := by
  have hpend' : (s.upTo t).fb p.val Reg.COMMIT_PENDING = true := by rwa [upTo_fb]
  have hdue' : 0 < sdiff48 (s.upTo t).now ((s.upTo t).commitTick p.val) := by rwa [upTo_commitTick]
  refine ⟨_, shadowTransfer_takes hon hhere hpend hdue hstep hturn, ?_, fun k hk => ?_⟩
  · rw [ended_fb, shadowsTaken_pending hpend' hdue']
  · rw [ended_actWord, shadowsTaken_actWord_taken hpend' hdue' hk, upTo_shadowAt]

/-! ### CTRL.EN and CTRL.SOFT_RESET (R34, R37) -/

section
variable {α : Type} {d : Nat → α}

theorem tabGet_filter_out {keep : Nat × α → Bool} {k : Nat} (h : ∀ v, keep (k, v) = false) (l : List (Nat × α)) : tabGet d (l.filter keep) k = d k := by
  induction l with
  | nil => rfl
  | cons e r ih =>
    rw [List.filter_cons]
    split
    · next he =>
      have hk : e.1 ≠ k := fun hk => by subst hk; exact absurd (h e.2) (by simp [he])
      rw [tabGet_cons, if_neg hk, ih]
    · exact ih

theorem tabGet_append_apart {k : Nat} {l : List (Nat × α)} (h : ∀ e ∈ l, e.1 ≠ k) (r : List (Nat × α)) : tabGet d (l ++ r) k = tabGet d r k := by
  induction l with
  | nil => rfl
  | cons e l ih =>
    rw [List.cons_append, tabGet_cons, if_neg (h e List.mem_cons_self)]
    exact ih fun x hx => h x (List.mem_cons_of_mem e hx)

end

section
variable {p : Nat} {s : State}

theorem liveStatus_head (u : State) : headWords p (u.liveStatus s p).regs = headWords p u.regs := by
  simp -implicitDefEqProofs (disch := decide) [State.liveStatus]

/-- R37: the counters a soft reset keeps lie after the header. -/
theorem keptCounter_header {o : Nat} (ho : o < 0x028) : keptCounter p o = false := by
  unfold keptCounter
  split <;> simp <;> omega

/-- R37: the words of the header that a reset clears. -/
theorem softReset_word {o : Nat} (ho : o = 0x008 ∨ o = 0x00C ∨ o = 0x014) : (s.softReset p).word (regAddr p o) = resetWord (regAddr p o) := by
  have hlt : o < 0x1000 := by omega
  have hread {u v : State} (h : headWords p u.regs = headWords p v.regs) : u.word (regAddr p o) = v.word (regAddr p o) := by
    rcases ho with rfl | rfl | rfl
    · exact ctrl_of_head h
    · exact state_of_head h
    · exact mask_of_head h
  have hkept : ∀ e : Nat × Word, (decide (e.1 / 0x1000 = p) && keptCounter p (e.1 % 0x1000)) = true → e.1 ≠ regAddr p o := by
    intro e he hk
    have hoff : regAddr p o % 0x1000 = o := by unfold regAddr; omega
    rw [hk, hoff, keptCounter_header (by omega)] at he
    simp at he
  unfold State.softReset
  extract_lets s0 kept s1
  refine (hread (settle_head.trans ((exposeAt_head p).trans (liveStatus_head _)))).trans ?_
  refine (tabGet_append_apart (fun e he => hkept e (List.mem_filter.mp he).2) _).trans (tabGet_filter_out (fun v => ?_) _)
  have haon : aonHeld (regAddr p o) = false := by simp only [aonHeld, regAddr, Bool.or_eq_false_iff, beq_eq_false_iff_ne]; omega
  simp [haon, regAddr_page hlt]

end

/-! What a command that looks at a page finds there of the clock and of DRAM is what stood before. -/

section
variable (s : State) (t p : Nat)

theorem due_word {a : Nat} (ha : a / 0x1000 < 0x40 ∧ a / 0x1000 ≠ Pg.EVCOL ∧ a / 0x1000 ≠ Pg.CALIB) :
    ((s.upTo t).pageDue p).word a = s.word a := ((pageDue_kept (s.upTo t) p).words a (.inl ha)).trans (upTo_word s t a)

theorem due_f {q : Nat} {fl : Fld} (hq : q < 0x40 ∧ q ≠ Pg.EVCOL ∧ q ≠ Pg.CALIB) (hfl : fl.off < 0x1000) :
    ((s.upTo t).pageDue p).f q fl = s.f q fl := by
  have ha : regAddr q fl.off / 0x1000 = q := regAddr_page hfl
  unfold State.f
  rw [due_word s t p (by rwa [ha])]

theorem due_fb {q : Nat} {fl : Fld} (hq : q < 0x40 ∧ q ≠ Pg.EVCOL ∧ q ≠ Pg.CALIB) (hfl : fl.off < 0x1000) :
    ((s.upTo t).pageDue p).fb q fl = s.fb q fl :=
  congrArg (fun v : Nat => decide (v ≠ 0)) (due_f s t p hq hfl)

theorem due_pageOn (q : Nat) : ((s.upTo t).pageDue p).pageOn q = s.pageOn q := by simp

omit s t in
theorem isReference_congr {u v : State} (hsel : u.selected = v.selected) (hvalid : ∀ c, u.candValid c = v.candValid c)
    (hcoast : u.coasting = v.coasting) : u.isReference p = v.isReference p := by
  rw [State.isReference, State.isReference, hsel, hvalid, hcoast]

theorem due_isReference : ((s.upTo t).pageDue p).isReference p = s.isReference p :=
  isReference_congr p (due_f s t p (by decide) (by decide))
    (fun c => congrArg (Nat.testBit · c) (due_f s t p (q := Pg.CLK) (fl := Reg.CLK_REF_STATUS_VALID) (by decide) (by decide)))
    (due_fb s t p (by decide) (by decide))

theorem due_fuseBad : ((s.upTo t).pageDue p).fuseBad = s.fuseBad := due_fb s t p (by decide) (by decide)

theorem due_hold : ((s.upTo t).pageDue p).fb Pg.CLK Reg.CLK_STATUS_SAFE_HOLD = s.fb Pg.CLK Reg.CLK_STATUS_SAFE_HOLD := due_fb s t p (by decide) (by decide)

theorem due_dramOn : ((s.upTo t).pageDue p).dramOn = s.dramOn := by
  have h {q : Nat} (hq : q < 0x40 ∧ q ≠ Pg.EVCOL ∧ q ≠ Pg.CALIB) : ((s.upTo t).pageDue p).isOn q = s.isOn q := by
    rw [State.isOn, State.isOn, State.st, State.st, due_pageOn, due_f s t p hq (by decide)]
  rw [State.dramOn, State.dramOn, h (by decide), h (by decide)]

/-- Where something may be due, what an enable may breach concerns the scan chain and DRAM (R346, R423). -/
theorem enableBreach_ringed {u : State} (hp : pageBlk p = some .ltport ∨ pageBlk p = some .raster) :
    u.enableBreach p = if u.scanLow ∧ 2 ≤ pageDomain p then some 423 else if decide (pageBlk p = some .raster) = true ∧ ¬ u.dramOn then some 346 else none := by
  rcases hp with hp | hp <;> simp [State.enableBreach, State.usesDram, hp]

theorem upTo_enableBreach : (s.upTo t).enableBreach p = s.enableBreach p := by unfold State.upTo; split <;> rfl

theorem due_enableBreach : ((s.upTo t).pageDue p).enableBreach p = s.enableBreach p := by
  by_cases hp : pageBlk p = some .ltport ∨ pageBlk p = some .raster
  · have hscan : ((s.upTo t).pageDue p).scanLow = s.scanLow := by simp only [State.scanLow, pageDue_tap, upTo_tap]
    rw [enableBreach_ringed p hp, enableBreach_ringed p hp, hscan, due_dramOn]
  · rw [pageDue_other _ _ (fun h => hp (.inl h)) fun h => hp (.inr h), upTo_enableBreach]

end

section
variable {t : Nat} {p : Fin 256} {s : State}

/-- A header command on a page that is on and not reserved acts (R6, R31). -/
theorem onPage_acts {u : State} {q o : Nat} {zero : Bool} {g : Host.Outcome State Fault Refusal} (hon : u.pageOn q = true)
    (hblk : (pageBlk q).isSome = true) : onPage u q o zero g = g :=
  (if_neg (not_not.mpr hon)).trans (if_neg fun h => by simp [Option.isNone_iff_eq_none.mp h.1] at hblk)

theorem softReset_completes (hon : s.pageOn p.val = true) (hblk : (pageBlk p.val).isSome = true)
    (hpage : p.val ≠ Pg.SYS ∧ p.val ≠ Pg.CLK ∧ p.val ≠ Pg.PWR ∧ p.val ≠ Pg.KNIFE ∧ p.val ≠ Pg.THERM) (href : s.isReference p.val = false) :
    Completes (.softReset t p) s fun u => u.word (regAddr p.val 0x008) = resetWord (regAddr p.val 0x008) ∧
      u.word (regAddr p.val 0x00C) = resetWord (regAddr p.val 0x00C) ∧ u.word (regAddr p.val 0x014) = resetWord (regAddr p.val 0x014) := by
  obtain ⟨hsys, hclk, hpwr, hknife, htherm⟩ := hpage
  have href' : ((s.upTo t).pageDue p.val).isReference p.val = false := (due_isReference s t p.val).trans href
  have hout : softResetOut ((s.upTo t).pageDue p.val) p.val =
      done ((s.upTo t).pageDue p.val) (((s.upTo t).pageDue p.val).softReset p.val) := by
    rw [softResetOut, if_neg hclk, if_neg hsys, if_neg hpwr, if_neg hknife, if_neg htherm, href', if_neg Bool.false_ne_true]
  have hnext : exec (.softReset t p) s =
      .next (ended s (ended ((s.upTo t).pageDue p.val) (((s.upTo t).pageDue p.val).softReset p.val))) := by
    refine (onPage_acts (by rwa [due_pageOn]) hblk).trans ?_
    rw [hout, done_eq]
    rfl
  refine ⟨_, hnext, ?_⟩
  simp only [ended_word, softReset_word (.inl rfl), softReset_word (.inr (.inl rfl)), softReset_word (.inr (.inr rfl)), and_self]

theorem ctrlEnWrite_completes {en : Bool} (hon : s.pageOn p.val = true) (hblk : (pageBlk p.val).isSome = true)
    (hbreach : en = true → s.enableBreach p.val = none)
    (hhold : en = true → s.fb Pg.CLK Reg.CLK_STATUS_SAFE_HOLD = false ∧ (p.val ≠ Pg.SYS ∨ s.fuseBad = false))
    (hoff : en = false → p.val ≠ Pg.CLK ∧ p.val ≠ Pg.PWR ∧ p.val ≠ Pg.KNIFE ∧ p.val ≠ Pg.THERM ∧ s.isReference p.val = false) :
    Completes (.ctrlEnWrite t p en) s fun u =>
      u.fb p.val Reg.CTRL_EN = en ∧ (s.f p.val Reg.STATE_STATE = stOff → en = true → u.f p.val Reg.STATE_STATE = stStarting) := by
  have hwrite : ((s.upTo t).pageDue p.val).ctrlWrite p.val en = (((s.upTo t).pageDue p.val).ctrlEn p.val en).settle p.val := by
    simp only [State.ctrlWrite, due_isReference, due_fuseBad, due_hold]
    cases en with
    | true =>
      obtain ⟨hh, hf⟩ := hhold rfl
      rcases hf with hf | hf <;> simp [hh, hf]
    | false =>
      obtain ⟨-, hpwr, hknife, htherm, href⟩ := hoff rfl
      simp [hpwr, hknife, htherm, href]
  have hout : ctrlOut ((s.upTo t).pageDue p.val) p.val en =
      done ((s.upTo t).pageDue p.val) (((s.upTo t).pageDue p.val).ctrlWrite p.val en) := by
    simp only [ctrlOut, due_hold, due_enableBreach]
    cases en with
    | true => simp [hbreach rfl, (hhold rfl).1]
    | false => simp [(hoff rfl).1]
  have hnext : exec (.ctrlEnWrite t p en) s =
      .next (ended s (ended ((s.upTo t).pageDue p.val) ((((s.upTo t).pageDue p.val).ctrlEn p.val en).settle p.val))) := by
    refine (onPage_acts (by rwa [due_pageOn]) hblk).trans ((if_neg fun h => by simp [Option.isNone_iff_eq_none.mp h] at hblk).trans ?_)
    rw [hout, hwrite, done_eq]
    rfl
  refine ⟨_, hnext, ?_, fun hst hen => ?_⟩
  · rw [ended_fb, ended_fb, en_of_head (ctrlEn_settled_head en), en_ctrlEn1]
  · rw [ended_f, ended_f, st_of_head (ctrlEn_settled_head en), hen]
    exact st_ctrlEn1_on (pageDue_off (by rwa [upTo_f]))

end

end Sys2Proof.Proofs
end
section
/-! PROOFS. A snapshot (R41): no register shows what another snapshot latched, so that every word of a page is latched as it stood. -/

namespace Sys2Proof.Proofs

open Sys2Proof.Machine Sys2Proof.Laws

/-- `s` with other words latched by the snapshots. -/
def withSnap (x : List (Nat × Word)) (s : State) : State := { s with snap := x }

/-- The operation does not look at the latched words. -/
def Unlatched (g : State → State) : Prop := ∀ x s, g (withSnap x s) = withSnap x (g s)

section
variable (x : List (Nat × Word)) (s : State)

@[simp] theorem withSnap_word (a : Nat) : (withSnap x s).word a = s.word a := rfl
@[simp] theorem withSnap_f (p : Nat) (fl : Fld) : (withSnap x s).f p fl = s.f p fl := rfl
@[simp] theorem withSnap_fb (p : Nat) (fl : Fld) : (withSnap x s).fb p fl = s.fb p fl := rfl
@[simp] theorem withSnap_pair (p : Nat) (lo hi : Fld) : (withSnap x s).pair p lo hi = s.pair p lo hi := rfl
@[simp] theorem withSnap_now : (withSnap x s).now = s.now := rfl
@[simp] theorem withSnap_pageOn (p : Nat) : (withSnap x s).pageOn p = s.pageOn p := rfl
@[simp] theorem withSnap_st (p : Nat) : (withSnap x s).st p = s.st p := rfl
@[simp] theorem withSnap_isOn (p : Nat) : (withSnap x s).isOn p = s.isOn p := rfl
@[simp] theorem withSnap_en (p : Nat) : (withSnap x s).en p = s.en p := rfl
@[simp] theorem withSnap_past (t : Nat) : (withSnap x s).past t = s.past t := rfl
@[simp] theorem withSnap_lights : (withSnap x s).lights = s.lights := rfl
@[simp] theorem withSnap_rasters : (withSnap x s).rasters = s.rasters := rfl

@[simp] theorem withSnap_setWord (a : Nat) (v : Word) : (withSnap x s).setWord a v = withSnap x (s.setWord a v) := rfl
@[simp] theorem withSnap_setF (p : Nat) (fl : Fld) (v : Nat) : (withSnap x s).setF p fl v = withSnap x (s.setF p fl v) := rfl
@[simp] theorem withSnap_setB (p : Nat) (fl : Fld) (v : Bool) : (withSnap x s).setB p fl v = withSnap x (s.setB p fl v) := rfl
@[simp] theorem withSnap_inc (p : Nat) (fl : Fld) (n : Nat) : (withSnap x s).inc p fl n = withSnap x (s.inc p fl n) := rfl
@[simp] theorem withSnap_setPair (p : Nat) (lo hi : Fld) (v : Nat) : (withSnap x s).setPair p lo hi v = withSnap x (s.setPair p lo hi v) := by
  simp -implicitDefEqProofs only [State.setPair, withSnap_setF]
@[simp] theorem withSnap_incPair (p : Nat) (lo hi : Fld) (n : Nat) : (withSnap x s).incPair p lo hi n = withSnap x (s.incPair p lo hi n) := by
  simp -implicitDefEqProofs only [State.incPair, withSnap_pair, withSnap_setPair]
@[simp] theorem withSnap_markEv (src : Nat) : (withSnap x s).markEv src = withSnap x (s.markEv src) := rfl
@[simp] theorem withSnap_setEntered (p t : Nat) : (withSnap x s).setEntered p t = withSnap x (s.setEntered p t) := rfl
@[simp] theorem withSnap_setLane (l : Fin 20) (g : Lane → Lane) : (withSnap x s).setLane l g = withSnap x (s.setLane l g) := rfl
@[simp] theorem withSnap_setLight (n : Fin 4) (g : LtPort → LtPort) : (withSnap x s).setLight n g = withSnap x (s.setLight n g) := rfl
@[simp] theorem withSnap_setRaster (b : Fin 16) (g : Raster → Raster) : (withSnap x s).setRaster b g = withSnap x (s.setRaster b g) := rfl

@[simp] theorem withSnap_ite (c : Prop) [Decidable c] (u : State) : (if c then withSnap x s else withSnap x u) = withSnap x (if c then s else u) :=
  (apply_ite (withSnap x) c s u).symm

theorem withSnap_when (c : Bool) {g : State → State} (h : Unlatched g) : (withSnap x s).when c g = withSnap x (s.when c g) := by
  cases c
  · rfl
  · exact h x s

theorem withSnap_each {α : Type} {g : State → α → State} (l : List α) (h : ∀ a, Unlatched fun s => g s a) :
    (withSnap x s).each l g = withSnap x (s.each l g) := by
  induction l generalizing s with
  | nil => rfl
  | cons a r ih => exact (congrArg (State.each · r g) (h a x s)).trans (ih _)

/-! Events and faults -/

@[simp] theorem withSnap_offer (src stamp : Nat) : (withSnap x s).offer src stamp = withSnap x (s.offer src stamp) :=
  withSnap_when x { s with
    ev := { s.ev with offers := offerInsert src stamp s.ev.offers } } _ fun x u => withSnap_inc x u _ _ _

@[simp] theorem withSnap_event (p k stamp : Nat) : (withSnap x s).event p k stamp = withSnap x (s.event p k stamp) := by
  have hoffer (u : State) (c : Bool) : ((withSnap x u).when c fun u => u.offer (p * 32 + k) stamp) =
      withSnap x (u.when c fun u => u.offer (p * 32 + k) stamp) := withSnap_when x u c fun x u => withSnap_offer x u _ _
  simp -implicitDefEqProofs only [State.event, withSnap_pageOn, withSnap_markEv, withSnap_f, withSnap_setF, hoffer, withSnap_ite]

@[simp] theorem withSnap_ev (p k : Nat) : (withSnap x s).ev! p k = withSnap x (s.ev! p k) := withSnap_event x s p k _

@[simp] theorem withSnap_sticky (p k stamp : Nat) : (withSnap x s).sticky p k stamp = withSnap x (s.sticky p k stamp) := by
  simp -implicitDefEqProofs only [State.sticky, withSnap_pageOn, withSnap_f, withSnap_setF, withSnap_event, withSnap_ite]

@[simp] theorem withSnap_sticky_now (p k : Nat) : (withSnap x s).sticky! p k = withSnap x (s.sticky! p k) := withSnap_sticky x s p k _

/-- `s` with no calibration run in progress. -/
def idleCal (s : State) : State := { s with cal := { s.cal with run := none } }

/-- `s` with the copy of 4 KiB at `a` dropped from the nonvolatile memory. -/
def dropCopy (s : State) (a : Nat) : State := { s with rcd := { s.rcd with nv := tabDrop a (a + 0x1000) s.rcd.nv } }

theorem calAbandon_eq (op : Nat) : s.calAbandon op =
    if op = 4 then
      (dropCopy ((((idleCal s).setB Pg.CALIB Reg.CALIB_STATUS_BUSY false).setF Pg.CALIB Reg.CALIB_STATUS_RESULT 2).ev! Pg.CALIB Ev.CALIB_CAL_FAIL)
        s.spareCopy).sticky! Pg.CALIB Sticky.CALIB_SAVE_FAIL
    else (((idleCal s).setB Pg.CALIB Reg.CALIB_STATUS_BUSY false).setF Pg.CALIB Reg.CALIB_STATUS_RESULT 2).ev! Pg.CALIB Ev.CALIB_CAL_FAIL := rfl

@[simp] theorem withSnap_calAbandon (op : Nat) : (withSnap x s).calAbandon op = withSnap x (s.calAbandon op) := by
  have hidle : idleCal (withSnap x s) = withSnap x (idleCal s) := rfl
  have hdrop (u : State) (a : Nat) : dropCopy (withSnap x u) a = withSnap x (dropCopy u a) := rfl
  have hspare : (withSnap x s).spareCopy = s.spareCopy := rfl
  simp -implicitDefEqProofs only [calAbandon_eq, hidle, hdrop, hspare, withSnap_setB, withSnap_setF, withSnap_ev, withSnap_sticky_now, withSnap_ite]

@[simp] theorem withSnap_calWatch : (withSnap x s).calWatch = withSnap x s.calWatch := by
  have hholds (op target : Nat) : (withSnap x s).calHolds op target = s.calHolds op target := rfl
  have hcal : (withSnap x s).cal = s.cal := rfl
  simp -implicitDefEqProofs only [State.calWatch, hcal]
  cases s.cal.run with
  | none => rfl
  | some r => simp -implicitDefEqProofs only [hholds, withSnap_calAbandon, withSnap_ite]

@[simp] theorem withSnap_refreshEn (p : Nat) : (withSnap x s).refreshEn p = withSnap x (s.refreshEn p) := rfl

@[simp] theorem withSnap_setState (p v stamp : Nat) : (withSnap x s).setState p v stamp = withSnap x (s.setState p v stamp) := by
  simp -implicitDefEqProofs only [State.setState, withSnap_f, withSnap_refreshEn, withSnap_setF, withSnap_setEntered, withSnap_event, withSnap_ite, withSnap_calWatch]

@[simp] theorem withSnap_expose (b : Fin 16) : (withSnap x s).expose b = withSnap x (s.expose b) := by
  simp -implicitDefEqProofs only [State.expose, withSnap_isOn, withSnap_rasters, withSnap_now, withSnap_setRaster]
  generalize (s.isOn (Pg.BRUSH b) && s.isOn (Pg.RASTER b)) = c
  generalize s.rasters[b].since = o
  cases c <;> cases o <;> rfl

@[simp] theorem withSnap_exposeAt (p : Nat) : (withSnap x s).exposeAt p = withSnap x (s.exposeAt p) := by
  unfold State.exposeAt
  split
  · exact withSnap_expose x s _
  · exact withSnap_expose x s _
  · rfl

@[simp] theorem withSnap_blockFault (p stamp : Nat) : (withSnap x s).blockFault p stamp = withSnap x (s.blockFault p stamp) := by
  simp -implicitDefEqProofs only [State.blockFault, State.enter, withSnap_st, withSnap_setState, withSnap_exposeAt, withSnap_ite]

/-! The return of a light port (R331) -/

@[simp] theorem withSnap_lightShow (n : Fin 4) : (withSnap x s).lightShow n = withSnap x (s.lightShow n) := by
  simp -implicitDefEqProofs only [State.lightShow, withSnap_lights, withSnap_setF, withSnap_setB]

@[simp] theorem withSnap_lightOff (n : Fin 4) : (withSnap x s).lightOff n = withSnap x (s.lightOff n) := by
  simp -implicitDefEqProofs only [State.lightOff, withSnap_setLight, withSnap_lightShow]

@[simp] theorem withSnap_lightFault (n : Fin 4) : (withSnap x s).lightFault n = withSnap x (s.lightFault n) := by
  simp -implicitDefEqProofs only [State.lightFault, withSnap_st, withSnap_now, withSnap_blockFault, withSnap_lightOff, withSnap_ite]

@[simp] theorem withSnap_ringCheck (n : Fin 4) (ok : Bool) : (withSnap x s).ringCheck n ok = withSnap x (s.ringCheck n ok) := by
  simp -implicitDefEqProofs only [State.ringCheck, withSnap_setLight, withSnap_inc, withSnap_sticky_now, withSnap_ev, withSnap_f, withSnap_lights, withSnap_lightFault,
    withSnap_ite]

@[simp] theorem withSnap_idAnswer (n : Fin 4) (k : Nat) (valid : Bool) (r0 r1 : Nat) :
    (withSnap x s).idAnswer n k valid r0 r1 = withSnap x (s.idAnswer n k valid r0 r1) := by
  have hdrivers : (withSnap x s).drivers n = s.drivers n := rfl
  simp -implicitDefEqProofs only [State.idAnswer, hdrivers, withSnap_lights, withSnap_setLight, withSnap_st, withSnap_sticky_now, withSnap_lightFault, withSnap_ite]

@[simp] theorem withSnap_pollAnswer (n : Fin 4) (k r1 : Nat) : (withSnap x s).pollAnswer n k r1 = withSnap x (s.pollAnswer n k r1) := by
  simp -implicitDefEqProofs only [State.pollAnswer, withSnap_setF, withSnap_setLight, withSnap_sticky_now, withSnap_ite]

@[simp] theorem withSnap_hostAnswer (n : Fin 4) (r0 r1 : Nat) : (withSnap x s).hostAnswer n r0 r1 = withSnap x (s.hostAnswer n r0 r1) := by
  simp -implicitDefEqProofs only [State.hostAnswer, withSnap_lights, withSnap_inc, withSnap_setLight, withSnap_lightShow, withSnap_ev, withSnap_ite]

@[simp] theorem withSnap_takeReturn (n : Fin 4) (b : LtBack) : (withSnap x s).takeReturn n b = withSnap x (s.takeReturn n b) := by
  unfold State.takeReturn
  cases b.kind <;> simp -implicitDefEqProofs only [withSnap_idAnswer, withSnap_pollAnswer, withSnap_hostAnswer, withSnap_ite, withSnap_ringCheck]

theorem withSnap_backAt (a : Nat) {g : State → State} (h : Unlatched g) : (withSnap x s).backAt a g = withSnap x (s.backAt a g) :=
  congrArg (fun u : State => { u with
    time := s.time }) (h x { s with
    time := { s.time with now := a } })

@[simp] theorem withSnap_lightReturn (n : Fin 4) : (withSnap x s).lightReturn n = withSnap x (s.lightReturn n) := by
  have hsync (u : State) (e : Nat) := withSnap_backAt x u e (g := fun s => s.ev! (Pg.LTPORT n) Ev.LTPORT_SYNC_DONE) fun x u => withSnap_ev x u _ _
  have htake (u : State) (e : Nat) (b : LtBack) := withSnap_backAt x u e (g := fun s => s.takeReturn n b) fun x u => withSnap_takeReturn x u n b
  simp -implicitDefEqProofs only [State.lightReturn, withSnap_lights]
  cases s.lights[n].back with
  | none => rfl
  | some b => simp -implicitDefEqProofs only [withSnap_past, hsync, htake, withSnap_setLight, withSnap_ite]

/-! The pixels of a line (R218) -/

@[simp] theorem withSnap_feedRect (b : Fin 16) (a tile line col stamp : Nat) (rec : List Byte) (k : Fin 8) :
    (withSnap x s).feedRect b a tile line col stamp rec k = withSnap x (s.feedRect b a tile line col stamp rec k) := by
  have hrect : (withSnap x s).rectOf a k = s.rectOf a k := rfl
  have hactive : (withSnap x s).rectActive b a k = s.rectActive b a k := rfl
  have hrd (i n : Nat) : (withSnap x s).rd i n = s.rd i n := rfl
  simp -implicitDefEqProofs only [State.feedRect, hrect, hactive, hrd, withSnap_rasters, withSnap_setRaster, withSnap_ite]

@[simp] theorem withSnap_exposePixel (b : Fin 16) (c : RCur) (j : Nat) : (withSnap x s).exposePixel b c j = withSnap x (s.exposePixel b c j) := by
  have hpixel : (withSnap x s).pixel b c.tiles c.palSet c.u j = s.pixel b c.tiles c.palSet c.u j := rfl
  simp -implicitDefEqProofs only [State.exposePixel, hpixel, withSnap_incPair, withSnap_inc, withSnap_sticky, withSnap_ite]
  refine withSnap_each x _ _ fun k x u => ?_
  exact withSnap_feedRect x u _ _ _ _ _ _ _ _

@[simp] theorem withSnap_rasterDue (b : Fin 16) : (withSnap x s).rasterDue b = withSnap x (s.rasterDue b) := by
  simp -implicitDefEqProofs only [State.rasterDue, State.takePixels, withSnap_rasters, withSnap_now]
  cases s.rasters[b].cur with
  | none => rfl
  | some c =>
    dsimp only
    rw [withSnap_setRaster]
    refine withSnap_each x _ _ fun j x u => ?_
    simp -implicitDefEqProofs only [withSnap_exposePixel, withSnap_setRaster, withSnap_ite]

@[simp] theorem withSnap_pageDue (p : Nat) : (withSnap x s).pageDue p = withSnap x (s.pageDue p) := by
  unfold State.pageDue
  split
  · exact withSnap_lightReturn x s _
  · exact withSnap_rasterDue x s _
  · rfl

/-! What a register shows -/

theorem withSnap_prbsCount (l : Fin 20) : (withSnap x s).prbsCount l = withSnap x (s.prbsCount l) := by
  have hlanes : (withSnap x s).lanes = s.lanes := rfl
  have hrate : (withSnap x s).laneRate l = s.laneRate l := rfl
  simp -implicitDefEqProofs only [State.prbsCount, hlanes, hrate, withSnap_now, withSnap_fb, withSnap_incPair, withSnap_setLane, withSnap_ite]

theorem withSnap_liveWord (p o : Nat) : (withSnap x s).liveWord p o = s.liveWord p o := by
  have hdue : ((withSnap x s).pageDue p).word (regAddr p o) = (s.pageDue p).word (regAddr p o) :=
    (congrArg (State.word · (regAddr p o)) (withSnap_pageDue x s p)).trans (withSnap_word x _ _)
  have hcount (l : Fin 20) : ((withSnap x s).prbsCount l).word (regAddr p o) = (s.prbsCount l).word (regAddr p o) :=
    (congrArg (State.word · (regAddr p o)) (withSnap_prbsCount x s l)).trans (withSnap_word x _ _)
  unfold State.liveWord
  cases pageBlk p with
  | none => rfl
  | some b =>
    cases b with
    | ltport => exact hdue
    | raster => exact hdue
    | link => simp only [hcount, withSnap_word]
    | head => simp only [hcount, withSnap_word]
    | _ => rfl

end

theorem snapWord_setSnapWord (s : State) (a b : Nat) (v : Word) : (s.setSnapWord a v).snapWord b = if b = a then v else s.snapWord b :=
  tabGet_tabSet s.snap a b v

/-- A run of latches leaves the words whose offsets it does not name. -/
theorem each_snapWord_apart {p k : Nat} (l : List Nat) (hk : k ∉ l) (u : State) :
    (u.each l fun u o => u.setSnapWord (regAddr p o) (u.liveWord p o)).snapWord (regAddr p k) = u.snapWord (regAddr p k) := by
  induction l generalizing u with
  | nil => rfl
  | cons o r ih =>
    have hne : regAddr p k ≠ regAddr p o := fun h => hk (by rw [show k = o by unfold regAddr at h; omega]; exact List.mem_cons_self)
    rw [each_cons, ih fun h => hk (List.mem_cons_of_mem o h), snapWord_setSnapWord, if_neg hne]

/-- Every word named is latched as it stood before the first latch. -/
theorem each_snapWord {p k : Nat} (s : State) (l : List Nat) (hk : k ∈ l) : ∀ x,
    ((withSnap x s).each l fun u o => u.setSnapWord (regAddr p o) (u.liveWord p o)).snapWord (regAddr p k) = s.liveWord p k := by
  induction l with
  | nil => cases hk
  | cons o r ih =>
    intro x
    rw [each_cons]
    by_cases hr : k ∈ r
    · exact ih hr _
    · have hko : k = o := (List.mem_cons.mp hk).resolve_right hr
      rw [each_snapWord_apart r hr, snapWord_setSnapWord, hko, if_pos rfl, withSnap_liveWord]

theorem takeSnapshot_latches {s : State} {p k : Nat} (hcap : (pageCaps p).testBit 9 = true) (hp : p ≠ Pg.KNIFE) (hk : k ∈ snapOffs p) :
    (s.takeSnapshot p).snapWord (regAddr p k) = s.liveWord p k := by
  have htaken : s.takeSnapshot p = s.each (snapOffs p) fun s o => s.setSnapWord (regAddr p o) (s.liveWord p o) := (if_pos hcap).trans (if_neg hp)
  rw [htaken]
  exact each_snapWord s (snapOffs p) hk s.snap

theorem snapshotTake_completes {t : Nat} {p : Fin 256} {s : State} (hon : s.pageOn p.val = true) (hblk : (pageBlk p.val).isSome = true)
    (hcap : (pageCaps p.val).testBit 9 = true) (hp : p.val ≠ Pg.KNIFE) :
    Completes (.snapshotTake t p) s fun u => ∀ k ∈ snapOffs p.val, u.snapWord (regAddr p.val k) = ((s.upTo t).pageDue p.val).liveWord p.val k := by
  have hon' : ((s.upTo t).pageDue p.val).pageOn p.val = true := by simpa using hon
  have hsome : ¬ ((pageBlk p.val).isNone = true ∧ ¬ false = true) := fun h => by simp [Option.isNone_iff_eq_none.mp h.1] at hblk
  have hnext : exec (.snapshotTake t p) s = .next (ended s (((s.upTo t).pageDue p.val).takeSnapshot p.val)) :=
    (if_neg (not_not.mpr hon')).trans (if_neg hsome)
  exact ⟨_, hnext, fun k hk => (ended_snapWord _ _ _).trans (takeSnapshot_latches hcap hp hk)⟩

end Sys2Proof.Proofs
end
section
/-! PROOFS. The common page header (O51). -/

namespace Sys2Proof.Proofs

/-- Settles O51: what a command of the header finds on its page as it looks is what stood before, except where a clause says otherwise; a write of CTRL
and the end of a sequence change the state the header shows and nothing after them hides it, and a snapshot latches the words as they stood. -/
theorem pageHeaders : Obligations.PageHeaders := by
  unfold Obligations.PageHeaders
  refine ⟨?_, ?_, ?_, ?_, ?_, ?_, ?_, ?_, ?_⟩
  · exact fun _ _ _ _ hon hblk hbreach hhold hoff => ctrlEnWrite_completes hon hblk hbreach hhold hoff
  · exact fun _ _ _ hon hblk hpage href => softReset_completes hon hblk hpage href
  · exact fun _ _ _ hon hblk hcap hidle => commit_completes hon hblk hcap hidle
  · exact fun _ _ _ hon hhere hpend hdue hstep hturn => shadowTransfer_completes hon hhere hpend hdue hstep hturn
  · exact fun _ _ _ hon hblk hcap hknife => snapshotTake_completes hon hblk hcap hknife
  · exact fun _ _ _ hst hdone => blockSequenceEnd_on hst hdone
  · exact fun _ _ _ hst hdone => blockSequenceEnd_off hst hdone
  · exact fun _ _ _ hon hst hen hcycle => blockTransitCycleEnd_starts hon hst hen hcycle
  · exact fun _ _ _ hon hst hen hcycle => blockTransitCycleEnd_stops hon hst hen hcycle

end Sys2Proof.Proofs
end
section
/-! PROOFS. What the commands of the clock, the timebase and the power states leave unchanged, field by field (R50 to R60, R107 to R118, R125, R126). -/

namespace Sys2Proof.Proofs

open Sys2Proof.Machine Sys2Proof.Laws

/-! ### An effect on the time or the power state -/

/-- As `Framed`, for an effect that may change the time and the power state as well. -/
structure Within (φ : State → State → State) (l : List Nat) (s u : State) : Prop where
  pending : u.pending = s.pending
  tidy : s.Tidy → u.Tidy
  words : ∀ a, a ∉ l → u.word a = s.word a
  shape : u = φ s u

theorem Framed.within {φ : State → State → State} {l : List Nat} {s u : State} (h : Framed φ l s u) : Within φ l s u :=
  ⟨h.leaves.pending, h.leaves.tidy, h.leaves.words, h.shape⟩

namespace Within

variable {φ : State → State → State} {l : List Nat} {s u v w : State}

theorem ite {c : Prop} [Decidable c] (h : Within φ l s u) (k : Within φ l s v) : Within φ l s (if c then u else v) := by
  split
  · exact h
  · exact k

/-- A field written, where `φ` takes the registers from its second state. -/
theorem setF {p : Nat} {fl : Fld} {n : Nat} (hφ : s.setF p fl n = φ s (s.setF p fl n)) (h : regAddr p fl.off ∈ l) : Within φ l s (s.setF p fl n) :=
  ⟨rfl, fun ht => ⟨tabSet_wf _ _ ht.1, ht.2⟩, fun _ ha => word_setF_other s p fl n _ fun e => ha (e ▸ h), hφ⟩

/-- A tidy state ends a command in what its effect leaves. -/
theorem done_eq {t : Nat} (ht : s.Tidy) (h : Within φ l (s.upTo t) u) (hd : done s u = .next w) : w = u :=
  (done_next hd).trans (ended_of_tidy (h.tidy (upTo_tidy t ht)) (h.pending.trans (upTo_pending s t)))

section
variable (hφ : Shape φ)
include hφ

theorem refl (s : State) : Within φ l s s := (Framed.refl hφ s).within

theorem trans (h : Within φ l s u) (k : Within φ l u v) : Within φ l s v where
  pending := k.pending.trans h.pending
  tidy := fun ht => k.tidy (h.tidy ht)
  words := fun a ha => (k.words a ha).trans (h.words a ha)
  shape := k.shape.trans ((congrArg (φ · v) h.shape).trans (hφ.compose s u v))

/-- What a command changes whose effect takes place at tick `t` in a tidy state. -/
theorem frame {t : Nat} (ht : s.Tidy) (h : Within φ l (s.upTo t) u) (w : State) (hd : done s u = .next w) : w = φ s w ∧ RegsBut l s w := by
  obtain rfl := done_eq ht h hd
  have hs : s.upTo t = φ s (s.upTo t) := by rw [upTo_eq]; exact (hφ.timed s (s.upTo t)).symm
  exact ⟨h.shape.trans ((congrArg (φ · w) hs).trans (hφ.compose s _ w)), fun a ha => (h.words a ha).trans (upTo_word s t a)⟩

end

end Within

/-! ### The frequency meter (R60, R62) -/

/-- What the start and the limit of a measurement may change. -/
def fmeasShape (s u : State) : State :=
  { s with
    time := { s.time with now := u.time.now, acc := u.time.acc, cycles := u.time.cycles }, regs := u.regs, clk := { s.clk with fmeas := u.clk.fmeas } }

/-- What the end of a measurement may change. -/
def fmeasDoneShape (s u : State) : State :=
  { s with
    time := { s.time with now := u.time.now, acc := u.time.acc, cycles := u.time.cycles }, regs := u.regs, clk := { s.clk with fmeas := u.clk.fmeas },
    lastEv := u.lastEv, ev := { s.ev with offers := u.ev.offers } }

theorem fmeasShape_shape : Shape fmeasShape := ⟨fun _ _ _ => rfl, fun _ _ => rfl⟩
theorem fmeasDoneShape_shape : Shape fmeasDoneShape := ⟨fun _ _ _ => rfl, fun _ _ => rfl⟩
theorem fmeasDoneShape_marks : Marks fmeasDoneShape := fun _ _ => rfl

/-- The registers that the end of a measurement writes. -/
def fmeasDoneRegs : List Nat := [regAddr Pg.CLK Reg.CLK_FMEAS_STATUS_BUSY.off, regAddr Pg.CLK Reg.CLK_FMEAS_COUNT.off] ++ noted Pg.CLK

theorem fmeasShape_setB {l : List Nat} {fl : Fld} (h : regAddr Pg.CLK fl.off ∈ l) (s : State) (v : Bool) :
    Framed fmeasShape l s (s.setB Pg.CLK fl v) := ⟨.setWord s _ (not_not.mpr h), rfl⟩

/-- The edges of a burst on its way change the measurement they are taken into. -/
theorem fmeasUnder_framed (l : List Nat) (s : State) : Framed fmeasShape l s s.fmeasUnder := by
  have hφ := fmeasShape_shape
  have hburst (u : State) (src n v gap edges : Nat) : Framed fmeasShape l u (u.fmeasBurst src n v gap edges) :=
    ⟨⟨rfl, rfl, rfl, rfl, rfl, id, fun _ _ => rfl⟩, rfl⟩
  have hstep (u : State) (k : Fin 8) (c : Bool) : Framed fmeasShape l u (u.when c fun s => s.fmeasStep k s.steppers[k].tick) :=
    .ite (hburst u _ _ _ _ _) (.refl hφ u)
  unfold State.fmeasUnder
  split
  · dsimp only
    split
    · exact .trans hφ (hstep s _ _) (hburst _ _ _ _ _ _)
    · exact hstep s _ _
  · exact .refl hφ s

section
variable {s : State} (ht : s.Tidy) (t : Nat)
include ht

theorem fmeasStart_yields : Yields fmeasShape [regAddr Pg.CLK Reg.CLK_FMEAS_STATUS_BUSY.off] (s.upTo t) (execFmeasStart t s) := by
  have hφ := fmeasShape_shape
  have hset (u : State) (m : Option Fmeas) : Framed fmeasShape [regAddr Pg.CLK Reg.CLK_FMEAS_STATUS_BUSY.off] u
      (u.setClk fun k => { k with fmeas := m }) := ⟨⟨rfl, rfl, rfl, rfl, rfl, id, fun _ _ => rfl⟩, rfl⟩
  exact .ite (.fault _) (.doneAt ht (.ite (.trans hφ (.trans hφ (.trans hφ (hset _ _) (fmeasUnder_framed _ _))
    (fmeasShape_setB (.head _) _ _)) (fmeasShape_setB (fl := Reg.CLK_FMEAS_STATUS_DONE) (.head _) _ _)) (.refl hφ _)))

theorem fmeasTimeout_yields : Yields fmeasShape [regAddr Pg.CLK Reg.CLK_FMEAS_STATUS_BUSY.off] (s.upTo t) (execFmeasTimeout t s) := by
  have hφ := fmeasShape_shape
  have hset (u : State) (m : Option Fmeas) : Framed fmeasShape [regAddr Pg.CLK Reg.CLK_FMEAS_STATUS_BUSY.off] u
      (u.setClk fun k => { k with fmeas := m }) := ⟨⟨rfl, rfl, rfl, rfl, rfl, id, fun _ _ => rfl⟩, rfl⟩
  refine .doneAt ht ?_
  split
  · exact .ite (.trans hφ (.trans hφ (hset _ _) (fmeasShape_setB (.head _) _ _))
      (fmeasShape_setB (fl := Reg.CLK_FMEAS_STATUS_TIMEOUT) (.head _) _ _)) (.refl hφ _)
  · exact .refl hφ _

theorem fmeasDone_yields (n : Nat) : Yields fmeasDoneShape fmeasDoneRegs (s.upTo t) (execFmeasDone t n s) := by
  have hφ := fmeasDoneShape_shape
  have hm := fmeasDoneShape_marks
  have hclear (u : State) : Framed fmeasDoneShape fmeasDoneRegs u (u.setClk fun k => { k with fmeas := none }) :=
    ⟨⟨rfl, rfl, rfl, rfl, rfl, id, fun _ _ => rfl⟩, rfl⟩
  have hbusy (u : State) (v : Bool) : Framed fmeasDoneShape fmeasDoneRegs u (u.setB Pg.CLK Reg.CLK_FMEAS_STATUS_BUSY v) :=
    .setF u hm _ _ (.head _)
  have hend (u : State) (v : Bool) : Framed fmeasDoneShape fmeasDoneRegs u (u.setB Pg.CLK Reg.CLK_FMEAS_STATUS_DONE v) :=
    .setF u hm _ _ (.head _)
  have htimeout (u : State) (v : Bool) : Framed fmeasDoneShape fmeasDoneRegs u (u.setB Pg.CLK Reg.CLK_FMEAS_STATUS_TIMEOUT v) :=
    .setF u hm _ _ (.head _)
  have hcount (u : State) (v : Nat) : Framed fmeasDoneShape fmeasDoneRegs u (u.setF Pg.CLK Reg.CLK_FMEAS_COUNT v) :=
    .setF u hm _ _ (.tail _ (.head _))
  have hev (u : State) (k : Nat) : Framed fmeasDoneShape fmeasDoneRegs u (u.ev! Pg.CLK k) := .ev! u hm (List.subset_append_right _ _) k
  refine .doneAt ht ?_
  split
  · split
    · exact .ite (.trans hφ (.trans hφ (.trans hφ (.trans hφ (.trans hφ (hclear _) (hbusy _ _)) (hend _ _)) (htimeout _ _)) (hcount _ _))
        (hev _ _)) (.refl hφ _)
    · exact .refl hφ _
  · exact .refl hφ _

end

/-! ### The references (R50 to R53, R59) -/

/-- What the end of a hold may change. -/
def lockShape (s u : State) : State :=
  { s with
    time := { s.time with now := u.time.now, acc := u.time.acc, cycles := u.time.cycles }, regs := u.regs, lastEv := u.lastEv,
    ev := { s.ev with offers := u.ev.offers } }

/-- What the end of coasting may change. -/
def exitShape (s u : State) : State :=
  { s with
    time := { s.time with now := u.time.now, acc := u.time.acc, cycles := u.time.cycles }, regs := u.regs,
    clk := { s.clk with exiting := u.clk.exiting, qualSince := u.clk.qualSince, freqOk := u.clk.freqOk }, lastEv := u.lastEv,
    ev := { s.ev with offers := u.ev.offers } }

/-- What a candidate that becomes valid may change. -/
def qualShape (s u : State) : State :=
  { s with
    time := { s.time with now := u.time.now, acc := u.time.acc, cycles := u.time.cycles }, regs := u.regs,
    clk := { s.clk with exiting := u.clk.exiting, holdStart := u.clk.holdStart, prevSel := u.clk.prevSel, chain := u.clk.chain }, lastEv := u.lastEv,
    ev := { s.ev with offers := u.ev.offers } }

theorem lockShape_shape : Shape lockShape := ⟨fun _ _ _ => rfl, fun _ _ => rfl⟩
theorem lockShape_marks : Marks lockShape := fun _ _ => rfl
theorem exitShape_shape : Shape exitShape := ⟨fun _ _ _ => rfl, fun _ _ => rfl⟩
theorem exitShape_marks : Marks exitShape := fun _ _ => rfl
theorem qualShape_shape : Shape qualShape := ⟨fun _ _ _ => rfl, fun _ _ => rfl⟩
theorem qualShape_marks : Marks qualShape := fun _ _ => rfl

/-- The registers that the end of a hold writes. -/
def lockRegs : List Nat := [regAddr Pg.CLK Reg.CLK_STATUS_LOCKED.off, regAddr Pg.CLK Reg.CLK_COUNTS_SWITCH_COUNT.off] ++ noted Pg.CLK

/-- The registers that the end of coasting writes. -/
def exitRegs : List Nat := [regAddr Pg.CLK Reg.CLK_STATUS_LOCKED.off, regAddr Pg.CLK Reg.CLK_REF_STATUS_SELECTED.off] ++ noted Pg.CLK

/-- The registers that a candidate that becomes valid writes. -/
def qualRegs : List Nat := [regAddr Pg.CLK Reg.CLK_STATUS_LOCKED.off, regAddr Pg.CLK Reg.CLK_REF_STATUS_SELECTED.off,
  regAddr Pg.CLK Reg.CLK_LAST_SWITCH_LO.off, regAddr Pg.CLK Reg.CLK_LAST_SWITCH_HI.off] ++ noted Pg.CLK

/-- A hold that begins or changes its candidate (R52, R53). -/
theorem holdBegin_framed (s : State) (c cause : Nat) : Framed qualShape qualRegs s (s.holdBegin c cause) := by
  have hφ := qualShape_shape
  have hw (u : State) (fl : Fld) (v : Nat) (h : regAddr Pg.CLK fl.off ∈ qualRegs) : Framed qualShape qualRegs u (u.setF Pg.CLK fl v) :=
    .setF u qualShape_marks _ _ h
  have hswitch (u : State) (v : Nat) : Framed qualShape qualRegs u (u.setPair Pg.CLK Reg.CLK_LAST_SWITCH_LO Reg.CLK_LAST_SWITCH_HI v) :=
    .trans hφ (hw _ _ _ (by decide)) (hw _ _ _ (by decide))
  have hclk (u : State) (a b : Nat) : Framed qualShape qualRegs u (u.setClk fun k => { k with holdStart := a, prevSel := b, chain := false }) :=
    ⟨⟨rfl, rfl, rfl, rfl, rfl, id, fun _ _ => rfl⟩, rfl⟩
  exact .ite (hw _ _ _ (by decide)) (.trans hφ (.trans hφ (.trans hφ (.trans hφ (.trans hφ (hw _ _ _ (by decide)) (hw _ _ _ (by decide)))
    (hw _ _ _ (by decide))) (hswitch _ _)) (hclk _ _ _)) (hw _ _ _ (by decide)))

section
variable {s : State} (ht : s.Tidy) (t : Nat)
include ht

theorem holdLock_yields : Yields lockShape lockRegs (s.upTo t) (execHoldLock t s) := by
  have hφ := lockShape_shape
  have hw (u : State) (fl : Fld) (v : Nat) (h : regAddr Pg.CLK fl.off ∈ lockRegs) : Framed lockShape lockRegs u (u.setF Pg.CLK fl v) :=
    .setF u lockShape_marks _ _ h
  have hlock := fun u : State => Framed.trans hφ (.trans hφ (hw u Reg.CLK_STATUS_HOLD (b2n false) (by decide))
    (hw _ Reg.CLK_STATUS_HOLD_CAUSE 0 (by decide))) (hw _ Reg.CLK_STATUS_LOCKED (b2n true) (by decide))
  have hcount := fun (u : State) (v : Nat) => Framed.trans hφ (hw u Reg.CLK_COUNTS_SWITCH_COUNT v (by decide))
    (.ev! _ lockShape_marks (List.subset_append_right _ _) Ev.CLK_REF_SWITCH)
  exact .doneAt ht (.ite (.ite (hlock _) (.trans hφ (hlock _) (hcount _ _))) (.refl hφ _))

theorem coastExitLock_yields (ok : Bool) : Yields exitShape exitRegs (s.upTo t) (execCoastExitLock t ok s) := by
  have hφ := exitShape_shape
  have hw (u : State) (fl : Fld) (v : Nat) (h : regAddr Pg.CLK fl.off ∈ exitRegs) : Framed exitShape exitRegs u (u.setF Pg.CLK fl v) :=
    .setF u exitShape_marks _ _ h
  have hclk (u : State) {x : ClkSt} (hx : x = { u.clk with exiting := x.exiting, qualSince := x.qualSince, freqOk := x.freqOk }) :
      Framed exitShape exitRegs u { u with clk := x } := ⟨⟨rfl, rfl, rfl, rfl, rfl, id, fun _ _ => rfl⟩, by rw [hx]; rfl⟩
  have hlocks := fun (u : State) (c : Nat) => Framed.trans hφ (.trans hφ (.trans hφ (hw u Reg.CLK_STATUS_COASTING (b2n false) (by decide))
    (hw _ Reg.CLK_STATUS_LOCKED (b2n true) (by decide))) (hw _ Reg.CLK_REF_STATUS_SELECTED c (by decide)))
    (hclk _ (x := { u.clk with exiting := false, freqOk := Vector.replicate 4 true }) rfl)
  have hlost := fun (u : State) (c : Nat) => Framed.trans hφ (hw u Reg.CLK_REF_STATUS_VALID (putBit (u.f Pg.CLK Reg.CLK_REF_STATUS_VALID) c false)
    (by decide)) (.ev! _ exitShape_marks (List.subset_append_right _ _) Ev.CLK_REF_LOST)
  refine .doneAt ht (.ite ?_ (.refl hφ _))
  split
  · exact .ite (hlocks _ _) (.trans hφ (.trans hφ (hlost _ _) (hclk _ rfl)) (hclk _ rfl))
  · exact .refl hφ _

theorem candidateQualified_yields (c : Fin 4) : Yields qualShape qualRegs (s.upTo t) (execCandidateQualified t c s) := by
  have hφ := qualShape_shape
  have hvalid (u : State) : Framed qualShape qualRegs u ((u.setValid c true).ev! Pg.CLK Ev.CLK_REF_RETURN) :=
    .trans hφ (.setF u qualShape_marks Pg.CLK (fl := Reg.CLK_REF_STATUS_VALID) _ (by decide))
      (.ev! _ qualShape_marks (List.subset_append_right _ _) _)
  have hexit (u : State) : Framed qualShape qualRegs u u.exitBegin := ⟨⟨rfl, rfl, rfl, rfl, rfl, id, fun _ _ => rfl⟩, rfl⟩
  refine .doneAt ht ?_
  split
  · exact .ite (.ite (.ite (hvalid _) (.trans hφ (hvalid _) (hexit _))) (.ite (.trans hφ (hvalid _) (holdBegin_framed _ _ _)) (hvalid _)))
      (.refl hφ _)
  · exact .refl hφ _

end

/-! ### The way out of DORMANT (R125, R126) -/

/-- What a wake event may change. -/
def wakeShape (s u : State) : State :=
  { s with time := { s.time with now := u.time.now, acc := u.time.acc, cycles := u.time.cycles }, regs := u.regs, pwr := u.pwr }

theorem wakeShape_shape : Shape wakeShape := ⟨fun _ _ _ => rfl, fun _ _ => rfl⟩

/-- The registers that a wake event writes. -/
def wakeRegs : List Nat := [regAddr Pg.PWR Reg.PWR_WAKE_STATUS_CAUSE.off, regAddr Pg.PWR Reg.PWR_AON_COUNTS_WAKES.off]

theorem setPwr_within (l : List Nat) (s : State) (g : PwrSt → PwrSt) : Within wakeShape l s (s.setPwr g) := ⟨rfl, id, fun _ _ => rfl, rfl⟩

theorem wake_within (s : State) (cause : Nat) : Within wakeShape wakeRegs s (s.wake cause) := by
  have hφ := wakeShape_shape
  have hcause (u : State) (v : Nat) : Within wakeShape wakeRegs u (u.setF Pg.PWR Reg.PWR_WAKE_STATUS_CAUSE v) := .setF rfl (.head _)
  have hcount (u : State) (v : Nat) : Within wakeShape wakeRegs u (u.setF Pg.PWR Reg.PWR_AON_COUNTS_WAKES v) := .setF rfl (.tail _ (.head _))
  unfold State.wake
  exact .trans hφ (.trans hφ (hcause _ _) (hcount _ _)) (setPwr_within _ _ _)

section
variable {s : State} (ht : s.Tidy) (t : Nat)
include ht

theorem wakeEvent_frame (c : Fin 5) : Ensures (.wakeEvent t c) s fun u => u = wakeShape s u ∧ RegsBut wakeRegs s u := by
  have hφ := wakeShape_shape
  have hset := setPwr_within wakeRegs
  refine Within.frame hφ ht (.ite (.refl hφ _) (.ite (.ite ?_ ?_) (.ite (.setF rfl (.head _)) (.refl hφ _))))
  · split
    · exact .ite (hset _ _) (.refl hφ _)
    · exact hset _ _
  · exact .trans hφ (wake_within _ _) (hset _ _)

theorem wakeBlankEnd_frame : Ensures (.wakeBlankEnd t) s fun u => u = wakeShape s u ∧ RegsBut wakeRegs s u := by
  have hφ := wakeShape_shape
  have hset := setPwr_within wakeRegs
  refine Within.frame (t := t) hφ ht ?_
  split
  · exact .ite (.trans hφ (hset _ _) (wake_within _ _)) (.trans hφ (hset _ _) (hset _ _))
  · exact hset _ _

theorem pgTimeout_frame : Ensures (.pgTimeout t) s fun u =>
    u = wakeShape s u ∧ RegsBut [regAddr Pg.PWR Reg.PWR_WAKE_STATUS_CAUSE.off] s u := by
  have hφ := wakeShape_shape
  have hset := setPwr_within [regAddr Pg.PWR Reg.PWR_WAKE_STATUS_CAUSE.off]
  have htimeout (u : State) : Within wakeShape [regAddr Pg.PWR Reg.PWR_WAKE_STATUS_CAUSE.off] u (u.setB Pg.PWR Reg.PWR_WAKE_STATUS_PG_TIMEOUT true) :=
    .setF rfl (.head _)
  have hexit (u : State) (n : Nat) : Within wakeShape [regAddr Pg.PWR Reg.PWR_WAKE_STATUS_CAUSE.off] u (u.lastExit n) := .setF rfl (.head _)
  exact Within.frame hφ ht (.ite (.trans hφ (.trans hφ (.trans hφ (.trans hφ (hset _ _) (htimeout _)) (hexit _ _)) (hset _ _)) (hset _ _))
    (.refl hφ _))

end

/-! ### The exchanges of network time (R107, R108, R110, R113) -/

/-- What a DLY_REQ received may change. -/
def dlyReqShape (s u : State) : State :=
  { s with
    time := { s.time with now := u.time.now, acc := u.time.acc, cycles := u.time.cycles, routes := u.time.routes, forwards := u.time.forwards },
    regs := u.regs, lastEv := u.lastEv, ev := { s.ev with offers := u.ev.offers } }

/-- What a DLY_RSP received on port `p` may change. -/
def dlyRspShape (p : Fin 4) (s u : State) : State :=
  { s with
    time := { s.time with
      now := u.time.now, acc := u.time.acc, cycles := u.time.cycles, ports := s.time.ports.set p u.time.ports[p], forwards := u.time.forwards },
    regs := u.regs }

/-- What the timeout of a DLY_REQ of port `p` may change. -/
def dlyTimeoutShape (p : Fin 4) (s u : State) : State :=
  { s with
    time := { s.time with now := u.time.now, acc := u.time.acc, cycles := u.time.cycles, ports := s.time.ports.set p u.time.ports[p] },
    regs := u.regs, lastEv := u.lastEv, ev := { s.ev with offers := u.ev.offers } }

/-- What a time frame forwarded on lane `l` may change. -/
def forwardShape (l : Fin 20) (s u : State) : State :=
  { s with
    time := { s.time with now := u.time.now, acc := u.time.acc, cycles := u.time.cycles, forwards := u.time.forwards }, regs := u.regs,
    lanes := s.lanes.set l u.lanes[l] }

/-- What an adjustment written may change. -/
def adjShape (s u : State) : State :=
  { s with
    time := { s.time with now := u.time.now, acc := u.time.acc, cycles := u.time.cycles, nextAdj := u.time.nextAdj }, regs := u.regs,
    active := u.active, lastEv := u.lastEv, ev := { s.ev with offers := u.ev.offers } }

/-- What a launch on lane `l` may change. -/
def launchShape (l : Fin 20) (s u : State) : State :=
  { s with
    time := { s.time with now := u.time.now, acc := u.time.acc, cycles := u.time.cycles, ports := u.time.ports }, regs := u.regs,
    lanes := s.lanes.set l u.lanes[l], lastEv := u.lastEv, ev := { s.ev with offers := u.ev.offers } }

theorem dlyReqShape_shape : Shape dlyReqShape := ⟨fun _ _ _ => rfl, fun _ _ => rfl⟩
theorem dlyReqShape_marks : Marks dlyReqShape := fun _ _ => rfl
theorem adjShape_shape : Shape adjShape := ⟨fun _ _ _ => rfl, fun _ _ => rfl⟩
theorem adjShape_marks : Marks adjShape := fun _ _ => rfl

theorem dlyRspShape_shape (p : Fin 4) : Shape (dlyRspShape p) := ⟨fun s u v => by simp [dlyRspShape], fun s u => by simp [dlyRspShape, timed]⟩
theorem dlyTimeoutShape_shape (p : Fin 4) : Shape (dlyTimeoutShape p) :=
  ⟨fun s u v => by simp [dlyTimeoutShape], fun s u => by simp [dlyTimeoutShape, timed]⟩
theorem dlyTimeoutShape_marks (p : Fin 4) : Marks (dlyTimeoutShape p) := fun s u => by simp [dlyTimeoutShape, marked]
theorem forwardShape_shape (l : Fin 20) : Shape (forwardShape l) := ⟨fun s u v => by simp [forwardShape], fun s u => by simp [forwardShape, timed]⟩
theorem launchShape_shape (l : Fin 20) : Shape (launchShape l) := ⟨fun s u v => by simp [launchShape], fun s u => by simp [launchShape, timed]⟩
theorem launchShape_marks (l : Fin 20) : Marks (launchShape l) := fun s u => by simp [launchShape, marked]

theorem forward_dlyReq (l : List Nat) (s : State) (f : Forward) : Within dlyReqShape l s (s.forward f) := ⟨rfl, id, fun _ _ => rfl, rfl⟩
theorem setRoute_dlyReq (l : List Nat) (s : State) (r : Vector (Option Nat) 16) : Within dlyReqShape l s (s.setTime fun x => { x with routes := r }) :=
  ⟨rfl, id, fun _ _ => rfl, rfl⟩

theorem setTPort_dlyRsp (l : List Nat) (s : State) (p : Fin 4) (g : TimePort → TimePort) : Within (dlyRspShape p) l s (s.setTPort p g) :=
  ⟨rfl, id, fun _ _ => rfl, by simp [dlyRspShape, State.setTPort, State.setTime]⟩
theorem setTPort_dlyTimeout (l : List Nat) (s : State) (p : Fin 4) (g : TimePort → TimePort) : Within (dlyTimeoutShape p) l s (s.setTPort p g) :=
  ⟨rfl, id, fun _ _ => rfl, by simp [dlyTimeoutShape, State.setTPort, State.setTime]⟩

/-- A frame that leaves changes its lane, and the number shown of a host or peer port (R83). -/
theorem sendFrame_within {φ : State → State → State} (hφ : Shape φ) {r : List Nat} {l : Fin 20} (hlane : ∀ u g, Within φ r u (u.setLane l g))
    (hseq : ∀ u v, Within φ r u (u.setF (lanePage l) Reg.FRAME_FRAME_STATUS_TX_SEQ v)) (s : State) (ty flags : Nat) (payload : List Byte) (v : Nat) :
    Within φ r s (s.sendFrame l ty flags payload v) := .ite (.trans hφ (hlane _ _) (hseq _ _)) (hlane _ _)

theorem setLane_forward (l : Fin 20) (r : List Nat) (s : State) (g : Lane → Lane) : Within (forwardShape l) r s (s.setLane l g) :=
  ⟨rfl, id, fun _ _ => rfl, by simp [forwardShape, State.setLane]⟩

theorem setWord_forward (l : Fin 20) (s : State) (a : Nat) (v : Word) : s.setWord a v = forwardShape l s (s.setWord a v) := by
  simp [forwardShape, State.setWord]

theorem sendFrame_forward (l : Fin 20) (s : State) (ty flags : Nat) (payload : List Byte) (v : Nat) :
    Within (forwardShape l) [regAddr (lanePage l.val) Reg.FRAME_FRAME_STATUS_TX_SEQ.off] s (s.sendFrame l ty flags payload v) :=
  sendFrame_within (forwardShape_shape l) (setLane_forward l _) (fun u _ => .setF (setWord_forward l u _ _) (.head _)) s ty flags payload v

theorem dropForward_within (l : Fin 20) (s : State) (f : Forward) : Within (forwardShape l)
    [regAddr (lanePage l.val) Reg.FRAME_FRAME_STATUS_TX_SEQ.off] s (s.setTime fun x => { x with forwards := x.forwards.erase f }) :=
  ⟨rfl, id, fun _ _ => rfl, by simp [forwardShape, State.setTime]⟩

section
variable {s : State} (ht : s.Tidy) (t : Nat) (p : Fin 4)
include ht

theorem dlyReqReceive_frame (txTime seqId senderId : Nat) :
    Ensures (.dlyReqReceive t p txTime seqId senderId) s fun u => u = dlyReqShape s u ∧ RegsBut (noted Pg.TIME) s u := by
  have hφ := dlyReqShape_shape
  have hconflict (u : State) (k : Nat) : Within dlyReqShape (noted Pg.TIME) u (u.sticky! Pg.TIME k) :=
    (Framed.sticky! hφ u dlyReqShape_marks (List.Subset.refl _) k).within
  refine Within.frame (t := t) hφ ht (.ite (.ite (.trans hφ (.trans hφ ?_ (setRoute_dlyReq _ _ _)) (forward_dlyReq _ _ _))
    (.ite (forward_dlyReq _ _ _) (.refl hφ _))) (.refl hφ _))
  split
  · exact .ite (hconflict _ _) (.refl hφ _)
  · exact .refl hφ _

theorem dlyRspReceive_frame (reqRx reqCorr seqId responder : Nat) : Ensures (.dlyRspReceive t p reqRx reqCorr seqId responder) s fun u =>
    u = dlyRspShape p s u ∧ RegsBut [regAddr Pg.TIME Reg.TIME_DLY_COMPLETED.off, regAddr Pg.TIME Reg.TIME_SYNC_DISCARDED.off,
      regAddr Pg.TIME (Reg.TIME_DELAY.num p.val).off] s u := by
  have hφ := dlyRspShape_shape p
  have hw (u : State) (fl : Fld) (v : Nat) (h : regAddr Pg.TIME fl.off ∈ [regAddr Pg.TIME Reg.TIME_DLY_COMPLETED.off,
      regAddr Pg.TIME Reg.TIME_SYNC_DISCARDED.off, regAddr Pg.TIME (Reg.TIME_DELAY.num p.val).off]) : Within (dlyRspShape p) _ u (u.setF Pg.TIME fl v) :=
    .setF (by simp [dlyRspShape, State.setF, State.setWord]) h
  refine Within.frame (t := t) hφ ht (.ite (.ite ?_ (.ite ?_ (.refl hφ _))) (.refl hφ _))
  · split
    · exact .trans hφ (setTPort_dlyRsp _ _ _ _) (.trans hφ (.trans hφ (setTPort_dlyRsp _ _ _ _) (hw _ _ _ (.tail _ (.tail _ (.head _)))))
        (hw _ _ _ (.head _)))
    · exact .refl hφ _
  · split
    · exact ⟨rfl, id, fun _ _ => rfl, by simp [dlyRspShape, State.forward, State.setTime]⟩
    · exact hw _ _ _ (.tail _ (.head _))

theorem dlyTimeout_frame : Ensures (.dlyTimeout t p) s fun u =>
    u = dlyTimeoutShape p s u ∧ RegsBut ([regAddr Pg.TIME Reg.TIME_DLY_TIMEOUTS.off] ++ noted Pg.TIME) s u := by
  have hφ := dlyTimeoutShape_shape p
  have hm := dlyTimeoutShape_marks p
  have hcount (u : State) (v : Nat) : Framed (dlyTimeoutShape p) ([regAddr Pg.TIME Reg.TIME_DLY_TIMEOUTS.off] ++ noted Pg.TIME) u
      (u.setF Pg.TIME Reg.TIME_DLY_TIMEOUTS v) := .setF u hm _ _ (.head _)
  refine Within.frame (t := t) hφ ht ?_
  split
  · exact .ite (.trans hφ (.trans hφ (setTPort_dlyTimeout _ _ _ _) (hcount _ _).within)
      (Framed.sticky! hφ _ hm (List.subset_append_right _ _) _).within) (.refl hφ _)
  · exact .refl hφ _

theorem timeFrameForward_frame : Ensures (.timeFrameForward t p) s fun u =>
    u = forwardShape (p.castLE (by decide)) s u ∧ RegsBut [regAddr (lanePage p.val) Reg.FRAME_FRAME_STATUS_TX_SEQ.off] s u := by
  have hφ := forwardShape_shape (p.castLE (by decide))
  have hdrop := dropForward_within (p.castLE (by decide))
  refine Within.frame (t := t) (l := [regAddr (lanePage (p.castLE (by decide) : Fin 20).val) Reg.FRAME_FRAME_STATUS_TX_SEQ.off]) hφ ht ?_
  split
  · next f _ => exact .ite (hdrop _ f) (.ite (.trans hφ (sendFrame_forward _ _ _ _ _ _) (hdrop _ f)) (.refl hφ _))
  · exact .refl hφ _

end

/-- What a write of ADJ_HI leaves: the two words of the adjustment applied together, and the adjustment that waits, where a step is allowed
(R40, R113). -/
def adjWritten (s : State) (v : Word) : State :=
  let s1 := ((s.setWord (regAddr Pg.TIME 0x070) v).setActWord (regAddr Pg.TIME 0x070) v).setActWord (regAddr Pg.TIME 0x06C)
    (s.word (regAddr Pg.TIME 0x06C))
  if s1.stepAllowed then s1.setTime fun x => { x with nextAdj := some (signed 64 (s1.pair Pg.TIME Reg.TIME_ADJ_LO Reg.TIME_ADJ_HI)) }
  else s1.sticky! Pg.TIME Sticky.TIME_STEP_REFUSED

theorem adjHiWrite_done {t : Nat} {v : Word} {s w : State} (h : execAdjHiWrite t v s = .next w) : done s (adjWritten (s.upTo t) v) = .next w := by
  simp only [execAdjHiWrite] at h
  split at h
  · cases h
  · exact h

theorem adjWritten_within (s : State) (v : Word) : Within adjShape ([regAddr Pg.TIME 0x070] ++ noted Pg.TIME) s (adjWritten s v) := by
  have hwords (u : State) (w : Word) : Framed adjShape ([regAddr Pg.TIME 0x070] ++ noted Pg.TIME) u
      (((u.setWord (regAddr Pg.TIME 0x070) v).setActWord (regAddr Pg.TIME 0x070) v).setActWord (regAddr Pg.TIME 0x06C) w) :=
    ⟨((Leaves.setWord u v (not_not.mpr (.head _))).trans (.setActWord _ _ _)).trans (.setActWord _ _ _), rfl⟩
  have hwaits (u : State) (a : Option Int) : Within adjShape ([regAddr Pg.TIME 0x070] ++ noted Pg.TIME) u (u.setTime fun x => { x with nextAdj := a }) :=
    ⟨rfl, id, fun _ _ => rfl, rfl⟩
  have hrefused (u : State) (k : Nat) := Framed.sticky! adjShape_shape u adjShape_marks (List.subset_append_right [regAddr Pg.TIME 0x070] (noted Pg.TIME)) k
  exact .ite (.trans adjShape_shape (hwords _ _).within (hwaits _ _)) (.trans adjShape_shape (hwords _ _).within (hrefused _ _).within)

theorem adjWritten_actWord (s : State) (v : Word) {a : Nat} (ha : a ∉ [regAddr Pg.TIME 0x06C, regAddr Pg.TIME 0x070]) :
    (adjWritten s v).actWord a = s.actWord a := by
  obtain ⟨hlo, hhi⟩ : a ≠ regAddr Pg.TIME 0x06C ∧ a ≠ regAddr Pg.TIME 0x070 := by simpa using ha
  have hwords (u : State) (w : Word) : (((u.setWord (regAddr Pg.TIME 0x070) v).setActWord (regAddr Pg.TIME 0x070) v).setActWord
      (regAddr Pg.TIME 0x06C) w).actWord a = u.actWord a := by
    rw [actWord_setActWord, if_neg hlo, actWord_setActWord, if_neg hhi]
    rfl
  unfold adjWritten
  extract_lets s1
  split
  · exact hwords s _
  · exact (sticky_actWord _ _ _ _ a).trans (hwords s _)

/-! ### Launches (R118, R119) -/

/-- The registers that a launch on lane `l` writes. -/
def launchRegs (l : Fin 20) : List Nat :=
  [regAddr Pg.TIME Reg.TIME_LAUNCH_LATE.off] ++ [regAddr Pg.VISION Reg.VISION_MET_SENT.off] ++ noted Pg.TIME ++
    [regAddr (lanePage l.val) Reg.FRAME_FRAME_STATUS_TX_SEQ.off]

section
variable (s : State) (l : Fin 20)

theorem setLane_launch (g : Lane → Lane) : Within (launchShape l) (launchRegs l) s (s.setLane l g) :=
  ⟨rfl, id, fun _ _ => rfl, by simp [launchShape, State.setLane]⟩

theorem sendFrame_launch (ty flags : Nat) (payload : List Byte) (v : Nat) :
    Within (launchShape l) (launchRegs l) s (s.sendFrame l ty flags payload v) :=
  sendFrame_within (launchShape_shape l) (fun u g => setLane_launch u l g)
    (fun u v => (Framed.setF u (launchShape_marks l) _ v (by simp [launchRegs])).within) s ty flags payload v

theorem launchOut_launch (e : LaunchEntry) (v : Nat) : Within (launchShape l) (launchRegs l) s (s.launchOut l e v) := by
  have hport (u : State) (p : Fin 4) (g : TimePort → TimePort) : Within (launchShape l) (launchRegs l) u (u.setTPort p g) :=
    ⟨rfl, id, fun _ _ => rfl, by simp [launchShape, State.setTPort, State.setTime]⟩
  unfold State.launchOut
  extract_lets u s1
  split
  · exact .trans (launchShape_shape l) (sendFrame_launch s l _ _ _ _) (hport _ _ _)
  · exact sendFrame_launch s l _ _ _ _

theorem countLate_launch : Within (launchShape l) (launchRegs l) s s.countLate := by
  have hφ := launchShape_shape l
  have hm := launchShape_marks l
  have hn : noted Pg.TIME ⊆ launchRegs l := fun _ h => List.mem_append_left _ (List.mem_append_right _ h)
  have hcount (u : State) (v : Nat) : Framed (launchShape l) (launchRegs l) u (u.setF Pg.TIME Reg.TIME_LAUNCH_LATE v) := .setF u hm _ _ (.head _)
  exact (Framed.trans hφ (.trans hφ (hcount _ _) (.sticky! hφ _ hm hn _)) (.ev! _ hm hn _)).within

theorem launchHead_launch : Within (launchShape l) (launchRegs l) s (s.launchHead l) := by
  have hφ := launchShape_shape l
  have hpop (u : State) (g : Lane → Lane) := setLane_launch u l g
  have hout (u : State) (g : Lane → Lane) (e : LaunchEntry) (v : Nat) := Within.trans hφ (hpop u g) (launchOut_launch _ l e v)
  unfold State.launchHead
  split
  · exact .refl hφ s
  · next e rest _ =>
    have hlate : Within (launchShape l) (launchRegs l) s (if e.late then s else s.countLate) := .ite (.refl hφ s) (countLate_launch s l)
    exact .ite (.refl hφ s) (.ite (hout _ _ _ _) (.ite (.ite (.trans hφ hlate (hout _ _ _ _)) (.trans hφ hlate (hpop _ _))) (.trans hφ hlate (hpop _ _))))

theorem sendWaiting_launch : Within (launchShape l) (launchRegs l) s (s.sendWaiting l) := by
  have hφ := launchShape_shape l
  have hsent (u : State) (c : Bool) : Within (launchShape l) (launchRegs l) u (u.when c fun s => s.inc Pg.VISION Reg.VISION_MET_SENT) :=
    .ite (Framed.setF u (launchShape_marks l) _ _ (.tail _ (.head _))).within (.refl hφ u)
  unfold State.sendWaiting
  split
  · exact .ite (.trans hφ (.trans hφ (sendFrame_launch s l _ _ _ _) (setLane_launch _ l _)) (hsent _ _)) (.refl hφ s)
  · exact .refl hφ s

end

/-- Settles O56: the effect of each command is made of steps that keep its shape, and in a tidy state it ends in that effect. -/
theorem framesOfClockAndTime : Obligations.FramesOfClockAndTime := by
  unfold Obligations.FramesOfClockAndTime
  have hat {φ : State → State → State} {l : List Nat} {i : Instr} {s : State} {t : Nat} (hφ : Shape φ) (hy : Yields φ l (s.upTo t) (exec i s)) :
      Ensures i s fun u => u = φ s u ∧ RegsBut l s u := fun u h => ⟨(hy u h).shapeFrom hφ, (hy u h).regsBut⟩
  refine ⟨?_, ?_, ?_, ?_, ?_, ?_, ?_, ?_, ?_, ?_, ?_, ?_, ?_, ?_, ?_⟩
  · exact fun t s ht => hat fmeasShape_shape (fmeasStart_yields ht t)
  · exact fun t n s ht => hat fmeasDoneShape_shape (fmeasDone_yields ht t n)
  · exact fun t s ht => hat fmeasShape_shape (fmeasTimeout_yields ht t)
  · exact fun t s ht => hat lockShape_shape (holdLock_yields ht t)
  · exact fun t ok s ht => hat exitShape_shape (coastExitLock_yields ht t ok)
  · exact fun t c s ht => hat qualShape_shape (candidateQualified_yields ht t c)
  · exact fun t c s ht => wakeEvent_frame ht t c
  · exact fun t s ht => wakeBlankEnd_frame ht t
  · exact fun t s ht => pgTimeout_frame ht t
  · exact fun t p txTime seqId senderId s ht => dlyReqReceive_frame ht t p txTime seqId senderId
  · exact fun t p reqRx reqCorr seqId responder s ht => dlyRspReceive_frame ht t p reqRx reqCorr seqId responder
  · exact fun t p s ht => dlyTimeout_frame ht t p
  · exact fun t p s ht => timeFrameForward_frame ht t p
  · intro t v s ht u h
    have hd := adjHiWrite_done h
    have hw := adjWritten_within (s.upTo t) v
    obtain ⟨hshape, hregs⟩ := Within.frame adjShape_shape ht hw u hd
    refine ⟨hshape, hregs, fun a ha => ?_⟩
    rw [Within.done_eq ht hw hd, adjWritten_actWord _ v ha, upTo_actWord]
  · exact fun t l s ht => Within.frame (launchShape_shape l) ht (.trans (launchShape_shape l) (launchHead_launch _ l) (sendWaiting_launch _ l))

end Sys2Proof.Proofs
end

section
/-! PROOFS. What the registers of a unit show after the operations that write them, and the frequency meter (R60, R62). -/

namespace Sys2Proof.Proofs

open Sys2Proof.Machine Sys2Proof.Laws

/-! ### Fields past the header of a page -/

/-- A field that shows the same number shows the same flag. -/
theorem fb_congr {s u : State} {p q : Nat} {fl g : Fld} (h : u.f p fl = s.f q g) : u.fb p fl = s.fb q g := congrArg (fun n => decide (n ≠ 0)) h

/-- A field past the header of its page. -/
abbrev Own (fl : Fld) : Prop := 0x040 ≤ fl.off ∧ fl.off < 0x1000

section
variable (s : State) {p : Nat} {fl g : Fld}

@[simp] theorem setClk_f (x : ClkSt → ClkSt) (p : Nat) (fl : Fld) : (s.setClk x).f p fl = s.f p fl := rfl

@[simp] theorem setClk_fb (x : ClkSt → ClkSt) (p : Nat) (fl : Fld) : (s.setClk x).fb p fl = s.fb p fl := rfl

theorem ev_f_own (q k : Nat) (hp : p ≠ Pg.EVCOL) (hfl : Own fl) : (s.ev! q k).f p fl = s.f p fl :=
  f_event s q k _ p fl hfl.2 (.inr fun h => absurd (h ▸ hfl.1) (by decide)) (.inl hp)

theorem fb_ev_own (q k : Nat) (hp : p ≠ Pg.EVCOL) (hfl : Own fl) : (s.ev! q k).fb p fl = s.fb p fl := fb_congr (ev_f_own s q k hp hfl)

theorem f_setB_apart (v : Bool) (hf : Fits fl) (hg : Fits g) (h : Apart fl g) : (s.setB p fl v).f p g = s.f p g := f_setF_apart s p fl g _ hf hg h

theorem fb_setF_apart (v : Nat) (hf : Fits fl) (hg : Fits g) (h : Apart fl g) : (s.setF p fl v).fb p g = s.fb p g :=
  fb_congr (f_setF_apart s p fl g v hf hg h)

theorem fb_setB_apart (v : Bool) (hf : Fits fl) (hg : Fits g) (h : Apart fl g) : (s.setB p fl v).fb p g = s.fb p g := fb_setF_apart s _ hf hg h

variable {lo hi : Fld} (v : Nat) (hlo : Fits lo) (hhi : Fits hi) (hg : Fits g) (h : Apart lo g) (h' : Apart hi g)
include hlo hhi hg h h'

theorem f_setPair_apart : (s.setPair p lo hi v).f p g = s.f p g := (f_setF_apart _ p hi g _ hhi hg h').trans (f_setF_apart s p lo g v hlo hg h)

theorem fb_setPair_apart : (s.setPair p lo hi v).fb p g = s.fb p g := fb_congr (f_setPair_apart s v hlo hhi hg h h')

end

/-! ### The frequency meter -/

/-- What a measurement takes at its start: its source and gate, when it began, and that its source runs (R60). -/
def Fmeas.selection (m : Fmeas) : Nat × Nat × Nat × Nat × Nat × Bool := (m.src, m.inst, m.dir, m.gate, m.start, m.gone)

theorem edge_selection (m : Fmeas) (c : Nat) : Fmeas.selection (m.edge c) = Fmeas.selection m := by
  unfold Fmeas.edge
  repeat' split
  all_goals rfl

/-- The edges of a burst leave what a measurement took at its start. -/
theorem fmeasBurst_selection (s : State) (src n v gap edges : Nat) :
    (s.fmeasBurst src n v gap edges).clk.fmeas.map Fmeas.selection = s.clk.fmeas.map Fmeas.selection := by
  have htake (l : List Nat) : ∀ m : Fmeas, Fmeas.selection (l.foldl (fun m i => if reached ((v + gap * i : Nat) : Int) m.start then
      m.edge (s.cyclesAt (wrapU 64 ((v + gap * i : Nat) : Int))) else m) m) = Fmeas.selection m := by
    induction l with
    | nil => exact fun _ => rfl
    | cons i r ih =>
      intro m
      rw [List.foldl_cons, ih]
      split
      · exact edge_selection m _
      · rfl
  simp only [State.fmeasBurst, State.setClk, Option.map_map]
  congr 1
  funext m
  simp only [Function.comp]
  split
  · exact htake _ m
  · rfl

/-- A measurement of another source takes none of them. -/
theorem fmeasBurst_other {s : State} {m : Fmeas} (hm : s.clk.fmeas = some m) {src : Nat} (h : m.src ≠ src) (n v gap edges : Nat) :
    (s.fmeasBurst src n v gap edges).clk.fmeas = some m := by
  simp [State.fmeasBurst, State.setClk, hm, h]

theorem fmeasUnder_selection (s : State) : s.fmeasUnder.clk.fmeas.map Fmeas.selection = s.clk.fmeas.map Fmeas.selection := by
  have hstep (k : Fin 8) (c : Bool) : (s.when c fun s => s.fmeasStep k s.steppers[k].tick).clk.fmeas.map Fmeas.selection =
      s.clk.fmeas.map Fmeas.selection := by
    cases c
    · rfl
    · exact fmeasBurst_selection s _ _ _ _ _
  unfold State.fmeasUnder
  split
  · dsimp only
    split
    · exact (fmeasBurst_selection _ _ _ _ _ _).trans (hstep _ _)
    · exact hstep _ _
  · rfl

/-- Only the bursts of stepper and light ports are taken as they stand on their way (R60). -/
theorem fmeasUnder_other {s : State} {m : Fmeas} (hm : s.clk.fmeas = some m) (h18 : m.src ≠ 18) (h19 : m.src ≠ 19) :
    s.fmeasUnder.clk.fmeas = some m := by
  have hstep (k : Fin 8) (c : Bool) : (s.when c fun s => s.fmeasStep k s.steppers[k].tick).clk.fmeas = some m := by
    cases c
    · exact hm
    · exact fmeasBurst_other hm h18 _ _ _ _
  simp only [State.fmeasUnder, hm]
  split
  · exact fmeasBurst_other (hstep _ _) h19 _ _ _ _
  · exact hstep _ _

/-- What FMEAS_START.GO leaves. -/
def fmeasStarted (s : State) : State :=
  (((s.setClk fun k => { k with fmeas := some ⟨s.f Pg.CLK Reg.CLK_FMEAS_CTRL_SRC, s.f Pg.CLK Reg.CLK_FMEAS_CTRL_INST,
    s.f Pg.CLK Reg.CLK_FMEAS_CTRL_DIR, s.f Pg.CLK Reg.CLK_FMEAS_CTRL_GATE, s.now, s.time.cycles, 0, 0, 0, false⟩ }).fmeasUnder).setB Pg.CLK Reg.CLK_FMEAS_STATUS_BUSY true).setB
    Pg.CLK Reg.CLK_FMEAS_STATUS_DONE false

/-- What the end of a measurement with `count` leaves. -/
def fmeasCounted (s : State) (count : Nat) : State :=
  (((((s.setClk fun k => { k with fmeas := none }).setB Pg.CLK Reg.CLK_FMEAS_STATUS_BUSY false).setB Pg.CLK Reg.CLK_FMEAS_STATUS_DONE true).setB
    Pg.CLK Reg.CLK_FMEAS_STATUS_TIMEOUT false).setF Pg.CLK Reg.CLK_FMEAS_COUNT (satU count 32)).ev! Pg.CLK Ev.CLK_FMEAS_DONE

/-- What the limit of a measurement leaves. -/
def fmeasExpired (s : State) : State :=
  ((s.setClk fun k => { k with fmeas := none }).setB Pg.CLK Reg.CLK_FMEAS_STATUS_BUSY false).setB Pg.CLK Reg.CLK_FMEAS_STATUS_TIMEOUT true

section
variable {s : State} (t : Nat)

theorem fmeasStart_next (hon : s.pwr.sysOn = true) : exec (.fmeasStart t) s = .next (ended s (fmeasStarted (s.upTo t))) := by
  have hon' : (s.upTo t).pwr.sysOn = true := by simpa using hon
  have hpage : (s.upTo t).pageOn Pg.CLK = true := hon'
  exact (if_neg (not_not.mpr hpage)).trans (congrArg (done s) (if_pos hon'))

theorem fmeasDone_next {m : Fmeas} {n k : Nat} (hm : s.clk.fmeas = some m) (hk : m.reading (s.f Pg.NV Reg.NV_NV_CFG_SCK) n = some k)
    (hruns : s.fmeasRuns m = true) (hgate : (if m.dir = 0 then 2 ^ m.gate else k) ≤ 2 ^ 32)
    (hpast : (s.upTo t).fmeasPast m (if m.dir = 0 then 2 ^ m.gate else k) = true) :
    exec (.fmeasDone t n) s = .next (ended s (fmeasCounted (s.upTo t) k)) := by
  have hm' : (s.upTo t).clk.fmeas = some m := by simpa using hm
  have hruns' : (s.upTo t).fmeasRuns m = true := by
    simpa [State.fmeasRuns, State.candEdges, State.nvClocked] using hruns
  have hend : execFmeasDone t n s = done s (fmeasCounted (s.upTo t) k) := by
    simp only [execFmeasDone, hm', upTo_f, hk, hruns', hpast, hgate]
    rfl
  exact hend.trans (done_eq s _)

theorem fmeasTimeout_next {m : Fmeas} (hm : s.clk.fmeas = some m) (hpast : (s.upTo t).fmeasPast m (2 ^ 32) = true) :
    exec (.fmeasTimeout t) s = .next (ended s (fmeasExpired (s.upTo t))) := by
  have hm' : (s.upTo t).clk.fmeas = some m := by simpa using hm
  have hend : execFmeasTimeout t s = done s (fmeasExpired (s.upTo t)) := by
    simp only [execFmeasTimeout, hm', hpast]
    rfl
  exact hend.trans (done_eq s _)

end

/-- Settles O18: the start of a measurement takes the selection and shows BUSY, its end and its limit clear BUSY and show how it ended. -/
theorem frequencyMeter : Obligations.FrequencyMeter := by
  unfold Obligations.FrequencyMeter
  refine ⟨?_, ?_, ?_⟩
  · intro t s hon
    refine ⟨_, fmeasStart_next t hon, ?_, ?_, ?_, fun h18 h19 => ?_⟩
    · rw [ended_fb, fmeasStarted, fb_setB_apart _ _ (by decide) (by decide) (by decide), fb_setB_same _ (by decide)]
    · rw [ended_fb, fmeasStarted, fb_setB_same _ (by decide)]
    · refine (fmeasUnder_selection _).trans ?_
      simp [Fmeas.selection, State.setClk]
    · refine (congrArg (Option.map Fmeas.edges) (fmeasUnder_other (m := _) rfl ?_ ?_)).trans rfl
      · simpa using h18
      · simpa using h19
  · intro t n m k s hm hk hruns hgate hpast
    refine ⟨_, fmeasDone_next t hm hk hruns hgate hpast, ?_, ?_, ?_, ?_⟩
    · simp (disch := decide) only [ended_fb, fmeasCounted, fb_ev_own, fb_setF_apart, fb_setB_apart, fb_setB_same]
    · simp (disch := decide) only [ended_fb, fmeasCounted, fb_ev_own, fb_setF_apart, fb_setB_apart, fb_setB_same]
    · simp (disch := decide) only [ended_f, fmeasCounted, ev_f_own, f_setF_same]
      exact Nat.mod_eq_of_lt (Nat.lt_of_le_of_lt (Nat.min_le_right _ _) (by decide))
    · exact congrArg ClkSt.fmeas (event_clk _ _ _ _)
  · intro t m s hm hpast
    refine ⟨_, fmeasTimeout_next t hm hpast, ?_, ?_, rfl⟩
    · simp (disch := decide) only [ended_fb, fmeasExpired, fb_setB_apart, fb_setB_same]
    · simp (disch := decide) only [ended_fb, fmeasExpired, fb_setB_same]

end Sys2Proof.Proofs
end

section
/-! PROOFS. What noting an error or an event leaves, and the words that showing the laser pins writes. -/

namespace Sys2Proof.Proofs

open Sys2Proof.Machine Sys2Proof.Laws

/-! ### Words and fields that an operation leaves -/

section
variable {A B : Nat → Prop} {l : List Nat} {s u : State} {p : Nat}

theorem Leaves.mono (h : Leaves A s u) (hAB : ∀ a, B a → A a) : Leaves B s u :=
  ⟨h.pending, h.time, h.pwr, h.tap, h.mem, h.tidy, fun a ha => h.words a (hAB a ha)⟩

theorem Leaves.setClk (s : State) (g : ClkSt → ClkSt) : Leaves A s (s.setClk g) := ⟨rfl, rfl, rfl, rfl, rfl, id, fun _ _ => rfl⟩

variable (s) (hn : noted p ⊆ l) (k : Nat)
include hn

theorem ev_leaves : Leaves (· ∉ l) s (s.ev! p k) :=
  .event_of s (not_not.mpr (hn (.tail _ (.tail _ (.head _))))) (not_not.mpr (hn (.head _))) k s.now

theorem sticky_leaves : Leaves (· ∉ l) s (s.sticky! p k) :=
  .sticky_of s (not_not.mpr (hn (.tail _ (.tail _ (.head _))))) (not_not.mpr (hn (.head _))) (not_not.mpr (hn (.tail _ (.head _)))) k s.now

end

/-! ### The words that showing the laser pins writes -/

section
variable {l : List Nat} {s u v : State}

theorem regsBut_trans (h : RegsBut l s u) (k : RegsBut l u v) : RegsBut l s v := fun a ha => (k a ha).trans (h a ha)

theorem regsBut_refl (s : State) : RegsBut l s s := fun _ _ => rfl

theorem regsBut_setF (h : RegsBut l s u) {p : Nat} {fl : Fld} (hm : regAddr p fl.off ∈ l) (n : Nat) : RegsBut l s (u.setF p fl n) :=
  regsBut_trans h fun _ ha => word_setF_other u p fl n _ fun e => ha (e ▸ hm)

theorem regsBut_ite {c : Prop} [Decidable c] (h : RegsBut l s u) (k : RegsBut l s v) : RegsBut l s (if c then u else v) := by
  split
  · exact h
  · exact k

theorem regsBut_each {α : Type} {g : State → α → State} (hg : ∀ s x, RegsBut l s (g s x)) (xs : List α) :
    ∀ s : State, RegsBut l s (s.each xs g) := by
  induction xs with
  | nil => exact fun _ _ _ => rfl
  | cons x r ih => exact fun s => regsBut_trans (hg s x) (ih _)

variable (s)

theorem noted_banks_errorRegs : noted Pg.BANKS ⊆ errorRegs := by decide

theorem noted_diptych_errorRegs : noted Pg.DIPTYCH ⊆ errorRegs := by decide

theorem declare_regsBut (he : errorRegs ⊆ l) (bit : Nat) : RegsBut l s (s.declare bit) := by
  have hrefused : RegsBut l s (s.sticky! Pg.DIPTYCH Sticky.DIPTYCH_DECLARE_REFUSED) :=
    (sticky_leaves s (List.Subset.trans noted_diptych_errorRegs he) _).words
  unfold State.declare State.declareNow
  refine regsBut_ite ?_ (regsBut_refl s)
  split
  · exact regsBut_ite (fun _ _ => rfl) hrefused
  · exact hrefused

/-- The two counts of bank `b` stand in one register. -/
theorem bankCount_errorRegs {b : Nat} (hb : b < 20) : regAddr Pg.BANKS (Reg.BANKS_BANKCNT_CORRECTED.num b).off ∈ errorRegs ∧
    regAddr Pg.BANKS (Reg.BANKS_BANKCNT_UNCORRECTED.num b).off ∈ errorRegs := by
  have h : regAddr Pg.BANKS (Reg.BANKS_BANKCNT_CORRECTED.num b).off ∈ errorRegs :=
    List.mem_append_left _ (List.mem_append_left _ (List.mem_append_left _ (List.mem_map.mpr ⟨b, List.mem_range.mpr hb, rfl⟩)))
  exact ⟨h, h⟩

theorem bankFinds_regsBut (he : errorRegs ⊆ l) {acc : State → Nat → State} (ha : ∀ s o, RegsBut l s (acc s o)) {b : Nat} (hb : b < 20)
    (off n : Nat) : RegsBut l s (s.bankFinds acc b off n) := by
  have hn : noted Pg.BANKS ⊆ l := List.Subset.trans noted_banks_errorRegs he
  obtain ⟨hcor, hunc⟩ := bankCount_errorRegs hb
  unfold State.bankFinds
  refine regsBut_ite (regsBut_trans (regsBut_trans (regsBut_setF (regsBut_refl s) (he hcor) _) (ev_leaves _ hn _).words) (ha _ _)) ?_
  have hnoted (u : State) : RegsBut l u (((u.sticky! Pg.BANKS Sticky.BANKS_UNCORR).ev! Pg.BANKS Ev.BANKS_UNCORR).declare 10) :=
    regsBut_trans (regsBut_trans (sticky_leaves u hn _).words (ev_leaves _ hn _).words) (declare_regsBut _ he _)
  iterate 5 refine regsBut_setF ?_ (he (by decide)) _
  exact regsBut_trans (regsBut_trans (regsBut_setF (regsBut_refl s) (he hunc) _) (ha _ _)) (hnoted _)

theorem accClean_regsBut (he : errorRegs ⊆ l) (o n : Nat) : RegsBut l s (s.accClean o n) := by
  refine regsBut_each (fun u e => ?_) _ s
  have hfinds := bankFinds_regsBut u he (acc := fun s o => s.accPut o 2 1) (fun _ _ a _ => accPut_word _ _ _ _ a) (b := 18) (by decide)
    (e.1 - recordBank) e.2
  exact regsBut_ite hfinds (regsBut_trans hfinds fun a _ => by simp [State.wrMem, State.word])

theorem accAdd_regsBut (he : errorRegs ⊆ l) (o k n : Nat) : RegsBut l s (s.accAdd o k n) :=
  regsBut_trans (regsBut_ite (accClean_regsBut s he o k) (regsBut_refl s)) fun a _ => accPut_word _ _ _ _ a

theorem pinShow_regsBut (hp : pinRegs ⊆ l) (n : Fin 16) (was : Bool) : RegsBut l s (s.pinShow n was) := by
  have hmem : ∀ n : Fin 16, regAddr (Pg.LASER n.val) Reg.LASER_PORT_STATUS_GATE.off ∈ pinRegs ∧
      regAddr (Pg.LASER n.val) Reg.LASER_GATE_PULSES.off ∈ pinRegs := by decide
  obtain ⟨hstatus, hpulses⟩ := hmem n
  have hpin {u : State} (hu : RegsBut l s u) (fl : Fld) (h : regAddr (Pg.LASER n.val) fl.off ∈ pinRegs) (k : Nat) :
      RegsBut l s (u.setF (Pg.LASER n.val) fl k) := regsBut_setF hu (hp h) k
  have hgate := hpin (regsBut_refl s) Reg.LASER_PORT_STATUS_GATE hstatus (b2n s.lasers[n].gatePin)
  have hsync := hpin hgate Reg.LASER_PORT_STATUS_PSYNC hstatus (b2n s.lasers[n].psyncPin)
  have harm := hpin hsync Reg.LASER_PORT_STATUS_ARM hstatus (b2n (s.armPin n))
  have hforced := hpin harm Reg.LASER_PORT_STATUS_FORCED hstatus (b2n s.forced)
  exact regsBut_ite (regsBut_ite (hpin hforced Reg.LASER_GATE_PULSES hpulses _) hforced) (regsBut_refl s)

theorem pins_regsBut (he : errorRegs ⊆ l) (hp : pinRegs ⊆ l) (n : Fin 16) : RegsBut l s (s.pins n) := by
  have hset : RegsBut l s (s.setLaser n fun _ => s.pinLaser n) := fun _ _ => rfl
  exact regsBut_trans (regsBut_trans hset (pinShow_regsBut _ hp n _)) (regsBut_ite (accAdd_regsBut _ he _ _ _) (regsBut_refl _))

/-- The laser pins are shown in their own registers, and in those of an error that their accumulators meet. -/
theorem allPins_regsBut : RegsBut (errorRegs ++ pinRegs) s s.allPins :=
  regsBut_each (fun u n => pins_regsBut u (List.subset_append_left _ _) (List.subset_append_right _ _) n) _ s

end

end Sys2Proof.Proofs
end

section
/-! PROOFS. The reference candidates, holds and the way out of coasting (R50 to R53, R55, R59). -/

namespace Sys2Proof.Proofs

open Sys2Proof.Machine Sys2Proof.Laws

/-! ### The candidates as the registers show them -/

section
variable (s : State) (c d : Nat) (v : Bool)

theorem candValid_congr {s u : State} (h : u.f Pg.CLK Reg.CLK_REF_STATUS_VALID = s.f Pg.CLK Reg.CLK_REF_STATUS_VALID) (k : Nat) :
    u.candValid k = s.candValid k := congrArg (Nat.testBit · k) h

theorem candEdges_congr {s u : State} (h : u.f Pg.CLK Reg.CLK_REF_STATUS_EDGES = s.f Pg.CLK Reg.CLK_REF_STATUS_EDGES) (k : Nat) :
    u.candEdges k = s.candEdges k := congrArg (Nat.testBit · k) h

theorem candValid_setValid (hd : d < 4) : (s.setValid c v).candValid d = if d = c then v else s.candValid d := by
  have hw : Reg.CLK_REF_STATUS_VALID.width = 4 := rfl
  unfold State.candValid State.setValid
  rw [f_setF_same _ _ _ _ (by decide), hw, Nat.testBit_mod_two_pow, testBit_putBit]
  simp [hd]

theorem candEdges_setEdges (hd : d < 4) : (s.setEdges c v).candEdges d = if d = c then v else s.candEdges d := by
  have hw : Reg.CLK_REF_STATUS_EDGES.width = 4 := rfl
  unfold State.candEdges State.setEdges
  rw [f_setF_same _ _ _ _ (by decide), hw, Nat.testBit_mod_two_pow, testBit_putBit]
  simp [hd]

theorem f_setValid {g : Fld} (hg : Fits g) (h : Apart Reg.CLK_REF_STATUS_VALID g) : (s.setValid c v).f Pg.CLK g = s.f Pg.CLK g :=
  f_setF_apart s _ _ g _ (by decide) hg h

theorem f_setEdges {g : Fld} (hg : Fits g) (h : Apart Reg.CLK_REF_STATUS_EDGES g) : (s.setEdges c v).f Pg.CLK g = s.f Pg.CLK g :=
  f_setF_apart s _ _ g _ (by decide) hg h

end

section
variable {s u : State}

/-- R51: the choice goes by REF_PRIO and by REF_STATUS.VALID. -/
theorem firstValid_congr (hp : u.word (regAddr Pg.CLK 0x040) = s.word (regAddr Pg.CLK 0x040))
    (hv : u.f Pg.CLK Reg.CLK_REF_STATUS_VALID = s.f Pg.CLK Reg.CLK_REF_STATUS_VALID) : u.firstValid = s.firstValid := by
  have hprio (fl : Fld) (ho : fl.off = 0x040) : u.f Pg.CLK fl = s.f Pg.CLK fl := by simp only [f_word, ho, hp]
  simp only [State.firstValid, State.refOrder, State.candValid, hv, hprio Reg.CLK_REF_PRIO_P0 rfl, hprio Reg.CLK_REF_PRIO_P1 rfl,
    hprio Reg.CLK_REF_PRIO_P2 rfl, hprio Reg.CLK_REF_PRIO_P3 rfl]

theorem firstValid_setValid_congr (hp : u.word (regAddr Pg.CLK 0x040) = s.word (regAddr Pg.CLK 0x040))
    (hv : u.f Pg.CLK Reg.CLK_REF_STATUS_VALID = s.f Pg.CLK Reg.CLK_REF_STATUS_VALID) (c : Nat) (v : Bool) :
    (u.setValid c v).firstValid = (s.setValid c v).firstValid := by
  refine firstValid_congr ?_ ?_
  · exact (word_setF_other _ _ _ _ _ (by decide)).trans (hp.trans (word_setF_other _ _ _ _ _ (by decide)).symm)
  · rw [State.setValid, State.setValid, f_setF_same _ _ _ _ (by decide), f_setF_same _ _ _ _ (by decide), hv]

/-- A candidate that REF_PRIO names is one of the four. -/
theorem firstValid_lt {d : Nat} (h : s.firstValid = some d) : d < 4 := by
  simpa using (List.mem_filter.mp (List.mem_of_find?_eq_some h)).2

theorem Leaves.firstValid {l : List Nat} (h : Leaves (· ∉ l) s u) (hp : regAddr Pg.CLK 0x040 ∉ l) (hv : regAddr Pg.CLK 0x048 ∉ l) :
    u.firstValid = s.firstValid := firstValid_congr (h.words _ hp) (h.f hv)

end

/-! ### A hold begins (R52) -/

section
variable (s : State) {d cause : Nat}

/-- A reference that REF_STATUS.SELECTED can name. -/
theorem selected_mod (hd : d < 4) : d % 2 ^ Reg.CLK_REF_STATUS_SELECTED.width = d := Nat.mod_eq_of_lt (Nat.lt_trans hd (by decide))

theorem holdBegin_shows (hold : s.fb Pg.CLK Reg.CLK_STATUS_HOLD = false) (hd : d < 4) (hc : cause < 4) :
    (s.holdBegin d cause).fb Pg.CLK Reg.CLK_STATUS_HOLD = true ∧
    (s.holdBegin d cause).f Pg.CLK Reg.CLK_STATUS_HOLD_CAUSE = cause ∧ (s.holdBegin d cause).selected = d ∧
      (∀ c, (s.holdBegin d cause).candValid c = s.candValid c) ∧ (s.holdBegin d cause).clk.holdStart = s.now := by
  rw [State.holdBegin, if_neg (by simp [hold])]
  refine ⟨?_, ?_, ?_, fun c => ?_, rfl⟩
  · simp (disch := decide) only [fb_setF_apart, fb_setB_apart, setClk_fb, fb_setPair_apart, fb_setB_same]
  · simp (disch := decide) only [f_setF_apart, setClk_f, f_setPair_apart, f_setF_same]
    exact Nat.mod_eq_of_lt hc
  · exact (f_setF_same _ _ _ _ (by decide)).trans (selected_mod hd)
  · simp (disch := decide) only [State.candValid, f_setF_apart, f_setB_apart, setClk_f, f_setPair_apart]

end

/-! ### A candidate loses its edges (R50, R52) -/

section
variable (s : State) (c : Fin 4)

theorem refOffset_fits : ∀ c : Fin 4, Fits (Reg.CLK_REF_OFFSET.num c.val) := by decide

theorem refOffset_width (c : Nat) : (Reg.CLK_REF_OFFSET.num c).width = 16 := rfl

/-- A candidate's offset stands apart from the words in which an error or an event is noted. -/
theorem refOffset_not_noted : ∀ c : Fin 4, regAddr Pg.CLK (Reg.CLK_REF_OFFSET.num c.val).off ∉ noted Pg.CLK := by decide

theorem refOffset_apart_edges : ∀ c : Fin 4, Apart (Reg.CLK_REF_OFFSET.num c.val) Reg.CLK_REF_STATUS_EDGES := by decide

/-- What the end of a candidate's edges leaves before the candidate is judged anew. -/
def edgeLost : State :=
  ((s.setEdges c.val false).fmeasStop (4 + c.val)).setF Pg.CLK (Reg.CLK_REF_OFFSET.num c.val) 0x8000

/-- Judging a candidate that is not valid notes at most an error. -/
theorem candUpdate_invalid (hv : s.candValid c.val = false) : Leaves (· ∉ noted Pg.CLK) s (s.candUpdate c) := by
  have judged (u : State) (hu : Leaves (· ∉ noted Pg.CLK) s u) :
      Leaves (· ∉ noted Pg.CLK) s (if u.candValid c.val then u.candLost c.val else u) := by
    rw [if_neg (by simpa [State.candValid, hu.f (show regAddr Pg.CLK Reg.CLK_REF_STATUS_VALID.off ∉ noted Pg.CLK by decide)] using hv)]
    exact hu
  unfold State.candUpdate
  refine .ite ?_ (.ite ?_ ?_)
  · unfold State.primerTake
    refine .ite ?_ (.refl s)
    split
    · exact .ite (.refl s) (.setClk s _)
    · exact .setClk s _
  · exact .ite (.setClk s _) (.refl s)
  · refine judged _ ?_
    exact (Leaves.setClk s _).trans (.ite (sticky_leaves _ (List.Subset.refl _) _) (.refl _))

variable {s c}

theorem missingEdge_next (t : Nat) (hl : s.pwr.linkOn = true) (he : s.candEdges c.val = true) :
    exec (.missingEdge t c) s = .next (ended s ((edgeLost (s.upTo t) c).candUpdate c)) := by
  have hguard : (s.upTo t).pwr.linkOn = true ∧ (s.upTo t).candEdges c.val = true := ⟨by simpa using hl, by simpa [State.candEdges] using he⟩
  exact (congrArg (done s) (if_pos hguard)).trans (done_eq s _)

theorem edgeLost_f {g : Fld} (hg : Fits g) (hedges : Apart Reg.CLK_REF_STATUS_EDGES g)
    (hoffset : ∀ c : Fin 4, Apart (Reg.CLK_REF_OFFSET.num c.val) g) :
    (edgeLost s c).f Pg.CLK g = s.f Pg.CLK g :=
  (f_setF_apart _ _ _ _ _ (refOffset_fits c) hg (hoffset c)).trans (f_setEdges s c.val false hg hedges)

theorem edgeLost_fb {g : Fld} (hg : Fits g) (hedges : Apart Reg.CLK_REF_STATUS_EDGES g)
    (hoffset : ∀ c : Fin 4, Apart (Reg.CLK_REF_OFFSET.num c.val) g) :
    (edgeLost s c).fb Pg.CLK g = s.fb Pg.CLK g := fb_congr (edgeLost_f hg hedges hoffset)

theorem edgeLost_valid (k : Nat) : (edgeLost s c).candValid k = s.candValid k :=
  candValid_congr (edgeLost_f (by decide) (by decide) (by decide)) k

theorem edgeLost_prio : (edgeLost s c).word (regAddr Pg.CLK 0x040) = s.word (regAddr Pg.CLK 0x040) := by
  have hne : ∀ c : Fin 4, regAddr Pg.CLK 0x040 ≠ regAddr Pg.CLK (Reg.CLK_REF_OFFSET.num c.val).off := by decide
  rw [edgeLost, word_setF_other _ _ _ _ _ (hne c)]
  exact word_setF_other s _ _ _ _ (by decide)

theorem edgeLost_locked : (edgeLost s c).clk.locked = s.clk.locked := by simp [edgeLost, State.fmeasStop, State.setEdges, State.setClk]

theorem edgeLost_now : (edgeLost s c).now = s.now := by simp [edgeLost, State.fmeasStop, State.setEdges, State.setClk, State.now]

theorem edgeLost_edges : (edgeLost s c).candEdges c.val = false := by
  unfold State.candEdges
  rw [edgeLost, f_setF_apart _ _ _ _ _ (refOffset_fits c) (by decide) (refOffset_apart_edges c)]
  exact (candEdges_setEdges s c.val c.val false c.isLt).trans (if_pos rfl)

theorem edgeLost_offset : (edgeLost s c).f Pg.CLK (Reg.CLK_REF_OFFSET.num c.val) = 0x8000 :=
  (f_setF_same _ _ _ _ (refOffset_fits c)).trans (by rw [refOffset_width]; decide)

theorem missingEdge_shows_invalid (t : Nat) (hl : s.pwr.linkOn = true) (he : s.candEdges c.val = true) (hv : s.candValid c.val = false) :
    Completes (.missingEdge t c) s fun u => u.candEdges c.val = false ∧ u.f Pg.CLK (Reg.CLK_REF_OFFSET.num c.val) = 0x8000 := by
  have hv' : (edgeLost (s.upTo t) c).candValid c.val = false := (edgeLost_valid _).trans (by simpa [State.candValid] using hv)
  have hleave := candUpdate_invalid (edgeLost (s.upTo t) c) c hv'
  refine ⟨_, missingEdge_next t hl he, ?_, ?_⟩
  · simp only [State.candEdges, ended_f, hleave.f (by decide : regAddr Pg.CLK Reg.CLK_REF_STATUS_EDGES.off ∉ noted Pg.CLK)]
    exact edgeLost_edges
  · rw [ended_f, hleave.f (refOffset_not_noted c), edgeLost_offset]

/-- R52: the loss of the selected candidate begins a hold on the first candidate that stays valid. -/
theorem candLost_selected {s : State} {c d : Nat} (hc : s.coasting = false) (hs : s.selected = c) (hd : (s.setValid c false).firstValid = some d) :
    s.candLost c = ((s.setValid c false).ev! Pg.CLK Ev.CLK_REF_LOST).holdBegin d 2 := by
  have hev := ev_leaves (s.setValid c false) (List.Subset.refl (noted Pg.CLK)) Ev.CLK_REF_LOST
  have hc' : ((s.setValid c false).ev! Pg.CLK Ev.CLK_REF_LOST).coasting = false := by
    simpa (disch := decide) only [State.coasting, fb_ev_own, State.setValid, fb_setF_apart] using hc
  have hs' : ((s.setValid c false).ev! Pg.CLK Ev.CLK_REF_LOST).selected = c := by
    simpa (disch := decide) only [State.selected, ev_f_own, State.setValid, f_setF_apart] using hs
  simp only [State.candLost, hc', hs', hev.firstValid (by decide) (by decide), hd]
  rfl

theorem candUpdate_lost {s : State} {c : Fin 4} (hk : s.clk.locked = true) (he : s.candEdges c.val = false) (hv : s.candValid c.val = true) :
    s.candUpdate c = (s.setClk fun k => { k with qualSince := k.qualSince.set c none }).candLost c.val := by
  have hfit : s.candFit c = false := by simp [State.candFit, he]
  have hv' : (s.setClk fun k => { k with qualSince := k.qualSince.set c none }).candValid c.val = true := hv
  simp [State.candUpdate, hk, hfit, hv, hv']

/-- R52: what the loss of the selected candidate shows. -/
theorem candLost_shows {s : State} {c d : Nat} (hc : s.coasting = false) (hs : s.selected = c) (hd : (s.setValid c false).firstValid = some d)
    (hold : s.fb Pg.CLK Reg.CLK_STATUS_HOLD = false) (hlt : c < 4) : (s.candLost c).fb Pg.CLK Reg.CLK_STATUS_HOLD = true ∧
      (s.candLost c).f Pg.CLK Reg.CLK_STATUS_HOLD_CAUSE = 2 ∧ (s.candLost c).selected = d ∧ (s.candLost c).candValid c = false ∧
        (s.candLost c).clk.holdStart = s.now := by
  have hold' : ((s.setValid c false).ev! Pg.CLK Ev.CLK_REF_LOST).fb Pg.CLK Reg.CLK_STATUS_HOLD = false := by
    simpa (disch := decide) only [fb_ev_own, State.setValid, fb_setF_apart] using hold
  have hev := ev_leaves (s.setValid c false) (List.Subset.refl (noted Pg.CLK)) Ev.CLK_REF_LOST
  obtain ⟨h1, h2, h3, h4, h5⟩ := holdBegin_shows _ hold' (cause := 2) (firstValid_lt hd) (by decide)
  rw [candLost_selected hc hs hd]
  refine ⟨h1, h2, h3, (h4 c).trans ?_, h5.trans (congrArg TimeSt.now hev.time)⟩
  have hval := hev.f (p := Pg.CLK) (fl := Reg.CLK_REF_STATUS_VALID) (by decide)
  exact (candValid_congr hval c).trans ((candValid_setValid s c c false hlt).trans (if_pos rfl))

theorem candUpdate_shows_lost {s : State} {c : Fin 4} {d : Nat} (hk : s.clk.locked = true) (he : s.candEdges c.val = false)
    (hv : s.candValid c.val = true) (hc : s.coasting = false) (hs : s.selected = c.val) (hd : (s.setValid c.val false).firstValid = some d)
    (hold : s.fb Pg.CLK Reg.CLK_STATUS_HOLD = false) : (s.candUpdate c).fb Pg.CLK Reg.CLK_STATUS_HOLD = true ∧
      (s.candUpdate c).f Pg.CLK Reg.CLK_STATUS_HOLD_CAUSE = 2 ∧ (s.candUpdate c).selected = d ∧ (s.candUpdate c).candValid c.val = false ∧
        (s.candUpdate c).clk.holdStart = s.now := by
  rw [candUpdate_lost hk he hv]
  exact candLost_shows (s := s.setClk _) hc hs ((firstValid_setValid_congr (s := s) (u := s.setClk _) rfl rfl _ _).trans hd) hold c.isLt

theorem missingEdge_shows_selected {s : State} {c : Fin 4} {d : Nat} (t : Nat) (hl : s.pwr.linkOn = true) (hk : s.clk.locked = true)
    (he : s.candEdges c.val = true) (hv : s.candValid c.val = true) (hc : s.coasting = false) (hs : s.selected = c.val)
    (hold : s.fb Pg.CLK Reg.CLK_STATUS_HOLD = false) (hd : (s.setValid c.val false).firstValid = some d) :
    Completes (.missingEdge t c) s fun u => u.fb Pg.CLK Reg.CLK_STATUS_HOLD = true ∧ u.f Pg.CLK Reg.CLK_STATUS_HOLD_CAUSE = 2 ∧
      u.selected = d ∧ u.candValid c.val = false ∧ u.clk.holdStart = (s.upTo t).now := by
  have hf {g : Fld} (hg : Fits g) (hedges : Apart Reg.CLK_REF_STATUS_EDGES g) (hoffset : ∀ c : Fin 4, Apart (Reg.CLK_REF_OFFSET.num c.val) g) :
      (edgeLost (s.upTo t) c).f Pg.CLK g = s.f Pg.CLK g := (edgeLost_f hg hedges hoffset).trans (upTo_f s t _ _)
  have hfb {g : Fld} (hg : Fits g) (hedges : Apart Reg.CLK_REF_STATUS_EDGES g) (hoffset : ∀ c : Fin 4, Apart (Reg.CLK_REF_OFFSET.num c.val) g) :
      (edgeLost (s.upTo t) c).fb Pg.CLK g = s.fb Pg.CLK g := (edgeLost_fb hg hedges hoffset).trans (upTo_fb s t _ _)
  have hfirst := firstValid_setValid_congr (edgeLost_prio.trans (upTo_word s t _))
    (hf (g := Reg.CLK_REF_STATUS_VALID) (by decide) (by decide) (by decide)) c.val false
  obtain ⟨h1, h2, h3, h4, h5⟩ := candUpdate_shows_lost (s := edgeLost (s.upTo t) c) (d := d) (edgeLost_locked.trans (by rwa [upTo_clk]))
    edgeLost_edges ((edgeLost_valid _).trans (by simpa [State.candValid] using hv)) ((hfb (by decide) (by decide) (by decide)).trans hc)
    ((hf (by decide) (by decide) (by decide)).trans hs) (hfirst.trans hd) ((hfb (by decide) (by decide) (by decide)).trans hold)
  refine ⟨_, missingEdge_next t hl he, ?_, ?_, ?_, ?_, h5.trans edgeLost_now⟩
  · rw [ended_fb, h1]
  · rw [ended_f, h2]
  · exact (ended_f _ _ _ _).trans h3
  · exact (candValid_congr (ended_f _ _ _ _) _).trans h4

end

/-! ### The end of a frequency window (R50) -/

theorem signed_wrapU_16 {x : Int} (hlo : -2 ^ 15 ≤ x) (hhi : x < 2 ^ 15) : signed 16 (wrapU 16 x % 2 ^ 16) = x := by
  simp only [signed, wrapU]
  omega

theorem clampI_offset (o : Int) : signed 16 (wrapU 16 (clampI o (-32767) 32767) % 2 ^ 16) = clampI o (-32767) 32767 :=
  signed_wrapU_16 (by unfold clampI; omega) (by unfold clampI; omega)

section
variable {s u : State}

/-- Whether a unit is on goes by its STATE, by DOMAIN_STATUS and by the power state. -/
theorem Leaves.isOn {A : Nat → Prop} (h : Leaves A s u) {p : Nat} (hst : A (regAddr p Reg.STATE_STATE.off)) (hdom : A (regAddr Pg.PWR 0x044)) :
    u.isOn p = s.isOn p := by
  simp only [State.isOn, State.st, pageOn_of_domains (h.words _ hdom) (congrArg switches h.pwr), h.f hst]

theorem setF_leaves (s : State) {l : List Nat} {p : Nat} {fl : Fld} (h : regAddr p fl.off ∈ l) (v : Nat) : Leaves (· ∉ l) s (s.setF p fl v) :=
  .setWord s _ (not_not.mpr h)

/-- The offset a window measured and whether it is within REF_TOL, before the candidate is judged anew. -/
def offsetShown (s : State) (c : Fin 4) (o : Int) : State :=
  let s1 := s.setFi Pg.CLK (Reg.CLK_REF_OFFSET.num c) (clampI o (-32767) 32767)
  s1.setClk fun k => { k with freqOk := k.freqOk.set c (s.coasting || decide (o.natAbs ≤ 100 * s1.f Pg.CLK Reg.CLK_REF_CTRL_REF_TOL)) }

variable (c : Fin 4) (o : Int)

theorem freqWindow_of_on (hon : s.isOn (Pg.LINK c.val) = true) (he : s.candEdges c.val = true) :
    s.freqWindow c o = (offsetShown s c o).candUpdate c := if_pos ⟨hon, he⟩

theorem offsetShown_leaves : Leaves (· ∉ [regAddr Pg.CLK (Reg.CLK_REF_OFFSET.num c.val).off]) s (offsetShown s c o) := by
  unfold offsetShown
  exact (setF_leaves s (List.mem_singleton_self _) _).trans (.setClk _ _)

theorem offsetShown_invalid (hv : s.candValid c.val = false) : (offsetShown s c o).candValid c.val = false := by
  have hne : ∀ c : Fin 4, regAddr Pg.CLK Reg.CLK_REF_STATUS_VALID.off ∉ [regAddr Pg.CLK (Reg.CLK_REF_OFFSET.num c.val).off] := by decide
  rw [← hv]
  exact candValid_congr ((offsetShown_leaves c o).f (hne c)) _

theorem offsetShown_fi : (offsetShown s c o).fi Pg.CLK (Reg.CLK_REF_OFFSET.num c.val) = clampI o (-32767) 32767 :=
  (congrArg (signed 16) (f_setF_same s _ _ _ (refOffset_fits c))).trans (clampI_offset o)

/-- A window writes its own candidate's offset and what a bit of ERROR_STICKY writes. -/
theorem freqWindow_leaves (hv : s.candValid c.val = false) :
    Leaves (· ∉ regAddr Pg.CLK (Reg.CLK_REF_OFFSET.num c.val).off :: noted Pg.CLK) s (s.freqWindow c o) := by
  have hjudged := candUpdate_invalid (offsetShown s c o) c (offsetShown_invalid c o hv)
  refine .ite (((offsetShown_leaves c o).mono ?_).trans (hjudged.mono ?_)) (.refl s)
  · exact fun a ha hm => ha (List.mem_cons.mpr (.inl (List.mem_singleton.mp hm)))
  · exact fun a ha hm => ha (List.mem_cons_of_mem _ hm)

theorem freqWindow_fi (hv : s.candValid c.val = false) (hon : s.isOn (Pg.LINK c.val) = true) (he : s.candEdges c.val = true) :
    (s.freqWindow c o).fi Pg.CLK (Reg.CLK_REF_OFFSET.num c.val) = clampI o (-32767) 32767 := by
  rw [freqWindow_of_on c o hon he, ← offsetShown_fi (s := s) c o]
  exact congrArg (signed 16) ((candUpdate_invalid (offsetShown s c o) c (offsetShown_invalid c o hv)).f (refOffset_not_noted c))

theorem freqWindow_fi_other (hv : s.candValid c.val = false) {d : Fin 4} (hd : d ≠ c) :
    (s.freqWindow c o).fi Pg.CLK (Reg.CLK_REF_OFFSET.num d.val) = s.fi Pg.CLK (Reg.CLK_REF_OFFSET.num d.val) := by
  have hne : ∀ d c : Fin 4, d ≠ c → regAddr Pg.CLK (Reg.CLK_REF_OFFSET.num d.val).off ∉
      regAddr Pg.CLK (Reg.CLK_REF_OFFSET.num c.val).off :: noted Pg.CLK := by decide
  exact congrArg (signed 16) ((freqWindow_leaves c o hv).f (hne d c hd))

end

/-- What a window keeps for the windows after it: which units are on, whose edges come and which candidates are valid. -/
def SameCandidates (s u : State) : Prop :=
  ∀ c : Fin 4, u.isOn (Pg.LINK c.val) = s.isOn (Pg.LINK c.val) ∧ u.candEdges c.val = s.candEdges c.val ∧ u.candValid c.val = s.candValid c.val

theorem freqWindow_sameCandidates {s : State} (c : Fin 4) (o : Int) (hv : s.candValid c.val = false) : SameCandidates s (s.freqWindow c o) := by
  intro d
  have hstate : ∀ c d : Fin 4, regAddr (Pg.LINK d.val) Reg.STATE_STATE.off ∉
      regAddr Pg.CLK (Reg.CLK_REF_OFFSET.num c.val).off :: noted Pg.CLK := by decide
  have hdom : ∀ c : Fin 4, regAddr Pg.PWR 0x044 ∉ regAddr Pg.CLK (Reg.CLK_REF_OFFSET.num c.val).off :: noted Pg.CLK := by decide
  have href : ∀ c : Fin 4, regAddr Pg.CLK 0x048 ∉ regAddr Pg.CLK (Reg.CLK_REF_OFFSET.num c.val).off :: noted Pg.CLK := by decide
  have h := freqWindow_leaves c o hv
  exact ⟨h.isOn (hstate c d) (hdom c), candEdges_congr (h.f (href c)) _, candValid_congr (h.f (href c)) _⟩

theorem upTo_sameCandidates (s : State) (t : Nat) : SameCandidates s (s.upTo t) := by
  intro c
  simp [State.isOn, State.st, State.pageOn, State.domOn, State.candEdges, State.candValid]

/-- A window shows its offset, keeps those of the other candidates and what the windows after it go by. -/
theorem freqWindow_next {s u : State} (hu : SameCandidates s u) (hv : ∀ c : Fin 4, s.candValid c.val = false) (c : Fin 4) (o : Int) :
    SameCandidates s (u.freqWindow c o) ∧
      (∀ d, d ≠ c → (u.freqWindow c o).fi Pg.CLK (Reg.CLK_REF_OFFSET.num d.val) = u.fi Pg.CLK (Reg.CLK_REF_OFFSET.num d.val)) ∧
      (s.isOn (Pg.LINK c.val) = true → s.candEdges c.val = true →
        (u.freqWindow c o).fi Pg.CLK (Reg.CLK_REF_OFFSET.num c.val) = clampI o (-32767) 32767) := by
  obtain ⟨hon, hedges, hvalid⟩ := hu c
  have hv' : u.candValid c.val = false := hvalid.trans (hv c)
  refine ⟨fun d => ?_, fun d => freqWindow_fi_other c o hv', fun h he => freqWindow_fi c o hv' (hon.trans h) (hedges.trans he)⟩
  obtain ⟨hon', hedges', hvalid'⟩ := hu d
  obtain ⟨kon, kedges, kvalid⟩ := freqWindow_sameCandidates c o hv' d
  exact ⟨kon.trans hon', kedges.trans hedges', kvalid.trans hvalid'⟩

theorem freqWindowEnd_shows {s : State} (t : Nat) (o0 o1 o2 o3 : Int) (hk : s.clk.locked = true) (hv : ∀ c : Fin 4, s.candValid c.val = false) :
    Completes (.freqWindowEnd t o0 o1 o2 o3) s fun u =>
      (s.isOn (Pg.LINK 0) = true → s.candEdges 0 = true → u.fi Pg.CLK (Reg.CLK_REF_OFFSET.num 0) = clampI o0 (-32767) 32767) ∧
        (s.isOn (Pg.LINK 1) = true → s.candEdges 1 = true → u.fi Pg.CLK (Reg.CLK_REF_OFFSET.num 1) = clampI o1 (-32767) 32767) ∧
        (s.isOn (Pg.LINK 2) = true → s.candEdges 2 = true → u.fi Pg.CLK (Reg.CLK_REF_OFFSET.num 2) = clampI o2 (-32767) 32767) ∧
        (s.isOn (Pg.LINK 3) = true → s.candEdges 3 = true → u.fi Pg.CLK (Reg.CLK_REF_OFFSET.num 3) = clampI o3 (-32767) 32767) := by
  obtain ⟨h0, -, shown0⟩ := freqWindow_next (upTo_sameCandidates s t) hv 0 o0
  obtain ⟨h1, keep1, shown1⟩ := freqWindow_next h0 hv 1 o1
  obtain ⟨h2, keep2, shown2⟩ := freqWindow_next h1 hv 2 o2
  obtain ⟨-, keep3, shown3⟩ := freqWindow_next h2 hv 3 o3
  refine ⟨_, (congrArg (done s) (if_pos hk)).trans (done_eq s _), fun hon he => ?_, fun hon he => ?_, fun hon he => ?_, fun hon he => ?_⟩
  · exact (ended_fi _ _ _ _).trans ((keep3 0 (by decide)).trans ((keep2 0 (by decide)).trans ((keep1 0 (by decide)).trans (shown0 hon he))))
  · exact (ended_fi _ _ _ _).trans ((keep3 1 (by decide)).trans ((keep2 1 (by decide)).trans (shown1 hon he)))
  · exact (ended_fi _ _ _ _).trans ((keep3 2 (by decide)).trans (shown2 hon he))
  · exact (ended_fi _ _ _ _).trans (shown3 hon he)

/-! ### A candidate qualifies (R51, R53) -/

/-- What the end of QUAL leaves: candidate `c` is valid, and REF_RETURN is noted. -/
def qualified (s : State) (c : Fin 4) : State := (s.setValid c.val true).ev! Pg.CLK Ev.CLK_REF_RETURN

theorem qualified_f (s : State) (c : Fin 4) {g : Fld} (hg : Fits g) (ho : Own g) (h : Apart Reg.CLK_REF_STATUS_VALID g) :
    (qualified s c).f Pg.CLK g = s.f Pg.CLK g := (ev_f_own _ _ _ (by decide) ho).trans (f_setValid s c.val true hg h)

theorem qualified_valid (s : State) (c : Fin 4) : (qualified s c).candValid c.val = true :=
  (candValid_congr (ev_f_own _ _ _ (by decide) (by decide)) _).trans
    ((candValid_setValid s c.val c.val true c.isLt).trans (if_pos rfl))

section
variable {s : State} {c : Fin 4} {since : Nat} (t : Nat) (hs : s.clk.qualSince[c] = some since) (hfit : (s.upTo t).candFit c = true)
  (hv : s.candValid c.val = false) (hq : (s.upTo t).elapsed since (2 ^ s.f Pg.CLK Reg.CLK_REF_CTRL_QUAL * 102400) = true)
  (hc : s.coasting = false) (hrev : s.fb Pg.CLK Reg.CLK_REF_CTRL_REVERT = false)
include hs hfit hv hq hc hrev

theorem candidateQualified_next : exec (.candidateQualified t c) s = .next (ended s (qualified (s.upTo t) c)) := by
  have hst : (s.upTo t).clk.qualSince[c] = some since := by simpa using hs
  have hvt : (s.upTo t).candValid c.val = false := by simpa [State.candValid] using hv
  have hkept {g : Fld} (hg : Fits g) (ho : Own g) (h : Apart Reg.CLK_REF_STATUS_VALID g) :
      (qualified (s.upTo t) c).fb Pg.CLK g = s.fb Pg.CLK g :=
    fb_congr ((qualified_f _ c hg ho h).trans (upTo_f s t _ _))
  have hcoast : (qualified (s.upTo t) c).coasting = false := (hkept (by decide) (by decide) (by decide)).trans hc
  have hrevert : (qualified (s.upTo t) c).fb Pg.CLK Reg.CLK_REF_CTRL_REVERT = false := (hkept (by decide) (by decide) (by decide)).trans hrev
  have hend : execCandidateQualified t c s = done s (qualified (s.upTo t) c) := by
    simp only [execCandidateQualified, hst, hfit, hvt, upTo_f, hq]
    refine congrArg (done s) ((if_pos ⟨trivial, Bool.false_ne_true, trivial⟩).trans ((if_neg ?_).trans (if_neg ?_)))
    · exact (Bool.eq_false_iff.mp hcoast)
    · exact fun h => Bool.eq_false_iff.mp hrevert h.1
  exact hend.trans (done_eq s _)

theorem candidateQualified_shows : Completes (.candidateQualified t c) s fun u => u.candValid c.val = true ∧ u.selected = s.selected := by
  refine ⟨_, candidateQualified_next t hs hfit hv hq hc hrev, ?_, ?_⟩
  · exact (candValid_congr (ended_f _ _ _ _) _).trans (qualified_valid _ c)
  · exact (ended_f _ _ _ _).trans ((qualified_f _ c (by decide) (by decide) (by decide)).trans (upTo_f s t _ _))

end

/-! ### The end of a hold (R52, R53) -/

/-- The lock with which a hold ends, before the switch is counted. -/
def holdLocked (s : State) : State :=
  ((s.setB Pg.CLK Reg.CLK_STATUS_HOLD false).setF Pg.CLK Reg.CLK_STATUS_HOLD_CAUSE 0).setB Pg.CLK Reg.CLK_STATUS_LOCKED true

theorem holdLocked_f (s : State) {g : Fld} (hg : Fits g) (h : Reg.CLK_STATUS_HOLD.off ≠ g.off) : (holdLocked s).f Pg.CLK g = s.f Pg.CLK g := by
  have hhold : Apart Reg.CLK_STATUS_HOLD g := .inl h
  have hcause : Apart Reg.CLK_STATUS_HOLD_CAUSE g := .inl h
  have hlocked : Apart Reg.CLK_STATUS_LOCKED g := .inl h
  rw [holdLocked, f_setB_apart _ _ (by decide) hg hlocked, f_setF_apart _ _ _ _ _ (by decide) hg hcause,
    f_setB_apart _ _ (by decide) hg hhold]

theorem holdLocked_shows (s : State) : (holdLocked s).fb Pg.CLK Reg.CLK_STATUS_HOLD = false ∧
    (holdLocked s).fb Pg.CLK Reg.CLK_STATUS_LOCKED = true ∧ (holdLocked s).f Pg.CLK Reg.CLK_STATUS_HOLD_CAUSE = 0 := by
  refine ⟨?_, ?_, ?_⟩
  · simp (disch := decide) only [holdLocked, fb_setB_apart, fb_setF_apart, fb_setB_same]
  · simp (disch := decide) only [holdLocked, fb_setB_same]
  · simp (disch := decide) only [holdLocked, f_setB_apart, f_setF_same, Nat.zero_mod]

/-- What the end of a hold leaves: a switch is counted if another reference is selected than before (R53). -/
def holdEnded (s : State) : State :=
  if (holdLocked s).selected = s.clk.prevSel then holdLocked s
  else ((holdLocked s).inc Pg.CLK Reg.CLK_COUNTS_SWITCH_COUNT).ev! Pg.CLK Ev.CLK_REF_SWITCH

theorem holdLock_next {s : State} (t : Nat) (hold : s.fb Pg.CLK Reg.CLK_STATUS_HOLD = true)
    (he : (s.upTo t).elapsed s.clk.holdStart 16384 = true) (hw : (s.upTo t).within s.clk.holdStart 128000 = true) :
    exec (.holdLock t) s = .next (ended s (holdEnded (s.upTo t))) := by
  have hguard : (s.upTo t).fb Pg.CLK Reg.CLK_STATUS_HOLD = true ∧ (s.upTo t).elapsed (s.upTo t).clk.holdStart 16384 = true ∧
      (s.upTo t).within (s.upTo t).clk.holdStart 128000 = true := by simpa using ⟨hold, he, hw⟩
  exact (congrArg (done s) (if_pos hguard)).trans (done_eq s _)

theorem holdEnded_shows (s : State) : (holdEnded s).fb Pg.CLK Reg.CLK_STATUS_HOLD = false ∧
    (holdEnded s).fb Pg.CLK Reg.CLK_STATUS_LOCKED = true ∧ (holdEnded s).f Pg.CLK Reg.CLK_STATUS_HOLD_CAUSE = 0 ∧
      (holdEnded s).f Pg.CLK Reg.CLK_COUNTS_SWITCH_COUNT = (if s.selected = s.clk.prevSel then s.f Pg.CLK Reg.CLK_COUNTS_SWITCH_COUNT
        else satU (s.f Pg.CLK Reg.CLK_COUNTS_SWITCH_COUNT + 1) Reg.CLK_COUNTS_SWITCH_COUNT.width) := by
  obtain ⟨h1, h2, h3⟩ := holdLocked_shows s
  have hsel : (holdLocked s).selected = s.selected := holdLocked_f s (by decide) (by decide)
  have hcount : (holdLocked s).f Pg.CLK Reg.CLK_COUNTS_SWITCH_COUNT = s.f Pg.CLK Reg.CLK_COUNTS_SWITCH_COUNT := holdLocked_f s (by decide) (by decide)
  unfold holdEnded
  rw [hsel]
  split
  · exact ⟨h1, h2, h3, hcount⟩
  · refine ⟨?_, ?_, ?_, ?_⟩
    · simpa (disch := decide) only [fb_ev_own, State.inc, fb_setF_apart] using h1
    · simpa (disch := decide) only [fb_ev_own, State.inc, fb_setF_apart] using h2
    · simpa (disch := decide) only [ev_f_own, State.inc, f_setF_apart] using h3
    · simp (disch := decide) only [ev_f_own, State.inc, f_setF_same, hcount]
      exact Nat.mod_eq_of_lt (Nat.lt_of_le_of_lt (Nat.min_le_right _ _) (by decide))

theorem holdLock_shows {s : State} (t : Nat) (hold : s.fb Pg.CLK Reg.CLK_STATUS_HOLD = true)
    (he : (s.upTo t).elapsed s.clk.holdStart 16384 = true) (hw : (s.upTo t).within s.clk.holdStart 128000 = true) :
    Completes (.holdLock t) s fun u => u.fb Pg.CLK Reg.CLK_STATUS_HOLD = false ∧ u.fb Pg.CLK Reg.CLK_STATUS_LOCKED = true ∧
      u.f Pg.CLK Reg.CLK_STATUS_HOLD_CAUSE = 0 ∧ u.f Pg.CLK Reg.CLK_COUNTS_SWITCH_COUNT =
        (if s.selected = s.clk.prevSel then s.f Pg.CLK Reg.CLK_COUNTS_SWITCH_COUNT
        else satU (s.f Pg.CLK Reg.CLK_COUNTS_SWITCH_COUNT + 1) Reg.CLK_COUNTS_SWITCH_COUNT.width) := by
  have h := holdEnded_shows (s.upTo t)
  rw [upTo_selected, upTo_clk, upTo_f] at h
  refine ⟨_, holdLock_next t hold he hw, ?_⟩
  simpa only [ended_fb, ended_f] using h

/-! ### A hold expires (R53) -/

/-- The notes of a hold that expired. -/
def expiryNoted (s : State) : State := (s.sticky! Pg.CLK Sticky.CLK_HOLD_EXPIRED).ev! Pg.CLK Ev.CLK_HOLD_EXPIRED

/-- Candidate `c` gives up VALID, if it was valid. -/
def validLost (s : State) (c : Nat) : State := if s.candValid c then (s.setValid c false).ev! Pg.CLK Ev.CLK_REF_LOST else s

/-- The qualification of candidate `c` begins anew. -/
def requalified (s : State) (c : Fin 4) : State :=
  s.setClk fun k => { k with qualSince := k.qualSince.set c.val (if s.candFit c then some s.now else none) }

/-- The hold goes on with reference `d`, with its start taken anew. -/
def holdOn (s : State) (d : Nat) : State :=
  ((s.setPair Pg.CLK Reg.CLK_LAST_SWITCH_LO Reg.CLK_LAST_SWITCH_HI s.now).setClk fun k => { k with holdStart := s.now, chain := true }).setF Pg.CLK
    Reg.CLK_REF_STATUS_SELECTED d

section
variable (s : State) (c : Fin 4)

theorem expiryNoted_leaves : Leaves (· ∉ noted Pg.CLK) s (expiryNoted s) :=
  (sticky_leaves s (List.Subset.refl _) _).trans (ev_leaves _ (List.Subset.refl _) _)

/-- Clearing a bit of VALID that is clear leaves VALID. -/
theorem setValid_of_invalid (hv : s.candValid c.val = false) :
    (s.setValid c.val false).f Pg.CLK Reg.CLK_REF_STATUS_VALID = s.f Pg.CLK Reg.CLK_REF_STATUS_VALID := by
  have hput : putBit (s.f Pg.CLK Reg.CLK_REF_STATUS_VALID) c.val false = s.f Pg.CLK Reg.CLK_REF_STATUS_VALID := by
    unfold State.candValid at hv
    simp [putBit, hv]
  rw [State.setValid, f_setF_same _ _ _ _ (by decide), hput]
  exact Nat.mod_mod _ _

/-- Once candidate `c` has given up VALID, the first valid one is that with its bit clear. -/
theorem validLost_firstValid : (validLost s c.val).firstValid = (s.setValid c.val false).firstValid := by
  unfold validLost
  split
  · exact (ev_leaves _ (List.Subset.refl (noted Pg.CLK)) _).firstValid (by decide) (by decide)
  · next h =>
    exact (firstValid_congr (word_setF_other s _ _ _ _ (by decide)) (setValid_of_invalid s c (by simpa using h))).symm

theorem validLost_valid : (validLost s c.val).candValid c.val = false := by
  unfold validLost
  split
  · exact (candValid_congr (ev_f_own _ _ _ (by decide) (by decide)) _).trans ((candValid_setValid s c.val c.val false c.isLt).trans (if_pos rfl))
  · simpa using ‹¬ s.candValid c.val = true›

theorem validLost_now : (validLost s c.val).now = s.now := by
  unfold validLost
  split
  · exact congrArg TimeSt.now (ev_leaves _ (List.Subset.refl (noted Pg.CLK)) _).time
  · rfl

theorem validLost_f {g : Fld} (hg : Fits g) (ho : Own g) (h : Apart Reg.CLK_REF_STATUS_VALID g) : (validLost s c.val).f Pg.CLK g = s.f Pg.CLK g := by
  unfold validLost
  split
  · exact (ev_f_own _ _ _ (by decide) ho).trans (f_setValid s c.val false hg h)
  · rfl

theorem holdOn_shows {d : Nat} (hd : d < 4) : (holdOn s d).selected = d ∧ (∀ k, (holdOn s d).candValid k = s.candValid k) ∧
    (holdOn s d).fb Pg.CLK Reg.CLK_STATUS_HOLD = s.fb Pg.CLK Reg.CLK_STATUS_HOLD ∧ (holdOn s d).clk.holdStart = s.now := by
  refine ⟨?_, fun k => candValid_congr ?_ k, ?_, rfl⟩
  · exact (f_setF_same _ _ _ _ (by decide)).trans (selected_mod hd)
  · simp (disch := decide) only [holdOn, f_setF_apart, setClk_f, f_setPair_apart]
  · simp (disch := decide) only [holdOn, fb_setF_apart, setClk_fb, fb_setPair_apart]

variable {s c}

theorem holdExpired_next {d : Nat} (t : Nat) (hold : s.fb Pg.CLK Reg.CLK_STATUS_HOLD = true)
    (he : (s.upTo t).elapsed s.clk.holdStart 128000 = true) (hs : s.selected = c.val) (hd : (s.setValid c.val false).firstValid = some d) :
    exec (.holdExpired t) s = .next (ended s (holdOn (requalified (validLost (expiryNoted (s.upTo t)) c.val) c) d)) := by
  have hguard : (s.upTo t).fb Pg.CLK Reg.CLK_STATUS_HOLD = true ∧ (s.upTo t).elapsed (s.upTo t).clk.holdStart 128000 = true := by
    simpa using ⟨hold, he⟩
  have hsel : (s.upTo t).selected = c.val := by simpa using hs
  have hfirst : (requalified (validLost (expiryNoted (s.upTo t)) c.val) c).firstValid = some d := by
    have hnoted := expiryNoted_leaves (s.upTo t)
    refine (firstValid_congr (s := validLost (expiryNoted (s.upTo t)) c.val) rfl rfl).trans ((validLost_firstValid _ c).trans (Eq.trans ?_ hd))
    exact firstValid_setValid_congr ((hnoted.words _ (by decide)).trans (upTo_word s t _)) ((hnoted.f (by decide)).trans (upTo_f s t _ _)) _ _
  have hend : execHoldExpired t s = done s (holdOn (requalified (validLost (expiryNoted (s.upTo t)) c.val) c) d) := by
    refine congrArg (done s) ((if_pos hguard).trans ?_)
    simp only [hsel, c.isLt, dif_pos, Fin.eta]
    have hmatch (u : State) (h : u.firstValid = some d) : (match u.firstValid with | some d => holdOn u d | none => u.coastEnter) = holdOn u d := by
      rw [h]
    exact hmatch _ hfirst
  exact hend.trans (done_eq s _)

theorem holdExpired_shows {d : Nat} (t : Nat) (hold : s.fb Pg.CLK Reg.CLK_STATUS_HOLD = true)
    (he : (s.upTo t).elapsed s.clk.holdStart 128000 = true) (hs : s.selected = c.val) (hd : (s.setValid c.val false).firstValid = some d) :
    Completes (.holdExpired t) s fun u => u.selected = d ∧ u.candValid c.val = false ∧ u.fb Pg.CLK Reg.CLK_STATUS_HOLD = true ∧
      u.clk.holdStart = (s.upTo t).now := by
  have hkept : (requalified (validLost (expiryNoted (s.upTo t)) c.val) c).fb Pg.CLK Reg.CLK_STATUS_HOLD = true := by
    have hlost := validLost_f (expiryNoted (s.upTo t)) c (g := Reg.CLK_STATUS_HOLD) (by decide) (by decide) (by decide)
    have hnoted := (expiryNoted_leaves (s.upTo t)).f (p := Pg.CLK) (fl := Reg.CLK_STATUS_HOLD) (by decide)
    exact (fb_congr (hlost.trans (hnoted.trans (upTo_f s t _ _)))).trans hold
  have hnow : (requalified (validLost (expiryNoted (s.upTo t)) c.val) c).now = (s.upTo t).now :=
    (validLost_now _ c).trans (congrArg TimeSt.now (expiryNoted_leaves (s.upTo t)).time)
  obtain ⟨h1, h2, h3, h4⟩ := holdOn_shows (requalified (validLost (expiryNoted (s.upTo t)) c.val) c) (firstValid_lt hd)
  refine ⟨_, holdExpired_next t hold he hs hd, (ended_f _ _ _ _).trans h1, ?_, ?_, h4.trans hnow⟩
  · exact (candValid_congr (ended_f _ _ _ _) _).trans ((h2 _).trans (validLost_valid _ c))
  · exact (ended_fb _ _ _ _).trans (h3.trans hkept)

end

/-! ### Coasting ends (R59) -/

/-- The lock on reference `d` with which coasting ends. -/
def coastEnded (s : State) (d : Nat) : State :=
  (((s.setB Pg.CLK Reg.CLK_STATUS_COASTING false).setB Pg.CLK Reg.CLK_STATUS_LOCKED true).setF Pg.CLK Reg.CLK_REF_STATUS_SELECTED d).setClk
    fun k => { k with exiting := false, freqOk := Vector.replicate 4 true }

theorem coastEnded_shows (s : State) {d : Nat} (hd : d < 4) : (coastEnded s d).coasting = false ∧
    (coastEnded s d).fb Pg.CLK Reg.CLK_STATUS_LOCKED = true ∧ (coastEnded s d).selected = d := by
  refine ⟨?_, ?_, ?_⟩
  · simp (disch := decide) only [coastEnded, State.coasting, setClk_fb, fb_setF_apart, fb_setB_apart, fb_setB_same]
  · simp (disch := decide) only [coastEnded, setClk_fb, fb_setF_apart, fb_setB_same]
  · simp (disch := decide) only [State.selected, coastEnded, setClk_f, f_setF_same, selected_mod hd]

theorem coastExitLock_next {s : State} {d : Nat} (t : Nat) (hc : s.coasting = true) (hx : s.clk.exiting = true) (hd : s.firstValid = some d) :
    exec (.coastExitLock t true) s = .next (ended s (coastEnded (s.upTo t) d)) := by
  have hguard : (s.upTo t).coasting = true ∧ (s.upTo t).clk.exiting = true := by simpa using ⟨hc, hx⟩
  have hfirst : (s.upTo t).firstValid = some d := (firstValid_congr (upTo_word s t _) (upTo_f s t _ _)).trans hd
  have hend : execCoastExitLock t true s = done s (coastEnded (s.upTo t) d) := by
    refine congrArg (done s) ((if_pos hguard).trans ?_)
    rw [hfirst]
    rfl
  exact hend.trans (done_eq s _)

theorem coastExitLock_shows {s : State} {d : Nat} (t : Nat) (hc : s.coasting = true) (hx : s.clk.exiting = true) (hd : s.firstValid = some d) :
    Completes (.coastExitLock t true) s fun u =>
      u.coasting = false ∧ u.fb Pg.CLK Reg.CLK_STATUS_LOCKED = true ∧ u.selected = d ∧ u.clk.exiting = false := by
  obtain ⟨h1, h2, h3⟩ := coastEnded_shows (s.upTo t) (firstValid_lt hd)
  exact ⟨_, coastExitLock_next t hc hx hd, (ended_fb _ _ _ _).trans h1, (ended_fb _ _ _ _).trans h2, (ended_f _ _ _ _).trans h3, rfl⟩

/-! ### SAFE-HOLD is cleared (R55) -/

/-- The force is released, and a device in SAFE-HOLD is linked again. -/
def safeHoldReleased (s : State) : State :=
  let u := (s.setB Pg.CLK Reg.CLK_STATUS_SAFE_HOLD false).setB Pg.CLK Reg.CLK_STATUS_FORCED false
  { u with pwr := { u.pwr with clockForce := false, dev := if u.pwr.dev = DevState.safeHold then .linked else u.pwr.dev } }

theorem safeHoldReleased_shows (s : State) : (safeHoldReleased s).fb Pg.CLK Reg.CLK_STATUS_SAFE_HOLD = false ∧
    (safeHoldReleased s).fb Pg.CLK Reg.CLK_STATUS_FORCED = false := by
  have hsame (fl : Fld) : (safeHoldReleased s).fb Pg.CLK fl =
      ((s.setB Pg.CLK Reg.CLK_STATUS_SAFE_HOLD false).setB Pg.CLK Reg.CLK_STATUS_FORCED false).fb Pg.CLK fl := rfl
  constructor
  · simp (disch := decide) only [hsame, fb_setB_apart, fb_setB_same]
  · simp (disch := decide) only [hsame, fb_setB_same]

theorem reacquireTime_regsBut (s : State) : RegsBut [regAddr Pg.TIME Reg.TIME_STATUS_TSTATE.off] s s.reacquireTime :=
  regsBut_ite (regsBut_setF (regsBut_refl s) (List.mem_singleton_self _) _) (regsBut_refl s)

/-- What follows the release leaves STATUS of the clock unit. -/
theorem followUp_fb (s : State) {fl : Fld} (h : fl.off = Reg.CLK_STATUS_SAFE_HOLD.off) :
    s.reacquireTime.allPins.fb Pg.CLK fl = s.fb Pg.CLK fl := by
  have hpins := allPins_regsBut s.reacquireTime (regAddr Pg.CLK Reg.CLK_STATUS_SAFE_HOLD.off) (by decide)
  have htime := reacquireTime_regsBut s (regAddr Pg.CLK Reg.CLK_STATUS_SAFE_HOLD.off) (by decide)
  simp only [State.fb, f_word, h, hpins, htime]

theorem safeHoldClear_next {s : State} (t : Nat) (hon : s.pwr.sysOn = true) (hsafe : s.fb Pg.CLK Reg.CLK_STATUS_SAFE_HOLD = true)
    (hc : s.coasting = false) : exec (.safeHoldClear t) s = .next (ended s (safeHoldReleased (s.upTo t)).reacquireTime.allPins) := by
  have hguard : (s.upTo t).pwr.sysOn = true ∧ (s.upTo t).fb Pg.CLK Reg.CLK_STATUS_SAFE_HOLD = true ∧ ¬ (s.upTo t).coasting = true := by
    simpa using ⟨hon, hsafe, hc⟩
  have hpage : (s.upTo t).pageOn Pg.CLK = true := hguard.1
  exact (if_neg (not_not.mpr hpage)).trans (congrArg (done s) (if_pos hguard))

theorem safeHoldClear_shows {s : State} (t : Nat) (hon : s.pwr.sysOn = true) (hsafe : s.fb Pg.CLK Reg.CLK_STATUS_SAFE_HOLD = true)
    (hc : s.coasting = false) : Completes (.safeHoldClear t) s fun u => u.fb Pg.CLK Reg.CLK_STATUS_SAFE_HOLD = false ∧
      u.fb Pg.CLK Reg.CLK_STATUS_FORCED = false ∧ u.pwr.clockForce = false ∧
        u.pwr.dev = (if s.pwr.dev = .safeHold then .linked else s.pwr.dev) := by
  obtain ⟨hcleared, hreleased⟩ := safeHoldReleased_shows (s.upTo t)
  refine ⟨_, safeHoldClear_next t hon hsafe hc, ?_, ?_, ?_, ?_⟩
  · rw [ended_fb, followUp_fb _ (fl := Reg.CLK_STATUS_SAFE_HOLD) rfl, hcleared]
  · rw [ended_fb, followUp_fb _ (fl := Reg.CLK_STATUS_FORCED) rfl, hreleased]
  · rw [ended_pwr, allPins_pwr, reacquireTime_pwr, safeHoldReleased]
  · rw [ended_pwr, allPins_pwr, reacquireTime_pwr]
    simp [safeHoldReleased, State.setB]

/-! ### The statement -/

/-- Settles O17: each form of the commands of the references, by what it shows above. -/
theorem references : Obligations.References := by
  unfold Obligations.References
  refine ⟨?_, ?_, ?_, ?_, ?_, ?_, ?_, ?_⟩
  · exact fun t c s hl he hv => missingEdge_shows_invalid t hl he hv
  · exact fun t c d s hl hk he hv hc hs hold hd => missingEdge_shows_selected t hl hk he hv hc hs hold hd
  · exact fun t o0 o1 o2 o3 s hk hv => freqWindowEnd_shows t o0 o1 o2 o3 hk hv
  · exact fun t c since s hs hfit hv hq hc hrev => candidateQualified_shows t hs hfit hv hq hc hrev
  · exact fun t s hold he hw => holdLock_shows t hold he hw
  · intro t c d s hold he hs hd
    exact holdExpired_shows t hold he hs hd
  · rintro t ok d s hc hx hd rfl
    exact coastExitLock_shows t hc hx hd
  · exact fun t s hon hsafe hc => safeHoldClear_shows t hon hsafe hc

end Sys2Proof.Proofs
end

section
/-! PROOFS. What the commands of the lanes leave unchanged, field by field (R70 to R78, R89, R118). -/

namespace Sys2Proof.Proofs

open Sys2Proof.Machine Sys2Proof.Laws

/-! ### Effects on one lane -/

/-- What a command that writes lane `l` and no register may change. -/
def lanePlainShape (l : Fin 20) (s u : State) : State :=
  { s with time := { s.time with now := u.time.now, acc := u.time.acc, cycles := u.time.cycles }, lanes := s.lanes.set l u.lanes[l] }

/-- What a command that writes registers and no lane may change. -/
def regsShape (s u : State) : State :=
  { s with time := { s.time with now := u.time.now, acc := u.time.acc, cycles := u.time.cycles }, regs := u.regs }

/-- What a command that writes lane `l` and registers may change. -/
def laneShape (l : Fin 20) (s u : State) : State :=
  { s with
    time := { s.time with now := u.time.now, acc := u.time.acc, cycles := u.time.cycles }, regs := u.regs, lanes := s.lanes.set l u.lanes[l] }

/-- As `laneShape`, with what an event notes. -/
def laneMarksShape (l : Fin 20) (s u : State) : State :=
  { s with
    time := { s.time with now := u.time.now, acc := u.time.acc, cycles := u.time.cycles }, regs := u.regs, lanes := s.lanes.set l u.lanes[l],
    lastEv := u.lastEv, ev := { s.ev with offers := u.ev.offers } }

/-- As `laneShape`, with the counter of the free values. -/
def laneFreeShape (l : Fin 20) (s u : State) : State :=
  { s with
    time := { s.time with now := u.time.now, acc := u.time.acc, cycles := u.time.cycles }, regs := u.regs, lanes := s.lanes.set l u.lanes[l],
    freeCtr := u.freeCtr }

/-- The registers that the pattern checker of lane `l` counts in (R78). -/
def prbsRegs (l : Fin 20) : List Nat := [regAddr (lanePage l) Reg.LANE_PRBS_ERRORS.off, regAddr (lanePage l) Reg.LANE_PRBS_BITS_LO.off,
  regAddr (lanePage l) Reg.LANE_PRBS_BITS_HI.off]

/-- Lane `l` and the registers are among the parts that `φ` takes from its second state. -/
structure WritesLane (φ : State → State → State) (l : Fin 20) : Prop where
  shape : Shape φ
  lane : ∀ s g, s.setLane l g = φ s (s.setLane l g)
  word : ∀ s a v, s.setWord a v = φ s (s.setWord a v)

theorem regsShape_shape : Shape regsShape := ⟨fun _ _ _ => rfl, fun _ _ => rfl⟩

section
variable (l : Fin 20)

theorem lanePlainShape_shape : Shape (lanePlainShape l) := ⟨fun s u v => by simp [lanePlainShape], fun s u => by simp [lanePlainShape, timed]⟩

theorem setLane_lanePlain (s : State) (g : Lane → Lane) : Within (lanePlainShape l) [] s (s.setLane l g) :=
  ⟨rfl, id, fun _ _ => rfl, by simp [lanePlainShape, State.setLane]⟩

theorem laneShape_writes : WritesLane (laneShape l) l where
  shape := ⟨fun s u v => by simp [laneShape], fun s u => by simp [laneShape, timed]⟩
  lane := fun s g => by simp [laneShape, State.setLane]
  word := fun s a v => by simp [laneShape, State.setWord]

theorem laneMarksShape_writes : WritesLane (laneMarksShape l) l where
  shape := ⟨fun s u v => by simp [laneMarksShape], fun s u => by simp [laneMarksShape, timed]⟩
  lane := fun s g => by simp [laneMarksShape, State.setLane]
  word := fun s a v => by simp [laneMarksShape, State.setWord]

theorem laneMarksShape_marks : Marks (laneMarksShape l) := fun s u => by simp [laneMarksShape, marked]

theorem laneFreeShape_writes : WritesLane (laneFreeShape l) l where
  shape := ⟨fun s u v => by simp [laneFreeShape], fun s u => by simp [laneFreeShape, timed]⟩
  lane := fun s g => by simp [laneFreeShape, State.setLane]
  word := fun s a v => by simp [laneFreeShape, State.setWord]

end

namespace WritesLane

variable {φ : State → State → State} {l : Fin 20} {r : List Nat} (hφ : WritesLane φ l)
include hφ

theorem setLane (s : State) (g : Lane → Lane) : Within φ r s (s.setLane l g) := ⟨rfl, id, fun _ _ => rfl, hφ.lane s g⟩

theorem setWord (s : State) {a : Nat} (v : Word) (h : a ∈ r) : Within φ r s (s.setWord a v) :=
  have hw : Leaves (· ∉ r) s (s.setWord a v) := .setWord s v (not_not.mpr h)
  ⟨rfl, hw.tidy, hw.words, hφ.word s a v⟩

theorem setF (s : State) (p : Nat) {fl : Fld} (v : Nat) (h : regAddr p fl.off ∈ r) : Within φ r s (s.setF p fl v) := hφ.setWord s _ h

theorem setPair (s : State) (p : Nat) {lo hi : Fld} (v : Nat) (hl : regAddr p lo.off ∈ r) (hh : regAddr p hi.off ∈ r) :
    Within φ r s (s.setPair p lo hi v) := .trans hφ.shape (hφ.setF s p _ hl) (hφ.setF _ p _ hh)

theorem each (p : Nat) (os : List Nat) (h : ∀ o ∈ os, regAddr p o ∈ r) (v : Word) :
    ∀ s : State, Within φ r s (s.each os fun s o => s.setWord (regAddr p o) v) := by
  induction os with
  | nil => exact .refl hφ.shape
  | cons o os ih => exact fun s => .trans hφ.shape (hφ.setWord s _ (h o (.head _))) (ih (fun x hx => h x (.tail _ hx)) _)

/-- A frame that leaves on lane `l` changes the lane, and the number shown of a host or peer port (R83). -/
theorem sendFrame (s : State) (ty flags : Nat) (payload : List Byte) (v : Nat) (h : regAddr (lanePage l) Reg.FRAME_FRAME_STATUS_TX_SEQ.off ∈ r) :
    Within φ r s (s.sendFrame l ty flags payload v) :=
  sendFrame_within hφ.shape (fun u g => hφ.setLane u g) (fun u v => hφ.setF u _ v h) s ty flags payload v

theorem trySend (s : State) (ty flags : Nat) (payload : List Byte) {after : State → State} (ha : ∀ u, Within φ r u (after u))
    (h : regAddr (lanePage l) Reg.FRAME_FRAME_STATUS_TX_SEQ.off ∈ r) : Within φ r s (s.trySend l ty flags payload after) :=
  .ite (.trans hφ.shape (hφ.sendFrame s ty flags payload _ h) (ha _)) (.refl hφ.shape s)

/-! The pattern checker counts in PRBS_BITS and PRBS_ERRORS (R78). -/

section
variable (hlo : regAddr (lanePage l) Reg.LANE_PRBS_BITS_LO.off ∈ r) (hhi : regAddr (lanePage l) Reg.LANE_PRBS_BITS_HI.off ∈ r)
include hlo hhi

theorem prbsCount (s : State) : Within φ r s (s.prbsCount l) :=
  .ite (.trans hφ.shape (hφ.setPair s _ _ hlo hhi) (hφ.setLane _ _)) (hφ.setLane s _)

theorem prbsClear (he : regAddr (lanePage l) Reg.LANE_PRBS_ERRORS.off ∈ r) (s : State) : Within φ r s (s.prbsClear l) := by
  unfold State.prbsClear
  exact .trans hφ.shape (.trans hφ.shape (.trans hφ.shape (hφ.prbsCount hlo hhi s) (hφ.setF _ _ _ he)) (hφ.setPair _ _ _ hlo hhi)) (hφ.setLane _ _)

end

theorem prbsError (hm : Marks φ) (s : State) : Within φ (prbsRegs l ++ noted (lanePage l)) s (s.prbsError l) := by
  have hn : noted (lanePage l) ⊆ prbsRegs l ++ noted (lanePage l) := List.subset_append_right _ _
  have hcounted (u : State) (n : Nat) (g : Lane → Lane) : Within φ (prbsRegs l ++ noted (lanePage l)) u
      ((u.inc (lanePage l) Reg.LANE_PRBS_ERRORS n).setLane l g) := .trans hφ.shape (hφ.setF u _ _ (.head _)) (hφ.setLane _ _)
  have hnoted (u : State) (g : Lane → Lane) : Within φ (prbsRegs l ++ noted (lanePage l)) u (((u.sticky! (lanePage l)
      Sticky.LANE_PRBS_ERR).ev! (lanePage l) Ev.LANE_PRBS_ERR).setLane l g) :=
    .trans hφ.shape (Framed.trans hφ.shape (.sticky! hφ.shape u hm hn _) (.ev! _ hm hn _)).within (hφ.setLane _ _)
  exact .trans hφ.shape (.trans hφ.shape (hφ.prbsCount (.tail _ (.head _)) (.tail _ (.tail _ (.head _))) s) (hcounted _ 1 _))
    (.ite (hnoted _ _) (.refl hφ.shape _))

end WritesLane

/-! ### The ways an outcome is chosen -/

section
variable {P : State → Prop} {a b : Host.Outcome State Fault Refusal}

theorem fault_next {f : Fault} (w : State) (h : (.fault f : Host.Outcome State Fault Refusal) = .next w) : P w := nomatch h

theorem next_ite {c : Prop} [Decidable c] (ha : ∀ w, a = .next w → P w) (hb : ∀ w, b = .next w → P w) (w : State)
    (h : (if c then a else b) = .next w) : P w := by
  split at h
  · exact ha w h
  · exact hb w h

end

/-! ### Bring-up and the frames a lane sends -/

section
variable {s : State} (ht : s.Tidy) (t : Nat)
include ht

theorem laneActivity_frame (q : Squelch) : Ensures (.laneActivity t q) s fun u =>
    u = laneShape q.lane s u ∧ RegsBut [regAddr (lanePage q.lane.val) Reg.LANE_LANE_STATUS_ACTIVITY.off] s u := by
  have hφ := laneShape_writes q.lane
  have hset (u : State) (fl : Fld) (v : Nat) (h : fl.off = Reg.LANE_LANE_STATUS_ACTIVITY.off) :
      Within (laneShape q.lane) [regAddr (lanePage q.lane.val) Reg.LANE_LANE_STATUS_ACTIVITY.off] u (u.setF (lanePage q.lane.val) fl v) :=
    hφ.setF u _ v (List.mem_singleton.mpr (by rw [h]))
  have hact (u : State) (v : Bool) := hset u Reg.LANE_LANE_STATUS_ACTIVITY (b2n v) rfl
  have hphase (u : State) (ph : Nat) (g : Lane → Lane) := Within.trans hφ.shape (hset u Reg.LANE_LANE_STATUS_PHASE ph rfl) (hφ.setLane _ g)
  exact Within.frame hφ.shape ht (t := t) (.ite (.ite (.trans hφ.shape (.trans hφ.shape (hact _ _) (hphase _ _ _)) (hφ.setLane _ _)) (hact _ _))
    (.refl hφ.shape _))

theorem clockPatternEnd_frame (l : Fin 20) : Ensures (.clockPatternEnd t l) s fun u => u = lanePlainShape l s u := by
  have hφ := lanePlainShape_shape l
  refine fun w hd => (Within.frame (t := t) (l := []) hφ ht ?_ w hd).1
  split
  · exact .ite (setLane_lanePlain _ _ _) (.refl hφ _)
  · exact .refl hφ _

theorem stepQuiesce_frame (l : Fin 20) : Ensures (.stepQuiesce t l) s fun u => u = lanePlainShape l s u := by
  have hφ := lanePlainShape_shape l
  refine fun w hd => (Within.frame (t := t) (l := []) hφ ht ?_ w hd).1
  split
  · exact .ite (setLane_lanePlain _ _ _) (.refl hφ _)
  · exact .refl hφ _

theorem fenceComplete_frame (port : Fin 2) : Ensures (.fenceComplete t port) s fun u => u = lanePlainShape (hostLane port) s u := by
  have hφ := lanePlainShape_shape (hostLane port)
  refine fun w hd => (Within.frame (t := t) (l := []) hφ ht ?_ w hd).1
  split
  · exact .ite (setLane_lanePlain _ _ _) (.refl hφ _)
  · exact .refl hφ _

/-- A CAP leaves, but for the STEP_GO that answers a partner, which changes the lane's rate (R75). -/
theorem capSend_frame (l : Fin 20) (hgo : (s.lanes[l].pstep.any fun st => st.launched) = false) : Ensures (.capSend t l) s fun u =>
    u = laneShape l s u ∧ RegsBut [regAddr (lanePage l.val) Reg.FRAME_FRAME_STATUS_TX_SEQ.off] s u := by
  have hφ := laneShape_writes l
  have hsend (payload : List Byte) (g : Lane → Lane) := hφ.trySend (s.upTo t) 1 0 payload (after := fun u => u.setLane l g)
    (fun u => hφ.setLane u g) (List.mem_singleton_self _)
  refine Within.frame (t := t) hφ.shape ht (.ite (.ite (hsend _ _) (.refl hφ.shape _)) (.ite ?_ (.refl hφ.shape _)))
  split
  · exact .ite (.refl hφ.shape _) (hsend _ _)
  · next st _ hp =>
    have hstep : s.lanes[l].pstep = some st := by simpa using hp
    have hnot : st.launched = false := by rwa [hstep] at hgo
    rw [if_neg (by simp [hnot])]
    exact .ite (.refl hφ.shape _) (hsend _ _)
  · exact .refl hφ.shape _

theorem idleSend_frame (l : Fin 20) : Ensures (.idleSend t l) s fun u =>
    u = laneShape l s u ∧ RegsBut [regAddr (lanePage l.val) Reg.FRAME_FRAME_STATUS_TX_SEQ.off] s u := by
  have hφ := laneShape_writes l
  exact Within.frame (t := t) hφ.shape ht (.ite (hφ.trySend _ _ _ _ (fun u => .refl hφ.shape u) (List.mem_singleton_self _)) (.refl hφ.shape _))

theorem txTimingSwitch_frame (l : Fin 4) : Ensures (.txTimingSwitch t l) s fun u =>
    u = regsShape s u ∧ RegsBut [regAddr (Pg.LINK l.val) Reg.LANE_LANE_STATUS_TX_LOOP_TIMED.off] s u :=
  Within.frame (t := t) regsShape_shape ht (.ite (.setF rfl (List.mem_singleton_self _)) (.refl regsShape_shape _))

theorem cplSend_frame (port : Fin 2) : Ensures (.cplSend t port) s fun u => u = laneShape (hostLane port) s u ∧
    RegsBut [regAddr (lanePage (hostLane port.val).val) Reg.FRAME_FRAME_STATUS_TX_SEQ.off,
      regAddr (lanePage (hostLane port.val).val) Reg.FRAME_CPL_SENT.off] s u := by
  have hφ := laneShape_writes (hostLane port)
  refine Within.frame (t := t) hφ.shape ht ?_
  split
  · exact .ite (hφ.trySend _ _ _ _ (fun u => .trans hφ.shape (.trans hφ.shape (hφ.setLane u _) (hφ.setF _ _ _ (.tail _ (.head _))))
      (hφ.setF _ _ (fl := Reg.FRAME_FRAME_STATUS_OUTSTANDING) _ (.head _))) (.head _)) (.refl hφ.shape _)
  · exact .refl hφ.shape _

/-! ### Rate steps (R74, R75) -/

omit ht in
/-- The end of a step with RESULT 5 asserts no event (R75). -/
theorem stepEnd_unanswered (s : State) (l : Fin 20) : s.stepEnd l 5 = ((s.setF (lanePage l) Reg.LANE_STEP_STATUS_RESULT 5).setB (lanePage l)
    Reg.LANE_STEP_STATUS_BUSY false).setLane l fun x => { x with step := none } := rfl

theorem stepCtrlGo_frame (l : Fin 20) (rate : Fin 4) : Ensures (.stepCtrlGo t l rate) s fun u =>
    u = laneMarksShape l s u ∧ RegsBut ([regAddr (lanePage l.val) Reg.LANE_STEP_STATUS_BUSY.off] ++ noted (lanePage l.val)) s u := by
  have hφ := laneMarksShape_writes l
  have hset (u : State) (fl : Fld) (v : Nat) (h : fl.off = Reg.LANE_STEP_STATUS_BUSY.off) : Within (laneMarksShape l)
      ([regAddr (lanePage l.val) Reg.LANE_STEP_STATUS_BUSY.off] ++ noted (lanePage l.val)) u (u.setF (lanePage l.val) fl v) :=
    hφ.setF u _ v (by rw [h]; exact .head _)
  have hrefused (n : Nat) := Within.frame (t := t) hφ.shape ht (.trans hφ.shape (hset (s.upTo t) Reg.LANE_STEP_STATUS_RESULT n rfl)
    (Framed.ev! _ (laneMarksShape_marks l) (List.subset_append_right _ _) Ev.LANE_STEP_FAIL).within)
  have haccepted (g : Lane → Lane) := Within.frame (t := t) hφ.shape ht (.trans hφ.shape (.trans hφ.shape
    (hset (s.upTo t) Reg.LANE_STEP_STATUS_BUSY (b2n true) rfl) (hset _ Reg.LANE_STEP_STATUS_RESULT 0 rfl)) (hφ.setLane _ g))
  exact next_ite fault_next (next_ite (hrefused 2) (next_ite (hrefused 3) (next_ite (hrefused 4) (next_ite fault_next (haccepted _)))))

theorem stepAckDeadline_frame (l : Fin 20) : Ensures (.stepAckDeadline t l) s fun u =>
    u = laneShape l s u ∧ RegsBut [regAddr (lanePage l.val) Reg.LANE_STEP_STATUS_BUSY.off] s u := by
  have hφ := laneShape_writes l
  have hset (u : State) (fl : Fld) (v : Nat) (h : fl.off = Reg.LANE_STEP_STATUS_BUSY.off) :
      Within (laneShape l) [regAddr (lanePage l.val) Reg.LANE_STEP_STATUS_BUSY.off] u (u.setF (lanePage l.val) fl v) :=
    hφ.setF u _ v (List.mem_singleton.mpr (by rw [h]))
  have hend (u : State) : Within (laneShape l) [regAddr (lanePage l.val) Reg.LANE_STEP_STATUS_BUSY.off] u (u.stepEnd l 5) := by
    rw [stepEnd_unanswered]
    exact .trans hφ.shape (.trans hφ.shape (hset u Reg.LANE_STEP_STATUS_RESULT 5 rfl) (hset _ Reg.LANE_STEP_STATUS_BUSY (b2n false) rfl)) (hφ.setLane _ _)
  refine Within.frame (t := t) hφ.shape ht ?_
  split
  · exact .ite (hend _) (.refl hφ.shape _)
  · exact .refl hφ.shape _

/-! ### Test loops and the pattern checker (R77, R78) -/

theorem loopInject_frame (l : Fin 20) : Ensures (.loopInject t l) s fun u => u = laneMarksShape l s u ∧
    RegsBut (prbsRegs l ++ noted (lanePage l.val)) s u := by
  have hφ := laneMarksShape_writes l
  refine next_ite fault_next (Within.frame (t := t) hφ.shape ht ?_)
  split
  · exact .ite (.trans hφ.shape (hφ.setLane _ _) (hφ.prbsError (laneMarksShape_marks l) _)) (hφ.setLane _ _)
  · exact .refl hφ.shape _

theorem loopClear_frame (l : Fin 20) : Ensures (.loopClear t l) s fun u => u = laneShape l s u ∧
    RegsBut (prbsRegs l ++ (if l.val < 4 then [0x070, 0x074, 0x078, 0x07C, 0x104, 0x108, 0x10C, 0x110, 0x114, 0x118]
        else [0x070, 0x074, 0x078, 0x07C, 0x10C, 0x110, 0x114]).map (regAddr (lanePage l.val))) s u := by
  have hφ := laneShape_writes l
  have hclear {r : List Nat} {u : State} : Within (laneShape l) ([regAddr (lanePage l.val) Reg.LANE_PRBS_ERRORS.off,
      regAddr (lanePage l.val) Reg.LANE_PRBS_BITS_LO.off, regAddr (lanePage l.val) Reg.LANE_PRBS_BITS_HI.off] ++ r) u (u.prbsClear l) :=
    hφ.prbsClear (.tail _ (.head _)) (.tail _ (.tail _ (.head _))) (.head _) u
  have hzero {r os : List Nat} (h : os ⊆ r) {k : List Nat} (u : State) : Within (laneShape l) (k ++ r.map (regAddr (lanePage l.val))) u
      (u.each os fun s o => s.setWord (regAddr (lanePage l.val) o) 0#32) :=
    hφ.each _ os (fun o ho => List.mem_append_right _ (List.mem_map_of_mem (h ho))) 0#32 u
  refine next_ite fault_next (Within.frame (t := t) hφ.shape ht (.ite ?_ (.refl hφ.shape _)))
  split
  · exact .trans hφ.shape (.trans hφ.shape hclear (hzero (by decide) _)) (hzero (by decide) _)
  · exact .trans hφ.shape (.trans hφ.shape hclear (hzero (by decide) _)) (hzero (by decide) _)

theorem prbsSyncGain_frame (r : LaneBits) : Ensures (.prbsSyncGain t r) s fun u =>
    u = laneShape r.lane s u ∧ RegsBut [regAddr (lanePage r.lane.val) Reg.LANE_PRBS_STATUS.off] s u := by
  have hφ := laneShape_writes r.lane
  exact Within.frame (t := t) hφ.shape ht (.ite (.trans hφ.shape (hφ.setF _ _ _ (List.mem_singleton_self _)) (hφ.setLane _ _)) (.refl hφ.shape _))

theorem prbsSyncLoss_frame (l : Fin 20) : Ensures (.prbsSyncLoss t l) s fun u => u = laneShape l s u ∧
    RegsBut [regAddr (lanePage l.val) Reg.LANE_PRBS_STATUS.off, regAddr (lanePage l.val) Reg.LANE_PRBS_BITS_LO.off,
      regAddr (lanePage l.val) Reg.LANE_PRBS_BITS_HI.off] s u := by
  have hφ := laneShape_writes l
  exact Within.frame (t := t) hφ.shape ht (.ite (.trans hφ.shape (.trans hφ.shape (hφ.prbsCount (.tail _ (.head _)) (.tail _ (.tail _ (.head _))) _)
    (hφ.setF _ _ _ (.head _))) (hφ.setLane _ _)) (.refl hφ.shape _))

theorem prbsBitError_frame (r : LaneBit) : Ensures (.prbsBitError t r) s fun u => u = laneMarksShape r.lane s u ∧
    RegsBut (prbsRegs r.lane ++ noted (lanePage r.lane.val)) s u := by
  have hφ := laneMarksShape_writes r.lane
  exact Within.frame (t := t) hφ.shape ht (.ite (hφ.prbsError (laneMarksShape_marks r.lane) _) (.refl hφ.shape _))

/-- The registers that a write of LOOP_CTRL of lane `l` changes: its own, the checker it clears, and the rate and the phase that the loop rests in
(R77, R78). -/
def loopRegs (l : Fin 20) : List Nat := [regAddr (lanePage l) Reg.LANE_LOOP_CTRL_MODE.off, regAddr (lanePage l) Reg.LANE_PRBS_STATUS.off,
  regAddr (lanePage l) Reg.LANE_PRBS_ERRORS.off, regAddr (lanePage l) Reg.LANE_PRBS_BITS_LO.off,
  regAddr (lanePage l) Reg.LANE_PRBS_BITS_HI.off, regAddr (lanePage l) Reg.LANE_LANE_STATUS_PHASE.off]

theorem loopCtrlWrite_frame (l : Fin 20) (v : Word) : Ensures (.loopCtrlWrite t l v) s fun u => u = laneFreeShape l s u ∧ RegsBut (loopRegs l) s u := by
  have hφ := laneFreeShape_writes l
  have hset {o : Nat} (h : regAddr (lanePage l) o ∈ loopRegs l) {u : State} {fl : Fld} {n : Nat} (hfl : fl.off = o) :
      Within (laneFreeShape l) (loopRegs l) u (u.setF (lanePage l) fl n) := hφ.setF u _ _ (hfl ▸ h)
  have hstatus {u : State} {fl : Fld} {n : Nat} := hset (o := 0x040) (.tail _ (.tail _ (.tail _ (.tail _ (.tail _ (.head _)))))) (u := u) (fl := fl) (n := n)
  have hsync {u : State} {n : Nat} := hset (.tail _ (.head _)) (u := u) (fl := Reg.LANE_PRBS_STATUS) (n := n) rfl
  have hcount := hφ.prbsCount (r := loopRegs l) (.tail _ (.tail _ (.tail _ (.head _)))) (.tail _ (.tail _ (.tail _ (.tail _ (.head _)))))
  have hclear := hφ.prbsClear (r := loopRegs l) (.tail _ (.tail _ (.tail _ (.head _)))) (.tail _ (.tail _ (.tail _ (.tail _ (.head _)))))
    (.tail _ (.tail _ (.head _)))
  have hfree (u : State) : Within (laneFreeShape l) (loopRegs l) u u.takeFree := ⟨rfl, id, fun _ _ => rfl, by simp [laneFreeShape, State.takeFree]⟩
  have hgen (u : State) (k : Nat) : Within (laneFreeShape l) (loopRegs l) u (u.genUpdate l k) :=
    .ite (hφ.setLane u _) (.ite (.refl hφ.shape u) (.trans hφ.shape (hφ.setLane u _) (hfree _)))
  have hwritten {u : State} {w : Word} := hφ.setWord (r := loopRegs l) u w (.head _)
  exact next_ite fault_next (next_ite fault_next (next_ite fault_next (Within.frame (t := t) hφ.shape ht
    (.trans hφ.shape (.trans hφ.shape (.trans hφ.shape (.trans hφ.shape (.trans hφ.shape (hcount _) hwritten)
      (.ite (.trans hφ.shape (hclear _) hsync) (.ite hsync (.refl hφ.shape _))))
      (.ite (.trans hφ.shape (hstatus rfl) (hstatus (fl := Reg.LANE_LANE_STATUS_TX_LOOP_TIMED) rfl)) (.refl hφ.shape _)))
      (.ite (hstatus rfl) (.refl hφ.shape _))) (hgen _ _)))))

end

/-- Settles O55: the effect of each command is made of steps that keep its shape, and in a tidy state it ends in that effect. -/
theorem framesOfLanes : Obligations.FramesOfLanes := by
  unfold Obligations.FramesOfLanes
  refine ⟨?_, ?_, ?_, ?_, ?_, ?_, ?_, ?_, ?_, ?_, ?_, ?_, ?_, ?_, ?_, ?_⟩
  · exact fun t q s ht => laneActivity_frame ht t q
  · exact fun t l s ht => clockPatternEnd_frame ht t l
  · exact fun t l s ht hgo => capSend_frame ht t l hgo
  · exact fun t l s ht => idleSend_frame ht t l
  · exact fun t l s ht => txTimingSwitch_frame ht t l
  · exact fun t l rate s ht => stepCtrlGo_frame ht t l rate
  · exact fun t l s ht => stepAckDeadline_frame ht t l
  · exact fun t l s ht => stepQuiesce_frame ht t l
  · exact fun t l s ht => loopInject_frame ht t l
  · exact fun t l s ht => loopClear_frame ht t l
  · exact fun t l v s ht => loopCtrlWrite_frame ht t l v
  · exact fun t r s ht => prbsSyncGain_frame ht t r
  · exact fun t l s ht => prbsSyncLoss_frame ht t l
  · exact fun t r s ht => prbsBitError_frame ht t r
  · exact fun t port s ht => fenceComplete_frame ht t port
  · exact fun t port s ht => cplSend_frame ht t port

end Sys2Proof.Proofs
end

section
/-! PROOFS. LaneFrames fails at LAUNCH. The statement bounds no payload, and the end of a frame is an instant of the uint64 count (R103): a frame of
2^58 bytes ends more than half of that count ahead, so that the line it occupies looks free, and the MIRROR that waits leaves in the same command. -/

namespace Sys2Proof.Proofs

open Sys2Proof.Machine Sys2Proof.Laws

/-! ### The line time of a frame (R66 to R69) -/

theorem bitsOf_length (l : List Byte) : (bitsOf l).length = 8 * l.length := by
  simp [bitsOf, List.length_flatMap, mul_comm]

theorem scramble_length (l : List Bool) : ∀ g, (scramble g l).length = l.length := by
  induction l with
  | nil => exact fun _ => rfl
  | cons d r ih => exact fun g => congrArg (· + 1) (ih _)

theorem length_le_stuff (l : List Bool) : ∀ run last, l.length ≤ (stuff run last l).length := by
  induction l with
  | nil => exact fun _ _ => Nat.le_refl 0
  | cons b r ih =>
    intro run last
    unfold stuff
    split
    · exact Nat.succ_le_succ (Nat.le_succ_of_le (ih _ _))
    · exact Nat.succ_le_succ (ih _ _)

/-- At most one bit in eleven is a stuff bit. -/
theorem stuff_length_le (l : List Bool) : ∀ run last, run < 10 → 10 * (stuff run last l).length ≤ 11 * l.length + run := by
  induction l with
  | nil => exact fun _ _ _ => Nat.zero_le _
  | cons b r ih =>
    intro run last hrun
    have hafter : runAfter run last b ≤ run + 1 := by unfold runAfter; split <;> omega
    unfold stuff
    split
    · have := ih 0 b (by decide)
      simp only [List.length_cons]
      omega
    · have := ih (runAfter run last b) b (by omega)
      simp only [List.length_cons]
      omega

/-- A frame with a payload occupies the bits of its twelve bytes more, and its stuff bits. -/
theorem lineUi_bounds (f : TxFrame) (h : f.payload ≠ []) :
    8 * (f.payload.length + 12) ≤ lineUi f.wire ∧ 10 * lineUi f.wire ≤ 88 * (f.payload.length + 12) := by
  have hwire : f.wire.length = f.payload.length + 12 := by
    simp [TxFrame.wire, leBytes_length, h]
    omega
  have hbits : (scramble keySeed (bitsOf f.wire)).length = 8 * (f.payload.length + 12) := by rw [scramble_length, bitsOf_length, hwire]
  have hlo := length_le_stuff (scramble keySeed (bitsOf f.wire)) 0 false
  have hhi := stuff_length_le (scramble keySeed (bitsOf f.wire)) 0 false (by decide)
  unfold lineUi frameLine
  omega

/-- An instant more than half of the count ahead counts as past (R103). -/
theorem halfLe_wraps {a x : Nat} (hlo : 2 ^ 64 < x) (hhi : x ≤ 2 ^ 65) : halfLe (a + x) a = true := by
  have hmod : ((a : Int) - ↑(a + x)) % 2 ^ 65 = 2 ^ 65 - x := by omega
  simp only [halfLe, wrapS, wrapU, signed, hmod]
  split <;> simp <;> omega

/-! ### A lane as it is written -/

theorem setLane_lane (s : State) (l : Fin 20) (g : Lane → Lane) : (s.setLane l g).lanes[l] = g s.lanes[l] := by simp [State.setLane]

/-- Lane `x` once a frame `f` has left it with its delimiter at `v`: the ends of the frame and of its gap in half ticks (R66, R69). -/
def Lane.sent (x : Lane) (v : Nat) (f : TxFrame) (last free : Nat) : Lane :=
  { x with txSeq := f.seq, tx := some (v, f), endAt := last, freeAt := free }

theorem sendFrame_lane (s : State) (l : Fin 20) (ty flags : Nat) (payload : List Byte) (v : Nat) : (s.sendFrame l ty flags payload v).lanes[l] =
    Lane.sent s.lanes[l] v ⟨ty, s.nextSeq l ty, flags, payload⟩ (s.lineEnd l ⟨ty, s.nextSeq l ty, flags, payload⟩ v)
      (s.lineEnd l ⟨ty, s.nextSeq l ty, flags, payload⟩ v + 32 * uiHalf (s.laneRate l)) := by
  have h := setLane_lane s l (Lane.sent · v ⟨ty, s.nextSeq l ty, flags, payload⟩ (s.lineEnd l ⟨ty, s.nextSeq l ty, flags, payload⟩ v)
    (s.lineEnd l ⟨ty, s.nextSeq l ty, flags, payload⟩ v + 32 * uiHalf (s.laneRate l)))
  simp only [State.sendFrame]
  split
  · exact h
  · exact h

/-- The first of the frames that wait leaves (R85). -/
theorem sendWaiting_sends (s : State) (l : Fin 20) {ty : Nat} {pl : List Byte} {r : List (Nat × List Byte)} (hwaits : s.lanes[l].waits = (ty, pl) :: r)
    (hup : s.laneUp l = true) (hmay : s.mayStart l ⟨ty, s.nextSeq l ty, 0, pl⟩ = true) : (s.sendWaiting l).lanes[l].tx.map (·.2.payload) = some pl := by
  have hlane := setLane_lane (s.sendFrame l ty 0 pl (uiGrid (s.laneRate l) s.now)) l fun x => { x with waits := r }
  rw [sendFrame_lane] at hlane
  unfold State.sendWaiting
  simp only [hwaits, hup, hmay, and_self, if_true, State.when]
  split
  · exact congrArg (·.tx.map (·.2.payload)) hlane
  · exact congrArg (·.tx.map (·.2.payload)) hlane

/-- A queued frame that is not stamped leaves at its tick, where the line and the rate step allow it (R118). -/
theorem launchHead_sends (s : State) (l : Fin 20) {e : LaunchEntry} {rest : List LaunchEntry} (hqueue : s.lanes[l].launches = e :: rest)
    (hpast : s.past e.tick = true) (hlate : e.late = false) (hty : e.ty ≠ 5 ∧ e.ty ≠ 6)
    (hreached : reached (uiGrid (s.laneRate l) e.tick) s.now = true)
    (hup : s.laneUp l = true) (hfree : s.lineFree l (uiGrid (s.laneRate l) e.tick) = true)
    (hclear : ∀ f, s.stepClear l f (uiGrid (s.laneRate l) e.tick) = true) :
    s.launchHead l = (s.setLane l fun x => { x with launches := rest }).sendFrame l e.ty 0 e.payload (uiGrid (s.laneRate l) e.tick) := by
  have hstamp (v : Nat) : stampPayload e.ty v e.payload = e.payload := if_neg (not_or.mpr hty)
  unfold State.launchHead
  simp only [hqueue, hpast, hlate, hreached, hup, hfree, hclear, hstamp]
  simp only [Bool.not_false, Bool.and_self, and_self, if_true, not_true, if_false, State.launchOut, hstamp]
  exact dif_neg fun h => hty.2 h.2

/-! ### The launch -/

/-- At tick 64 PEER_A is ON and UP; every other page is OFF. -/
def peerUp : State :=
  let s := { State.reset with time := { running := true, now := 64 }, pwr := { sysOn := true, linkOn := true } }
  (s.setF (Pg.LINK 2) Reg.STATE_STATE stOn).setF (Pg.LINK 2) Reg.LANE_LANE_STATUS_PHASE phUp

theorem peerUp_shows : peerUp.isOn (Pg.LINK 2) = true ∧ peerUp.phase 2 = phUp ∧ peerUp.laneRate 2 = 0 ∧ peerUp.en Pg.TIME = false ∧
    peerUp.lanes[2] = {} := by
  decide +kernel

section
variable (pl : List Byte)

/-- The frame of payload `pl`, which is to leave at tick 64. -/
def launchAt64 : LaunchEntry := { tick := 64, slip := false, ty := 2, payload := pl }

/-- On PEER_A that frame is queued, and a MIRROR waits for the line. -/
def peerBusy : State := peerUp.setLane 2 fun x => { x with launches := [launchAt64 pl], waits := [(0x0A, [])] }

/-- The state once that frame has left. -/
def peerSent : State := ((peerBusy pl).setLane 2 fun x => { x with launches := [] }).sendFrame 2 2 0 pl 64

/-- That frame as it leaves. -/
def longFrame : TxFrame := ⟨2, 1, 0, pl⟩

theorem peerBusy_lane : (peerBusy pl).lanes[(2 : Fin 20)] = { launches := [launchAt64 pl], waits := [(0x0A, [])] } := by
  obtain ⟨-, -, -, -, hlane⟩ := peerUp_shows
  simp [peerBusy, State.setLane, hlane]

theorem peerBusy_laneUp : (peerBusy pl).laneUp (2 : Fin 20).val = true := by
  obtain ⟨hon, hphase, -, -, -⟩ := peerUp_shows
  exact Bool.and_eq_true_iff.mpr ⟨hon, beq_iff_eq.mpr hphase⟩

theorem peerBusy_rate : (peerBusy pl).laneRate 2 = 0 := by
  obtain ⟨-, -, hrate, -, -⟩ := peerUp_shows
  exact hrate

theorem peerBusy_lineFree : (peerBusy pl).lineFree 2 64 = true := by
  have hfree : halfLe (0 + 16 * uiHalf 0) (2 * 64) = true := by decide
  unfold State.lineFree
  rwa [peerBusy_lane, peerBusy_rate]

theorem peerBusy_stepClear (f : TxFrame) (v : Nat) : (peerBusy pl).stepClear 2 f v = true := by
  unfold State.stepClear
  rw [peerBusy_lane]

theorem peerSent_lane : (peerSent pl).lanes[(2 : Fin 20)] =
    { waits := [(0x0A, [])]
      txSeq := 1
      tx := some (64, longFrame pl)
      endAt := 128 + 8 * lineUi (longFrame pl).wire
      freeAt := 128 + 8 * lineUi (longFrame pl).wire + 256 } := by
  have hrate : ((peerBusy pl).setLane 2 fun x => { x with launches := [] }).laneRate 2 = 0 := peerBusy_rate pl
  have hseq : ((peerBusy pl).setLane 2 fun x => { x with launches := [] }).nextSeq 2 2 = 1 := by
    simp only [State.nextSeq, setLane_lane, peerBusy_lane]
    rfl
  rw [peerSent, sendFrame_lane, setLane_lane, peerBusy_lane, hseq, State.lineEnd, hrate]
  rfl

theorem peerSent_leaves : Leaves (· ∉ [regAddr (Pg.LINK 2) Reg.FRAME_FRAME_STATUS_TX_SEQ.off]) peerUp (peerSent pl) := by
  have hlane (s : State) (g : Lane → Lane) : Leaves (· ∉ [regAddr (Pg.LINK 2) Reg.FRAME_FRAME_STATUS_TX_SEQ.off]) s (s.setLane 2 g) :=
    ⟨rfl, rfl, rfl, rfl, rfl, id, fun _ _ => rfl⟩
  exact (((hlane _ _).trans (hlane _ _)).trans (hlane _ _)).trans (.setWord _ _ (not_not.mpr (.head _)))

theorem peerSent_laneUp : (peerSent pl).laneUp (2 : Fin 20).val = true := by
  obtain ⟨hon, hphase, -, -, -⟩ := peerUp_shows
  have hstill : (peerSent pl).phase 2 = phUp := ((peerSent_leaves pl).f (by decide)).trans hphase
  exact Bool.and_eq_true_iff.mpr ⟨((peerSent_leaves pl).isOn (by decide) (by decide)).trans hon, beq_iff_eq.mpr hstill⟩

theorem peerSent_rate : (peerSent pl).laneRate 2 = 0 := by
  obtain ⟨-, -, hrate, -, -⟩ := peerUp_shows
  exact ((peerSent_leaves pl).f (by decide)).trans hrate

theorem peerSent_now : (peerSent pl).now = 64 := congrArg TimeSt.now (peerSent_leaves pl).time

theorem peerSent_timeTicks : (peerSent pl).timeTicks 2 = [] := by
  obtain ⟨-, -, -, hen, -⟩ := peerUp_shows
  have hoff : (peerSent pl).en Pg.TIME = false := (fb_congr ((peerSent_leaves pl).f (by decide))).trans hen
  unfold State.timeTicks
  exact dif_neg fun h => by simp [State.shortTime, hoff] at h

variable {pl} (hlo : 2 ^ 58 ≤ pl.length) (hhi : pl.length ≤ 2 ^ 58 + 64)
include hlo hhi

theorem peerSent_lineFree : (peerSent pl).lineFree 2 64 = true := by
  have hne : (longFrame pl).payload ≠ [] := fun h => by simp [show pl = [] from h] at hlo
  obtain ⟨hmin, hmax⟩ := lineUi_bounds (longFrame pl) hne
  have hlen : (longFrame pl).payload.length = pl.length := rfl
  have hwrap : halfLe (2 * 64 + (8 * lineUi (longFrame pl).wire + 384)) (2 * 64) = true := halfLe_wraps (by omega) (by omega)
  unfold State.lineFree
  rw [peerSent_lane, peerSent_rate]
  have hfree : 128 + 8 * lineUi (longFrame pl).wire + 256 + 16 * uiHalf 0 = 2 * 64 + (8 * lineUi (longFrame pl).wire + 384) := by
    rw [show uiHalf 0 = 8 from rfl]
    omega
  exact (congrArg (halfLe · (2 * 64)) hfree).trans hwrap

theorem peerSent_mayStart (seq flags : Nat) (payload : List Byte) : (peerSent pl).mayStart 2 ⟨0x0A, seq, flags, payload⟩ = true := by
  have hgrid : uiGrid 0 64 = 64 := by decide
  have hticks : (peerSent pl).protectedTicks 2 = [] := by
    unfold State.protectedTicks
    simp only [peerSent_lane, peerSent_timeTicks]
    simp
  have hfirst : (peerSent pl).outranked 2 0x0A = false := by
    have hforwards : (peerSent pl).time.forwards = [] := congrArg TimeSt.forwards (peerSent_leaves pl).time
    simp only [State.outranked, State.launchWaits, peerSent_lane, hforwards, peerSent_laneUp]
    simp
  have hclear (v : Nat) : (peerSent pl).partnerClear 2 ⟨0x0A, seq, flags, payload⟩ v = true := by
    simp only [State.partnerClear, peerSent_lane]
    simp
  unfold State.mayStart
  simp only [peerSent_rate, peerSent_now, hgrid, peerSent_lineFree hlo hhi, hticks, hfirst, hclear]
  rfl

/-- The MIRROR leaves after the frame, at the same tick. -/
theorem peerSent_sendWaiting : ((peerSent pl).sendWaiting 2).lanes[(2 : Fin 20)].tx.map (·.2.payload) = some [] :=
  sendWaiting_sends (peerSent pl) 2 (congrArg Lane.waits (peerSent_lane pl)) (peerSent_laneUp pl) (peerSent_mayStart hlo hhi _ _ _)

omit hlo hhi in
theorem peerBusy_launchHead : (peerBusy pl).launchHead 2 = peerSent pl := by
  have hgrid : uiGrid ((peerBusy pl).laneRate 2) 64 = 64 := by rw [peerBusy_rate]; decide
  have h := launchHead_sends (peerBusy pl) 2 (congrArg Lane.launches (peerBusy_lane pl)) rfl rfl ⟨(by decide : 2 ≠ 5), (by decide : 2 ≠ 6)⟩
    ((congrArg (reached · (64 : Int)) (congrArg Nat.cast hgrid)).trans rfl) (peerBusy_laneUp pl) ((congrArg _ hgrid).trans (peerBusy_lineFree pl))
    fun f => peerBusy_stepClear pl f _
  rw [h]
  exact congrArg _ hgrid

end

/-- Refutes O14: a frame of 2^58 bytes that leaves PEER_A at tick 64 does not keep back the MIRROR that waits, which leaves in the same LAUNCH, so
that the frame the lane sends is not the one its queue held. -/
theorem not_laneFrames : ¬ Obligations.LaneFrames := by
  unfold Obligations.LaneFrames
  rintro ⟨-, -, -, -, hlaunch, -⟩
  have hlen : (List.replicate (2 ^ 58) (0 : Byte)).length = 2 ^ 58 := List.length_replicate
  generalize List.replicate (2 ^ 58) (0 : Byte) = pl at hlen
  have hlive : (peerBusy pl).live 64 := ⟨rfl, (by decide : 64 ≤ 64), (by decide : 64 < 64 + 2 ^ 63), by decide⟩
  obtain ⟨u, hexec, -, -, hsent⟩ := hlaunch 64 2 (launchAt64 pl) [] (peerBusy pl) hlive (peerBusy_laneUp pl)
    (congrArg Lane.launches (peerBusy_lane pl)) rfl rfl rfl (peerBusy_lineFree pl) (peerBusy_stepClear pl _ _)
  have hnext : u = ended (peerBusy pl) ((peerSent pl).sendWaiting 2) :=
    (done_next hexec).trans (congrArg (fun v : State => ended (peerBusy pl) (v.sendWaiting 2)) peerBusy_launchHead)
  have hmirror : u.lanes[(2 : Fin 20)].tx.map (·.2.payload) = some [] := by
    rw [hnext, ended_lanes]
    exact peerSent_sendWaiting (pl := pl) (by omega) (by omega)
  have hempty : [] = pl := Option.some.inj (hmirror.symm.trans hsent)
  rw [← hempty, List.length_nil] at hlen
  omega

end Sys2Proof.Proofs
end

section
/-! PROOFS. Test loops and the pattern checker: what a lane and its registers show after the commands of R77 and R78. -/

namespace Sys2Proof.Proofs

open Sys2Proof.Machine Sys2Proof.Laws

/-! ### Registers and flags -/

theorem fb_setF_zero (s : State) (p : Nat) {fl : Fld} (h : Fits fl) : (s.setF p fl 0).fb p fl = false := fb_setB_same s h false

theorem fb_setF_one (s : State) (p : Nat) {fl : Fld} (h : Fits fl) : (s.setF p fl 1).fb p fl = true := fb_setB_same s h true

theorem f_setWord_page (s : State) (p : Nat) (w : Word) (fl : Fld) : (s.setWord (regAddr p fl.off) w).f p fl = fldOf w fl := by
  rw [State.f, word_setWord, if_pos rfl]

/-- A number that saturates in the width of a field reads back as it is. -/
theorem f_setF_satU (s : State) (p : Nat) {fl : Fld} (h : Fits fl) (n : Nat) : (s.setF p fl (satU n fl.width)).f p fl = satU n fl.width :=
  (f_setF_same s p fl _ h).trans (Nat.mod_eq_of_lt (Nat.lt_of_le_of_lt (Nat.min_le_right _ _) (Nat.sub_lt (Nat.two_pow_pos _) Nat.one_pos)))

section
variable (s : State) (p : Nat) {lo hi fl : Fld} (v : Nat)

theorem pair_setPair (hlo : Fits lo) (hhi : Fits hi) (h : Apart hi lo) : (s.setPair p lo hi v).pair p lo hi = v % 2 ^ (lo.width + hi.width) := by
  rw [State.pair, State.setPair, f_setF_apart _ _ _ _ _ hhi hlo h, f_setF_same _ _ _ _ hlo, f_setF_same _ _ _ _ hhi, pow_add, Nat.mod_mul,
    mul_comm (2 ^ lo.width)]

theorem pair_setF_apart (hfl : Fits fl) (hlo : Fits lo) (hhi : Fits hi) (h : Apart fl lo) (h' : Apart fl hi) :
    (s.setF p fl v).pair p lo hi = s.pair p lo hi := by
  simp only [State.pair, f_setF_apart s p fl _ v hfl hlo h, f_setF_apart s p fl _ v hfl hhi h']

theorem setPair_lanes : (s.setPair p lo hi v).lanes = s.lanes := rfl

theorem sticky_f_own (q k : Nat) (hp : p ≠ Pg.EVCOL) (hfl : Own fl) : (s.sticky! q k).f p fl = s.f p fl :=
  f_sticky s q k _ p fl hfl.2 (.inr ⟨fun h => absurd (h ▸ hfl.1) (by decide), fun h => absurd (h ▸ hfl.1) (by decide)⟩) (.inl hp)

end

theorem lanePage_ne_evcol (l : Fin 20) : lanePage l.val ≠ Pg.EVCOL := by
  revert l
  decide

theorem Leaves.st {A : Nat → Prop} {s u : State} (h : Leaves A s u) {p : Nat} (hst : A (regAddr p Reg.STATE_STATE.off))
    (hdom : A (regAddr Pg.PWR 0x044)) : u.st p = s.st p := by
  simp only [State.st, pageOn_of_domains (h.words _ hdom) (congrArg switches h.pwr), h.f hst]

theorem Leaves.setLane {A : Nat → Prop} (s : State) (l : Fin 20) (g : Lane → Lane) : Leaves A s (s.setLane l g) :=
  ⟨rfl, rfl, rfl, rfl, rfl, id, fun _ _ => rfl⟩

section
variable (s : State) (l : Fin 20) (g : Lane → Lane) (p : Nat) (lo hi fl : Fld)

theorem setLane_f : (s.setLane l g).f p fl = s.f p fl := rfl
theorem setLane_fb : (s.setLane l g).fb p fl = s.fb p fl := rfl
theorem setLane_pair : (s.setLane l g).pair p lo hi = s.pair p lo hi := rfl

end

/-! ### What the checker counts (R78) -/

section
variable (s : State) (l : Fin 20)

/-- PRBS_BITS with the bits received up to the present tick. -/
def prbsBits (s : State) (l : Fin 20) : Nat :=
  satU (s.pair (lanePage l) Reg.LANE_PRBS_BITS_LO Reg.LANE_PRBS_BITS_HI + ahead s.lanes[l].prbsAt s.now * 2 ^ s.laneRate l / 4) 64

theorem prbsCount_f {g : Fld} (hg : Fits g) (hlo : Apart Reg.LANE_PRBS_BITS_LO g) (hhi : Apart Reg.LANE_PRBS_BITS_HI g) :
    (s.prbsCount l).f (lanePage l) g = s.f (lanePage l) g := by
  simp only [State.prbsCount]
  split
  · rw [setLane_f, State.incPair, f_setPair_apart s _ (by decide) (by decide) hg hlo hhi]
  · rw [setLane_f]

theorem prbsCount_leaves : Leaves (· ∉ prbsRegs l) s (s.prbsCount l) :=
  .ite (((setF_leaves s (.tail _ (.head _)) _).trans (setF_leaves _ (.tail _ (.tail _ (.head _))) _)).trans (.setLane _ l _)) (.setLane s l _)

theorem prbsCount_st : (s.prbsCount l).st (lanePage l) = s.st (lanePage l) := by
  have hheader : ∀ l : Fin 20, regAddr (lanePage l) Reg.STATE_STATE.off ∉ prbsRegs l ∧ regAddr Pg.PWR 0x044 ∉ prbsRegs l := by decide
  exact Leaves.st (prbsCount_leaves s l) (hheader l).1 (hheader l).2

theorem prbsCount_lane : ∃ at' seen, (s.prbsCount l).lanes[l] = { s.lanes[l] with prbsAt := at', prbsSeen := seen } := by
  simp only [State.prbsCount]
  split
  · rw [setLane_lane, State.incPair, setPair_lanes]
    exact ⟨_, _, rfl⟩
  · rw [setLane_lane]
    exact ⟨_, _, rfl⟩

theorem prbsCount_bits (h : s.fb (lanePage l) Reg.LANE_PRBS_STATUS = true) :
    (s.prbsCount l).pair (lanePage l) Reg.LANE_PRBS_BITS_LO Reg.LANE_PRBS_BITS_HI = prbsBits s l := by
  simp only [State.prbsCount]
  rw [if_pos h, setLane_pair, State.incPair, pair_setPair _ _ _ (by decide) (by decide) (by decide)]
  exact Nat.mod_eq_of_lt (Nat.lt_of_le_of_lt (Nat.min_le_right _ _) (by decide))

/-- An error leaves the generator, and is counted; the next one is not the first. -/
theorem prbsError_lane : (s.prbsError l).lanes[l].gen = s.lanes[l].gen ∧ (s.prbsError l).lanes[l].prbsFirst = false := by
  obtain ⟨since, seen, hcount⟩ := prbsCount_lane s l
  have hmarked (u : State) : ((u.sticky! (lanePage l) Sticky.LANE_PRBS_ERR).ev! (lanePage l) Ev.LANE_PRBS_ERR).lanes = u.lanes :=
    (event_lanes _ _ _ _).trans (sticky_lanes _ _ _ _)
  unfold State.prbsError
  simp only []
  split
  · rw [setLane_lane, hmarked, setLane_lane, inc_eq, setF_lanes, hcount]
    exact ⟨rfl, rfl⟩
  · next hfirst =>
    rw [setLane_lane, inc_eq, setF_lanes, hcount] at hfirst ⊢
    exact ⟨rfl, Bool.eq_false_iff.mpr hfirst⟩

theorem prbsError_f {g : Fld} (ho : Own g) : (s.prbsError l).f (lanePage l) g = ((s.prbsCount l).inc (lanePage l) Reg.LANE_PRBS_ERRORS).f (lanePage l) g := by
  unfold State.prbsError
  simp only []
  split
  · exact (ev_f_own _ _ _ (lanePage_ne_evcol l) ho).trans (sticky_f_own _ _ _ _ (lanePage_ne_evcol l) ho)
  · rfl

theorem prbsError_errors : (s.prbsError l).f (lanePage l) Reg.LANE_PRBS_ERRORS = satU (s.f (lanePage l) Reg.LANE_PRBS_ERRORS + 1) 32 := by
  rw [prbsError_f s l (by decide), inc_eq, f_setF_satU _ _ (by decide), prbsCount_f s l (by decide) (by decide) (by decide)]
  rfl

theorem prbsError_bits (h : s.fb (lanePage l) Reg.LANE_PRBS_STATUS = true) :
    (s.prbsError l).pair (lanePage l) Reg.LANE_PRBS_BITS_LO Reg.LANE_PRBS_BITS_HI = prbsBits s l := by
  rw [State.pair, prbsError_f s l (by decide), prbsError_f s l (by decide), inc_eq]
  exact (pair_setF_apart _ _ _ (by decide) (by decide) (by decide) (by decide) (by decide)).trans (prbsCount_bits s l h)

end

/-! ### The pattern checker (R78) -/

section
variable {s : State} (t : Nat)

theorem prbsLocked_status {l : Fin 20} (h : s.prbsLocked l = true) : s.fb (lanePage l) Reg.LANE_PRBS_STATUS = true := (Bool.and_eq_true_iff.mp h).2

theorem upTo_prbsLocked (l : Fin 20) : (s.upTo t).prbsLocked l = s.prbsLocked l := by simp only [State.prbsLocked, upTo_pageOn, upTo_fb]

theorem upTo_loopedBack (l : Fin 20) : (s.upTo t).loopedBack l = s.loopedBack l := by simp only [State.loopedBack, upTo_f]

theorem upTo_prbsBits (l : Fin 20) : prbsBits (s.upTo t) l = satU (s.pair (lanePage l) Reg.LANE_PRBS_BITS_LO Reg.LANE_PRBS_BITS_HI +
    ahead s.lanes[l].prbsAt (s.upTo t).now * 2 ^ s.laneRate l / 4) 64 := by
  simp only [prbsBits, State.laneRate, upTo_pair, upTo_lanes, upTo_f]

theorem prbsSyncGain_shows (r : LaneBits) (hon : s.pageOn (lanePage r.lane.val) = true) (hchk : s.fb (lanePage r.lane.val) Reg.LANE_LOOP_CTRL_CHK_EN = true)
    (hfree : s.fb (lanePage r.lane.val) Reg.LANE_PRBS_STATUS = false)
    (hsync : prbsInSync (s.f (lanePage r.lane.val) Reg.LANE_LOOP_CTRL_PATTERN) ((s.upTo t).checkBits r.lane r.line) = true) :
    Completes (.prbsSyncGain t r) s fun u =>
      u.fb (lanePage r.lane.val) Reg.LANE_PRBS_STATUS = true ∧ u.lanes[r.lane].prbsAt = (s.upTo t).now := by
  have hguard : (s.upTo t).pageOn (lanePage r.lane.val) = true ∧ (s.upTo t).fb (lanePage r.lane.val) Reg.LANE_LOOP_CTRL_CHK_EN = true ∧
      ¬ (s.upTo t).fb (lanePage r.lane.val) Reg.LANE_PRBS_STATUS = true ∧
      prbsInSync ((s.upTo t).f (lanePage r.lane.val) Reg.LANE_LOOP_CTRL_PATTERN) ((s.upTo t).checkBits r.lane r.line) = true := by
    simpa using ⟨hon, hchk, hfree, hsync⟩
  refine ⟨_, (congrArg (done s) (if_pos hguard)).trans (done_eq s _), ?_, ?_⟩
  · rw [ended_fb, setLane_fb, fb_setF_one _ _ (by decide)]
  · rw [ended_lanes, setLane_lane]

theorem prbsSyncLoss_shows (l : Fin 20) (hlock : s.prbsLocked l = true) (hmany : s.prbsSwamped l = true) : Completes (.prbsSyncLoss t l) s fun u =>
    u.fb (lanePage l) Reg.LANE_PRBS_STATUS = false ∧
      u.pair (lanePage l) Reg.LANE_PRBS_BITS_LO Reg.LANE_PRBS_BITS_HI = satU (s.pair (lanePage l) Reg.LANE_PRBS_BITS_LO Reg.LANE_PRBS_BITS_HI +
        ahead s.lanes[l].prbsAt (s.upTo t).now * 2 ^ s.laneRate l / 4) 64 := by
  have hguard : (s.upTo t).prbsLocked l = true ∧ (s.upTo t).prbsSwamped l = true :=
    ⟨(upTo_prbsLocked t l).trans hlock, by simpa only [State.prbsSwamped, upTo_lanes] using hmany⟩
  refine ⟨_, (congrArg (done s) (if_pos hguard)).trans (done_eq s _), ?_, ?_⟩
  · rw [ended_fb, setLane_fb, fb_setF_zero _ _ (by decide)]
  · rw [ended_pair, setLane_pair, pair_setF_apart _ _ _ (by decide) (by decide) (by decide) (by decide) (by decide),
      prbsCount_bits _ l (prbsLocked_status hguard.1), upTo_prbsBits]

/-- Where the received bit is not the expected one, the error is counted. -/
theorem prbsBitError_shows (r : LaneBit) (hlock : s.prbsLocked r.lane = true)
    (hbit : (s.upTo t).latestBit r.lane r.bit ≠ ((s.upTo t).prbsCount r.lane).expectedBit r.lane) : Completes (.prbsBitError t r) s fun u =>
      u.f (lanePage r.lane.val) Reg.LANE_PRBS_ERRORS = satU (s.f (lanePage r.lane.val) Reg.LANE_PRBS_ERRORS + 1) 32 ∧
        u.lanes[r.lane].prbsFirst = false ∧
        u.pair (lanePage r.lane.val) Reg.LANE_PRBS_BITS_LO Reg.LANE_PRBS_BITS_HI = satU (s.pair (lanePage r.lane.val) Reg.LANE_PRBS_BITS_LO
          Reg.LANE_PRBS_BITS_HI + ahead s.lanes[r.lane].prbsAt (s.upTo t).now * 2 ^ s.laneRate r.lane / 4) 64 := by
  have hlock' := (upTo_prbsLocked t r.lane).trans hlock
  refine ⟨_, (congrArg (done s) (if_pos ⟨hlock', hbit⟩)).trans (done_eq s _), ?_, ?_, ?_⟩
  · rw [ended_f, prbsError_errors, upTo_f]
  · rw [ended_lanes, (prbsError_lane _ _).2]
  · rw [ended_pair, prbsError_bits _ _ (prbsLocked_status hlock'), upTo_prbsBits]

/-- A lane that does not turn its bits back takes the bit on its pins. -/
theorem latestBit_pins (l : Fin 20) (b e : Bool) (hback : s.loopedBack l = false) (h : s.rxBits l [b] ≠ [e]) : (s.upTo t).latestBit l b ≠ e := by
  have hline : (s.upTo t).rxBits l [b] = s.rxBits l [b] := by simp only [State.rxBits, upTo_fb]
  have hone : ∃ c, s.rxBits l [b] = [c] := by
    unfold State.rxBits
    split
    · exact ⟨!b, rfl⟩
    · exact ⟨b, rfl⟩
  obtain ⟨c, hc⟩ := hone
  rw [State.latestBit, upTo_loopedBack, if_neg (Bool.eq_false_iff.mp hback), hline, hc]
  exact fun he => h (hc.trans (congrArg (fun x => [x]) he))

/-! ### The pattern generator and LOOP_CMD (R78) -/

/-- A generator whose bit `n` INJECT has inverted. -/
def injected (g : PatternGen) (n : Nat) : PatternGen :=
  { g with inverted := if g.inverted.contains n then g.inverted.filter (· != n) else n :: g.inverted }

theorem injected_bit (g : PatternGen) (pattern n : Nat) : (injected g n).bit pattern n = !g.bit pattern n := by
  have hcontains : (injected g n).inverted.contains n = !g.inverted.contains n := by
    unfold injected
    split
    · next h => simpa using h
    · next h => simpa using h
  unfold PatternGen.bit
  rw [hcontains]
  show (prbsBit pattern g.seed n != !g.inverted.contains n) = _
  cases prbsBit pattern g.seed n <;> cases g.inverted.contains n <;> rfl

/-- What INJECT leaves of a running generator, before the lane's own checker sees the bit. -/
def loopInjected (s : State) (l : Fin 20) (g : PatternGen) : State :=
  s.setLane l fun x => { x with gen := some (injected g (s.genSent l g)) }

theorem loopInject_next {l : Fin 20} {g : PatternGen} (hon : s.pageOn (lanePage l) = true) (hgen : s.lanes[l].gen = some g) :
    exec (.loopInject t l) s = .next (ended s (if s.loopedBack l = true ∧ s.prbsLocked l = true then (loopInjected (s.upTo t) l g).prbsError l
      else loopInjected (s.upTo t) l g)) := by
  have hon' : (s.upTo t).pageOn (lanePage l) = true := by simpa using hon
  have hgen' : (s.upTo t).lanes[l].gen = some g := by simpa using hgen
  have hback : (loopInjected (s.upTo t) l g).loopedBack l = s.loopedBack l := upTo_loopedBack t l
  have hlock : (loopInjected (s.upTo t) l g).prbsLocked l = s.prbsLocked l := upTo_prbsLocked t l
  refine (if_neg (not_not.mpr hon')).trans (.trans ?_ (done_eq s _))
  rw [hgen', ← hback, ← hlock]
  rfl

theorem loopInject_shows {l : Fin 20} {g : PatternGen} (hon : s.pageOn (lanePage l) = true) (hgen : s.lanes[l].gen = some g) :
    Completes (.loopInject t l) s fun u => u.lanes[l].gen = some (injected g ((s.upTo t).genSent l g)) ∧
      u.f (lanePage l) Reg.LANE_PRBS_ERRORS = if s.loopedBack l = true ∧ s.prbsLocked l = true then
        satU (s.f (lanePage l) Reg.LANE_PRBS_ERRORS + 1) 32 else s.f (lanePage l) Reg.LANE_PRBS_ERRORS := by
  have hlane : (loopInjected (s.upTo t) l g).lanes[l].gen = some (injected g ((s.upTo t).genSent l g)) := by
    rw [loopInjected, setLane_lane]
  have herrors : (loopInjected (s.upTo t) l g).f (lanePage l) Reg.LANE_PRBS_ERRORS = s.f (lanePage l) Reg.LANE_PRBS_ERRORS := upTo_f s t _ _
  refine ⟨_, loopInject_next t hon hgen, ?_, ?_⟩
  · rw [ended_lanes]
    split
    · rw [(prbsError_lane _ l).1, hlane]
    · exact hlane
  · rw [ended_f]
    split
    · rw [prbsError_errors, herrors]
    · exact herrors

/-- Words of a page written with 0 read 0; its other words are as they were. -/
theorem f_each_zero (p : Nat) (fl : Fld) (os : List Nat) : ∀ u : State, (u.each os fun u o => u.setWord (regAddr p o) 0#32).f p fl =
    if fl.off ∈ os then 0 else u.f p fl := by
  induction os with
  | nil => exact fun _ => rfl
  | cons o os ih =>
    intro u
    have hword : (u.setWord (regAddr p o) 0#32).f p fl = if fl.off = o then 0 else u.f p fl := by
      split
      · next h => rw [← h, f_setWord_page, fldOf, BitVec.toNat_zero, bits, Nat.zero_shiftRight, Nat.zero_mod]
      · next h => rw [State.f, word_setWord, if_neg (fun e : regAddr p fl.off = regAddr p o => h (Nat.add_left_cancel e)), State.f]
    refine (ih _).trans ?_
    rw [hword]
    by_cases h : fl.off = o
    · simp [h]
    · simp [h]

theorem prbsClear_shows (l : Fin 20) : (s.prbsClear l).f (lanePage l) Reg.LANE_PRBS_ERRORS = 0 ∧
    (s.prbsClear l).f (lanePage l) Reg.LANE_PRBS_BITS_LO = 0 ∧ (s.prbsClear l).f (lanePage l) Reg.LANE_PRBS_BITS_HI = 0 := by
  simp (disch := decide) only [State.prbsClear, setLane_f, State.setPair, f_setF_apart, f_setF_same, Nat.zero_mod, Nat.zero_div, and_self]

theorem loopClear_shows (l : Fin 20) (hon : s.pageOn (lanePage l) = true) : Completes (.loopClear t l) s fun u =>
    u.f (lanePage l) Reg.LANE_PRBS_ERRORS = 0 ∧ u.pair (lanePage l) Reg.LANE_PRBS_BITS_LO Reg.LANE_PRBS_BITS_HI = 0 ∧
      u.f (lanePage l) Reg.LANE_FRAME_DISCARDS = 0 ∧ u.f (lanePage l) Reg.LANE_LOCK_LOSSES = 0 ∧ (4 ≤ l.val →
      u.f (lanePage l) Reg.HEAD_DN_SENT = 0) ∧ (l.val < 4 → u.f (lanePage l) Reg.FRAME_SEQ_GAPS = 0) := by
  have hon' : (s.upTo t).pageOn (lanePage l) = true := by simpa using hon
  obtain ⟨herrors, hlo, hhi⟩ := prbsClear_shows (s := s.upTo t) l
  refine ⟨_, (if_neg (not_not.mpr hon')).trans ((congrArg (done s) (if_pos hon')).trans (done_eq s _)), ?_⟩
  by_cases hl : l.val < 4
  · rw [if_pos hl]
    simp only [State.pair, ended_f, f_each_zero, herrors, hlo, hhi]
    exact ⟨rfl, rfl, rfl, rfl, fun h => absurd hl (Nat.not_lt.mpr h), fun _ => rfl⟩
  · rw [if_neg hl]
    simp only [State.pair, ended_f, f_each_zero, herrors, hlo, hhi]
    exact ⟨rfl, rfl, rfl, rfl, fun _ => rfl, fun h => absurd h hl⟩

/-! ### LOOP_CTRL (R77, R78) -/

/-- What a write of LOOP_CTRL with `v` leaves, up to what it does to the generator. -/
def loopWritten (s : State) (l : Fin 20) (v : Word) : State :=
  let p := lanePage l
  let off := s.st p == stOff
  s.setWord (regAddr p 0x058) (if off then v else putFld v Reg.LANE_LOOP_CTRL_MODE (s.f p Reg.LANE_LOOP_CTRL_MODE))

/-- The registers of lane `l` that settle once LOOP_CTRL is written: those of the checker, the rate and the phase. -/
def loopSettles (l : Fin 20) : List Nat := prbsRegs l ++ [regAddr (lanePage l) Reg.LANE_PRBS_STATUS.off, regAddr (lanePage l) Reg.LANE_LANE_STATUS_PHASE.off]

theorem loopCtrlWrite_next {l : Fin 20} {v : Word} (hon : s.pageOn (lanePage l) = true) (hhigh : v.toNat / 2 ^ 11 = 0) (hbit : v.toNat.testBit 3 = false)
    (hmode : fldOf v Reg.LANE_LOOP_CTRL_MODE < 5) (hpattern : fldOf v Reg.LANE_LOOP_CTRL_PATTERN ≠ 3) :
    ∃ u k, exec (.loopCtrlWrite t l v) s = .next (ended s (u.genUpdate l k)) ∧
      Within (laneFreeShape l) (loopSettles l) (loopWritten ((s.upTo t).prbsCount l) l v) u := by
  have hφ := laneFreeShape_writes l
  have hset {o : Nat} (h : regAddr (lanePage l) o ∈ loopSettles l) {u : State} {fl : Fld} {n : Nat} (hfl : fl.off = o) :
      Within (laneFreeShape l) (loopSettles l) u (u.setF (lanePage l) fl n) := hφ.setF u _ _ (hfl ▸ h)
  have hstatus {u : State} {fl : Fld} {n : Nat} :=
    hset (o := 0x040) (List.mem_append_right _ (.tail _ (.head _))) (u := u) (fl := fl) (n := n)
  have hsync {u : State} {n : Nat} := hset (List.mem_append_right _ (.head _)) (u := u) (fl := Reg.LANE_PRBS_STATUS) (n := n) rfl
  have hclear := hφ.prbsClear (r := loopSettles l) (.tail _ (.head _)) (.tail _ (.tail _ (.head _))) (.head _)
  have hon' : (s.upTo t).pageOn (lanePage l) = true := by simpa using hon
  have hreserved : ¬ (v.toNat / 2 ^ 11 ≠ 0 ∨ v.toNat.testBit 3 = true) := not_or.mpr ⟨not_not.mpr hhigh, Bool.eq_false_iff.mp hbit⟩
  have hencoding : ¬ ((s.upTo t).st (lanePage l) = stOff ∧ 5 ≤ fldOf v Reg.LANE_LOOP_CTRL_MODE ∨ fldOf v Reg.LANE_LOOP_CTRL_PATTERN = 3) := by
    omega
  refine ⟨_, _, (if_neg (not_not.mpr hon')).trans ((if_neg hreserved).trans ((if_neg hencoding).trans (done_eq s _))), ?_⟩
  exact .trans hφ.shape (.trans hφ.shape (.ite (.trans hφ.shape (hclear _) hsync) (.ite hsync (.refl hφ.shape _)))
    (.ite (.trans hφ.shape (hstatus rfl) (hstatus (fl := Reg.LANE_LANE_STATUS_TX_LOOP_TIMED) rfl)) (.refl hφ.shape _)))
    (.ite (hstatus rfl) (.refl hφ.shape _))

/-- The fields of LOOP_CTRL take what is written, but for MODE outside OFF. -/
theorem loopWritten_f (s : State) (l : Fin 20) (v : Word) : (∀ {fl : Fld}, Fits fl → fl.off = 0x058 → 2 < fl.lo → (loopWritten s l v).f (lanePage l) fl = fldOf v fl) ∧
    (loopWritten s l v).f (lanePage l) Reg.LANE_LOOP_CTRL_MODE =
      if s.st (lanePage l) = stOff then fldOf v Reg.LANE_LOOP_CTRL_MODE else s.f (lanePage l) Reg.LANE_LOOP_CTRL_MODE := by
  simp only [loopWritten, beq_iff_eq]
  refine ⟨fun {fl} hfl ho hlo => ?_, ?_⟩
  · rw [← ho, f_setWord_page]
    split
    · rfl
    · exact fldOf_putFld_apart _ _ _ _ (by decide) hfl (.inl hlo)
  · rw [show (0x058 : Nat) = Reg.LANE_LOOP_CTRL_MODE.off from rfl, f_setWord_page]
    split
    · rfl
    · exact (fldOf_putFld_same _ _ _ (by decide)).trans (Nat.mod_eq_of_lt (Nat.mod_lt _ (by decide)))

/-- The generator runs as GEN_EN says; no register changes. -/
theorem genUpdate_shows (s : State) (l : Fin 20) (k : Nat) : (s.genUpdate l k).regs = s.regs ∧
    (s.genUpdate l k).lanes[l].gen.isSome = s.fb (lanePage l) Reg.LANE_LOOP_CTRL_GEN_EN := by
  simp only [State.genUpdate]
  split
  · next h => exact ⟨rfl, by rw [setLane_lane]; simpa using h⟩
  · next h =>
    have hen : s.fb (lanePage l) Reg.LANE_LOOP_CTRL_GEN_EN = true := not_not.mp h
    split
    · next h => exact ⟨rfl, h.1.trans hen.symm⟩
    · simp [hen]

theorem loopCtrlWrite_shows {l : Fin 20} {v : Word} (hon : s.pageOn (lanePage l) = true) (hhigh : v.toNat / 2 ^ 11 = 0) (hbit : v.toNat.testBit 3 = false)
    (hmode : fldOf v Reg.LANE_LOOP_CTRL_MODE < 5) (hpattern : fldOf v Reg.LANE_LOOP_CTRL_PATTERN ≠ 3) : Completes (.loopCtrlWrite t l v) s fun u =>
      u.f (lanePage l) Reg.LANE_LOOP_CTRL_GEN_EN = fldOf v Reg.LANE_LOOP_CTRL_GEN_EN ∧
        u.f (lanePage l) Reg.LANE_LOOP_CTRL_CHK_EN = fldOf v Reg.LANE_LOOP_CTRL_CHK_EN ∧
        u.lanes[l].gen.isSome = decide (fldOf v Reg.LANE_LOOP_CTRL_GEN_EN ≠ 0) ∧
        u.f (lanePage l) Reg.LANE_LOOP_CTRL_MODE =
          (if s.st (lanePage l) = stOff then fldOf v Reg.LANE_LOOP_CTRL_MODE else s.f (lanePage l) Reg.LANE_LOOP_CTRL_MODE) := by
  obtain ⟨u, k, hexec, hsettled⟩ := loopCtrlWrite_next t hon hhigh hbit hmode hpattern
  obtain ⟨hregs, hgen⟩ := genUpdate_shows u l k
  obtain ⟨hfields, hmoded⟩ := loopWritten_f ((s.upTo t).prbsCount l) l v
  have hkept {fl : Fld} (ho : fl.off = 0x058) : u.f (lanePage l) fl = (loopWritten ((s.upTo t).prbsCount l) l v).f (lanePage l) fl := by
    have hfree : ∀ l : Fin 20, regAddr (lanePage l) 0x058 ∉ loopSettles l := by decide
    exact congrArg (fldOf · fl) (hsettled.words _ (ho ▸ hfree l))
  have hended (fl : Fld) : (ended s (u.genUpdate l k)).f (lanePage l) fl = u.f (lanePage l) fl := by
    rw [ended_f]
    simp only [State.f, State.word, hregs]
  have hgenEn := (hkept rfl).trans (hfields (fl := Reg.LANE_LOOP_CTRL_GEN_EN) (by decide) rfl (by decide))
  refine ⟨_, hexec, (hended _).trans hgenEn, (hended _).trans ((hkept rfl).trans (hfields (by decide) rfl (by decide))), ?_,
    (hended _).trans ((hkept rfl).trans (hmoded.trans ?_))⟩
  · rw [ended_lanes, hgen, State.fb, hgenEn]
  · rw [prbsCount_st, prbsCount_f _ l (by decide) (by decide) (by decide), upTo_st, upTo_f]

end

/-- Settles O16: the registers of a lane and its generator after each command, as the lemmas above show them. -/
theorem laneLoops : Obligations.LaneLoops := by
  unfold Obligations.LaneLoops
  refine ⟨?_, ?_, ?_, ?_, ?_, ?_, ?_, ?_⟩
  · exact fun t l v s hon hhigh hbit hmode hpattern => loopCtrlWrite_shows t hon hhigh hbit hmode hpattern
  · intro t l g s hon hgen
    obtain ⟨u, hexec, hinv, herr⟩ := loopInject_shows t hon hgen
    refine ⟨u, hexec, by rw [hinv, Option.map_some, injected_bit], fun hback => herr.trans (if_neg fun h => ?_)⟩
    exact Bool.false_ne_true (hback.symm.trans h.1)
  · intro t l g s hon hgen hback hlock
    obtain ⟨u, hexec, -, herr⟩ := loopInject_shows t hon hgen
    exact ⟨u, hexec, herr.trans (if_pos ⟨hback, hlock⟩)⟩
  · exact fun t l s hon => loopClear_shows t l hon
  · exact fun t r s hon hchk hfree hsync => prbsSyncGain_shows t r hon hchk hfree hsync
  · exact fun t l s hlock hmany => prbsSyncLoss_shows t l hlock hmany
  · exact fun t r s hlock hback hbit => prbsBitError_shows t r hlock (latestBit_pins t r.lane _ _ hback hbit)
  · exact fun t r s hlock _ hbit => prbsBitError_shows t r hlock hbit

end Sys2Proof.Proofs
end

section
/-! PROOFS. What the rest of the device does to a lane: a fault, a hold, a loss of every reference or a SAFE-HOLD leaves the lanes, and the registers
of their pages past the header, as they were (R50, R52, R57, R98, R240, R282). -/

namespace Sys2Proof.Proofs

open Sys2Proof.Machine Sys2Proof.Laws

/-- Page `p` is that of a lane. -/
abbrev LanePage (p : Nat) : Prop := (0x14 ≤ p ∧ p < 0x18) ∨ (0x20 ≤ p ∧ p < 0x30)

/-- Register `a` stands in a lane's page, past its header. -/
abbrev LaneReg (a : Nat) : Prop := LanePage (a / 0x1000) ∧ 0x040 ≤ a % 0x1000

theorem lanePage_isLane (l : Fin 20) : LanePage (lanePage l) := by
  revert l
  decide

theorem laneReg_own (l : Fin 20) {o : Nat} (h : 0x040 ≤ o ∧ o < 0x1000) : LaneReg (regAddr (lanePage l) o) := by
  have hl := lanePage_isLane l
  unfold LaneReg LanePage regAddr at *
  omega

theorem laneReg_header (p : Nat) {o : Nat} (h : o < 0x040) : ¬ LaneReg (regAddr p o) := by
  unfold LaneReg LanePage regAddr
  omega

theorem laneReg_other {p : Nat} (h : ¬ LanePage p) {o : Nat} (ho : o < 0x1000) : ¬ LaneReg (regAddr p o) := by
  unfold LaneReg LanePage regAddr at *
  omega

/-- `u` has the lanes of `s`, the registers of their pages past the header, and the domains switched as in `s`. -/
structure KeepsLanes (s u : State) : Prop where
  lanes : u.lanes = s.lanes
  words : ∀ a, LaneReg a → u.word a = s.word a
  domains : switches u.pwr = switches s.pwr

namespace KeepsLanes

section
variable {s u v : State}

theorem f (h : KeepsLanes s u) (l : Fin 20) {fl : Fld} (ho : Own fl) : u.f (lanePage l) fl = s.f (lanePage l) fl := by
  simp only [State.f, h.words _ (laneReg_own l ho)]

theorem fb (h : KeepsLanes s u) (l : Fin 20) {fl : Fld} (ho : Own fl) : u.fb (lanePage l) fl = s.fb (lanePage l) fl := fb_congr (h.f l ho)

theorem refl (s : State) : KeepsLanes s s := ⟨rfl, fun _ _ => rfl, rfl⟩

theorem trans (h : KeepsLanes s u) (k : KeepsLanes u v) : KeepsLanes s v :=
  ⟨k.lanes.trans h.lanes, fun a ha => (k.words a ha).trans (h.words a ha), k.domains.trans h.domains⟩

theorem ite {c : Prop} [Decidable c] (h : KeepsLanes s u) (k : KeepsLanes s v) : KeepsLanes s (if c then u else v) := by
  split
  · exact h
  · exact k

theorem when {g : State → State} (c : Bool) (h : KeepsLanes s (g s)) : KeepsLanes s (s.when c g) := ite h (refl s)

theorem each_mem {α : Type} {g : State → α → State} (l : List α) (hg : ∀ s, ∀ x ∈ l, KeepsLanes s (g s x)) :
    ∀ s : State, KeepsLanes s (s.each l g) := by
  induction l with
  | nil => exact refl
  | cons x r ih => exact fun s => (hg s x (.head _)).trans (ih (fun u y hy => hg u y (.tail _ hy)) _)

theorem each {α : Type} {g : State → α → State} (hg : ∀ s x, KeepsLanes s (g s x)) (l : List α) (s : State) : KeepsLanes s (s.each l g) :=
  each_mem l (fun s x _ => hg s x) s

/-- An operation that notes and records, and writes none of those registers. -/
theorem of_noted {l : List Nat} (h : RegsBut l s u) (hl : ∀ a ∈ l, ¬ LaneReg a) (hn : Noted s u) : KeepsLanes s u :=
  ⟨by rw [hn], fun a ha => h a fun hin => hl a hin ha, by rw [hn]⟩

end

/-! ### Registers, events and flags -/

section
variable (s : State) (p : Nat)

theorem setWord {a : Nat} (w : Word) (h : ¬ LaneReg a) : KeepsLanes s (s.setWord a w) :=
  ⟨rfl, fun b hb => by rw [word_setWord, if_neg fun e : b = a => h (e ▸ hb)], rfl⟩

theorem setHeader {fl : Fld} (v : Nat) (h : fl.off < 0x040 := by decide) : KeepsLanes s (s.setF p fl v) := setWord s _ (laneReg_header p h)

theorem setF {p : Nat} (hp : ¬ LanePage p) {fl : Fld} (v : Nat) (h : fl.off < 0x1000 := by decide) : KeepsLanes s (s.setF p fl v) :=
  setWord s _ (laneReg_other hp h)

theorem setB {p : Nat} (hp : ¬ LanePage p) {fl : Fld} (v : Bool) (h : fl.off < 0x1000 := by decide) : KeepsLanes s (s.setB p fl v) :=
  setF s hp _ h

theorem inc {p : Nat} (hp : ¬ LanePage p) {fl : Fld} (n : Nat) (h : fl.off < 0x1000 := by decide) : KeepsLanes s (s.inc p fl n) :=
  setF s hp _ h

theorem event (k stamp : Nat) : KeepsLanes s (s.event p k stamp) :=
  ⟨event_lanes s p k stamp, (Leaves.event_of s (by decide) (laneReg_header p (by decide)) k stamp).words, congrArg switches (event_pwr s p k stamp)⟩

theorem sticky (k stamp : Nat) : KeepsLanes s (s.sticky p k stamp) :=
  ⟨sticky_lanes s p k stamp,
    (Leaves.sticky_of s (by decide) (laneReg_header p (by decide)) (laneReg_header p (by decide)) k stamp).words,
    congrArg switches (sticky_pwr s p k stamp)⟩

theorem ev! (k : Nat) : KeepsLanes s (s.ev! p k) := event s p k s.now

theorem sticky! (k : Nat) : KeepsLanes s (s.sticky! p k) := sticky s p k s.now

end

/-! ### The recorder, the pair and the laser pins (R303, R318, R371) -/

section
variable (s : State)

theorem errorRegs_apart : ∀ a ∈ errorRegs, ¬ LaneReg a := by decide

theorem pinRegs_apart : ∀ a ∈ pinRegs, ¬ LaneReg a := by decide

theorem declare (bit : Nat) : KeepsLanes s (s.declare bit) :=
  of_noted (declare_regsBut s (List.Subset.refl _) bit) errorRegs_apart (noted_declare s bit)

theorem accAdd (o k n : Nat) : KeepsLanes s (s.accAdd o k n) :=
  of_noted (accAdd_regsBut s (List.Subset.refl _) o k n) errorRegs_apart (noted_accAdd s o k n)

theorem pins (n : Fin 16) : KeepsLanes s (s.pins n) := by
  refine of_noted (pins_regsBut s (List.subset_append_left _ _) (List.subset_append_right _ _) n) (fun a ha => ?_) (noted_pins s n)
  exact (List.mem_append.mp ha).elim (errorRegs_apart a) (pinRegs_apart a)

theorem allPins : KeepsLanes s s.allPins := each pins _ s

theorem gateTimes : KeepsLanes s s.gateTimes := by
  refine each (fun u n => ?_) _ s
  exact ite ((accAdd u _ _ _).trans ⟨rfl, fun _ _ => rfl, rfl⟩) (refl u)

theorem flushOver (fl : Flush) : KeepsLanes s (s.flushOver fl) := by
  have hnv (u : State) (g : RecSt) : KeepsLanes u { u with rcd := g } := ⟨rfl, fun _ _ => rfl, rfl⟩
  have hset (u : State) (f : Fld) (v : Nat) (h : f.off < 0x1000) : KeepsLanes u (u.setF Pg.RECORD f v) := setF u (by decide) v h
  unfold State.flushOver
  exact ((((hnv s _).trans (hset _ _ _ (by decide))).trans (hset _ _ _ (by decide))).trans (hset _ _ _ (by decide))).trans
    (setB _ (by decide) _)

/-- A trigger that is collected: PENDING, and the counts it may add to (R373, R374). -/
theorem triggered {u : State} (h : KeepsLanes s u) (g : RecSt) (bit : Nat) (joins : Bool) : KeepsLanes s
    (let s3 := ({ u with rcd := g }).setB Pg.RECORD Reg.RECORD_STATUS_PENDING true
     let s4 := if joins then s3.inc Pg.RECORD Reg.RECORD_MERGED else s3
     if trigGated bit && !s4.gapOver then (s4.inc Pg.RECORD Reg.RECORD_DEFERRED).ev! Pg.RECORD Ev.RECORD_FLUSH_DEFERRED else s4) := by
  have h3 : KeepsLanes s (({ u with rcd := g }).setB Pg.RECORD Reg.RECORD_STATUS_PENDING true) :=
    (h.trans (v := { u with rcd := g }) ⟨rfl, fun _ _ => rfl, rfl⟩).trans (setB _ (p := Pg.RECORD) (by decide) true)
  have h4 : KeepsLanes s (if joins = true then (({ u with rcd := g }).setB Pg.RECORD Reg.RECORD_STATUS_PENDING true).inc Pg.RECORD Reg.RECORD_MERGED
      else ({ u with rcd := g }).setB Pg.RECORD Reg.RECORD_STATUS_PENDING true) := ite (h3.trans (inc _ (p := Pg.RECORD) (by decide) 1)) h3
  exact ite ((h4.trans (inc _ (p := Pg.RECORD) (by decide) 1)).trans (ev! _ _ _)) h4

theorem trigger (bit : Nat) : KeepsLanes s (s.trigger bit) := by
  have habandon (fl : Flush) : KeepsLanes s (s.abandonFlush fl) :=
    trans (u := { s with rcd := { s.rcd with nv := s.rcd.spoil fl } }) ⟨rfl, fun _ _ => rfl, rfl⟩ (flushOver _ fl)
  unfold State.trigger
  refine ite ?_ (refl s)
  split
  next s1 extra more hcapture =>
  refine triggered s ?_ _ bit _
  split at hcapture
  · split at hcapture
    · cases hcapture
      exact habandon _
    · cases hcapture
      exact refl s
  · cases hcapture
    exact refl s

end

/-! ### Knife causes and the states of a block (R34, R36, R304) -/

section
variable (s : State)

theorem unclear (n : Fin 16) : KeepsLanes s (s.unclear n) := by
  have hset (u : State) (fl : Fld) (v : Nat) (h : fl.off < 0x1000) : KeepsLanes u (u.setF Pg.KNIFE fl v) := setF u (by decide) v h
  have hoff : (Reg.KNIFE_CAUSE_LATCHED.num n).off < 0x1000 := by simp only [Fld.num, Reg.KNIFE_CAUSE_LATCHED]; omega
  have hknife (u : State) (g : KnifeSt) : KeepsLanes u { u with knife := g } := ⟨rfl, fun _ _ => rfl, rfl⟩
  have hunoffer (u : State) (src : Nat) : KeepsLanes u (u.unoffer src) := ⟨rfl, fun _ _ => rfl, rfl⟩
  unfold State.unclear
  split
  · refine ite (((hset s _ _ hoff).trans (when _ ?_)).trans (hknife _ _)) (refl s)
    exact ((hset _ _ _ (by decide)).trans (hset _ _ _ (by decide))).trans (when _ (hunoffer _ _))
  · exact refl s

theorem latchOne (n : Fin 16) (c stamp : Nat) : KeepsLanes s (s.latchOne n c stamp) := by
  have hset (u : State) (fl : Fld) (v : Nat) (h : fl.off < 0x1000) : KeepsLanes u (u.setF Pg.KNIFE fl v) := setF u (by decide) v h
  have hoff : (Reg.KNIFE_CAUSE_LATCHED.num n).off < 0x1000 := by simp only [Fld.num, Reg.KNIFE_CAUSE_LATCHED]; omega
  have hknife (u : State) (g : KnifeSt) : KeepsLanes u { u with knife := g } := ⟨rfl, fun _ _ => rfl, rfl⟩
  unfold State.latchOne
  exact ((((((unclear s n).trans (hset _ _ _ hoff)).trans (hset _ _ _ (by decide))).trans (hset _ _ _ (by decide))).trans (hknife _ _)).trans
    (accAdd _ _ _ _)).trans (pins _ n)

theorem latchCause (scope : List (Fin 16)) (c stamp : Nat) : KeepsLanes s (s.latchCause scope c stamp) := by
  have hcounted := (((each (fun u n => latchOne u n c stamp) scope s).trans (inc _ (p := Pg.KNIFE) (fl := Reg.KNIFE_TRIPS) (by decide) 1)).trans
    (event _ Pg.KNIFE Ev.KNIFE_TRIP stamp)).trans (accAdd _ (0xD30 + 4 * c) 4 1)
  exact ite (ite hcounted (hcounted.trans (trigger _ 2))) (refl s)

theorem calWatch : KeepsLanes s s.calWatch := by
  have habandon (op : Nat) : KeepsLanes s (s.calAbandon op) := by
    have hrun : KeepsLanes s { s with cal := { s.cal with run := none } } := ⟨rfl, fun _ _ => rfl, rfl⟩
    have hfail := ((hrun.trans (setB _ (p := Pg.CALIB) (fl := Reg.CALIB_STATUS_BUSY) (by decide) false)).trans
      (setF _ (p := Pg.CALIB) (fl := Reg.CALIB_STATUS_RESULT) (by decide) 2)).trans (ev! _ Pg.CALIB Ev.CALIB_CAL_FAIL)
    have hnv (u : State) (g : RecSt) : KeepsLanes u { u with rcd := g } := ⟨rfl, fun _ _ => rfl, rfl⟩
    unfold State.calAbandon
    exact ite ((hfail.trans (hnv _ _)).trans (sticky! _ _ _)) hfail
  unfold State.calWatch
  split
  · exact ite (refl s) (habandon _)
  · exact refl s

theorem refreshEn (p : Nat) : KeepsLanes s (s.refreshEn p) := setHeader s p _

theorem enter (p v stamp : Nat) : KeepsLanes s (s.enter p v stamp) := by
  have hentered (u : State) : KeepsLanes u (u.setEntered p stamp) := ⟨rfl, fun _ _ => rfl, rfl⟩
  have hmoved := (((setHeader s p (fl := Reg.STATE_STATE) v).trans (hentered _)).trans (refreshEn _ p)).trans (event _ p Ev.STATE_CHANGE stamp)
  have hstate : KeepsLanes s (s.setState p v stamp) := ite (refreshEn s p) ((ite (hmoved.trans (event _ p Ev.FAULT stamp)) hmoved).trans (calWatch _))
  have hexpose (u : State) (b : Fin 16) : KeepsLanes u (u.expose b) := by
    unfold State.expose
    split <;> exact ⟨rfl, fun _ _ => rfl, rfl⟩
  refine hstate.trans ?_
  unfold State.enter State.exposeAt
  split
  · exact hexpose _ _
  · exact hexpose _ _
  · exact refl _

theorem blockFault (p stamp : Nat) : KeepsLanes s (s.blockFault p stamp) := ite (enter s p _ stamp) (refl s)

end

/-! ### Faults and what stops (R36, R184, R240, R282) -/

section
variable (s : State)

theorem brushPage (b : Fin 16) : ¬ LanePage (Pg.BRUSH b) := by unfold LanePage Pg.BRUSH; omega

theorem axisPage {a : Nat} (h : a < 64) : ¬ LanePage (Pg.AXIS a) := by unfold LanePage Pg.AXIS; omega

theorem streamPage (k : Fin 32) : ¬ LanePage (Pg.STREAM k) := by unfold LanePage Pg.STREAM; omega

theorem setLaser (n : Fin 16) (g : Laser → Laser) : KeepsLanes s (s.setLaser n g) := ⟨rfl, fun _ _ => rfl, rfl⟩

theorem setRaster (b : Fin 16) (g : Raster → Raster) : KeepsLanes s (s.setRaster b g) := ⟨rfl, fun _ _ => rfl, rfl⟩

theorem dropEdges (n : Fin 16) : KeepsLanes s (s.dropEdges n) := (setLaser s n _).trans (pins _ n)

theorem dropLines (b : Fin 16) (keep : RLine → Bool) : KeepsLanes s (s.dropLines b keep) := by
  have hpage : ¬ LanePage (Pg.RASTER b) := by unfold LanePage Pg.RASTER; omega
  exact ite (refl s) ((setRaster s b _).trans (setF _ hpage (fl := Reg.RASTER_LINE_STATUS_RING_FREE) _))

theorem brushFault (b : Fin 16) (cause stamp : Nat) : KeepsLanes s (s.brushFault b cause stamp) :=
  ite ((((setF s (brushPage b) _).trans (blockFault _ _ _)).trans (dropEdges _ b)).trans (dropLines _ b _)) (refl s)

theorem axisFault {a : Nat} (ha : a < 64) (cause stamp : Nat) : KeepsLanes s (s.axisFault a cause stamp) := by
  have hfault := (setF s (axisPage ha) (fl := Reg.AXIS_STATUS_FAULT_CAUSE) cause).trans (blockFault _ (Pg.AXIS a) stamp)
  refine ite ?_ (refl s)
  split
  · exact (hfault.trans (latchCause _ _ _ _)).trans (brushFault _ _ _ _)
  · exact hfault

theorem linkGone (l : Fin 20) : KeepsLanes s (s.linkGone l) := by
  have hdeclared : KeepsLanes s (if s.isOn (Pg.BRUSH (l - 4)) then s.declare 9 else s) := ite (declare s 9) (refl s)
  refine hdeclared.trans ?_
  exact ((axisFault _ (by omega) _ _).trans (axisFault _ (by omega) _ _)).trans (axisFault _ (by omega) _ _)

theorem abandonImage (k : Fin 32) : KeepsLanes s (s.abandonImage k) := by
  have hsending (g : Stream → Stream) : KeepsLanes s (s.setStream k g) := ⟨rfl, fun _ _ => rfl, rfl⟩
  exact ite ((((((hsending _).trans (setB _ (streamPage k) _)).trans (inc _ (streamPage k) _)).trans (sticky! _ _ _)).trans (ev! _ _ _)).trans
    (accAdd _ _ _ _)) (refl s)

theorem hostPortGone (l : Nat) : KeepsLanes s (s.hostPortGone l) := each (fun u k => ite (abandonImage u k) (refl u)) _ s

end

/-! ### Blocks that are turned off (R34, R57, R130) -/

section
variable (s : State)

theorem endForce (b : Fin 16) : KeepsLanes s (s.endForce b) := by
  have hset (u : State) (fl : Fld) (v : Nat) (h : fl.off < 0x1000) : KeepsLanes u (u.setF (Pg.BRUSH b) fl v) := setF u (brushPage b) v h
  have hbrush (u : State) (g : Brush → Brush) : KeepsLanes u (u.setBrush b g) := ⟨rfl, fun _ _ => rfl, rfl⟩
  unfold State.endForce
  exact ((((((hset s _ _ (by decide)).trans (hset _ _ _ (by decide))).trans (hset _ _ _ (by decide))).trans (hset _ _ _ (by decide))).trans
    (hset _ _ _ (by decide))).trans (hbrush _ _)).trans (dropLines _ b _)

theorem truncateOpen (k : Fin 32) : KeepsLanes s (s.truncateOpen k) := by
  have hstream (g : Stream → Stream) : KeepsLanes s (s.setStream k g) := ⟨rfl, fun _ _ => rfl, rfl⟩
  exact ite ((((((hstream _).trans (setB _ (streamPage k) _)).trans (inc _ (streamPage k) _)).trans (inc _ (streamPage k) _)).trans
    (sticky! _ _ _)).trans (ev! _ _ _)) (refl s)

theorem lightOff (n : Fin 4) : KeepsLanes s (s.lightOff n) := by
  have hpage : ¬ LanePage (Pg.LTPORT n) := by unfold LanePage Pg.LTPORT; omega
  have hset (u : State) (fl : Fld) (v : Nat) (h : fl.off < 0x1000) : KeepsLanes u (u.setF (Pg.LTPORT n) fl v) := setF u hpage v h
  have hlight (g : LtPort → LtPort) : KeepsLanes s (s.setLight n g) := ⟨rfl, fun _ _ => rfl, rfl⟩
  exact (((((((hlight _).trans (hset _ _ _ (by decide))).trans (hset _ _ _ (by decide))).trans (hset _ _ _ (by decide))).trans
    (hset _ _ _ (by decide))).trans (hset _ _ _ (by decide))).trans (hset _ _ _ (by decide))).trans (hset _ _ _ (by decide))

/-- A block other than a lane's enters STOPPING. -/
theorem toStopping {p : Nat} (hlink : pageBlk p ≠ some .link) (hhead : pageBlk p ≠ some .head) : KeepsLanes s (s.toStopping p) := by
  have hbrush (u : State) (b : Fin 16) (g : Brush → Brush) : KeepsLanes u (u.setBrush b g) := ⟨rfl, fun _ _ => rfl, rfl⟩
  refine (enter s p stStopping s.now).trans ?_
  unfold State.toStopping State.onStopping
  split
  · exact ((dropEdges _ _).trans (endForce _ _)).trans (hbrush _ _ _)
  · exact (dropEdges _ _).trans (setLaser _ _ _)
  · exact ⟨rfl, fun _ _ => rfl, rfl⟩
  · exact ⟨rfl, fun _ _ => rfl, rfl⟩
  · exact each truncateOpen _ _
  · exact truncateOpen _ _
  · exact lightOff _ _
  · next h => exact absurd h hlink
  · next h => exact absurd h hhead
  · exact refl _

/-- A block other than a lane's is turned off. -/
theorem ctrlEn1_off {p : Nat} (hlink : pageBlk p ≠ some .link) (hhead : pageBlk p ≠ some .head) : KeepsLanes s (s.ctrlEn1 p false) := by
  unfold State.ctrlEn1
  extract_lets s1
  have hwritten : KeepsLanes s s1 := (ite (gateTimes s) (refl s)).trans (setHeader _ p (b2n false))
  split
  · next h => exact absurd h Bool.false_ne_true
  · exact hwritten.trans (toStopping _ hlink hhead)
  · exact hwritten.trans (toStopping _ hlink hhead)
  · exact hwritten.trans (refreshEn _ p)

/-- SYS is turned off, and the brushes with it. -/
theorem sysOff : KeepsLanes s (s.ctrlEn Pg.SYS false) := by
  have hsys := ctrlEn1_off s (p := Pg.SYS) (by decide) (by decide)
  have hbrushes : ∀ q ∈ blkPages .brush, pageBlk q ≠ some .link ∧ pageBlk q ≠ some .head := by decide
  unfold State.ctrlEn
  exact ite (hsys.trans (each_mem _ (fun u q hq => ite (ctrlEn1_off u (hbrushes q hq).1 (hbrushes q hq).2) (refl u)) _)) hsys

theorem enterSafeHold : KeepsLanes s s.enterSafeHold := by
  have hdevice (u : State) (d : DevState) : KeepsLanes u { u with pwr := { u.pwr with dev := d } } := ⟨rfl, fun _ _ => rfl, rfl⟩
  unfold State.enterSafeHold
  extract_lets pages s1 s2
  have hpages : KeepsLanes s s1 := by
    refine (setB s (by decide) _).trans (each_mem _ (fun u q hq => ite ?_ (refl u)) _)
    obtain ⟨⟨-, hdomain⟩, hhead⟩ : (pageDomain q ≠ 0 ∧ pageDomain q ≠ 1) ∧ pageBlk q ≠ some .head := by simpa using (List.mem_filter.mp hq).2
    exact ctrlEn1_off u (fun h => hdomain (by simp [pageDomain, h, blkInfo])) hhead
  exact (((hpages.trans (sysOff s1)).trans (latchCause _ _ _ _)).trans (hdevice s2 _)).trans (trigger _ 6)

end

/-! ### References and the health of a head's link (R50 to R57, R98) -/

section
variable (s : State)

theorem setClk (g : ClkSt → ClkSt) : KeepsLanes s (s.setClk g) := ⟨rfl, fun _ _ => rfl, rfl⟩

theorem setClkF (fl : Fld) (v : Nat) (h : fl.off < 0x1000) : KeepsLanes s (s.setF Pg.CLK fl v) := setF s (by decide) v h

theorem coastEnter : KeepsLanes s s.coastEnter := by
  have hservo (u : State) : KeepsLanes u u.servoHold := ite ⟨rfl, fun _ _ => rfl, rfl⟩ (refl u)
  unfold State.coastEnter
  extract_lets pwr s1 s2 s3
  have hclockForce : KeepsLanes s s1 := ⟨rfl, fun _ _ => rfl, rfl⟩
  have hforced : KeepsLanes s1 s2 := (((((setClkF s1 _ _ (by decide)).trans (setClkF _ _ _ (by decide))).trans (setClkF _ _ _ (by decide))).trans
    (setClkF _ _ _ (by decide))).trans (setClkF _ _ _ (by decide))).trans (setClkF _ _ _ (by decide))
  have hcounted : KeepsLanes s2 s3 := (((((hservo s2).trans (setClk _ _)).trans (setClkF _ _ _ (by decide))).trans (accAdd _ _ _ _)).trans
    (sticky! _ _ _)).trans (sticky! _ _ _)
  exact ((((((hclockForce.trans hforced).trans hcounted).trans (ev! _ _ _)).trans (declare _ _)).trans (when _ (enterSafeHold _)))).trans (allPins _)

theorem holdBegin (c cause : Nat) : KeepsLanes s (s.holdBegin c cause) := by
  unfold State.holdBegin
  exact ite (setClkF s _ _ (by decide)) ((((((((setClkF s _ _ (by decide)).trans (setClkF _ _ _ (by decide))).trans (setClkF _ _ _ (by decide))).trans (setClkF _ _ _ (by decide))).trans (setClkF _ _ _ (by decide))).trans
    (setClk _ _)).trans (setClkF _ _ _ (by decide))))

theorem candLost (c : Nat) : KeepsLanes s (s.candLost c) := by
  unfold State.candLost
  extract_lets s1
  have hlost : KeepsLanes s s1 := (setClkF s _ _ (by decide)).trans (ev! _ _ _)
  refine ite (hlost.trans (setClk _ _)) (ite ?_ hlost)
  split
  · exact hlost.trans (holdBegin _ _ _)
  · exact hlost.trans (coastEnter _)

theorem primerTake : KeepsLanes s s.primerTake := by
  unfold State.primerTake
  refine ite ?_ (refl s)
  split
  · exact ite (refl s) (setClk s _)
  · exact setClk s _

theorem candUpdate (c : Fin 4) : KeepsLanes s (s.candUpdate c) := by
  unfold State.candUpdate
  extract_lets flap s1 s2
  have hended : KeepsLanes s s2 := ite ((setClk s _).trans (sticky! _ _ _)) (setClk s _)
  exact ite (primerTake s) (ite (ite (setClk s _) (refl s)) (ite (hended.trans (candLost _ _)) hended))

theorem headHealth (h : Fin 16) : KeepsLanes s (s.headHealth h) := by
  have hhead (g : Head → Head) : KeepsLanes s (s.setHead h g) := ⟨rfl, fun _ _ => rfl, rfl⟩
  unfold State.headHealth
  exact ite (((hhead _).trans (ev! _ _ _)).trans (latchCause _ _ _ _)) (hhead _)

/-- Judging what rests on a lane leaves every lane as it was. -/
theorem laneJudge (l : Fin 20) : KeepsLanes s (s.laneJudge l) := by
  unfold State.laneJudge
  split
  · exact candUpdate s _
  · exact headHealth s _

theorem stepHold (l : Fin 20) : KeepsLanes s (s.stepHold l) := ite (holdBegin s _ _) (refl s)

end

end KeepsLanes

end Sys2Proof.Proofs
end

section
/-! PROOFS. Bring-up that starts again: what a lane shows of it (R71, R72, R75). -/

namespace Sys2Proof.Proofs

open Sys2Proof.Machine Sys2Proof.Laws

/-- Writing a field leaves the fields of other registers, on its page and on every other. -/
theorem f_setF_off (s : State) (p q : Nat) {fl g : Fld} (v : Nat) (hf : fl.off < 0x1000) (hg : g.off < 0x1000) (h : fl.off ≠ g.off) :
    (s.setF q fl v).f p g = s.f p g :=
  congrArg (fldOf · g) (word_setF_other s q fl v _ fun e => h ((regAddr_inj hg hf).mp e).2.symm)

section
variable (s : State) (l : Fin 20)

/-! ### A step that fails, and a lane that is left -/

theorem cdrLost_keeps : KeepsLanes s (s.cdrLost l) := .when _ ⟨rfl, fun _ _ => rfl, rfl⟩

/-- A step that fails shows it in STEP_STATUS, and the lane holds it no more. -/
theorem stepFailed_shows : (s.stepEnd l 6).lanes[l] = { s.lanes[l] with step := none } ∧
    ∀ {g : Fld}, Own g → g.off ≠ 0x054 → (s.stepEnd l 6).f (lanePage l) g = s.f (lanePage l) g := by
  have hev (u : State) := KeepsLanes.ev! u (lanePage l) Ev.LANE_STEP_FAIL
  have heq : s.stepEnd l 6 = (((s.setF (lanePage l) Reg.LANE_STEP_STATUS_RESULT 6).setB (lanePage l) Reg.LANE_STEP_STATUS_BUSY false).setLane l
      fun x => { x with step := none }).ev! (lanePage l) Ev.LANE_STEP_FAIL := rfl
  rw [heq]
  refine ⟨?_, fun ho hoff => ?_⟩
  · rw [(hev _).lanes, setLane_lane, State.setB, setF_lanes, setF_lanes]
  · rw [(hev _).f l ho, setLane_f, State.setB, f_setF_off _ _ _ _ (by decide) ho.2 hoff.symm, f_setF_off _ _ _ _ (by decide) ho.2 hoff.symm]

/-- What a lane leaves as bring-up starts again: a step in progress fails, and what rests on the lane's link is told (R75, R240, R282). -/
def laneLeft (s : State) (l : Fin 20) : State :=
  let up := decide (s.phase l = phUp)
  let sb := (s.when (s.fb (lanePage l) Reg.LANE_STEP_STATUS_BUSY) fun s => s.stepEnd l 6).cdrLost l
  if 4 ≤ l.val ∧ up then sb.linkGone l else if l.val < 2 ∧ (up ∨ s.phase l = phStep) then sb.hostPortGone l else sb

theorem laneLeft_shows : (laneLeft s l).lanes[l].retries = s.lanes[l].retries ∧
    ∀ {g : Fld}, Own g → g.off ≠ 0x054 → (laneLeft s l).f (lanePage l) g = s.f (lanePage l) g := by
  unfold laneLeft
  extract_lets up sb
  have hfailed : (s.when (s.fb (lanePage l) Reg.LANE_STEP_STATUS_BUSY) fun s => s.stepEnd l 6).lanes[l].retries = s.lanes[l].retries ∧
      ∀ {g : Fld}, Own g → g.off ≠ 0x054 →
        (s.when (s.fb (lanePage l) Reg.LANE_STEP_STATUS_BUSY) fun s => s.stepEnd l 6).f (lanePage l) g = s.f (lanePage l) g := by
    obtain ⟨hlane, hf⟩ := stepFailed_shows s l
    unfold State.when
    split
    · exact ⟨(congrArg Lane.retries hlane :), hf⟩
    · exact ⟨rfl, fun _ _ => rfl⟩
  have hkeeps {u : State} (h : KeepsLanes sb u) : u.lanes[l].retries = s.lanes[l].retries ∧
      ∀ {g : Fld}, Own g → g.off ≠ 0x054 → u.f (lanePage l) g = s.f (lanePage l) g := by
    have hall := (cdrLost_keeps _ l).trans h
    exact ⟨(congrArg (fun v : Vector Lane 20 => v[l].retries) hall.lanes).trans hfailed.1, fun ho hoff => (hall.f l ho).trans (hfailed.2 ho hoff)⟩
  split
  · exact hkeeps (.linkGone sb l)
  · split
    · exact hkeeps (.hostPortGone sb l)
    · exact hkeeps (.refl sb)

/-! ### Bring-up starts -/

/-- The lane at the start of bring-up in phase `ph`, at 1.6 Gb/s. -/
def laneBegun (s : State) (l : Fin 20) (ph : Nat) : State :=
  let p := lanePage l
  let s0 := laneLeft s l
  (((((s0.setF p Reg.LANE_LANE_STATUS_PHASE ph).setF p Reg.LANE_LANE_STATUS_RATE (s0.restRate p ph)).setF p
    Reg.LANE_LANE_STATUS_PARTNER_RATES 0).setB p Reg.LANE_LANE_STATUS_FRAME_LOCK false).setF p Reg.LANE_LANE_STATUS_CDR_LOCK 0).setLane l fun x =>
      { x with good := 0, bad := 0, phaseAt := s.now, attemptAt := s.now, patternAt := none, patternDone := false, capAt := none, capSeen := false,
               capAcked := false, rxAny := false, cpls := [], fences := [], waits := [], step := none, pstep := none, gapPrev := false }

theorem laneRestart_eq (ph : Nat) : s.laneRestart l ph =
    (if 4 ≤ l.val then (laneBegun s l ph).headFresh ⟨(l.val - 4) % 16, Nat.mod_lt _ (by decide)⟩ else laneBegun s l ph).patternStart l := rfl

/-- A head link judged afresh shows no delay; every other register, and the lanes, are as they were. -/
theorem headFresh_shows (u : State) (h : Fin 16) : (u.headFresh h).lanes = u.lanes ∧
    ∀ {g : Fld}, Own g → g.off ≠ 0x104 → (u.headFresh h).f (lanePage l) g = u.f (lanePage l) g := by
  have hhead (v : State) (k : Head → Head) (p : Nat) (g : Fld) : (v.setHead h k).f p g = v.f p g := rfl
  unfold State.headFresh
  refine ⟨by rw [setHead_lanes, setF_lanes, State.setB, setF_lanes], fun ho hoff => ?_⟩
  rw [hhead, f_setF_off _ _ _ _ (by decide) ho.2 hoff.symm, State.setB, f_setF_off _ _ _ _ (by decide) ho.2 hoff.symm]

/-- What of lane `l` the end of its bring-up leaves: the steps in progress, and the attempts that have failed. -/
def LeavesAttempts (l : Fin 20) (s u : State) : Prop := u.lanes[l].step = s.lanes[l].step ∧ u.lanes[l].retries = s.lanes[l].retries

theorem leavesAttempts_of_lanes {l : Fin 20} {s u : State} (h : u.lanes = s.lanes) : LeavesAttempts l s u := by
  have hl : u.lanes[l] = s.lanes[l] := congrArg (fun w : Vector Lane 20 => w[l]) h
  exact ⟨congrArg Lane.step hl, congrArg Lane.retries hl⟩

theorem patternStart_shows (u : State) : LeavesAttempts l u (u.patternStart l) ∧
    ∀ (p : Nat) (g : Fld), (u.patternStart l).f p g = u.f p g := by
  unfold State.patternStart
  split
  · refine ⟨?_, fun _ _ => rfl⟩
    unfold LeavesAttempts
    rw [setLane_lane]
    exact ⟨rfl, rfl⟩
  · exact ⟨⟨rfl, rfl⟩, fun _ _ => rfl⟩

/-- Bring-up that has started leaves the registers of the lane but for the delay of a head link. -/
theorem laneRestart_begun (ph : Nat) : LeavesAttempts l (laneBegun s l ph) (s.laneRestart l ph) ∧
    ∀ {g : Fld}, Own g → g.off ≠ 0x104 → (s.laneRestart l ph).f (lanePage l) g = (laneBegun s l ph).f (lanePage l) g := by
  rw [laneRestart_eq]
  split
  · obtain ⟨hlanes, hf⟩ := headFresh_shows l (laneBegun s l ph) ⟨(l.val - 4) % 16, Nat.mod_lt _ (by decide)⟩
    obtain ⟨⟨hstep, hretries⟩, hkept⟩ := patternStart_shows l ((laneBegun s l ph).headFresh ⟨(l.val - 4) % 16, Nat.mod_lt _ (by decide)⟩)
    obtain ⟨hstep', hretries'⟩ := leavesAttempts_of_lanes (l := l) hlanes
    exact ⟨⟨hstep.trans hstep', hretries.trans hretries'⟩, fun ho hoff => (hkept _ _).trans (hf ho hoff)⟩
  · obtain ⟨hleft, hkept⟩ := patternStart_shows l (laneBegun s l ph)
    exact ⟨hleft, fun _ _ => hkept _ _⟩

theorem laneRestart_shows {ph : Nat} (hph : ph < phLoop) : (s.laneRestart l ph).phase l = ph ∧
    (s.laneRestart l ph).f (lanePage l) Reg.LANE_LANE_STATUS_RATE = 0 ∧ (s.laneRestart l ph).lanes[l].step = none ∧
    (s.laneRestart l ph).lanes[l].retries = s.lanes[l].retries := by
  obtain ⟨⟨hstep, hretries⟩, hf⟩ := laneRestart_begun s l ph
  have hrate : (laneLeft s l).restRate (lanePage l) ph = 0 := if_pos (Nat.ne_of_lt hph)
  have hbegun : (laneBegun s l ph).lanes[l].step = none ∧ (laneBegun s l ph).lanes[l].retries = s.lanes[l].retries := by
    simp -implicitDefEqProofs only [laneBegun, setLane_lane, State.setB, setF_lanes, (laneLeft_shows s l).1, and_self]
  refine ⟨(hf (by decide) (by decide)).trans ?_, (hf (by decide) (by decide)).trans ?_, hstep.trans hbegun.1, hretries.trans hbegun.2⟩
  · simp -implicitDefEqProofs (disch := decide) only [laneBegun, setLane_f, State.setB, f_setF_apart, f_setF_same]
    exact Nat.mod_eq_of_lt (Nat.lt_trans hph (by decide))
  · simp -implicitDefEqProofs (disch := decide) only [laneBegun, setLane_f, State.setB, f_setF_apart, f_setF_same, hrate, Nat.zero_mod]

/-- Bring-up that starts again leaves the registers of the lane but for LANE_STATUS, STEP_STATUS and the delay of a head link. -/
theorem laneRestart_f (ph : Nat) {g : Fld} (ho : Own g) (h : g.off ∉ [0x040, 0x054, 0x104]) :
    (s.laneRestart l ph).f (lanePage l) g = s.f (lanePage l) g := by
  obtain ⟨h40, h54, h104⟩ : g.off ≠ 0x040 ∧ g.off ≠ 0x054 ∧ g.off ≠ 0x104 := by simpa using h
  obtain ⟨-, hf⟩ := laneRestart_begun s l ph
  have hset (u : State) {fl : Fld} (v : Nat) (hfl : fl.off = 0x040) : (u.setF (lanePage l) fl v).f (lanePage l) g = u.f (lanePage l) g :=
    f_setF_off _ _ _ _ (by rw [hfl]; decide) ho.2 fun e => h40 (e.symm.trans hfl)
  rw [hf ho h104, laneBegun, setLane_f, State.setB, hset _ _ rfl, hset _ _ rfl, hset _ _ rfl, hset _ _ rfl, hset _ _ rfl,
    (laneLeft_shows s l).2 ho h54]

/-! ### Bring-up is repeated (R72) -/

theorem laneRepeat_shows (activity : Bool) : (s.laneRepeat l activity).phase l = (if activity then phAcquire else phIdle) ∧
    (s.laneRepeat l activity).f (lanePage l) Reg.LANE_LANE_STATUS_RATE = 0 ∧ (s.laneRepeat l activity).lanes[l].step = none ∧
    (s.laneRepeat l activity).lanes[l].retries = s.lanes[l].retries := by
  have hph : (if activity then phAcquire else phIdle) < phLoop := by cases activity <;> decide
  obtain ⟨hphase, hrate, hstep, hretries⟩ := laneRestart_shows (s.setB (lanePage l) Reg.LANE_LANE_STATUS_ACTIVITY activity) l hph
  have hjudge := KeepsLanes.laneJudge ((s.setB (lanePage l) Reg.LANE_LANE_STATUS_ACTIVITY activity).laneRestart l (if activity then phAcquire else phIdle)) l
  refine ⟨(hjudge.f l (by decide)).trans hphase, (hjudge.f l (by decide)).trans hrate, ?_, ?_⟩
  · rw [State.laneRepeat, hjudge.lanes, hstep]
  · rw [State.laneRepeat, hjudge.lanes, hretries, State.setB, setF_lanes]

theorem laneRepeat_f (activity : Bool) {g : Fld} (ho : Own g) (h : g.off ∉ [0x040, 0x054, 0x104]) :
    (s.laneRepeat l activity).f (lanePage l) g = s.f (lanePage l) g := by
  refine ((KeepsLanes.laneJudge _ l).f l ho).trans ((laneRestart_f _ l _ ho h).trans ?_)
  exact f_setF_off _ _ _ _ (by decide) ho.2 fun e => h (e ▸ .head _)

end

end Sys2Proof.Proofs
end

section
/-! PROOFS. Rate steps (R74, R75): what a lane and its registers show after each command of a step. -/

namespace Sys2Proof.Proofs

open Sys2Proof.Machine Sys2Proof.Laws

section
variable {s : State} (t : Nat) (l : Fin 20)

theorem upTo_lane : (s.upTo t).lanes[l] = s.lanes[l] := by rw [upTo_lanes]

theorem pageOn_of_laneUp {l : Fin 20} (h : s.laneUp l = true) : s.pageOn (lanePage l) = true :=
  pageOn_of_st (by decide) (beq_iff_eq.mp (Bool.and_eq_true_iff.mp h).1)

/-! ### The request (R74) -/

/-- What an accepted request leaves: the step waits for tick `tick`. -/
def stepAccepted (s : State) (l : Fin 20) (rate tick : Nat) : State :=
  ((s.setB (lanePage l) Reg.LANE_STEP_STATUS_BUSY true).setF (lanePage l) Reg.LANE_STEP_STATUS_RESULT 0).setLane l fun x =>
    { x with step := some { rate := rate, tick := tick } }

theorem stepAccepted_shows (s : State) (rate tick : Nat) : (stepAccepted s l rate tick).fb (lanePage l) Reg.LANE_STEP_STATUS_BUSY = true ∧
    (stepAccepted s l rate tick).f (lanePage l) Reg.LANE_STEP_STATUS_RESULT = 0 ∧
    (stepAccepted s l rate tick).lanes[l].step = some { rate := rate, tick := tick } := by
  refine ⟨?_, ?_, ?_⟩
  · rw [stepAccepted, setLane_fb, fb_setF_apart _ _ (by decide) (by decide) (by decide), fb_setB_same _ (by decide)]
  · rw [stepAccepted, setLane_f, f_setF_same _ _ _ _ (by decide), Nat.zero_mod]
  · rw [stepAccepted, setLane_lane]

theorem stepCtrlGo_next {rate : Fin 4} {tick : Nat} (htick : near48 (s.upTo t).now (s.actPair (lanePage l) Reg.LANE_STEP_AT_LO Reg.LANE_STEP_AT_HI) = tick)
    (hup : s.laneUp l = true) (hnear : (if s.laneRate l ≤ rate.val then rate.val - s.laneRate l else s.laneRate l - rate.val) ≤ 1)
    (hown : (if l.val < 4 then 0xF else 0x7 : Nat).testBit rate = true)
    (hpartner : (s.f (lanePage l) Reg.LANE_LANE_STATUS_PARTNER_RATES).testBit rate = true)
    (hmax : rate.val ≤ s.f (lanePage l) Reg.LANE_LANE_CTRL_MAX_RATE) (hlate : 640000 ≤ sdiff48 (tick : Nat) ((s.upTo t).now : Nat))
    (hbusy : s.fb (lanePage l) Reg.LANE_STEP_STATUS_BUSY = false) (hloop : s.f (lanePage l) Reg.LANE_LOOP_CTRL_MODE = 0)
    (haxes : s.headAxesOff l = true) :
    exec (.stepCtrlGo t l rate) s = .next (ended s (stepAccepted (s.upTo t) l rate tick)) := by
  have hon : (s.upTo t).pageOn (lanePage l) = true := (upTo_pageOn s t _).trans (pageOn_of_laneUp hup)
  have hrates : ¬ (!(if l.val < 4 then 0xF else 0x7 : Nat).testBit rate ||
      !((s.upTo t).f (lanePage l) Reg.LANE_LANE_STATUS_PARTNER_RATES).testBit rate ||
      (s.upTo t).f (lanePage l) Reg.LANE_LANE_CTRL_MAX_RATE < rate.val) = true := by
    simpa [hown, hpartner] using hmax
  have haxes' : (s.upTo t).headAxesOff l = true := by simpa only [State.headAxesOff, upTo_st] using haxes
  have hfree : ¬ ((s.upTo t).fb (lanePage l) Reg.LANE_STEP_STATUS_BUSY || !(s.upTo t).laneUp l ||
      (s.upTo t).f (lanePage l) Reg.LANE_LOOP_CTRL_MODE ≠ 0 || !(s.upTo t).headAxesOff l) = true := by
    simp [hbusy, hup, hloop, haxes']
  have hactPair : near48 (s.upTo t).now ((s.upTo t).actPair (lanePage l) Reg.LANE_STEP_AT_LO Reg.LANE_STEP_AT_HI) = tick := by
    rw [← htick, State.actPair, upTo_a, upTo_a, State.actPair]
  have hnear' : ¬ 1 < (if (s.upTo t).laneRate l ≤ rate.val then rate.val - (s.upTo t).laneRate l else (s.upTo t).laneRate l - rate.val) := by
    rw [show (s.upTo t).laneRate l = s.laneRate l from upTo_f s t _ _]
    exact Nat.not_lt.mpr hnear
  subst hactPair
  exact (if_neg (not_not.mpr hon)).trans ((if_neg hrates).trans ((if_neg (not_lt.mpr hlate)).trans ((if_neg hfree).trans ((if_neg hnear').trans
    (done_eq s _)))))

/-! ### The wait for the partner (R75, steps 1 and 2) -/

theorem stepAckDeadline_shows {st : RateStep} (hstep : s.lanes[l].step = some st) (hacked : st.acked = false)
    (hpast : (s.upTo t).past ((st.tick : Int) - 64000) = true) : Completes (.stepAckDeadline t l) s fun u =>
      u.lanes[l].step = none ∧ u.f (lanePage l) Reg.LANE_STEP_STATUS_RESULT = 5 ∧ u.fb (lanePage l) Reg.LANE_STEP_STATUS_BUSY = false := by
  have hstep' : (s.upTo t).lanes[l].step = some st := (congrArg Lane.step (upTo_lane t l)).trans hstep
  have hend : execStepAckDeadline t l s = done s ((s.upTo t).stepEnd l 5) := by
    have hguard : (!st.acked) = true ∧ (s.upTo t).past ((st.tick : Int) - 64000) = true := ⟨by rw [hacked]; rfl, hpast⟩
    simp only [execStepAckDeadline, hstep']
    exact congrArg (done s) (if_pos hguard)
  refine ⟨_, hend.trans (done_eq s _), ?_⟩
  show _ ∧ _ ∧ _
  rw [stepEnd_unanswered, ended_f, ended_fb, ended_lanes, setLane_lane, setLane_f, setLane_fb, fb_setB_same _ (by decide),
    f_setB_apart _ _ (by decide) (by decide) (by decide), f_setF_same _ _ _ _ (by decide)]
  exact ⟨rfl, rfl, rfl⟩

theorem stepQuiesce_shows {st : RateStep} (hstep : s.lanes[l].step = some st) (hacked : st.acked = true)
    (hpast : (s.upTo t).past ((st.tick : Int) - 12800) = true) : Completes (.stepQuiesce t l) s fun u =>
      u.lanes[l].step = some { st with quiet := true } := by
  have hstep' : (s.upTo t).lanes[l].step = some st := (congrArg Lane.step (upTo_lane t l)).trans hstep
  have hend : execStepQuiesce t l s = done s ((s.upTo t).setLane l fun x => { x with step := some { st with quiet := true } }) := by
    simp only [execStepQuiesce, hstep']
    exact congrArg (done s) (if_pos ⟨hacked, hpast⟩)
  refine ⟨_, hend.trans (done_eq s _), ?_⟩
  show _ = _
  rw [ended_lanes, setLane_lane]

/-! ### The step (R75, step 3) -/

/-- A lane that moves to its new rate looks for frame lock at that rate. -/
theorem toStep_shows (u : State) (rate : Nat) : (u.toStep l rate).phase l = phStep ∧
    (u.toStep l rate).f (lanePage l) Reg.LANE_LANE_STATUS_RATE = rate % 4 ∧
    (u.toStep l rate).fb (lanePage l) Reg.LANE_LANE_STATUS_FRAME_LOCK = false := by
  unfold State.toStep
  extract_lets p v
  refine ⟨?_, ?_, ?_⟩
  · simp -implicitDefEqProofs (disch := decide) only [State.phase, State.toPhase, setLane_f, f_setF_same]
    rfl
  · simp -implicitDefEqProofs (disch := decide) only [State.toPhase, setLane_f, f_setF_apart, f_setB_apart, p, f_setF_same]
    rfl
  · simp -implicitDefEqProofs (disch := decide) only [State.toPhase, setLane_fb, fb_setF_apart, fb_setB_apart, p, fb_setB_same]

/-- What a launched step leaves before what rests on the lane is judged. -/
def stepLaunched (s : State) (l : Fin 20) (st : RateStep) : State :=
  ((s.sendFrame l 1 0 (s.capPayload l 8 st.rate st.tick) (s.freeFrom l st.tick)).toStep l st.rate).setLane l fun x =>
    { x with step := some { st with launched := true } }

theorem stepLaunch_shows {st : RateStep} (hstep : s.lanes[l].step = some st) (hacked : st.acked = true) (hfirst : st.launched = false)
    (hpast : (s.upTo t).past st.tick = true) (hup : s.laneUp l = true) : Completes (.stepLaunch t l) s fun u =>
      u.phase l = phStep ∧ u.f (lanePage l) Reg.LANE_LANE_STATUS_RATE = st.rate % 4 ∧ u.fb (lanePage l) Reg.LANE_LANE_STATUS_FRAME_LOCK = false ∧
        u.lanes[l].step = some { st with launched := true } := by
  have hstep' : (s.upTo t).lanes[l].step = some st := (congrArg Lane.step (upTo_lane t l)).trans hstep
  have hend : execStepLaunch t l s = done s (((stepLaunched (s.upTo t) l st).laneJudge l).stepHold l) := by
    have hguard : st.acked = true ∧ ¬ st.launched = true ∧ (s.upTo t).past st.tick = true ∧ (s.upTo t).laneUp l = true :=
      ⟨hacked, Bool.eq_false_iff.mp hfirst, hpast, (upTo_laneUp s t l).trans hup⟩
    simp only [execStepLaunch, hstep']
    exact congrArg (done s) (if_pos hguard)
  have hjudged := (KeepsLanes.laneJudge (stepLaunched (s.upTo t) l st) l).trans (.stepHold _ l)
  obtain ⟨hphase, hrate, hlock⟩ := toStep_shows l ((s.upTo t).sendFrame l 1 0 ((s.upTo t).capPayload l 8 st.rate st.tick)
    ((s.upTo t).freeFrom l st.tick)) st.rate
  refine ⟨_, hend.trans (done_eq s _), ?_, ?_, ?_, ?_⟩
  · rw [State.phase, ended_f, hjudged.f l (by decide), stepLaunched, setLane_f]
    exact hphase
  · rw [ended_f, hjudged.f l (by decide), stepLaunched, setLane_f, hrate]
  · rw [ended_fb, hjudged.fb l (by decide), stepLaunched, setLane_fb, hlock]
  · rw [ended_lanes, hjudged.lanes, stepLaunched, setLane_lane]

/-! ### The relock limit (R75) -/

theorem stepRelockTimeout_shows {st : RateStep} (hstep : s.lanes[l].step = some st) (hon : s.pageOn (lanePage l) = true) (hphase : s.phase l = phStep)
    (hpast : (s.upTo t).past (st.tick + 102400) = true) : Completes (.stepRelockTimeout t l) s fun u =>
      u.phase l = (if s.fb (lanePage l) Reg.LANE_LANE_STATUS_ACTIVITY then phAcquire else phIdle) ∧
        u.f (lanePage l) Reg.LANE_LANE_STATUS_RATE = 0 ∧ u.lanes[l].step = none := by
  have hstep' : (s.upTo t).lanes[l].step = some st := (congrArg Lane.step (upTo_lane t l)).trans hstep
  have hend : execStepRelockTimeout t l s = done s ((s.upTo t).laneRepeat l (s.fb (lanePage l) Reg.LANE_LANE_STATUS_ACTIVITY)) := by
    have hguard : (s.upTo t).phase l = phStep ∧ (s.upTo t).pageOn (lanePage l) = true ∧
        (((s.upTo t).lanes[l].step.any fun st => (s.upTo t).past (st.tick + 102400)) ||
          ((s.upTo t).lanes[l].step.isNone && (s.upTo t).lanes[l].pstep.any fun st => (s.upTo t).past (st.tick + 102400))) = true := by
      rw [hstep', upTo_phase, upTo_pageOn, Option.any_some, hpast]
      exact ⟨hphase, hon, rfl⟩
    rw [← upTo_fb s t]
    exact congrArg (done s) (if_pos hguard)
  obtain ⟨hrepeat, hrate, hnone, -⟩ := laneRepeat_shows (s.upTo t) l (s.fb (lanePage l) Reg.LANE_LANE_STATUS_ACTIVITY)
  exact ⟨_, hend.trans (done_eq s _), (ended_f _ _ _ _).trans hrepeat, (ended_f _ _ _ _).trans hrate, by rw [ended_lanes, hnone]⟩

end

/-- Settles O15: the request, the wait, the step and the relock limit, each as the lemmas above show it. -/
theorem rateSteps : Obligations.RateSteps := by
  unfold Obligations.RateSteps
  refine ⟨?_, ?_, ?_, ?_, ?_⟩
  · intro t l rate s hup hnear hown hpartner hmax hlate hbusy hloop haxes
    exact ⟨_, stepCtrlGo_next t l rfl hup hnear hown hpartner hmax hlate hbusy hloop haxes, (ended_fb _ _ _ _).trans (stepAccepted_shows l _ _ _).1,
      (ended_f _ _ _ _).trans (stepAccepted_shows l _ _ _).2.1, (stepAccepted_shows l _ _ _).2.2⟩
  · exact fun t l st s hstep hacked hpast => stepAckDeadline_shows t l hstep hacked hpast
  · exact fun t l st s hstep hacked hpast => stepQuiesce_shows t l hstep hacked hpast
  · exact fun t l st s hstep hacked hfirst hpast hup => stepLaunch_shows t l hstep hacked hfirst hpast hup
  · exact fun t l st s hstep hon hphase hpast _ => stepRelockTimeout_shows t l hstep hon hphase hpast

end Sys2Proof.Proofs
end

section
/-! PROOFS. Bring-up of a lane from IDLE to UP (R64, R70 to R72): what a lane and its registers show after each stage. -/

namespace Sys2Proof.Proofs

open Sys2Proof.Machine Sys2Proof.Laws

section
variable {s : State} (t : Nat)

theorem upTo_laneRuns (l : Fin 20) : (s.upTo t).laneRuns l = s.laneRuns l := by simp only [State.laneRuns, upTo_st]

theorem phase_setB_apart (u : State) (l : Fin 20) {fl : Fld} (v : Bool) (hf : Fits fl) (h : Apart fl Reg.LANE_LANE_STATUS_PHASE) :
    (u.setB (lanePage l) fl v).phase l = u.phase l := by
  rw [State.phase, f_setB_apart u v hf (by decide) h, State.phase]

theorem phase_setLane (u : State) (l : Fin 20) (g : Lane → Lane) : (u.setLane l g).phase l = u.phase l := rfl

theorem ended_phase (u : State) (l : Fin 20) : (ended s u).phase l = u.phase l := ended_f s u _ _

theorem KeepsLanes.phase {s u : State} (h : KeepsLanes s u) (l : Fin 20) : u.phase l = s.phase l := h.f l (by decide)

theorem toPhase_phase (u : State) (l : Fin 20) {ph : Nat} (h : ph < 8) : (u.toPhase l ph).phase l = ph := by
  rw [State.toPhase, phase_setLane, State.phase, f_setF_same _ _ _ _ (by decide)]
  exact Nat.mod_eq_of_lt h

theorem toPhase_fb (u : State) (l : Fin 20) (ph : Nat) {g : Fld} (hg : Fits g) (h : Apart Reg.LANE_LANE_STATUS_PHASE g) :
    (u.toPhase l ph).fb (lanePage l) g = u.fb (lanePage l) g := by
  rw [State.toPhase, setLane_fb, fb_setF_apart u ph (by decide) hg h]

/-- The registers of lane `l` that show its bring-up: LANE_STATUS, and FRAME_STATUS of a host or peer lane. -/
def statusRegs (l : Fin 20) : List Nat := [regAddr (lanePage l) Reg.LANE_LANE_STATUS_PHASE.off, regAddr (lanePage l) Reg.FRAME_FRAME_STATUS_POSTED_DONE.off]

theorem lane_st (l : Fin 20) {u v : State} (h : Leaves (· ∉ statusRegs l) u v) : v.st (lanePage l) = u.st (lanePage l) := by
  have hheader : ∀ l : Fin 20, regAddr (lanePage l) Reg.STATE_STATE.off ∉ statusRegs l ∧ regAddr Pg.PWR 0x044 ∉ statusRegs l := by decide
  exact h.st (hheader l).1 (hheader l).2

/-! ### Activity and the recovery loop (R71) -/

theorem laneActivity_off_shows (q : Squelch) (hon : s.pageOn (lanePage q.lane.val) = true) (hoff : q.on = false) : Completes (.laneActivity t q) s fun u =>
    u.fb (lanePage q.lane.val) Reg.LANE_LANE_STATUS_ACTIVITY = false ∧ u.phase q.lane.val = s.phase q.lane.val := by
  have hend : execLaneActivity t q s = done s ((s.upTo t).setB (lanePage q.lane.val) Reg.LANE_LANE_STATUS_ACTIVITY q.on) := by
    have hpage : (s.upTo t).pageOn (lanePage q.lane.val) = true := (upTo_pageOn s t _).trans hon
    exact congrArg (done s) ((if_pos hpage).trans (if_neg fun h => Bool.false_ne_true (hoff.symm.trans h.1)))
  refine ⟨_, hend.trans (done_eq s _), ?_, ?_⟩
  · rw [ended_fb, fb_setB_same _ (by decide), hoff]
  · rw [ended_phase, phase_setB_apart _ _ _ (by decide) (by decide), upTo_phase]

theorem laneActivity_on_shows (q : Squelch) (hact : q.on = true) (hruns : s.laneRuns q.lane = true) (hon : s.pageOn (lanePage q.lane.val) = true)
    (hidle : s.phase q.lane.val = phIdle) : Completes (.laneActivity t q) s fun u =>
      u.phase q.lane.val = phAcquire ∧ u.fb (lanePage q.lane.val) Reg.LANE_LANE_STATUS_ACTIVITY = true ∧
        u.lanes[q.lane].attemptAt = (s.upTo t).now := by
  have hpage : (s.upTo t).pageOn (lanePage q.lane.val) = true := (upTo_pageOn s t _).trans hon
  have hsquelch : Leaves (· ∉ statusRegs q.lane) (s.upTo t) ((s.upTo t).setB (lanePage q.lane.val) Reg.LANE_LANE_STATUS_ACTIVITY q.on) :=
    setF_leaves (s.upTo t) (fl := Reg.LANE_LANE_STATUS_ACTIVITY) (.head _) (b2n q.on)
  have hguard : q.on = true ∧ ((s.upTo t).setB (lanePage q.lane.val) Reg.LANE_LANE_STATUS_ACTIVITY q.on).laneRuns q.lane = true ∧
      ((s.upTo t).setB (lanePage q.lane.val) Reg.LANE_LANE_STATUS_ACTIVITY q.on).phase q.lane.val = phIdle := by
    refine ⟨hact, ?_, ?_⟩
    · rw [State.laneRuns, lane_st q.lane hsquelch, upTo_st]
      exact hruns
    · rw [phase_setB_apart _ _ _ (by decide) (by decide), upTo_phase, hidle]
  refine ⟨_, (congrArg (done s) ((if_pos hpage).trans (if_pos hguard))).trans (done_eq s _), ?_, ?_, ?_⟩
  · rw [ended_phase, phase_setLane, toPhase_phase _ _ (by decide)]
  · rw [ended_fb, setLane_fb, toPhase_fb _ _ _ (by decide) (by decide), fb_setB_same _ (by decide), hact]
  · rw [ended_lanes, setLane_lane]
    rfl

/-- A lane in ACQUIRE whose recovery loop locks. -/
def laneAligned (s : State) (l : Fin 20) : State :=
  let s2 := s.setB (lanePage l) Reg.LANE_LANE_STATUS_CDR_LOCK true
  (s2.toPhase l phAlign).setLane l fun x => { x with patternAt := if s2.laneSource l then x.patternAt else some s2.now }

theorem cdrLock_shows (l : Fin 20) (hruns : s.laneRuns l = true) (hacquire : s.phase l = phAcquire) : Completes (.cdrLock t l) s fun u =>
    u.phase l = phAlign ∧ u.fb (lanePage l) Reg.LANE_LANE_STATUS_CDR_LOCK = true := by
  have hguard : (s.upTo t).laneRuns l = true ∧ (s.upTo t).phase l ≠ phIdle ∧
      ((s.upTo t).phase l = phAcquire ∨ ¬ (s.upTo t).fb (lanePage l) Reg.LANE_LANE_STATUS_CDR_LOCK = true) := by
    rw [upTo_laneRuns, upTo_phase, hacquire]
    exact ⟨hruns, by decide, .inl rfl⟩
  have hphase : ((s.upTo t).setB (lanePage l) Reg.LANE_LANE_STATUS_CDR_LOCK true).phase l = phAcquire :=
    (phase_setB_apart _ _ _ (by decide) (by decide)).trans ((upTo_phase s t _).trans hacquire)
  have hend : ∃ u, execCdrLock t l s = done s u ∧ KeepsLanes (laneAligned (s.upTo t) l) u := by
    refine ⟨_, congrArg (done s) (if_pos hguard), ?_⟩
    extract_lets s2 s3
    rw [show s3 = laneAligned (s.upTo t) l from if_pos hphase]
    split
    · exact (KeepsLanes.ite (.refl _) ((KeepsLanes.setClkF _ _ _ (by decide)).trans (.setClk _ _))).trans (.candUpdate _ _)
    · exact .refl _
  obtain ⟨u, hu, hkeeps⟩ := hend
  refine ⟨_, hu.trans (done_eq s _), ?_, ?_⟩
  · rw [ended_phase, hkeeps.phase, laneAligned, phase_setLane, toPhase_phase _ _ (by decide)]
  · rw [ended_fb, hkeeps.fb l (by decide), laneAligned, setLane_fb, toPhase_fb _ _ _ (by decide) (by decide), fb_setB_same _ (by decide)]

theorem clockPatternEnd_shows (l : Fin 20) {a : Nat} (hruns : s.laneRuns l = true) (hphase : 1 ≤ s.phase l ∧ s.phase l ≤ 3)
    (hstart : s.lanes[l].patternAt = some a) (hlong : (s.upTo t).elapsed a 256000 = true) : Completes (.clockPatternEnd t l) s fun u =>
      u.lanes[l].patternDone = true := by
  have hstart' : (s.upTo t).lanes[l].patternAt = some a := (congrArg Lane.patternAt (upTo_lane t l)).trans hstart
  have hguard : (s.upTo t).laneRuns l = true ∧ 1 ≤ (s.upTo t).phase l ∧ (s.upTo t).phase l ≤ 3 ∧ (s.upTo t).elapsed a 256000 = true := by
    rw [upTo_laneRuns, upTo_phase]
    exact ⟨hruns, hphase.1, hphase.2, hlong⟩
  have hend : execClockPatternEnd t l s = done s ((s.upTo t).setLane l fun x => { x with patternDone := true }) := by
    simp only [execClockPatternEnd, hstart']
    exact congrArg (done s) (if_pos hguard)
  refine ⟨_, hend.trans (done_eq s _), ?_⟩
  show _ = _
  rw [ended_lanes, setLane_lane]

theorem txTimingSwitch_shows (l : Fin 4) (hlink : s.pwr.linkOn = true) (hlock : s.clk.locked = true)
    (hgap : halfLe s.lanes[l].endAt (2 * (s.upTo t).now) = true) (hown : s.loopTimed (Pg.LINK l) = false) : Completes (.txTimingSwitch t l) s fun u =>
      u.fb (Pg.LINK l) Reg.LANE_LANE_STATUS_TX_LOOP_TIMED = false := by
  have hguard : (s.upTo t).pwr.linkOn = true ∧ (s.upTo t).clk.locked = true ∧ halfLe (s.upTo t).lanes[l].endAt (2 * (s.upTo t).now) = true ∧
      ¬ (s.upTo t).loopTimed (Pg.LINK l) = true := by
    refine ⟨?_, ?_, ?_, ?_⟩
    · rw [upTo_pwr, hlink]
    · rw [upTo_clk, hlock]
    · simpa only [upTo_lanes] using hgap
    · simpa only [State.loopTimed, upTo_f, Bool.not_eq_true] using hown
  refine ⟨_, (congrArg (done s) (if_pos hguard)).trans (done_eq s _), ?_⟩
  show _ = _
  rw [ended_fb, fb_setB_same _ (by decide)]

/-! ### Frame lock (R70) -/

theorem frameLock_shows (l : Fin 20) (hruns : s.laneRuns l = true) (hgood : 8 ≤ s.lanes[l].good)
    (hfree : s.fb (lanePage l) Reg.LANE_LANE_STATUS_FRAME_LOCK = false) (halign : s.phase l = phAlign) : Completes (.frameLock t l) s fun u =>
      u.phase l = phCapx ∧ u.fb (lanePage l) Reg.LANE_LANE_STATUS_FRAME_LOCK = true := by
  have hguard : (s.upTo t).laneRuns l = true ∧ 8 ≤ (s.upTo t).lanes[l].good ∧ ¬ (s.upTo t).fb (lanePage l) Reg.LANE_LANE_STATUS_FRAME_LOCK = true ∧
      2 ≤ (s.upTo t).phase l ∧ (s.upTo t).phase l ≤ 5 := by
    rw [upTo_laneRuns, upTo_fb, upTo_phase, upTo_lane, halign]
    exact ⟨hruns, hgood, Bool.eq_false_iff.mp hfree, by decide, by decide⟩
  have hlocked := KeepsLanes.ev! ((s.upTo t).setB (lanePage l) Reg.LANE_LANE_STATUS_FRAME_LOCK true) (lanePage l) Ev.LANE_LOCK
  have hphase : (((s.upTo t).setB (lanePage l) Reg.LANE_LANE_STATUS_FRAME_LOCK true).ev! (lanePage l) Ev.LANE_LOCK).phase l = phAlign :=
    (hlocked.phase l).trans ((phase_setB_apart _ _ _ (by decide) (by decide)).trans ((upTo_phase s t _).trans halign))
  have hend : execFrameLock t l s = done s (((((s.upTo t).setB (lanePage l) Reg.LANE_LANE_STATUS_FRAME_LOCK true).ev! (lanePage l)
      Ev.LANE_LOCK).toPhase l phCapx).laneJudge l) := by
    refine congrArg (done s) ((if_pos hguard).trans ((if_neg fun h => ?_).trans (congrArg (State.laneJudge · l) (if_pos hphase))))
    exact absurd (hphase.symm.trans h.1) (by decide)
  have hjudged := KeepsLanes.laneJudge ((((s.upTo t).setB (lanePage l) Reg.LANE_LANE_STATUS_FRAME_LOCK true).ev! (lanePage l)
      Ev.LANE_LOCK).toPhase l phCapx) l
  refine ⟨_, hend.trans (done_eq s _), ?_, ?_⟩
  · rw [ended_phase, hjudged.phase, toPhase_phase _ _ (by decide)]
  · rw [ended_fb, hjudged.fb l (by decide), toPhase_fb _ _ _ (by decide) (by decide), hlocked.fb l (by decide), fb_setB_same _ (by decide)]

/-! ### Frame lock is lost (R70, R72) -/

/-- A receiver that has lost frame lock, or whose recovery loop has (`cause` 2), before the lane is judged. -/
def lockGone (s : State) (l : Fin 20) (cause : Fin 3) : State :=
  let p := lanePage l
  let s2 := (s.setB p Reg.LANE_LANE_STATUS_FRAME_LOCK false).setLane l fun x => { x with good := 0, bad := 0, gapPrev := false }
  if cause.val = 2 then (s2.cdrLost l).setB p Reg.LANE_LANE_STATUS_CDR_LOCK false else s2

theorem lockGone_shows (u : State) (l : Fin 20) (cause : Fin 3) : (lockGone u l cause).lanes[l].good = 0 ∧
    (lockGone u l cause).fb (lanePage l) Reg.LANE_LANE_STATUS_FRAME_LOCK = false ∧
    (cause.val = 2 → (lockGone u l cause).fb (lanePage l) Reg.LANE_LANE_STATUS_CDR_LOCK = false) ∧
    (lockGone u l cause).phase l = u.phase l ∧
    (lockGone u l cause).f (lanePage l) Reg.LANE_LOCK_LOSSES = u.f (lanePage l) Reg.LANE_LOCK_LOSSES := by
  unfold lockGone
  extract_lets p s2
  have hgood : s2.lanes[l].good = 0 := by rw [setLane_lane]
  have hlock : s2.fb p Reg.LANE_LANE_STATUS_FRAME_LOCK = false := by rw [setLane_fb, fb_setB_same _ (by decide)]
  have hphase : s2.phase l = u.phase l := by rw [phase_setLane, phase_setB_apart _ _ _ (by decide) (by decide)]
  have hlosses : s2.f p Reg.LANE_LOCK_LOSSES = u.f p Reg.LANE_LOCK_LOSSES := by rw [setLane_f, f_setB_apart _ _ (by decide) (by decide) (by decide)]
  have hcdr := cdrLost_keeps s2 l
  have hlanes : ((s2.cdrLost l).setB p Reg.LANE_LANE_STATUS_CDR_LOCK false).lanes = s2.lanes := by rw [State.setB, setF_lanes, hcdr.lanes]
  split
  · refine ⟨?_, ?_, fun _ => fb_setB_same _ (by decide) _, ?_, ?_⟩
    · exact (congrArg (fun w : Vector Lane 20 => w[l].good) hlanes).trans hgood
    · rw [fb_setB_apart _ _ (by decide) (by decide) (by decide), hcdr.fb l (by decide), hlock]
    · rw [phase_setB_apart _ _ _ (by decide) (by decide), hcdr.phase, hphase]
    · rw [f_setB_apart _ _ (by decide) (by decide) (by decide), hcdr.f l (by decide), hlosses]
  · next hcause => exact ⟨hgood, hlock, fun h => absurd h hcause, hphase, hlosses⟩

section
variable (l : Fin 20) (cause : Fin 3) (activity : Bool) (hruns : s.laneRuns l = true)
  (hlocked : s.fb (lanePage l) Reg.LANE_LANE_STATUS_FRAME_LOCK = true ∨
    cause.val = 2 ∧ s.fb (lanePage l) Reg.LANE_LANE_STATUS_CDR_LOCK = true) (hlost : (s.upTo t).lockLost l cause = true)
include hruns hlocked hlost

theorem lockLoss_guard : (s.upTo t).laneRuns l = true ∧ ((s.upTo t).fb (lanePage l) Reg.LANE_LANE_STATUS_FRAME_LOCK = true ∨
    cause.val = 2 ∧ (s.upTo t).fb (lanePage l) Reg.LANE_LANE_STATUS_CDR_LOCK = true) ∧ (s.upTo t).lockLost l cause = true := by
  rw [upTo_laneRuns, upTo_fb, upTo_fb]
  exact ⟨hruns, hlocked, hlost⟩

/-- Outside UP the lane stays in its phase. -/
theorem lockLoss_stays (hphase : s.phase l ≠ phUp) : Completes (.frameLockLoss t l cause activity) s fun u =>
    u.fb (lanePage l) Reg.LANE_LANE_STATUS_FRAME_LOCK = false ∧ u.fb (lanePage l) Reg.LANE_LANE_STATUS_ACTIVITY = activity ∧
      u.lanes[l].good = 0 ∧ (cause.val = 2 → u.fb (lanePage l) Reg.LANE_LANE_STATUS_CDR_LOCK = false) := by
  obtain ⟨hgood, hlock, hcdr, hsame, -⟩ := lockGone_shows (s.upTo t) l cause
  have hnot : (lockGone (s.upTo t) l cause).phase l ≠ phUp := by rwa [hsame, upTo_phase]
  have hend : execFrameLockLoss t l cause activity s =
      done s (((lockGone (s.upTo t) l cause).setB (lanePage l) Reg.LANE_LANE_STATUS_ACTIVITY activity).laneJudge l) :=
    congrArg (done s) ((if_pos (lockLoss_guard t l cause hruns hlocked hlost)).trans (if_neg hnot))
  have hjudged := KeepsLanes.laneJudge ((lockGone (s.upTo t) l cause).setB (lanePage l) Reg.LANE_LANE_STATUS_ACTIVITY activity) l
  refine ⟨_, hend.trans (done_eq s _), ?_, ?_, ?_, fun hcause => ?_⟩
  · rw [ended_fb, hjudged.fb l (by decide), fb_setB_apart _ _ (by decide) (by decide) (by decide), hlock]
  · rw [ended_fb, hjudged.fb l (by decide), fb_setB_same _ (by decide)]
  · rw [ended_lanes, hjudged.lanes, State.setB, setF_lanes, hgood]
  · rw [ended_fb, hjudged.fb l (by decide), fb_setB_apart _ _ (by decide) (by decide) (by decide), hcdr hcause]

/-- In UP the loss is counted, and bring-up repeats. -/
theorem lockLoss_repeats (hup : s.phase l = phUp) : Completes (.frameLockLoss t l cause activity) s fun u =>
    u.phase l = (if activity then phAcquire else phIdle) ∧ u.f (lanePage l) Reg.LANE_LANE_STATUS_RATE = 0 ∧
      u.f (lanePage l) Reg.LANE_LOCK_LOSSES = satU (s.f (lanePage l) Reg.LANE_LOCK_LOSSES + 1) 16 := by
  obtain ⟨-, -, -, hsame, hlosses⟩ := lockGone_shows (s.upTo t) l cause
  generalize hg : lockGone (s.upTo t) l cause = g at hsame hlosses
  have hup' : g.phase l = phUp := by rw [hsame, upTo_phase, hup]
  have hnoted := (KeepsLanes.sticky! g (lanePage l) Sticky.LANE_LOCK_LOST).trans (.ev! _ (lanePage l) Ev.LANE_UNLOCK)
  have hadded := KeepsLanes.accAdd (((g.sticky! (lanePage l) Sticky.LANE_LOCK_LOST).ev! (lanePage l) Ev.LANE_UNLOCK).inc (lanePage l)
    Reg.LANE_LOCK_LOSSES) (0xC82 + 4 * l) 2 1
  generalize hv : (((g.sticky! (lanePage l) Sticky.LANE_LOCK_LOST).ev! (lanePage l) Ev.LANE_UNLOCK).inc (lanePage l)
    Reg.LANE_LOCK_LOSSES).accAdd (0xC82 + 4 * l) 2 1 = v at hadded
  have hend : execFrameLockLoss t l cause activity s = done s (v.laneRepeat l activity) := by
    subst hv hg
    exact congrArg (done s) ((if_pos (lockLoss_guard t l cause hruns hlocked hlost)).trans (if_pos hup'))
  obtain ⟨hphase, hrate, -, -⟩ := laneRepeat_shows v l activity
  refine ⟨_, hend.trans (done_eq s _), (ended_phase _ l).trans hphase, (ended_f _ _ _ _).trans hrate, ?_⟩
  rw [ended_f, laneRepeat_f v l activity (by decide) (by decide), hadded.f l (by decide), inc_eq, f_setF_satU _ _ (by decide),
    hnoted.f l (by decide), hlosses, upTo_f]
  rfl

end

/-! ### The limit of a phase (R71, R72) -/

theorem bringupPhaseTimeout_shows (l : Fin 20) (hruns : s.laneRuns l = true) (hphase : 1 ≤ s.phase l ∧ s.phase l ≤ 3)
    (hlong : (s.upTo t).elapsed s.lanes[l].phaseAt (phaseLimit (s.phase l)) = true)
    (hmore : s.f (lanePage l) Reg.LANE_LANE_CTRL_BRINGUP_RETRIES = 0 ∨
      s.lanes[l].retries + 1 < s.f (lanePage l) Reg.LANE_LANE_CTRL_BRINGUP_RETRIES) : Completes (.bringupPhaseTimeout t l) s fun u =>
      u.lanes[l].retries = s.lanes[l].retries + 1 ∧ u.phase l = (if s.fb (lanePage l) Reg.LANE_LANE_STATUS_ACTIVITY then phAcquire else phIdle) ∧
        u.f (lanePage l) Reg.LANE_LANE_STATUS_RATE = 0 ∧
        u.f (lanePage l) Reg.LANE_BRINGUP_FAILS = satU (s.f (lanePage l) Reg.LANE_BRINGUP_FAILS + 1) Reg.LANE_BRINGUP_FAILS.width := by
  have hguard : (s.upTo t).laneRuns l = true ∧ 1 ≤ (s.upTo t).phase l ∧ (s.upTo t).phase l ≤ 3 ∧
      ((s.upTo t).elapsed (s.upTo t).lanes[l].phaseAt (phaseLimit ((s.upTo t).phase l)) = true ∨
        (s.upTo t).elapsed (s.upTo t).lanes[l].attemptAt 6400000 = true) := by
    rw [upTo_laneRuns, upTo_phase, upTo_lane]
    exact ⟨hruns, hphase.1, hphase.2, .inl hlong⟩
  have hlimit : ¬ ((s.upTo t).f (lanePage l) Reg.LANE_LANE_CTRL_BRINGUP_RETRIES ≠ 0 ∧
      (s.upTo t).f (lanePage l) Reg.LANE_LANE_CTRL_BRINGUP_RETRIES ≤ (s.upTo t).lanes[l].retries + 1) := by
    rw [upTo_f, upTo_lane]
    omega
  have hend : execBringupPhaseTimeout t l s = done s ((((s.upTo t).inc (lanePage l) Reg.LANE_BRINGUP_FAILS).laneRepeat l
      ((s.upTo t).fb (lanePage l) Reg.LANE_LANE_STATUS_ACTIVITY)).setLane l fun y => { y with retries := (s.upTo t).lanes[l].retries + 1 }) :=
    congrArg (done s) ((if_pos hguard).trans (if_neg hlimit))
  rw [upTo_fb, upTo_lane] at hend
  obtain ⟨hrepeat, hrate, -, -⟩ := laneRepeat_shows ((s.upTo t).inc (lanePage l) Reg.LANE_BRINGUP_FAILS) l
    (s.fb (lanePage l) Reg.LANE_LANE_STATUS_ACTIVITY)
  refine ⟨_, hend.trans (done_eq s _), ?_, ?_, ?_, ?_⟩
  · rw [ended_lanes, setLane_lane]
  · rw [ended_phase, phase_setLane, hrepeat]
  · rw [ended_f, setLane_f, hrate]
  · rw [ended_f, setLane_f, laneRepeat_f _ l _ (by decide) (by decide), inc_eq, f_setF_satU _ _ (by decide), upTo_f]

/-! ### The capability exchange ends (R71) -/

/-- A lane that reaches ON does nothing but that. -/
theorem onOn_lane (u : State) (l : Fin 20) : u.onOn (lanePage l) = u := by
  have hblock : ∀ l : Fin 20, pageBlk (lanePage l) = some .link ∨ pageBlk (lanePage l) = some .head := by decide
  unfold State.onOn
  rcases hblock l with h | h
  · rw [h]
  · rw [h]

/-- What rests on a lane is judged without a change to the lane's header, or to the domains. -/
theorem laneJudge_st (u : State) (l : Fin 20) : (u.laneJudge l).st (lanePage l) = u.st (lanePage l) := by
  have hlink : ∀ l : Fin 20, l.val < 4 → pageBlk (lanePage l) = some .link := by decide
  have hhead : headWords (lanePage l) (u.laneJudge l).regs = headWords (lanePage l) u.regs := by
    unfold State.laneJudge
    split
    · next h => exact candUpdate_head (hlink l h) _
    · exact headHealth_head _
  rw [State.st, State.st, pageOn_of_domains (domains_of_head hhead) (KeepsLanes.laneJudge u l).domains, st_of_head hhead]

/-- A lane that is UP, before its page goes ON. -/
def laneRaised (s : State) (l : Fin 20) : State :=
  let s1 := (s.toPhase l phUp).setLane l fun x => { x with retries := 0, rxAny := false }
  if l.val < 4 then (s1.setF (lanePage l) Reg.FRAME_FRAME_STATUS_POSTED_DONE 0).setF (lanePage l) Reg.FRAME_FRAME_STATUS_OUTSTANDING 0 else s1

theorem laneRaised_leaves (u : State) (l : Fin 20) : Leaves (· ∉ statusRegs l) u (laneRaised u l) := by
  unfold laneRaised
  extract_lets s1
  have hup : Leaves (· ∉ statusRegs l) u s1 := ((setF_leaves u (.head _) phUp).trans (.setLane _ l _)).trans (.setLane _ l _)
  exact .ite ((hup.trans (setF_leaves _ (.tail _ (.head _)) 0)).trans (setF_leaves _ (fl := Reg.FRAME_FRAME_STATUS_OUTSTANDING) (.tail _ (.head _)) 0)) hup

theorem laneRaised_shows (u : State) (l : Fin 20) : (laneRaised u l).phase l = phUp ∧
    (laneRaised u l).st (lanePage l) = u.st (lanePage l) ∧ (laneRaised u l).lanes[l].retries = 0 ∧
    (laneRaised u l).f (lanePage l) Reg.LANE_LANE_STATUS_PARTNER_RATES = u.f (lanePage l) Reg.LANE_LANE_STATUS_PARTNER_RATES := by
  have hshown {fl : Fld} (ho : fl.off = 0x040) : (laneRaised u l).f (lanePage l) fl = (u.toPhase l phUp).f (lanePage l) fl := by
    unfold laneRaised
    extract_lets s1
    split
    · rw [f_setF_off _ _ _ _ (by decide) (by omega) (by rw [ho]; decide), f_setF_off _ _ _ _ (by decide) (by omega) (by rw [ho]; decide), setLane_f]
    · rw [setLane_f]
  have hlane : (laneRaised u l).lanes = ((u.toPhase l phUp).setLane l fun x => { x with retries := 0, rxAny := false }).lanes := by
    unfold laneRaised
    extract_lets s1
    split
    · rw [setF_lanes, setF_lanes]
    · rfl
  refine ⟨(hshown rfl).trans (toPhase_phase u l (by decide)), lane_st l (laneRaised_leaves u l), ?_, (hshown rfl).trans ?_⟩
  · rw [hlane, setLane_lane]
  · rw [State.toPhase, setLane_f, f_setF_apart _ _ _ _ _ (by decide) (by decide) (by decide)]

/-- A lane that completes the exchange in STARTING or ON is UP, and its page ON. -/
theorem laneToUp_shows (u : State) (l : Fin 20) (hruns : u.laneRuns l = true) : (u.laneToUp l).phase l = phUp ∧
    (u.laneToUp l).st (lanePage l) = stOn ∧ (u.laneToUp l).lanes[l].retries = 0 ∧
    (u.laneToUp l).f (lanePage l) Reg.LANE_LANE_STATUS_PARTNER_RATES = u.f (lanePage l) Reg.LANE_LANE_STATUS_PARTNER_RATES := by
  obtain ⟨hphase, hst, hretries, hrates⟩ := laneRaised_shows u l
  have heq : u.laneToUp l = (if (laneRaised u l).st (lanePage l) = stStarting then (laneRaised u l).endSequence (lanePage l)
      else laneRaised u l).laneJudge l := rfl
  have hended : KeepsLanes (laneRaised u l) (if (laneRaised u l).st (lanePage l) = stStarting then (laneRaised u l).endSequence (lanePage l)
      else laneRaised u l) ∧ (if (laneRaised u l).st (lanePage l) = stStarting then (laneRaised u l).endSequence (lanePage l)
      else laneRaised u l).st (lanePage l) = stOn := by
    split
    · next hstarting =>
      rw [State.endSequence, if_pos hstarting]
      refine ⟨?_, ?_⟩
      · rw [State.toOn, onOn_lane]
        exact .enter _ _ _ _
      · rw [st_eq (pageOn_toOn.trans (pageOn_of_st (by decide) hstarting)), st_toOn]
    · next hnot =>
      refine ⟨.refl _, ?_⟩
      rw [hst] at hnot ⊢
      simpa [State.laneRuns, hnot] using hruns
  generalize (if (laneRaised u l).st (lanePage l) = stStarting then (laneRaised u l).endSequence (lanePage l) else laneRaised u l) = v at heq hended
  have hall := hended.1.trans (.laneJudge v l)
  rw [heq]
  refine ⟨(hall.phase l).trans hphase, (laneJudge_st v l).trans hended.2, ?_, (hall.f l (by decide)).trans hrates⟩
  rw [hall.lanes, hretries]

/-- A lane that takes a CAP with first word `w0`. -/
def capTaken (s : State) (l : Fin 20) (w0 : Nat) : State :=
  (s.setF (lanePage l) Reg.LANE_LANE_STATUS_PARTNER_RATES (bits w0 16 4)).setLane l fun y =>
    { y with capSeen := true, capAcked := y.capAcked || (w0.testBit 0 && y.capAt.isSome) }

theorem capReceive_shows (l : Fin 20) (w0 w1 w2 w3 : Nat) (hruns : s.laneRuns l = true) (hvalid : capValid w0 = true) (hcapx : s.phase l = phCapx)
    (hseen : w0.testBit 0 = true) (hsent : s.lanes[l].capAt.isSome = true) : Completes (.capReceive t l w0 w1 w2 w3) s fun u =>
      u.phase l = phUp ∧ u.st (lanePage l) = stOn ∧ u.f (lanePage l) Reg.LANE_LANE_STATUS_PARTNER_RATES = bits w0 16 4 ∧ u.lanes[l].retries = 0 := by
  have hguard : (s.upTo t).laneRuns l = true ∧ capValid w0 = true ∧ ((s.upTo t).phase l = phCapx ∨ (s.upTo t).phase l = phUp) := by
    rw [upTo_laneRuns, upTo_phase]
    exact ⟨hruns, hvalid, .inl hcapx⟩
  have hphase : (capTaken (s.upTo t) l w0).phase l = phCapx := by
    rw [capTaken, phase_setLane, State.phase, f_setF_apart _ _ _ _ _ (by decide) (by decide) (by decide), upTo_f]
    exact hcapx
  have hacked : (capTaken (s.upTo t) l w0).lanes[l].capAcked = true := by
    rw [capTaken, setLane_lane, setF_lanes, upTo_lane, hseen, hsent]
    exact Bool.or_true _
  have htaken : Leaves (· ∉ statusRegs l) (s.upTo t) (capTaken (s.upTo t) l w0) :=
    (setF_leaves (s.upTo t) (fl := Reg.LANE_LANE_STATUS_PARTNER_RATES) (.head _) _).trans (.setLane _ l _)
  have hstill : (capTaken (s.upTo t) l w0).laneRuns l = true := by
    rw [State.laneRuns, lane_st l htaken, upTo_st]
    exact hruns
  have hrates : (capTaken (s.upTo t) l w0).f (lanePage l) Reg.LANE_LANE_STATUS_PARTNER_RATES = bits w0 16 4 := by
    rw [capTaken, setLane_f, f_setF_same _ _ _ _ (by decide)]
    exact Nat.mod_mod _ _
  have hend : execCapReceive t l w0 w1 w2 w3 s = done s ((capTaken (s.upTo t) l w0).laneToUp l) :=
    congrArg (done s) ((if_pos hguard).trans ((if_pos hphase).trans (if_pos hacked)))
  obtain ⟨hup, hon, hretries, hkept⟩ := laneToUp_shows (capTaken (s.upTo t) l w0) l hstill
  exact ⟨_, hend.trans (done_eq s _), (ended_phase _ l).trans hup, (ended_st _ _ _).trans hon, (ended_f _ _ _ _).trans (hkept.trans hrates),
    by rw [ended_lanes, hretries]⟩

end

/-- Settles O13: each stage of bring-up as the lemmas above show it; the reference candidate and the head's health that rest on the lane are judged
without a change to it. -/
theorem laneBringUp : Obligations.LaneBringUp := by
  unfold Obligations.LaneBringUp
  refine ⟨?_, ?_, ?_, ?_, ?_, ?_, ?_, ?_, ?_, ?_, ?_⟩
  · exact fun t q s hon hoff => laneActivity_off_shows t q hon hoff
  · exact fun t q s hact hruns hon hidle => laneActivity_on_shows t q hact hruns hon hidle
  · exact fun t l s hruns hacquire _ => cdrLock_shows t l hruns hacquire
  · exact fun t l a s hruns hphase hstart hlong => clockPatternEnd_shows t l hruns hphase hstart hlong
  · exact fun t l s hruns hgood hfree halign _ _ => frameLock_shows t l hruns hgood hfree halign
  · exact fun t l w0 w1 w2 w3 s hruns hvalid hcapx hseen hsent _ _ => capReceive_shows t l w0 w1 w2 w3 hruns hvalid hcapx hseen hsent
  · exact fun t l s hruns hphase hlong hmore _ _ _ => bringupPhaseTimeout_shows t l hruns hphase hlong hmore
  · intro t l cause activity s hruns hlocked hlost hphase
    obtain ⟨u, hexec, hlock, hact, hgood, -⟩ := lockLoss_stays t l cause activity hruns (.inl hlocked) hlost hphase
    exact ⟨u, hexec, hlock, hact, hgood⟩
  · intro t l cause activity s hruns hcdr hcause hlost hphase
    obtain ⟨u, hexec, hlock, hact, -, hgone⟩ := lockLoss_stays t l cause activity hruns (.inr ⟨hcause, hcdr⟩) hlost hphase
    exact ⟨u, hexec, hgone hcause, hlock, hact⟩
  · exact fun t l s hlink hlock hgap hown => txTimingSwitch_shows t l hlink hlock hgap hown
  · exact fun t l cause activity s hruns hlocked hlost hup _ => lockLoss_repeats t l cause activity hruns (.inl hlocked) hlost hup

end Sys2Proof.Proofs
end
section
/-! PROOFS. A step runs the command at the front of the queue. -/

namespace Sys2Proof.Proofs

open Sys2Proof.Machine

/-- Settles O1: the step of a state whose queue is not empty is defined by its front command. -/
theorem stepRunsTheFrontCommand : Obligations.StepRunsTheFrontCommand := by
  unfold Obligations.StepRunsTheFrontCommand
  exact fun c s => rfl

end Sys2Proof.Proofs
end
section
/-! PROOFS. FramesOfEmission fails at a test of the knife. A CLEAR that acted in the present CLK_FAST cycle takes no effect for a brush that then trips
(R304), so the count of CLEARs goes back by one, and KNIFE_CLEARS is not among the registers that the statement lists for KNIFE_TEST. -/

namespace Sys2Proof.Proofs

open Sys2Proof.Machine

/-- Brush 0 has cause TEST latched, and a CLEAR removes it at tick 704. -/
def clearedAt704 : State :=
  ({ State.reset with time := { running := true, now := 704 }, pwr := { sysOn := true } }.setF Pg.KNIFE (Reg.KNIFE_CAUSE_LATCHED.num 0)
    (2 ^ causeTest)).clearBrush 0

/-- KNIFE_CLEARS in a next state. -/
def clearsAfter : Host.Outcome State Fault Refusal → Option Word
  | .next u => some (u.word (regAddr Pg.KNIFE Reg.KNIFE_CLEARS.off))
  | .fault _ => none
  | .refused _ => none

theorem clearedAt704_tidy : clearedAt704.Tidy := by
  decide +kernel

theorem clearedAt704_clears : clearedAt704.word (regAddr Pg.KNIFE Reg.KNIFE_CLEARS.off) = 1#32 := by
  decide +kernel

/-- A test of brush 0 at the same tick undoes the CLEAR. -/
theorem knifeTest_clearedAt704 : clearsAfter (exec (.knifeTest 704 1#16) clearedAt704) = some 0#32 := by
  decide +kernel

theorem clears_unlisted : regAddr Pg.KNIFE Reg.KNIFE_CLEARS.off ∉ tripRegs ++ noted Pg.KNIFE ++ errorRegs ++ pinRegs := by
  decide +kernel

/-- Refutes O60: KNIFE_TEST takes KNIFE_CLEARS of `clearedAt704` from 1 back to 0. -/
theorem not_framesOfEmission : ¬ Obligations.FramesOfEmission := by
  unfold Obligations.FramesOfEmission
  rintro ⟨-, -, htest, -⟩
  have hzero := knifeTest_clearedAt704
  cases hexec : exec (.knifeTest 704 1#16) clearedAt704 with
  | next u =>
    obtain ⟨-, hregs, -⟩ := htest 704 1#16 clearedAt704 clearedAt704_tidy u hexec
    have hone := (hregs _ clears_unlisted).trans clearedAt704_clears
    rw [hexec] at hzero
    simp [clearsAfter, hone] at hzero
  | fault f => exact nomatch hexec ▸ hzero
  | refused r => exact nomatch hexec ▸ hzero

end Sys2Proof.Proofs
end
section
/-! PROOFS. Events from crossing 9 to an EVT frame: the intake, the delivery and the frame (R91, R400, R401). -/

namespace Sys2Proof.Proofs

open Sys2Proof.Machine Sys2Proof.Laws

variable {s : State} {e : EvEntry} {t : Nat}

/-! ### The registers that follow the collector's queues (R404) -/

theorem evStat_ev (s : State) : s.evStat.ev = s.ev := by
  simp -implicitDefEqProofs only [State.evStat, setF_ev]

theorem setEv_ev (s : State) (g : EvcolSt → EvcolSt) : (s.setEv g).ev = g s.ev := rfl

theorem setEv_lanes (s : State) (g : EvcolSt → EvcolSt) : (s.setEv g).lanes = s.lanes := rfl

theorem setEv_f (s : State) (g : EvcolSt → EvcolSt) (p : Nat) (fl : Fld) : (s.setEv g).f p fl = s.f p fl := rfl

theorem evStat_lanes (s : State) : s.evStat.lanes = s.lanes := by
  simp -implicitDefEqProofs only [State.evStat, setF_lanes]

/-- STATUS and PEAK apart, every field of every page is as before. -/
theorem evStat_f (s : State) (p : Nat) {g : Fld} (hg : g.off < 0x1000) (hstatus : Reg.EVCOL_STATUS_QUEUE.off ≠ g.off)
    (hpeak : Reg.EVCOL_PEAK_QUEUE.off ≠ g.off) : s.evStat.f p g = s.f p g := by
  have hbits : Reg.EVCOL_STATUS_PENDING.off ≠ g.off ∧ Reg.EVCOL_PEAK_PENDING.off ≠ g.off := ⟨hstatus, hpeak⟩
  unfold State.evStat
  dsimp only
  rw [f_setF_off _ _ _ _ (by decide) hg hbits.2, f_setF_off _ _ _ _ (by decide) hg hpeak, f_setF_off _ _ _ _ (by decide) hg hbits.1,
    f_setF_off _ _ _ _ (by decide) hg hstatus]

theorem sysOn_of_domOn {d : Nat} (h : s.domOn d = true) : s.pwr.sysOn = true := by
  unfold State.domOn at h
  split at h
  · exact h
  · split at h <;> simp_all

theorem sysOn_of_isOn {p : Nat} (h : s.isOn p = true) : s.pwr.sysOn = true := by
  have hst : s.st p = stOn := beq_iff_eq.mp h
  by_cases hp : s.pageOn p = true
  · exact sysOn_of_domOn hp
  · rw [State.st, if_neg hp] at hst
    exact absurd hst (by decide)

/-! ### The intake (R400) -/

theorem each_lightReturn_idle (s : State) (h : ∀ n : Fin 4, s.lights[n].back = none) (l : List (Fin 4)) : s.each l State.lightReturn = s := by
  induction l with
  | nil => rfl
  | cons n r ih => rw [each_cons, lightReturn_idle s n (h n), ih]

theorem sortInsert_new {l : List EvEntry} (h : ∀ x ∈ l, x.source ≠ e.source) : sortInsert e l = l ++ [e] := by
  induction l with
  | nil => rfl
  | cons x r ih => rw [sortInsert, if_neg (h x (.head _)), ih fun y hy => h y (.tail _ hy), List.cons_append]

/-- An offer that is not late and whose source has no entry makes a new one. -/
theorem intakeOne_new (hnew : ∀ x ∈ s.ev.sort, x.source ≠ e.source) (hage : sdiff48 (s.now : Nat) (e.stamp : Nat) < 12800) :
    s.intakeOne e = s.setEv fun v => { v with sort := v.sort ++ [{ e with late := false }], scan := (e.source + 1) % 8192 } := by
  have hlate : decide (12800 ≤ sdiff48 (s.now : Nat) (e.stamp : Nat)) = false := decide_eq_false (not_le.mpr hage)
  have hmerge : (s.ev.sort.any fun x => x.source == e.source) = false :=
    List.any_eq_false.mpr fun x hx => by simpa using hnew x hx
  simp only [State.intakeOne, hlate, hmerge]
  simp only [Bool.false_eq_true, if_false, State.setEv, sortInsert_new (e := { e with late := false }) hnew]

theorem of_cycle (k n : Nat) : CycleCount.of ⟨k, n⟩ k = n := if_pos rfl

theorem intake_empty (h : s.ev.offers = []) : ∀ k, State.intake k s = s
  | 0 => rfl
  | k + 1 => by rw [State.intake, h]; rfl

/-- The one offer that waits is taken by an intake that has a place left in the cycle. -/
theorem intake_single (k : Nat) (hon : s.isOn Pg.EVCOL = true) (hoffer : s.ev.offers = [e]) :
    State.intake (k + 1) s = State.intake k ((s.setEv fun v => { v with offers := [], taken := ⟨s.now / 16, v.taken.of (s.now / 16) + 1⟩ }).intakeOne e) := by
  have hfirst : nextOffer s.ev.scan s.ev.offers = some e := by rw [hoffer]; rfl
  have hleft : (s.ev.offers.filter fun x => x.source != e.source) = [] := by rw [hoffer]; simp
  have htaken : (s.setEv fun v => { v with offers := v.offers.filter fun x => x.source != e.source, taken := ⟨s.now / 16, v.taken.of (s.now / 16) + 1⟩ }) =
      s.setEv fun v => { v with offers := [], taken := ⟨s.now / 16, v.taken.of (s.now / 16) + 1⟩ } := by
    simp only [State.setEv, hleft]
  rw [State.intake, hfirst]
  dsimp only
  rw [htaken]
  exact congrArg (State.intake k) (if_pos hon)

theorem eventIntake_shows (hon : s.isOn Pg.EVCOL = true) (hoffer : s.ev.offers = [e]) (hnew : ∀ x ∈ s.ev.sort, x.source ≠ e.source)
    (hlights : ∀ n : Fin 4, s.lights[n].back = none) (hroom : s.ev.taken.of ((s.upTo t).now / 16) < 8)
    (hage : sdiff48 ((s.upTo t).now : Nat) (e.stamp : Nat) < 12800) : Completes (.eventIntake t) s fun u =>
      u.ev.offers = [] ∧ u.ev.sort = s.ev.sort ++ [{ e with late := false }] ∧ u.ev.scan = (e.source + 1) % 8192 ∧
        u.ev.taken.of ((s.upTo t).now / 16) = s.ev.taken.of ((s.upTo t).now / 16) + 1 := by
  have hidle : (s.upTo t).each (List.finRange 4) State.lightReturn = s.upTo t := each_lightReturn_idle _ (by simpa only [upTo_lights] using hlights) _
  have hend : execEventIntake t s = done s (State.intake (8 - (s.upTo t).ev.taken.of ((s.upTo t).now / 16)) (s.upTo t)).evStat := by
    simp only [execEventIntake, hidle]
    rw [if_pos (sysOn_of_isOn ((upTo_isOn s t _).trans hon))]
  obtain ⟨k, hk⟩ := Nat.exists_eq_add_of_lt hroom
  have hfuel : 8 - (s.upTo t).ev.taken.of ((s.upTo t).now / 16) = k + 1 := by rw [upTo_ev]; omega
  have hfirst := intake_single (s := s.upTo t) k ((upTo_isOn s t _).trans hon) (by rw [upTo_ev, hoffer])
  have hentered := intakeOne_new (e := e)
    (s := (s.upTo t).setEv fun v => { v with offers := [], taken := ⟨(s.upTo t).now / 16, v.taken.of ((s.upTo t).now / 16) + 1⟩ })
    (by simpa only [State.setEv, upTo_ev] using hnew) hage
  rw [hfuel, hfirst, hentered, intake_empty rfl] at hend
  refine ⟨_, hend.trans (done_eq s _), ?_⟩
  dsimp only
  rw [ended_ev, evStat_ev, setEv_ev, setEv_ev, upTo_ev]
  exact ⟨rfl, rfl, rfl, of_cycle _ _⟩

/-! ### The delivery (R401) -/

/-- An entry leaves the sort buffer for the host queue, as the message with the next QSEQ. -/
theorem deliverOne_shows (hqueue : s.ev.queue.length < 1024) :
    (s.deliverOne e).ev = { s.ev with
      sort := s.ev.sort.filter fun x => x.source != e.source, moved := ⟨s.now / 16, s.ev.moved.of (s.now / 16) + 1⟩
      queue := s.ev.queue ++ [⟨s.f Pg.EVCOL Reg.EVCOL_QSEQ_NEXT, e.source, e.stamp, min e.count 0xFFFF, e.late⟩] } ∧
      (s.deliverOne e).f Pg.EVCOL Reg.EVCOL_QSEQ_NEXT = (s.f Pg.EVCOL Reg.EVCOL_QSEQ_NEXT + 1) % 2 ^ Reg.EVCOL_QSEQ_NEXT.width ∧
      (s.deliverOne e).f Pg.EVCOL Reg.EVCOL_MESSAGES = satU (s.f Pg.EVCOL Reg.EVCOL_MESSAGES + 1) Reg.EVCOL_MESSAGES.width := by
  have hone : s.deliverOne e = (((s.setEv fun v => { v with
      sort := v.sort.filter fun x => x.source != e.source, moved := ⟨s.now / 16, v.moved.of (s.now / 16) + 1⟩ }).setF Pg.EVCOL Reg.EVCOL_QSEQ_NEXT
      (s.f Pg.EVCOL Reg.EVCOL_QSEQ_NEXT + 1)).setEv fun v => { v with
        queue := v.queue ++ [⟨s.f Pg.EVCOL Reg.EVCOL_QSEQ_NEXT, e.source, e.stamp, min e.count 0xFFFF, e.late⟩] }).inc Pg.EVCOL Reg.EVCOL_MESSAGES :=
    if_pos hqueue
  rw [hone, inc_eq]
  refine ⟨?_, ?_, ?_⟩
  · rw [setF_ev, setEv_ev, setF_ev, setEv_ev]
  · rw [f_setF_apart _ _ _ _ _ (by decide) (by decide) (by decide), setEv_f, f_setF_same _ _ _ _ (by decide)]
  · rw [f_setF_satU _ _ (by decide), setEv_f, f_setF_apart _ _ _ _ _ (by decide) (by decide) (by decide), setEv_f]

theorem deliver_empty (h : s.ev.sort = []) : ∀ k, State.deliver k s = s
  | 0 => rfl
  | k + 1 => by rw [State.deliver, h]; rfl

/-- The one entry of the sort buffer is delivered once it is old enough. -/
theorem deliver_single (k : Nat) (hsort : s.ev.sort = [e]) (hage : 12800 ≤ sdiff48 (s.now : Nat) (e.stamp : Nat)) :
    State.deliver (k + 1) s = State.deliver k (s.deliverOne e) := by
  have hfirst : firstKey s.ev.sort = some e := by rw [hsort]; rfl
  rw [State.deliver, hfirst]
  exact if_pos hage

theorem eventDeliverable_shows (hon : s.isOn Pg.EVCOL = true) (hsort : s.ev.sort = [e]) (hage : 12800 ≤ sdiff48 ((s.upTo t).now : Nat) (e.stamp : Nat))
    (hqueue : s.ev.queue.length < 1024) (hroom : s.ev.moved.of ((s.upTo t).now / 16) < 8) : Completes (.eventDeliverable t) s fun u =>
      u.ev.sort = [] ∧ u.ev.queue = s.ev.queue ++ [⟨s.f Pg.EVCOL Reg.EVCOL_QSEQ_NEXT, e.source, e.stamp, min e.count 0xFFFF, e.late⟩] ∧
        u.f Pg.EVCOL Reg.EVCOL_QSEQ_NEXT = (s.f Pg.EVCOL Reg.EVCOL_QSEQ_NEXT + 1) % 2 ^ Reg.EVCOL_QSEQ_NEXT.width ∧
        u.f Pg.EVCOL Reg.EVCOL_MESSAGES = satU (s.f Pg.EVCOL Reg.EVCOL_MESSAGES + 1) Reg.EVCOL_MESSAGES.width ∧
        u.ev.moved.of ((s.upTo t).now / 16) = s.ev.moved.of ((s.upTo t).now / 16) + 1 := by
  obtain ⟨hev, hnext, hcount⟩ := deliverOne_shows (s := s.upTo t) (e := e) (by rwa [upTo_ev])
  have hempty : ((s.upTo t).deliverOne e).ev.sort = [] := by rw [hev, upTo_ev, hsort]; simp
  obtain ⟨k, hk⟩ := Nat.exists_eq_add_of_lt hroom
  have hfuel : 8 - (s.upTo t).ev.moved.of ((s.upTo t).now / 16) = k + 1 := by rw [upTo_ev]; omega
  have hend : execEventDeliverable t s = done s ((s.upTo t).deliverOne e).evStat := by
    simp only [execEventDeliverable]
    rw [if_pos ((upTo_isOn s t _).trans hon), hfuel, deliver_single k (by rw [upTo_ev, hsort]) hage, deliver_empty hempty]
  rw [upTo_ev, upTo_f] at hev
  rw [upTo_f] at hnext hcount
  refine ⟨_, hend.trans (done_eq s _), ?_, ?_, ?_, ?_, ?_⟩
  · rw [ended_ev, evStat_ev, hempty]
  · rw [ended_ev, evStat_ev, hev]
  · rw [ended_f, evStat_f _ _ (by decide) (by decide) (by decide), hnext]
  · rw [ended_f, evStat_f _ _ (by decide) (by decide) (by decide), hcount]
  · rw [ended_ev, evStat_ev, hev, of_cycle]

/-! ### The frame that carries messages (R91) -/

/-- A frame that may start now is the one its lane then sends. -/
theorem trySend_starts {l : Fin 20} {ty flags : Nat} {payload : List Byte} (after : State → State)
    (h : s.mayStart l ⟨ty, s.nextSeq l ty, flags, payload⟩ = true) :
    s.trySend l ty flags payload after = after (s.sendFrame l ty flags payload (uiGrid (s.laneRate l) s.now)) := if_pos h

theorem sendFrame_tx (s : State) (l : Fin 20) (ty flags : Nat) (payload : List Byte) (v : Nat) :
    (s.sendFrame l ty flags payload v).lanes[l].tx = some (v, ⟨ty, s.nextSeq l ty, flags, payload⟩) := congrArg Lane.tx (sendFrame_lane s l ty flags payload v)

theorem sendFrame_ev (s : State) (l : Fin 20) (ty flags : Nat) (payload : List Byte) (v : Nat) :
    (s.sendFrame l ty flags payload v).ev = s.ev := by
  unfold State.sendFrame
  extract_lets f s1
  have hlane : s1.ev = s.ev := setLane_ev s l _
  split
  · exact (setF_ev _ _ _ _).trans hlane
  · exact hlane

/-- TX_SEQ apart, every register of every page is as before. -/
theorem sendFrame_f (s : State) (l : Fin 20) (ty flags : Nat) (payload : List Byte) (v p : Nat) {g : Fld} (hg : g.off < 0x1000)
    (h : Reg.FRAME_FRAME_STATUS_TX_SEQ.off ≠ g.off) : (s.sendFrame l ty flags payload v).f p g = s.f p g := by
  unfold State.sendFrame
  dsimp only
  split
  · rw [f_setF_off _ _ _ _ (by decide) hg h, setLane_f]
  · rw [setLane_f]

theorem evtSend_shows (l : Fin 20) (hon : s.isOn Pg.EVCOL = true) (hl : l.val < 2) (hport : s.f Pg.EVCOL Reg.EVCOL_EVCOL_CFG = l.val + 1)
    (hup : s.laneUp l.val = true) (hqueue : s.ev.queue ≠ [])
    (hstart : (s.upTo t).mayStart l ⟨4, (s.upTo t).nextSeq l 4, 0, evtPayload (s.ev.queue.take 8)⟩ = true) : Completes (.evtSend t) s fun u =>
      u.ev.queue = s.ev.queue.drop 8 ∧ u.lanes[l].tx.map (·.2.payload) = some (evtPayload (s.ev.queue.take 8)) ∧
        u.f (lanePage l.val) Reg.FRAME_EVT_MESSAGES = satU (s.f (lanePage l.val) Reg.FRAME_EVT_MESSAGES + (s.ev.queue.take 8).length) 32 := by
  have hcfg : 1 ≤ s.f Pg.EVCOL Reg.EVCOL_EVCOL_CFG ∧ s.f Pg.EVCOL Reg.EVCOL_EVCOL_CFG ≤ 2 := by omega
  have hindex : s.f Pg.EVCOL Reg.EVCOL_EVCOL_CFG - 1 = l.val := by omega
  have hmsgs : s.ev.queue.take 8 ≠ [] := by simpa using hqueue
  have hend : execEvtSend t s = done s ((((((s.upTo t).sendFrame l 4 0 (evtPayload (s.ev.queue.take 8))
      (uiGrid ((s.upTo t).laneRate l) (s.upTo t).now)).setEv fun v => { v with queue := v.queue.drop 8 }).inc (lanePage l)
      Reg.FRAME_EVT_MESSAGES (s.ev.queue.take 8).length)).evStat) := by
    simp only [execEvtSend, upTo_f, upTo_isOn, upTo_laneUp, upTo_ev, dif_pos hcfg, hindex]
    rw [if_pos ⟨hon, hup, hmsgs⟩, trySend_starts _ hstart]
  refine ⟨_, hend.trans (done_eq s _), ?_, ?_, ?_⟩
  · rw [ended_ev, evStat_ev, inc_eq, setF_ev, setEv_ev, sendFrame_ev, upTo_ev]
  · rw [ended_lanes, evStat_lanes, inc_eq, setF_lanes, setEv_lanes, sendFrame_tx]
    rfl
  · rw [ended_f, evStat_f _ _ (by decide) (by decide) (by decide), inc_eq, f_setF_satU _ _ (by decide), setEv_f,
      sendFrame_f _ _ _ _ _ _ _ (by decide) (by decide), upTo_f]
    rfl

/-- Settles O27: the one offer that waits, the one entry that is old enough, and the messages at the head of the host queue, each as shown above. -/
theorem eventCollector : Obligations.EventCollector := by
  unfold Obligations.EventCollector
  refine ⟨?_, ?_, ?_⟩
  · exact fun t e s hon hoffer hnew hlights hroom hage => eventIntake_shows hon hoffer hnew hlights hroom hage
  · exact fun t e s hon hsort hage hqueue hroom => eventDeliverable_shows hon hsort hage hqueue hroom
  · exact fun t l s hon hl hport hup hqueue _ hstart => evtSend_shows l hon hl hport hup hqueue hstart

end Sys2Proof.Proofs
end
section
/-! PROOFS. What a fault, a latched cause or a recorded trigger leaves of the head links: what is known of each head, and the time (R98, R240, R304,
R373). -/

namespace Sys2Proof.Proofs

open Sys2Proof.Machine Sys2Proof.Laws

/-- `u` has the heads and the time of `s`. -/
structure SameHeads (s u : State) : Prop where
  heads : u.heads = s.heads
  time : u.time = s.time

namespace SameHeads

section
variable {s u v : State}

theorem refl (s : State) : SameHeads s s := ⟨rfl, rfl⟩

theorem trans (h : SameHeads s u) (k : SameHeads u v) : SameHeads s v := ⟨k.heads.trans h.heads, k.time.trans h.time⟩

theorem head (h : SameHeads s u) (k : Fin 16) : u.heads[k] = s.heads[k] := by rw [h.heads]

theorem ite {c : Prop} [Decidable c] (h : SameHeads s u) (k : SameHeads s v) : SameHeads s (if c then u else v) := by
  split
  · exact h
  · exact k

theorem each {α : Type} {g : State → α → State} (hg : ∀ s x, SameHeads s (g s x)) (l : List α) (s : State) : SameHeads s (s.each l g) :=
  ⟨each_inv State.heads g (fun s x => (hg s x).heads) l s, each_inv State.time g (fun s x => (hg s x).time) l s⟩

theorem of_noted (h : Noted s u) : SameHeads s u := ⟨by rw [h], by rw [h]⟩

end

section
variable (s : State)

theorem setF (p : Nat) (fl : Fld) (v : Nat) : SameHeads s (s.setF p fl v) := of_noted (noted_setF s p fl v)

theorem event (p k stamp : Nat) : SameHeads s (s.event p k stamp) := of_noted (noted_event s p k stamp)

theorem sticky (p k stamp : Nat) : SameHeads s (s.sticky p k stamp) := of_noted (noted_sticky s p k stamp)

theorem inc (p : Nat) (fl : Fld) (n : Nat) : SameHeads s (s.inc p fl n) := of_noted (noted_inc s p fl n)

theorem ev! (p k : Nat) : SameHeads s (s.ev! p k) := event s p k s.now

theorem sticky! (p k : Nat) : SameHeads s (s.sticky! p k) := sticky s p k s.now

theorem refreshEn (p : Nat) : SameHeads s (s.refreshEn p) := setF s p _ _

theorem accAdd (o k n : Nat) : SameHeads s (s.accAdd o k n) := of_noted (noted_accAdd s o k n)

theorem pins (n : Fin 16) : SameHeads s (s.pins n) := of_noted (noted_pins s n)

theorem setRcd (g : RecSt) : SameHeads s { s with rcd := g } := ⟨rfl, rfl⟩

theorem setKnife (g : KnifeSt) : SameHeads s { s with knife := g } := ⟨rfl, rfl⟩

theorem setRaster (b : Fin 16) (g : Raster → Raster) : SameHeads s (s.setRaster b g) := ⟨rfl, rfl⟩

theorem abandonFlush (fl : Flush) : SameHeads s (s.abandonFlush fl) := by
  unfold State.abandonFlush State.flushOver
  exact ((((((setRcd s _).trans (setRcd _ _)).trans (setF _ _ _ _)).trans (setF _ _ _ _)).trans (setF _ _ _ _)).trans (setF _ _ _ _))

/-- A trigger that is collected: PENDING, and the counts it may add to (R373, R374). -/
theorem triggered {u : State} (h : SameHeads s u) (g : RecSt) (bit : Nat) (joins : Bool) : SameHeads s
    (let s3 := ({ u with rcd := g }).setB Pg.RECORD Reg.RECORD_STATUS_PENDING true
     let s4 := if joins then s3.inc Pg.RECORD Reg.RECORD_MERGED else s3
     if trigGated bit && !s4.gapOver then (s4.inc Pg.RECORD Reg.RECORD_DEFERRED).ev! Pg.RECORD Ev.RECORD_FLUSH_DEFERRED else s4) := by
  have hpending := (h.trans (setRcd u g)).trans (setF _ Pg.RECORD Reg.RECORD_STATUS_PENDING (b2n true))
  extract_lets s3 s4
  have hmerged : SameHeads s s4 := ite (hpending.trans (setF _ _ _ _)) hpending
  exact ite ((hmerged.trans (setF _ _ _ _)).trans (event _ _ _ _)) hmerged

theorem trigger (bit : Nat) : SameHeads s (s.trigger bit) := by
  unfold State.trigger
  refine ite ?_ (refl s)
  split
  next s1 extra more hcapture =>
  refine triggered s ?_ _ bit _
  split at hcapture
  · split at hcapture
    · cases hcapture
      exact abandonFlush s _
    · cases hcapture
      exact refl s
  · cases hcapture
    exact refl s

theorem unclear (n : Fin 16) : SameHeads s (s.unclear n) := by
  have hunoffer (u : State) (src : Nat) : SameHeads u (u.unoffer src) := ⟨rfl, rfl⟩
  unfold State.unclear
  split
  · refine ite (((setF s _ _ _).trans (ite ?_ (refl _))).trans (setKnife _ _)) (refl s)
    exact ((setF _ _ _ _).trans (setF _ _ _ _)).trans (ite (hunoffer _ _) (refl _))
  · exact refl s

theorem latchOne (n : Fin 16) (c stamp : Nat) : SameHeads s (s.latchOne n c stamp) := by
  unfold State.latchOne
  exact ((((((unclear s n).trans (setF _ _ _ _)).trans (setF _ _ _ _)).trans (setF _ _ _ _)).trans (setKnife _ _)).trans (accAdd _ _ _ _)).trans
    (pins _ n)

theorem latchCause (scope : List (Fin 16)) (c stamp : Nat) : SameHeads s (s.latchCause scope c stamp) := by
  have hcounted := (((each (fun u n => latchOne u n c stamp) scope s).trans (inc _ Pg.KNIFE Reg.KNIFE_TRIPS 1)).trans
    (event _ Pg.KNIFE Ev.KNIFE_TRIP stamp)).trans (accAdd _ (0xD30 + 4 * c) 4 1)
  exact ite (ite hcounted (hcounted.trans (trigger _ 2))) (refl s)

theorem calWatch : SameHeads s s.calWatch := by
  have habandon (op : Nat) : SameHeads s (s.calAbandon op) := by
    have hrun : SameHeads s { s with cal := { s.cal with run := none } } := ⟨rfl, rfl⟩
    have hfail := ((hrun.trans (setF _ Pg.CALIB Reg.CALIB_STATUS_BUSY (b2n false))).trans (setF _ Pg.CALIB Reg.CALIB_STATUS_RESULT 2)).trans
      (ev! _ Pg.CALIB Ev.CALIB_CAL_FAIL)
    unfold State.calAbandon
    exact ite ((hfail.trans (setRcd _ _)).trans (sticky _ _ _ _)) hfail
  unfold State.calWatch
  split
  · exact ite (refl s) (habandon _)
  · exact refl s

theorem enter (p w stamp : Nat) : SameHeads s (s.enter p w stamp) := by
  have hentered (u : State) : SameHeads u (u.setEntered p stamp) := ⟨rfl, rfl⟩
  have hmoved := (((setF s p Reg.STATE_STATE w).trans (hentered _)).trans (refreshEn _ p)).trans (event _ p Ev.STATE_CHANGE stamp)
  have hstate : SameHeads s (s.setState p w stamp) :=
    ite (refreshEn s p) ((ite (hmoved.trans (event _ p Ev.FAULT stamp)) hmoved).trans (calWatch _))
  have hexpose (u : State) (b : Fin 16) : SameHeads u (u.expose b) := by
    unfold State.expose
    split <;> exact ⟨rfl, rfl⟩
  refine hstate.trans ?_
  unfold State.enter State.exposeAt
  split
  · exact hexpose _ _
  · exact hexpose _ _
  · exact refl _

theorem blockFault (p stamp : Nat) : SameHeads s (s.blockFault p stamp) := ite (enter s p _ stamp) (refl s)

theorem brushFault (b : Fin 16) (cause stamp : Nat) : SameHeads s (s.brushFault b cause stamp) := by
  have hdropEdges (u : State) : SameHeads u (u.dropEdges b) := (of_noted (noted_setLaser u b _)).trans (pins _ b)
  have hdropLines (u : State) (keep : RLine → Bool) : SameHeads u (u.dropLines b keep) := ite (refl u) ((setRaster u b _).trans (setF _ _ _ _))
  exact ite ((((setF s _ _ _).trans (blockFault _ _ _)).trans (hdropEdges _)).trans (hdropLines _ _)) (refl s)

theorem axisFault (a cause stamp : Nat) : SameHeads s (s.axisFault a cause stamp) := by
  have hfault := (setF s (Pg.AXIS a) Reg.AXIS_STATUS_FAULT_CAUSE cause).trans (blockFault _ (Pg.AXIS a) stamp)
  refine ite ?_ (refl s)
  split
  · exact (hfault.trans (latchCause _ _ _ _)).trans (brushFault _ _ _ _)
  · exact hfault

end

end SameHeads

end Sys2Proof.Proofs
end
section
/-! PROOFS. What work on one head link leaves of another: its lane, the registers of its page and what is known of its head (R92, R98). -/

namespace Sys2Proof.Proofs

open Sys2Proof.Machine Sys2Proof.Laws

/-! ### Work that concerns no lane -/

/-- Work that concerns no lane: every lane, the header of page `p`, every head and the time are as before. -/
structure Aside (p : Nat) (s u : State) : Prop where
  lanes : KeepsLanes s u
  header : headWords p u.regs = headWords p s.regs
  same : SameHeads s u

namespace Aside

section
variable {p : Nat} {s u v : State}

theorem refl (s : State) : Aside p s s := ⟨.refl s, rfl, .refl s⟩

theorem trans (h : Aside p s u) (k : Aside p u v) : Aside p s v := ⟨h.lanes.trans k.lanes, k.header.trans h.header, h.same.trans k.same⟩

theorem ite {c : Prop} [Decidable c] (h : Aside p s u) (k : Aside p s v) : Aside p s (if c then u else v) := by
  split
  · exact h
  · exact k

theorem each_mem {α : Type} {g : State → α → State} (l : List α) (hg : ∀ s, ∀ x ∈ l, Aside p s (g s x)) : ∀ s : State, Aside p s (s.each l g) := by
  induction l with
  | nil => exact refl
  | cons x r ih => exact fun s => (hg s x (.head _)).trans (ih (fun u y hy => hg u y (.tail _ hy)) _)

end

section
variable {p : Nat} (s : State)

theorem setF {q : Nat} (hq : ¬ LanePage q) {fl : Fld} (v : Nat) (ho : fl.off < 0x1000 := by decide) (hfl : OffHead fl = true := by decide) :
    Aside p s (s.setF q fl v) := ⟨.setF s hq v ho, setF_head q v hfl, .setF s q fl v⟩

theorem inc {q : Nat} (hq : ¬ LanePage q) {fl : Fld} (n : Nat) (ho : fl.off < 0x1000 := by decide) (hfl : OffHead fl = true := by decide) :
    Aside p s (s.inc q fl n) := setF s hq _ ho hfl

theorem ev! (q k : Nat) : Aside p s (s.ev! q k) := ⟨.ev! s q k, ev_bang_head q k, .ev! s q k⟩

theorem sticky! (q k : Nat) : Aside p s (s.sticky! q k) := ⟨.sticky! s q k, sticky_bang_head q k, .sticky! s q k⟩

theorem latchCause (scope : List (Fin 16)) (c stamp : Nat) : Aside p s (s.latchCause scope c stamp) :=
  ⟨.latchCause s scope c stamp, latchCause_head scope c stamp, .latchCause s scope c stamp⟩

theorem axisFault (hp : Still p) {a : Nat} (ha : a < 64) (cause stamp : Nat) : Aside p s (s.axisFault a cause stamp) :=
  ⟨.axisFault s ha cause stamp, axisFault_head a cause stamp ha hp, .axisFault s a cause stamp⟩

/-- An axis comes to rest. -/
theorem axisToOff (hp : Still p) (a : Fin 64) : Aside p s (s.toOff (Pg.AXIS a)) := by
  have hblk : pageBlk (Pg.AXIS a) = some .axis := by revert a; decide
  have hoff (u : State) : u.onOff (Pg.AXIS a) = u.setAxis (axisOf (Pg.AXIS a)) Axis.fresh := by simp only [State.onOff, hblk]
  have hset (u : State) (g : Axis → Axis) : Aside p u (u.setAxis (axisOf (Pg.AXIS a)) g) := ⟨⟨rfl, fun _ _ => rfl, rfl⟩, rfl, ⟨rfl, rfl⟩⟩
  rw [State.toOff, hoff]
  exact trans ⟨.enter s _ _ _, enter_head _ _ _ (hp.axis a.isLt), .enter s _ _ _⟩ (hset _ _)

end

end Aside

/-! ### What is kept of one head -/

theorem lanePage_headLane (h : Fin 16) : lanePage (headLane h) = Pg.HEAD h := by
  revert h
  decide

theorem headPage_still (h : Fin 16) : Still (Pg.HEAD h) := by
  constructor
  · left
    simp only [Pg.HEAD]
    omega
  · left
    simp only [Pg.HEAD]
    omega

/-- Head `h`, its lane, the registers of its page by which its link works, and the time are as before. -/
structure KeepsHead (h : Fin 16) (s u : State) : Prop where
  lane : u.lanes[headLane h] = s.lanes[headLane h]
  words : ∀ o, 0x040 ≤ o → o < 0x1000 → u.word (regAddr (Pg.HEAD h) o) = s.word (regAddr (Pg.HEAD h) o)
  header : headWords (Pg.HEAD h) u.regs = headWords (Pg.HEAD h) s.regs
  domains : switches u.pwr = switches s.pwr
  head : u.heads[h] = s.heads[h]
  time : u.time = s.time

/-- Work that concerns no lane leaves every head link. -/
theorem Aside.keepsHead {h : Fin 16} {s u : State} (k : Aside (Pg.HEAD h) s u) : KeepsHead h s u where
  lane := by rw [k.lanes.lanes]
  words o ho hlt := by
    rw [← lanePage_headLane h]
    exact k.lanes.words _ (laneReg_own (headLane h) ⟨ho, hlt⟩)
  header := k.header
  domains := k.lanes.domains
  head := k.same.head h
  time := k.same.time

namespace KeepsHead

section
variable {h : Fin 16} {s u v : State}

theorem refl (s : State) : KeepsHead h s s := (Aside.refl s).keepsHead

theorem trans (j : KeepsHead h s u) (k : KeepsHead h u v) : KeepsHead h s v where
  lane := k.lane.trans j.lane
  words o ho hlt := (k.words o ho hlt).trans (j.words o ho hlt)
  header := k.header.trans j.header
  domains := k.domains.trans j.domains
  head := k.head.trans j.head
  time := k.time.trans j.time

theorem ite {c : Prop} [Decidable c] (j : KeepsHead h s u) (k : KeepsHead h s v) : KeepsHead h s (if c then u else v) := by
  split
  · exact j
  · exact k

theorem each_mem {α : Type} {g : State → α → State} (l : List α) (hg : ∀ s, ∀ x ∈ l, KeepsHead h s (g s x)) : ∀ s, KeepsHead h s (s.each l g) := by
  induction l with
  | nil => exact refl
  | cons x r ih => exact fun s => (hg s x (.head _)).trans (ih (fun u y hy => hg u y (.tail _ hy)) _)

theorem f (k : KeepsHead h s u) {fl : Fld} (ho : Own fl) : u.f (Pg.HEAD h) fl = s.f (Pg.HEAD h) fl := by
  simp only [State.f, k.words _ ho.1 ho.2]

theorem now (k : KeepsHead h s u) : u.now = s.now := congrArg TimeSt.now k.time

theorem laneUp (k : KeepsHead h s u) : u.laneUp (headLane h) = s.laneUp (headLane h) := by
  have hphase : u.phase (headLane h) = s.phase (headLane h) := by
    simp only [State.phase, lanePage_headLane]
    exact k.f (by decide)
  have hon : u.isOn (lanePage (headLane h)) = s.isOn (lanePage (headLane h)) := by
    simp only [State.isOn, State.st, lanePage_headLane, pageOn_of_domains (domains_of_head k.header) k.domains, st_of_head k.header]
  rw [State.laneUp, hphase, hon]
  rfl

theorem past (k : KeepsHead h s u) (v : Int) : u.past v = s.past v := by rw [State.past, k.now, State.past]

theorem stepHolds (k : KeepsHead h s u) : u.stepHolds (headLane h) = s.stepHolds (headLane h) := by
  unfold State.stepHolds
  rw [k.lane, show u.past = s.past from funext k.past]

theorem lineFree (k : KeepsHead h s u) (v : Nat) : u.lineFree (headLane h) v = s.lineFree (headLane h) v := by
  have hrate : u.laneRate (headLane h) = s.laneRate (headLane h) := by
    simp only [State.laneRate, lanePage_headLane]
    exact k.f (by decide)
  rw [State.lineFree, k.lane, hrate, State.lineFree]

end

section
variable {h k : Fin 16} (hk : k ≠ h) (s : State)
include hk

/-- A register of another head's page is written. -/
theorem setF {fl : Fld} (v : Nat) (ho : fl.off < 0x1000 := by decide) (hfl : OffHead fl = true := by decide) :
    KeepsHead h s (s.setF (Pg.HEAD k) fl v) where
  lane := rfl
  words _ _ hlt := word_setF_other s _ fl v _ fun e => hk (Fin.ext (Nat.add_left_cancel ((regAddr_inj hlt ho).mp e).1.symm))
  header := setF_head _ v hfl
  domains := rfl
  head := rfl
  time := rfl

theorem inc {fl : Fld} (n : Nat) (ho : fl.off < 0x1000 := by decide) (hfl : OffHead fl = true := by decide) :
    KeepsHead h s (s.inc (Pg.HEAD k) fl n) := setF hk s _ ho hfl

theorem setHead (g : Head → Head) : KeepsHead h s (s.setHead k g) where
  lane := rfl
  words _ _ _ := rfl
  header := rfl
  domains := rfl
  head := Vector.getElem_set_ne k.isLt h.isLt fun e => hk (Fin.ext e)
  time := rfl

theorem setLane (g : Lane → Lane) : KeepsHead h s (s.setLane (headLane k) g) where
  lane := Vector.getElem_set_ne (headLane k).isLt (headLane h).isLt fun e => hk (Fin.ext (by simpa [headLane] using e))
  words _ _ _ := rfl
  header := rfl
  domains := rfl
  head := rfl
  time := rfl

theorem headHealth : KeepsHead h s (s.headHealth k) :=
  ite (((setHead hk s _).trans (Aside.ev! _ _ _).keepsHead).trans (Aside.latchCause _ _ _ _).keepsHead) (setHead hk s _)

end

/-- Where one work is done on each head in turn, that on the others leaves head `h` before its turn and after it. -/
theorem each_at {h : Fin 16} {g : State → Fin 16 → State} (hg : ∀ s k, k ≠ h → KeepsHead h s (g s k)) (s : State) :
    ∃ u, KeepsHead h s u ∧ KeepsHead h (g u h) (s.each (List.finRange 16) g) := by
  obtain ⟨before, after, hsplit⟩ := List.append_of_mem (List.mem_finRange h)
  have hnodup := List.nodup_finRange 16
  rw [hsplit] at hnodup ⊢
  obtain ⟨-, hafter, hbefore⟩ := List.nodup_append.mp hnodup
  refine ⟨s.each before g, each_mem before (fun u k hk => hg u k fun e => hbefore k hk h (.head _) e) s, ?_⟩
  have hparts : s.each (before ++ h :: after) g = (g (s.each before g) h).each after g := by
    simp only [State.each, List.foldl_append, List.foldl_cons]
  rw [hparts]
  exact each_mem after (fun u k hk => hg u k fun e => (List.nodup_cons.mp hafter).1 (e ▸ hk)) _

end KeepsHead

end Sys2Proof.Proofs
end
section
/-! PROOFS. The head-frame cycle and the mailbox (R92, R98, R99). -/

namespace Sys2Proof.Proofs

open Sys2Proof.Machine Sys2Proof.Laws

section
variable {s : State} {h : Fin 16}

theorem setHead_self (s : State) (h : Fin 16) (g : Head → Head) : (s.setHead h g).heads[h] = g s.heads[h] := Vector.getElem_set_self h.isLt

theorem setHead_f (s : State) (h : Fin 16) (g : Head → Head) (p : Nat) (fl : Fld) : (s.setHead h g).f p fl = s.f p fl := rfl

theorem setHead_fb (s : State) (h : Fin 16) (g : Head → Head) (p : Nat) (fl : Fld) : (s.setHead h g).fb p fl = s.fb p fl := rfl

/-- Judging the health of a link changes nothing else that is known of its head. -/
theorem headHealth_self (s : State) (h : Fin 16) : (s.headHealth h).heads[h] = { s.heads[h] with healthy := s.headFit h } := by
  have hnoted (u : State) : SameHeads u ((u.ev! (Pg.HEAD h) Ev.HEAD_UNHEALTHY).latchCause [h] causeHead s.now) :=
    (SameHeads.ev! u _ _).trans (.latchCause _ _ _ _)
  unfold State.headHealth
  extract_lets ok was s1
  have hself : s1.heads[h] = { s.heads[h] with healthy := s.headFit h } := setHead_self s h _
  split
  · exact ((hnoted s1).head h).trans hself
  · exact hself

theorem headHealth_f (s : State) (h : Fin 16) {fl : Fld} (ho : Own fl) : (s.headHealth h).f (Pg.HEAD h) fl = s.f (Pg.HEAD h) fl := by
  rw [← lanePage_headLane h]
  exact (KeepsLanes.headHealth s h).f (headLane h) ho

/-- A note on a page: the heads' registers are as before. -/
theorem Aside.own {u : State} (k : Aside (Pg.HEAD h) s u) {fl : Fld} (ho : Own fl) : u.f (Pg.HEAD h) fl = s.f (Pg.HEAD h) fl := k.keepsHead.f ho

/-! ### The deadlines of the samples (R98) -/

theorem missA_others {n : Nat} (s : State) {k : Fin 16} (hk : k ≠ h) : KeepsHead h s (s.missA n k) :=
  .ite (((((KeepsHead.inc hk s 1).trans (Aside.sticky! _ _ _).keepsHead).trans (Aside.ev! _ _ _).keepsHead).trans (.setHead hk _ _)).trans
    (.headHealth hk _)) (.refl s)

theorem missA_own {n k : Nat} (hup : s.laneUp (headLane h) = true) (hfrom : s.heads[h].judgeFrom = some k) (hk : k ≤ n)
    (hgot : s.heads[h].gotA ≠ some n) :
    (s.missA n h).f (Pg.HEAD h) Reg.HEAD_UP_MISSING_A = satU (s.f (Pg.HEAD h) Reg.HEAD_UP_MISSING_A + 1) Reg.HEAD_UP_MISSING_A.width ∧
      (s.missA n h).heads[h].missRun = s.heads[h].missRun + 1 := by
  have hmiss : s.missA n h = ((((s.inc (Pg.HEAD h) Reg.HEAD_UP_MISSING_A).sticky! (Pg.HEAD h) Sticky.HEAD_SAMPLE_MISSING).ev! (Pg.HEAD h)
      Ev.HEAD_SAMPLE_MISSING).setHead h fun x => { x with missRun := x.missRun + 1 }).headHealth h := by
    unfold State.missA
    simp only [hfrom]
    exact if_pos ⟨hup, decide_eq_true hk, hgot⟩
  have hnoted (u : State) : Aside (Pg.HEAD h) u ((u.sticky! (Pg.HEAD h) Sticky.HEAD_SAMPLE_MISSING).ev! (Pg.HEAD h) Ev.HEAD_SAMPLE_MISSING) :=
    (Aside.sticky! u _ _).trans (.ev! _ _ _)
  rw [hmiss]
  constructor
  · rw [headHealth_f _ _ (by decide), setHead_f, (hnoted _).own (by decide), inc_eq, f_setF_satU _ _ (by decide)]
  · rw [headHealth_self, setHead_self, (hnoted _).keepsHead.head, inc_eq, setF_heads]

theorem sampleADeadline_shows {n k : Nat} (hup : s.laneUp (headLane h) = true) (hfrom : s.heads[h].judgeFrom = some k) (hk : k ≤ n)
    (hgot : s.heads[h].gotA ≠ some n) : Completes (.sampleADeadline n) s fun u =>
      u.f (Pg.HEAD h) Reg.HEAD_UP_MISSING_A = satU (s.f (Pg.HEAD h) Reg.HEAD_UP_MISSING_A + 1) Reg.HEAD_UP_MISSING_A.width ∧
        u.heads[h].missRun = s.heads[h].missRun + 1 := by
  obtain ⟨u, hbefore, hafter⟩ := KeepsHead.each_at (h := h) (g := fun s k => s.missA n k) (fun s _ hk => missA_others s hk) (s.upTo (t0 n + 3840))
  have hhead : u.heads[h] = s.heads[h] := hbefore.head.trans (by rw [upTo_heads])
  obtain ⟨hcount, hrun⟩ := missA_own (s := u) (h := h) (n := n) (hbefore.laneUp.trans ((upTo_laneUp s _ _).trans hup)) (by rw [hhead, hfrom]) hk
    (by rwa [hhead])
  refine ⟨_, done_eq s _, ?_, ?_⟩
  · rw [ended_f, hafter.f (by decide), hcount, hbefore.f (by decide), upTo_f]
  · rw [ended_heads, hafter.head, hrun, hhead]

/-- One head at the deadline of sample B of frame `n`. -/
def missB (n : Nat) (s : State) (h : Fin 16) : State :=
  let x := s.heads[h]
  let judged : Bool := match x.judgeFrom with | some k => decide (k ≤ n) | none => false
  if s.laneUp (headLane h) ∧ judged ∧ x.gotB ≠ some n then s.inc (Pg.HEAD h) Reg.HEAD_UP_MISSING_B else s

theorem execSampleBDeadline_eq (n : Nat) (s : State) :
    execSampleBDeadline n s = done s ((s.upTo (t0 n + 11840)).each (List.finRange 16) (missB n)) := rfl

theorem missB_same (n : Nat) (s : State) (h : Fin 16) : SameHeads s (missB n s h) := .ite (.inc s _ _ _) (.refl s)

theorem sampleBDeadline_shows {n k : Nat} (hup : s.laneUp (headLane h) = true) (hfrom : s.heads[h].judgeFrom = some k) (hk : k ≤ n)
    (hgot : s.heads[h].gotB ≠ some n) : Completes (.sampleBDeadline n) s fun u =>
      u.f (Pg.HEAD h) Reg.HEAD_UP_MISSING_B = satU (s.f (Pg.HEAD h) Reg.HEAD_UP_MISSING_B + 1) Reg.HEAD_UP_MISSING_B.width ∧
        u.heads[h].missRun = s.heads[h].missRun := by
  obtain ⟨u, hbefore, hafter⟩ := KeepsHead.each_at (h := h) (g := missB n) (fun s _ hk => .ite (.inc hk s 1) (.refl s)) (s.upTo (t0 n + 11840))
  have hhead : u.heads[h] = s.heads[h] := hbefore.head.trans (by rw [upTo_heads])
  have hcount : missB n u h = u.inc (Pg.HEAD h) Reg.HEAD_UP_MISSING_B := by
    unfold missB
    simp only [hhead, hfrom]
    exact if_pos ⟨hbefore.laneUp.trans ((upTo_laneUp s _ _).trans hup), decide_eq_true hk, hgot⟩
  refine ⟨_, (execSampleBDeadline_eq n s).trans (done_eq s _), ?_, ?_⟩
  · rw [ended_f, hafter.f (by decide), hcount, inc_eq, f_setF_satU _ _ (by decide), hbefore.f (by decide), upTo_f]
  · rw [ended_heads, hafter.head, (missB_same n u h).head, hhead]

end

end Sys2Proof.Proofs
end
section
/-! PROOFS. HEAD_DN at its instant, and what an accepted sample leaves known of its head (R92, R98, R99). -/

namespace Sys2Proof.Proofs

open Sys2Proof.Machine Sys2Proof.Laws

section
variable {s : State} {h : Fin 16} {t : Nat}

/-! ### HEAD_DN (R92) -/

theorem showAmp_aside {p : Nat} (s : State) (h : Fin 16) (n : Nat) : Aside p s (s.showAmp h n) :=
  .ite (.each_mem _ (fun u k _ => .setF u (KeepsLanes.axisPage (by omega)) _) _) (.refl s)

theorem countLate_aside {p : Nat} (s : State) : Aside p s s.countLate :=
  ((Aside.inc s (by decide) 1).trans (.sticky! _ _ _)).trans (.ev! _ _ _)

theorem sendFrame_same (s : State) (l : Fin 20) (ty flags : Nat) (payload : List Byte) (v : Nat) : SameHeads s (s.sendFrame l ty flags payload v) := by
  have hlane (g : Lane → Lane) : SameHeads s (s.setLane l g) := ⟨rfl, rfl⟩
  exact .ite ((hlane _).trans (.setF _ _ _ _)) (hlane _)

/-- A frame that leaves on another head's lane. -/
theorem KeepsHead.sendFrame {k : Fin 16} (hk : k ≠ h) (s : State) (ty flags : Nat) (payload : List Byte) (v : Nat) :
    KeepsHead h s (s.sendFrame (headLane k) ty flags payload v) := by
  unfold State.sendFrame
  rw [lanePage_headLane]
  exact .ite ((setLane hk s _).trans (setF hk _ _)) (setLane hk s _)

theorem launchDn_others {n : Nat} (s : State) {k : Fin 16} (hk : k ≠ h) : KeepsHead h s (s.launchDn n k) := by
  unfold State.launchDn
  refine .ite (.ite ?_ (countLate_aside s).keepsHead) (.refl s)
  exact (((KeepsHead.sendFrame hk s _ _ _ _).trans (.inc hk _ 1)).trans (.setHead hk _ _)).trans (showAmp_aside _ _ _).keepsHead

/-- HEAD_DN of frame `n` on its lane, and counted. -/
def dnSent (s : State) (n : Nat) (h : Fin 16) : State :=
  (s.sendFrame (headLane h) 8 0 (s.headDn h n) s.now).inc (Pg.HEAD h) Reg.HEAD_DN_SENT

/-- What is known of a head once HEAD_DN of frame `n` has left at `now`. -/
def headLaunched (n now : Nat) (x : Head) : Head :=
  { x with dnTick := now, judgeFrom := some (x.judgeFrom.getD (n + 1)), mbxSend := false, mbxAt := if x.mbxSend then now else x.mbxAt }

theorem dnSent_same (s : State) (n : Nat) (h : Fin 16) : SameHeads s (dnSent s n h) := (sendFrame_same s _ _ _ _ _).trans (.inc _ _ _ _)

theorem dnSent_f (s : State) (n : Nat) (h : Fin 16) :
    (dnSent s n h).f (Pg.HEAD h) Reg.HEAD_DN_SENT = satU (s.f (Pg.HEAD h) Reg.HEAD_DN_SENT + 1) Reg.HEAD_DN_SENT.width := by
  rw [dnSent, inc_eq, f_setF_satU _ _ (by decide), sendFrame_f _ _ _ _ _ _ _ (by decide) (by decide)]

theorem launchDn_sends {n : Nat} (hup : s.laneUp (headLane h) = true) (hstep : s.stepHolds (headLane h) = false)
    (hfree : s.lineFree (headLane h) s.now = true) :
    s.launchDn n h = ((dnSent s n h).setHead h (headLaunched n (dnSent s n h).now)).showAmp h n := by
  have hrecord : headLaunched n (dnSent s n h).now = fun x => { x with
      dnTick := (dnSent s n h).now, judgeFrom := (match x.judgeFrom with | some k => some k | none => some (n + 1)), mbxSend := false,
      mbxAt := if x.mbxSend then (dnSent s n h).now else x.mbxAt } := by
    funext x
    rw [headLaunched]
    cases x.judgeFrom <;> rfl
  have hgoes : ¬ s.stepHolds (headLane h) = true := by rw [hstep]; decide
  rw [hrecord]
  unfold State.launchDn
  rw [if_pos ⟨hup, hgoes⟩, if_pos hfree]
  rfl

theorem launchDn_own {n : Nat} (hup : s.laneUp (headLane h) = true) (hstep : s.stepHolds (headLane h) = false)
    (hfree : s.lineFree (headLane h) s.now = true) :
    (s.launchDn n h).f (Pg.HEAD h) Reg.HEAD_DN_SENT = satU (s.f (Pg.HEAD h) Reg.HEAD_DN_SENT + 1) Reg.HEAD_DN_SENT.width ∧
      (s.launchDn n h).heads[h] = headLaunched n s.now s.heads[h] := by
  have hshow (u : State) : KeepsHead h u (u.showAmp h n) := (showAmp_aside u h n).keepsHead
  have hnow : (dnSent s n h).now = s.now := congrArg TimeSt.now (dnSent_same s n h).time
  rw [launchDn_sends hup hstep hfree]
  constructor
  · rw [(hshow _).f (by decide), setHead_f, dnSent_f]
  · rw [(hshow _).head, setHead_self, hnow, (dnSent_same s n h).head]

theorem headDnLaunch_shows {n : Nat} (hlive : s.live (t0 n + 15360)) (hup : s.laneUp (headLane h) = true)
    (hstep : (s.upTo (t0 n + 15360)).stepHolds (headLane h) = false) (hfree : (s.upTo (t0 n + 15360)).lineFree (headLane h) (t0 n + 15360) = true) :
    Completes (.headDnLaunch n) s fun u =>
      u.f (Pg.HEAD h) Reg.HEAD_DN_SENT = satU (s.f (Pg.HEAD h) Reg.HEAD_DN_SENT + 1) Reg.HEAD_DN_SENT.width ∧ u.heads[h].dnTick = t0 n + 15360 ∧
        u.heads[h].judgeFrom = some (s.heads[h].judgeFrom.getD (n + 1)) ∧ u.heads[h].mbxSend = false := by
  obtain ⟨u, hbefore, hafter⟩ :=
    KeepsHead.each_at (h := h) (g := fun s k => s.launchDn n k) (fun s _ hk => launchDn_others s hk) (s.upTo (t0 n + 15360))
  have hhead : u.heads[h] = s.heads[h] := hbefore.head.trans (by rw [upTo_heads])
  have hnow : u.now = t0 n + 15360 := hbefore.now.trans (upTo_now_of_live s _ hlive)
  obtain ⟨hcount, hknown⟩ := launchDn_own (s := u) (h := h) (n := n) (hbefore.laneUp.trans ((upTo_laneUp s _ _).trans hup))
    (hbefore.stepHolds.trans hstep) (by rw [hnow, hbefore.lineFree, hfree])
  have hrest (v : State) : KeepsHead h v (if v.domOn 4 then v.each (List.finRange 64) fun s a => s.axisAfterDn n a else v) :=
    .ite (Aside.each_mem _ (fun w a _ => .ite (.axisToOff w (headPage_still h) a) (.refl w)) v).keepsHead (.refl v)
  have hend := hafter.trans (hrest _)
  rw [hhead, hnow] at hknown
  refine ⟨_, done_eq s _, ?_, ?_⟩
  · rw [ended_f, hend.f (by decide), hcount, hbefore.f (by decide), upTo_f]
  · rw [ended_heads, hend.head, hknown]
    exact ⟨rfl, rfl, rfl⟩

/-! ### The samples of a HEAD_UP (R98) -/

/-- What an accepted sample A sets stands as it was: the frame and photodiode value taken, the run of missing frames, and TURN. -/
structure KeepsSample (h : Fin 16) (s u : State) : Prop where
  frame : u.heads[h].gotA = s.heads[h].gotA
  run : u.heads[h].missRun = s.heads[h].missRun
  value : u.heads[h].pdA = s.heads[h].pdA
  turn : u.f (Pg.HEAD h) Reg.HEAD_HEAD_STATUS_TURN = s.f (Pg.HEAD h) Reg.HEAD_HEAD_STATUS_TURN

namespace KeepsSample

section
variable {s u v : State}

theorem refl (s : State) : KeepsSample h s s := ⟨rfl, rfl, rfl, rfl⟩

theorem trans (j : KeepsSample h s u) (k : KeepsSample h u v) : KeepsSample h s v :=
  ⟨k.frame.trans j.frame, k.run.trans j.run, k.value.trans j.value, k.turn.trans j.turn⟩

theorem ite {c : Prop} [Decidable c] (j : KeepsSample h s u) (k : KeepsSample h s v) : KeepsSample h s (if c then u else v) := by
  split
  · exact j
  · exact k

theorem of_head (hhead : u.heads[h] = s.heads[h]) (hturn : u.f (Pg.HEAD h) Reg.HEAD_HEAD_STATUS_TURN = s.f (Pg.HEAD h) Reg.HEAD_HEAD_STATUS_TURN) :
    KeepsSample h s u := ⟨by rw [hhead], by rw [hhead], by rw [hhead], hturn⟩

end

theorem aside {u : State} (k : Aside (Pg.HEAD h) s u) : KeepsSample h s u := of_head k.keepsHead.head (k.own (by decide))

theorem headHealth (s : State) : KeepsSample h s (s.headHealth h) :=
  ⟨by rw [headHealth_self], by rw [headHealth_self], by rw [headHealth_self], headHealth_f s h (by decide)⟩

theorem setDelay (s : State) (d : Nat) : KeepsSample h s (s.setDelay h d) := by
  have hset (u : State) {fl : Fld} (v : Nat) (ho : fl.off < 0x1000) (hne : fl.off ≠ 0x108) : KeepsSample h u (u.setF (Pg.HEAD h) fl v) :=
    of_head rfl (f_setF_off u _ _ v ho (by decide) hne)
  unfold State.setDelay
  exact (ite (((hset s _ (by decide) (by decide)).trans (hset _ _ (by decide) (by decide))).trans (aside (.sticky! _ _ _)))
    ((hset s _ (by decide) (by decide)).trans (hset _ _ (by decide) (by decide)))).trans (headHealth _)

theorem delaySample (s : State) (f rx turn : Nat) : KeepsSample h s (s.delaySample h f rx turn) := by
  have hsum (a : Int) (b : Nat) : KeepsSample h s (s.setHead h fun x => { x with sumRt := a, nRt := b + 1 }) :=
    ⟨by rw [setHead_self], by rw [setHead_self], by rw [setHead_self], rfl⟩
  unfold State.delaySample
  exact ite (refl s) (ite ((hsum _ _).trans (setDelay _ _)) (hsum _ _))

end KeepsSample

theorem ampFault_aside {p a : Nat} (hp : Still p) (ha : a < 64) (s : State) : Aside p s (s.ampFault a) :=
  .ite ((((Aside.ev! s _ _).trans (.sticky! _ _ _)).trans (.inc _ (KeepsLanes.axisPage ha) 1)).trans (.axisFault _ hp ha _ _)) (.refl s)

theorem wrMem_aside {p : Nat} (s : State) (a k v : Nat) : Aside p s (s.wrMem a k v) :=
  ⟨⟨setBytes_lanes _ s a, fun b _ => by simp only [State.word, State.wrMem, setBytes_regs], by rw [State.wrMem, setBytes_pwr]⟩,
    setBytes_head a _, ⟨setBytes_heads _ s a, setBytes_time _ s a⟩⟩

/-- An accepted sample A of frame `f`. -/
theorem takeA_shows (s : State) (h : Fin 16) (f rx : Nat) (w : Vector Word 8) :
    (s.takeA h f rx w).heads[h].gotA = some f ∧ (s.takeA h f rx w).heads[h].missRun = 0 ∧
      (s.takeA h f rx w).heads[h].pdA = some (f, bits w[4].toNat 0 16) ∧
      (s.takeA h f rx w).f (Pg.HEAD h) Reg.HEAD_HEAD_STATUS_TURN = bits w[5].toNat 16 16 := by
  unfold State.takeA
  extract_lets p st was s1 s2 e s3 s4 s5
  have hstored : Aside (Pg.HEAD h) s2 s3 := .ite ((((((wrMem_aside s2 _ _ _).trans (wrMem_aside _ _ _ _)).trans (wrMem_aside _ _ _ _)).trans
    (wrMem_aside _ _ _ _)).trans (wrMem_aside _ _ _ _)).trans (wrMem_aside _ _ _ _)) (.refl s2)
  have hnoted : Aside (Pg.HEAD h) s3 s4 := .ite (.ev! s3 _ _) (.refl s3)
  have hfaults : Aside (Pg.HEAD h) s4 s5 :=
    .each_mem _ (fun u k hk => .ite (ampFault_aside (headPage_still h) (by simp at hk; omega) u) (.refl u)) s4
  obtain ⟨hframe, hrun, hvalue, hturn⟩ : KeepsSample h s2 ((s5.delaySample h f rx (bits st 16 16)).headHealth h) :=
    (((KeepsSample.aside ((hstored.trans hnoted).trans hfaults)).trans (.delaySample s5 _ _ _)).trans (.headHealth _))
  have hhead : s2.heads[h] = { s1.heads[h] with gotA := some f, missRun := 0, pdA := some (f, bits w[4].toNat 0 16) } := setHead_self s1 h _
  refine ⟨by rw [hframe, hhead], by rw [hrun, hhead], by rw [hvalue, hhead], ?_⟩
  rw [hturn, setHead_f, f_setF_apart _ _ _ _ _ (by decide) (by decide) (by decide), f_setF_same _ _ _ _ (by decide)]
  exact Nat.mod_mod _ _

end

end Sys2Proof.Proofs
end
section
/-! PROOFS. The receipt of a HEAD_UP and the mailbox (R98, R99). -/

namespace Sys2Proof.Proofs

open Sys2Proof.Machine Sys2Proof.Laws

section
variable {s : State} {h : Fin 16} {t : Nat} {w : Vector Word 8} {k : Nat}

/-- A sample that arrives within `limit` ticks of its frame's start is in time. -/
theorem sample_inTime {limit : Nat} (hlive : s.live t) (ht : t ≤ t0 (frameOf t) + limit) :
    (s.upTo t).now - t0 (frameOf (s.upTo t).now) ≤ limit := by
  rw [upTo_now_of_live s t hlive]
  omega

theorem headUpReceive_A (rx : Nat) (hlive : s.live t) (hup : s.laneUp (headLane h) = true) (hframe : w[0].toNat = frameOf t % 2 ^ 32)
    (hfrom : s.heads[h].judgeFrom = some k) (hk : k ≤ frameOf t) (hkind : w[5].toNat.testBit 0 = false) (ht : t ≤ t0 (frameOf t) + 3840) :
    ∃ v : State, execHeadUpReceive t h rx w s = done s (v.takeA h (frameOf t) rx w) := by
  have hnow := upTo_now_of_live s t hlive
  have htime := sample_inTime hlive ht
  rw [hnow] at htime
  unfold execHeadUpReceive
  simp only [upTo_laneUp, upTo_heads, hup, hnow, hfrom, hkind, hframe, hk, htime, decide_true, Bool.and_self, and_self, if_true, Bool.false_eq_true, if_false]
  exact ⟨_, rfl⟩

theorem headUpReceive_B (rx : Nat) (hlive : s.live t) (hup : s.laneUp (headLane h) = true) (hframe : w[0].toNat = frameOf t % 2 ^ 32)
    (hfrom : s.heads[h].judgeFrom = some k) (hk : k ≤ frameOf t) (hkind : w[5].toNat.testBit 0 = true) (ht : t ≤ t0 (frameOf t) + 11840) :
    execHeadUpReceive t h rx w s = done s ((s.upTo t).setHead h fun x => { x with
      gotB := some (frameOf t), pdB := some (frameOf t, bits w[4].toNat 0 16) }) := by
  have hnow := upTo_now_of_live s t hlive
  have htime := sample_inTime hlive ht
  rw [hnow] at htime
  unfold execHeadUpReceive
  simp only [upTo_laneUp, upTo_heads, hup, hnow, hfrom, hkind, hframe, hk, htime, decide_true, Bool.and_self, and_self, if_true]

theorem mbxSend_shows (hon : s.pageOn (Pg.HEAD h) = true) (hfree : s.fb (Pg.HEAD h) Reg.HEAD_MBX_STATUS_BUSY = false) :
    Completes (.mbxSend t h) s fun u =>
      u.fb (Pg.HEAD h) Reg.HEAD_MBX_STATUS_BUSY = true ∧ u.fb (Pg.HEAD h) Reg.HEAD_MBX_STATUS_DONE = false ∧ u.heads[h].mbxSend = true ∧
        u.heads[h].mbxTag = bits (s.a (Pg.HEAD h) Reg.HEAD_MBX_OUT_HI) 16 8 ∧
        u.heads[h].mbxMsg = s.actPair (Pg.HEAD h) Reg.HEAD_MBX_OUT_LO Reg.HEAD_MBX_OUT_HI := by
  have hend : execMbxSend t h s = done s ((((s.upTo t).setB (Pg.HEAD h) Reg.HEAD_MBX_STATUS_BUSY true).setB (Pg.HEAD h) Reg.HEAD_MBX_STATUS_DONE
      false).setHead h fun x => { x with
        mbxSend := true, mbxMsg := s.actPair (Pg.HEAD h) Reg.HEAD_MBX_OUT_LO Reg.HEAD_MBX_OUT_HI
        mbxTag := bits (s.a (Pg.HEAD h) Reg.HEAD_MBX_OUT_HI) 16 8, mbxAt := (s.upTo t).now }) := by
    simp only [execMbxSend, State.actPair, upTo_pageOn, upTo_fb, upTo_a, hon, hfree, not_true, if_false, Bool.false_eq_true]
  refine ⟨_, hend.trans (done_eq s _), ?_, ?_, ?_⟩
  · rw [ended_fb, setHead_fb, fb_setB_apart _ _ (by decide) (by decide) (by decide), fb_setB_same _ (by decide)]
  · rw [ended_fb, setHead_fb, fb_setB_same _ (by decide)]
  · rw [ended_heads, setHead_self]
    exact ⟨rfl, rfl, rfl⟩

theorem mbxTimeout_shows (hbusy : s.fb (Pg.HEAD h) Reg.HEAD_MBX_STATUS_BUSY = true)
    (hlong : (s.upTo t).past (s.heads[h].mbxAt + 64 * 16000) = true) : Completes (.mbxTimeout t h) s fun u =>
      u.fb (Pg.HEAD h) Reg.HEAD_MBX_STATUS_BUSY = false ∧ u.heads[h].mbxSend = false := by
  have hguard : (s.upTo t).fb (Pg.HEAD h) Reg.HEAD_MBX_STATUS_BUSY = true ∧ (s.upTo t).past ((s.upTo t).heads[h].mbxAt + 64 * 16000) = true := by
    simp only [upTo_fb, upTo_heads]
    exact ⟨hbusy, hlong⟩
  have hend : execMbxTimeout t h s = done s ((((s.upTo t).setB (Pg.HEAD h) Reg.HEAD_MBX_STATUS_BUSY false).sticky! (Pg.HEAD h)
      Sticky.HEAD_MBX_TIMEOUT).setHead h fun x => { x with mbxSend := false }) := congrArg (done s) (if_pos hguard)
  have hnoted (u : State) : Aside (Pg.HEAD h) u (u.sticky! (Pg.HEAD h) Sticky.HEAD_MBX_TIMEOUT) := .sticky! u _ _
  refine ⟨_, hend.trans (done_eq s _), ?_, ?_⟩
  · rw [ended_fb, setHead_fb, fb_congr ((hnoted _).own (by decide)), fb_setB_same _ (by decide)]
  · rw [ended_heads, setHead_self]

end

/-- Settles O36: the work on the other heads leaves head `h` and its lane, so HEAD_DN and the deadlines do for it what they would do alone; a sample
and the mailbox act on their own head. -/
theorem headLinks : Obligations.HeadLinks := by
  unfold Obligations.HeadLinks
  refine ⟨?_, ?_, ?_, ?_, ?_, ?_, ?_⟩
  · exact fun n h s hlive hup hstep hfree => headDnLaunch_shows hlive hup hstep hfree
  · intro t h rx w k s hlive hup hframe hfrom hk hkind ht
    obtain ⟨v, hend⟩ := headUpReceive_A rx hlive hup hframe hfrom hk hkind ht
    refine ⟨_, hend.trans (done_eq s _), ?_⟩
    dsimp only
    rw [ended_heads, ended_f]
    exact takeA_shows v h (frameOf t) rx w
  · intro t h rx w k s hlive hup hframe hfrom hk hkind ht
    refine ⟨_, (headUpReceive_B rx hlive hup hframe hfrom hk hkind ht).trans (done_eq s _), ?_⟩
    dsimp only
    rw [ended_heads, setHead_self]
    exact ⟨rfl, rfl⟩
  · exact fun n h k s hup hfrom hk hgot => sampleADeadline_shows hup hfrom hk hgot
  · exact fun n h k s hup hfrom hk hgot => sampleBDeadline_shows hup hfrom hk hgot
  · exact fun t h s hon hfree => mbxSend_shows hon hfree
  · exact fun t h s hbusy hlong => mbxTimeout_shows hbusy hlong

end Sys2Proof.Proofs
end
section
/-! PROOFS. What a read and a bank access of a host port leave of the port (R87, R339). -/

namespace Sys2Proof.Proofs

open Sys2Proof.Machine Sys2Proof.Laws

namespace SamePort

section
variable {L : Nat} {s u : State}

theorem errorRegs_apart (hL : L = 0x14 ∨ L = 0x15) : ∀ a ∈ errorRegs, a ∉ portRegs L := by
  rcases hL with rfl | rfl
  · decide
  · decide

/-- An operation that notes and records, and writes the registers of errors alone. -/
theorem of_noted (hL : L = 0x14 ∨ L = 0x15) (h : RegsBut errorRegs s u) (hn : Noted s u) : SamePort L s u :=
  ⟨by rw [hn], by rw [hn], fun a ha => h a fun he => errorRegs_apart hL a he ha⟩

theorem setBytes (s : State) (a : Nat) (l : List Byte) : SamePort L s (s.setBytes a l) :=
  ⟨setBytes_lanes l s a, setBytes_pwr l s a, fun b _ => by rw [State.word, setBytes_regs, State.word]⟩

end

section
variable {L : Nat} (hL : L = 0x14 ∨ L = 0x15) (s : State)
include hL

theorem accAdd (o k n : Nat) : SamePort L s (s.accAdd o k n) := of_noted hL (accAdd_regsBut s (List.Subset.refl _) o k n) (noted_accAdd s o k n)

theorem bankError {b : Nat} (hb : b < 20) (a n : Nat) : SamePort L s (s.bankError b a n) :=
  of_noted hL (bankFinds_regsBut s (List.Subset.refl _) (fun u o => accAdd_regsBut u (List.Subset.refl _) o 2 1) hb _ n)
    (noted_bankFinds s _ (fun u o => noted_accAdd u o 2 1) b _ n)

theorem gateTimes : SamePort L s s.gateTimes := by
  have hsince (u : State) (n : Fin 16) (g : Laser → Laser) : SamePort L u (u.setLaser n g) := refl L u
  exact each (fun u n => ite ((accAdd hL u _ _ _).trans (hsince _ n _)) (refl L u)) _ s

theorem readBank {b : Nat} (hb : b < 20) (a n : Nat) : SamePort L s (s.readBank b a n).1 := by
  have hfree (u : State) (k : Nat) : SamePort L u { u with freeCtr := k } := refl L u
  exact (each (fun u _ => bankError hL u hb _ _) _ s).trans (hfree _ _)

omit hL in
theorem fillBuf (a n : Nat) : SamePort L s (s.fillBuf a n) := by
  have hfree (u : State) (k : Nat) : SamePort L u { u with freeCtr := k } := refl L u
  have hknown (u : State) (g : RecSt) : SamePort L u { u with rcd := g } := refl L u
  exact (each (fun u _ => (setBytes u _ _).trans (hfree _ _)) _ s).trans (hknown _ _)

theorem writeBank {b : Nat} (hb : b < 20) (a : Nat) (l : List Byte) : SamePort L s (s.writeBank b a l) :=
  ((each (fun u _ => bankError hL u hb _ _) _ s).trans (ite (fillBuf _ _ _) (refl L _))).trans (setBytes _ _ _)

theorem readRegs (n : Nat) : ∀ (s : State) (addr : Nat), SamePort L s (Machine.readRegs s addr n).1 := by
  induction n with
  | zero => exact fun s _ => refl L s
  | succ n ih => exact fun s addr => (samePort_readEffect hL s addr).trans (ih _ _)

end

end SamePort

theorem bankAt_lt {a b : Nat} (h : bankAt a = some b) : b < 20 := by
  unfold bankAt at h
  split at h
  · cases h
    omega
  · split at h
    · cases h
      decide
    · split at h
      · cases h
        decide
      · split at h
        · cases h
          decide
        · split at h
          · cases h
            decide
          · cases h

/-- No bank lies in the DRAM window. -/
theorem bankAt_dram {a : Nat} (h : dramBase ≤ a) : bankAt a = none := by
  simp only [dramBase] at h
  unfold bankAt
  rw [if_neg (by omega), if_neg (by simp only [servoBank]; omega), if_neg (by simp only [visionBank]; omega),
    if_neg (by simp only [recordBank]; omega), if_neg (by simp only [xchBank]; omega)]

/-- The stored bytes of a bank write are the last thing it does. -/
theorem writeBank_byte (s : State) (b a : Nat) {l : List Byte} {k : Nat} (hk : k < l.length) : (s.writeBank b a l).byte (a + k) = l[k] :=
  byte_setBytes_inside l _ a k hk

/-- Putting a bank write in the order of its cycle stores nothing, and changes HOST_B's completions alone. -/
theorem portOrder_bank {s s1 : State} {q : Txn} (ha : 0x100000 ≤ q.addr) :
    (s.portOrder s1 q).pwr = s1.pwr ∧ (s.portOrder s1 q).lanes[hostLane q.port] = s1.lanes[hostLane q.port] ∧
      (s.portOrder s1 q).word = s1.word ∧ (s.portOrder s1 q).byte = s1.byte := by
  have hreg : ¬ q.addr < 0x100000 := by omega
  have hlater : (s.laterReads s1 q).byte = s1.byte := by
    unfold State.laterReads
    dsimp only
    split <;> rfl
  unfold State.portOrder
  dsimp only
  rw [decide_eq_false hreg]
  split
  · next hp =>
    obtain ⟨hpwr, hlane, hword⟩ := laterReads_frame s s1 hp
    exact ⟨hpwr, hlane, hword, hlater⟩
  · exact ⟨rfl, rfl, rfl, rfl⟩

end Sys2Proof.Proofs
end
section
/-! PROOFS. What a host access to DRAM leaves of its port and of the bytes of its page (R346 to R353). -/

namespace Sys2Proof.Proofs

open Sys2Proof.Machine Sys2Proof.Laws

/-! ### The address map (R346, R347) -/

/-- A local address of a controller, once mapped and taken back, is what it was wherever it still lies in that controller. -/
theorem dramMap_dramUnmap (interleave cap : Nat) (i : Fin 2) (l : Nat) (h : (dramMap interleave cap (dramUnmap interleave cap i l - dramBase)).1 = i) :
    (dramMap interleave cap (dramUnmap interleave cap i l - dramBase)).2 = l := by
  have hi := i.isLt
  unfold dramUnmap at h ⊢
  rw [Nat.add_sub_cancel_left] at h ⊢
  unfold dramMap at h ⊢
  dsimp only at h ⊢
  split
  · omega
  · split
    · omega
    · next h0 h1 =>
      rw [if_neg h0, if_neg h1, if_neg h0, if_neg h1] at h
      split at h
      · next hlt =>
        have h0 : i.val = 0 := congrArg Fin.val h.symm
        rw [if_pos hlt]
        simp only [h0, Nat.zero_mul, Nat.zero_add]
      · next hge =>
        have h1 : i.val = 1 := congrArg Fin.val h.symm
        rw [if_neg hge]
        simp only [h1, Nat.one_mul, Nat.add_sub_cancel_left]

/-- The addresses of one page of 4 KiB lie in one controller. -/
theorem dramMap_page {interleave cap a b : Nat} (hcap : 4096 ∣ cap) (h : a / 4096 = b / 4096) :
    (dramMap interleave cap a).1 = (dramMap interleave cap b).1 := by
  obtain ⟨c, rfl⟩ := hcap
  have hpages (k : Nat) : a / 4096 / k = b / 4096 / k := by rw [h]
  unfold dramMap
  dsimp only
  split
  · exact Fin.ext (by simp only [Nat.reducePow]; omega)
  · split
    · exact Fin.ext (by simp only [Nat.reducePow]; omega)
    · have hside : a < 4096 * c ↔ b < 4096 * c := by omega
      by_cases ha : a < 4096 * c
      · rw [if_pos ha, if_pos (hside.mp ha)]
      · rw [if_neg ha, if_neg fun hb => ha (hside.mpr hb)]

/-! ### What is kept -/

/-- The registers by which the DRAM address map and the use of check bytes are set (R346 to R348). -/
def mapRegs : List Nat := [regAddr (Pg.DRAM 0) 0x040, regAddr (Pg.DRAM 1) 0x040, regAddr Pg.DTRAIN 0x040]

/-- The registers that an access of host port `port` to DRAM leaves. -/
def keptRegs (port : Nat) : List Nat := portRegs (lanePage (hostLane port)) ++ mapRegs

/-- `u` has the lane of host port `port`, the power state, those registers, and the bytes at the addresses in `A`, as `s` has them. -/
structure DramKeeps (port : Nat) (A : Nat → Prop) (s u : State) : Prop where
  lane : u.lanes[hostLane port] = s.lanes[hostLane port]
  pwr : u.pwr = s.pwr
  words : ∀ a ∈ keptRegs port, u.word a = s.word a
  bytes : ∀ a, A a → u.byte a = s.byte a

/-- Every byte. -/
def everywhere (_ : Nat) : Prop := True

/-- No byte. -/
def nowhere (_ : Nat) : Prop := False

/-- No register of a page from 0x16 on is one of those kept. -/
theorem kept_far (port : Nat) {p o : Nat} (hp : 0x16 ≤ p) (ho : o < 0x1000) : regAddr p o ∉ keptRegs port := by
  have hport : regAddr p o ∉ portRegs (lanePage (hostLane port)) := SamePort.notPort_far (hostPage port) (.inl hp) ho
  have hmap : regAddr p o ∉ mapRegs := by
    intro h
    simp only [mapRegs, List.mem_cons, List.not_mem_nil, or_false, regAddr, Pg.DRAM, Pg.DTRAIN] at h
    omega
  exact fun h => (List.mem_append.mp h).elim hport hmap

/-- The configuration of a DRAM controller is kept, its other registers are not. -/
theorem kept_dram (port : Nat) (i : Fin 2) {o : Nat} (ho : o < 0x1000) (hne : o ≠ 0x040) : regAddr (Pg.DRAM i) o ∉ keptRegs port := by
  have hpage : regAddr (Pg.DRAM i) o / 0x1000 = Pg.DRAM i := regAddr_page ho
  have hport : regAddr (Pg.DRAM i) o ∉ portRegs (lanePage (hostLane port)) := by
    refine SamePort.notPort ?_ ?_
    · rw [hpage]
      simp only [Pg.DRAM, Pg.PWR]
      omega
    · rw [hpage]
      have := hostPage port
      simp only [Pg.DRAM]
      omega
  have hmap : regAddr (Pg.DRAM i) o ∉ mapRegs := by
    intro h
    simp only [mapRegs, List.mem_cons, List.not_mem_nil, or_false, regAddr, Pg.DRAM, Pg.DTRAIN] at h
    omega
  exact fun h => (List.mem_append.mp h).elim hport hmap

theorem kept_errorRegs (port : Nat) : ∀ a ∈ errorRegs, a ∉ keptRegs port := by
  unfold keptRegs
  rcases hostPage port with h | h
  · rw [h]
    decide
  · rw [h]
    decide

namespace DramKeeps

section
variable {port : Nat} {A : Nat → Prop} {s u v : State}

theorem refl (s : State) : DramKeeps port A s s := ⟨rfl, rfl, fun _ _ => rfl, fun _ _ => rfl⟩

theorem trans (h : DramKeeps port A s u) (k : DramKeeps port A u v) : DramKeeps port A s v where
  lane := k.lane.trans h.lane
  pwr := k.pwr.trans h.pwr
  words a ha := (k.words a ha).trans (h.words a ha)
  bytes a ha := (k.bytes a ha).trans (h.bytes a ha)

theorem mono {B : Nat → Prop} (h : DramKeeps port A s u) (hB : ∀ a, B a → A a) : DramKeeps port B s u :=
  ⟨h.lane, h.pwr, h.words, fun a ha => h.bytes a (hB a ha)⟩

/-- What keeps every byte keeps those at any addresses. -/
theorem some (h : DramKeeps port everywhere s u) : DramKeeps port A s u := h.mono fun _ _ => trivial

theorem ite {c : Prop} [Decidable c] (h : DramKeeps port A s u) (k : DramKeeps port A s v) : DramKeeps port A s (if c then u else v) := by
  split
  · exact h
  · exact k

/-- A repetition whose every step keeps what stood at its start. -/
theorem each_from {α : Type} {g : State → α → State} (l : List α) (hg : ∀ u, DramKeeps port A s u → ∀ x ∈ l, DramKeeps port A u (g u x)) :
    DramKeeps port A s (s.each l g) := by
  have hall : ∀ (r : List α) (u : State), (∀ x ∈ r, x ∈ l) → DramKeeps port A s u → DramKeeps port A s (u.each r g) := by
    intro r
    induction r with
    | nil => exact fun u _ hu => hu
    | cons x r ih => exact fun u hr hu => ih _ (fun y hy => hr y (.tail _ hy)) (hu.trans (hg u hu x (hr x (.head _))))
  exact hall l s (fun _ h => h) (refl s)

theorem each {α : Type} {g : State → α → State} (hg : ∀ u x, DramKeeps port A u (g u x)) (l : List α) (s : State) : DramKeeps port A s (s.each l g) :=
  each_from l fun u _ x _ => hg u x

theorem laneUp (h : DramKeeps port A s u) : u.laneUp (hostLane port).val = s.laneUp (hostLane port).val :=
  SamePort.laneUp_congr h.pwr fun a ha => h.words a (List.mem_append_left _ ha)

/-! The address map is as it was. -/

theorem mapF (h : DramKeeps port A s u) {p : Nat} {fl : Fld} (hreg : regAddr p fl.off ∈ mapRegs) : u.f p fl = s.f p fl := by
  rw [f_word, f_word, h.words _ (List.mem_append_right _ hreg)]

theorem dramCap (h : DramKeeps port A s u) : u.dramCap = s.dramCap := by rw [State.dramCap, h.mapF (by decide), State.dramCap]

theorem dramLoc (h : DramKeeps port A s u) (a : Nat) : u.dramLoc a = s.dramLoc a := by
  rw [State.dramLoc, h.mapF (by decide), h.dramCap, State.dramLoc]

theorem dramAddr (h : DramKeeps port A s u) (i : Fin 2) (l : Nat) : u.dramAddr i l = s.dramAddr i l := by
  rw [State.dramAddr, h.mapF (by decide), h.dramCap, State.dramAddr]

theorem eccEn (h : DramKeeps port A s u) (i : Fin 2) : u.fb (Pg.DRAM i) Reg.DRAM_CFG_ECC_EN = s.fb (Pg.DRAM i) Reg.DRAM_CFG_ECC_EN := by
  have hreg : ∀ i : Fin 2, regAddr (Pg.DRAM i) Reg.DRAM_CFG_ECC_EN.off ∈ mapRegs := by decide
  exact fb_congr (h.mapF (hreg i))

/-- An operation that notes and records, and writes none of those registers and no byte of DRAM. -/
theorem of_noted {l : List Nat} (h : RegsBut l s u) (hl : ∀ a ∈ l, a ∉ keptRegs port) (hn : Noted s u) : DramKeeps port nowhere s u :=
  ⟨by rw [hn], by rw [hn], fun a ha => h a fun hin => hl a hin ha, fun _ => False.elim⟩

end

section
variable {port : Nat} {A : Nat → Prop} (s : State)

theorem setWord {a : Nat} (w : Word) (h : a ∉ keptRegs port) : DramKeeps port A s (s.setWord a w) :=
  ⟨rfl, rfl, fun b hb => by rw [word_setWord, if_neg (ne_of_mem_of_not_mem hb h)], fun _ _ => rfl⟩

theorem setDram (i : Fin 2) (g : DramSt → DramSt) : DramKeeps port A s (s.setDram i g) := ⟨rfl, rfl, fun _ _ => rfl, fun _ _ => rfl⟩

theorem setBrush (b : Fin 16) (g : Brush → Brush) : DramKeeps port A s (s.setBrush b g) := ⟨rfl, rfl, fun _ _ => rfl, fun _ _ => rfl⟩

/-- A register of a controller other than its configuration is written. -/
theorem setF (i : Fin 2) {fl : Fld} (v : Nat) (ho : fl.off < 0x1000 := by decide) (hne : fl.off ≠ 0x040 := by decide) :
    DramKeeps port A s (s.setF (Pg.DRAM i) fl v) := setWord s _ (kept_dram port i ho hne)

theorem inc (i : Fin 2) {fl : Fld} (n : Nat) (ho : fl.off < 0x1000 := by decide) (hne : fl.off ≠ 0x040 := by decide) :
    DramKeeps port A s (s.inc (Pg.DRAM i) fl n) := setF s i _ ho hne

theorem accAdd (o k n : Nat) : DramKeeps port nowhere s (s.accAdd o k n) :=
  of_noted (accAdd_regsBut s (List.Subset.refl _) o k n) (kept_errorRegs port) (noted_accAdd s o k n)

theorem declare (bit : Nat) : DramKeeps port nowhere s (s.declare bit) :=
  of_noted (declare_regsBut s (List.Subset.refl _) bit) (kept_errorRegs port) (noted_declare s bit)

theorem noted_dram (i : Fin 2) : ∀ a ∈ noted (Pg.DRAM i), a ∉ keptRegs port := by
  intro a ha
  simp only [noted, List.mem_cons, List.not_mem_nil, or_false] at ha
  rcases ha with rfl | rfl | rfl
  · exact kept_dram port i (by decide) (by decide)
  · exact kept_dram port i (by decide) (by decide)
  · refine kept_errorRegs port _ (by decide)

theorem ev! (i : Fin 2) (k : Nat) : DramKeeps port nowhere s (s.ev! (Pg.DRAM i) k) :=
  of_noted (ev_leaves s (List.Subset.refl _) k).words (noted_dram i) (noted_event s _ _ _)

theorem sticky! (i : Fin 2) (k : Nat) : DramKeeps port nowhere s (s.sticky! (Pg.DRAM i) k) :=
  of_noted (sticky_leaves s (List.Subset.refl _) k).words (noted_dram i) (noted_sticky s _ _ _)

/-! ### Reads (R353) -/

theorem readGranule (cls who : Nat) (q : Nat × Nat) : DramKeeps port everywhere s (s.readGranule cls who q) := by
  unfold State.readGranule
  split
  dsimp only
  split
  · exact ite (inc s _ _) (setDram s _ _)
  · exact setDram s _ _

theorem dramRead (cls who a n : Nat) : DramKeeps port everywhere s (s.dramRead cls who a n) :=
  ite (each (fun u q => readGranule u cls who q) _ s) (refl s)

/-- A write that a brush's poll of NEXT sees. -/
theorem nextSees (a n : Nat) : DramKeeps port everywhere s (s.nextSees a n) := by
  have htry (u : State) (b : Fin 16) : DramKeeps port everywhere u (u.tryNext b) := by
    unfold State.tryNext
    dsimp only
    split
    · exact ite ((dramRead u _ _ _ _).trans (setBrush _ _ _)) (refl u)
    · exact refl u
  have hchain (u : State) (b : Fin 16) : DramKeeps port everywhere u (u.setB (Pg.BRUSH b) Reg.BRUSH_STATUS_CHAIN_ENDED false) :=
    setWord u _ (kept_far port (by simp only [Pg.BRUSH]; omega) (by decide))
  refine each (fun u b => ?_) _ s
  split
  · exact ite (((setBrush u b _).trans (hchain _ b)).trans (htry _ b)) (refl u)
  · exact refl u

end

end DramKeeps

end Sys2Proof.Proofs
end
section
/-! PROOFS. A host write to DRAM stores its bytes, whatever leaves the write queue with it (R346 to R353). -/

namespace Sys2Proof.Proofs

open Sys2Proof.Machine Sys2Proof.Laws

/-- Address `x` lies in DRAM controller `i`, outside its check bytes where it keeps them (R346, R348). -/
def Placed (s : State) (i : Fin 2) (x : Nat) : Prop :=
  dramBase ≤ x ∧ (s.dramLoc x).1 = i ∧ (s.fb (Pg.DRAM i) Reg.DRAM_CFG_ECC_EN = true → (s.dramLoc x).2 < 7 * s.dramCap / 8)

/-- A usable address is placed in the controller it maps to. -/
theorem placed_of_usable {s : State} {x : Nat} (h : s.dramUsable x = true) : Placed s (s.dramLoc x).1 x := by
  unfold State.dramUsable at h
  obtain ⟨hrange, hecc⟩ := Bool.and_eq_true_iff.mp h
  refine ⟨(of_decide_eq_true hrange).1, rfl, fun hen => ?_⟩
  rw [hen] at hecc
  exact of_decide_eq_true hecc

/-- The local address of a placed byte is not one of a check byte of its controller. -/
theorem ne_dramAddr_of_placed {s : State} {i : Fin 2} {x l : Nat} (hx : Placed s i x) (hen : s.fb (Pg.DRAM i) Reg.DRAM_CFG_ECC_EN = true)
    (hl : 7 * s.dramCap / 8 ≤ l) : x ≠ s.dramAddr i l := by
  obtain ⟨-, hloc, hlow⟩ := hx
  rintro rfl
  have hlocal : (s.dramLoc (s.dramAddr i l)).2 = l := dramMap_dramUnmap _ _ i l hloc
  have := hlow hen
  omega

/-- The capacity of a controller is whole pages. -/
theorem dramCap_pages (s : State) : 4096 ∣ s.dramCap := by
  have h : (2 : Nat) ^ 12 ∣ 2 ^ (30 + s.f (Pg.DRAM 0) Reg.DRAM_CFG_DENSITY) := Nat.pow_dvd_pow 2 (by omega)
  exact h

/-- The addresses of one page of DRAM lie in one controller. -/
theorem dramLoc_page {s : State} {x y : Nat} (hx : dramBase ≤ x) (hy : dramBase ≤ y) (h : x / 4096 = y / 4096) : (s.dramLoc x).1 = (s.dramLoc y).1 := by
  refine dramMap_page (dramCap_pages s) ?_
  simp only [dramBase] at *
  omega

/-- The granules of a range that crosses no page of 4 KiB lie in its page. -/
theorem granules_page {a n : Nat} (ha : dramBase ≤ a) (h : a / 4096 = (a + n - 1) / 4096) {q : Nat × Nat} (hq : q ∈ granules a n) :
    dramBase ≤ q.1 ∧ q.1 / 4096 = a / 4096 := by
  unfold granules at hq
  split at hq
  · cases hq
  · obtain ⟨k, hk, rfl⟩ := List.mem_map.mp hq
    have hk := List.mem_range.mp hk
    simp only [dramBase] at *
    omega

/-! ### Merging (R353) -/

/-- One byte of a write that merges before another: it is stored but where `kept` holds. -/
def mergeStep (kept : Nat → Bool) (q : State × Nat) (b : Byte) : State × Nat := (if kept q.2 then q.1 else q.1.setByte q.2 b, q.2 + 1)

/-- A write of order `o` leaves the byte at `k` to a write of the same cycle that merges after it. -/
def mergeKept (s : State) (o k : Nat) : Bool :=
  (if s.dramCycle.cycle = s.now / 16 then s.dramCycle.writes else []).any fun w => decide (o < w.1 ∧ w.2.1 ≤ k ∧ k < w.2.1 + w.2.2)

namespace DramKeeps

section
variable {port : Nat} (s : State)

/-- A byte is stored, at none of the addresses in `A`. -/
theorem setByte {A : Nat → Prop} (a : Nat) (v : Byte) (h : ∀ x, A x → x ≠ a) : DramKeeps port A s (s.setByte a v) :=
  ⟨rfl, rfl, fun _ _ => rfl, fun x hx => by rw [byte_setByte, if_neg (h x hx)]⟩

theorem setBytes (a : Nat) (l : List Byte) : DramKeeps port nowhere s (s.setBytes a l) :=
  ⟨congrArg (·[hostLane port]) (setBytes_lanes l s a), setBytes_pwr l s a, fun b _ => by rw [State.word, setBytes_regs, State.word], fun _ => False.elim⟩

theorem mergeSteps (kept : Nat → Bool) (l : List Byte) : ∀ (s : State) (a : Nat), DramKeeps port nowhere s (l.foldl (mergeStep kept) (s, a)).1 := by
  induction l with
  | nil => exact fun s _ => refl s
  | cons b r ih => exact fun s a => (ite (refl s) (setByte s a b fun _ => False.elim)).trans (ih _ _)

/-- Where a write merges first or after others, it changes bytes, their errors and the record of the cycle's writes alone. -/
theorem mergeBytes (o a : Nat) (l : List Byte) : DramKeeps port nowhere s (s.mergeBytes o a l) := by
  have hcycle (u : State) (c : DramCycle) : DramKeeps port nowhere u { u with dramCycle := c } := ⟨rfl, rfl, fun _ _ => rfl, fun _ => False.elim⟩
  unfold State.mergeBytes
  refine DramKeeps.trans ?_ (hcycle _ _)
  exact ite (mergeSteps (mergeKept s o) l s a) (setBytes s a l)

end

end DramKeeps

/-- Bytes below those of a merging write stay. -/
theorem byte_mergeSteps_below (kept : Nat → Bool) (l : List Byte) :
    ∀ (s : State) (a b : Nat), b < a → (l.foldl (mergeStep kept) (s, a)).1.byte b = s.byte b := by
  induction l with
  | nil => exact fun _ _ _ _ => rfl
  | cons v r ih =>
    intro s a b hb
    rw [List.foldl_cons, mergeStep, ih _ _ _ (by omega)]
    split
    · rfl
    · rw [byte_setByte, if_neg (by omega)]

/-- A merging write stores every byte that is not kept. -/
theorem byte_mergeSteps (kept : Nat → Bool) (l : List Byte) :
    ∀ (s : State) (a k : Nat) (hk : k < l.length), kept (a + k) = false → (l.foldl (mergeStep kept) (s, a)).1.byte (a + k) = l[k] := by
  induction l with
  | nil => exact fun _ _ _ hk => absurd hk (Nat.not_lt_zero _)
  | cons v r ih =>
    intro s a k hk hkept
    cases k with
    | zero =>
      rw [List.foldl_cons, mergeStep, byte_mergeSteps_below kept r _ _ _ (by omega)]
      rw [Nat.add_zero] at hkept ⊢
      dsimp only
      rw [if_neg (ne_true_of_eq_false hkept), byte_setByte, if_pos rfl, List.getElem_cons_zero]
    | succ k =>
      rw [List.foldl_cons, mergeStep, show a + (k + 1) = a + 1 + k by omega, ih _ _ k (Nat.lt_of_succ_lt_succ hk) (by rw [← hkept]; congr 1; omega),
        List.getElem_cons_succ]

/-- A write stores its bytes one by one where others merge after it, and else at once. -/
theorem mergeBytes_byte (s : State) (o a : Nat) (l : List Byte) :
    (s.mergeBytes o a l).byte = (l.foldl (mergeStep (mergeKept s o)) (s, a)).1.byte ∨ (s.mergeBytes o a l).byte = (s.setBytes a l).byte :=
  (apply_ite State.byte _ _ _).symm.subst (motive := fun g => g = _ ∨ g = _) (ite_eq_or_eq _ _ _)

/-- R353: a byte that no write of the same cycle covers which merges after it is stored. -/
theorem byte_mergeBytes (s : State) (o a : Nat) (l : List Byte) {k : Nat} (hk : k < l.length)
    (h : s.dramCycle.cycle = s.now / 16 → ∀ w ∈ s.dramCycle.writes, o < w.1 → ¬ (w.2.1 ≤ a + k ∧ a + k < w.2.1 + w.2.2)) :
    (s.mergeBytes o a l).byte (a + k) = l[k] := by
  rcases mergeBytes_byte s o a l with hbyte | hbyte
  · rw [hbyte]
    refine byte_mergeSteps (mergeKept s o) l s a k hk (List.any_eq_false.mpr fun w hw => ?_)
    rw [decide_eq_true_eq]
    rintro ⟨ho, hin⟩
    split at hw
    · next hc => exact h hc w hw ho hin
    · cases hw
  · rw [hbyte]
    exact byte_setBytes_inside l s a k hk

/-! ### The write queue (R348, R351 to R354) -/

namespace DramKeeps

section
variable {port : Nat} {i : Fin 2} {s u v : State}

theorem placed {A : Nat → Prop} (h : DramKeeps port A s u) (i : Fin 2) : Placed u i = Placed s i := by
  funext x
  rw [Placed, h.dramLoc, h.eccEn, h.dramCap, Placed]

/-- Two operations in turn, each of which keeps what is placed at its start. -/
theorem next (h : DramKeeps port (Placed s i) s u) (k : DramKeeps port (Placed u i) u v) : DramKeeps port (Placed s i) s v :=
  h.trans (h.placed i ▸ k)

end

section
variable {port : Nat} {i : Fin 2} (s : State)

theorem checkOut (hen : s.fb (Pg.DRAM i) Reg.DRAM_CFG_ECC_EN = true) (c : Nat) : DramKeeps port (Placed s i) s (s.checkOut i c) := by
  refine each_from _ fun u hu k _ => setByte u _ _ fun x hx => ?_
  rw [hu.dramAddr, hu.dramCap]
  exact ne_dramAddr_of_placed hx hen (by omega)

theorem checkUse (g : Nat) (write : Bool) : DramKeeps port (Placed s i) s (s.checkUse i g write) := by
  unfold State.checkUse
  split
  · next hen =>
    dsimp only
    split
    · exact next (setDram s _ _) (checkOut (s.setDram i _) hen _)
    · exact setDram s _ _
  · exact refl s

theorem activate (g : Nat) : DramKeeps port everywhere s (s.activate i g) := by
  unfold State.activate
  dsimp only
  split
  · exact setDram s _ _
  · split
    · split
      · exact (setDram s _ _).trans (inc _ _ _)
      · exact setDram s _ _
    · exact setDram s _ _

theorem latPeak (cls since : Nat) : DramKeeps port everywhere s (s.latPeak i cls since) := by
  unfold State.latPeak
  dsimp only
  split
  · exact setF s _ _
  · split
    · exact setF s _ _
    · split
      · exact setF s _ _
      · exact setF s _ _

theorem dramShow : DramKeeps port everywhere s (s.dramShow i) := (setF s i _).trans (setF _ i _)

theorem lateCompare (g : Nat) : DramKeeps port everywhere s (s.lateCompare i g) := by
  unfold State.lateCompare
  split
  · exact (setDram s _ _).trans (inc _ _ _)
  · exact refl s

theorem serveWrite (w : WqEntry) : DramKeeps port (Placed s i) s (s.serveWrite i w) := by
  refine next (u := ((s.activate i w.gran).checkUse i w.gran true)) (next (activate s w.gran).some (checkUse _ _ _)) ?_
  exact (((setDram _ _ _).trans (inc _ _ _)).trans (latPeak _ _ _)).some

theorem writeOut : DramKeeps port (Placed s i) s (s.writeOut i) := by
  unfold State.writeOut
  split
  · exact serveWrite s _
  · exact refl s

theorem writeGranule (cls who : Nat) {q : Nat × Nat} (hi : (s.dramLoc q.1).1 = i) : DramKeeps port (Placed s i) s (s.writeGranule cls who q) := by
  unfold State.writeGranule
  subst hi
  dsimp only
  refine next (setDram s _ _) (next (ite (setDram _ _ _) ?_) (lateCompare _ _).some)
  exact next (ite (writeOut _) (refl _)) ((setDram _ _ _).trans (dramShow _)).some

/-- The granules of a range that lies in one page enter one controller. -/
theorem writeGranules (cls who : Nat) {a n : Nat} (ha : dramBase ≤ a) (h : a / 4096 = (a + n - 1) / 4096) (hi : (s.dramLoc a).1 = i) :
    DramKeeps port (Placed s i) s (s.each (granules a n) fun u q => u.writeGranule cls who q) := by
  refine each_from _ fun u hu q hq => ?_
  obtain ⟨hq, hpage⟩ := granules_page ha h hq
  rw [← hu.placed i]
  exact writeGranule u cls who (by rw [hu.dramLoc, dramLoc_page hq ha hpage, hi])

/-! ### The write -/

theorem dramFinds (e : Nat × Nat) : DramKeeps port nowhere s (s.dramFinds e) := by
  unfold State.dramFinds
  split
  dsimp only
  split
  · exact (((inc s _ _).trans (ev! _ _ _)).trans (accAdd _ _ _ _)).trans (setDram _ _ _)
  · refine DramKeeps.trans ?_ (setF _ _ _)
    refine DramKeeps.trans ?_ (setF _ _ _)
    refine DramKeeps.trans ?_ (setF _ _ _)
    refine DramKeeps.trans ?_ (setF (fl := Reg.DRAM_LAST_ERR_VALID) _ _ _)
    exact ((((inc s _ _).trans (accAdd _ _ _ _)).trans (sticky! _ _ _)).trans (ev! _ _ _)).trans (declare _ _)

theorem mergeRead (a n : Nat) : DramKeeps port nowhere s (s.mergeRead a n) := each dramFinds _ s

end

end DramKeeps

end Sys2Proof.Proofs
end
section
/-! PROOFS. A host write to DRAM leaves its bytes stored (R346 to R353). -/

namespace Sys2Proof.Proofs

open Sys2Proof.Machine Sys2Proof.Laws

theorem hostLane_page (port : Nat) : lanePage (hostLane port) = Pg.LINK (port % 2) := if_pos (show port % 2 < 4 by omega)

theorem setLane_other (s : State) {l m : Fin 20} (g : Lane → Lane) (h : l ≠ m) : (s.setLane l g).lanes[m] = s.lanes[m] :=
  Vector.getElem_set_ne l.isLt m.isLt fun hv => h (Fin.ext hv)

/-! ### The time and the writes of the cycle -/

/-- `u` has the time and the cycle's DRAM writes of `s`. -/
def SameDramCycle (s u : State) : Prop := u.time = s.time ∧ u.dramCycle = s.dramCycle

namespace SameDramCycle

theorem refl (s : State) : SameDramCycle s s := ⟨rfl, rfl⟩

theorem trans {s u v : State} (h : SameDramCycle s u) (k : SameDramCycle u v) : SameDramCycle s v := ⟨k.1.trans h.1, k.2.trans h.2⟩

theorem of_noted {s u : State} (h : Noted s u) : SameDramCycle s u := ⟨by rw [h], by rw [h]⟩

theorem setDram (s : State) (i : Fin 2) (g : DramSt → DramSt) : SameDramCycle s (s.setDram i g) := ⟨rfl, rfl⟩

theorem dramFinds (s : State) (e : Nat × Nat) : SameDramCycle s (s.dramFinds e) := by
  unfold State.dramFinds
  split
  dsimp only
  split
  · refine SameDramCycle.trans (of_noted ?_) (setDram _ _ _)
    exact ((noted_inc _ _ _ _).trans (noted_event _ _ _ _)).trans (noted_accAdd _ _ _ _)
  · refine of_noted (Noted.trans ?_ (noted_setF _ _ _ _))
    refine Noted.trans ?_ (noted_setF _ _ _ _)
    refine Noted.trans ?_ (noted_setF _ _ _ _)
    refine Noted.trans ?_ (noted_setB _ _ _ _)
    exact ((((noted_inc _ _ _ _).trans (noted_accAdd _ _ _ _)).trans (noted_sticky _ _ _ _)).trans (noted_event _ _ _ _)).trans (noted_declare _ _)

theorem mergeRead (s : State) (a n : Nat) : SameDramCycle s (s.mergeRead a n) := by
  have hall : ∀ (l : List (Nat × Nat)) (u : State), SameDramCycle u (u.each l State.dramFinds) := by
    intro l
    induction l with
    | nil => exact refl
    | cons e r ih => exact fun u => (dramFinds u e).trans (ih _)
  exact hall _ s

end SameDramCycle

/-! ### The write -/

/-- R353: the host's own reads do not see its write, so it leaves its port's completions. -/
theorem DramKeeps.readsSee {port : Nat} (s : State) (a n : Nat) : DramKeeps port everywhere s (s.readsSee (Pg.LINK (port % 2)) a n) := by
  refine DramKeeps.each (fun u l => ?_) _ s
  split
  · exact refl u
  · next hwho =>
    have hother : l ≠ hostLane port := by
      rintro rfl
      exact hwho (hostLane_page port).symm
    exact ite ⟨setLane_other u _ hother, rfl, fun _ _ => rfl, fun _ _ => rfl⟩ (refl u)

/-- A host write of a range of one page of DRAM in use keeps its port, and stores each byte that no write of the same cycle covers which merges
after it. -/
theorem dramWrite_stores {port : Nat} {s : State} {cls a : Nat} {l : List Byte} (hon : s.dramOn = true) (ha : dramBase ≤ a)
    (hpage : a / 4096 = (a + l.length - 1) / 4096) (huse : ∀ k < l.length, s.dramUsable (a + k) = true) :
    DramKeeps port nowhere s (s.dramWrite cls (Pg.LINK (port % 2)) a l) ∧
      ∀ k (hk : k < l.length), (s.dramCycle.cycle = s.now / 16 →
        ∀ w ∈ s.dramCycle.writes, mergeOrder cls (Pg.LINK (port % 2)) < w.1 → ¬ (w.2.1 ≤ a + k ∧ a + k < w.2.1 + w.2.2)) →
        (s.dramWrite cls (Pg.LINK (port % 2)) a l).byte (a + k) = l[k] := by
  obtain ⟨htime, hcycle⟩ := SameDramCycle.mergeRead s a l.length
  have hread : DramKeeps port nowhere s (s.mergeRead a l.length) := .mergeRead s a l.length
  have hmerge := hread.trans (.mergeBytes _ (mergeOrder cls (Pg.LINK (port % 2))) a l)
  have hsee := DramKeeps.readsSee (port := port) ((s.mergeRead a l.length).mergeBytes (mergeOrder cls (Pg.LINK (port % 2))) a l) a l.length
  have hboth := hmerge.trans hsee.some
  have hqueue := DramKeeps.writeGranules (port := port)
    (((s.mergeRead a l.length).mergeBytes (mergeOrder cls (Pg.LINK (port % 2))) a l).readsSee (Pg.LINK (port % 2)) a l.length)
    cls (Pg.LINK (port % 2)) ha hpage rfl
  unfold State.dramWrite
  rw [if_pos hon]
  dsimp only [State.when]
  rw [if_pos (decide_eq_true ha)]
  refine ⟨hboth.trans (hqueue.mono fun _ => False.elim), fun k hk hfree => ?_⟩
  have hplaced : Placed s (s.dramLoc a).1 (a + k) := by
    have hpage' : (a + k) / 4096 = a / 4096 := by omega
    rw [← dramLoc_page (Nat.le_add_right_of_le ha) ha hpage']
    exact placed_of_usable (huse k hk)
  rw [hqueue.bytes _ (by rw [hboth.placed, hboth.dramLoc]; exact hplaced), hsee.bytes _ trivial]
  refine byte_mergeBytes _ _ _ _ hk ?_
  rw [State.now, htime, hcycle]
  exact hfree

end Sys2Proof.Proofs
end
section
/-! PROOFS. A transaction that takes effect on arrival, and its completion (R87, R89). -/

namespace Sys2Proof.Proofs

open Sys2Proof.Machine Sys2Proof.Laws

/-! ### What the effect of a transaction leaves its port -/

/-- `u` has the lane of host port `port`, the power state and the port's registers as `s` has them. -/
structure KeepsPort (port : Nat) (s u : State) : Prop where
  lane : u.lanes[hostLane port] = s.lanes[hostLane port]
  pwr : u.pwr = s.pwr
  words : ∀ a ∈ portRegs (lanePage (hostLane port)), u.word a = s.word a

theorem DramKeeps.keepsPort {port : Nat} {A : Nat → Prop} {s u : State} (h : DramKeeps port A s u) : KeepsPort port s u :=
  ⟨h.lane, h.pwr, fun a ha => h.words a (List.mem_append_left _ ha)⟩

theorem SamePort.keepsPort {port : Nat} {s u : State} (h : SamePort (lanePage (hostLane port)) s u) : KeepsPort port s u :=
  ⟨congrArg (·[hostLane port]) h.1, h.2.1, h.2.2⟩

theorem KeepsPort.laneUp {port : Nat} {s u : State} (h : KeepsPort port s u) : u.laneUp (hostLane port).val = s.laneUp (hostLane port).val :=
  SamePort.laneUp_congr h.pwr h.words

theorem KeepsPort.postedDone {port : Nat} {s u : State} (h : KeepsPort port s u) :
    u.f (lanePage (hostLane port)) Reg.FRAME_FRAME_STATUS_POSTED_DONE = s.f (lanePage (hostLane port)) Reg.FRAME_FRAME_STATUS_POSTED_DONE := by
  rw [f_word, f_word, h.words _ (postedDone_portRegs _)]

/-! ### The state that counts it -/

theorem counted_byte (s : State) (q : Txn) (a : Nat) : (s.counted q).byte a = s.byte a := by
  obtain ⟨r, hr, -⟩ := offPage_counted s q
  rw [hr]
  rfl

theorem counted_dramCycle (s : State) (q : Txn) : (s.counted q).dramCycle = s.dramCycle := by
  obtain ⟨r, hr, -⟩ := offPage_counted s q
  rw [hr]

theorem counted_postedDone {s : State} {q : Txn} (hop : q.op = 2) :
    (s.counted q).f (lanePage (hostLane q.port)) Reg.FRAME_FRAME_STATUS_POSTED_DONE =
      s.f (lanePage (hostLane q.port)) Reg.FRAME_FRAME_STATUS_POSTED_DONE :=
  counted_f s q (by decide) (by decide) (.inr hop)

/-! ### Its completion -/

/-- The completion of a transaction stores nothing. -/
theorem complete_byte (s : State) (q : Txn) (d : List Byte) (a : Nat) : (s.complete q d).byte a = s.byte a := by
  unfold State.complete
  dsimp only
  split
  · rfl
  · split
    · rfl
    · split
      · rfl
      · unfold State.when
        split <;> rfl

section
variable {t : Nat} {s u : State} {port : Fin 2} {op : Nat} {tag : BitVec 16} {addr count : Nat} {cross : Bool} {data d : List Byte} {q : Txn}
variable (hq : q = (s.upTo t).arriving port op tag addr count cross data) (happ : (s.upTo t).applies q)
  (heff : ∀ k : State → List Byte → Host.Outcome State Fault Refusal, applyTxn ((s.upTo t).counted q) q 3 k = k u d)
  (hkeep : KeepsPort q.port ((s.upTo t).counted q) u)
include hq happ heff hkeep

/-- A READ or a WRITE that has taken effect on arrival is answered. -/
theorem answered (hop : q.op = 0 ∨ q.op = 1) :
    ∃ w, receiveTxn t port op tag.toNat addr count cross data s = .next w ∧
      w.lanes[hostLane q.port].cpls.map Cpl.answer = s.lanes[hostLane q.port].cpls.map Cpl.answer ++ [(q.tag, q.op, q.count, d)] ∧
      ∀ a, w.byte a = u.byte a := by
  have hup : u.laneUp (hostLane q.port).val = true := by
    rw [hkeep.laneUp, counted_laneUp]
    exact happ.1.1
  obtain ⟨hans, -⟩ := complete_answers d hup hop
  refine ⟨_, (receiveTxn_applies hq happ).trans ((heff _).trans (done_eq s _)), hans.trans ?_, fun a => ?_⟩
  · rw [hkeep.lane, (offPage_counted _ q).lanes, upTo_lanes]
  · rw [ended_byte, complete_byte]

/-- A WRITE_POSTED that has taken effect on arrival is counted. -/
theorem posted (hop : q.op = 2) :
    ∃ w, receiveTxn t port op tag.toNat addr count cross data s = .next w ∧
      w.f (lanePage (hostLane q.port)) Reg.FRAME_FRAME_STATUS_POSTED_DONE =
        (s.f (lanePage (hostLane q.port)) Reg.FRAME_FRAME_STATUS_POSTED_DONE + 1) % 2 ^ Reg.FRAME_FRAME_STATUS_POSTED_DONE.width ∧
      ∀ a, w.byte a = u.byte a := by
  have hup : u.laneUp (hostLane q.port).val = true := by
    rw [hkeep.laneUp, counted_laneUp]
    exact happ.1.1
  obtain ⟨hdone, -⟩ := complete_posted d hup hop
  refine ⟨_, (receiveTxn_applies hq happ).trans ((heff _).trans (done_eq s _)), ?_, fun a => ?_⟩
  · rw [ended_f, hdone, hkeep.postedDone, counted_postedDone hop, upTo_f]
  · rw [ended_byte, complete_byte]

end

/-! ### Its effect -/

section
variable {s : State} {q : Txn}

/-- A transaction to DRAM that is no host error lies in one page of DRAM in use (R87, R346). -/
theorem txnStop_dram (hstop : s.txnStop q = none) (hop : q.op ≠ 3) (ha : dramBase ≤ q.addr) :
    q.addr / 4096 = (q.addr + (q.count + 1) - 1) / 4096 ∧ s.dramOn = true ∧ ∀ k < q.count + 1, s.dramUsable (q.addr + k) = true := by
  have hreg : ¬ q.addr < 0x100000 := by
    simp only [dramBase] at ha
    omega
  unfold State.txnStop at hstop
  dsimp only at hstop
  rw [if_neg hop, if_neg hreg, bankAt_dram ha] at hstop
  dsimp only at hstop
  split at hstop
  · cases hstop
  · next hpage =>
    split at hstop
    · split at hstop
      · cases hstop
      · next hon =>
        split at hstop
        · next huse =>
          rw [not_or, not_not] at hon
          refine ⟨not_not.mp hpage, hon.1, fun k hk => List.all_eq_true.mp huse _ (List.mem_map.mpr ⟨k, List.mem_range.mpr hk, rfl⟩)⟩
        · cases hstop
    · cases hstop

/-- A transaction between the registers and DRAM that is no host error is to a bank (R87). -/
theorem txnStop_bank (hstop : s.txnStop q = none) (hop : q.op ≠ 3) (ha : 0x100000 ≤ q.addr) (hb : q.addr < dramBase) : ∃ b, bankAt q.addr = some b := by
  unfold State.txnStop at hstop
  dsimp only at hstop
  rw [if_neg hop, if_neg (Nat.not_lt.mpr ha)] at hstop
  split at hstop
  · cases hstop
  · split at hstop
    · next b hbank => exact ⟨b, hbank⟩
    · rw [if_neg (fun h => absurd h.1 (Nat.not_le.mpr hb))] at hstop
      cases hstop

/-- A READ of DRAM gives its bytes. -/
theorem read_dram (hstop : s.txnStop q = none) (hop : q.op = 0) (ha : dramBase ≤ q.addr) (cls : Nat)
    (k : State → List Byte → Host.Outcome State Fault Refusal) :
    applyTxn s q cls k = k (s.dramRead cls (Pg.LINK (q.port % 2)) q.addr (q.count + 1)) (s.rawBytes q.addr (q.count + 1)) := by
  have hreg : ¬ q.addr < 0x100000 := by
    simp only [dramBase] at ha
    omega
  have hfirst (d : List Byte) : s.readFirst q d = d := if_neg fun h => absurd h.2.1 (Nat.not_lt.mpr ha)
  simp only [applyTxn, hstop, hop, if_neg hreg, bankAt_dram ha, hfirst, OfNat.zero_ne_ofNat, if_false, if_true]

/-- Any READ that is no host error gives some data, and leaves its port. -/
theorem read_keeps (hstop : s.txnStop q = none) (hop : q.op = 0) (cls : Nat) :
    ∃ u d, (∀ k : State → List Byte → Host.Outcome State Fault Refusal, applyTxn s q cls k = k u d) ∧ KeepsPort q.port s u := by
  have hL := hostPage q.port
  unfold applyTxn
  simp only [hstop, hop, OfNat.zero_ne_ofNat, if_false, if_true]
  refine ⟨_, _, fun k => rfl, ?_⟩
  split
  · exact (SamePort.readRegs hL _ s _).keepsPort
  · split
    · next b hbank =>
      have hgate : SamePort (lanePage (hostLane q.port)) s (if b = 18 then s.gateTimes else s) := .ite (.gateTimes hL s) (.refl _ s)
      exact (hgate.trans (.readBank hL _ (bankAt_lt hbank) _ _)).keepsPort
    · exact (DramKeeps.dramRead s _ _ _ _).keepsPort

/-- A write to DRAM. -/
theorem write_dram (hstop : s.txnStop q = none) (hop : q.op = 1 ∨ q.op = 2) (ha : dramBase ≤ q.addr) (cls : Nat)
    (k : State → List Byte → Host.Outcome State Fault Refusal) :
    applyTxn s q cls k = k ((s.dramWrite cls (Pg.LINK (q.port % 2)) q.addr q.data).nextSees q.addr q.data.length) [] := by
  have hreg : ¬ q.addr < 0x100000 := by
    simp only [dramBase] at ha
    omega
  have h3 : q.op ≠ 3 := by omega
  have h0 : q.op ≠ 0 := by omega
  simp only [applyTxn, hstop, if_neg h3, if_neg h0, if_neg hreg, bankAt_dram ha]

/-- A write to a bank. -/
theorem write_bank {b : Nat} (hstop : s.txnStop q = none) (hop : q.op = 1 ∨ q.op = 2) (ha : 0x100000 ≤ q.addr) (hb : bankAt q.addr = some b) (cls : Nat)
    (k : State → List Byte → Host.Outcome State Fault Refusal) :
    applyTxn s q cls k = k (s.portOrder (s.writeBank b q.addr (s.writeUnder q)) q) [] := by
  have h3 : q.op ≠ 3 := by omega
  have h0 : q.op ≠ 0 := by omega
  simp only [applyTxn, hstop, if_neg h3, if_neg h0, if_neg (Nat.not_lt.mpr ha), hb]

/-- What a bank write of HOST_A leaves of its bytes, under HOST_B's of the same cycle (R89). -/
theorem writeUnder_getElem (s : State) (q : Txn) :
    (s.writeUnder q).length = q.data.length ∧ ∀ k (hk : k < (s.writeUnder q).length),
      (s.writeUnder q)[k] = if q.port % 2 = 0 ∧ s.sameCycle 1 (q.addr + k) ≠ [] then s.byte (q.addr + k) else q.data.getD k 0#8 := by
  unfold State.writeUnder
  split
  · next h =>
    refine ⟨by rw [List.length_map, List.length_range], fun k hk => ?_⟩
    rw [List.getElem_map, List.getElem_range]
    by_cases hc : s.sameCycle 1 (q.addr + k) = []
    · rw [if_pos hc, if_neg fun h => h.2 hc]
    · rw [if_neg hc, if_pos ⟨h.1, hc⟩]
  · next h =>
    refine ⟨rfl, fun k hk => ?_⟩
    have hnone : ¬ (q.port % 2 = 0 ∧ s.sameCycle 1 (q.addr + k) ≠ []) := by
      rintro ⟨hp, hc⟩
      refine h ⟨hp, fun hempty => hc ?_⟩
      rw [State.sameCycle, hempty, List.filter_nil]
    rw [if_neg hnone, List.getD_eq_getElem _ _ hk]

/-- A bank write keeps its port, and stores its bytes under HOST_B's of the same cycle. -/
theorem write_bank_stores {b : Nat} (ha : 0x100000 ≤ q.addr) (hb : bankAt q.addr = some b) :
    KeepsPort q.port s (s.portOrder (s.writeBank b q.addr (s.writeUnder q)) q) ∧ ∀ k < q.data.length,
      (s.portOrder (s.writeBank b q.addr (s.writeUnder q)) q).byte (q.addr + k) =
        if q.port % 2 = 0 ∧ s.sameCycle 1 (q.addr + k) ≠ [] then s.byte (q.addr + k) else q.data.getD k 0#8 := by
  obtain ⟨hpwr, hlane, hword, hbyte⟩ := portOrder_bank (s := s) (s1 := s.writeBank b q.addr (s.writeUnder q)) ha
  obtain ⟨hlen, hdata⟩ := writeUnder_getElem s q
  have hkeep := (SamePort.writeBank (hostPage q.port) s (bankAt_lt hb) q.addr (s.writeUnder q)).keepsPort
  refine ⟨⟨hlane.trans hkeep.lane, hpwr.trans hkeep.pwr, fun a h => (congrFun hword a).trans (hkeep.words a h)⟩, fun k hk => ?_⟩
  have hk' : k < (s.writeUnder q).length := hlen.symm ▸ hk
  exact (congrFun hbyte _).trans ((writeBank_byte s b q.addr hk').trans (hdata k hk'))

/-- A write to DRAM keeps its port, and stores each byte that no write of the same cycle covers which merges after it (R353). -/
theorem write_dram_stores {cls : Nat} (hstop : s.txnStop q = none) (hop : q.op ≠ 3) (ha : dramBase ≤ q.addr) (hlen : q.data.length = q.count + 1) :
    KeepsPort q.port s ((s.dramWrite cls (Pg.LINK (q.port % 2)) q.addr q.data).nextSees q.addr q.data.length) ∧ ∀ k < q.data.length,
      (s.dramCycle.cycle = s.now / 16 → ∀ w ∈ s.dramCycle.writes, mergeOrder cls (Pg.LINK (q.port % 2)) < w.1 →
        ¬ (w.2.1 ≤ q.addr + k ∧ q.addr + k < w.2.1 + w.2.2)) →
      ((s.dramWrite cls (Pg.LINK (q.port % 2)) q.addr q.data).nextSees q.addr q.data.length).byte (q.addr + k) = q.data.getD k 0#8 := by
  obtain ⟨hpage, hon, huse⟩ := txnStop_dram hstop hop ha
  rw [← hlen] at hpage huse
  obtain ⟨hkeep, hbyte⟩ := dramWrite_stores (port := q.port) (cls := cls) hon ha hpage huse
  have hsees := DramKeeps.nextSees (port := q.port) (s.dramWrite cls (Pg.LINK (q.port % 2)) q.addr q.data) q.addr q.data.length
  refine ⟨(hkeep.trans hsees.some).keepsPort, fun k hk hfree => ?_⟩
  rw [hsees.bytes _ trivial, hbyte k hk hfree, List.getD_eq_getElem _ _ hk]

end

end Sys2Proof.Proofs
end
section
/-! PROOFS. A transaction that waits, a fence's completion and a completion's frame (R89, R313). -/

namespace Sys2Proof.Proofs

open Sys2Proof.Machine Sys2Proof.Laws

/-! ### Waiting (R313) -/

theorem sendMirror_dip (s : State) (payload : List Byte) : (s.sendMirror payload).dip = s.dip := by
  have hqueue (u : State) (l : Fin 20) : (u.queueFrame l 0x0A payload).dip = u.dip := by
    have hwaiting (v : State) : (v.sendWaiting l).dip = v.dip := (congrArg State.dip (sendWaiting_launch v l).shape).trans rfl
    unfold State.queueFrame
    dsimp only
    split
    · rw [hwaiting, setLane_dip]
    · rfl
  exact (hqueue _ 3).trans (hqueue s 2)

/-- The state in which transaction `q`, which arrives in `s`, waits: it stands in the queue, and in lockstep it is on its way to B (R313). -/
def deferred (s : State) (q : Txn) : State :=
  let u := (s.counted q).setDip fun x => { x with queue := x.queue ++ [q] }
  if decide (s.pairState = pairLockstep) then
    u.sendMirror (leBytes 4 0 ++ leBytes 4 q.arr ++ leBytes 4 (q.port * 2 ^ 16 + q.arr / 2 ^ 32 % 2 ^ 16) ++ q.payload)
  else u

theorem deferred_queue (s : State) (q : Txn) : (deferred s q).dip.queue = s.dip.queue ++ [q] := by
  have hdip : (s.counted q).dip = s.dip := (offPage_counted s q).dip
  have hqueue : ((s.counted q).setDip fun x => { x with queue := x.queue ++ [q] }).dip.queue = s.dip.queue ++ [q] :=
    congrArg (fun d : DipSt => d.queue ++ [q]) hdip
  unfold deferred
  dsimp only
  split
  · rw [sendMirror_dip, hqueue]
  · exact hqueue

theorem deferred_byte (s : State) (q : Txn) (a : Nat) : (deferred s q).byte a = s.byte a := by
  unfold deferred
  dsimp only
  split
  · rw [State.byte, sendMirror_mem]
    exact counted_byte s q a
  · exact counted_byte s q a

/-- A transaction that is deferred waits behind those that wait, and nothing is stored. -/
theorem receiveTxn_defers {t : Nat} {s : State} {port : Fin 2} {op : Nat} {tag : BitVec 16} {addr count : Nat} {cross : Bool} {data : List Byte}
    {q : Txn} (hq : q = (s.upTo t).arriving port op tag addr count cross data) (h : (s.upTo t).defers q) :
    ∃ w, receiveTxn t port op tag.toNat addr count cross data s = .next w ∧ w.dip.queue = s.dip.queue ++ [q] ∧ SameMem s w := by
  obtain ⟨⟨hup, hstep, hlim⟩, hrole, hwait⟩ := h
  have hsys : Pg.SYS ≠ lanePage (hostLane q.port) := by have := hostPage q.port; simp only [Pg.SYS]; omega
  have hcounted : ((s.upTo t).counted q).roleB = (s.upTo t).roleB := by
    simp only [State.roleB, State.fb, (offPage_counted (s.upTo t) q).f hsys (fl := Reg.SYS_STRAPS) (by decide)]
  have hbehind : ((s.upTo t).counted q).waiting q.port = (s.upTo t).waiting q.port := by
    simp only [State.waiting, hcounted, (offPage_counted (s.upTo t) q).dip]
  have hB : ¬ (decide ((s.upTo t).pairState = pairLockstep) = true ∧ (s.upTo t).roleB = true ∧ ¬ bAccepts q = true) :=
    fun h => Bool.false_ne_true (hrole.symm.trans h.2.1)
  have hA : ¬ ((s.upTo t).counted q).roleB = true ∧
      (decide ((s.upTo t).pairState = pairLockstep) = true ∨ ((s.upTo t).counted q).waiting q.port ≠ []) := by
    rw [hcounted, hbehind, hrole, decide_eq_true_eq]
    exact ⟨Bool.false_ne_true, hwait⟩
  have hpath : receiveTxn t port op tag.toNat addr count cross data s = done s (deferred (s.upTo t) q) := by
    subst hq
    exact (if_neg (not_not.mpr hup)).trans ((if_neg (Bool.eq_false_iff.mp hstep)).trans ((if_neg (Bool.eq_false_iff.mp hlim)).trans
      ((if_neg hB).trans (if_pos hA))))
  refine ⟨_, hpath.trans (done_eq s _), ?_, fun a => ?_⟩
  · rw [ended_dip, deferred_queue, upTo_dip]
  · rw [ended_byte, deferred_byte, upTo_byte]

/-! ### A fence (R89) -/

/-- A fence that arrives behind nothing that waits joins the fences of its port. -/
theorem fence_joins {t : Nat} {s : State} {port : Fin 2} {tag : BitVec 16} {cross : Bool} {q : Txn}
    (hq : q = (s.upTo t).arriving port 3 tag 0 0 cross []) (happ : (s.upTo t).applies q) :
    ∃ w, receiveTxn t port 3 tag.toNat 0 0 cross [] s = .next w ∧ w.lanes[hostLane q.port].fences = s.lanes[hostLane q.port].fences ++ [q] := by
  have hop : q.op = 3 := congrArg Txn.op hq
  have hup : ((s.upTo t).counted q).laneUp (hostLane q.port).val = true := (counted_laneUp _ q).trans happ.1.1
  have heff (k : State → List Byte → Host.Outcome State Fault Refusal) : applyTxn ((s.upTo t).counted q) q 3 k = k ((s.upTo t).counted q) [] := by
    simp only [applyTxn, happ.2.2, hop, if_true]
  have hdone (d : List Byte) : ((s.upTo t).counted q).complete q d =
      ((s.upTo t).counted q).setLane (hostLane q.port) fun x => { x with fences := x.fences ++ [q] } := by
    have h2 : q.op ≠ 2 := by omega
    rw [State.complete, if_neg (not_not.mpr hup), if_neg h2, if_pos hop]
  refine ⟨_, (receiveTxn_applies hq happ).trans ((heff _).trans (done_eq s _)), ?_⟩
  rw [hdone, ended_lanes, setLane_lane, (offPage_counted _ q).lanes, upTo_lanes]

theorem fenceReady_upTo (s : State) (t : Nat) (q : Txn) : (s.upTo t).fenceReady q = s.fenceReady q := by
  simp only [State.fenceReady, State.waiting, upTo_roleB, upTo_dip]

/-- The oldest fence of a port completes, once it waits for nothing. -/
theorem fence_completes {t : Nat} {s : State} {port : Fin 2} {q : Txn} {r : List Txn} (hfences : s.lanes[hostLane port.val].fences = q :: r)
    (hready : s.fenceReady q = true) :
    ∃ w, execFenceComplete t port s = .next w ∧ w.lanes[hostLane port.val].fences = r ∧
      w.lanes[hostLane port.val].cpls.map Cpl.answer = s.lanes[hostLane port.val].cpls.map Cpl.answer ++ [(q.tag, 3, 0, [])] := by
  have hnow : (s.upTo t).lanes[hostLane port.val].fences = q :: r := by rw [upTo_lanes, hfences]
  unfold execFenceComplete
  dsimp only
  rw [hnow]
  dsimp only
  rw [if_pos ((fenceReady_upTo s t q).trans hready)]
  refine ⟨_, done_eq s _, ?_, ?_⟩
  · rw [ended_lanes, setLane_lane]
  · rw [ended_lanes, setLane_lane, upTo_lanes, List.map_append]
    rfl

/-! ### A completion's frame (R89) -/

/-- A field is less than its width allows. -/
theorem f_lt_width (s : State) (p : Nat) (fl : Fld) : s.f p fl < 2 ^ fl.width := Nat.mod_lt _ (Nat.two_pow_pos _)

/-- A count that is raised saturates at its width. -/
theorem f_inc_same (s : State) (p : Nat) {fl : Fld} (n : Nat) (h : Fits fl) : (s.inc p fl n).f p fl = satU (s.f p fl + n) fl.width := by
  have hpos : 0 < 2 ^ fl.width := Nat.two_pow_pos _
  rw [inc_eq, f_setF_same _ _ _ _ h]
  exact Nat.mod_eq_of_lt (by simp only [satU]; omega)

theorem sendFrame_outstanding (s : State) (l : Fin 20) (ty flags : Nat) (payload : List Byte) (v p : Nat) :
    (s.sendFrame l ty flags payload v).f p Reg.FRAME_FRAME_STATUS_OUTSTANDING = s.f p Reg.FRAME_FRAME_STATUS_OUTSTANDING := by
  unfold State.sendFrame
  dsimp only
  split
  · by_cases hp : p = lanePage l
    · rw [hp, f_setF_apart _ _ _ _ _ (by decide) (by decide) (by decide), setLane_f]
    · rw [f_setF_page _ _ _ _ _ _ (by decide) (by decide) hp, setLane_f]
  · rw [setLane_f]

/-- The completion that is next leaves, and stands no longer in the counts of its port (R88). -/
theorem cpl_leaves {t : Nat} {s : State} {port : Fin 2} {c : Cpl} (hup : s.laneUp (hostLane port.val).val = true)
    (hnext : (s.upTo t).nextCpl (hostLane port.val) = some c)
    (hmay : (s.upTo t).mayStart (hostLane port.val) ⟨3, (s.upTo t).nextSeq (hostLane port.val) 3, 0,
      c.payload (s.f (lanePage (hostLane port.val)) Reg.FRAME_FRAME_STATUS_POSTED_DONE)⟩ = true) :
    ∃ w, execCplSend t port s = .next w ∧ w.lanes[hostLane port.val].cpls = s.lanes[hostLane port.val].cpls.erase c ∧
      (w.lanes[hostLane port.val].tx.map fun q => (q.2.ty, q.2.payload)) =
        some (3, c.payload (s.f (lanePage (hostLane port.val)) Reg.FRAME_FRAME_STATUS_POSTED_DONE)) ∧
      w.f (lanePage (hostLane port.val)) Reg.FRAME_CPL_SENT =
        satU (s.f (lanePage (hostLane port.val)) Reg.FRAME_CPL_SENT + 1) Reg.FRAME_CPL_SENT.width ∧
      (s.f (lanePage (hostLane port.val)) Reg.FRAME_FRAME_STATUS_OUTSTANDING ≠ 0 →
        w.f (lanePage (hostLane port.val)) Reg.FRAME_FRAME_STATUS_OUTSTANDING + 1 =
          s.f (lanePage (hostLane port.val)) Reg.FRAME_FRAME_STATUS_OUTSTANDING) := by
  unfold execCplSend
  dsimp only
  rw [hnext]
  dsimp only
  rw [if_pos ((upTo_laneUp s t _).trans hup), upTo_f, trySend_starts _ hmay]
  have hlanes (u : State) (g : Lane → Lane) (p v : Nat) :
      (ended s (((u.setLane (hostLane port.val) g).inc p Reg.FRAME_CPL_SENT).setF p Reg.FRAME_FRAME_STATUS_OUTSTANDING v)).lanes =
        (u.setLane (hostLane port.val) g).lanes := rfl
  refine ⟨_, done_eq s _, ?_, ?_, ?_, ?_⟩
  · rw [hlanes, setLane_lane, sendFrame_lane, Lane.sent, upTo_lanes]
  · rw [hlanes, setLane_lane, sendFrame_tx]
    rfl
  · rw [ended_f, f_setF_off _ _ _ _ (by decide) (by decide) (by decide), f_inc_same _ _ _ (by decide), setLane_f,
      sendFrame_f _ _ _ _ _ _ _ (by decide) (by decide), upTo_f]
  · intro hpos
    have hlt := f_lt_width s (lanePage (hostLane port.val)) Reg.FRAME_FRAME_STATUS_OUTSTANDING
    rw [ended_f, f_setF_same _ _ _ _ (by decide), sendFrame_outstanding, upTo_f, Nat.mod_eq_of_lt (by omega)]
    omega

end Sys2Proof.Proofs
end
section
/-! PROOFS. The clauses of HostTransactions. -/

namespace Sys2Proof.Proofs

open Sys2Proof.Machine Sys2Proof.Laws

/-- The data that a TXN brings is cut or filled to its count. -/
theorem arriving_data (s : State) (port : Fin 2) (op : Nat) (tag : BitVec 16) (addr count : Nat) (cross : Bool) (data : List Byte) :
    (s.arriving port op tag addr count cross data).data.length = count + 1 ∧
      ∀ k < count + 1, (s.arriving port op tag addr count cross data).data.getD k 0#8 = data.getD k 0#8 := by
  have hlen : count + 1 ≤ (data ++ List.replicate (count + 1) 0#8).length := by
    rw [List.length_append, List.length_replicate]
    omega
  refine ⟨List.length_take_of_le hlen, fun k hk => ?_⟩
  unfold State.arriving
  simp only [List.getD_eq_getElem?_getD, List.getElem?_take, if_pos hk, List.getElem?_append, List.getElem?_replicate]
  split
  · rfl
  · next hout => simp only [List.getElem?_eq_none (Nat.not_lt.mp hout), if_pos (show k - data.length < count + 1 by omega), Option.getD_some, Option.getD_none]

section
variable {t : Nat} {port : Fin 2} {op : Nat} {tag : BitVec 16} {addr count : Nat} {data : List Byte} {s : State} {q : Txn}

/-- A WRITE or WRITE_POSTED to DRAM that takes effect on arrival: the state it is completed in (R353). -/
theorem arrives_dram (hq : q = (s.upTo t).arriving port op tag addr count false data) (happ : (s.upTo t).applies q) (hop : op = 1 ∨ op = 2)
    (ha : dramBase ≤ addr) :
    ∃ u, (∀ k : State → List Byte → Host.Outcome State Fault Refusal, applyTxn ((s.upTo t).counted q) q 3 k = k u []) ∧
      KeepsPort q.port ((s.upTo t).counted q) u ∧
      ∀ k < count + 1, ((s.upTo t).dramCycle.cycle = (s.upTo t).now / 16 →
        ∀ w ∈ (s.upTo t).dramCycle.writes, mergeOrder 3 (Pg.LINK port.val) < w.1 → ¬ (w.2.1 ≤ addr + k ∧ addr + k < w.2.1 + w.2.2)) →
        u.byte (addr + k) = data.getD k 0#8 := by
  subst hq
  obtain ⟨hlen, hdata⟩ := arriving_data (s.upTo t) port op tag addr count false data
  have hwho : Pg.LINK (port.val % 2) = Pg.LINK port.val := congrArg Pg.LINK (Nat.mod_eq_of_lt port.isLt)
  obtain ⟨hkeep, hbyte⟩ := write_dram_stores (cls := 3) happ.2.2 (show op ≠ 3 by omega) ha hlen
  refine ⟨_, write_dram happ.2.2 hop ha 3, hkeep, fun k hk hfree => (hbyte k (hlen.symm ▸ hk) ?_).trans (hdata k hk)⟩
  rw [counted_dramCycle, (offPage_counted _ _).now]
  exact hwho.symm ▸ hfree

/-- A WRITE or WRITE_POSTED to a bank that takes effect on arrival: the state it is completed in (R89). -/
theorem arrives_bank (hq : q = (s.upTo t).arriving port op tag addr count false data) (happ : (s.upTo t).applies q) (hop : op = 1 ∨ op = 2)
    (ha : 0x100000 ≤ addr) (hb : addr < dramBase) :
    ∃ u, (∀ k : State → List Byte → Host.Outcome State Fault Refusal, applyTxn ((s.upTo t).counted q) q 3 k = k u []) ∧
      KeepsPort q.port ((s.upTo t).counted q) u ∧
      ∀ k < count + 1, u.byte (addr + k) =
        if port.val = 0 ∧ (s.upTo t).sameCycle 1 (addr + k) ≠ [] then (s.upTo t).byte (addr + k) else data.getD k 0#8 := by
  subst hq
  obtain ⟨hlen, hdata⟩ := arriving_data (s.upTo t) port op tag addr count false data
  obtain ⟨b, hbank⟩ := txnStop_bank happ.2.2 (show op ≠ 3 by omega) ha hb
  obtain ⟨hkeep, hbyte⟩ := write_bank_stores (s := (s.upTo t).counted ((s.upTo t).arriving port op tag addr count false data)) ha hbank
  refine ⟨_, write_bank happ.2.2 hop ha hbank 3, hkeep, fun k hk => (hbyte k (hlen.symm ▸ hk)).trans ?_⟩
  rw [(offPage_counted _ _).sameCycle, counted_byte, hdata k hk]
  exact if_congr (and_congr_left' (hostPort_even port)) rfl rfl

end

/-- Settles O53: a transaction is answered or counted in a state whose effect has left its port alone, and waits or leaves as the queue and the line
have it. -/
theorem hostTransactions : Obligations.HostTransactions := by
  unfold Obligations.HostTransactions
  refine ⟨?_, ?_, ?_, ?_, ?_, ?_, ?_, ?_, ?_, ?_, ?_, ?_, ?_⟩
  · intro t port tag addr count s happ ha
    obtain ⟨w, hw, hans, -⟩ := answered rfl happ (read_dram happ.2.2 rfl ha 3) (DramKeeps.dramRead _ _ _ _ _).keepsPort (.inl rfl)
    refine ⟨w, hw, hans.trans ?_⟩
    have hraw : ((s.upTo t).counted ((s.upTo t).arriving port 0 tag addr.toNat count false [])).rawBytes addr.toNat (count.val + 1) =
        s.rawBytes addr.toNat (count.val + 1) := by
      simp only [State.rawBytes, counted_byte, upTo_byte]
    rw [← hraw]
    rfl
  · intro t port tag addr count s happ _
    obtain ⟨u, d, heff, hkeep⟩ := read_keeps happ.2.2 rfl 3
    obtain ⟨w, hw, hans, -⟩ := answered rfl happ heff hkeep (.inl rfl)
    refine ⟨w, hw, ?_⟩
    have hhead := congrArg (List.map fun x : Nat × Nat × Nat × List Byte => (x.1, x.2.1, x.2.2.1)) hans
    rwa [List.map_append, List.map_map, List.map_map] at hhead
  · intro t port tag addr count data s happ ha
    obtain ⟨u, heff, hkeep, hbyte⟩ := arrives_dram rfl happ (.inl rfl) ha
    obtain ⟨w, hw, hans, hmem⟩ := answered rfl happ heff hkeep (.inr rfl)
    exact ⟨w, hw, fun k hk hfree => (hmem _).trans (hbyte k hk hfree), hans⟩
  · intro t port tag addr count data s happ ha hb
    obtain ⟨u, heff, hkeep, hbyte⟩ := arrives_bank rfl happ (.inl rfl) ha hb
    obtain ⟨w, hw, hans, hmem⟩ := answered rfl happ heff hkeep (.inr rfl)
    exact ⟨w, hw, fun k hk => (hmem _).trans (hbyte k hk), hans⟩
  · intro t port tag addr count data s happ ha
    obtain ⟨u, heff, hkeep, hbyte⟩ := arrives_dram rfl happ (.inr rfl) ha
    obtain ⟨w, hw, hdone, hmem⟩ := posted rfl happ heff hkeep rfl
    exact ⟨w, hw, fun k hk hfree => (hmem _).trans (hbyte k hk hfree), hdone⟩
  · intro t port tag addr count data s happ ha hb
    obtain ⟨u, heff, hkeep, hbyte⟩ := arrives_bank rfl happ (.inr rfl) ha hb
    obtain ⟨w, hw, hdone, hmem⟩ := posted rfl happ heff hkeep rfl
    exact ⟨w, hw, fun k hk => (hmem _).trans (hbyte k hk), hdone⟩
  · exact fun t port tag cross s happ => fence_joins rfl happ
  · exact fun t port tag addr count s h => receiveTxn_defers rfl h
  · exact fun t port tag addr count data s h => receiveTxn_defers rfl h
  · exact fun t port tag addr count data s h => receiveTxn_defers rfl h
  · exact fun t port tag cross s h => receiveTxn_defers rfl h
  · exact fun t port q r s hfences hready => fence_completes hfences hready
  · exact fun t port c s hup hnext hmay => cpl_leaves hup hnext hmay

end Sys2Proof.Proofs
end
